-- ==== Sys2Proof/Word.lean ====
section
/-! DEFINITION. Sys2Proof/Word.lean: the words of the machine. -/

namespace Sys2Proof

/-- A 32-bit scalar word (R69). -/
abbrev Word := BitVec 32

/-- A byte. -/
abbrev Byte := BitVec 8

/-- A 256-byte row of a tile, of scratchpad or of a plane (R114, R214): byte k is bits [8k+7:8k]. -/
abbrev Row := BitVec 2048

/-- Data by key, for what is mostly at its reset value: (key, value) pairs, keys strictly rising, and no pair whose value
is the default. Machine/Sparse.lean reads and writes it. -/
abbrev Sparse (α : Type) := List (Nat × α)

end Sys2Proof
end

