-- ==== Sys2Proof/Machine/Num.lean ====
section
/-! DEFINITION. Sys2Proof/Machine/Num.lean: number formats and exact arithmetic (R92-R113). A finite value is a sign, a magnitude
m and an exponent e, worth m * 2^e; sums and products of such values are formed exactly, and roundTo rounds once. -/

namespace Sys2Proof.Machine

/-- The five status flags of R105, NV DZ OF UF NX from bit 4 down. -/
abbrev Flags := BitVec 5

def flagNV : Flags := 16
def flagDZ : Flags := 8
def flagOF : Flags := 4
def flagUF : Flags := 2
def flagNX : Flags := 1

/-- A flag when a condition holds. -/
def flagIf (b : Bool) (f : Flags) : Flags := if b then f else 0

/-- R96: the rounding modes, 0 RNE, 1 RTZ, 2 RDN, 3 RUP (R33). -/
abbrev RMode := BitVec 2

/-- The value of an element code: finite with its sign (a zero has m = 0), an infinity, or a NaN. -/
inductive Val where
  | fin (neg : Bool) (m : Nat) (e : Int)
  | inf (neg : Bool)
  | nan (signalling : Bool)
deriving DecidableEq, Repr

/-- R131: the format codes of the eight floating formats are 0 to 7 (R22). -/
def isFloat (f : Nat) : Bool := decide (f < 8)

/-- R131: INT32, INT8 and INT4. -/
def isInt (f : Nat) : Bool := f == 8 || f == 9 || f == 11

/-- R92: the width of an element code in bits. -/
def fmtWidth (f : Nat) : Nat :=
  match f with
  | 0 => 32
  | 1 => 16
  | 2 => 16
  | 3 => 8
  | 4 => 8
  | 5 => 6
  | 6 => 6
  | 7 => 4
  | 8 => 32
  | 9 => 8
  | 10 => 8
  | _ => 4

/-- R92: the bits from one element to the next; a 6-bit code has a byte of its own. -/
def fmtStride (f : Nat) : Nat := if fmtWidth f = 6 then 8 else fmtWidth f

/-- R115: the elements of a row. -/
def fmtCount (f : Nat) : Nat := 2048 / fmtStride f

/-- R93: the width of the exponent field. -/
def fmtExp (f : Nat) : Nat :=
  match f with
  | 0 => 8
  | 1 => 5
  | 2 => 8
  | 3 => 4
  | 4 => 5
  | 5 => 2
  | 6 => 3
  | _ => 2

/-- R93: the width of the mantissa field. -/
def fmtMant (f : Nat) : Nat :=
  match f with
  | 0 => 23
  | 1 => 10
  | 2 => 7
  | 3 => 3
  | 4 => 2
  | 5 => 3
  | 6 => 2
  | _ => 1

/-- R93: the bias of the exponent field. -/
def fmtBias (f : Nat) : Nat :=
  match f with
  | 0 => 127
  | 1 => 15
  | 2 => 127
  | 3 => 7
  | 4 => 15
  | 5 => 1
  | 6 => 3
  | _ => 1

/-- R93: EMIN, the exponent of the smallest normal value. -/
def fmtEmin (f : Nat) : Int := 1 - (fmtBias f : Int)

/-- R94: FP32, FP16, BF16 and E5M2 have infinities, and NaNs of many codes. -/
def fmtInf (f : Nat) : Bool := f == 0 || f == 1 || f == 2 || f == 4

/-- R94: E4M3 has two NaN codes; E2M3, E3M2 and E2M1 have none. -/
def fmtHasNan (f : Nat) : Bool := fmtInf f || f == 3

/-- R94: the default NaN. -/
def fmtNan (f : Nat) : Nat :=
  match f with
  | 0 => 0x7FC00000
  | 1 => 0x7E00
  | 2 => 0x7FC0
  | 3 => 0x7F
  | _ => 0x7E

/-- The code of the largest finite value (R93). -/
def fmtMaxCode (f : Nat) : Nat :=
  match f with
  | 0 => 0x7F7FFFFF
  | 1 => 0x7BFF
  | 2 => 0x7F7F
  | 3 => 0x7E
  | 4 => 0x7B
  | 5 => 0x1F
  | 6 => 0x1F
  | _ => 0x7

/-- The code of positive infinity, where the format has one (R94). -/
def fmtInfCode (f : Nat) : Nat := (2 ^ fmtExp f - 1) * 2 ^ fmtMant f

/-- The sign bit of a code as a number. -/
def signBit (f : Nat) (neg : Bool) : Nat := if neg then 2 ^ (fmtWidth f - 1) else 0

/-- R93, R94: the value of a floating code. -/
def decodeFloat (f code : Nat) : Val :=
  let neg := code / 2 ^ (fmtWidth f - 1) % 2 == 1
  let ex := code / 2 ^ fmtMant f % 2 ^ fmtExp f
  let m := code % 2 ^ fmtMant f
  if fmtInf f && ex == 2 ^ fmtExp f - 1 then
    if m = 0 then .inf neg else .nan (m / 2 ^ (fmtMant f - 1) % 2 == 0)
  else if f == 3 && code % 128 == 127 then .nan false
  else if ex = 0 then .fin neg m (fmtEmin f - fmtMant f)
  else .fin neg (2 ^ fmtMant f + m) ((ex : Int) - fmtBias f - fmtMant f)

/-- R96: the integer nearest m * 2^(-s) in a mode, for a value of the given sign, and whether it is inexact. -/
def roundShift (mode : RMode) (neg : Bool) (m s : Nat) : Nat × Bool :=
  let q := m / 2 ^ s
  let r := m % 2 ^ s
  let up :=
    if r = 0 then false
    else if mode = 0 then decide (2 ^ s < 2 * r) || (decide (2 * r = 2 ^ s) && q % 2 == 1)
    else if mode = 1 then false
    else if mode = 2 then neg
    else !neg
  (if up then q + 1 else q, r != 0)

/-- R96: RoundInt of the magnitude m * 2^e, for a value of the given sign, and whether it is inexact. -/
def roundMag (mode : RMode) (neg : Bool) (m : Nat) (e : Int) : Nat × Bool :=
  if 0 ≤ e then (m * 2 ^ e.toNat, false) else roundShift mode neg m (-e).toNat

/-- R98: OverOut. -/
def overOut (f : Nat) (neg : Bool) (mode : RMode) : Nat × Flags :=
  let toInf := fmtInf f && (mode == 0 || (mode == 2 && neg) || (mode == 3 && !neg))
  (signBit f neg + (if toInf then fmtInfCode f else fmtMaxCode f), flagOF ||| flagNX)

/-- R98: InfOut. -/
def infOut (f : Nat) (neg : Bool) : Nat × Flags :=
  if fmtInf f then (signBit f neg + fmtInfCode f, 0) else (signBit f neg + fmtMaxCode f, flagOF)

/-- The magnitude m * 2^e is at least the number k. -/
def magAtLeast (k m : Nat) (e : Int) : Bool := decide (k * 2 ^ (-e).toNat ≤ m * 2 ^ e.toNat)

/-- R102: a magnitude that saturates in E4M3 under RNE although the nearest grid point is MAX: from 460 on, the value that the rule names (log 113). -/
def saturatesNear (f : Nat) (mode : RMode) (m : Nat) (e : Int) : Bool := f == 3 && mode == 0 && magAtLeast 460 m e

/-- R97, R102: RoundTo of a finite value. -/
def roundFin (f : Nat) (mode : RMode) (neg : Bool) (m : Nat) (e : Int) : Nat × Flags :=
  if m = 0 then (signBit f neg, 0)
  else
    let lg : Int := (Nat.log2 m : Int) + e
    let ex := max lg (fmtEmin f)
    let n := roundMag mode neg m (e - (ex - fmtMant f))
    let code := (ex + fmtBias f).toNat * 2 ^ fmtMant f + n.1 - 2 ^ fmtMant f
    let fl := flagIf n.2 flagNX ||| flagIf (n.2 && decide (lg < fmtEmin f)) flagUF
    if fmtMaxCode f < code || saturatesNear f mode m e then
      let r := overOut f neg mode
      (r.1, fl ||| r.2)
    else (signBit f neg + code, fl)

/-- R94, R100: a NaN result, with NV when an operand was signalling or the operation invalid; +0 with NV where the format has
no NaN. -/
def nanResult (f : Nat) (nv : Bool) : Nat × Flags :=
  if fmtHasNan f then (fmtNan f, flagIf nv flagNV) else (0, flagNV)

/-- R97, R100: RoundTo of the value of an operation. -/
def roundTo (f : Nat) (mode : RMode) (v : Val) : Nat × Flags :=
  match v with
  | .fin neg m e => roundFin f mode neg m e
  | .inf neg => infOut f neg
  | .nan s => nanResult f s

/-- An operand is a NaN. -/
def isNan (v : Val) : Bool :=
  match v with
  | .nan _ => true
  | _ => false

/-- An operand is a signalling NaN. -/
def isSig (v : Val) : Bool :=
  match v with
  | .nan s => s
  | _ => false

/-- The magnitude and sign as an integer, at exponent g no larger than e. -/
def scaledInt (neg : Bool) (m : Nat) (e g : Int) : Int :=
  let x : Int := (m * 2 ^ (e - g).toNat : Nat)
  if neg then -x else x

/-- R99: the exact sum; a zero that cancels is -0 in RDN alone. -/
def addVal (mode : RMode) (a b : Val) : Val :=
  match a, b with
  | .nan x, .nan y => .nan (x || y)
  | .nan x, _ => .nan x
  | _, .nan y => .nan y
  | .inf x, .inf y => if x = y then .inf x else .nan true
  | .inf x, .fin _ _ _ => .inf x
  | .fin _ _ _, .inf y => .inf y
  | .fin na ma ea, .fin nb mb eb =>
    if ma = 0 ∧ mb = 0 ∧ na = nb then .fin na 0 0
    else
      let g := min ea eb
      let s := scaledInt na ma ea g + scaledInt nb mb eb g
      if s = 0 then .fin (mode == 2) 0 0 else .fin (decide (s < 0)) s.natAbs g

/-- The negation of a value. -/
def negVal (a : Val) : Val :=
  match a with
  | .fin n m e => .fin (!n) m e
  | .inf n => .inf (!n)
  | .nan s => .nan s

/-- R99: the exact product. -/
def mulVal (a b : Val) : Val :=
  match a, b with
  | .nan x, .nan y => .nan (x || y)
  | .nan x, _ => .nan x
  | _, .nan y => .nan y
  | .inf x, .inf y => .inf (x != y)
  | .inf x, .fin nb mb _ => if mb = 0 then .nan true else .inf (x != nb)
  | .fin na ma _, .inf y => if ma = 0 then .nan true else .inf (na != y)
  | .fin na ma ea, .fin nb mb eb => .fin (na != nb) (ma * mb) (ea + eb)

/-- R100: the exact a * b + c. A NaN operand decides before an invalid product does, as the rule's table lists them. -/
def fmaVal (mode : RMode) (a b c : Val) : Val :=
  if isNan a || isNan b || isNan c then .nan (isSig a || isSig b || isSig c)
  else addVal mode (mulVal a b) c

/-- The comparison of two values that are not NaN: less. -/
def ltVal (a b : Val) : Bool :=
  match a, b with
  | .inf x, .inf y => x && !y
  | .inf x, _ => x
  | _, .inf y => !y
  | .fin na ma ea, .fin nb mb eb =>
    let g := min ea eb
    decide (scaledInt na ma ea g < scaledInt nb mb eb g)
  | _, _ => false

/-- The comparison of two values that are not NaN: equal, with both zeros equal. -/
def eqVal (a b : Val) : Bool :=
  match a, b with
  | .inf x, .inf y => x == y
  | .fin na ma ea, .fin nb mb eb =>
    let g := min ea eb
    decide (scaledInt na ma ea g = scaledInt nb mb eb g)
  | _, _ => false

/-- R95: the lowest value of an integer format. -/
def intLo (f : Nat) : Int := if isInt f then -(2 ^ (fmtWidth f - 1) : Nat) else 0

/-- R95: the highest value of an integer format. -/
def intHi (f : Nat) : Int := if isInt f then (2 ^ (fmtWidth f - 1) - 1 : Nat) else (2 ^ fmtWidth f - 1 : Nat)

/-- R95: the integer of a code. -/
def decodeInt (f code : Nat) : Int :=
  if isInt f && decide (2 ^ (fmtWidth f - 1) ≤ code) then (code : Int) - (2 ^ fmtWidth f : Nat) else code

/-- The code of an integer of the format's range. -/
def encodeInt (f : Nat) (n : Int) : Nat := (n % (2 ^ fmtWidth f : Nat)).toNat

/-- R46, R132: SatInt and SatNat; OF when it clamps. -/
def satInt (f : Nat) (n : Int) : Nat × Flags :=
  if n < intLo f then (encodeInt f (intLo f), flagOF)
  else if intHi f < n then (encodeInt f (intHi f), flagOF)
  else (encodeInt f n, 0)

/-- R104: RoundToInt. -/
def roundToInt (f : Nat) (mode : RMode) (v : Val) : Nat × Flags :=
  match v with
  | .nan _ => (0, flagNV)
  | .inf neg => (encodeInt f (if neg then intLo f else intHi f), flagOF)
  | .fin neg m e =>
    let n := roundMag mode neg m e
    let x : Int := if neg then -(n.1 : Int) else n.1
    if x < intLo f then (encodeInt f (intLo f), flagOF ||| flagNX)
    else if intHi f < x then (encodeInt f (intHi f), flagOF ||| flagNX)
    else (encodeInt f x, flagIf n.2 flagNX)

/-- The value of an integer. -/
def valOfInt (n : Int) : Val := .fin (decide (n < 0)) n.natAbs 0

/-- R101, R102: the conversion of a NaN code from a format into another. -/
def convertNan (src f code : Nat) (sig : Bool) : Nat × Flags :=
  if fmtHasNan f then
    let neg := code / 2 ^ (fmtWidth src - 1) % 2 == 1
    if f = 3 then (signBit f neg + 0x7F, flagIf sig flagNV)
    else
      let pay := code % 2 ^ fmtMant src * 2 ^ fmtMant f / 2 ^ fmtMant src
      let quiet := 2 ^ (fmtMant f - 1)
      let m := if pay / quiet % 2 = 1 then pay else pay + quiet
      (signBit f neg + fmtInfCode f + m, flagIf sig flagNV)
  else (0, flagNV)

/-- R101-R104, R139: one element from a format into another. -/
def convert (src f : Nat) (mode : RMode) (code : Nat) : Nat × Flags :=
  if isFloat src then
    let v := decodeFloat src code
    if isFloat f then
      match v with
      | .nan s => convertNan src f code s
      | _ => roundTo f mode v
    else roundToInt f mode v
  else if isFloat f then roundTo f mode (valOfInt (decodeInt src code))
  else satInt f (decodeInt src code)

/-- R92: element k of a row. -/
def elemAt (f : Nat) (r : Row) (k : Nat) : Nat := r.toNat / 2 ^ (fmtStride f * k) % 2 ^ fmtWidth f

/-- R92: the bits of a row whose elements have the given codes, element 0 first. -/
def packBits (f : Nat) (l : List Nat) : Nat :=
  match l with
  | [] => 0
  | c :: rest => c % 2 ^ fmtWidth f + packBits f rest * 2 ^ fmtStride f

/-- R129: the row whose element k is c k. -/
def rowOf (f : Nat) (c : Nat → Nat) : Row := BitVec.ofNat 2048 (packBits f ((List.range (fmtCount f)).map c))

/-- R129, R106: the row whose element k is the code of c k, with the union of the elements' flags. -/
def rowOfFlags (f : Nat) (c : Nat → Nat × Flags) : Row × Flags :=
  let l := (List.range (fmtCount f)).map c
  (BitVec.ofNat 2048 (packBits f (l.map Prod.fst)), l.foldl (fun a x => a ||| x.2) 0)

/-- R134: VMIN and VMAX of two floating elements. -/
def pickFloat (f : Nat) (wantMax : Bool) (ca cb : Nat) : Nat × Flags :=
  let a := decodeFloat f ca
  let b := decodeFloat f cb
  if isNan a || isNan b then nanResult f (isSig a || isSig b)
  else if eqVal a b then
    let aNeg := ca / 2 ^ (fmtWidth f - 1) % 2 == 1
    (if aNeg == wantMax then cb else ca, 0)
  else (if ltVal a b == wantMax then cb else ca, 0)

/-- R134: VMIN and VMAX of two integer elements. -/
def pickInt (f : Nat) (wantMax : Bool) (ca cb : Nat) : Nat × Flags :=
  (if decide (decodeInt f ca < decodeInt f cb) == wantMax then cb else ca, 0)

/-- One level of a pairwise tree (R112): sums of neighbours, rounded to FP32. -/
def treeLevel (mode : RMode) (l : List Nat) : List (Nat × Flags) :=
  match l with
  | a :: b :: rest => roundTo 0 mode (addVal mode (decodeFloat 0 a) (decodeFloat 0 b)) :: treeLevel mode rest
  | _ => []

/-- R112: d levels of the tree over FP32 codes, with the union of the nodes' flags. -/
def treeUp (mode : RMode) (d : Nat) (l : List Nat) (fl : Flags) : Nat × Flags :=
  match d with
  | 0 => (l.headD 0, fl)
  | d + 1 =>
    let n := treeLevel mode l
    treeUp mode d (n.map Prod.fst) (n.foldl (fun a x => a ||| x.2) fl)

/-- R112: TreeSum of the elements of a floating row. A NaN leaf is quieted where it is first added; it is signalling there if its
code is. -/
def treeSum (f : Nat) (mode : RMode) (r : Row) : Nat × Flags :=
  let leaves := (List.range (fmtCount f)).map (fun k => elemAt f r k)
  let sig := leaves.any (fun c => isSig (decodeFloat f c))
  let wide := leaves.map (fun c => (convert f 0 mode c).1)
  treeUp mode (Nat.log2 (fmtCount f)) wide (flagIf sig flagNV)

/-- The floor of the square root of n, by its bits from 2^(k-1) down. -/
def isqrtFrom (k n acc : Nat) : Nat :=
  match k with
  | 0 => acc
  | k + 1 => if (acc + 2 ^ k) * (acc + 2 ^ k) ≤ n then isqrtFrom k n (acc + 2 ^ k) else isqrtFrom k n acc

/-- The bits kept of a value that is not a dyadic number: more than twice the bits of the widest format. -/
def keptBits : Nat := 96

/-- R142: 1/x of m * 2^e, cut to keptBits bits with a last bit that says that it is inexact. -/
def recipVal (neg : Bool) (m : Nat) (e : Int) : Val :=
  let k := Nat.log2 m + keptBits
  let q := 2 ^ k / m
  .fin neg (2 * q + (if q * m = 2 ^ k then 0 else 1)) (-(k : Int) - 1 - e)

/-- R142: 1/sqrt(x) of m * 2^e, cut likewise. -/
def rsqrtVal (m : Nat) (e : Int) : Val :=
  let odd := e % 2 == 1
  let m' := if odd then 2 * m else m
  let e' := if odd then e - 1 else e
  let k := Nat.log2 m' / 2 + keptBits
  let q := isqrtFrom (keptBits + 4) (2 ^ (2 * k) / m') 0
  .fin false (2 * q + (if q * q * m' = 2 ^ (2 * k) then 0 else 1)) (-(k : Int) - 1 - e' / 2)

/-- The fraction bits of the exponential's arithmetic; a fraction of an FP32 code has at most 149. -/
def expBits : Nat := 384

/-- The sum of 2^expBits / (k * 2^k) for k from n down to 1: ln 2 in fixed point, from its series. -/
def ln2Sum (n : Nat) : Nat :=
  match n with
  | 0 => 0
  | k + 1 => 2 ^ expBits / ((k + 1) * 2 ^ (k + 1)) + ln2Sum k

/-- The terms of the exponential series of y in fixed point, from term k with value t on. -/
def expSum (fuel k t y : Nat) : Nat :=
  match fuel with
  | 0 => 0
  | f + 1 => t + expSum f (k + 1) (t * y / 2 ^ expBits / k) y

/-- R142: 2^x of a finite value. An integer x is exact; for another x the value is irrational, and 224 bits of it are kept with a
last bit that says that it is inexact. Beyond 2^1024 either way the value stands for every larger or smaller one. -/
def exp2Val (neg : Bool) (m : Nat) (e : Int) : Val :=
  let big := decide ((10 : Int) ≤ (Nat.log2 m : Int) + e)
  if m = 0 then .fin false 1 0
  else if big then .fin false 3 (if neg then -1024 else 1024)
  else if 0 ≤ e then .fin false 1 (if neg then -((m * 2 ^ e.toNat : Nat) : Int) else (m * 2 ^ e.toNat : Nat))
  else
    let s := (-e).toNat
    let x : Int := if neg then -(m : Int) else m
    let n : Int := x / (2 ^ s : Nat)
    let f := (x % (2 ^ s : Nat)).toNat
    if f = 0 then .fin false 1 n
    else
      let y := f * ln2Sum 400 / 2 ^ s
      let t := expSum 120 1 (2 ^ expBits) y
      .fin false (2 * (t / 2 ^ (expBits - 224)) + 1) (n - 225)

/-- R142: VEXP2 of a code. -/
def exp2Code (f : Nat) (mode : RMode) (c : Nat) : Nat × Flags :=
  match decodeFloat f c with
  | .nan s => nanResult f s
  | .inf neg => if neg then (0, 0) else infOut f false
  | .fin neg m e => roundTo f mode (exp2Val neg m e)

/-- R142: VRCP of a code. -/
def recipCode (f : Nat) (mode : RMode) (c : Nat) : Nat × Flags :=
  match decodeFloat f c with
  | .nan s => nanResult f s
  | .inf neg => (signBit f neg, 0)
  | .fin neg m e => if m = 0 then ((infOut f neg).1, flagDZ) else roundTo f mode (recipVal neg m e)

/-- R142: VRSQ of a code. -/
def rsqrtCode (f : Nat) (mode : RMode) (c : Nat) : Nat × Flags :=
  match decodeFloat f c with
  | .nan s => nanResult f s
  | .inf neg => if neg then nanResult f true else (0, 0)
  | .fin neg m e =>
    if m = 0 then ((infOut f neg).1, flagDZ)
    else if neg then nanResult f true
    else roundTo f mode (rsqrtVal m e)

end Sys2Proof.Machine
end

