-- ==== Sys2Proof/Machine/Flags.lean ====
section
/-! DEFINITION. Sys2Proof/Machine/Flags.lean: the conditions that a compare writes into a predicate (R21, R77). The status flags of R105 and
their computations stand with the arithmetic that raises them, in Machine/Num.lean. -/

namespace Sys2Proof.Machine

/-- R21, R77: the truth of a compare condition: eq, ne, lt and ge signed, ltu and geu unsigned. -/
def condTrue (cc : BitVec 3) (a b : Word) : Bool :=
  match cc.toNat with
  | 0 => a == b
  | 1 => a != b
  | 2 => a.slt b
  | 3 => !a.slt b
  | 4 => a.ult b
  | _ => !a.ult b

end Sys2Proof.Machine
end

