-- ==== Sys2Proof/Config.lean ====
section
/-! DEFINITION. Sys2Proof/Config.lean: the free values. What the spec leaves open is a constant without a body, applied to the
state's free-value counter (State.free, log 4): nothing in Lean can evaluate it, so a statement holds for every value of it. -/

namespace Sys2Proof

/-- R188: the bytes of the unused descriptors and payload slots of a fault record are undefined. -/
opaque Config.recordByte : Nat → Byte

/-- R191: the status word of the memory path, of a copy queue and of a placed operation's home has no layout. -/
opaque Config.statusWord : Nat → BitVec 64

/-- R180: a copy that fails in transfer has written any part of its destination; whether it has written the n-th byte. -/
opaque Config.copyWrote : Nat → Bool

/-- R344, R345, R348: the byte that another package answers to the package's replay unit (a number, and the byte's place). -/
opaque Config.remoteByte : Nat → Nat → Byte

/-- R1: the package is an MZ-STV16-MD, with LPDDR6, and not an MZ-STV16-PK, without. -/
opaque Config.withLpddr : Bool

/-- R344, R349, R353: the replay unit's read of another package meets no translation there, or no answer (by the number of the read). -/
opaque Config.remoteFails : Nat → Bool

/-- R323: the STATUS of a LAUNCH entry whose REC names no launch record. -/
opaque Config.hostStatus : Nat → Nat

/-- R357: the group entries of the other packages, which name the members: whether a package is a member of a group (group, package). -/
opaque Config.podMember : Nat → Nat → Bool

/-- R355: how much of a stretch of time a correction of GT slows away. -/
opaque Config.slowed : Nat → Nat

/-- R358: the boot source strap, BOOTSRC: false the flash, true the host die's port. Every compute die reads the same image. -/
opaque Config.bootSource : Bool

/-- R359: the minimum security version number that is fused in the package. -/
opaque Config.fusedSvn : Nat

/-- R359: the public key that comes with an image, whose place the rule does not give, and the digest of the key that was fused at manufacture. -/
opaque Config.publicKey : List Byte → List Byte
opaque Config.fusedKey : List Byte

/-- R359, R362: ML-DSA-65: the verification of a message's signature with a public key (key, message, signature), and the signature of a message with the
identity key. The spec names the algorithm and does not give it. -/
opaque Config.mldsaVerify : List Byte → List Byte → List Byte → Bool
opaque Config.mldsaSign : List Byte → List Byte

/-- R362: the serial number of the package, 16 bytes. -/
opaque Config.serialNumber : BitVec 128

end Sys2Proof
end

