-- ==== Sys2Proof/Syntax.lean ====
section
/-! DEFINITION. Sys2Proof/Syntax.lean: the instructions. One constructor for each row of spec/opcode_table.json: the 172 slot
instructions of R32-R37, with the operand fields of the formats R26-R31 at their exact widths, and the package's 102 steps
that have no word of their own (spec/95).

Fields of a slot instruction: `l` is the lane of a class that has two slots (false S0 or V0, true S1 or V1, R13); `g` is the
guard (R15); the others bear the names of the entry's syntax line, a one-bit field as a Bool. Arguments of a step are plain
numbers: `q` a sequencer, `core` a core, `quad` a quad, `die` a die, `op` the number of an operation in flight, and so on;
Machine/State.lean says how they count. A step that is a write of a register has no argument: the unit, the register and the value
stand in the state's register bus (State.bus), where the write arrives. -/

namespace Sys2Proof

/-- One row of the opcode table. -/
inductive Instr where
  /-- BUNDLE_ISSUE (R53): The sequencer issues one bundle of a stream as a tick, with all of its slots, after that tick's landings. -/
  | bundleIssue (q : Nat)
  /-- PENDING_WRITE_LANDING (R53): A pending-write entry whose counter reaches zero lands in its destination at the start of a tick of its stream. -/
  | pendingWriteLanding (q : Nat)
  /-- BUNDLE_SKIP (R62): A bundle whose occupied slots all have false guards is skipped by the look-ahead nullifier without a tick. -/
  | bundleSkip (q : Nat)
  /-- LOOP_EXIT (R50): When INDEX reaches COUNT at a boundary, the level pops and issue continues after the body, outward through shared last bundles. -/
  | loopExit (q : Nat)
  /-- DELAY_EXPIRE (R66): When the delay count of a taken transfer reaches zero, the PC becomes the transfer's target. -/
  | delayExpire (q : Nat)
  /-- STARVATION_GUARD (R127): When the wait counter W reaches 64 with the secondary ready, the primary is held and the secondary issues. -/
  | starvationGuard (core : Nat)
  /-- VARIABLE_RESULT_ARRIVAL (R58): The old value of an atomic arrives, writes its register and latch b5, supersedes older queue entries and clears the busy mark. -/
  | variableResultArrival (op : Nat)
  /-- TILE_WRITE_COMPLETE (R124): An M-slot or E-slot write to a tile completes and its scoreboard mark clears. -/
  | tileWriteComplete (op : Nat)
  /-- VIEW_ACCESS_PERFORM (R173): The asynchronous payload of a tile load or store through a view performs at its scope. -/
  | viewAccessPerform (op : Nat)
  /-- ENGINE_FAULT (R196): An engine that fails a command reports it, the strand stops before its next bundle, and the queue behind it is held. -/
  | engineFault (q : Nat)
  /-- CONTAINED_UNWIND (R200): A contained fault unwinds the innermost region open at the faulting issue, restores its snapshot and enters the handler. -/
  | containedUnwind (q : Nat)
  /-- COPY_START (R125): A copy queue starts its next copy in push order. -/
  | copyStart (core cq : Nat)
  /-- COPY_COMPLETE (R180): A copy's payload has performed and its stamp is written with its status, its event posted and its queue entry freed. -/
  | copyComplete (op : Nat)
  /-- RETIRE_COMPLETE (R165): A retiring view completes its retire once its earlier accesses and copies have performed, clearing RETIRING and its registration. -/
  | retireComplete (op : Nat)
  /-- LEASE_GRANT (R211): The array lease is granted to a requesting core. -/
  | leaseGrant (quad c : Nat)
  /-- LEASE_BOUND_EXPIRY (R211): After 64 commands or 4,096 cycles the lease ends at a command boundary and passes to the next waiting core or renews. -/
  | leaseBoundExpiry (quad : Nat)
  /-- ARRAY_COMMAND_RUN (R212): An array command at the head of its core's queue runs under the lease and completes, leaving the queue. -/
  | arrayCommandRun (quad c : Nat)
  /-- PLACED_WRITEBACK (R243): A placed operation's home computes the result and writes it back in increasing L, with bound checks. -/
  | placedWriteback (op : Nat)
  /-- BANK_COMMAND_RUN (R274): A BANK command at the head of the strand's bank command queue is performed and completes. -/
  | bankCommandRun (q : Nat)
  /-- ATOMIC_BANK_OPERATION (R265): A slice bank's arithmetic unit performs an atomic, ARED element or SLICE computation on a word in arrival order. -/
  | atomicBankOperation (op elem : Nat)
  /-- TRANSLATION_WALK_COMPLETE (R262): A page-table walk finishes and fills the translation caches or ends in XLATE_UNMAPPED. -/
  | translationWalkComplete (die asid vpn : Nat)
  /-- SEND_FULL (R271): A SEND that receives no ring slot within RING_WAIT cycles issues as FULL and records the status in its guard predicate. -/
  | sendFull (q : Nat)
  /-- WAYMASK_CHANGE_COMPLETE (R259): Once old accesses to leaving ways have performed and entering ways are cleaned, BUSY of SLICE_WAYMASK clears. -/
  | waymaskChangeComplete (die slice : Nat)
  /-- REMOTE_WAYS_CHANGE_COMPLETE (R260): The ways moved between roles are written back and invalidated, and REMOTE_WAYS.BUSY clears. -/
  | remoteWaysChangeComplete (die slice : Nat)
  /-- XLINV_COMPLETE (R263): No cache holds a matching entry and every access that used one has performed or faulted, so BUSY clears. -/
  | xlinvComplete (die : Nat)
  /-- TEAM_PLACE (R289): The scheduler places the waiting team at the head of a die's order on a free quad with coolant, starting its strands. -/
  | teamPlace (die : Nat)
  /-- COHORT_PLACE (R290): The scheduler attempts to place all teams of a cohort in one step, or places none. -/
  | cohortPlace (die : Nat)
  /-- LAUNCH_VIEW_REGISTER (R291): A task's launch views register with a die's directory before its first team is placed there, waiting on conflicts or entries. -/
  | launchViewRegister (die task : Nat)
  /-- TIMED_START (R283): A placed strand of a timed launch issues its first bundle once its die's GT reaches the start time. -/
  | timedStart (q : Nat)
  /-- PREEMPT_DECISION (R300): When the head team cannot be placed, the scheduler picks a victim and decides drain, checkpoint, kill or wait. -/
  | preemptDecision (die : Nat)
  /-- PREEMPT_REEVALUATE (R300): A waiting decision is decided afresh after each PPERIOD.NS interval or when the victim set changes. -/
  | preemptReevaluate (die : Nat)
  /-- CHECKPOINT_WRITE (R303): Once all strands have landed and operations completed, the team's checkpoint is written, its cores freed and CHECKPOINTED posted. -/
  | checkpointWrite (task team : Nat)
  /-- TEAM_RESTORE (R306): A checkpointed team is restored to its own cores, its blocks reapplied, RESTORED posted and its strands resumed. -/
  | teamRestore (task team : Nat)
  /-- TASK_COMPLETE (R295): When the task's last strand has ended and its retires have completed, COMPLETE is posted at the home die. -/
  | taskComplete (task : Nat)
  /-- PKG_BARRIER_MESSAGE (R328): A package-scope barrier arrival or completion travels as a mesh message to or from the home die. -/
  | pkgBarrierMessage (msg : Nat)
  /-- LINE_INVALIDATE (R319): The home of a line invalidates other dies' proxy copies before performing a forwarded write, the one of the number. -/
  | lineInvalidate (write : Nat)
  /-- HQ_NOP (R323): A host queue entry of KIND 0 completes with no effect. -/
  | hqNop (n : Nat)
  /-- HQ_LAUNCH (R323): A host queue entry of KIND 1 launches its record with the queue's die and address space. -/
  | hqLaunch (n : Nat)
  /-- HQ_TIMED_LAUNCH (R323): A host queue entry of KIND 2 launches its record timed at START. -/
  | hqTimedLaunch (n : Nat)
  /-- HQ_FENCE (R323): A host queue entry of KIND 3 starts no later entry until every earlier entry has completed. -/
  | hqFence (n : Nat)
  /-- HQ_INVALID (R323): An entry with an invalid KIND or nonzero reserved field completes with STATUS 1. -/
  | hqInvalid (n : Nat)
  /-- HQ_ENTRY_COMPLETE (R325): A host queue entry completes, STATUS is written and DONE advances with release semantics. -/
  | hqEntryComplete (n entry : Nat)
  /-- COOL_LOWFLOW (R335): Flow below FLOW_MIN for 1 ms with the valve open raises the low-flow trap and event. -/
  | coolLowflow (zone : Nat)
  /-- COOL_OVERTEMP (R335): Outlet temperature above TOUT_MAX raises the throttle to THR_HOT and sets STATE HOT. -/
  | coolOvertemp (zone : Nat)
  /-- COOL_DRY (R335): Pressure below DRY_P for 1 ms with the valve open raises the dry trap and starts evacuation. -/
  | coolDry (zone : Nat)
  /-- EVAC_DRAIN_TIMEOUT (R336): After DRAIN_MS the tasks of teams still in the zone are killed and the valves close. -/
  | evacDrainTimeout (zone : Nat)
  /-- EVAC_VALVE_CLOSED (R336): The valve reports closed and the gas purge begins. -/
  | evacValveClosed (zone : Nat)
  /-- EVAC_PURGE_DONE (R336): After PURGE_MS the purge port closes and the decay verification window begins. -/
  | evacPurgeDone (zone : Nat)
  /-- EVAC_VERIFY_DONE (R336): After DECAY_MS the pressure drop is judged and the zone goes DRY with EVAC_DONE or FAILED with EVAC_FAIL. -/
  | evacVerifyDone (zone : Nat)
  /-- ZONE_READY (R336): After flow and pressure have held for 10 ms in REFILL, the zone becomes ACTIVE and posts ZONE_READY. -/
  | zoneReady (zone : Nat)
  /-- LOST (R341): Once three records are free after an overflow, the unit writes a LOST record with the drop count and resumes. -/
  | lost (die : Nat)
  /-- RESYNC (R340): After power-up and GT lock, the first record written is a RESYNC carrying GT. -/
  | resync (die : Nat)
  /-- STATION_UP (R350): A station trains and gains link credit, and streams are reassigned across the up stations. -/
  | stationUp (station : Nat)
  /-- STATION_DOWN (R350): A station goes down and the streams it carried move to the new assignment. -/
  | stationDown (station : Nat)
  /-- REMOTE_REQUEST_SEND (R350): A request waiting in a destination stream is sent once its ordered predecessors are answered and PEND allows. -/
  | remoteRequestSend (req : Nat)
  /-- REMOTE_RESPONSE (R351): A response from a destination arrives and the remote read, write or atomic performs. -/
  | remoteResponse (req : Nat)
  /-- REMOTE_FENCE (R353): A request unanswered for RTIMEOUT.NS fences its destination and completes every request to it with poison. -/
  | remoteFence (req : Nat)
  /-- INCOMING_REMOTE_REQUEST (R352): A request arriving from another package performs at its home on this package in stream arrival order. -/
  | incomingRemoteRequest (req : Nat)
  /-- ATS_TRANSLATION_REQUEST (R349): A translation request from another package is served through the page tables of LASID. -/
  | atsTranslationRequest (dest va : Nat)
  /-- ATS_TRANSLATION_RESPONSE (R349): A destination's answer to a translation request fills the die caches or raises XLATE_UNMAPPED or XLATE_PERM. -/
  | atsTranslationResponse (dest vpn val : Nat)
  /-- ATS_INVALIDATION (R349): An invalidation message from a destination is applied on every die as XLINV, and answered when all BUSY bits clear. -/
  | atsInvalidation (dest vpn size : Nat)
  /-- GT_TIME_MESSAGE (R355): A received time message corrects GT by slowing or advancing it, and locks GT after three small corrections. -/
  | gtTimeMessage (dest gt : Nat)
  /-- POD_BARRIER_ARRIVAL (R357): A member package's arrival message reaches the master, which completes the phase after NPKG arrivals. -/
  | podBarrierArrival (group dest : Nat)
  /-- POD_BARRIER_COMPLETION (R357): The master's completion message reaches a member and completes the phase for its strands. -/
  | podBarrierCompletion (group : Nat)
  /-- POD_BARRIER_TIMEOUT (R357): When a member or master is fenced, waiting strands end their wait with ENG_TIMEOUT on slot 2. -/
  | podBarrierTimeout (group : Nat)
  /-- ADD (R70): Adds two scalar operands modulo 2^32. -/
  | add (l : Bool) (g : BitVec 4) (d a b : BitVec 6)
  /-- SUB (R70): Subtracts two scalar operands modulo 2^32. -/
  | sub (l : Bool) (g : BitVec 4) (d a b : BitVec 6)
  /-- AND (R70): Bitwise AND of two scalars. -/
  | and (l : Bool) (g : BitVec 4) (d a b : BitVec 6)
  /-- OR (R70): Bitwise OR of two scalars. -/
  | or (l : Bool) (g : BitVec 4) (d a b : BitVec 6)
  /-- XOR (R70): Bitwise XOR of two scalars. -/
  | xor (l : Bool) (g : BitVec 4) (d a b : BitVec 6)
  /-- SHL (R70): Left shift by B[7:0], zero for counts of 32 or more. -/
  | shl (l : Bool) (g : BitVec 4) (d a b : BitVec 6)
  /-- SHR (R70): Logical right shift by B[7:0]. -/
  | shr (l : Bool) (g : BitVec 4) (d a b : BitVec 6)
  /-- SRA (R70): Arithmetic right shift by B[7:0]. -/
  | sra (l : Bool) (g : BitVec 4) (d a b : BitVec 6)
  /-- MIN (R70): Signed minimum of two scalars. -/
  | min (l : Bool) (g : BitVec 4) (d a b : BitVec 6)
  /-- MAX (R70): Signed maximum of two scalars. -/
  | max (l : Bool) (g : BitVec 4) (d a b : BitVec 6)
  /-- MINU (R70): Unsigned minimum of two scalars. -/
  | minu (l : Bool) (g : BitVec 4) (d a b : BitVec 6)
  /-- MAXU (R70): Unsigned maximum of two scalars. -/
  | maxu (l : Bool) (g : BitVec 4) (d a b : BitVec 6)
  /-- MOV (R70): Copies a scalar operand. -/
  | mov (l : Bool) (g : BitVec 4) (d a : BitVec 6)
  /-- ADDSH (R70): Adds A and B shifted left by m. -/
  | addsh (l : Bool) (g : BitVec 4) (d a b : BitVec 6) (sh : BitVec 2)
  /-- CLZ (R70): Counts leading zero bits of a scalar. -/
  | clz (l : Bool) (g : BitVec 4) (d a : BitVec 6)
  /-- MUL (R71): Low 32 bits of a product, landing after 3 ticks. -/
  | mul (l : Bool) (g : BitVec 4) (d a b : BitVec 6)
  /-- MULH (R71): Signed high 32 bits of a product. -/
  | mulh (l : Bool) (g : BitVec 4) (d a b : BitVec 6)
  /-- MULHU (R71): Unsigned high 32 bits of a product. -/
  | mulhu (l : Bool) (g : BitVec 4) (d a b : BitVec 6)
  /-- DIVU (R71): Unsigned quotient after 18 ticks, all ones on division by zero. -/
  | divu (l : Bool) (g : BitVec 4) (d a b : BitVec 6)
  /-- REMU (R71): Unsigned remainder after 18 ticks, A on division by zero. -/
  | remu (l : Bool) (g : BitVec 4) (d a b : BitVec 6)
  /-- MOVI (R72): Writes a sign-extended, extendable immediate. -/
  | movi (l : Bool) (g : BitVec 4) (d : BitVec 6) (imm : BitVec 12)
  /-- ADDI (R72): Adds an immediate to the destination register. -/
  | addi (l : Bool) (g : BitVec 4) (d : BitVec 6) (imm : BitVec 12)
  /-- ANDI (R72): ANDs an immediate into the destination register. -/
  | andi (l : Bool) (g : BitVec 4) (d : BitVec 6) (imm : BitVec 12)
  /-- ORI (R72): ORs an immediate into the destination register. -/
  | ori (l : Bool) (g : BitVec 4) (d : BitVec 6) (imm : BitVec 12)
  /-- XORI (R72): XORs an immediate into the destination register. -/
  | xori (l : Bool) (g : BitVec 4) (d : BitVec 6) (imm : BitVec 12)
  /-- SHLI (R72): Shifts the destination left by an immediate 0-31. -/
  | shli (l : Bool) (g : BitVec 4) (d : BitVec 6) (imm : BitVec 12)
  /-- SHRI (R72): Shifts the destination right, zero-filled, by an immediate. -/
  | shri (l : Bool) (g : BitVec 4) (d : BitVec 6) (imm : BitVec 12)
  /-- SRAI (R72): Shifts the destination right arithmetically by an immediate. -/
  | srai (l : Bool) (g : BitVec 4) (d : BitVec 6) (imm : BitVec 12)
  /-- MOVH (R72): Writes the immediate into bits [31:20] of the destination. -/
  | movh (l : Bool) (g : BitVec 4) (d : BitVec 6) (imm : BitVec 12)
  /-- LIDX (R73): Writes the index of a loop level. -/
  | lidx (l : Bool) (g : BitVec 4) (d : BitVec 6) (lvl : BitVec 12)
  /-- CTLRD (R76): Reads a strand control register into a scalar. -/
  | ctlrd (l : Bool) (g : BitVec 4) (d : BitVec 6) (ctl : BitVec 12)
  /-- CTLWR (R76): Writes a strand control register at the end of the issuing tick. -/
  | ctlwr (l : Bool) (g : BitVec 4) (src : BitVec 6) (ctl : BitVec 12)
  /-- GTLO (R73): Reads GT[31:0] and snapshots GT[63:32] into CGTSNAP. -/
  | gtlo (l : Bool) (g : BitVec 4) (d : BitVec 6)
  /-- GTHI (R73): Reads the GT high-word snapshot. -/
  | gthi (l : Bool) (g : BitVec 4) (d : BitVec 6)
  /-- CMP (R77): Writes the truth of a register comparison into a predicate. -/
  | cmp (l : Bool) (g : BitVec 4) (pd cc : BitVec 3) (a b : BitVec 6)
  /-- CMPI (R77): Writes the truth of a comparison with an immediate into a predicate. -/
  | cmpi (l : Bool) (g : BitVec 4) (pd cc : BitVec 3) (a : BitVec 6) (imm : BitVec 8)
  /-- SLD (R78): Loads a scratchpad word, landing after 6 ticks. -/
  | sld (l : Bool) (g : BitVec 4) (d a : BitVec 6) (off : BitVec 8)
  /-- SST (R78): Stores a word to scratchpad at issue. -/
  | sst (l : Bool) (g : BitVec 4) (src a : BitVec 6) (off : BitVec 8)
  /-- QMAP (R79): Maps s30 or s31 to a receive ring or the event queue. -/
  | qmap (l : Bool) (g : BitVec 4) (reg : Bool) (a : BitVec 6)
  /-- QUNMAP (R79): Ends the queue mapping of s30 or s31 and returns its held entry. -/
  | qunmap (l : Bool) (g : BitVec 4) (reg : Bool)
  /-- BR (R81): Branch to a bundle-relative target with two delay bundles. -/
  | br (g : BitVec 4) (disp : BitVec 20)
  /-- CALL (R81): Call with link in s29 and two delay bundles. -/
  | call (g : BitVec 4) (disp : BitVec 20)
  /-- CONTAIN (R198): Pushes a containment region with its handler and snapshot. -/
  | contain (g : BitVec 4) (disp : BitVec 20)
  /-- JR (R81): Jump to the address in a register. -/
  | jr (g : BitVec 4) (a : BitVec 6)
  /-- CALLR (R81): Call the address in a register with link in s29. -/
  | callr (g : BitVec 4) (a : BitVec 6)
  /-- LOOP (R82): Pushes a hardware loop with its count from a register. -/
  | loop (g : BitVec 4) (a : BitVec 6) (len : BitVec 12)
  /-- LOOPI (R82): Pushes a hardware loop with an immediate count. -/
  | loopi (g : BitVec 4) (cnt : BitVec 12) (len : BitVec 8)
  /-- LBRK (R83): Pops the innermost loop and transfers past its body with delay bundles. -/
  | lbrk (g : BitVec 4)
  /-- LSTG (R84): Binds stage predicates to a loop level. -/
  | lstg (g : BitVec 4) (lv : BitVec 3) (pm : BitVec 4)
  /-- PAND (R77): AND of two optionally negated predicates. -/
  | pand (g : BitVec 4) (pd pa pb : BitVec 3) (na nb : Bool)
  /-- POR (R77): OR of two optionally negated predicates. -/
  | por (g : BitVec 4) (pd pa pb : BitVec 3) (na nb : Bool)
  /-- PXOR (R77): XOR of two optionally negated predicates. -/
  | pxor (g : BitVec 4) (pd pa pb : BitVec 3) (na nb : Bool)
  /-- BKTJ (R85): Transfers to the target of the smallest bucket whose capacity holds the count. -/
  | bktj (g : BitVec 4) (a : BitVec 6) (tbl : BitVec 4)
  /-- WAITGT (R86): Holds its bundle until GT reaches the given 64-bit time. -/
  | waitgt (g : BitVec 4) (a b : BitVec 6)
  /-- SETEST (R87): Sets the strand's remaining-time estimate. -/
  | setest (g : BitVec 4) (a b : BitVec 6)
  /-- SETTS (R87): Sets the start time of timed launches and sends. -/
  | setts (g : BitVec 4) (a b : BitVec 6)
  /-- SETRM (R87): Sets the strand's rounding mode. -/
  | setrm (g : BitVec 4) (rm : BitVec 2)
  /-- LAUNCH (R283): Launches a task from the record named by a handle, optionally timed. -/
  | launch (g : BitVec 4) (a : BitVec 6) (timed : Bool)
  /-- BAR (R310): Arrives at a barrier and holds the next bundle until the phase completes. -/
  | bar (g : BitVec 4) (sc id : BitVec 3) (rl aq : Bool)
  /-- BARARV (R310): Arrives at a barrier without waiting. -/
  | bararv (g : BitVec 4) (sc id : BitVec 3) (rl : Bool)
  /-- BARWT (R310): Waits for the barrier phase the strand arrived in to complete. -/
  | barwt (g : BitVec 4) (sc id : BitVec 3) (aq : Bool)
  /-- FENCE (R172): Orders the strand's accesses in the selected classes at a scope. -/
  | fence (g : BitVec 4) (sc : BitVec 3) (mask : BitVec 16)
  /-- TRAP (R88): Software trap entering the handler or the fault path with SW_TRAP. -/
  | trap (g : BitVec 4) (code : BitVec 8)
  /-- ERET (R89): Returns from a software-trap handler to CEPC with the delay state of CEDLY. -/
  | eret (g : BitVec 4)
  /-- EXIT (R90): Ends the strand after its operations complete and its queue lands. -/
  | exit (g : BitVec 4)
  /-- CONTAINEND (R199): Closes the innermost containment region after its operations complete. -/
  | containend (g : BitVec 4)
  /-- VADD (R134): Element-wise add of two rows. -/
  | vadd (l : Bool) (g fmt td ta tb rs : BitVec 4)
  /-- VSUB (R134): Element-wise subtract of two rows. -/
  | vsub (l : Bool) (g fmt td ta tb rs : BitVec 4)
  /-- VMUL (R134): Element-wise multiply of two rows. -/
  | vmul (l : Bool) (g fmt td ta tb rs : BitVec 4)
  /-- VFMA (R134): Element-wise fused multiply-add into the old destination row. -/
  | vfma (l : Bool) (g fmt td ta tb rs : BitVec 4)
  /-- VMIN (R134): Element-wise minimum. -/
  | vmin (l : Bool) (g fmt td ta tb rs : BitVec 4)
  /-- VMAX (R134): Element-wise maximum. -/
  | vmax (l : Bool) (g fmt td ta tb rs : BitVec 4)
  /-- VABS (R135): Element-wise absolute value. -/
  | vabs (l : Bool) (g fmt td ta rs : BitVec 4)
  /-- VNEG (R135): Element-wise negation. -/
  | vneg (l : Bool) (g fmt td ta rs : BitVec 4)
  /-- VMOV (R135): Copies the element codes of a row. -/
  | vmov (l : Bool) (g fmt td ta rs : BitVec 4)
  /-- VAND (R136): Bitwise AND of element codes. -/
  | vand (l : Bool) (g fmt td ta tb rs : BitVec 4)
  /-- VOR (R136): Bitwise OR of element codes. -/
  | vor (l : Bool) (g fmt td ta tb rs : BitVec 4)
  /-- VXOR (R136): Bitwise XOR of element codes. -/
  | vxor (l : Bool) (g fmt td ta tb rs : BitVec 4)
  /-- VSHL (R136): Element-wise left shift by per-element counts. -/
  | vshl (l : Bool) (g fmt td ta tb rs : BitVec 4)
  /-- VSHR (R136): Element-wise logical right shift. -/
  | vshr (l : Bool) (g fmt td ta tb rs : BitVec 4)
  /-- VSRA (R136): Element-wise arithmetic right shift. -/
  | vsra (l : Bool) (g fmt td ta tb rs : BitVec 4)
  /-- VCMPEQ (R137): Writes a mask row of element equality. -/
  | vcmpeq (l : Bool) (g fmt td ta tb rs : BitVec 4)
  /-- VCMPLT (R137): Writes a mask row of less-than. -/
  | vcmplt (l : Bool) (g fmt td ta tb rs : BitVec 4)
  /-- VCMPLE (R137): Writes a mask row of less-or-equal. -/
  | vcmple (l : Bool) (g fmt td ta tb rs : BitVec 4)
  /-- VSEL (R138): Selects elements of two rows by the mask in the old destination row. -/
  | vsel (l : Bool) (g fmt td ta tb rs : BitVec 4)
  /-- VCVT (R139): Converts row elements from a source format to the target format. -/
  | vcvt (l : Bool) (g fmt td ta fsrc rs : BitVec 4)
  /-- VSCL (R140): Multiplies row elements by their block scales and rounds once. -/
  | vscl (l : Bool) (g fmt td ta : BitVec 4) (q : BitVec 3) (rs : BitVec 4)
  /-- VCLMP (R141): Clamps row elements to a view's bound registers. -/
  | vclmp (l : Bool) (g fmt td ta v rs : BitVec 4)
  /-- VEXP2 (R142): Correctly rounded 2^x of each element. -/
  | vexp2 (l : Bool) (g fmt td ta rs : BitVec 4)
  /-- VRCP (R142): Correctly rounded reciprocal of each element. -/
  | vrcp (l : Bool) (g fmt td ta rs : BitVec 4)
  /-- VRSQ (R142): Correctly rounded reciprocal square root of each element. -/
  | vrsq (l : Bool) (g fmt td ta rs : BitVec 4)
  /-- VRSUM (R143): Tree sum of a row broadcast into every element. -/
  | vrsum (l : Bool) (g fmt td ta rs : BitVec 4)
  /-- VRMAX (R143): Maximum of a row broadcast into every element. -/
  | vrmax (l : Bool) (g fmt td ta rs : BitVec 4)
  /-- VRMIN (R143): Minimum of a row broadcast into every element. -/
  | vrmin (l : Bool) (g fmt td ta rs : BitVec 4)
  /-- VBCS (R144): Broadcasts a scalar code into every element of a row. -/
  | vbcs (l : Bool) (g fmt td sn rs : BitVec 4)
  /-- VEXT (R145): Extracts one element of a row into a scalar register. -/
  | vext (l : Bool) (g fmt sd ta sn rs : BitVec 4)
  /-- VINS (R146): Inserts a scalar code into one element of the old destination row. -/
  | vins (l : Bool) (g fmt td sv sn rs : BitVec 4)
  /-- VPERM (R147): Gathers elements within groups by an index row. -/
  | vperm (l : Bool) (g fmt td ta tb rs : BitVec 4)
  /-- VLSH (R148): Shifts the elements of a row by a signed lane count. -/
  | vlsh (l : Bool) (g fmt td ta sn rs : BitVec 4)
  /-- VPACK (R149): Packs the low halves of two rows into one. -/
  | vpack (l : Bool) (g fmt td ta tb rs : BitVec 4)
  /-- VUNPK (R149): Moves one half of a row into the low half. -/
  | vunpk (l : Bool) (g fmt td ta : BitVec 4) (half : Bool) (rs : BitVec 4)
  /-- VADDS (R150): Adds a scalar operand to every element. -/
  | vadds (l : Bool) (g fmt td ta sn rs : BitVec 4)
  /-- VMULS (R150): Multiplies every element by a scalar operand. -/
  | vmuls (l : Bool) (g fmt td ta sn rs : BitVec 4)
  /-- VFMAS (R150): Fused multiply by a scalar and add the old destination row. -/
  | vfmas (l : Bool) (g fmt td ta sn rs : BitVec 4)
  /-- TLD (R173): Loads the 64 rows of a tile through a view. -/
  | tld (g t v : BitVec 4) (a : BitVec 6) (cx : Bool) (cls : BitVec 4)
  /-- TST (R173): Stores the 64 rows of a tile through a view. -/
  | tst (g t v : BitVec 4) (a : BitVec 6) (cx : Bool) (cls : BitVec 4)
  /-- TGATH (R174): Gathers tile rows through a view by scratchpad index words. -/
  | tgath (g t v : BitVec 4) (a : BitVec 6) (cx : Bool) (cls : BitVec 4)
  /-- TSCAT (R174): Scatters tile rows through a view by scratchpad index words. -/
  | tscat (g t v : BitVec 4) (a : BitVec 6) (cx : Bool) (cls : BitVec 4)
  /-- PREF (R175): Prefetches the bytes a tile load would read towards the die. -/
  | pref (g v : BitVec 4) (a : BitVec 6)
  /-- TSPLD (R176): Copies 16 KiB of scratchpad into a tile. -/
  | tspld (g t : BitVec 4) (a : BitVec 6)
  /-- TSPST (R176): Copies a tile into 16 KiB of scratchpad. -/
  | tspst (g t : BitVec 4) (a : BitVec 6)
  /-- ARED (R269): Adds a tile into a view as FP32 relaxed atomics. -/
  | ared (g t v : BitVec 4) (a : BitVec 6) (cx : Bool) (cls : BitVec 4)
  /-- TZERO (R177): Clears a tile. -/
  | tzero (g t : BitVec 4)
  /-- TMOVT (R177): Copies one tile into another. -/
  | tmovt (g t ts : BitVec 4)
  /-- TCOPY (R179): Pushes an asynchronous view-to-view copy with stamp into a copy queue. -/
  | tcopy (g vd vs : BitVec 4) (a : BitVec 6) (cq : BitVec 2) (ev : Bool)
  /-- VOPEN (R164): Opens a view, registering it with the live-view directory as an acquire. -/
  | vopen (g v : BitVec 4) (mode : BitVec 2) (sc : BitVec 3) (cls : BitVec 4)
  /-- VRETIRE (R165): Starts the release of an open view. -/
  | vretire (g v : BitVec 4)
  /-- HFREE (R154): Frees a handle, clearing VALID and advancing its generation. -/
  | hfree (g : BitVec 4) (a : BitVec 6)
  /-- WAITM (R182): Holds until a stamp's sequence reaches the operand, then checks its status. -/
  | waitm (g : BitVec 4) (d : BitVec 6) (v : BitVec 4) (a : BitVec 6) (ord : Bool) (sc : BitVec 2)
  /-- AADD (R268): Atomic add returning the old word. -/
  | aadd (g : BitVec 4) (d : BitVec 6) (v : BitVec 4) (a : BitVec 6) (ord sc : BitVec 2)
  /-- AMIN (R268): Atomic signed minimum. -/
  | amin (g : BitVec 4) (d : BitVec 6) (v : BitVec 4) (a : BitVec 6) (ord sc : BitVec 2)
  /-- AMAX (R268): Atomic signed maximum. -/
  | amax (g : BitVec 4) (d : BitVec 6) (v : BitVec 4) (a : BitVec 6) (ord sc : BitVec 2)
  /-- AMINU (R268): Atomic unsigned minimum. -/
  | aminu (g : BitVec 4) (d : BitVec 6) (v : BitVec 4) (a : BitVec 6) (ord sc : BitVec 2)
  /-- AMAXU (R268): Atomic unsigned maximum. -/
  | amaxu (g : BitVec 4) (d : BitVec 6) (v : BitVec 4) (a : BitVec 6) (ord sc : BitVec 2)
  /-- AAND (R268): Atomic AND. -/
  | aand (g : BitVec 4) (d : BitVec 6) (v : BitVec 4) (a : BitVec 6) (ord sc : BitVec 2)
  /-- AOR (R268): Atomic OR. -/
  | aor (g : BitVec 4) (d : BitVec 6) (v : BitVec 4) (a : BitVec 6) (ord sc : BitVec 2)
  /-- AXOR (R268): Atomic XOR. -/
  | axor (g : BitVec 4) (d : BitVec 6) (v : BitVec 4) (a : BitVec 6) (ord sc : BitVec 2)
  /-- AXCHG (R268): Atomic exchange. -/
  | axchg (g : BitVec 4) (d : BitVec 6) (v : BitVec 4) (a : BitVec 6) (ord sc : BitVec 2)
  /-- ACAS (R268): Atomic compare-and-swap with the new value from the next register. -/
  | acas (g : BitVec 4) (d : BitVec 5) (v : BitVec 4) (a : BitVec 6) (ord sc : BitVec 2)
  /-- AINCB (R268): Atomic increment bounded below the operand. -/
  | aincb (g : BitVec 4) (d : BitVec 6) (v : BitVec 4) (a : BitVec 6) (ord sc : BitVec 2)
  /-- AFADD (R268): Atomic FP32 add. -/
  | afadd (g : BitVec 4) (d : BitVec 6) (v : BitVec 4) (a : BitVec 6) (ord sc : BitVec 2)
  /-- AFADDH (R268): Atomic add of a BF16 pair. -/
  | afaddh (g : BitVec 4) (d : BitVec 6) (v : BitVec 4) (a : BitVec 6) (ord sc : BitVec 2)
  /-- ALD (R268): Atomic load. -/
  | ald (g : BitVec 4) (d : BitVec 6) (v : BitVec 4) (a : BitVec 6) (ord sc : BitVec 2)
  /-- AST (R268): Atomic store. -/
  | ast (g : BitVec 4) (d : BitVec 6) (v : BitVec 4) (a : BitVec 6) (ord sc : BitVec 2)
  /-- SEND (R271): Sends a tile row as a message into a receive ring. -/
  | send (g : BitVec 4) (a : BitVec 6) (t : BitVec 4) (b : BitVec 6) (timed : Bool)
  /-- MM (R220): One array step accumulating a streamed tile times the active plane. -/
  | mm (g : BitVec 4) (acc : BitVec 3) (t : BitVec 4) (sg : BitVec 2) (sw : Bool) (fmt : BitVec 4) (q : BitVec 3) (scl : Bool)
  /-- MMCMP (R225): Compare-accumulate step adding each element's rank in its row. -/
  | mmcmp (g : BitVec 4) (acc : BitVec 3) (t : BitVec 4) (sg : BitVec 2) (sw : Bool) (fmt : BitVec 4)
  /-- MSTAT_TILE (R215): Loads a stationary operand into the shadow plane from a tile pair. -/
  | mstatTile (g : BitVec 4) (t : BitVec 3) (sg : BitVec 2) (sw : Bool) (fmt : BitVec 4)
  /-- MSTAT_HANDLE (R215): Loads a stationary operand into the shadow plane from a handle's allocation. -/
  | mstatHandle (g : BitVec 4) (a : BitVec 6) (sg : BitVec 2) (sw : Bool) (fmt : BitVec 4)
  /-- MSWAP (R217): Exchanges the active and shadow planes. -/
  | mswap (g : BitVec 4)
  /-- LEASE (R213): Makes the core's array lease explicit. -/
  | lease (g : BitVec 4)
  /-- LREL (R213): Ends the core's array lease after earlier commands complete. -/
  | lrel (g : BitVec 4)
  /-- ACCZERO_FP (R226): Resets an accumulator to floating kind with a block exponent. -/
  | acczeroFp (g : BitVec 4) (acc : BitVec 3) (t : BitVec 4)
  /-- ACCZERO_INT (R226): Resets an accumulator to integer kind with full headroom. -/
  | acczeroInt (g : BitVec 4) (acc : BitVec 3)
  /-- ACCLD (R227): Preloads accumulator words of the window from a tile. -/
  | accld (g : BitVec 4) (acc : BitVec 3) (t : BitVec 4) (sg : BitVec 2) (sw : Bool) (fmt : BitVec 4) (hi : Bool)
  /-- ACCNORM (R228): Shifts floating accumulator rows and raises their block exponent. -/
  | accnorm (g : BitVec 4) (acc : BitVec 3) (t : BitVec 4) (sg : BitVec 2) (sw : Bool)
  /-- ACCCHK (R229): Checks every row checksum of an accumulator. -/
  | accchk (g : BitVec 4) (acc : BitVec 3)
  /-- ACCDRAIN (R231): Drains the accumulator window into a tile with optional requantisation. -/
  | accdrain (g : BitVec 4) (acc : BitVec 3) (t : BitVec 4) (sg : BitVec 2) (sw : Bool) (fmt : BitVec 4) (q x : BitVec 3)
  /-- FOLD (R230): Brings integer accumulator words into INT32 and restores headroom. -/
  | fold (g : BitVec 4) (acc : BitVec 3) (sg : BitVec 2) (sw : Bool)
  /-- TADD (R249): Placed element-wise add of two tensors. -/
  | tadd (g vd va vb fmt : BitVec 4) (sg : BitVec 2) (sw : Bool)
  /-- TSUB (R249): Placed element-wise subtract. -/
  | tsub (g vd va vb fmt : BitVec 4) (sg : BitVec 2) (sw : Bool)
  /-- TMUL (R249): Placed element-wise multiply. -/
  | tmul (g vd va vb fmt : BitVec 4) (sg : BitVec 2) (sw : Bool)
  /-- TMAX (R249): Placed element-wise maximum. -/
  | tmax (g vd va vb fmt : BitVec 4) (sg : BitVec 2) (sw : Bool)
  /-- TRED (R250): Placed exact row reduction. -/
  | tred (g vd va fmt : BitVec 4) (sg : BitVec 2) (sw : Bool)
  /-- TMV (R251): Placed matrix-vector product. -/
  | tmv (g vd va vb fmt : BitVec 4) (sg : BitVec 2) (sw : Bool)
  /-- TMM (R252): Placed matrix-matrix product. -/
  | tmm (g vd va vb fmt : BitVec 4) (sg : BitVec 2) (sw : Bool)
  /-- PABM (R275): Enters all-bank mode on a pseudo-channel. -/
  | pabm (g : BitVec 4) (a : BitVec 6) (t rs : BitVec 4)
  /-- PBCAST (R276): Broadcasts a vector row into BX of all banks. -/
  | pbcast (g : BitVec 4) (a : BitVec 6) (t rs : BitVec 4)
  /-- PMAC (R277): Performs a step list of bank multiply-accumulates into BACC. -/
  | pmac (g : BitVec 4) (a : BitVec 6) (t rs : BitVec 4)
  /-- PREAD (R278): Reads one bank's BACC partial sums into a tile row. -/
  | pread (g : BitVec 4) (a : BitVec 6) (t rs : BitVec 4)
  /-- PEXIT (R279): Leaves all-bank mode and releases the pseudo-channel. -/
  | pexit (g : BitVec 4) (a : BitVec 6)
  /-- SHPSET (R119): Writes one field of a shape register's shadow plane. -/
  | shpset (g : BitVec 4) (sg : BitVec 2) (fld : BitVec 4) (imm : BitVec 14)
  /-- SHPCPY (R119): Copies the active shape plane into the shadow plane. -/
  | shpcpy (g : BitVec 4) (sg : BitVec 2)
  /-- QLD (R121): Loads scales from scratchpad into a scale register. -/
  | qld (g : BitVec 4) (q : BitVec 3) (a n : BitVec 6)
  /-- QSET (R121): Sets one scale of a scale register. -/
  | qset (g : BitVec 4) (q : BitVec 3) (a n : BitVec 6)
  /-- QZERO (R121): Clears all scales of a scale register. -/
  | qzero (g : BitVec 4) (q : BitVec 3)
  /-- VFSET (R159): Writes one view field from a register. -/
  | vfset (g v fld : BitVec 4) (a : BitVec 6)
  /-- VFSETI (R159): Writes one view field from an immediate. -/
  | vfseti (g v fld : BitVec 4) (imm : BitVec 12)
  /-- BNDSET (R123): Sets and enables a view's bound registers. -/
  | bndset (g v : BitVec 4) (a b : BitVec 6)
  /-- BNDOFF (R123): Disables a view's bounds. -/
  | bndoff (g v : BitVec 4)
  /-- VROW (R133): Supplies per-operand rows to one V slot of the bundle. -/
  | vrow (sl : Bool) (rd ra rb : BitVec 6)
  /-- XIMM (R25): Extends the immediate of another slot of the bundle by 20 bits. -/
  | ximm (tgt : BitVec 3) (e : BitVec 20)
  /-- MESSAGE_DELIVERY (R272): A SEND's message is delivered into its ring slot, advancing TAIL and COUNT, once every earlier write of its strand has performed at the scope spanning producer and consumer. -/
  | messageDelivery (op : Nat)
  /-- OWED_RESPONSE_TIMEOUT (R353): A response that this package owes to destination m and that m does not accept within RTIMEOUT.NS is discarded. -/
  | owedResponseTimeout (resp : Nat)
  /-- ATS_INVALIDATION_ANSWER (R349): A destination answers an invalidation that this package sent for a changed page, and the host runtime's XLINV write completes once every destination has answered or been fenced. -/
  | atsInvalidationAnswer (dest : Nat)
  /-- SQCTL_FREEZE (R204): Setting FREEZE in either sequencer freezes the whole core at the next cycle boundary. -/
  | sqctlFreeze
  /-- SQCTL_UNFREEZE (R204): Clearing the last FREEZE bit of a core ends the freeze. -/
  | sqctlUnfreeze
  /-- SQCTL_STEP (R205): STEP gives the frozen core one cycle in which the stepped stream may issue one bundle. -/
  | sqctlStep
  /-- SQCTL_RESUME (R195): RESUME reads back the fault record and reissues the incomplete slots or continues at RESPC, or fails with RESFAIL. -/
  | sqctlResume
  /-- SQCTL_RESUME_SKIP (R196): RESUME with SKIP drops the failing engine command without effect and starts the rest of its queue. -/
  | sqctlResumeSkip
  /-- SLICE_WAYMASK_WRITE (R259): A write to SCRATCH starts a change of way roles and sets BUSY, or is ignored while BUSY. -/
  | sliceWaymaskWrite
  /-- REMOTE_WAYS_WRITE (R260): A write to REMOTE_WAYS.COUNT reserves cache ways for remote lines and starts the change. -/
  | remoteWaysWrite
  /-- XLINV_GO (R263): Writing XLINV with GO starts an invalidation of matching translations and sets XLSTAT.BUSY. -/
  | xlinvGo
  /-- RINGD_WRITE (R270): A write to a ring descriptor registers or unregisters a ring, ignored on a registered ring unless it clears VALID. -/
  | ringdWrite
  /-- TASKCMD_RELEASE (R292): TASKCMD OP 1 releases a parked task, making its producers' writes to named views visible. -/
  | taskcmdRelease
  /-- TASKCMD_KILL (R301): TASKCMD OP 2 kills the named task. -/
  | taskcmdKill
  /-- HQCTL_WRITE (R324): A write to HQCTL enables or disables a host queue, zeroing HEAD, DONE and ERR on re-enable, ignored while VALID unless it clears it. -/
  | hqctlWrite
  /-- NOTIFY (R325): A NOTIFY write sets the host queue's TAIL, or sets ERR when it breaks the ring. -/
  | notify
  /-- QUEUE_SLOT_ADMIT (R326): A free mapper slot admits the next ready host queue in round-robin order. -/
  | queueSlotAdmit
  /-- SENSOR_SAMPLE (R330): A zone's sensors are sampled into ZSENS every 100 microseconds. -/
  | sensorSample
  /-- ZCTL_EVAC (R336): EVAC written while ACTIVE or HOT starts the evacuation sequence. -/
  | zctlEvac
  /-- ZCTL_RETURN (R336): RETURN sets a DRY or FAILED zone to REFILL with the valve at 0x80 and throttle 0. -/
  | zctlReturn
  /-- ZCTL_WRITE (R330): A write of VALVE or THR, ignored in evacuation states or below THR_HOT while hot; accepted THR below THR_HOT returns HOT to ACTIVE. -/
  | zctlWrite
  /-- TRCTL_WRITE (R337): A write to TRCTL enables or disables tracing and sampling, zeroing RD and WR when EN goes from 0 to 1. -/
  | trctlWrite
  /-- CAPSTART (R343): TRCAP OP 1 opens a capture for a task, writes CAPSTART and takes the start sums. -/
  | capstart
  /-- CAPSTOP (R343): TRCAP OP 2 takes the stop sums, writes the capture block and then CAPSTOP. -/
  | capstop
  /-- RPCTL_WRITE (R344): A write to RPCTL sets replay mode, zeroing NEXT when MODE goes from 0 to 1. -/
  | rpctlWrite
  /-- PODID_WRITE (R347): A write to PODID sets the package number and time master, and LINKEN starts or stops station training. -/
  | podidWrite
  /-- DEST_WRITE (R347): A write to a DEST entry sets a destination's reachability and tags, ignored while VALID unless it clears it. -/
  | destWrite
  /-- DEST_FENCED_CLEAR (R353): Writing 1 to FENCED unfences a destination, and new requests run under fresh tags. -/
  | destFencedClear
  /-- GT_TIME_MESSAGE_SEND (R355): The time master sends time messages to every valid destination once per millisecond. -/
  | gtTimeMessageSend
  /-- POWER_UP (R358): After power-up each die locks clocks, scrubs memory, verifies firmware and starts the steward. -/
  | powerUp
  /-- PACKAGE_RESET (R358): A package reset runs the bring-up steps from reset values. -/
  | packageReset
  /-- POWER_OFF (R363): Power-off stops GT and every unit and loses all memory contents. -/
  | powerOff
  /-- BOOTSTAT_GO (R360): Firmware writes GO and the die's scheduler begins accepting launches. -/
  | bootstatGo
  /-- BOOTSTAT_SVNSET (R360): SVNSET irreversibly raises the fused minimum SVN to the running image's SVN. -/
  | bootstatSvnset
  /-- ATTCTL_GO (R362): GO starts forming a signed attestation report, or sets ERR when ATTDEST lies outside die 0's HBM. -/
  | attctlGo
  /-- ATTESTATION_COMPLETE (R362): The report has been written and performed at die scope, and ATTCTL.BUSY clears. -/
  | attestationComplete
  /-- REGISTER_WRITE (R9): A write to a register with no behaviour of its own stores its RW and W1C fields per the access codes. -/
  | registerWrite
deriving DecidableEq, Repr

end Sys2Proof
end

