-- ==== Sys2Proof/WellFormed.lean ====
section
/-! DEFINITION. Sys2Proof/WellFormed.lean: which terms of Instr are instructions. The checks are the ones R38 lists for one slot
word (guard, source codes, reserved codes, formats, fields of R21-R24); the pairings of XIMM and VROW with another slot are
checked on the bundle, in Decode.lean. A step of the package is well formed when the numbers it names exist (R2, R297). -/

namespace Sys2Proof

/-- Sequencers: two per core, 1024 quad cores and 16 steward cores (R2, R297). -/
def seqCount : Nat := 2080

/-- Cores: 1024 quad cores, then the steward core of each die (R2, R297). -/
def coreCount : Nat := 1040

/-- R15: guard 0b1000 is reserved. -/
def guardOk (g : BitVec 4) : Bool := g != 8

/-- R17: source codes 48 to 63 are reserved. -/
def srcOk (f : BitVec 6) : Bool := decide (f.toNat < 48)

/-- R21: p0 is reserved as a destination. -/
def predOk (p : BitVec 3) : Bool := p != 0

/-- R21: condition codes 110 and 111 are reserved. -/
def ccOk (c : BitVec 3) : Bool := decide (c.toNat < 6)

/-- R21: scope codes 101 to 111 are reserved. -/
def scopeOk (s : BitVec 3) : Bool := decide (s.toNat < 5)

/-- R23: row selectors 0x7 to 0xF are reserved. -/
def rowSelOk (r : BitVec 4) : Bool := decide (r.toNat < 7)

/-- R30, R274: a BANK command's row selector is a loop index. -/
def rowIndexOk (r : BitVec 4) : Bool := decide (r.toNat < 6)

/-- R22: format codes 0xD to 0xF are reserved. -/
def fmtOk (f : BitVec 4) : Bool := decide (f.toNat < 13)

/-- R131: the eight floating formats. -/
def fmtFloat (f : BitVec 4) : Bool := decide (f.toNat < 8)

/-- R131: FP32, FP16 and BF16. -/
def fmtWide (f : BitVec 4) : Bool := decide (f.toNat < 3)

/-- R131: INT32, INT8 and INT4. -/
def fmtInt (f : BitVec 4) : Bool := f == 8 || f == 9 || f == 11

/-- R131: NAT8 and NAT4. -/
def fmtNat (f : BitVec 4) : Bool := f == 10 || f == 12

/-- R131: the formats of VABS and VNEG. -/
def fmtFloatOrInt (f : BitVec 4) : Bool := fmtFloat f || fmtInt f

/-- R131: the formats of the shifts. -/
def fmtIntOrNat (f : BitVec 4) : Bool := fmtInt f || fmtNat f

/-- R215, R218: the formats of MM and MSTAT, all but FP32 and INT32. -/
def fmtArray (f : BitVec 4) : Bool := fmtOk f && f != 0 && f != 8

/-- R225: the formats of MMCMP. -/
def fmtCompare (f : BitVec 4) : Bool := f == 1 || f == 2 || f == 3 || f == 4 || f == 9 || f == 10

/-- R227: FP32 and INT32. -/
def fmt32 (f : BitVec 4) : Bool := f == 0 || f == 8

/-- R248: FP16 and BF16. -/
def fmtPlaced (f : BitVec 4) : Bool := f == 1 || f == 2

/-- R29: with cx = 0, cls is zero. -/
def clsOk (cx : Bool) (cls : BitVec 4) : Bool := cx || cls == 0

/-- R220: scales only with floating formats, and q zero without them. -/
def mmScaleOk (scl : Bool) (q : BitVec 3) (fmt : BitVec 4) : Bool := if scl then fmtFloat fmt else q == 0

/-- The accumulator table before R226: the half bit only with a 32-bit format, and q zero without requantisation. -/
def drainOk (fmt : BitVec 4) (q x : BitVec 3) : Bool :=
  (!x.getLsbD 1 || fmt32 fmt) && (x.getLsbD 0 || q == 0)

/-- R74: the numbers of the strand control registers. -/
def ctlOk (n : BitVec 12) : Bool :=
  [0x000, 0x001, 0x002, 0x003, 0x004, 0x008, 0x009, 0x00A, 0x00B, 0x00C, 0x010, 0x011, 0x012, 0x013, 0x014, 0x015, 0x016].contains
    n.toNat

/-- R118: the range of a shape field, as its lowest and highest value; none for a reserved field code. -/
def shapeRange (fld : BitVec 4) : Option (Nat × Nat) :=
  match fld.toNat with
  | 0 => some (1, 64)
  | 1 => some (1, 128)
  | 2 => some (1, 512)
  | 3 => some (0, 63)
  | 4 => some (0, 127)
  | 5 => some (0, 3)
  | 6 => some (0, 3)
  | 7 => some (0, 1)
  | _ => none

/-- R119: SHPSET's value lies in its field's range. -/
def shapeOk (fld : BitVec 4) (imm : BitVec 14) : Bool :=
  match shapeRange fld with
  | some (lo, hi) => decide (lo ≤ imm.toNat) && decide (imm.toNat ≤ hi)
  | none => false

/-- VFSET's field codes (R159): 0x0 to 0xB. -/
def viewFieldOk (fld : BitVec 4) : Bool := decide (fld.toNat < 12)

/-- The term is an instruction of the machine. -/
def Instr.wf (i : Instr) : Bool :=
  match i with
  | .bundleIssue q => decide (q < seqCount)
  | .pendingWriteLanding q => decide (q < seqCount)
  | .bundleSkip q => decide (q < seqCount)
  | .loopExit q => decide (q < seqCount)
  | .delayExpire q => decide (q < seqCount)
  | .starvationGuard core => decide (core < coreCount)
  | .variableResultArrival _ => true
  | .tileWriteComplete _ => true
  | .viewAccessPerform _ => true
  | .engineFault q => decide (q < seqCount)
  | .containedUnwind q => decide (q < seqCount)
  | .copyStart core cq => decide (core < coreCount) && decide (cq < 4)
  | .copyComplete _ => true
  | .retireComplete _ => true
  | .leaseGrant quad c => decide (quad < 256) && decide (c < 4)
  | .leaseBoundExpiry quad => decide (quad < 256)
  | .arrayCommandRun quad c => decide (quad < 256) && decide (c < 4)
  | .placedWriteback _ => true
  | .bankCommandRun q => decide (q < seqCount)
  | .atomicBankOperation _ _ => true
  | .translationWalkComplete die _ _ => decide (die < 16)
  | .sendFull q => decide (q < seqCount)
  | .waymaskChangeComplete die slice => decide (die < 16) && decide (slice < 32)
  | .remoteWaysChangeComplete die slice => decide (die < 16) && decide (slice < 32)
  | .xlinvComplete die => decide (die < 16)
  | .teamPlace die => decide (die < 16)
  | .cohortPlace die => decide (die < 16)
  | .launchViewRegister die _ => decide (die < 16)
  | .timedStart q => decide (q < seqCount)
  | .preemptDecision die => decide (die < 16)
  | .preemptReevaluate die => decide (die < 16)
  | .checkpointWrite _ _ => true
  | .teamRestore _ _ => true
  | .taskComplete _ => true
  | .pkgBarrierMessage _ => true
  | .lineInvalidate _ => true
  | .hqNop n => decide (n < 1024)
  | .hqLaunch n => decide (n < 1024)
  | .hqTimedLaunch n => decide (n < 1024)
  | .hqFence n => decide (n < 1024)
  | .hqInvalid n => decide (n < 1024)
  | .hqEntryComplete n _ => decide (n < 1024)
  | .coolLowflow zone => decide (zone < 69)
  | .coolOvertemp zone => decide (zone < 69)
  | .coolDry zone => decide (zone < 69)
  | .evacDrainTimeout zone => decide (zone < 69)
  | .evacValveClosed zone => decide (zone < 69)
  | .evacPurgeDone zone => decide (zone < 69)
  | .evacVerifyDone zone => decide (zone < 69)
  | .zoneReady zone => decide (zone < 69)
  | .lost die => decide (die < 16)
  | .resync die => decide (die < 16)
  | .stationUp station => decide (station < 16)
  | .stationDown station => decide (station < 16)
  | .remoteRequestSend _ => true
  | .remoteResponse _ => true
  | .remoteFence _ => true
  | .incomingRemoteRequest _ => true
  | .atsTranslationRequest dest _ => decide (dest < 1024)
  | .atsTranslationResponse dest _ _ => decide (dest < 1024)
  | .atsInvalidation dest _ _ => decide (dest < 1024)
  | .gtTimeMessage dest _ => decide (dest < 1024)
  | .podBarrierArrival group dest => decide (group < 64) && decide (dest < 1024)
  | .podBarrierCompletion group => decide (group < 64)
  | .podBarrierTimeout group => decide (group < 64)
  | .add _ g _ a b => guardOk g && srcOk a && srcOk b
  | .sub _ g _ a b => guardOk g && srcOk a && srcOk b
  | .and _ g _ a b => guardOk g && srcOk a && srcOk b
  | .or _ g _ a b => guardOk g && srcOk a && srcOk b
  | .xor _ g _ a b => guardOk g && srcOk a && srcOk b
  | .shl _ g _ a b => guardOk g && srcOk a && srcOk b
  | .shr _ g _ a b => guardOk g && srcOk a && srcOk b
  | .sra _ g _ a b => guardOk g && srcOk a && srcOk b
  | .min _ g _ a b => guardOk g && srcOk a && srcOk b
  | .max _ g _ a b => guardOk g && srcOk a && srcOk b
  | .minu _ g _ a b => guardOk g && srcOk a && srcOk b
  | .maxu _ g _ a b => guardOk g && srcOk a && srcOk b
  | .mov _ g _ a => guardOk g && srcOk a
  | .addsh _ g _ a b _ => guardOk g && srcOk a && srcOk b
  | .clz _ g _ a => guardOk g && srcOk a
  | .mul _ g _ a b => guardOk g && srcOk a && srcOk b
  | .mulh _ g _ a b => guardOk g && srcOk a && srcOk b
  | .mulhu _ g _ a b => guardOk g && srcOk a && srcOk b
  | .divu _ g _ a b => guardOk g && srcOk a && srcOk b
  | .remu _ g _ a b => guardOk g && srcOk a && srcOk b
  | .movi _ g _ _ => guardOk g
  | .addi _ g _ _ => guardOk g
  | .andi _ g _ _ => guardOk g
  | .ori _ g _ _ => guardOk g
  | .xori _ g _ _ => guardOk g
  | .shli _ g _ imm => guardOk g && decide (imm.toNat < 32)
  | .shri _ g _ imm => guardOk g && decide (imm.toNat < 32)
  | .srai _ g _ imm => guardOk g && decide (imm.toNat < 32)
  | .movh _ g _ _ => guardOk g
  | .lidx _ g _ lvl => guardOk g && decide (lvl.toNat < 6)
  | .ctlrd _ g _ ctl => guardOk g && ctlOk ctl
  | .ctlwr _ g src ctl => guardOk g && srcOk src && ctlOk ctl
  | .gtlo _ g _ => guardOk g
  | .gthi _ g _ => guardOk g
  | .cmp _ g pd cc a b => guardOk g && srcOk a && srcOk b && predOk pd && ccOk cc
  | .cmpi _ g pd cc a _ => guardOk g && srcOk a && predOk pd && ccOk cc
  | .sld _ g _ a _ => guardOk g && srcOk a
  | .sst _ g src a _ => guardOk g && srcOk a && srcOk src
  | .qmap _ g _ a => guardOk g && srcOk a
  | .qunmap _ g _ => guardOk g
  | .br g _ => guardOk g
  | .call g _ => guardOk g
  | .contain g _ => guardOk g
  | .jr g a => guardOk g && srcOk a
  | .callr g a => guardOk g && srcOk a
  | .loop g a len => guardOk g && srcOk a && decide (len ≠ 0)
  | .loopi g _ len => guardOk g && decide (len ≠ 0)
  | .lbrk g => guardOk g
  | .lstg g lv _ => guardOk g && decide (lv.toNat < 6)
  | .pand g pd _ _ _ _ => guardOk g && predOk pd
  | .por g pd _ _ _ _ => guardOk g && predOk pd
  | .pxor g pd _ _ _ _ => guardOk g && predOk pd
  | .bktj g a _ => guardOk g && srcOk a
  | .waitgt g a b => guardOk g && srcOk a && srcOk b
  | .setest g a b => guardOk g && srcOk a && srcOk b
  | .setts g a b => guardOk g && srcOk a && srcOk b
  | .setrm g _ => guardOk g
  | .launch g a _ => guardOk g && srcOk a
  | .bar g sc _ _ _ => guardOk g && scopeOk sc
  | .bararv g sc _ _ => guardOk g && scopeOk sc
  | .barwt g sc _ _ => guardOk g && scopeOk sc
  | .fence g sc _ => guardOk g && scopeOk sc
  | .trap g _ => guardOk g
  | .eret g => guardOk g
  | .exit g => guardOk g
  | .containend g => guardOk g
  | .vadd _ g fmt _ _ _ rs => guardOk g && rowSelOk rs && fmtOk fmt
  | .vsub _ g fmt _ _ _ rs => guardOk g && rowSelOk rs && fmtOk fmt
  | .vmul _ g fmt _ _ _ rs => guardOk g && rowSelOk rs && fmtOk fmt
  | .vfma _ g fmt _ _ _ rs => guardOk g && rowSelOk rs && fmtOk fmt
  | .vmin _ g fmt _ _ _ rs => guardOk g && rowSelOk rs && fmtOk fmt
  | .vmax _ g fmt _ _ _ rs => guardOk g && rowSelOk rs && fmtOk fmt
  | .vabs _ g fmt _ _ rs => guardOk g && rowSelOk rs && fmtFloatOrInt fmt
  | .vneg _ g fmt _ _ rs => guardOk g && rowSelOk rs && fmtFloatOrInt fmt
  | .vmov _ g fmt _ _ rs => guardOk g && rowSelOk rs && fmtOk fmt
  | .vand _ g fmt _ _ _ rs => guardOk g && rowSelOk rs && fmtOk fmt
  | .vor _ g fmt _ _ _ rs => guardOk g && rowSelOk rs && fmtOk fmt
  | .vxor _ g fmt _ _ _ rs => guardOk g && rowSelOk rs && fmtOk fmt
  | .vshl _ g fmt _ _ _ rs => guardOk g && rowSelOk rs && fmtIntOrNat fmt
  | .vshr _ g fmt _ _ _ rs => guardOk g && rowSelOk rs && fmtIntOrNat fmt
  | .vsra _ g fmt _ _ _ rs => guardOk g && rowSelOk rs && fmtIntOrNat fmt
  | .vcmpeq _ g fmt _ _ _ rs => guardOk g && rowSelOk rs && fmtOk fmt
  | .vcmplt _ g fmt _ _ _ rs => guardOk g && rowSelOk rs && fmtOk fmt
  | .vcmple _ g fmt _ _ _ rs => guardOk g && rowSelOk rs && fmtOk fmt
  | .vsel _ g fmt _ _ _ rs => guardOk g && rowSelOk rs && fmtOk fmt
  | .vcvt _ g fmt _ _ fsrc rs => guardOk g && rowSelOk rs && fmtOk fmt && fmtOk fsrc
  | .vscl _ g fmt _ _ _ rs => guardOk g && rowSelOk rs && fmtFloat fmt
  | .vclmp _ g fmt _ _ _ rs => guardOk g && rowSelOk rs && fmtOk fmt
  | .vexp2 _ g fmt _ _ rs => guardOk g && rowSelOk rs && fmtWide fmt
  | .vrcp _ g fmt _ _ rs => guardOk g && rowSelOk rs && fmtWide fmt
  | .vrsq _ g fmt _ _ rs => guardOk g && rowSelOk rs && fmtWide fmt
  | .vrsum _ g fmt _ _ rs => guardOk g && rowSelOk rs && fmtOk fmt
  | .vrmax _ g fmt _ _ rs => guardOk g && rowSelOk rs && fmtOk fmt
  | .vrmin _ g fmt _ _ rs => guardOk g && rowSelOk rs && fmtOk fmt
  | .vbcs _ g fmt _ _ rs => guardOk g && rowSelOk rs && fmtOk fmt
  | .vext _ g fmt _ _ _ rs => guardOk g && rowSelOk rs && fmtOk fmt
  | .vins _ g fmt _ _ _ rs => guardOk g && rowSelOk rs && fmtOk fmt
  | .vperm _ g fmt _ _ _ rs => guardOk g && rowSelOk rs && fmtOk fmt
  | .vlsh _ g fmt _ _ _ rs => guardOk g && rowSelOk rs && fmtOk fmt
  | .vpack _ g fmt _ _ _ rs => guardOk g && rowSelOk rs && fmtOk fmt
  | .vunpk _ g fmt _ _ _ rs => guardOk g && rowSelOk rs && fmtOk fmt
  | .vadds _ g fmt _ _ _ rs => guardOk g && rowSelOk rs && fmtOk fmt
  | .vmuls _ g fmt _ _ _ rs => guardOk g && rowSelOk rs && fmtOk fmt
  | .vfmas _ g fmt _ _ _ rs => guardOk g && rowSelOk rs && fmtOk fmt
  | .tld g _ _ a cx cls => guardOk g && srcOk a && clsOk cx cls
  | .tst g _ _ a cx cls => guardOk g && srcOk a && clsOk cx cls
  | .tgath g _ _ a cx cls => guardOk g && srcOk a && clsOk cx cls
  | .tscat g _ _ a cx cls => guardOk g && srcOk a && clsOk cx cls
  | .pref g _ a => guardOk g && srcOk a
  | .tspld g _ a => guardOk g && srcOk a
  | .tspst g _ a => guardOk g && srcOk a
  | .ared g _ _ a cx cls => guardOk g && srcOk a && clsOk cx cls
  | .tzero g _ => guardOk g
  | .tmovt g _ _ => guardOk g
  | .tcopy g _ _ a _ _ => guardOk g && srcOk a
  | .vopen g _ mode sc _ => guardOk g && scopeOk sc && decide (mode ≠ 3)
  | .vretire g _ => guardOk g
  | .hfree g a => guardOk g && srcOk a
  | .waitm g d _ a _ _ => guardOk g && srcOk a && srcOk d
  | .aadd g _ _ a _ _ => guardOk g && srcOk a
  | .amin g _ _ a _ _ => guardOk g && srcOk a
  | .amax g _ _ a _ _ => guardOk g && srcOk a
  | .aminu g _ _ a _ _ => guardOk g && srcOk a
  | .amaxu g _ _ a _ _ => guardOk g && srcOk a
  | .aand g _ _ a _ _ => guardOk g && srcOk a
  | .aor g _ _ a _ _ => guardOk g && srcOk a
  | .axor g _ _ a _ _ => guardOk g && srcOk a
  | .axchg g _ _ a _ _ => guardOk g && srcOk a
  | .acas g _ _ a _ _ => guardOk g && srcOk a
  | .aincb g _ _ a _ _ => guardOk g && srcOk a
  | .afadd g _ _ a _ _ => guardOk g && srcOk a
  | .afaddh g _ _ a _ _ => guardOk g && srcOk a
  | .ald g _ _ a _ _ => guardOk g && srcOk a
  | .ast g _ _ a _ _ => guardOk g && srcOk a
  | .send g a _ b _ => guardOk g && srcOk a && srcOk b
  | .mm g _ _ _ _ fmt q scl => guardOk g && fmtArray fmt && mmScaleOk scl q fmt
  | .mmcmp g _ _ _ _ fmt => guardOk g && fmtCompare fmt
  | .mstatTile g _ _ _ fmt => guardOk g && fmtArray fmt
  | .mstatHandle g a _ _ fmt => guardOk g && srcOk a && fmtArray fmt
  | .mswap g => guardOk g
  | .lease g => guardOk g
  | .lrel g => guardOk g
  | .acczeroFp g _ _ => guardOk g
  | .acczeroInt g _ => guardOk g
  | .accld g _ _ _ _ fmt _ => guardOk g && fmt32 fmt
  | .accnorm g _ _ _ _ => guardOk g
  | .accchk g _ => guardOk g
  | .accdrain g _ _ _ _ fmt q x => guardOk g && fmtOk fmt && drainOk fmt q x
  | .fold g _ _ _ => guardOk g
  | .tadd g _ _ _ fmt _ _ => guardOk g && fmtPlaced fmt
  | .tsub g _ _ _ fmt _ _ => guardOk g && fmtPlaced fmt
  | .tmul g _ _ _ fmt _ _ => guardOk g && fmtPlaced fmt
  | .tmax g _ _ _ fmt _ _ => guardOk g && fmtPlaced fmt
  | .tred g _ _ fmt _ _ => guardOk g && fmtPlaced fmt
  | .tmv g _ _ _ fmt _ _ => guardOk g && fmtPlaced fmt
  | .tmm g _ _ _ fmt _ _ => guardOk g && fmtPlaced fmt
  | .pabm g a _ rs => guardOk g && srcOk a && rowIndexOk rs
  | .pbcast g a _ rs => guardOk g && srcOk a && rowIndexOk rs
  | .pmac g a _ rs => guardOk g && srcOk a && rowIndexOk rs
  | .pread g a _ rs => guardOk g && srcOk a && rowIndexOk rs
  | .pexit g a => guardOk g && srcOk a
  | .shpset g _ fld imm => guardOk g && shapeOk fld imm
  | .shpcpy g _ => guardOk g
  | .qld g _ a _ => guardOk g && srcOk a
  | .qset g _ a _ => guardOk g && srcOk a
  | .qzero g _ => guardOk g
  | .vfset g _ fld a => guardOk g && srcOk a && viewFieldOk fld
  | .vfseti g _ fld _ => guardOk g && viewFieldOk fld
  | .bndset g _ a b => guardOk g && srcOk a && srcOk b
  | .bndoff g _ => guardOk g
  | .vrow _ rd ra rb => srcOk rd && srcOk ra && srcOk rb
  | .ximm tgt _ => decide (tgt ≠ 7)
  | .messageDelivery _ => true
  | .owedResponseTimeout _ => true
  | .atsInvalidationAnswer dest => decide (dest < 1024)
  | .sqctlFreeze => true
  | .sqctlUnfreeze => true
  | .sqctlStep => true
  | .sqctlResume => true
  | .sqctlResumeSkip => true
  | .sliceWaymaskWrite => true
  | .remoteWaysWrite => true
  | .xlinvGo => true
  | .ringdWrite => true
  | .taskcmdRelease => true
  | .taskcmdKill => true
  | .hqctlWrite => true
  | .notify => true
  | .queueSlotAdmit => true
  | .sensorSample => true
  | .zctlEvac => true
  | .zctlReturn => true
  | .zctlWrite => true
  | .trctlWrite => true
  | .capstart => true
  | .capstop => true
  | .rpctlWrite => true
  | .podidWrite => true
  | .destWrite => true
  | .destFencedClear => true
  | .gtTimeMessageSend => true
  | .powerUp => true
  | .packageReset => true
  | .powerOff => true
  | .bootstatGo => true
  | .bootstatSvnset => true
  | .attctlGo => true
  | .attestationComplete => true
  | .registerWrite => true

end Sys2Proof
end

