-- ==== Sys2Proof/Decode.lean ====
section
/-! DEFINITION. Sys2Proof/Decode.lean: words to instructions (R12-R40), and after it the encoder. A word is a natural number below
2^32. The class of a slot is the slot's place in the bundle and no part of the word (R13), so a decoder of one word is told
the class. -/

namespace Sys2Proof

/-- The class a slot carries (R13), with the lane of the two classes that have two slots. -/
inductive SlotClass where
  | s (l : Bool)
  | c
  | v (l : Bool)
  | m
  | e
  | k
deriving DecidableEq, Repr

/-- R13: the class of slot number n. -/
def slotClass (n : Nat) : SlotClass :=
  if n = 0 then .s false else if n = 1 then .s true else if n = 2 then .c else if n = 3 then .v false
  else if n = 4 then .v true else if n = 5 then .m else if n = 6 then .e else .k

/-- R13: the number of a class's slot. -/
def slotNumber (cl : SlotClass) : Nat :=
  match cl with
  | .s false => 0
  | .s true => 1
  | .c => 2
  | .v false => 3
  | .v true => 4
  | .m => 5
  | .e => 6
  | .k => 7

/-- Bits [lo+n-1:lo] of a word. -/
def fieldAt (w lo n : Nat) : BitVec n := BitVec.ofNat n (w / 2 ^ lo)

/-- Bit lo of a word. -/
def bitAt (w lo : Nat) : Bool := w / 2 ^ lo % 2 == 1

/-- R32: the S-class instruction of an opcode, with the fields of the word where its format (R26-R31) has them. -/
def opcodeS (l : Bool) (w op : Nat) : Option Instr :=
  match op with
  | 0x01 => some (.add l (fieldAt w 28 4) (fieldAt w 14 6) (fieldAt w 8 6) (fieldAt w 2 6))
  | 0x02 => some (.sub l (fieldAt w 28 4) (fieldAt w 14 6) (fieldAt w 8 6) (fieldAt w 2 6))
  | 0x03 => some (.and l (fieldAt w 28 4) (fieldAt w 14 6) (fieldAt w 8 6) (fieldAt w 2 6))
  | 0x04 => some (.or l (fieldAt w 28 4) (fieldAt w 14 6) (fieldAt w 8 6) (fieldAt w 2 6))
  | 0x05 => some (.xor l (fieldAt w 28 4) (fieldAt w 14 6) (fieldAt w 8 6) (fieldAt w 2 6))
  | 0x06 => some (.shl l (fieldAt w 28 4) (fieldAt w 14 6) (fieldAt w 8 6) (fieldAt w 2 6))
  | 0x07 => some (.shr l (fieldAt w 28 4) (fieldAt w 14 6) (fieldAt w 8 6) (fieldAt w 2 6))
  | 0x08 => some (.sra l (fieldAt w 28 4) (fieldAt w 14 6) (fieldAt w 8 6) (fieldAt w 2 6))
  | 0x09 => some (.min l (fieldAt w 28 4) (fieldAt w 14 6) (fieldAt w 8 6) (fieldAt w 2 6))
  | 0x0A => some (.max l (fieldAt w 28 4) (fieldAt w 14 6) (fieldAt w 8 6) (fieldAt w 2 6))
  | 0x0B => some (.minu l (fieldAt w 28 4) (fieldAt w 14 6) (fieldAt w 8 6) (fieldAt w 2 6))
  | 0x0C => some (.maxu l (fieldAt w 28 4) (fieldAt w 14 6) (fieldAt w 8 6) (fieldAt w 2 6))
  | 0x0D => some (.mov l (fieldAt w 28 4) (fieldAt w 14 6) (fieldAt w 8 6))
  | 0x0E => some (.addsh l (fieldAt w 28 4) (fieldAt w 14 6) (fieldAt w 8 6) (fieldAt w 2 6) (fieldAt w 0 2))
  | 0x0F => some (.clz l (fieldAt w 28 4) (fieldAt w 14 6) (fieldAt w 8 6))
  | 0x10 => some (.mul l (fieldAt w 28 4) (fieldAt w 14 6) (fieldAt w 8 6) (fieldAt w 2 6))
  | 0x11 => some (.mulh l (fieldAt w 28 4) (fieldAt w 14 6) (fieldAt w 8 6) (fieldAt w 2 6))
  | 0x12 => some (.mulhu l (fieldAt w 28 4) (fieldAt w 14 6) (fieldAt w 8 6) (fieldAt w 2 6))
  | 0x13 => some (.divu l (fieldAt w 28 4) (fieldAt w 14 6) (fieldAt w 8 6) (fieldAt w 2 6))
  | 0x14 => some (.remu l (fieldAt w 28 4) (fieldAt w 14 6) (fieldAt w 8 6) (fieldAt w 2 6))
  | 0x20 => some (.movi l (fieldAt w 28 4) (fieldAt w 14 6) (fieldAt w 0 12))
  | 0x21 => some (.addi l (fieldAt w 28 4) (fieldAt w 14 6) (fieldAt w 0 12))
  | 0x22 => some (.andi l (fieldAt w 28 4) (fieldAt w 14 6) (fieldAt w 0 12))
  | 0x23 => some (.ori l (fieldAt w 28 4) (fieldAt w 14 6) (fieldAt w 0 12))
  | 0x24 => some (.xori l (fieldAt w 28 4) (fieldAt w 14 6) (fieldAt w 0 12))
  | 0x25 => some (.shli l (fieldAt w 28 4) (fieldAt w 14 6) (fieldAt w 0 12))
  | 0x26 => some (.shri l (fieldAt w 28 4) (fieldAt w 14 6) (fieldAt w 0 12))
  | 0x27 => some (.srai l (fieldAt w 28 4) (fieldAt w 14 6) (fieldAt w 0 12))
  | 0x28 => some (.movh l (fieldAt w 28 4) (fieldAt w 14 6) (fieldAt w 0 12))
  | 0x29 => some (.lidx l (fieldAt w 28 4) (fieldAt w 14 6) (fieldAt w 0 12))
  | 0x2A => some (.ctlrd l (fieldAt w 28 4) (fieldAt w 14 6) (fieldAt w 0 12))
  | 0x2B => some (.ctlwr l (fieldAt w 28 4) (fieldAt w 14 6) (fieldAt w 0 12))
  | 0x2C => some (.gtlo l (fieldAt w 28 4) (fieldAt w 14 6))
  | 0x2D => some (.gthi l (fieldAt w 28 4) (fieldAt w 14 6))
  | 0x30 => some (.cmp l (fieldAt w 28 4) (fieldAt w 17 3) (fieldAt w 14 3) (fieldAt w 8 6) (fieldAt w 2 6))
  | 0x31 => some (.cmpi l (fieldAt w 28 4) (fieldAt w 17 3) (fieldAt w 14 3) (fieldAt w 8 6) (fieldAt w 0 8))
  | 0x38 => some (.sld l (fieldAt w 28 4) (fieldAt w 14 6) (fieldAt w 8 6) (fieldAt w 0 8))
  | 0x39 => some (.sst l (fieldAt w 28 4) (fieldAt w 14 6) (fieldAt w 8 6) (fieldAt w 0 8))
  | 0x3C => some (.qmap l (fieldAt w 28 4) (bitAt w 14) (fieldAt w 8 6))
  | 0x3D => some (.qunmap l (fieldAt w 28 4) (bitAt w 14))
  | _ => none

/-- The S-class instruction of a word, by its opcode in bits [27:20] (R16). -/
def decodeS (l : Bool) (w : Nat) : Option Instr := opcodeS l w (w / 0x100000 % 256)

/-- R33: the C-class instruction of an opcode, with the fields of the word where its format (R26-R31) has them. -/
def opcodeC (w op : Nat) : Option Instr :=
  match op with
  | 0x01 => some (.br (fieldAt w 28 4) (fieldAt w 0 20))
  | 0x02 => some (.call (fieldAt w 28 4) (fieldAt w 0 20))
  | 0x03 => some (.contain (fieldAt w 28 4) (fieldAt w 0 20))
  | 0x04 => some (.jr (fieldAt w 28 4) (fieldAt w 14 6))
  | 0x05 => some (.callr (fieldAt w 28 4) (fieldAt w 14 6))
  | 0x08 => some (.loop (fieldAt w 28 4) (fieldAt w 14 6) (fieldAt w 0 12))
  | 0x09 => some (.loopi (fieldAt w 28 4) (fieldAt w 8 12) (fieldAt w 0 8))
  | 0x0A => some (.lbrk (fieldAt w 28 4))
  | 0x0B => some (.lstg (fieldAt w 28 4) (fieldAt w 17 3) (fieldAt w 13 4))
  | 0x10 => some (.pand (fieldAt w 28 4) (fieldAt w 17 3) (fieldAt w 14 3) (fieldAt w 11 3) (bitAt w 10) (bitAt w 9))
  | 0x11 => some (.por (fieldAt w 28 4) (fieldAt w 17 3) (fieldAt w 14 3) (fieldAt w 11 3) (bitAt w 10) (bitAt w 9))
  | 0x12 => some (.pxor (fieldAt w 28 4) (fieldAt w 17 3) (fieldAt w 14 3) (fieldAt w 11 3) (bitAt w 10) (bitAt w 9))
  | 0x18 => some (.bktj (fieldAt w 28 4) (fieldAt w 14 6) (fieldAt w 0 4))
  | 0x19 => some (.waitgt (fieldAt w 28 4) (fieldAt w 14 6) (fieldAt w 8 6))
  | 0x1A => some (.setest (fieldAt w 28 4) (fieldAt w 14 6) (fieldAt w 8 6))
  | 0x1B => some (.setts (fieldAt w 28 4) (fieldAt w 14 6) (fieldAt w 8 6))
  | 0x1C => some (.setrm (fieldAt w 28 4) (fieldAt w 0 2))
  | 0x1D => some (.launch (fieldAt w 28 4) (fieldAt w 14 6) (bitAt w 0))
  | 0x20 => some (.bar (fieldAt w 28 4) (fieldAt w 17 3) (fieldAt w 14 3) (bitAt w 13) (bitAt w 12))
  | 0x21 => some (.bararv (fieldAt w 28 4) (fieldAt w 17 3) (fieldAt w 14 3) (bitAt w 13))
  | 0x22 => some (.barwt (fieldAt w 28 4) (fieldAt w 17 3) (fieldAt w 14 3) (bitAt w 12))
  | 0x24 => some (.fence (fieldAt w 28 4) (fieldAt w 17 3) (fieldAt w 0 16))
  | 0x28 => some (.trap (fieldAt w 28 4) (fieldAt w 0 8))
  | 0x29 => some (.eret (fieldAt w 28 4))
  | 0x2A => some (.exit (fieldAt w 28 4))
  | 0x2B => some (.containend (fieldAt w 28 4))
  | _ => none

/-- The C-class instruction of a word, by its opcode in bits [27:20] (R16). -/
def decodeC (w : Nat) : Option Instr := opcodeC w (w / 0x100000 % 256)

/-- R34: the V-class instruction of an opcode, with the fields of the word where its format (R26-R31) has them. -/
def opcodeV (l : Bool) (w op : Nat) : Option Instr :=
  match op with
  | 0x01 => some (.vadd l (fieldAt w 28 4) (fieldAt w 16 4) (fieldAt w 12 4) (fieldAt w 8 4) (fieldAt w 4 4) (fieldAt w 0 4))
  | 0x02 => some (.vsub l (fieldAt w 28 4) (fieldAt w 16 4) (fieldAt w 12 4) (fieldAt w 8 4) (fieldAt w 4 4) (fieldAt w 0 4))
  | 0x03 => some (.vmul l (fieldAt w 28 4) (fieldAt w 16 4) (fieldAt w 12 4) (fieldAt w 8 4) (fieldAt w 4 4) (fieldAt w 0 4))
  | 0x04 => some (.vfma l (fieldAt w 28 4) (fieldAt w 16 4) (fieldAt w 12 4) (fieldAt w 8 4) (fieldAt w 4 4) (fieldAt w 0 4))
  | 0x05 => some (.vmin l (fieldAt w 28 4) (fieldAt w 16 4) (fieldAt w 12 4) (fieldAt w 8 4) (fieldAt w 4 4) (fieldAt w 0 4))
  | 0x06 => some (.vmax l (fieldAt w 28 4) (fieldAt w 16 4) (fieldAt w 12 4) (fieldAt w 8 4) (fieldAt w 4 4) (fieldAt w 0 4))
  | 0x07 => some (.vabs l (fieldAt w 28 4) (fieldAt w 16 4) (fieldAt w 12 4) (fieldAt w 8 4) (fieldAt w 0 4))
  | 0x08 => some (.vneg l (fieldAt w 28 4) (fieldAt w 16 4) (fieldAt w 12 4) (fieldAt w 8 4) (fieldAt w 0 4))
  | 0x09 => some (.vmov l (fieldAt w 28 4) (fieldAt w 16 4) (fieldAt w 12 4) (fieldAt w 8 4) (fieldAt w 0 4))
  | 0x0C => some (.vand l (fieldAt w 28 4) (fieldAt w 16 4) (fieldAt w 12 4) (fieldAt w 8 4) (fieldAt w 4 4) (fieldAt w 0 4))
  | 0x0D => some (.vor l (fieldAt w 28 4) (fieldAt w 16 4) (fieldAt w 12 4) (fieldAt w 8 4) (fieldAt w 4 4) (fieldAt w 0 4))
  | 0x0E => some (.vxor l (fieldAt w 28 4) (fieldAt w 16 4) (fieldAt w 12 4) (fieldAt w 8 4) (fieldAt w 4 4) (fieldAt w 0 4))
  | 0x0F => some (.vshl l (fieldAt w 28 4) (fieldAt w 16 4) (fieldAt w 12 4) (fieldAt w 8 4) (fieldAt w 4 4) (fieldAt w 0 4))
  | 0x10 => some (.vshr l (fieldAt w 28 4) (fieldAt w 16 4) (fieldAt w 12 4) (fieldAt w 8 4) (fieldAt w 4 4) (fieldAt w 0 4))
  | 0x11 => some (.vsra l (fieldAt w 28 4) (fieldAt w 16 4) (fieldAt w 12 4) (fieldAt w 8 4) (fieldAt w 4 4) (fieldAt w 0 4))
  | 0x14 => some (.vcmpeq l (fieldAt w 28 4) (fieldAt w 16 4) (fieldAt w 12 4) (fieldAt w 8 4) (fieldAt w 4 4) (fieldAt w 0 4))
  | 0x15 => some (.vcmplt l (fieldAt w 28 4) (fieldAt w 16 4) (fieldAt w 12 4) (fieldAt w 8 4) (fieldAt w 4 4) (fieldAt w 0 4))
  | 0x16 => some (.vcmple l (fieldAt w 28 4) (fieldAt w 16 4) (fieldAt w 12 4) (fieldAt w 8 4) (fieldAt w 4 4) (fieldAt w 0 4))
  | 0x17 => some (.vsel l (fieldAt w 28 4) (fieldAt w 16 4) (fieldAt w 12 4) (fieldAt w 8 4) (fieldAt w 4 4) (fieldAt w 0 4))
  | 0x18 => some (.vcvt l (fieldAt w 28 4) (fieldAt w 16 4) (fieldAt w 12 4) (fieldAt w 8 4) (fieldAt w 4 4) (fieldAt w 0 4))
  | 0x19 => some (.vscl l (fieldAt w 28 4) (fieldAt w 16 4) (fieldAt w 12 4) (fieldAt w 8 4) (fieldAt w 4 3) (fieldAt w 0 4))
  | 0x1A => some (.vclmp l (fieldAt w 28 4) (fieldAt w 16 4) (fieldAt w 12 4) (fieldAt w 8 4) (fieldAt w 4 4) (fieldAt w 0 4))
  | 0x1C => some (.vexp2 l (fieldAt w 28 4) (fieldAt w 16 4) (fieldAt w 12 4) (fieldAt w 8 4) (fieldAt w 0 4))
  | 0x1D => some (.vrcp l (fieldAt w 28 4) (fieldAt w 16 4) (fieldAt w 12 4) (fieldAt w 8 4) (fieldAt w 0 4))
  | 0x1E => some (.vrsq l (fieldAt w 28 4) (fieldAt w 16 4) (fieldAt w 12 4) (fieldAt w 8 4) (fieldAt w 0 4))
  | 0x20 => some (.vrsum l (fieldAt w 28 4) (fieldAt w 16 4) (fieldAt w 12 4) (fieldAt w 8 4) (fieldAt w 0 4))
  | 0x21 => some (.vrmax l (fieldAt w 28 4) (fieldAt w 16 4) (fieldAt w 12 4) (fieldAt w 8 4) (fieldAt w 0 4))
  | 0x22 => some (.vrmin l (fieldAt w 28 4) (fieldAt w 16 4) (fieldAt w 12 4) (fieldAt w 8 4) (fieldAt w 0 4))
  | 0x24 => some (.vbcs l (fieldAt w 28 4) (fieldAt w 16 4) (fieldAt w 12 4) (fieldAt w 4 4) (fieldAt w 0 4))
  | 0x25 => some (.vext l (fieldAt w 28 4) (fieldAt w 16 4) (fieldAt w 12 4) (fieldAt w 8 4) (fieldAt w 4 4) (fieldAt w 0 4))
  | 0x26 => some (.vins l (fieldAt w 28 4) (fieldAt w 16 4) (fieldAt w 12 4) (fieldAt w 8 4) (fieldAt w 4 4) (fieldAt w 0 4))
  | 0x28 => some (.vperm l (fieldAt w 28 4) (fieldAt w 16 4) (fieldAt w 12 4) (fieldAt w 8 4) (fieldAt w 4 4) (fieldAt w 0 4))
  | 0x29 => some (.vlsh l (fieldAt w 28 4) (fieldAt w 16 4) (fieldAt w 12 4) (fieldAt w 8 4) (fieldAt w 4 4) (fieldAt w 0 4))
  | 0x2A => some (.vpack l (fieldAt w 28 4) (fieldAt w 16 4) (fieldAt w 12 4) (fieldAt w 8 4) (fieldAt w 4 4) (fieldAt w 0 4))
  | 0x2B => some (.vunpk l (fieldAt w 28 4) (fieldAt w 16 4) (fieldAt w 12 4) (fieldAt w 8 4) (bitAt w 4) (fieldAt w 0 4))
  | 0x30 => some (.vadds l (fieldAt w 28 4) (fieldAt w 16 4) (fieldAt w 12 4) (fieldAt w 8 4) (fieldAt w 4 4) (fieldAt w 0 4))
  | 0x31 => some (.vmuls l (fieldAt w 28 4) (fieldAt w 16 4) (fieldAt w 12 4) (fieldAt w 8 4) (fieldAt w 4 4) (fieldAt w 0 4))
  | 0x32 => some (.vfmas l (fieldAt w 28 4) (fieldAt w 16 4) (fieldAt w 12 4) (fieldAt w 8 4) (fieldAt w 4 4) (fieldAt w 0 4))
  | _ => none

/-- The V-class instruction of a word, by its opcode in bits [27:20] (R16). -/
def decodeV (l : Bool) (w : Nat) : Option Instr := opcodeV l w (w / 0x100000 % 256)

/-- R35: the M-class instruction of an opcode, with the fields of the word where its format (R26-R31) has them. -/
def opcodeM (w op : Nat) : Option Instr :=
  match op with
  | 0x01 => some (.tld (fieldAt w 28 4) (fieldAt w 16 4) (fieldAt w 12 4) (fieldAt w 6 6) (bitAt w 5) (fieldAt w 1 4))
  | 0x02 => some (.tst (fieldAt w 28 4) (fieldAt w 16 4) (fieldAt w 12 4) (fieldAt w 6 6) (bitAt w 5) (fieldAt w 1 4))
  | 0x03 => some (.tgath (fieldAt w 28 4) (fieldAt w 16 4) (fieldAt w 12 4) (fieldAt w 6 6) (bitAt w 5) (fieldAt w 1 4))
  | 0x04 => some (.tscat (fieldAt w 28 4) (fieldAt w 16 4) (fieldAt w 12 4) (fieldAt w 6 6) (bitAt w 5) (fieldAt w 1 4))
  | 0x05 => some (.pref (fieldAt w 28 4) (fieldAt w 12 4) (fieldAt w 6 6))
  | 0x06 => some (.tspld (fieldAt w 28 4) (fieldAt w 16 4) (fieldAt w 6 6))
  | 0x07 => some (.tspst (fieldAt w 28 4) (fieldAt w 16 4) (fieldAt w 6 6))
  | 0x08 => some (.ared (fieldAt w 28 4) (fieldAt w 16 4) (fieldAt w 12 4) (fieldAt w 6 6) (bitAt w 5) (fieldAt w 1 4))
  | 0x09 => some (.tzero (fieldAt w 28 4) (fieldAt w 16 4))
  | 0x0A => some (.tmovt (fieldAt w 28 4) (fieldAt w 16 4) (fieldAt w 12 4))
  | 0x0C => some (.tcopy (fieldAt w 28 4) (fieldAt w 16 4) (fieldAt w 12 4) (fieldAt w 6 6) (fieldAt w 4 2) (bitAt w 3))
  | 0x10 => some (.vopen (fieldAt w 28 4) (fieldAt w 16 4) (fieldAt w 8 2) (fieldAt w 5 3) (fieldAt w 1 4))
  | 0x11 => some (.vretire (fieldAt w 28 4) (fieldAt w 16 4))
  | 0x12 => some (.hfree (fieldAt w 28 4) (fieldAt w 10 6))
  | 0x13 => some (.waitm (fieldAt w 28 4) (fieldAt w 14 6) (fieldAt w 10 4) (fieldAt w 4 6) (bitAt w 2) (fieldAt w 0 2))
  | 0x18 => some (.aadd (fieldAt w 28 4) (fieldAt w 14 6) (fieldAt w 10 4) (fieldAt w 4 6) (fieldAt w 2 2) (fieldAt w 0 2))
  | 0x19 => some (.amin (fieldAt w 28 4) (fieldAt w 14 6) (fieldAt w 10 4) (fieldAt w 4 6) (fieldAt w 2 2) (fieldAt w 0 2))
  | 0x1A => some (.amax (fieldAt w 28 4) (fieldAt w 14 6) (fieldAt w 10 4) (fieldAt w 4 6) (fieldAt w 2 2) (fieldAt w 0 2))
  | 0x1B => some (.aminu (fieldAt w 28 4) (fieldAt w 14 6) (fieldAt w 10 4) (fieldAt w 4 6) (fieldAt w 2 2) (fieldAt w 0 2))
  | 0x1C => some (.amaxu (fieldAt w 28 4) (fieldAt w 14 6) (fieldAt w 10 4) (fieldAt w 4 6) (fieldAt w 2 2) (fieldAt w 0 2))
  | 0x1D => some (.aand (fieldAt w 28 4) (fieldAt w 14 6) (fieldAt w 10 4) (fieldAt w 4 6) (fieldAt w 2 2) (fieldAt w 0 2))
  | 0x1E => some (.aor (fieldAt w 28 4) (fieldAt w 14 6) (fieldAt w 10 4) (fieldAt w 4 6) (fieldAt w 2 2) (fieldAt w 0 2))
  | 0x1F => some (.axor (fieldAt w 28 4) (fieldAt w 14 6) (fieldAt w 10 4) (fieldAt w 4 6) (fieldAt w 2 2) (fieldAt w 0 2))
  | 0x20 => some (.axchg (fieldAt w 28 4) (fieldAt w 14 6) (fieldAt w 10 4) (fieldAt w 4 6) (fieldAt w 2 2) (fieldAt w 0 2))
  | 0x21 => some (.acas (fieldAt w 28 4) (fieldAt w 15 5) (fieldAt w 10 4) (fieldAt w 4 6) (fieldAt w 2 2) (fieldAt w 0 2))
  | 0x22 => some (.aincb (fieldAt w 28 4) (fieldAt w 14 6) (fieldAt w 10 4) (fieldAt w 4 6) (fieldAt w 2 2) (fieldAt w 0 2))
  | 0x23 => some (.afadd (fieldAt w 28 4) (fieldAt w 14 6) (fieldAt w 10 4) (fieldAt w 4 6) (fieldAt w 2 2) (fieldAt w 0 2))
  | 0x24 => some (.afaddh (fieldAt w 28 4) (fieldAt w 14 6) (fieldAt w 10 4) (fieldAt w 4 6) (fieldAt w 2 2) (fieldAt w 0 2))
  | 0x25 => some (.ald (fieldAt w 28 4) (fieldAt w 14 6) (fieldAt w 10 4) (fieldAt w 4 6) (fieldAt w 2 2) (fieldAt w 0 2))
  | 0x26 => some (.ast (fieldAt w 28 4) (fieldAt w 14 6) (fieldAt w 10 4) (fieldAt w 4 6) (fieldAt w 2 2) (fieldAt w 0 2))
  | 0x28 => some (.send (fieldAt w 28 4) (fieldAt w 14 6) (fieldAt w 10 4) (fieldAt w 4 6) (bitAt w 3))
  | _ => none

/-- The M-class instruction of a word, by its opcode in bits [27:20] (R16). -/
def decodeM (w : Nat) : Option Instr := opcodeM w (w / 0x100000 % 256)

/-- R36: the E-class instruction of an opcode, with the fields of the word where its format (R26-R31) has them. -/
def opcodeE (w op : Nat) : Option Instr :=
  match op with
  | 0x01 => some (.mm (fieldAt w 28 4) (fieldAt w 17 3) (fieldAt w 13 4) (fieldAt w 11 2) (bitAt w 10) (fieldAt w 6 4) (fieldAt w 3 3) (bitAt w 0))
  | 0x02 => some (.mmcmp (fieldAt w 28 4) (fieldAt w 17 3) (fieldAt w 13 4) (fieldAt w 11 2) (bitAt w 10) (fieldAt w 6 4))
  | 0x03 => some (if bitAt w 9 then .mstatHandle (fieldAt w 28 4) (fieldAt w 14 6) (fieldAt w 7 2) (bitAt w 6) (fieldAt w 2 4) else .mstatTile (fieldAt w 28 4) (fieldAt w 11 3) (fieldAt w 7 2) (bitAt w 6) (fieldAt w 2 4))
  | 0x04 => some (.mswap (fieldAt w 28 4))
  | 0x05 => some (.lease (fieldAt w 28 4))
  | 0x06 => some (.lrel (fieldAt w 28 4))
  | 0x08 => some (if bitAt w 0 then .acczeroInt (fieldAt w 28 4) (fieldAt w 17 3) else .acczeroFp (fieldAt w 28 4) (fieldAt w 17 3) (fieldAt w 13 4))
  | 0x09 => some (.accld (fieldAt w 28 4) (fieldAt w 17 3) (fieldAt w 13 4) (fieldAt w 11 2) (bitAt w 10) (fieldAt w 6 4) (bitAt w 1))
  | 0x0A => some (.accnorm (fieldAt w 28 4) (fieldAt w 17 3) (fieldAt w 13 4) (fieldAt w 11 2) (bitAt w 10))
  | 0x0B => some (.accchk (fieldAt w 28 4) (fieldAt w 17 3))
  | 0x0C => some (.accdrain (fieldAt w 28 4) (fieldAt w 17 3) (fieldAt w 13 4) (fieldAt w 11 2) (bitAt w 10) (fieldAt w 6 4) (fieldAt w 3 3) (fieldAt w 0 3))
  | 0x0D => some (.fold (fieldAt w 28 4) (fieldAt w 17 3) (fieldAt w 11 2) (bitAt w 10))
  | 0x10 => some (.tadd (fieldAt w 28 4) (fieldAt w 16 4) (fieldAt w 12 4) (fieldAt w 8 4) (fieldAt w 4 4) (fieldAt w 2 2) (bitAt w 1))
  | 0x11 => some (.tsub (fieldAt w 28 4) (fieldAt w 16 4) (fieldAt w 12 4) (fieldAt w 8 4) (fieldAt w 4 4) (fieldAt w 2 2) (bitAt w 1))
  | 0x12 => some (.tmul (fieldAt w 28 4) (fieldAt w 16 4) (fieldAt w 12 4) (fieldAt w 8 4) (fieldAt w 4 4) (fieldAt w 2 2) (bitAt w 1))
  | 0x13 => some (.tmax (fieldAt w 28 4) (fieldAt w 16 4) (fieldAt w 12 4) (fieldAt w 8 4) (fieldAt w 4 4) (fieldAt w 2 2) (bitAt w 1))
  | 0x14 => some (.tred (fieldAt w 28 4) (fieldAt w 16 4) (fieldAt w 12 4) (fieldAt w 4 4) (fieldAt w 2 2) (bitAt w 1))
  | 0x15 => some (.tmv (fieldAt w 28 4) (fieldAt w 16 4) (fieldAt w 12 4) (fieldAt w 8 4) (fieldAt w 4 4) (fieldAt w 2 2) (bitAt w 1))
  | 0x16 => some (.tmm (fieldAt w 28 4) (fieldAt w 16 4) (fieldAt w 12 4) (fieldAt w 8 4) (fieldAt w 4 4) (fieldAt w 2 2) (bitAt w 1))
  | 0x18 => some (.pabm (fieldAt w 28 4) (fieldAt w 14 6) (fieldAt w 10 4) (fieldAt w 6 4))
  | 0x19 => some (.pbcast (fieldAt w 28 4) (fieldAt w 14 6) (fieldAt w 10 4) (fieldAt w 6 4))
  | 0x1A => some (.pmac (fieldAt w 28 4) (fieldAt w 14 6) (fieldAt w 10 4) (fieldAt w 6 4))
  | 0x1B => some (.pread (fieldAt w 28 4) (fieldAt w 14 6) (fieldAt w 10 4) (fieldAt w 6 4))
  | 0x1C => some (.pexit (fieldAt w 28 4) (fieldAt w 14 6))
  | _ => none

/-- The E-class instruction of a word, by its opcode in bits [27:20] (R16). -/
def decodeE (w : Nat) : Option Instr := opcodeE w (w / 0x100000 % 256)

/-- R37: the K-class instruction of an opcode, with the fields of the word where its format (R26-R31) has them. -/
def opcodeK (w op : Nat) : Option Instr :=
  match op with
  | 0x01 => some (.shpset (fieldAt w 28 4) (fieldAt w 18 2) (fieldAt w 14 4) (fieldAt w 0 14))
  | 0x02 => some (.shpcpy (fieldAt w 28 4) (fieldAt w 18 2))
  | 0x04 => some (.qld (fieldAt w 28 4) (fieldAt w 17 3) (fieldAt w 11 6) (fieldAt w 5 6))
  | 0x05 => some (.qset (fieldAt w 28 4) (fieldAt w 17 3) (fieldAt w 11 6) (fieldAt w 5 6))
  | 0x06 => some (.qzero (fieldAt w 28 4) (fieldAt w 17 3))
  | 0x08 => some (.vfset (fieldAt w 28 4) (fieldAt w 16 4) (fieldAt w 12 4) (fieldAt w 6 6))
  | 0x09 => some (.vfseti (fieldAt w 28 4) (fieldAt w 16 4) (fieldAt w 12 4) (fieldAt w 0 12))
  | 0x0C => some (.bndset (fieldAt w 28 4) (fieldAt w 16 4) (fieldAt w 10 6) (fieldAt w 4 6))
  | 0x0D => some (.bndoff (fieldAt w 28 4) (fieldAt w 16 4))
  | 0x10 => some (.vrow (bitAt w 19) (fieldAt w 13 6) (fieldAt w 7 6) (fieldAt w 1 6))
  | 0xF8 => some (.ximm (fieldAt w 20 3) (fieldAt w 0 20))
  | 0xF9 => some (.ximm (fieldAt w 20 3) (fieldAt w 0 20))
  | 0xFA => some (.ximm (fieldAt w 20 3) (fieldAt w 0 20))
  | 0xFB => some (.ximm (fieldAt w 20 3) (fieldAt w 0 20))
  | 0xFC => some (.ximm (fieldAt w 20 3) (fieldAt w 0 20))
  | 0xFD => some (.ximm (fieldAt w 20 3) (fieldAt w 0 20))
  | 0xFE => some (.ximm (fieldAt w 20 3) (fieldAt w 0 20))
  | 0xFF => some (.ximm (fieldAt w 20 3) (fieldAt w 0 20))
  | _ => none

/-- The K-class instruction of a word, by its opcode in bits [27:20] (R16). -/
def decodeK (w : Nat) : Option Instr := opcodeK w (w / 0x100000 % 256)

/-- The class of a slot instruction; none for a step of the package. -/
def slotOf (i : Instr) : Option SlotClass :=
  match i with
  | .bundleIssue _ => none
  | .pendingWriteLanding _ => none
  | .bundleSkip _ => none
  | .loopExit _ => none
  | .delayExpire _ => none
  | .starvationGuard _ => none
  | .variableResultArrival _ => none
  | .tileWriteComplete _ => none
  | .viewAccessPerform _ => none
  | .engineFault _ => none
  | .containedUnwind _ => none
  | .copyStart _ _ => none
  | .copyComplete _ => none
  | .retireComplete _ => none
  | .leaseGrant _ _ => none
  | .leaseBoundExpiry _ => none
  | .arrayCommandRun _ _ => none
  | .placedWriteback _ => none
  | .bankCommandRun _ => none
  | .atomicBankOperation _ _ => none
  | .translationWalkComplete _ _ _ => none
  | .sendFull _ => none
  | .waymaskChangeComplete _ _ => none
  | .remoteWaysChangeComplete _ _ => none
  | .xlinvComplete _ => none
  | .teamPlace _ => none
  | .cohortPlace _ => none
  | .launchViewRegister _ _ => none
  | .timedStart _ => none
  | .preemptDecision _ => none
  | .preemptReevaluate _ => none
  | .checkpointWrite _ _ => none
  | .teamRestore _ _ => none
  | .taskComplete _ => none
  | .pkgBarrierMessage _ => none
  | .lineInvalidate _ => none
  | .hqNop _ => none
  | .hqLaunch _ => none
  | .hqTimedLaunch _ => none
  | .hqFence _ => none
  | .hqInvalid _ => none
  | .hqEntryComplete _ _ => none
  | .coolLowflow _ => none
  | .coolOvertemp _ => none
  | .coolDry _ => none
  | .evacDrainTimeout _ => none
  | .evacValveClosed _ => none
  | .evacPurgeDone _ => none
  | .evacVerifyDone _ => none
  | .zoneReady _ => none
  | .lost _ => none
  | .resync _ => none
  | .stationUp _ => none
  | .stationDown _ => none
  | .remoteRequestSend _ => none
  | .remoteResponse _ => none
  | .remoteFence _ => none
  | .incomingRemoteRequest _ => none
  | .atsTranslationRequest _ _ => none
  | .atsTranslationResponse _ _ _ => none
  | .atsInvalidation _ _ _ => none
  | .gtTimeMessage _ _ => none
  | .podBarrierArrival _ _ => none
  | .podBarrierCompletion _ => none
  | .podBarrierTimeout _ => none
  | .add l _ _ _ _ => some (.s l)
  | .sub l _ _ _ _ => some (.s l)
  | .and l _ _ _ _ => some (.s l)
  | .or l _ _ _ _ => some (.s l)
  | .xor l _ _ _ _ => some (.s l)
  | .shl l _ _ _ _ => some (.s l)
  | .shr l _ _ _ _ => some (.s l)
  | .sra l _ _ _ _ => some (.s l)
  | .min l _ _ _ _ => some (.s l)
  | .max l _ _ _ _ => some (.s l)
  | .minu l _ _ _ _ => some (.s l)
  | .maxu l _ _ _ _ => some (.s l)
  | .mov l _ _ _ => some (.s l)
  | .addsh l _ _ _ _ _ => some (.s l)
  | .clz l _ _ _ => some (.s l)
  | .mul l _ _ _ _ => some (.s l)
  | .mulh l _ _ _ _ => some (.s l)
  | .mulhu l _ _ _ _ => some (.s l)
  | .divu l _ _ _ _ => some (.s l)
  | .remu l _ _ _ _ => some (.s l)
  | .movi l _ _ _ => some (.s l)
  | .addi l _ _ _ => some (.s l)
  | .andi l _ _ _ => some (.s l)
  | .ori l _ _ _ => some (.s l)
  | .xori l _ _ _ => some (.s l)
  | .shli l _ _ _ => some (.s l)
  | .shri l _ _ _ => some (.s l)
  | .srai l _ _ _ => some (.s l)
  | .movh l _ _ _ => some (.s l)
  | .lidx l _ _ _ => some (.s l)
  | .ctlrd l _ _ _ => some (.s l)
  | .ctlwr l _ _ _ => some (.s l)
  | .gtlo l _ _ => some (.s l)
  | .gthi l _ _ => some (.s l)
  | .cmp l _ _ _ _ _ => some (.s l)
  | .cmpi l _ _ _ _ _ => some (.s l)
  | .sld l _ _ _ _ => some (.s l)
  | .sst l _ _ _ _ => some (.s l)
  | .qmap l _ _ _ => some (.s l)
  | .qunmap l _ _ => some (.s l)
  | .br _ _ => some .c
  | .call _ _ => some .c
  | .contain _ _ => some .c
  | .jr _ _ => some .c
  | .callr _ _ => some .c
  | .loop _ _ _ => some .c
  | .loopi _ _ _ => some .c
  | .lbrk _ => some .c
  | .lstg _ _ _ => some .c
  | .pand _ _ _ _ _ _ => some .c
  | .por _ _ _ _ _ _ => some .c
  | .pxor _ _ _ _ _ _ => some .c
  | .bktj _ _ _ => some .c
  | .waitgt _ _ _ => some .c
  | .setest _ _ _ => some .c
  | .setts _ _ _ => some .c
  | .setrm _ _ => some .c
  | .launch _ _ _ => some .c
  | .bar _ _ _ _ _ => some .c
  | .bararv _ _ _ _ => some .c
  | .barwt _ _ _ _ => some .c
  | .fence _ _ _ => some .c
  | .trap _ _ => some .c
  | .eret _ => some .c
  | .exit _ => some .c
  | .containend _ => some .c
  | .vadd l _ _ _ _ _ _ => some (.v l)
  | .vsub l _ _ _ _ _ _ => some (.v l)
  | .vmul l _ _ _ _ _ _ => some (.v l)
  | .vfma l _ _ _ _ _ _ => some (.v l)
  | .vmin l _ _ _ _ _ _ => some (.v l)
  | .vmax l _ _ _ _ _ _ => some (.v l)
  | .vabs l _ _ _ _ _ => some (.v l)
  | .vneg l _ _ _ _ _ => some (.v l)
  | .vmov l _ _ _ _ _ => some (.v l)
  | .vand l _ _ _ _ _ _ => some (.v l)
  | .vor l _ _ _ _ _ _ => some (.v l)
  | .vxor l _ _ _ _ _ _ => some (.v l)
  | .vshl l _ _ _ _ _ _ => some (.v l)
  | .vshr l _ _ _ _ _ _ => some (.v l)
  | .vsra l _ _ _ _ _ _ => some (.v l)
  | .vcmpeq l _ _ _ _ _ _ => some (.v l)
  | .vcmplt l _ _ _ _ _ _ => some (.v l)
  | .vcmple l _ _ _ _ _ _ => some (.v l)
  | .vsel l _ _ _ _ _ _ => some (.v l)
  | .vcvt l _ _ _ _ _ _ => some (.v l)
  | .vscl l _ _ _ _ _ _ => some (.v l)
  | .vclmp l _ _ _ _ _ _ => some (.v l)
  | .vexp2 l _ _ _ _ _ => some (.v l)
  | .vrcp l _ _ _ _ _ => some (.v l)
  | .vrsq l _ _ _ _ _ => some (.v l)
  | .vrsum l _ _ _ _ _ => some (.v l)
  | .vrmax l _ _ _ _ _ => some (.v l)
  | .vrmin l _ _ _ _ _ => some (.v l)
  | .vbcs l _ _ _ _ _ => some (.v l)
  | .vext l _ _ _ _ _ _ => some (.v l)
  | .vins l _ _ _ _ _ _ => some (.v l)
  | .vperm l _ _ _ _ _ _ => some (.v l)
  | .vlsh l _ _ _ _ _ _ => some (.v l)
  | .vpack l _ _ _ _ _ _ => some (.v l)
  | .vunpk l _ _ _ _ _ _ => some (.v l)
  | .vadds l _ _ _ _ _ _ => some (.v l)
  | .vmuls l _ _ _ _ _ _ => some (.v l)
  | .vfmas l _ _ _ _ _ _ => some (.v l)
  | .tld _ _ _ _ _ _ => some .m
  | .tst _ _ _ _ _ _ => some .m
  | .tgath _ _ _ _ _ _ => some .m
  | .tscat _ _ _ _ _ _ => some .m
  | .pref _ _ _ => some .m
  | .tspld _ _ _ => some .m
  | .tspst _ _ _ => some .m
  | .ared _ _ _ _ _ _ => some .m
  | .tzero _ _ => some .m
  | .tmovt _ _ _ => some .m
  | .tcopy _ _ _ _ _ _ => some .m
  | .vopen _ _ _ _ _ => some .m
  | .vretire _ _ => some .m
  | .hfree _ _ => some .m
  | .waitm _ _ _ _ _ _ => some .m
  | .aadd _ _ _ _ _ _ => some .m
  | .amin _ _ _ _ _ _ => some .m
  | .amax _ _ _ _ _ _ => some .m
  | .aminu _ _ _ _ _ _ => some .m
  | .amaxu _ _ _ _ _ _ => some .m
  | .aand _ _ _ _ _ _ => some .m
  | .aor _ _ _ _ _ _ => some .m
  | .axor _ _ _ _ _ _ => some .m
  | .axchg _ _ _ _ _ _ => some .m
  | .acas _ _ _ _ _ _ => some .m
  | .aincb _ _ _ _ _ _ => some .m
  | .afadd _ _ _ _ _ _ => some .m
  | .afaddh _ _ _ _ _ _ => some .m
  | .ald _ _ _ _ _ _ => some .m
  | .ast _ _ _ _ _ _ => some .m
  | .send _ _ _ _ _ => some .m
  | .mm _ _ _ _ _ _ _ _ => some .e
  | .mmcmp _ _ _ _ _ _ => some .e
  | .mstatTile _ _ _ _ _ => some .e
  | .mstatHandle _ _ _ _ _ => some .e
  | .mswap _ => some .e
  | .lease _ => some .e
  | .lrel _ => some .e
  | .acczeroFp _ _ _ => some .e
  | .acczeroInt _ _ => some .e
  | .accld _ _ _ _ _ _ _ => some .e
  | .accnorm _ _ _ _ _ => some .e
  | .accchk _ _ => some .e
  | .accdrain _ _ _ _ _ _ _ _ => some .e
  | .fold _ _ _ _ => some .e
  | .tadd _ _ _ _ _ _ _ => some .e
  | .tsub _ _ _ _ _ _ _ => some .e
  | .tmul _ _ _ _ _ _ _ => some .e
  | .tmax _ _ _ _ _ _ _ => some .e
  | .tred _ _ _ _ _ _ => some .e
  | .tmv _ _ _ _ _ _ _ => some .e
  | .tmm _ _ _ _ _ _ _ => some .e
  | .pabm _ _ _ _ => some .e
  | .pbcast _ _ _ _ => some .e
  | .pmac _ _ _ _ => some .e
  | .pread _ _ _ _ => some .e
  | .pexit _ _ => some .e
  | .shpset _ _ _ _ => some .k
  | .shpcpy _ _ => some .k
  | .qld _ _ _ _ => some .k
  | .qset _ _ _ _ => some .k
  | .qzero _ _ => some .k
  | .vfset _ _ _ _ => some .k
  | .vfseti _ _ _ _ => some .k
  | .bndset _ _ _ _ => some .k
  | .bndoff _ _ => some .k
  | .vrow _ _ _ _ => some .k
  | .ximm _ _ => some .k
  | .messageDelivery _ => none
  | .owedResponseTimeout _ => none
  | .atsInvalidationAnswer _ => none
  | .sqctlFreeze => none
  | .sqctlUnfreeze => none
  | .sqctlStep => none
  | .sqctlResume => none
  | .sqctlResumeSkip => none
  | .sliceWaymaskWrite => none
  | .remoteWaysWrite => none
  | .xlinvGo => none
  | .ringdWrite => none
  | .taskcmdRelease => none
  | .taskcmdKill => none
  | .hqctlWrite => none
  | .notify => none
  | .queueSlotAdmit => none
  | .sensorSample => none
  | .zctlEvac => none
  | .zctlReturn => none
  | .zctlWrite => none
  | .trctlWrite => none
  | .capstart => none
  | .capstop => none
  | .rpctlWrite => none
  | .podidWrite => none
  | .destWrite => none
  | .destFencedClear => none
  | .gtTimeMessageSend => none
  | .powerUp => none
  | .packageReset => none
  | .powerOff => none
  | .bootstatGo => none
  | .bootstatSvnset => none
  | .attctlGo => none
  | .attestationComplete => none
  | .registerWrite => none

/-- The word of a slot instruction, from its encoding (R26-R37); 0 for a step of the package, which has no word. -/
def encodeWord (i : Instr) : Nat :=
  match i with
  | .bundleIssue _ => 0
  | .pendingWriteLanding _ => 0
  | .bundleSkip _ => 0
  | .loopExit _ => 0
  | .delayExpire _ => 0
  | .starvationGuard _ => 0
  | .variableResultArrival _ => 0
  | .tileWriteComplete _ => 0
  | .viewAccessPerform _ => 0
  | .engineFault _ => 0
  | .containedUnwind _ => 0
  | .copyStart _ _ => 0
  | .copyComplete _ => 0
  | .retireComplete _ => 0
  | .leaseGrant _ _ => 0
  | .leaseBoundExpiry _ => 0
  | .arrayCommandRun _ _ => 0
  | .placedWriteback _ => 0
  | .bankCommandRun _ => 0
  | .atomicBankOperation _ _ => 0
  | .translationWalkComplete _ _ _ => 0
  | .sendFull _ => 0
  | .waymaskChangeComplete _ _ => 0
  | .remoteWaysChangeComplete _ _ => 0
  | .xlinvComplete _ => 0
  | .teamPlace _ => 0
  | .cohortPlace _ => 0
  | .launchViewRegister _ _ => 0
  | .timedStart _ => 0
  | .preemptDecision _ => 0
  | .preemptReevaluate _ => 0
  | .checkpointWrite _ _ => 0
  | .teamRestore _ _ => 0
  | .taskComplete _ => 0
  | .pkgBarrierMessage _ => 0
  | .lineInvalidate _ => 0
  | .hqNop _ => 0
  | .hqLaunch _ => 0
  | .hqTimedLaunch _ => 0
  | .hqFence _ => 0
  | .hqInvalid _ => 0
  | .hqEntryComplete _ _ => 0
  | .coolLowflow _ => 0
  | .coolOvertemp _ => 0
  | .coolDry _ => 0
  | .evacDrainTimeout _ => 0
  | .evacValveClosed _ => 0
  | .evacPurgeDone _ => 0
  | .evacVerifyDone _ => 0
  | .zoneReady _ => 0
  | .lost _ => 0
  | .resync _ => 0
  | .stationUp _ => 0
  | .stationDown _ => 0
  | .remoteRequestSend _ => 0
  | .remoteResponse _ => 0
  | .remoteFence _ => 0
  | .incomingRemoteRequest _ => 0
  | .atsTranslationRequest _ _ => 0
  | .atsTranslationResponse _ _ _ => 0
  | .atsInvalidation _ _ _ => 0
  | .gtTimeMessage _ _ => 0
  | .podBarrierArrival _ _ => 0
  | .podBarrierCompletion _ => 0
  | .podBarrierTimeout _ => 0
  | .add _ g d a b => 0x00100000 + g.toNat * 0x10000000 + d.toNat * 0x4000 + a.toNat * 0x100 + b.toNat * 0x4
  | .sub _ g d a b => 0x00200000 + g.toNat * 0x10000000 + d.toNat * 0x4000 + a.toNat * 0x100 + b.toNat * 0x4
  | .and _ g d a b => 0x00300000 + g.toNat * 0x10000000 + d.toNat * 0x4000 + a.toNat * 0x100 + b.toNat * 0x4
  | .or _ g d a b => 0x00400000 + g.toNat * 0x10000000 + d.toNat * 0x4000 + a.toNat * 0x100 + b.toNat * 0x4
  | .xor _ g d a b => 0x00500000 + g.toNat * 0x10000000 + d.toNat * 0x4000 + a.toNat * 0x100 + b.toNat * 0x4
  | .shl _ g d a b => 0x00600000 + g.toNat * 0x10000000 + d.toNat * 0x4000 + a.toNat * 0x100 + b.toNat * 0x4
  | .shr _ g d a b => 0x00700000 + g.toNat * 0x10000000 + d.toNat * 0x4000 + a.toNat * 0x100 + b.toNat * 0x4
  | .sra _ g d a b => 0x00800000 + g.toNat * 0x10000000 + d.toNat * 0x4000 + a.toNat * 0x100 + b.toNat * 0x4
  | .min _ g d a b => 0x00900000 + g.toNat * 0x10000000 + d.toNat * 0x4000 + a.toNat * 0x100 + b.toNat * 0x4
  | .max _ g d a b => 0x00A00000 + g.toNat * 0x10000000 + d.toNat * 0x4000 + a.toNat * 0x100 + b.toNat * 0x4
  | .minu _ g d a b => 0x00B00000 + g.toNat * 0x10000000 + d.toNat * 0x4000 + a.toNat * 0x100 + b.toNat * 0x4
  | .maxu _ g d a b => 0x00C00000 + g.toNat * 0x10000000 + d.toNat * 0x4000 + a.toNat * 0x100 + b.toNat * 0x4
  | .mov _ g d a => 0x00D00000 + g.toNat * 0x10000000 + d.toNat * 0x4000 + a.toNat * 0x100
  | .addsh _ g d a b sh => 0x00E00000 + g.toNat * 0x10000000 + d.toNat * 0x4000 + a.toNat * 0x100 + b.toNat * 0x4 + sh.toNat
  | .clz _ g d a => 0x00F00000 + g.toNat * 0x10000000 + d.toNat * 0x4000 + a.toNat * 0x100
  | .mul _ g d a b => 0x01000000 + g.toNat * 0x10000000 + d.toNat * 0x4000 + a.toNat * 0x100 + b.toNat * 0x4
  | .mulh _ g d a b => 0x01100000 + g.toNat * 0x10000000 + d.toNat * 0x4000 + a.toNat * 0x100 + b.toNat * 0x4
  | .mulhu _ g d a b => 0x01200000 + g.toNat * 0x10000000 + d.toNat * 0x4000 + a.toNat * 0x100 + b.toNat * 0x4
  | .divu _ g d a b => 0x01300000 + g.toNat * 0x10000000 + d.toNat * 0x4000 + a.toNat * 0x100 + b.toNat * 0x4
  | .remu _ g d a b => 0x01400000 + g.toNat * 0x10000000 + d.toNat * 0x4000 + a.toNat * 0x100 + b.toNat * 0x4
  | .movi _ g d imm => 0x02000000 + g.toNat * 0x10000000 + d.toNat * 0x4000 + imm.toNat
  | .addi _ g d imm => 0x02100000 + g.toNat * 0x10000000 + d.toNat * 0x4000 + imm.toNat
  | .andi _ g d imm => 0x02200000 + g.toNat * 0x10000000 + d.toNat * 0x4000 + imm.toNat
  | .ori _ g d imm => 0x02300000 + g.toNat * 0x10000000 + d.toNat * 0x4000 + imm.toNat
  | .xori _ g d imm => 0x02400000 + g.toNat * 0x10000000 + d.toNat * 0x4000 + imm.toNat
  | .shli _ g d imm => 0x02500000 + g.toNat * 0x10000000 + d.toNat * 0x4000 + imm.toNat
  | .shri _ g d imm => 0x02600000 + g.toNat * 0x10000000 + d.toNat * 0x4000 + imm.toNat
  | .srai _ g d imm => 0x02700000 + g.toNat * 0x10000000 + d.toNat * 0x4000 + imm.toNat
  | .movh _ g d imm => 0x02800000 + g.toNat * 0x10000000 + d.toNat * 0x4000 + imm.toNat
  | .lidx _ g d lvl => 0x02900000 + g.toNat * 0x10000000 + d.toNat * 0x4000 + lvl.toNat
  | .ctlrd _ g d ctl => 0x02A00000 + g.toNat * 0x10000000 + d.toNat * 0x4000 + ctl.toNat
  | .ctlwr _ g src ctl => 0x02B00000 + g.toNat * 0x10000000 + src.toNat * 0x4000 + ctl.toNat
  | .gtlo _ g d => 0x02C00000 + g.toNat * 0x10000000 + d.toNat * 0x4000
  | .gthi _ g d => 0x02D00000 + g.toNat * 0x10000000 + d.toNat * 0x4000
  | .cmp _ g pd cc a b => 0x03000000 + g.toNat * 0x10000000 + pd.toNat * 0x20000 + cc.toNat * 0x4000 + a.toNat * 0x100 + b.toNat * 0x4
  | .cmpi _ g pd cc a imm => 0x03100000 + g.toNat * 0x10000000 + pd.toNat * 0x20000 + cc.toNat * 0x4000 + a.toNat * 0x100 + imm.toNat
  | .sld _ g d a off => 0x03800000 + g.toNat * 0x10000000 + d.toNat * 0x4000 + a.toNat * 0x100 + off.toNat
  | .sst _ g src a off => 0x03900000 + g.toNat * 0x10000000 + src.toNat * 0x4000 + a.toNat * 0x100 + off.toNat
  | .qmap _ g reg a => 0x03C78000 + g.toNat * 0x10000000 + reg.toNat * 0x4000 + a.toNat * 0x100
  | .qunmap _ g reg => 0x03D78000 + g.toNat * 0x10000000 + reg.toNat * 0x4000
  | .br g disp => 0x00100000 + g.toNat * 0x10000000 + disp.toNat
  | .call g disp => 0x00200000 + g.toNat * 0x10000000 + disp.toNat
  | .contain g disp => 0x00300000 + g.toNat * 0x10000000 + disp.toNat
  | .jr g a => 0x00400000 + g.toNat * 0x10000000 + a.toNat * 0x4000
  | .callr g a => 0x00500000 + g.toNat * 0x10000000 + a.toNat * 0x4000
  | .loop g a len => 0x00800000 + g.toNat * 0x10000000 + a.toNat * 0x4000 + len.toNat
  | .loopi g cnt len => 0x00900000 + g.toNat * 0x10000000 + cnt.toNat * 0x100 + len.toNat
  | .lbrk g => 0x00A00000 + g.toNat * 0x10000000
  | .lstg g lv pm => 0x00B00000 + g.toNat * 0x10000000 + lv.toNat * 0x20000 + pm.toNat * 0x2000
  | .pand g pd pa pb na nb => 0x01000000 + g.toNat * 0x10000000 + pd.toNat * 0x20000 + pa.toNat * 0x4000 + pb.toNat * 0x800 + na.toNat * 0x400 + nb.toNat * 0x200
  | .por g pd pa pb na nb => 0x01100000 + g.toNat * 0x10000000 + pd.toNat * 0x20000 + pa.toNat * 0x4000 + pb.toNat * 0x800 + na.toNat * 0x400 + nb.toNat * 0x200
  | .pxor g pd pa pb na nb => 0x01200000 + g.toNat * 0x10000000 + pd.toNat * 0x20000 + pa.toNat * 0x4000 + pb.toNat * 0x800 + na.toNat * 0x400 + nb.toNat * 0x200
  | .bktj g a tbl => 0x01800000 + g.toNat * 0x10000000 + a.toNat * 0x4000 + tbl.toNat
  | .waitgt g a b => 0x01900000 + g.toNat * 0x10000000 + a.toNat * 0x4000 + b.toNat * 0x100
  | .setest g a b => 0x01A00000 + g.toNat * 0x10000000 + a.toNat * 0x4000 + b.toNat * 0x100
  | .setts g a b => 0x01B00000 + g.toNat * 0x10000000 + a.toNat * 0x4000 + b.toNat * 0x100
  | .setrm g rm => 0x01C00000 + g.toNat * 0x10000000 + rm.toNat
  | .launch g a timed => 0x01D00000 + g.toNat * 0x10000000 + a.toNat * 0x4000 + timed.toNat
  | .bar g sc id rl aq => 0x02000000 + g.toNat * 0x10000000 + sc.toNat * 0x20000 + id.toNat * 0x4000 + rl.toNat * 0x2000 + aq.toNat * 0x1000
  | .bararv g sc id rl => 0x02100000 + g.toNat * 0x10000000 + sc.toNat * 0x20000 + id.toNat * 0x4000 + rl.toNat * 0x2000
  | .barwt g sc id aq => 0x02200000 + g.toNat * 0x10000000 + sc.toNat * 0x20000 + id.toNat * 0x4000 + aq.toNat * 0x1000
  | .fence g sc mask => 0x02400000 + g.toNat * 0x10000000 + sc.toNat * 0x20000 + mask.toNat
  | .trap g code => 0x02800000 + g.toNat * 0x10000000 + code.toNat
  | .eret g => 0x02900000 + g.toNat * 0x10000000
  | .exit g => 0x02A00000 + g.toNat * 0x10000000
  | .containend g => 0x02B00000 + g.toNat * 0x10000000
  | .vadd _ g fmt td ta tb rs => 0x00100000 + g.toNat * 0x10000000 + fmt.toNat * 0x10000 + td.toNat * 0x1000 + ta.toNat * 0x100 + tb.toNat * 0x10 + rs.toNat
  | .vsub _ g fmt td ta tb rs => 0x00200000 + g.toNat * 0x10000000 + fmt.toNat * 0x10000 + td.toNat * 0x1000 + ta.toNat * 0x100 + tb.toNat * 0x10 + rs.toNat
  | .vmul _ g fmt td ta tb rs => 0x00300000 + g.toNat * 0x10000000 + fmt.toNat * 0x10000 + td.toNat * 0x1000 + ta.toNat * 0x100 + tb.toNat * 0x10 + rs.toNat
  | .vfma _ g fmt td ta tb rs => 0x00400000 + g.toNat * 0x10000000 + fmt.toNat * 0x10000 + td.toNat * 0x1000 + ta.toNat * 0x100 + tb.toNat * 0x10 + rs.toNat
  | .vmin _ g fmt td ta tb rs => 0x00500000 + g.toNat * 0x10000000 + fmt.toNat * 0x10000 + td.toNat * 0x1000 + ta.toNat * 0x100 + tb.toNat * 0x10 + rs.toNat
  | .vmax _ g fmt td ta tb rs => 0x00600000 + g.toNat * 0x10000000 + fmt.toNat * 0x10000 + td.toNat * 0x1000 + ta.toNat * 0x100 + tb.toNat * 0x10 + rs.toNat
  | .vabs _ g fmt td ta rs => 0x00700000 + g.toNat * 0x10000000 + fmt.toNat * 0x10000 + td.toNat * 0x1000 + ta.toNat * 0x100 + rs.toNat
  | .vneg _ g fmt td ta rs => 0x00800000 + g.toNat * 0x10000000 + fmt.toNat * 0x10000 + td.toNat * 0x1000 + ta.toNat * 0x100 + rs.toNat
  | .vmov _ g fmt td ta rs => 0x00900000 + g.toNat * 0x10000000 + fmt.toNat * 0x10000 + td.toNat * 0x1000 + ta.toNat * 0x100 + rs.toNat
  | .vand _ g fmt td ta tb rs => 0x00C00000 + g.toNat * 0x10000000 + fmt.toNat * 0x10000 + td.toNat * 0x1000 + ta.toNat * 0x100 + tb.toNat * 0x10 + rs.toNat
  | .vor _ g fmt td ta tb rs => 0x00D00000 + g.toNat * 0x10000000 + fmt.toNat * 0x10000 + td.toNat * 0x1000 + ta.toNat * 0x100 + tb.toNat * 0x10 + rs.toNat
  | .vxor _ g fmt td ta tb rs => 0x00E00000 + g.toNat * 0x10000000 + fmt.toNat * 0x10000 + td.toNat * 0x1000 + ta.toNat * 0x100 + tb.toNat * 0x10 + rs.toNat
  | .vshl _ g fmt td ta tb rs => 0x00F00000 + g.toNat * 0x10000000 + fmt.toNat * 0x10000 + td.toNat * 0x1000 + ta.toNat * 0x100 + tb.toNat * 0x10 + rs.toNat
  | .vshr _ g fmt td ta tb rs => 0x01000000 + g.toNat * 0x10000000 + fmt.toNat * 0x10000 + td.toNat * 0x1000 + ta.toNat * 0x100 + tb.toNat * 0x10 + rs.toNat
  | .vsra _ g fmt td ta tb rs => 0x01100000 + g.toNat * 0x10000000 + fmt.toNat * 0x10000 + td.toNat * 0x1000 + ta.toNat * 0x100 + tb.toNat * 0x10 + rs.toNat
  | .vcmpeq _ g fmt td ta tb rs => 0x01400000 + g.toNat * 0x10000000 + fmt.toNat * 0x10000 + td.toNat * 0x1000 + ta.toNat * 0x100 + tb.toNat * 0x10 + rs.toNat
  | .vcmplt _ g fmt td ta tb rs => 0x01500000 + g.toNat * 0x10000000 + fmt.toNat * 0x10000 + td.toNat * 0x1000 + ta.toNat * 0x100 + tb.toNat * 0x10 + rs.toNat
  | .vcmple _ g fmt td ta tb rs => 0x01600000 + g.toNat * 0x10000000 + fmt.toNat * 0x10000 + td.toNat * 0x1000 + ta.toNat * 0x100 + tb.toNat * 0x10 + rs.toNat
  | .vsel _ g fmt td ta tb rs => 0x01700000 + g.toNat * 0x10000000 + fmt.toNat * 0x10000 + td.toNat * 0x1000 + ta.toNat * 0x100 + tb.toNat * 0x10 + rs.toNat
  | .vcvt _ g fmt td ta fsrc rs => 0x01800000 + g.toNat * 0x10000000 + fmt.toNat * 0x10000 + td.toNat * 0x1000 + ta.toNat * 0x100 + fsrc.toNat * 0x10 + rs.toNat
  | .vscl _ g fmt td ta q rs => 0x01900000 + g.toNat * 0x10000000 + fmt.toNat * 0x10000 + td.toNat * 0x1000 + ta.toNat * 0x100 + q.toNat * 0x10 + rs.toNat
  | .vclmp _ g fmt td ta v rs => 0x01A00000 + g.toNat * 0x10000000 + fmt.toNat * 0x10000 + td.toNat * 0x1000 + ta.toNat * 0x100 + v.toNat * 0x10 + rs.toNat
  | .vexp2 _ g fmt td ta rs => 0x01C00000 + g.toNat * 0x10000000 + fmt.toNat * 0x10000 + td.toNat * 0x1000 + ta.toNat * 0x100 + rs.toNat
  | .vrcp _ g fmt td ta rs => 0x01D00000 + g.toNat * 0x10000000 + fmt.toNat * 0x10000 + td.toNat * 0x1000 + ta.toNat * 0x100 + rs.toNat
  | .vrsq _ g fmt td ta rs => 0x01E00000 + g.toNat * 0x10000000 + fmt.toNat * 0x10000 + td.toNat * 0x1000 + ta.toNat * 0x100 + rs.toNat
  | .vrsum _ g fmt td ta rs => 0x02000000 + g.toNat * 0x10000000 + fmt.toNat * 0x10000 + td.toNat * 0x1000 + ta.toNat * 0x100 + rs.toNat
  | .vrmax _ g fmt td ta rs => 0x02100000 + g.toNat * 0x10000000 + fmt.toNat * 0x10000 + td.toNat * 0x1000 + ta.toNat * 0x100 + rs.toNat
  | .vrmin _ g fmt td ta rs => 0x02200000 + g.toNat * 0x10000000 + fmt.toNat * 0x10000 + td.toNat * 0x1000 + ta.toNat * 0x100 + rs.toNat
  | .vbcs _ g fmt td sn rs => 0x02400000 + g.toNat * 0x10000000 + fmt.toNat * 0x10000 + td.toNat * 0x1000 + sn.toNat * 0x10 + rs.toNat
  | .vext _ g fmt sd ta sn rs => 0x02500000 + g.toNat * 0x10000000 + fmt.toNat * 0x10000 + sd.toNat * 0x1000 + ta.toNat * 0x100 + sn.toNat * 0x10 + rs.toNat
  | .vins _ g fmt td sv sn rs => 0x02600000 + g.toNat * 0x10000000 + fmt.toNat * 0x10000 + td.toNat * 0x1000 + sv.toNat * 0x100 + sn.toNat * 0x10 + rs.toNat
  | .vperm _ g fmt td ta tb rs => 0x02800000 + g.toNat * 0x10000000 + fmt.toNat * 0x10000 + td.toNat * 0x1000 + ta.toNat * 0x100 + tb.toNat * 0x10 + rs.toNat
  | .vlsh _ g fmt td ta sn rs => 0x02900000 + g.toNat * 0x10000000 + fmt.toNat * 0x10000 + td.toNat * 0x1000 + ta.toNat * 0x100 + sn.toNat * 0x10 + rs.toNat
  | .vpack _ g fmt td ta tb rs => 0x02A00000 + g.toNat * 0x10000000 + fmt.toNat * 0x10000 + td.toNat * 0x1000 + ta.toNat * 0x100 + tb.toNat * 0x10 + rs.toNat
  | .vunpk _ g fmt td ta half rs => 0x02B00000 + g.toNat * 0x10000000 + fmt.toNat * 0x10000 + td.toNat * 0x1000 + ta.toNat * 0x100 + half.toNat * 0x10 + rs.toNat
  | .vadds _ g fmt td ta sn rs => 0x03000000 + g.toNat * 0x10000000 + fmt.toNat * 0x10000 + td.toNat * 0x1000 + ta.toNat * 0x100 + sn.toNat * 0x10 + rs.toNat
  | .vmuls _ g fmt td ta sn rs => 0x03100000 + g.toNat * 0x10000000 + fmt.toNat * 0x10000 + td.toNat * 0x1000 + ta.toNat * 0x100 + sn.toNat * 0x10 + rs.toNat
  | .vfmas _ g fmt td ta sn rs => 0x03200000 + g.toNat * 0x10000000 + fmt.toNat * 0x10000 + td.toNat * 0x1000 + ta.toNat * 0x100 + sn.toNat * 0x10 + rs.toNat
  | .tld g t v a cx cls => 0x00100000 + g.toNat * 0x10000000 + t.toNat * 0x10000 + v.toNat * 0x1000 + a.toNat * 0x40 + cx.toNat * 0x20 + cls.toNat * 0x2
  | .tst g t v a cx cls => 0x00200000 + g.toNat * 0x10000000 + t.toNat * 0x10000 + v.toNat * 0x1000 + a.toNat * 0x40 + cx.toNat * 0x20 + cls.toNat * 0x2
  | .tgath g t v a cx cls => 0x00300000 + g.toNat * 0x10000000 + t.toNat * 0x10000 + v.toNat * 0x1000 + a.toNat * 0x40 + cx.toNat * 0x20 + cls.toNat * 0x2
  | .tscat g t v a cx cls => 0x00400000 + g.toNat * 0x10000000 + t.toNat * 0x10000 + v.toNat * 0x1000 + a.toNat * 0x40 + cx.toNat * 0x20 + cls.toNat * 0x2
  | .pref g v a => 0x00500000 + g.toNat * 0x10000000 + v.toNat * 0x1000 + a.toNat * 0x40
  | .tspld g t a => 0x00600000 + g.toNat * 0x10000000 + t.toNat * 0x10000 + a.toNat * 0x40
  | .tspst g t a => 0x00700000 + g.toNat * 0x10000000 + t.toNat * 0x10000 + a.toNat * 0x40
  | .ared g t v a cx cls => 0x00800000 + g.toNat * 0x10000000 + t.toNat * 0x10000 + v.toNat * 0x1000 + a.toNat * 0x40 + cx.toNat * 0x20 + cls.toNat * 0x2
  | .tzero g t => 0x00900000 + g.toNat * 0x10000000 + t.toNat * 0x10000
  | .tmovt g t ts => 0x00A00000 + g.toNat * 0x10000000 + t.toNat * 0x10000 + ts.toNat * 0x1000
  | .tcopy g vd vs a cq ev => 0x00C00000 + g.toNat * 0x10000000 + vd.toNat * 0x10000 + vs.toNat * 0x1000 + a.toNat * 0x40 + cq.toNat * 0x10 + ev.toNat * 0x8
  | .vopen g v mode sc cls => 0x01000000 + g.toNat * 0x10000000 + v.toNat * 0x10000 + mode.toNat * 0x100 + sc.toNat * 0x20 + cls.toNat * 0x2
  | .vretire g v => 0x01100000 + g.toNat * 0x10000000 + v.toNat * 0x10000
  | .hfree g a => 0x01200000 + g.toNat * 0x10000000 + a.toNat * 0x400
  | .waitm g d v a ord sc => 0x01300000 + g.toNat * 0x10000000 + d.toNat * 0x4000 + v.toNat * 0x400 + a.toNat * 0x10 + ord.toNat * 0x4 + sc.toNat
  | .aadd g d v a ord sc => 0x01800000 + g.toNat * 0x10000000 + d.toNat * 0x4000 + v.toNat * 0x400 + a.toNat * 0x10 + ord.toNat * 0x4 + sc.toNat
  | .amin g d v a ord sc => 0x01900000 + g.toNat * 0x10000000 + d.toNat * 0x4000 + v.toNat * 0x400 + a.toNat * 0x10 + ord.toNat * 0x4 + sc.toNat
  | .amax g d v a ord sc => 0x01A00000 + g.toNat * 0x10000000 + d.toNat * 0x4000 + v.toNat * 0x400 + a.toNat * 0x10 + ord.toNat * 0x4 + sc.toNat
  | .aminu g d v a ord sc => 0x01B00000 + g.toNat * 0x10000000 + d.toNat * 0x4000 + v.toNat * 0x400 + a.toNat * 0x10 + ord.toNat * 0x4 + sc.toNat
  | .amaxu g d v a ord sc => 0x01C00000 + g.toNat * 0x10000000 + d.toNat * 0x4000 + v.toNat * 0x400 + a.toNat * 0x10 + ord.toNat * 0x4 + sc.toNat
  | .aand g d v a ord sc => 0x01D00000 + g.toNat * 0x10000000 + d.toNat * 0x4000 + v.toNat * 0x400 + a.toNat * 0x10 + ord.toNat * 0x4 + sc.toNat
  | .aor g d v a ord sc => 0x01E00000 + g.toNat * 0x10000000 + d.toNat * 0x4000 + v.toNat * 0x400 + a.toNat * 0x10 + ord.toNat * 0x4 + sc.toNat
  | .axor g d v a ord sc => 0x01F00000 + g.toNat * 0x10000000 + d.toNat * 0x4000 + v.toNat * 0x400 + a.toNat * 0x10 + ord.toNat * 0x4 + sc.toNat
  | .axchg g d v a ord sc => 0x02000000 + g.toNat * 0x10000000 + d.toNat * 0x4000 + v.toNat * 0x400 + a.toNat * 0x10 + ord.toNat * 0x4 + sc.toNat
  | .acas g d v a ord sc => 0x02100000 + g.toNat * 0x10000000 + d.toNat * 0x8000 + v.toNat * 0x400 + a.toNat * 0x10 + ord.toNat * 0x4 + sc.toNat
  | .aincb g d v a ord sc => 0x02200000 + g.toNat * 0x10000000 + d.toNat * 0x4000 + v.toNat * 0x400 + a.toNat * 0x10 + ord.toNat * 0x4 + sc.toNat
  | .afadd g d v a ord sc => 0x02300000 + g.toNat * 0x10000000 + d.toNat * 0x4000 + v.toNat * 0x400 + a.toNat * 0x10 + ord.toNat * 0x4 + sc.toNat
  | .afaddh g d v a ord sc => 0x02400000 + g.toNat * 0x10000000 + d.toNat * 0x4000 + v.toNat * 0x400 + a.toNat * 0x10 + ord.toNat * 0x4 + sc.toNat
  | .ald g d v a ord sc => 0x02500000 + g.toNat * 0x10000000 + d.toNat * 0x4000 + v.toNat * 0x400 + a.toNat * 0x10 + ord.toNat * 0x4 + sc.toNat
  | .ast g d v a ord sc => 0x02600000 + g.toNat * 0x10000000 + d.toNat * 0x4000 + v.toNat * 0x400 + a.toNat * 0x10 + ord.toNat * 0x4 + sc.toNat
  | .send g a t b timed => 0x02800000 + g.toNat * 0x10000000 + a.toNat * 0x4000 + t.toNat * 0x400 + b.toNat * 0x10 + timed.toNat * 0x8
  | .mm g acc t sg sw fmt q scl => 0x00100000 + g.toNat * 0x10000000 + acc.toNat * 0x20000 + t.toNat * 0x2000 + sg.toNat * 0x800 + sw.toNat * 0x400 + fmt.toNat * 0x40 + q.toNat * 0x8 + scl.toNat
  | .mmcmp g acc t sg sw fmt => 0x00200000 + g.toNat * 0x10000000 + acc.toNat * 0x20000 + t.toNat * 0x2000 + sg.toNat * 0x800 + sw.toNat * 0x400 + fmt.toNat * 0x40
  | .mstatTile g t sg sw fmt => 0x00300000 + g.toNat * 0x10000000 + t.toNat * 0x800 + sg.toNat * 0x80 + sw.toNat * 0x40 + fmt.toNat * 0x4
  | .mstatHandle g a sg sw fmt => 0x00300200 + g.toNat * 0x10000000 + a.toNat * 0x4000 + sg.toNat * 0x80 + sw.toNat * 0x40 + fmt.toNat * 0x4
  | .mswap g => 0x00400000 + g.toNat * 0x10000000
  | .lease g => 0x00500000 + g.toNat * 0x10000000
  | .lrel g => 0x00600000 + g.toNat * 0x10000000
  | .acczeroFp g acc t => 0x00800000 + g.toNat * 0x10000000 + acc.toNat * 0x20000 + t.toNat * 0x2000
  | .acczeroInt g acc => 0x00800001 + g.toNat * 0x10000000 + acc.toNat * 0x20000
  | .accld g acc t sg sw fmt hi => 0x00900000 + g.toNat * 0x10000000 + acc.toNat * 0x20000 + t.toNat * 0x2000 + sg.toNat * 0x800 + sw.toNat * 0x400 + fmt.toNat * 0x40 + hi.toNat * 0x2
  | .accnorm g acc t sg sw => 0x00A00000 + g.toNat * 0x10000000 + acc.toNat * 0x20000 + t.toNat * 0x2000 + sg.toNat * 0x800 + sw.toNat * 0x400
  | .accchk g acc => 0x00B00000 + g.toNat * 0x10000000 + acc.toNat * 0x20000
  | .accdrain g acc t sg sw fmt q x => 0x00C00000 + g.toNat * 0x10000000 + acc.toNat * 0x20000 + t.toNat * 0x2000 + sg.toNat * 0x800 + sw.toNat * 0x400 + fmt.toNat * 0x40 + q.toNat * 0x8 + x.toNat
  | .fold g acc sg sw => 0x00D00000 + g.toNat * 0x10000000 + acc.toNat * 0x20000 + sg.toNat * 0x800 + sw.toNat * 0x400
  | .tadd g vd va vb fmt sg sw => 0x01000000 + g.toNat * 0x10000000 + vd.toNat * 0x10000 + va.toNat * 0x1000 + vb.toNat * 0x100 + fmt.toNat * 0x10 + sg.toNat * 0x4 + sw.toNat * 0x2
  | .tsub g vd va vb fmt sg sw => 0x01100000 + g.toNat * 0x10000000 + vd.toNat * 0x10000 + va.toNat * 0x1000 + vb.toNat * 0x100 + fmt.toNat * 0x10 + sg.toNat * 0x4 + sw.toNat * 0x2
  | .tmul g vd va vb fmt sg sw => 0x01200000 + g.toNat * 0x10000000 + vd.toNat * 0x10000 + va.toNat * 0x1000 + vb.toNat * 0x100 + fmt.toNat * 0x10 + sg.toNat * 0x4 + sw.toNat * 0x2
  | .tmax g vd va vb fmt sg sw => 0x01300000 + g.toNat * 0x10000000 + vd.toNat * 0x10000 + va.toNat * 0x1000 + vb.toNat * 0x100 + fmt.toNat * 0x10 + sg.toNat * 0x4 + sw.toNat * 0x2
  | .tred g vd va fmt sg sw => 0x01400000 + g.toNat * 0x10000000 + vd.toNat * 0x10000 + va.toNat * 0x1000 + fmt.toNat * 0x10 + sg.toNat * 0x4 + sw.toNat * 0x2
  | .tmv g vd va vb fmt sg sw => 0x01500000 + g.toNat * 0x10000000 + vd.toNat * 0x10000 + va.toNat * 0x1000 + vb.toNat * 0x100 + fmt.toNat * 0x10 + sg.toNat * 0x4 + sw.toNat * 0x2
  | .tmm g vd va vb fmt sg sw => 0x01600000 + g.toNat * 0x10000000 + vd.toNat * 0x10000 + va.toNat * 0x1000 + vb.toNat * 0x100 + fmt.toNat * 0x10 + sg.toNat * 0x4 + sw.toNat * 0x2
  | .pabm g a t rs => 0x01800000 + g.toNat * 0x10000000 + a.toNat * 0x4000 + t.toNat * 0x400 + rs.toNat * 0x40
  | .pbcast g a t rs => 0x01900004 + g.toNat * 0x10000000 + a.toNat * 0x4000 + t.toNat * 0x400 + rs.toNat * 0x40
  | .pmac g a t rs => 0x01A00004 + g.toNat * 0x10000000 + a.toNat * 0x4000 + t.toNat * 0x400 + rs.toNat * 0x40
  | .pread g a t rs => 0x01B00000 + g.toNat * 0x10000000 + a.toNat * 0x4000 + t.toNat * 0x400 + rs.toNat * 0x40
  | .pexit g a => 0x01C00000 + g.toNat * 0x10000000 + a.toNat * 0x4000
  | .shpset g sg fld imm => 0x00100000 + g.toNat * 0x10000000 + sg.toNat * 0x40000 + fld.toNat * 0x4000 + imm.toNat
  | .shpcpy g sg => 0x00200000 + g.toNat * 0x10000000 + sg.toNat * 0x40000
  | .qld g q a n => 0x00400000 + g.toNat * 0x10000000 + q.toNat * 0x20000 + a.toNat * 0x800 + n.toNat * 0x20
  | .qset g q a n => 0x00500000 + g.toNat * 0x10000000 + q.toNat * 0x20000 + a.toNat * 0x800 + n.toNat * 0x20
  | .qzero g q => 0x00600000 + g.toNat * 0x10000000 + q.toNat * 0x20000
  | .vfset g v fld a => 0x00800000 + g.toNat * 0x10000000 + v.toNat * 0x10000 + fld.toNat * 0x1000 + a.toNat * 0x40
  | .vfseti g v fld imm => 0x00900000 + g.toNat * 0x10000000 + v.toNat * 0x10000 + fld.toNat * 0x1000 + imm.toNat
  | .bndset g v a b => 0x00C00000 + g.toNat * 0x10000000 + v.toNat * 0x10000 + a.toNat * 0x400 + b.toNat * 0x10
  | .bndoff g v => 0x00D00000 + g.toNat * 0x10000000 + v.toNat * 0x10000
  | .vrow sl rd ra rb => 0x01000000 + sl.toNat * 0x80000 + rd.toNat * 0x2000 + ra.toNat * 0x80 + rb.toNat * 0x2
  | .ximm tgt e => 0x0F800000 + tgt.toNat * 0x100000 + e.toNat
  | .messageDelivery _ => 0
  | .owedResponseTimeout _ => 0
  | .atsInvalidationAnswer _ => 0
  | .sqctlFreeze => 0
  | .sqctlUnfreeze => 0
  | .sqctlStep => 0
  | .sqctlResume => 0
  | .sqctlResumeSkip => 0
  | .sliceWaymaskWrite => 0
  | .remoteWaysWrite => 0
  | .xlinvGo => 0
  | .ringdWrite => 0
  | .taskcmdRelease => 0
  | .taskcmdKill => 0
  | .hqctlWrite => 0
  | .notify => 0
  | .queueSlotAdmit => 0
  | .sensorSample => 0
  | .zctlEvac => 0
  | .zctlReturn => 0
  | .zctlWrite => 0
  | .trctlWrite => 0
  | .capstart => 0
  | .capstop => 0
  | .rpctlWrite => 0
  | .podidWrite => 0
  | .destWrite => 0
  | .destFencedClear => 0
  | .gtTimeMessageSend => 0
  | .powerUp => 0
  | .packageReset => 0
  | .powerOff => 0
  | .bootstatGo => 0
  | .bootstatSvnset => 0
  | .attctlGo => 0
  | .attestationComplete => 0
  | .registerWrite => 0

/-- What the opcode map and the formats give for a word in a slot of a class, before the checks of R38. -/
def decodeFields (cl : SlotClass) (w : Nat) : Option Instr :=
  match cl with
  | .s l => decodeS l w
  | .c => decodeC w
  | .v l => decodeV l w
  | .m => decodeM w
  | .e => decodeE w
  | .k => decodeK w

/-- R38: the instruction of an occupied slot's word. A word is an instruction when its opcode is listed, its fields pass the
checks of R21-R24 (Instr.wf) and no other bit of it is set: its instruction's word is the word itself. -/
def decodeSlot (cl : SlotClass) (w : Nat) : Option Instr :=
  match decodeFields cl w with
  | none => none
  | some i => if i.wf && encodeWord i == w then some i else none

/-- The words of an instruction: one for a slot instruction, none for a step of the package. -/
def encode (i : Instr) : List Nat :=
  match slotOf i with
  | none => []
  | some _ => [encodeWord i]

/-- R24: the instruction has an immediate that XIMM may extend. -/
def extendable (i : Instr) : Bool :=
  match i with
  | .movi _ _ _ _ => true
  | .addi _ _ _ _ => true
  | .andi _ _ _ _ => true
  | .ori _ _ _ _ => true
  | .xori _ _ _ _ => true
  | .sld _ _ _ _ _ => true
  | .sst _ _ _ _ _ => true
  | .cmpi _ _ _ _ _ _ => true
  | .loopi _ _ _ => true
  | _ => false

/-- R28: the row selector of a V-slot instruction. -/
def rowSelector (i : Instr) : Option (BitVec 4) :=
  match i with
  | .vadd _ _ _ _ _ _ rs => some rs
  | .vsub _ _ _ _ _ _ rs => some rs
  | .vmul _ _ _ _ _ _ rs => some rs
  | .vfma _ _ _ _ _ _ rs => some rs
  | .vmin _ _ _ _ _ _ rs => some rs
  | .vmax _ _ _ _ _ _ rs => some rs
  | .vabs _ _ _ _ _ rs => some rs
  | .vneg _ _ _ _ _ rs => some rs
  | .vmov _ _ _ _ _ rs => some rs
  | .vand _ _ _ _ _ _ rs => some rs
  | .vor _ _ _ _ _ _ rs => some rs
  | .vxor _ _ _ _ _ _ rs => some rs
  | .vshl _ _ _ _ _ _ rs => some rs
  | .vshr _ _ _ _ _ _ rs => some rs
  | .vsra _ _ _ _ _ _ rs => some rs
  | .vcmpeq _ _ _ _ _ _ rs => some rs
  | .vcmplt _ _ _ _ _ _ rs => some rs
  | .vcmple _ _ _ _ _ _ rs => some rs
  | .vsel _ _ _ _ _ _ rs => some rs
  | .vcvt _ _ _ _ _ _ rs => some rs
  | .vscl _ _ _ _ _ _ rs => some rs
  | .vclmp _ _ _ _ _ _ rs => some rs
  | .vexp2 _ _ _ _ _ rs => some rs
  | .vrcp _ _ _ _ _ rs => some rs
  | .vrsq _ _ _ _ _ rs => some rs
  | .vrsum _ _ _ _ _ rs => some rs
  | .vrmax _ _ _ _ _ rs => some rs
  | .vrmin _ _ _ _ _ rs => some rs
  | .vbcs _ _ _ _ _ rs => some rs
  | .vext _ _ _ _ _ _ rs => some rs
  | .vins _ _ _ _ _ _ rs => some rs
  | .vperm _ _ _ _ _ _ rs => some rs
  | .vlsh _ _ _ _ _ _ rs => some rs
  | .vpack _ _ _ _ _ _ rs => some rs
  | .vunpk _ _ _ _ _ _ rs => some rs
  | .vadds _ _ _ _ _ _ rs => some rs
  | .vmuls _ _ _ _ _ _ rs => some rs
  | .vfmas _ _ _ _ _ _ rs => some rs
  | _ => none

/-- The guard of an instruction (R15); "always" where the word has none: XIMM (R25), and the steps of the package. -/
def guardOf (i : Instr) : BitVec 4 :=
  match i with
  | .bundleIssue _ => 0
  | .pendingWriteLanding _ => 0
  | .bundleSkip _ => 0
  | .loopExit _ => 0
  | .delayExpire _ => 0
  | .starvationGuard _ => 0
  | .variableResultArrival _ => 0
  | .tileWriteComplete _ => 0
  | .viewAccessPerform _ => 0
  | .engineFault _ => 0
  | .containedUnwind _ => 0
  | .copyStart _ _ => 0
  | .copyComplete _ => 0
  | .retireComplete _ => 0
  | .leaseGrant _ _ => 0
  | .leaseBoundExpiry _ => 0
  | .arrayCommandRun _ _ => 0
  | .placedWriteback _ => 0
  | .bankCommandRun _ => 0
  | .atomicBankOperation _ _ => 0
  | .translationWalkComplete _ _ _ => 0
  | .sendFull _ => 0
  | .waymaskChangeComplete _ _ => 0
  | .remoteWaysChangeComplete _ _ => 0
  | .xlinvComplete _ => 0
  | .teamPlace _ => 0
  | .cohortPlace _ => 0
  | .launchViewRegister _ _ => 0
  | .timedStart _ => 0
  | .preemptDecision _ => 0
  | .preemptReevaluate _ => 0
  | .checkpointWrite _ _ => 0
  | .teamRestore _ _ => 0
  | .taskComplete _ => 0
  | .pkgBarrierMessage _ => 0
  | .lineInvalidate _ => 0
  | .hqNop _ => 0
  | .hqLaunch _ => 0
  | .hqTimedLaunch _ => 0
  | .hqFence _ => 0
  | .hqInvalid _ => 0
  | .hqEntryComplete _ _ => 0
  | .coolLowflow _ => 0
  | .coolOvertemp _ => 0
  | .coolDry _ => 0
  | .evacDrainTimeout _ => 0
  | .evacValveClosed _ => 0
  | .evacPurgeDone _ => 0
  | .evacVerifyDone _ => 0
  | .zoneReady _ => 0
  | .lost _ => 0
  | .resync _ => 0
  | .stationUp _ => 0
  | .stationDown _ => 0
  | .remoteRequestSend _ => 0
  | .remoteResponse _ => 0
  | .remoteFence _ => 0
  | .incomingRemoteRequest _ => 0
  | .atsTranslationRequest _ _ => 0
  | .atsTranslationResponse _ _ _ => 0
  | .atsInvalidation _ _ _ => 0
  | .gtTimeMessage _ _ => 0
  | .podBarrierArrival _ _ => 0
  | .podBarrierCompletion _ => 0
  | .podBarrierTimeout _ => 0
  | .add _ g _ _ _ => g
  | .sub _ g _ _ _ => g
  | .and _ g _ _ _ => g
  | .or _ g _ _ _ => g
  | .xor _ g _ _ _ => g
  | .shl _ g _ _ _ => g
  | .shr _ g _ _ _ => g
  | .sra _ g _ _ _ => g
  | .min _ g _ _ _ => g
  | .max _ g _ _ _ => g
  | .minu _ g _ _ _ => g
  | .maxu _ g _ _ _ => g
  | .mov _ g _ _ => g
  | .addsh _ g _ _ _ _ => g
  | .clz _ g _ _ => g
  | .mul _ g _ _ _ => g
  | .mulh _ g _ _ _ => g
  | .mulhu _ g _ _ _ => g
  | .divu _ g _ _ _ => g
  | .remu _ g _ _ _ => g
  | .movi _ g _ _ => g
  | .addi _ g _ _ => g
  | .andi _ g _ _ => g
  | .ori _ g _ _ => g
  | .xori _ g _ _ => g
  | .shli _ g _ _ => g
  | .shri _ g _ _ => g
  | .srai _ g _ _ => g
  | .movh _ g _ _ => g
  | .lidx _ g _ _ => g
  | .ctlrd _ g _ _ => g
  | .ctlwr _ g _ _ => g
  | .gtlo _ g _ => g
  | .gthi _ g _ => g
  | .cmp _ g _ _ _ _ => g
  | .cmpi _ g _ _ _ _ => g
  | .sld _ g _ _ _ => g
  | .sst _ g _ _ _ => g
  | .qmap _ g _ _ => g
  | .qunmap _ g _ => g
  | .br g _ => g
  | .call g _ => g
  | .contain g _ => g
  | .jr g _ => g
  | .callr g _ => g
  | .loop g _ _ => g
  | .loopi g _ _ => g
  | .lbrk g => g
  | .lstg g _ _ => g
  | .pand g _ _ _ _ _ => g
  | .por g _ _ _ _ _ => g
  | .pxor g _ _ _ _ _ => g
  | .bktj g _ _ => g
  | .waitgt g _ _ => g
  | .setest g _ _ => g
  | .setts g _ _ => g
  | .setrm g _ => g
  | .launch g _ _ => g
  | .bar g _ _ _ _ => g
  | .bararv g _ _ _ => g
  | .barwt g _ _ _ => g
  | .fence g _ _ => g
  | .trap g _ => g
  | .eret g => g
  | .exit g => g
  | .containend g => g
  | .vadd _ g _ _ _ _ _ => g
  | .vsub _ g _ _ _ _ _ => g
  | .vmul _ g _ _ _ _ _ => g
  | .vfma _ g _ _ _ _ _ => g
  | .vmin _ g _ _ _ _ _ => g
  | .vmax _ g _ _ _ _ _ => g
  | .vabs _ g _ _ _ _ => g
  | .vneg _ g _ _ _ _ => g
  | .vmov _ g _ _ _ _ => g
  | .vand _ g _ _ _ _ _ => g
  | .vor _ g _ _ _ _ _ => g
  | .vxor _ g _ _ _ _ _ => g
  | .vshl _ g _ _ _ _ _ => g
  | .vshr _ g _ _ _ _ _ => g
  | .vsra _ g _ _ _ _ _ => g
  | .vcmpeq _ g _ _ _ _ _ => g
  | .vcmplt _ g _ _ _ _ _ => g
  | .vcmple _ g _ _ _ _ _ => g
  | .vsel _ g _ _ _ _ _ => g
  | .vcvt _ g _ _ _ _ _ => g
  | .vscl _ g _ _ _ _ _ => g
  | .vclmp _ g _ _ _ _ _ => g
  | .vexp2 _ g _ _ _ _ => g
  | .vrcp _ g _ _ _ _ => g
  | .vrsq _ g _ _ _ _ => g
  | .vrsum _ g _ _ _ _ => g
  | .vrmax _ g _ _ _ _ => g
  | .vrmin _ g _ _ _ _ => g
  | .vbcs _ g _ _ _ _ => g
  | .vext _ g _ _ _ _ _ => g
  | .vins _ g _ _ _ _ _ => g
  | .vperm _ g _ _ _ _ _ => g
  | .vlsh _ g _ _ _ _ _ => g
  | .vpack _ g _ _ _ _ _ => g
  | .vunpk _ g _ _ _ _ _ => g
  | .vadds _ g _ _ _ _ _ => g
  | .vmuls _ g _ _ _ _ _ => g
  | .vfmas _ g _ _ _ _ _ => g
  | .tld g _ _ _ _ _ => g
  | .tst g _ _ _ _ _ => g
  | .tgath g _ _ _ _ _ => g
  | .tscat g _ _ _ _ _ => g
  | .pref g _ _ => g
  | .tspld g _ _ => g
  | .tspst g _ _ => g
  | .ared g _ _ _ _ _ => g
  | .tzero g _ => g
  | .tmovt g _ _ => g
  | .tcopy g _ _ _ _ _ => g
  | .vopen g _ _ _ _ => g
  | .vretire g _ => g
  | .hfree g _ => g
  | .waitm g _ _ _ _ _ => g
  | .aadd g _ _ _ _ _ => g
  | .amin g _ _ _ _ _ => g
  | .amax g _ _ _ _ _ => g
  | .aminu g _ _ _ _ _ => g
  | .amaxu g _ _ _ _ _ => g
  | .aand g _ _ _ _ _ => g
  | .aor g _ _ _ _ _ => g
  | .axor g _ _ _ _ _ => g
  | .axchg g _ _ _ _ _ => g
  | .acas g _ _ _ _ _ => g
  | .aincb g _ _ _ _ _ => g
  | .afadd g _ _ _ _ _ => g
  | .afaddh g _ _ _ _ _ => g
  | .ald g _ _ _ _ _ => g
  | .ast g _ _ _ _ _ => g
  | .send g _ _ _ _ => g
  | .mm g _ _ _ _ _ _ _ => g
  | .mmcmp g _ _ _ _ _ => g
  | .mstatTile g _ _ _ _ => g
  | .mstatHandle g _ _ _ _ => g
  | .mswap g => g
  | .lease g => g
  | .lrel g => g
  | .acczeroFp g _ _ => g
  | .acczeroInt g _ => g
  | .accld g _ _ _ _ _ _ => g
  | .accnorm g _ _ _ _ => g
  | .accchk g _ => g
  | .accdrain g _ _ _ _ _ _ _ => g
  | .fold g _ _ _ => g
  | .tadd g _ _ _ _ _ _ => g
  | .tsub g _ _ _ _ _ _ => g
  | .tmul g _ _ _ _ _ _ => g
  | .tmax g _ _ _ _ _ _ => g
  | .tred g _ _ _ _ _ => g
  | .tmv g _ _ _ _ _ _ => g
  | .tmm g _ _ _ _ _ _ => g
  | .pabm g _ _ _ => g
  | .pbcast g _ _ _ => g
  | .pmac g _ _ _ => g
  | .pread g _ _ _ => g
  | .pexit g _ => g
  | .shpset g _ _ _ => g
  | .shpcpy g _ => g
  | .qld g _ _ _ => g
  | .qset g _ _ _ => g
  | .qzero g _ => g
  | .vfset g _ _ _ => g
  | .vfseti g _ _ _ => g
  | .bndset g _ _ _ => g
  | .bndoff g _ => g
  | .vrow _ _ _ _ => 0
  | .ximm _ _ => 0
  | .messageDelivery _ => 0
  | .owedResponseTimeout _ => 0
  | .atsInvalidationAnswer _ => 0
  | .sqctlFreeze => 0
  | .sqctlUnfreeze => 0
  | .sqctlStep => 0
  | .sqctlResume => 0
  | .sqctlResumeSkip => 0
  | .sliceWaymaskWrite => 0
  | .remoteWaysWrite => 0
  | .xlinvGo => 0
  | .ringdWrite => 0
  | .taskcmdRelease => 0
  | .taskcmdKill => 0
  | .hqctlWrite => 0
  | .notify => 0
  | .queueSlotAdmit => 0
  | .sensorSample => 0
  | .zctlEvac => 0
  | .zctlReturn => 0
  | .zctlWrite => 0
  | .trctlWrite => 0
  | .capstart => 0
  | .capstop => 0
  | .rpctlWrite => 0
  | .podidWrite => 0
  | .destWrite => 0
  | .destFencedClear => 0
  | .gtTimeMessageSend => 0
  | .powerUp => 0
  | .packageReset => 0
  | .powerOff => 0
  | .bootstatGo => 0
  | .bootstatSvnset => 0
  | .attctlGo => 0
  | .attestationComplete => 0
  | .registerWrite => 0

/-- The slots of a bundle, slot 0 first: none where the slot is empty (R14). -/
abbrev Slots := List (Option Instr)

/-- The instruction in slot n. -/
def slotAt (b : Slots) (n : Nat) : Option Instr :=
  match b[n]? with
  | some x => x
  | none => none

/-- R38 on one slot: its instruction, none for an empty slot, or an offence. -/
def decodeOne (n w : Nat) : Option (Option Instr) :=
  if w = 0 then some none
  else match decodeSlot (slotClass n) w with
    | some i => some (some i)
    | none => none

/-- R23, R25: slot n of a bundle whose words are instructions pairs rightly: a V slot that takes per-operand rows has a VROW that names
it; a VROW names an occupied V slot that takes them; an XIMM names an occupied slot 0 to 6 whose immediate is extendable. -/
def pairingOk (b : Slots) (n : Nat) : Bool :=
  match slotAt b n with
  | none => true
  | some i =>
    match i with
    | .ximm tgt _ =>
      decide (tgt.toNat < 7) && (match slotAt b tgt.toNat with
        | some t => extendable t
        | none => false)
    | .vrow sl _ _ _ =>
      (match slotAt b (if sl then 4 else 3) with
        | some t => rowSelector t == some 6
        | none => false)
    | _ =>
      match rowSelector i with
      | some rs => rs != 6 || (match slotAt b 7 with
        | some (.vrow sl _ _ _) => (if sl then 4 else 3) == n
        | _ => false)
      | none => true

/-- The slots of the words from slot n on; an offending word leaves its slot empty and is counted in `bad`. -/
def decodeWords (n : Nat) (ws : List Nat) : Slots × List Nat :=
  match ws with
  | [] => ([], [])
  | w :: rest =>
    let r := decodeWords (n + 1) rest
    match decodeOne n w with
    | some x => (x :: r.1, r.2)
    | none => (none :: r.1, n :: r.2)

/-- The slots from n on, k of them, that are paired wrongly. -/
def badPairs (b : Slots) (n k : Nat) : List Nat :=
  match k with
  | 0 => []
  | k + 1 => if pairingOk b n then badPairs b (n + 1) k else n :: badPairs b (n + 1) k

/-- The lowest number of a list. -/
def lowest (l : List Nat) : Option Nat :=
  match l with
  | [] => none
  | x :: rest =>
    match lowest rest with
    | none => some x
    | some y => some (min x y)

/-- R40: the bundle's instructions, or the lowest-numbered offending slot. A word that is itself illegal counts as an empty slot in the pairing checks, so
the V slot of an illegal VROW offends too (DESIGN CHOICE, log 128). -/
def decodeBundle (ws : List Nat) : Except Nat Slots :=
  let r := decodeWords 0 ws
  match lowest (r.2 ++ badPairs r.1 0 8) with
  | some n => .error n
  | none => .ok r.1

/-- R12: the little-endian word at the front of a list of bytes. -/
def wordOfBytes (l : List Byte) : Nat :=
  match l with
  | a :: b :: c :: d :: _ => a.toNat + b.toNat * 0x100 + c.toNat * 0x10000 + d.toNat * 0x1000000
  | _ => 0

/-- R12: the bytes of a word, the lowest first. -/
def bytesOfWord (w : Nat) : List Byte :=
  [BitVec.ofNat 8 w, BitVec.ofNat 8 (w / 0x100), BitVec.ofNat 8 (w / 0x10000), BitVec.ofNat 8 (w / 0x1000000)]

/-- R12: k words of a list of bytes. -/
def wordsOfBytes (k : Nat) (l : List Byte) : List Nat :=
  match k with
  | 0 => []
  | k + 1 => wordOfBytes l :: wordsOfBytes k (l.drop 4)

/-- R12, R40: the bundle held in 32 bytes. -/
def decode (l : List Byte) : Except Nat Slots := decodeBundle (wordsOfBytes 8 l)

/-- The classes in slot order, the first lane of each. -/
def classOrder : List SlotClass := [.s false, .c, .v false, .m, .e, .k]

/-- The first class of a list in which a word is an instruction. -/
def firstClass (cs : List SlotClass) (w : Nat) : Option (SlotClass × Instr) :=
  match cs with
  | [] => none
  | cl :: rest =>
    match decodeSlot cl w with
    | some i => some (cl, i)
    | none => firstClass rest w

/-- DESIGN CHOICE (log 5): a word without its slot does not say its class (R13), so it is read as the first class, in slot
order, in which it is an instruction. -/
def decodeTableWord (nbits w : Nat) : Option Instr :=
  if nbits = 32 then
    match firstClass classOrder (wordOfBytes (bytesOfWord w)) with
    | some (_, i) => some i
    | none => none
  else none

end Sys2Proof
end

