-- ==== Sys2Proof/Machine/State.lean ====
section
/-! DEFINITION. Sys2Proof/Machine/State.lean: the state of the package (INVENTORY.md, ## State), as plain data.

Numbers: a die is 0 to 15; quad q of die d is 16d + q; core c of that quad is core 4 * (16d + q) + c; the steward core of die d is core
1024 + d (R297). Sequencer e of a core k (0 primary, 1 secondary) is 2k + e. Records that stand at their reset value need not be listed:
an unlisted number reads as the reset value (Machine/Ops.lean). -/

namespace Sys2Proof.Machine

/-! Sequencer and core. -/

/-- R49: one entry of the loop stack, and the words of its body's bundles, by address, as the loop buffer holds them (R51). -/
structure LoopLevel where
  start : Word
  len : BitVec 12
  count : Word
  index : Word
  body : Sparse (List Nat) := []
deriving DecidableEq, Repr

/-- R52, R84: a stage binding; `pending` while it waits for the push of its level (CSTAGE.PEND). -/
structure StageBind where
  level : Nat
  mask : BitVec 4
  pending : Bool
deriving DecidableEq, Repr

/-- R192: where a pending write lands (EKIND and TARGET). -/
inductive Dest where
  | scalar (r : BitVec 5)
  | latch
  | pred (p : BitVec 3)
  | tileRow (t : BitVec 4) (r : BitVec 6)
  | shapeField (sg : BitVec 2) (fld : BitVec 4)
  | shapePlane (sg : BitVec 2)
  | scale (q : BitVec 3) (n : BitVec 6)
  | scales (q : BitVec 3) (n : BitVec 6)
  | scalesZero (q : BitVec 3)
  | viewField (v fld : BitVec 4)
  | bounds (v : BitVec 4)
  | boundOff (v : BitVec 4)
deriving DecidableEq, Repr

/-- R53, R54, R192: an entry of the pending-write queue. `tick` is the tick that issued it (R200). An entry superseded by a result writes no
register when it lands (R58); `superseded` is the tick that issued the earliest such result. `cover` has the bits of a row payload that M or E
writes later in program order have taken since the payload was last read from a record (R59, R195). -/
structure Pend where
  dest : Dest
  value : BitVec 64
  flags : BitVec 5
  cnt : Nat
  slot : Nat
  payload : Row
  tick : Nat
  superseded : Option Nat
  cover : Row := 0
deriving DecidableEq, Repr

/-- R118: one plane of a shape register. -/
structure Plane where
  mrows : Nat
  ncols : Nat
  kdep : Nat
  row0 : Nat
  col0 : Nat
  sgn : Nat
  amode : Nat
  trb : Nat
deriving DecidableEq, Repr

/-- R118: the field resets. -/
def Plane.reset : Plane :=
  { mrows := 64, ncols := 128, kdep := 128, row0 := 0, col0 := 0, sgn := 3, amode := 0, trb := 0 }

/-- R117: a shape register. -/
structure ShapeReg where
  active : Plane
  shadow : Plane
deriving DecidableEq, Repr

/-- R155, R122: a view register. Extent and stride d of the four dimensions are in xt and sd. -/
structure View where
  handle : Word
  off : BitVec 64
  xt : Vector Word 4
  sd : Vector Word 4
  stamp : Word
  blo : Word
  bhi : Word
  isOpen : Bool
  retiring : Bool
  poison : Bool
  ben : Bool
  cls : BitVec 4
  scope : BitVec 3
  mode : BitVec 2
deriving DecidableEq, Repr

/-- R155: a view register that the launch leaves alone. -/
def View.reset : View :=
  { handle := 0, off := 0, xt := Vector.replicate 4 0, sd := Vector.replicate 4 0, stamp := 0xFFFFFFFF, blo := 0, bhi := 0,
    isOpen := false, retiring := false, poison := false, ben := false, cls := 0, scope := 0, mode := 0 }

/-- R79, R80: a mapping of s30 or s31 to a receive ring 0 to 63, or to the die's event queue (64), and the entry that it holds. -/
structure QueueMap where
  ring : Nat
  held : Option Word
deriving DecidableEq, Repr

/-- R198: an open containment region, the view registers opened and the views retired inside it (R201), and whether s30 and s31 were mapped
when it opened (R80, R200). -/
structure Region where
  handler : Word
  tick : Nat
  regs : Vector Word 32
  preds : BitVec 8
  loops : List LoopLevel
  stage : Option StageBind
  opened : List Nat
  retired : List (Nat × View)
  mapped30 : Bool := false
  mapped31 : Bool := false
deriving DecidableEq, Repr

/-- R184, R244, R283: a slot fault: its slot, its cause (R190) and its detail words (R191). -/
structure SlotFault where
  slot : Nat
  cause : Nat
  aux0 : BitVec 64
  aux1 : Word
deriving DecidableEq, Repr

/-- R196: an engine's report of a failed command to its strand, before the strand stops for it. `region` is the depth of the region open
at the command's issue, 0 for none (R200), and `stepped` says that the fault was raised in a step of a frozen core (R205). -/
structure EngineReport where
  op : Nat
  cause : Nat
  engine : Nat
  cqn : Nat
  slot : Nat
  baddr : Word
  idx : List Word
  aux0 : BitVec 64
  aux1 : Word
  region : Nat
  stepped : Bool := false
deriving DecidableEq, Repr

/-- R186, R189: what the fault record says of the stop, kept while the strand is faulted. -/
structure StopInfo where
  kind : Nat
  cause : Nat
  slot : Nat
  engine : Nat
  cqn : Nat
  aux0 : BitVec 64
  aux1 : Word
  cmask : BitVec 8
  baddr : Word
  idx : List Word
  op : Option Nat
deriving DecidableEq, Repr

/-- R200: an unwind in progress: the region's depth, and the cause word and detail that the handler receives. -/
structure Unwind where
  depth : Nat
  causeWord : Word
  detail : Word
deriving DecidableEq, Repr

/-- SQSTAT.STATE without freezing (R203), which the core's FREEZE bits decide. A strand of a timed launch waits for its start (R283). -/
inductive SeqStatus where
  | idle
  | waiting (start : BitVec 64)
  | running
  | faulted
  | unwinding
deriving DecidableEq, Repr

/-- What an instruction does at the end of its issuing tick (R69), kept until the bundle's other slots have acted. -/
inductive EndEffect where
  | setRm (m : BitVec 2)
  | setTs (t : BitVec 64)
  | setEst (t : BitVec 64)
  | ctlWrite (n : Nat) (v : Word)
  | queueMap (hi : Bool) (sel : Word)
  | queueUnmap (hi : Bool)
  | spadStore (addr : Nat) (v : Word)
  | transfer (target : Word)
  | loopPush (start : Word) (len : BitVec 12) (count : Word) (body : Sparse (List Nat))
  | loopSkip (next : Word)
  | loopPop
  | stageBind (level : Nat) (mask : BitVec 4)
  | predWrite (p : BitVec 3) (v : Bool)
  | barrierWait (key : Nat) (addr : Word)
  | trapTo (code : BitVec 8)
  | trapReturn (epc edly : Word)
  | strandEnd
deriving DecidableEq, Repr

/-- The bundle that a sequencer is issuing: set only inside a step. `rows` are VROW's rows, `mask` has the bits of the slots that execute, `undone` the slots that
faulted, with their faults, and `ends` the effects for the end of the tick, in slot order. -/
structure IssueCtx where
  addr : Word
  slots : Slots
  rows : Nat × Nat × Nat
  mask : BitVec 8
  undone : List SlotFault
  ends : List EndEffect
deriving DecidableEq, Repr

/-- R305, R308: a strand's part in a barrier's phases: ARR and GEN. -/
structure BarrierArm where
  arr : Bool
  gen : BitVec 7
deriving DecidableEq, Repr

/-- R273-R275: all-bank mode of a strand: the pseudo-channel held (die and number), the handle and offset of its granule, and the banks'
register files: BX entry e lane l at 16e + l (the same in every bank), BACC at (bank * 4 + n) * 16 + l. -/
structure BankMode where
  die : Nat
  channel : Nat
  handle : Word
  off : BitVec 64
  bx : Sparse (BitVec 16)
  bacc : Sparse Word
deriving DecidableEq, Repr

/-- R172: a FENCE that still orders: the number of the first operation after it, its scope and its mask. -/
structure FenceMark where
  at_ : Nat
  scope : BitVec 3
  mask : BitVec 16
deriving DecidableEq, Repr

/-- What the position of a strand still owes after a bundle: the target of a transfer whose delay count has reached zero (R66), or the end
of the level whose last bundle it was (R50). -/
inductive PosDue where
  | expire
  | exit (addr : Word)
deriving DecidableEq, Repr

/-- R302: a strand's part in a checkpoint of its team: none asked, asked, or landed, with GT of the landing (R304). -/
inductive Landing where
  | none_
  | asked
  | landed (gt : BitVec 64)
deriving DecidableEq, Repr

/-- R295: a FAULT record that is not posted yet: writes of its strand, as operations, come before it, or it waits for a slot. -/
structure DueEvent where
  record : BitVec 512
  after : List Nat
deriving DecidableEq, Repr

/-- A sequencer (R47). `ticks` counts the bundles issued; `tickOpen` says that the landings of the coming tick have been taken (R53);
`stageDue` that the stage predicates are to be set after the landings of the iteration's first tick (R52); `reissue` the bundle and completion
mask of a resume that is still to reissue its slots (R194); `waitGt` the time that a held WAITGT has read (R86); `pinned` the handles that
the checks of a held bundle's slots have pinned, each with its slot (R153, R178); `resumeAsked` a resume that waits for the pseudo-channel of its record
(R275) or for its FAULT event (R295), with its SKIP; `faultDue` the FAULT event of its stop while it is not posted; `arrived` the operations whose results have arrived during a stop, in the order of their
arrival (R195). -/
structure Seq where
  pc : Word
  delayTarget : Word
  delayCount : Nat
  loops : List LoopLevel
  regs : Vector Word 32
  preds : BitVec 8
  stage : Option StageBind
  queue : List Pend
  latches : Vector Word 8
  busy : BitVec 33
  ticks : Nat
  tickOpen : Bool
  cstat : BitVec 5
  rmode : BitVec 2
  asid : Nat
  team : Word
  task : Word
  strand : BitVec 3
  est : BitVec 64
  ts : BitVec 64
  gtSnap : Word
  trapVec : Word
  epc : Word
  edly : Word
  inTrap : Bool
  trapCode : BitVec 8
  map30 : Option QueueMap
  map31 : Option QueueMap
  views : Vector View 16
  shapes : Vector ShapeReg 4
  scales : Vector (Vector (BitVec 16) 64) 8
  regions : List Region
  fences : List FenceMark
  barriers : Sparse BarrierArm
  barWait : Option (Nat × Word)
  bank : Option BankMode
  status : SeqStatus
  reports : List EngineReport
  stop : Option StopInfo
  unwind : Option Unwind
  endPending : Bool
  landing : Landing
  sendWait : Nat
  sendFull : Bool
  freeze : Bool
  resFail : Bool
  stepHeld : Bool
  sqfra : BitVec 64
  counters : Vector (BitVec 48) 126
  due : Option PosDue
  stageDue : Bool
  issue : Option IssueCtx
  reissue : Option (Word × BitVec 8)
  waitGt : Option (BitVec 64)
  pinned : List (Nat × Word)
  resumeAsked : Option Bool
  arrived : List Nat
  faultDue : Option DueEvent
deriving DecidableEq, Repr

/-- The sequencer at package reset. The values are those of strand start (R47, R74, R118, R155), and zero for a place, team and task,
which only a placement gives (log 1). -/
def Seq.reset : Seq :=
  { pc := 0, delayTarget := 0, delayCount := 0, loops := [], regs := Vector.replicate 32 0, preds := 1, stage := none,
    queue := [], latches := Vector.replicate 8 0, busy := 0, ticks := 0, tickOpen := false, cstat := 0, rmode := 0, asid := 0, team := 0,
    task := 0, strand := 0, est := 0, ts := 0, gtSnap := 0, trapVec := 0, epc := 0, edly := 0, inTrap := false, trapCode := 0,
    map30 := none, map31 := none, views := Vector.replicate 16 View.reset,
    shapes := Vector.replicate 4 { active := Plane.reset, shadow := Plane.reset },
    scales := Vector.replicate 8 (Vector.replicate 64 0), regions := [], fences := [], barriers := [], barWait := none, bank := none,
    status := .idle, reports := [], stop := none, unwind := none, endPending := false, landing := .none_, sendWait := 0, sendFull := false,
    freeze := false, resFail := false, stepHeld := false, sqfra := 0, counters := Vector.replicate 126 0,
    due := none, stageDue := false, issue := none, reissue := none, waitGt := none, pinned := [], resumeAsked := none, arrived := [], faultDue := none }

/-- R270: a receive ring descriptor. -/
structure Ring where
  valid : Bool
  ppkg : BitVec 10
  pseq : BitVec 11
  base : BitVec 10
  nslot : BitVec 7
  count : Nat
  head : Nat
  tail : Nat
deriving DecidableEq, Repr

/-- R270: the reset of a ring descriptor. -/
def Ring.reset : Ring := { valid := false, ppkg := 0, pseq := 0, base := 0, nslot := 0, count := 0, head := 0, tail := 0 }

/-- A core (R114). Tile row r of tile t is key 64t + r of `tiles`; scratchpad bytes 256k to 256k + 255 are key k of `spad`. `wait` is the
merge counter W, `team` the team on the core (its task's key * 2^16 + its index), `suspended` the suspended ring set (R307), `granted` the operations
that a STEP lets move (R205), and `primaryMask` the occupied slots of the primary's bundle of the current cycle, if it has issued (R127). -/
structure CoreState where
  tiles : Sparse Row
  spad : Sparse Row
  stalls : Vector Word 4
  wait : Nat
  primaryMask : Option (BitVec 8)
  rings : Sparse Ring
  placed : Vector (BitVec 64) 5
  lenient : Bool
  team : Option Nat
  suspended : Option (Sparse Ring)
  granted : List Nat
deriving DecidableEq, Repr

/-- R114: a core's state at placement, also its reset. -/
def CoreState.reset : CoreState :=
  { tiles := [], spad := [], stalls := Vector.replicate 4 0, wait := 0, primaryMask := none, rings := [],
    placed := Vector.replicate 5 0, lenient := false, team := none, suspended := none, granted := [] }

/-! Operations in flight: what an M or E slot leaves to an engine. -/

/-- R174: the row of the view that a tile row moves to or from; none for the index 0xFFFF_FFFF of TGATH and TSCAT. -/
abbrev RowList := List (Option Nat)

/-- R268: the atomic operations. -/
inductive AtomicOp where
  | add
  | smin
  | smax
  | umin
  | umax
  | and
  | or
  | xor
  | xchg
  | cas
  | incb
  | fadd
  | faddh
  | load
  | store
deriving DecidableEq, Repr

/-- R249-R252: the placed operations. -/
inductive PlacedOp where
  | add
  | sub
  | mul
  | max
  | red
  | mv
  | mm
deriving DecidableEq, Repr

/-- R211-R231: the array commands, with what they sampled at issue. -/
inductive ArrayCmd where
  | mm (acc : Nat) (tile : List Row) (p : Plane) (fmt : Nat) (scales : Option (List (BitVec 16)))
  | mmcmp (acc : Nat) (tile : List Row) (p : Plane) (fmt : Nat)
  | mstat (rows : List Row) (p : Plane) (fmt : Nat)
  | mstatFetch (handle : Word) (base : Nat) (p : Plane) (fmt : Nat)
  | mswap
  | lease
  | lrel
  | acczeroFp (acc : Nat) (e : BitVec 16)
  | acczeroInt (acc : Nat)
  | accld (acc : Nat) (tile : List Row) (p : Plane) (fmt : Nat) (hi : Bool)
  | accnorm (acc : Nat) (n : Nat) (p : Plane)
  | accchk (acc : Nat)
  | accdrain (acc : Nat) (t : Nat) (p : Plane) (fmt : Nat) (params : Option (List Row)) (hi clr : Bool) (mode : BitVec 2)
  | fold (acc : Nat) (p : Plane)
deriving DecidableEq, Repr

/-- R274-R279: the BANK commands, with what they sampled at issue. -/
inductive BankCmd where
  | pabm (handle : Word) (row : Row)
  | pbcast (handle : Word) (row : Row)
  | pmac (handle : Word) (row : Row) (mode : BitVec 2)
  | pread (handle : Word) (t r : Nat)
  | pexit (handle : Word)
deriving DecidableEq, Repr

/-- What an operation in flight is to do. -/
inductive OpKind where
  | load (t : Nat) (rows : RowList) (v : View)
  | store (tile : List Row) (rows : RowList) (v : View)
  | spadLoad (t addr : Nat)
  | spadStore (tile : List Row) (addr : Nat)
  | tileSet (t : Nat) (tile : List Row)
  | copy (vd vs : View) (dreg sreg : Nat) (seqno : Word) (cq : Nat) (ev started : Bool) (status : Nat)
  | retire (reg : Nat) (v : View) (poison : Bool)
  | atomic (op : AtomicOp) (d : BitVec 6) (x y : Word) (index : Nat) (v : View) (ord sc : BitVec 2) (mode : BitVec 2)
  | ared (tile : List Row) (first : Nat) (v : View) (mode : BitVec 2) (left : List Nat)
  | send (row : Row) (ring : Word)
  | placed (op : PlacedOp) (vd va vb : View) (fmt : Nat) (a b : List Nat) (nr nc n : Nat) (trb : Bool) (mode : BitVec 2)
      (home : Nat) (shipped : Nat)
  | array (c : ArrayCmd)
  | bank (c : BankCmd)
deriving DecidableEq, Repr

/-- How far an operation in flight has come. `queued` has not performed; `performed` has, and its result or tile write is still to
come; `drained` has completed but for writes that their home has not yet performed (R320); `failed` waits for the strand's resume
(R196). -/
inductive OpPhase where
  | queued
  | performed
  | drained
  | failed
deriving DecidableEq, Repr

/-- An operation in flight, numbered in issue order. `rcls` and `wcls` are the ordering classes of its reads and writes (R169), `wtiles`
the tiles that it marks on the scoreboard (R124), `pins` the handles that it pins (R153), `region` the depth of the containment region
open at its issue, `result` what it has to deliver when performed, `via` the view registers that it goes through (R165), and `slice` the slice that is the
home of a placed operation, as 32 times its die and its number (R234, R265). -/
structure Op where
  id : Nat
  seq : Nat
  slot : Nat
  baddr : Word
  tick : Nat
  region : Nat
  idx : List Word
  asid : Nat
  rcls : Option (BitVec 4)
  wcls : Option (BitVec 4)
  wtiles : List Nat
  pins : List Word
  phase : OpPhase
  flags : BitVec 5
  result : List Row
  kind : OpKind
  via : List Nat := []
  slice : Option Nat := none
deriving DecidableEq, Repr

/-! Quads. -/

/-- R214: a stationary plane: row n is key n. -/
structure PlaneRows where
  rows : Sparse Row
  fmt : Nat
deriving DecidableEq, Repr

/-- R210: an accumulator: the word of row r, column c at key 128r + c; CK, E and HG of row r at key r. -/
structure Acc where
  integer : Bool
  words : Sparse (BitVec 64)
  ck : Sparse (BitVec 40)
  e : Sparse (BitVec 16)
  hg : Vector Nat 64
deriving DecidableEq, Repr

/-- R209: the reset of an accumulator. -/
def Acc.reset : Acc := { integer := false, words := [], ck := [], e := [], hg := Vector.replicate 64 512 }

/-- R209: the part of an array that is saved and loaded when the lease changes teams (R211). -/
structure ArrayState where
  active : PlaneRows
  shadow : PlaneRows
  accs : Vector Acc 8
deriving DecidableEq, Repr

/-- R209: the state that a team finds at its first lease. -/
def ArrayState.reset : ArrayState :=
  { active := { rows := [], fmt := 2 }, shadow := { rows := [], fmt := 2 }, accs := Vector.replicate 8 Acc.reset }

/-- A quad's array (R209). `cycles` counts eighths of a cycle of the main clock, which the throttle of its zone divides (R331). `owner` is the team
whose state is loaded; `saved` holds the states of other teams by team number (R211). -/
structure Quad where
  array : ArrayState
  holder : Option Nat
  explicit : Vector Bool 4
  commands : Nat
  cycles : Nat
  owner : Option Nat
  saved : Sparse ArrayState
deriving DecidableEq, Repr

/-- R209: the reset of a quad's array. -/
def Quad.reset : Quad :=
  { array := ArrayState.reset, holder := none, explicit := Vector.replicate 4 false, commands := 0, cycles := 0, owner := none, saved := [] }

/-! Memory. -/

/-- R317, R348: what a page maps to: a place on this package (tier 0, 1 or 2; the die, or for tier 2 the store: 0 LPDDR6, 1 and 2 the CXL ports of I/O dies
1 and 2, 3 host memory; physical base), an address space and address of another package reached through a destination, or the register window of a die (R361). -/
inductive PageTarget where
  | local_ (tier die base : Nat)
  | remote (dest lasid base : Nat)
  | registers (die : Nat)
deriving DecidableEq, Repr

/-- R185, R317: one page of an address space: its first address, its size (0 64 KiB, 1 2 MiB, 2 1 GiB), and whether it is writable. -/
structure Page where
  asid : Nat
  va : Nat
  size : Nat
  writable : Bool
  target : PageTarget
deriving DecidableEq, Repr

/-- R152: a handle table entry, with its pin count. -/
structure HandleEntry where
  base : Nat
  size : Nat
  tier : Nat
  die : Nat
  gen : BitVec 12
  valid : Bool
deriving DecidableEq, Repr

/-- R152: an entry never allocated. -/
def HandleEntry.reset : HandleEntry := { base := 0, size := 0, tier := 0, die := 0, gen := 0, valid := false }

/-- R320: bytes of a write that a proxy slice of a die has taken and forwarded, and that their home has not yet performed. -/
structure Forward where
  id : Nat
  op : Nat
  die : Nat
  slice : Nat
  cells : List Host.Cell
deriving DecidableEq, Repr

/-- R162, R163: a view registered with a die's directory. `seq` is the sequencer that opened it; while that
strand is out with a checkpoint, 4096 * (8 * its team + its number + 1) more (R303). `task` is the task of a launch view, and `dies` the dies
for which its launch has registered it (R162). `waits` marks a VOPEN that another directory still holds (R321). -/
structure FlockEntry where
  seq : Option Nat
  task : Option Nat
  reg : Nat
  asid : Nat
  view : View
  wide : Bool
  dies : List Nat := []
  waits : Bool := false
deriving DecidableEq, Repr

/-- R201: a poison record of a directory, of a task (R293), with the sequencer whose view it was (R166). -/
structure PoisonRecord where
  task : Nat
  asid : Nat
  view : View
  seq : Nat := 0
deriving DecidableEq, Repr

/-- R262: the answer of a walk, held by a translation cache: the page, or that there is none, or that the walk met an uncorrectable
error (the latter two until the access that waits takes them). -/
inductive WalkResult where
  | page (p : Page)
  | unmapped
  | uncorr
  | denied
  | timeout
deriving DecidableEq, Repr

/-- R262: an entry of a die's translation caches. -/
structure CacheEntry where
  asid : Nat
  vpn : Nat
  result : WalkResult
deriving DecidableEq, Repr

/-- R294: a die's event queue: the place of the oldest record not popped and of the next record, the records held (the popped one that
its strand still holds among them), and records whose source waits for a slot (R295), oldest first. -/
structure EventQueue where
  head : Nat
  tail : Nat
  count : Nat
  waiting : List (BitVec 512)
deriving DecidableEq, Repr

/-! Tasks and the package. A task is listed under the key asid * 2^32 + its identifier (R284: an identifier is one task's within an address
space). -/

/-- R85: a bucket table: capacities with their targets, in rising order, and the overflow target. -/
structure Bucket where
  caps : List (Word × Word)
  overflow : Word
deriving DecidableEq, Repr

/-- R85: the table of a task that has none. -/
def Bucket.reset : Bucket := { caps := [], overflow := 0 }

/-- R282: an edge entry: the producer task, and the views named. -/
structure Edge where
  ptask : Word
  evmask : BitVec 16
deriving DecidableEq, Repr

/-- R282: a ring entry. -/
structure RingEntry where
  ring : Nat
  cstr : Nat
  pstr : Nat
  pext : Bool
  nslot : BitVec 7
  base : BitVec 10
  ppkg : BitVec 10
  pseq : BitVec 11
deriving DecidableEq, Repr

/-- R281, R282: what a launch record says, with its bytes. -/
structure LaunchRec where
  entry : Word
  taskId : Word
  teams : Nat
  spt : Nat
  prio : Nat
  ckpt : Bool
  kill : Bool
  cohort : Bool
  lenient : Bool
  cool : Nat
  edges : List Edge
  rings : List RingEntry
  vmask : BitVec 16
  tokens : Nat
  est : BitVec 64
  arg : BitVec 64
  maph : Word
  ckh : Word
  views : Vector View 16
  buckets : Sparse Bucket
  bytes : List Byte
deriving DecidableEq, Repr

/-- Where a team stands: waiting in the order of a die (the one it was sent to, or its home die), on a quad with a mask of cores, landing
there for a checkpoint (R302), out with a checkpoint (R303), or ended. -/
inductive TeamPhase where
  | waiting
  | placed
  | landing
  | out
  | ended
deriving DecidableEq, Repr

/-- R342: what firmware memory keeps of a strand that is out, beside its block (R305): its counters, its ticks, the BAR that holds its next
bundle (R308), the entries that its mappings hold (R80), its open regions, innermost first (the views opened and retired in them, R201), its loop levels with the
bodies in its loop buffer (R51), and its open views, which its kill retires (R301). -/
structure SavedStrand where
  strand : Nat
  counters : Vector (BitVec 48) 126
  ticks : Nat
  barWait : Option (Nat × Word)
  held30 : Option Word
  held31 : Option Word
  regions : List Region
  loops : List LoopLevel
  opened : List View
deriving DecidableEq, Repr

/-- R342: the registers of a core whose team is out. -/
structure SavedCore where
  core : Nat
  stalls : Vector Word 4
  placed : Vector (BitVec 64) 5
deriving DecidableEq, Repr

/-- R342: what firmware memory keeps of a team that is out. -/
structure SavedTeam where
  strands : List SavedStrand
  cores : List SavedCore
deriving DecidableEq, Repr

/-- A team of a task (R288, R289): the die it was sent to, its phase, its quad (package number) and mask of cores, the strands that have not
ended, whether it has taken a lease (AVALID, R304), and the dies among which it may be sent, those of its map entry's greatest count at the launch (log 120). -/
structure Team where
  die : Option Nat
  phase : TeamPhase
  quad : Nat
  mask : BitVec 4
  live : BitVec 8
  leased : Bool
  saved : SavedTeam
  choices : List Nat := List.range 16
deriving DecidableEq, Repr

/-- A team that has not been placed. -/
def Team.reset (n : Nat) : Team :=
  { die := none, phase := .waiting, quad := 0, mask := 0, live := BitVec.ofNat 8 (2 ^ n - 1), leased := false,
    saved := { strands := [], cores := [] } }

/-- A task from its launch to its COMPLETE or KILLED event. `order` counts launches (R289), `dies` lists the dies where its launch views are
registered (R291), `ckBase` is the BASE of CKH (R300), `poisoned` the views that open poisoned (R293), `replay` the offset of its replay
entry (R344), `host` the host queue and entry that launched it (R323). -/
structure Task where
  asid : Nat
  home : Nat
  order : Nat
  info : LaunchRec
  start : BitVec 64
  parked : Bool
  killed : Bool
  tokens : Nat
  teams : List Team
  dies : List Nat
  ckBase : Nat
  ckPinned : Bool
  poisoned : BitVec 16
  replay : Option Nat
  host : Option (Nat × Nat)
  awaits : List Nat := []
deriving DecidableEq, Repr

/-- R299, R300: a decision in progress on a die: its code (SCHEDSTAT.DECIDE), the newcomer (task key and team), the victim's key, the
affected teams, and GT when it was taken. -/
structure Decision where
  code : Nat
  newTask : Nat
  newTeam : Nat
  victim : Nat
  teams : List Nat
  since : BitVec 64
deriving DecidableEq, Repr

/-- R343, R344: a trace record that is written once a write, numbered as an operation, has performed: its kind and payload. -/
structure DueRecord where
  op : Nat
  kind : Nat
  load : BitVec 64
deriving DecidableEq, Repr

/-- R337, R340, R341: the trace unit. `due` has the records that wait for a write (R343, R344), `fresh` says that the next record is the first after the enable, `resync` that it is the first after
a power-up, `last` is the stamp of the previous record. -/
structure Trace where
  sen : Bool
  slog : Nat
  logsz : Nat
  en : Bool
  base : BitVec 64
  rd : Word
  wr : Word
  last : BitVec 64
  fresh : Bool
  resync : Bool
  dropped : Nat
  due : List DueRecord := []
deriving DecidableEq, Repr

/-- R343: sums of counters: eighteen slot counters, five placement counters, the stall sum. -/
structure Sums where
  slots : List Nat
  placed : List (Nat × Nat)
  stall : Nat
deriving DecidableEq, Repr

/-- R343: the capture of a die: the block's address (TRCAPA), and the open capture's task, its key where a task had the identifier at CAPSTART, start sums, the sums of what has ended inside the
interval, the CHECKPOINTED events, and T at start. -/
structure Capture where
  addr : BitVec 64
  task : Option Word
  key : Option Nat
  start : Sums
  ended : Sums
  preempt : Nat
  begun : BitVec 64
deriving DecidableEq, Repr

/-- R344: the replay unit. -/
structure Replay where
  asid : Nat
  log : Nat
  skipped : BitVec 16
  mode : Nat
  base : BitVec 64
  cmp : Word
  next : Word
deriving DecidableEq, Repr

/-- R263, R349: an invalidation in progress: of an address space, or, with `dest`, of pages of a destination. -/
structure Invalidation where
  dest : Option Nat
  asid : Nat
  size : Nat
  vpn : Nat
deriving DecidableEq, Repr

/-- R358-R360: how far a die's boot has come: before the verdict, failed, or steward started. -/
inductive BootPhase where
  | waiting
  | failed
  | started
deriving DecidableEq, Repr

/-- R358: a launch that a die's scheduler has not accepted yet: its address space, record, start and host queue entry. -/
structure AskedLaunch where
  asid : Nat
  record : List Byte
  start : BitVec 64
  host : Option (Nat × Nat)
deriving DecidableEq, Repr

/-- A die's registers (R263, R270, R298, R337, R343, R344, R360, R361). `low` holds the low words last written through the register view, and `asked`
the launches that wait for GO, oldest first. -/
structure Die where
  boot : BootPhase
  svn : Word
  go : Bool
  fail : Bool
  code : Nat
  digest : List Byte
  xlinv : Option Invalidation
  ringWait : BitVec 20
  drainLimit : BitVec 64
  killCost : Word
  ckptCost : Word
  pperiod : Word
  decision : Option Decision
  trace : Trace
  capture : Capture
  replay : Replay
  low : Sparse Word
  asked : List AskedLaunch := []
deriving DecidableEq, Repr

/-- R343: no sums. -/
def Sums.zero : Sums := { slots := List.replicate 18 0, placed := List.replicate 5 (0, 0), stall := 0 }

/-- The resets of a die's registers. -/
def Die.reset : Die :=
  { boot := .waiting, svn := 0, go := false, fail := false, code := 0, digest := List.replicate 64 0, xlinv := none, ringWait := 4096,
    drainLimit := 1000000, killCost := 400, ckptCost := 100, pperiod := 100000, decision := none,
    trace := { sen := false, slog := 10, logsz := 16, en := false, base := 0, rd := 0, wr := 0, last := 0, fresh := false,
               resync := true, dropped := 0 },
    capture := { addr := 0, task := none, key := none, start := Sums.zero, ended := Sums.zero, preempt := 0, begun := 0 },
    replay := { asid := 0, log := 24, skipped := 0, mode := 0, base := 0, cmp := 0, next := 0 }, low := [] }

/-- R258, R259: the registers of a slice; `old` has the ways that a change in progress takes out of scratch. -/
structure Slice where
  scratch : BitVec 16
  scratchBusy : Bool
  old : BitVec 16
  entering : BitVec 16
  remoteWays : Nat
  remoteBusy : Bool
  pfDrop : Word
  fwdHit : Word
  lines : List Nat
deriving DecidableEq, Repr

/-- R258: the resets of a slice's registers. -/
def Slice.reset : Slice :=
  { scratch := 0x00FF, scratchBusy := false, old := 0, entering := 0, remoteWays := 0, remoteBusy := false, pfDrop := 0, fwdHit := 0,
    lines := [] }

/-- R332: an entry of the Coolant Allocation Table. -/
structure CatEntry where
  task : Word
  units : Nat
deriving DecidableEq, Repr

/-- R330, R332, R336: a coolant zone: its registers, how long a condition has held (ns), and the evacuation step in progress with the time it
has lasted and the pressure at the start of step 5. -/
structure Zone where
  thr : Nat
  valve : Nat
  thrHot : Nat
  dryP : Nat
  toutMax : Nat
  flowMin : Nat
  press : Nat
  flow : Nat
  tout : Nat
  tin : Nat
  dr : Bool
  ot : Bool
  lf : Bool
  step : Nat
  mode : Nat
  drainMs : Nat
  decayMax : Nat
  decayMs : Nat
  purgeMs : Nat
  cap : Nat
  catq : Sparse CatEntry
  lowFor : Nat
  dryFor : Nat
  goodFor : Nat
  stepFor : Nat
  pressAt : Nat
deriving DecidableEq, Repr

/-- The resets of a zone's registers; ZSENS has none (log 1). -/
def Zone.reset : Zone :=
  { thr := 0, valve := 0x80, thrHot := 4, dryP := 50, toutMax := 0x0410, flowMin := 8, press := 0, flow := 0, tout := 0, tin := 0,
    dr := false, ot := false, lf := false, step := 0, mode := 0, drainMs := 200, decayMax := 5, decayMs := 1000, purgeMs := 2000, cap := 16,
    catq := [], lowFor := 0, dryFor := 0, goodFor := 0, stepFor := 0, pressAt := 0 }

/-- R308: a barrier: its arrival count and its generation. -/
structure Barrier where
  count : Nat
  gen : BitVec 7
deriving DecidableEq, Repr

/-- R328: a mesh message of a barrier: an arrival on its way to the home die, or a completion on its way to a die. -/
structure BarrierMsg where
  id : Nat
  key : Nat
  die : Nat
  arrival : Bool
  src : Nat := 0
deriving DecidableEq, Repr

/-- R323: a host queue entry that the device has read and that has not been passed by DONE. -/
structure HostEntry where
  index : Nat
  kind : Nat
  status : Option Nat
  written : Bool
deriving DecidableEq, Repr

/-- R324-R326: a host queue. `slot` counts the entries read since it was given an active slot. -/
structure HostQueue where
  base : BitVec 64
  valid : Bool
  err : Bool
  asid : Nat
  die : Nat
  logn : Nat
  done : Word
  head : Word
  tail : Word
  entries : List HostEntry
  slot : Option Nat
deriving DecidableEq, Repr

/-- R324: the resets of a host queue. -/
def HostQueue.reset : HostQueue :=
  { base := 0, valid := false, err := false, asid := 0, die := 0, logn := 4, done := 0, head := 0, tail := 0, entries := [], slot := none }

/-- R347: a destination. -/
structure PodDest where
  valid : Bool
  fenced : Bool
  stav : Bool
  lasid : Nat
  rasid : Nat
  atom : BitVec 8
  pend : Nat
deriving DecidableEq, Repr

/-- R347: the resets of a destination entry. -/
def PodDest.reset : PodDest := { valid := false, fenced := false, stav := false, lasid := 0, rasid := 0, atom := 0, pend := 0 }

/-- R356, R357: a group entry, and the arrivals that the master has counted: barrier identifier and member package. -/
structure Group where
  valid : Bool
  master : Nat
  npkg : Nat
  task : Word
  arrived : List (Nat × Nat)
deriving DecidableEq, Repr

/-- R356: the resets of a group entry. -/
def Group.reset : Group := { valid := false, master := 0, npkg := 0, task := 0, arrived := [] }

/-- R350, R352: what a request to a destination asks: a read of bytes, a write of bytes, an atomic with its operation and operands (a UALink atomic, or the
device's own message; `elem` numbers an ARED's element), a message, a slot of a ring for one, or a translation. -/
inductive RequestKind where
  | read (addrs : List Nat)
  | write (cells : List Host.Cell)
  | atomic (addr : Nat) (op : AtomicOp) (x y : Word) (mode : BitVec 2) (own : Bool) (elem : Nat)
  | message (ring : Word) (row : Row)
  | ringSlot (ring : Word)
  | translation (die asid vpn va : Nat)
deriving DecidableEq, Repr

/-- R350-R353: a request to another package: the operation it is of, its destination and class, whether it is sent (and when) and answered,
whether with poison, and the answer's bytes. -/
structure Request where
  id : Nat
  op : Nat
  dest : Nat
  cls : BitVec 4
  sent : Option (BitVec 64)
  answered : Bool
  poison : Bool
  answer : List Byte
  kind : RequestKind
deriving DecidableEq, Repr

/-- R346, R352: a request that has arrived from another package: its stream, and what it asks; `other` is every other request kind of UALink. -/
inductive IncomingKind where
  | read (va n : Nat)
  | write (va : Nat) (l : List Byte)
  | atomic (op : AtomicOp) (va : Nat) (x y : Word) (mode : BitVec 2)
  | message (ring : Word) (row : Row) (pseq : Nat)
  | slot (ring : Word) (pseq : Nat)
  | other
deriving DecidableEq, Repr

structure Incoming where
  id : Nat
  dest : Nat
  cls : BitVec 4
  kind : IncomingKind
deriving DecidableEq, Repr

/-- R349, R353: a response that this package owes to another, with the time since it stands, its bytes, and whether it is an error. -/
structure Owed where
  id : Nat
  dest : Nat
  since : BitVec 64
  error : Bool
  bytes : List Byte
deriving DecidableEq, Repr

/-- A message that the package has sent to another: a time message (R355), a barrier's arrival or completion (R357), a translation request's
answer (R349: the page number and whether it may be written), an invalidation (R349), or the answer to one. -/
inductive PodMsg where
  | time (dest : Nat) (gt : BitVec 64)
  | arrival (dest group : Nat)
  | completion (dest group : Nat)
  | translation (dest vpn : Nat) (found writable : Bool)
  | invalidation (dest vpn size : Nat)
  | invalidated (dest : Nat)
deriving DecidableEq, Repr

/-- R347, R355: the pod registers and the state of the time lock; `served` lists the destinations that have been given translations (R349),
`answers` the destinations to which an invalidation of theirs is still to be answered, `waits` the invalidations sent that a destination has not answered,
oldest first, with the die whose XLINV waits, `outbox` the messages sent, oldest first, and `timeSent` GT at the time master's last messages. -/
structure Pod where
  linkEn : Bool
  gtMaster : Bool
  id : BitVec 10
  rtimeout : Word
  up : BitVec 16
  dests : Sparse PodDest
  groups : Sparse Group
  requests : List Request
  incoming : List Incoming
  owed : List Owed
  served : List (Nat × Nat × Nat)
  answers : List Nat
  waits : List (Nat × Nat × Invalidation)
  outbox : List PodMsg
  locked : Bool
  small : Nat
  slow : Nat
  timeSent : Option (BitVec 64)
deriving DecidableEq, Repr

/-- The resets of the pod registers. GT counts as locked once the clocks have, since no DEST entry is VALID then, and it stays locked (R355, log 8). -/
def Pod.reset : Pod :=
  { linkEn := false, gtMaster := false, id := 0, rtimeout := 50000, up := 0, dests := [], groups := [], requests := [], incoming := [],
    owed := [], served := [], answers := [], waits := [], outbox := [], locked := true, small := 0, slow := 0, timeSent := none }

/-- R362: the attestation registers. -/
structure Attest where
  err : Bool
  busy : Bool
  nonce : Vector (BitVec 64) 4
  dest : BitVec 64
deriving DecidableEq, Repr

/-- R362: their resets. -/
def Attest.reset : Attest := { err := false, busy := false, nonce := Vector.replicate 4 0, dest := 0 }

/-! The whole. -/

/-- Why a step ends in a fault. -/
inductive Fault where
  /-- Machine/Step.lean: the stream to run is no sequencer of the package (R2). Every fault that the spec describes is an exception that a
  next state has taken. Safe. -/
  | noSuchSequencer
deriving DecidableEq, Repr

/-- Why a step is refused. -/
inductive Refusal where
  /-- An arm of Machine/Dispatch.lean that has no meaning yet. Safe: nothing is said of the instruction. -/
  | notModelled (mnemonic : String)
  /-- Machine/Step.lean: the agenda names a term that is no instruction of the machine. Safe: such an input does not occur. -/
  | illFormed
deriving DecidableEq, Repr

/-- R9: a write that arrives on the register bus: the unit (a die, core, sequencer, queue, zone or destination, as the step's docstring
says), the register or offset in it, and the value. -/
structure BusWrite where
  unit : Nat
  reg : Nat
  val : Nat
deriving DecidableEq, Repr

/-- What the outside world, or an agent of the machine, does next. -/
inductive Input where
  /-- A step of the package, whatever agent takes it. -/
  | event (i : Instr)
  /-- A register write, and the step that it is. -/
  | write (i : Instr) (b : BusWrite)
  /-- Time passes: nanoseconds of GT, and cycles of the main clock. -/
  | elapse (ns cycles : Nat)
  /-- R196, R184: a location holds an uncorrectable error from now on. -/
  | damage (loc : Nat)
  /-- R184: the page-table entry for a 64 KiB page of an address space holds an uncorrectable error from now on. -/
  | damageTable (asid vpn : Nat)
  /-- R261: a demand fill evicts the line that a prefetch fill of a slice (32 * die + slice) targets in the same cycle. -/
  | dropPrefetch (slice : Nat)
  /-- R352: a request arrives from another package. -/
  | arrive (r : Incoming)
  /-- R353: another package accepts the response owed to it. -/
  | accepted (id : Nat)
  /-- R358: the image in the boot flash, or at the host die. -/
  | image (host : Bool) (l : List Byte)
  /-- R351: the bytes with which a destination answers a request: the event REMOTE_RESPONSE takes them. -/
  | answer (req : Nat) (l : List Byte)
  /-- R322, R287: the host or the loader writes bytes at a location. -/
  | hostStore (loc : Nat) (l : List Byte)
  /-- R185, R317: the host runtime puts a page into the tables of an address space, in place of the pages that it overlaps, or takes one away. -/
  | mapPage (p : Page)
  | unmapPage (asid va : Nat)
  /-- R152: the host runtime or the loader allocates a handle. -/
  | allocate (asid index base size tier die : Nat)
  /-- R152: the host runtime fixes HTLOG of an address space. -/
  | addressSpace (asid log : Nat)
deriving DecidableEq, Repr

/-- The package. Tables list records by number (tasks by key, cores and quads as above; zones by zone, slices by 32 * die + slice, handle
entries by address space * 2^20 + index); `damaged` lists the locations and `badTables` the page-table entries (address space, page number)
that hold an uncorrectable error (R184, R196); `ops` holds the operations in flight in issue order, `forwards` the writes that proxies have forwarded, `killed` lists the tasks whose last run ended in a kill (R293), `nextOp` numbers operations, forwards, requests and messages;
`fuse` is the security version raised by SVNSET; `cur` is the stream that runs; `free` counts free values (log 4); `agenda` says what moves next (log 2). -/
structure State where
  seqs : Sparse Seq
  cores : Sparse CoreState
  quads : Sparse Quad
  mem : List Host.Cell
  pages : List Page
  handles : Sparse HandleEntry
  htlog : Sparse Nat
  damaged : List Nat
  badTables : List (Nat × Nat)
  forwards : List Forward
  flock : Sparse (List FlockEntry)
  poison : Sparse (List PoisonRecord)
  tlb : Sparse (List CacheEntry)
  walks : Sparse (List (Nat × Nat))
  slices : Sparse Slice
  ops : List Op
  nextOp : Nat
  events : Sparse EventQueue
  gt : Sparse (BitVec 64)
  tasks : Sparse Task
  killed : List Nat
  launches : Nat
  dies : Sparse Die
  zones : Sparse Zone
  bars : Sparse Barrier
  barMsgs : List BarrierMsg
  hqs : Sparse HostQueue
  admitted : Nat
  pod : Pod
  attest : Attest
  flash : List Byte
  hostImage : List Byte
  fuse : Nat
  powered : Bool
  bus : BusWrite
  agenda : List Input
  cur : Nat
  free : Nat
deriving DecidableEq, Repr

/-- The machine right after reset: every table at its resets, memory scrubbed, nothing in flight. A value that the spec does not give is one of
log 1. -/
def State.reset : State :=
  { seqs := [], cores := [], quads := [], mem := [], pages := [], handles := [], htlog := [], damaged := [], badTables := [], forwards := [],
    flock := [], poison := [], tlb := [], walks := [], slices := [], ops := [], nextOp := 0, events := [], gt := [],
    tasks := [], killed := [], launches := 0, dies := [], zones := [], bars := [], barMsgs := [], hqs := [], admitted := 1023, pod := Pod.reset,
    attest := Attest.reset, flash := [], hostImage := [], fuse := 0, powered := true,
    bus := { unit := 0, reg := 0, val := 0 }, agenda := [], cur := 0, free := 0 }

end Sys2Proof.Machine
end

