-- ==== Sys2Proof/Machine/Operands.lean ====
section
/-! DEFINITION. Sys2Proof/Machine/Operands.lean: what the fields of an instruction name: the operands it reads (R17, R20, R28), the
register, predicate, tile or other state it writes, and whether its result enters the pending-write queue (R54). -/

namespace Sys2Proof.Machine

/-- The source field code of the register that a destination field names (R20). -/
def regField (d : BitVec 6) : BitVec 6 := d &&& 31

/-- R28: the source field code of s(16 + f). -/
def highReg (f : BitVec 4) : BitVec 6 := BitVec.ofNat 6 (16 + f.toNat)

/-- R29, R268: the register that ACAS compares, s(2k) for a field of value k; the suppress bit is the field's bit 4. -/
def acasReg (d : BitVec 5) : BitVec 6 := BitVec.ofNat 6 (d.toNat % 16 * 2)

/-- R19, R268: the destination field that the five bits of ACAS stand for. -/
def acasDest (d : BitVec 5) : BitVec 6 := BitVec.ofNat 6 (d.toNat * 2)

/-- R17, R20, R28: the source fields that an instruction reads, as codes of R17. A destination that is also read stands as its register. -/
def sourcesOf (i : Instr) : List (BitVec 6) :=
  match i with
  | .add _ _ _ a b => [a, b]
  | .sub _ _ _ a b => [a, b]
  | .and _ _ _ a b => [a, b]
  | .or _ _ _ a b => [a, b]
  | .xor _ _ _ a b => [a, b]
  | .shl _ _ _ a b => [a, b]
  | .shr _ _ _ a b => [a, b]
  | .sra _ _ _ a b => [a, b]
  | .min _ _ _ a b => [a, b]
  | .max _ _ _ a b => [a, b]
  | .minu _ _ _ a b => [a, b]
  | .maxu _ _ _ a b => [a, b]
  | .mov _ _ _ a => [a]
  | .addsh _ _ _ a b _ => [a, b]
  | .clz _ _ _ a => [a]
  | .mul _ _ _ a b => [a, b]
  | .mulh _ _ _ a b => [a, b]
  | .mulhu _ _ _ a b => [a, b]
  | .divu _ _ _ a b => [a, b]
  | .remu _ _ _ a b => [a, b]
  | .addi _ _ d _ => [regField d]
  | .andi _ _ d _ => [regField d]
  | .ori _ _ d _ => [regField d]
  | .xori _ _ d _ => [regField d]
  | .shli _ _ d _ => [regField d]
  | .shri _ _ d _ => [regField d]
  | .srai _ _ d _ => [regField d]
  | .movh _ _ d _ => [regField d]
  | .ctlwr _ _ src _ => [src]
  | .cmp _ _ _ _ a b => [a, b]
  | .cmpi _ _ _ _ a _ => [a]
  | .sld _ _ _ a _ => [a]
  | .sst _ _ src a _ => [src, a]
  | .qmap _ _ _ a => [a]
  | .jr _ a => [a]
  | .callr _ a => [a]
  | .loop _ a _ => [a]
  | .bktj _ a _ => [a]
  | .waitgt _ a b => [a, b]
  | .setest _ a b => [a, b]
  | .setts _ a b => [a, b]
  | .launch _ a _ => [a]
  | .vbcs _ _ _ _ sn _ => [highReg sn]
  | .vext _ _ _ _ _ sn _ => [highReg sn]
  | .vins _ _ _ _ sv sn _ => [highReg sv, highReg sn]
  | .vlsh _ _ _ _ _ sn _ => [highReg sn]
  | .vadds _ _ _ _ _ sn _ => [highReg sn]
  | .vmuls _ _ _ _ _ sn _ => [highReg sn]
  | .vfmas _ _ _ _ _ sn _ => [highReg sn]
  | .tld _ _ _ a _ _ => [a]
  | .tst _ _ _ a _ _ => [a]
  | .tgath _ _ _ a _ _ => [a]
  | .tscat _ _ _ a _ _ => [a]
  | .pref _ _ a => [a]
  | .tspld _ _ a => [a]
  | .tspst _ _ a => [a]
  | .ared _ _ _ a _ _ => [a]
  | .tcopy _ _ _ a _ _ => [a]
  | .hfree _ a => [a]
  | .waitm _ d _ a _ _ => [d, a]
  | .aadd _ d _ a _ _ => [regField d, a]
  | .amin _ d _ a _ _ => [regField d, a]
  | .amax _ d _ a _ _ => [regField d, a]
  | .aminu _ d _ a _ _ => [regField d, a]
  | .amaxu _ d _ a _ _ => [regField d, a]
  | .aand _ d _ a _ _ => [regField d, a]
  | .aor _ d _ a _ _ => [regField d, a]
  | .axor _ d _ a _ _ => [regField d, a]
  | .axchg _ d _ a _ _ => [regField d, a]
  | .acas _ d _ a _ _ => [acasReg d, acasReg d + 1, a]
  | .aincb _ d _ a _ _ => [regField d, a]
  | .afadd _ d _ a _ _ => [regField d, a]
  | .afaddh _ d _ a _ _ => [regField d, a]
  | .ald _ _ _ a _ _ => [a]
  | .ast _ d _ a _ _ => [regField d, a]
  | .send _ a _ b _ => [a, b]
  | .mstatHandle _ a _ _ _ => [a]
  | .acczeroFp _ _ t => [highReg t]
  | .accnorm _ _ t _ _ => [highReg t]
  | .pabm _ a _ _ => [a]
  | .pbcast _ a _ _ => [a]
  | .pmac _ a _ _ => [a]
  | .pread _ a _ _ => [a]
  | .pexit _ a => [a]
  | .qld _ _ a _ => [a]
  | .qset _ _ a _ => [a]
  | .vfset _ _ _ a => [a]
  | .bndset _ _ a b => [a, b]
  | .vrow _ rd ra rb => [rd, ra, rb]
  | _ => []

/-- R19: the destination field of an instruction with a scalar result. -/
def scalarDest (i : Instr) : Option (BitVec 6) :=
  match i with
  | .add _ _ d _ _ => some d
  | .sub _ _ d _ _ => some d
  | .and _ _ d _ _ => some d
  | .or _ _ d _ _ => some d
  | .xor _ _ d _ _ => some d
  | .shl _ _ d _ _ => some d
  | .shr _ _ d _ _ => some d
  | .sra _ _ d _ _ => some d
  | .min _ _ d _ _ => some d
  | .max _ _ d _ _ => some d
  | .minu _ _ d _ _ => some d
  | .maxu _ _ d _ _ => some d
  | .mov _ _ d _ => some d
  | .addsh _ _ d _ _ _ => some d
  | .clz _ _ d _ => some d
  | .mul _ _ d _ _ => some d
  | .mulh _ _ d _ _ => some d
  | .mulhu _ _ d _ _ => some d
  | .divu _ _ d _ _ => some d
  | .remu _ _ d _ _ => some d
  | .movi _ _ d _ => some d
  | .addi _ _ d _ => some d
  | .andi _ _ d _ => some d
  | .ori _ _ d _ => some d
  | .xori _ _ d _ => some d
  | .shli _ _ d _ => some d
  | .shri _ _ d _ => some d
  | .srai _ _ d _ => some d
  | .movh _ _ d _ => some d
  | .lidx _ _ d _ => some d
  | .ctlrd _ _ d _ => some d
  | .gtlo _ _ d => some d
  | .gthi _ _ d => some d
  | .sld _ _ d _ _ => some d
  | .call _ _ => some 29
  | .callr _ _ => some 29
  | .vext _ _ _ sd _ _ _ => some (highReg sd)
  | .aadd _ d _ _ _ _ => some d
  | .amin _ d _ _ _ _ => some d
  | .amax _ d _ _ _ _ => some d
  | .aminu _ d _ _ _ _ => some d
  | .amaxu _ d _ _ _ _ => some d
  | .aand _ d _ _ _ _ => some d
  | .aor _ d _ _ _ _ => some d
  | .axor _ d _ _ _ _ => some d
  | .axchg _ d _ _ _ _ => some d
  | .acas _ d _ _ _ _ => some (acasDest d)
  | .aincb _ d _ _ _ _ => some d
  | .afadd _ d _ _ _ _ => some d
  | .afaddh _ d _ _ _ _ => some d
  | .ald _ d _ _ _ _ => some d
  | _ => none

/-- R77: the predicate that an instruction writes. -/
def predDest (i : Instr) : Option (BitVec 3) :=
  match i with
  | .cmp _ _ pd _ _ _ => some pd
  | .cmpi _ _ pd _ _ _ => some pd
  | .pand _ pd _ _ _ _ => some pd
  | .por _ pd _ _ _ _ => some pd
  | .pxor _ pd _ _ _ _ => some pd
  | _ => none

/-- R54, R57: the instruction has a fixed-latency result, which takes one entry of the pending-write queue. -/
def takesEntry (i : Instr) : Bool :=
  match i with
  | .add _ _ _ _ _ => true
  | .sub _ _ _ _ _ => true
  | .and _ _ _ _ _ => true
  | .or _ _ _ _ _ => true
  | .xor _ _ _ _ _ => true
  | .shl _ _ _ _ _ => true
  | .shr _ _ _ _ _ => true
  | .sra _ _ _ _ _ => true
  | .min _ _ _ _ _ => true
  | .max _ _ _ _ _ => true
  | .minu _ _ _ _ _ => true
  | .maxu _ _ _ _ _ => true
  | .mov _ _ _ _ => true
  | .addsh _ _ _ _ _ _ => true
  | .clz _ _ _ _ => true
  | .mul _ _ _ _ _ => true
  | .mulh _ _ _ _ _ => true
  | .mulhu _ _ _ _ _ => true
  | .divu _ _ _ _ _ => true
  | .remu _ _ _ _ _ => true
  | .movi _ _ _ _ => true
  | .addi _ _ _ _ => true
  | .andi _ _ _ _ => true
  | .ori _ _ _ _ => true
  | .xori _ _ _ _ => true
  | .shli _ _ _ _ => true
  | .shri _ _ _ _ => true
  | .srai _ _ _ _ => true
  | .movh _ _ _ _ => true
  | .lidx _ _ _ _ => true
  | .ctlrd _ _ _ _ => true
  | .gtlo _ _ _ => true
  | .gthi _ _ _ => true
  | .cmp _ _ _ _ _ _ => true
  | .cmpi _ _ _ _ _ _ => true
  | .sld _ _ _ _ _ => true
  | .call _ _ => true
  | .callr _ _ => true
  | .pand _ _ _ _ _ _ => true
  | .por _ _ _ _ _ _ => true
  | .pxor _ _ _ _ _ _ => true
  | .vadd _ _ _ _ _ _ _ => true
  | .vsub _ _ _ _ _ _ _ => true
  | .vmul _ _ _ _ _ _ _ => true
  | .vfma _ _ _ _ _ _ _ => true
  | .vmin _ _ _ _ _ _ _ => true
  | .vmax _ _ _ _ _ _ _ => true
  | .vabs _ _ _ _ _ _ => true
  | .vneg _ _ _ _ _ _ => true
  | .vmov _ _ _ _ _ _ => true
  | .vand _ _ _ _ _ _ _ => true
  | .vor _ _ _ _ _ _ _ => true
  | .vxor _ _ _ _ _ _ _ => true
  | .vshl _ _ _ _ _ _ _ => true
  | .vshr _ _ _ _ _ _ _ => true
  | .vsra _ _ _ _ _ _ _ => true
  | .vcmpeq _ _ _ _ _ _ _ => true
  | .vcmplt _ _ _ _ _ _ _ => true
  | .vcmple _ _ _ _ _ _ _ => true
  | .vsel _ _ _ _ _ _ _ => true
  | .vcvt _ _ _ _ _ _ _ => true
  | .vscl _ _ _ _ _ _ _ => true
  | .vclmp _ _ _ _ _ _ _ => true
  | .vexp2 _ _ _ _ _ _ => true
  | .vrcp _ _ _ _ _ _ => true
  | .vrsq _ _ _ _ _ _ => true
  | .vrsum _ _ _ _ _ _ => true
  | .vrmax _ _ _ _ _ _ => true
  | .vrmin _ _ _ _ _ _ => true
  | .vbcs _ _ _ _ _ _ => true
  | .vext _ _ _ _ _ _ _ => true
  | .vins _ _ _ _ _ _ _ => true
  | .vperm _ _ _ _ _ _ _ => true
  | .vlsh _ _ _ _ _ _ _ => true
  | .vpack _ _ _ _ _ _ _ => true
  | .vunpk _ _ _ _ _ _ _ => true
  | .vadds _ _ _ _ _ _ _ => true
  | .vmuls _ _ _ _ _ _ _ => true
  | .vfmas _ _ _ _ _ _ _ => true
  | .shpset _ _ _ _ => true
  | .shpcpy _ _ => true
  | .qld _ _ _ _ => true
  | .qset _ _ _ _ => true
  | .qzero _ _ => true
  | .vfset _ _ _ _ => true
  | .vfseti _ _ _ _ => true
  | .bndset _ _ _ _ => true
  | .bndoff _ _ => true
  | _ => false

/-- R129, R134-R150: the tiles whose rows a V-slot operation reads. -/
def vTilesRead (i : Instr) : List Nat :=
  match i with
  | .vadd _ _ _ _ ta tb _ => [ta.toNat, tb.toNat]
  | .vsub _ _ _ _ ta tb _ => [ta.toNat, tb.toNat]
  | .vmul _ _ _ _ ta tb _ => [ta.toNat, tb.toNat]
  | .vfma _ _ _ td ta tb _ => [ta.toNat, tb.toNat, td.toNat]
  | .vmin _ _ _ _ ta tb _ => [ta.toNat, tb.toNat]
  | .vmax _ _ _ _ ta tb _ => [ta.toNat, tb.toNat]
  | .vabs _ _ _ _ ta _ => [ta.toNat]
  | .vneg _ _ _ _ ta _ => [ta.toNat]
  | .vmov _ _ _ _ ta _ => [ta.toNat]
  | .vand _ _ _ _ ta tb _ => [ta.toNat, tb.toNat]
  | .vor _ _ _ _ ta tb _ => [ta.toNat, tb.toNat]
  | .vxor _ _ _ _ ta tb _ => [ta.toNat, tb.toNat]
  | .vshl _ _ _ _ ta tb _ => [ta.toNat, tb.toNat]
  | .vshr _ _ _ _ ta tb _ => [ta.toNat, tb.toNat]
  | .vsra _ _ _ _ ta tb _ => [ta.toNat, tb.toNat]
  | .vcmpeq _ _ _ _ ta tb _ => [ta.toNat, tb.toNat]
  | .vcmplt _ _ _ _ ta tb _ => [ta.toNat, tb.toNat]
  | .vcmple _ _ _ _ ta tb _ => [ta.toNat, tb.toNat]
  | .vsel _ _ _ td ta tb _ => [ta.toNat, tb.toNat, td.toNat]
  | .vcvt _ _ _ _ ta _ _ => [ta.toNat]
  | .vscl _ _ _ _ ta _ _ => [ta.toNat]
  | .vclmp _ _ _ _ ta _ _ => [ta.toNat]
  | .vexp2 _ _ _ _ ta _ => [ta.toNat]
  | .vrcp _ _ _ _ ta _ => [ta.toNat]
  | .vrsq _ _ _ _ ta _ => [ta.toNat]
  | .vrsum _ _ _ _ ta _ => [ta.toNat]
  | .vrmax _ _ _ _ ta _ => [ta.toNat]
  | .vrmin _ _ _ _ ta _ => [ta.toNat]
  | .vext _ _ _ _ ta _ _ => [ta.toNat]
  | .vins _ _ _ td _ _ _ => [td.toNat]
  | .vperm _ _ _ _ ta tb _ => [ta.toNat, tb.toNat]
  | .vlsh _ _ _ _ ta _ _ => [ta.toNat]
  | .vpack _ _ _ _ ta tb _ => [ta.toNat, tb.toNat]
  | .vunpk _ _ _ _ ta _ _ => [ta.toNat]
  | .vadds _ _ _ _ ta _ _ => [ta.toNat]
  | .vmuls _ _ _ _ ta _ _ => [ta.toNat]
  | .vfmas _ _ _ td ta _ _ => [ta.toNat, td.toNat]
  | _ => []

/-- R129: the tile whose row a V-slot operation writes. -/
def vTilesWritten (i : Instr) : List Nat :=
  match i with
  | .vadd _ _ _ td _ _ _ => [td.toNat]
  | .vsub _ _ _ td _ _ _ => [td.toNat]
  | .vmul _ _ _ td _ _ _ => [td.toNat]
  | .vfma _ _ _ td _ _ _ => [td.toNat]
  | .vmin _ _ _ td _ _ _ => [td.toNat]
  | .vmax _ _ _ td _ _ _ => [td.toNat]
  | .vabs _ _ _ td _ _ => [td.toNat]
  | .vneg _ _ _ td _ _ => [td.toNat]
  | .vmov _ _ _ td _ _ => [td.toNat]
  | .vand _ _ _ td _ _ _ => [td.toNat]
  | .vor _ _ _ td _ _ _ => [td.toNat]
  | .vxor _ _ _ td _ _ _ => [td.toNat]
  | .vshl _ _ _ td _ _ _ => [td.toNat]
  | .vshr _ _ _ td _ _ _ => [td.toNat]
  | .vsra _ _ _ td _ _ _ => [td.toNat]
  | .vcmpeq _ _ _ td _ _ _ => [td.toNat]
  | .vcmplt _ _ _ td _ _ _ => [td.toNat]
  | .vcmple _ _ _ td _ _ _ => [td.toNat]
  | .vsel _ _ _ td _ _ _ => [td.toNat]
  | .vcvt _ _ _ td _ _ _ => [td.toNat]
  | .vscl _ _ _ td _ _ _ => [td.toNat]
  | .vclmp _ _ _ td _ _ _ => [td.toNat]
  | .vexp2 _ _ _ td _ _ => [td.toNat]
  | .vrcp _ _ _ td _ _ => [td.toNat]
  | .vrsq _ _ _ td _ _ => [td.toNat]
  | .vrsum _ _ _ td _ _ => [td.toNat]
  | .vrmax _ _ _ td _ _ => [td.toNat]
  | .vrmin _ _ _ td _ _ => [td.toNat]
  | .vbcs _ _ _ td _ _ => [td.toNat]
  | .vins _ _ _ td _ _ _ => [td.toNat]
  | .vperm _ _ _ td _ _ _ => [td.toNat]
  | .vlsh _ _ _ td _ _ _ => [td.toNat]
  | .vpack _ _ _ td _ _ _ => [td.toNat]
  | .vunpk _ _ _ td _ _ _ => [td.toNat]
  | .vadds _ _ _ td _ _ _ => [td.toNat]
  | .vmuls _ _ _ td _ _ _ => [td.toNat]
  | .vfmas _ _ _ td _ _ _ => [td.toNat]
  | _ => []

/-- R124: the tiles that an M-slot or E-slot operation reads; those of a placed operation follow from its views. -/
def engineTilesRead (i : Instr) : List Nat :=
  match i with
  | .tst _ t _ _ _ _ => [t.toNat]
  | .tscat _ t _ _ _ _ => [t.toNat]
  | .tspst _ t _ => [t.toNat]
  | .ared _ t _ _ _ _ => [t.toNat]
  | .tmovt _ _ ts => [ts.toNat]
  | .send _ _ t _ _ => [t.toNat]
  | .mm _ _ t _ _ _ _ _ => [t.toNat]
  | .mmcmp _ _ t _ _ _ => [t.toNat]
  | .mstatTile _ t _ _ _ => [2 * t.toNat, 2 * t.toNat + 1]
  | .accld _ _ t _ _ _ _ => [t.toNat]
  | .accdrain _ _ _ _ _ _ q x => if x.getLsbD 0 then [8 + q.toNat] else []
  | .pabm _ _ t _ => [t.toNat]
  | .pbcast _ _ t _ => [t.toNat]
  | .pmac _ _ t _ => [t.toNat]
  | _ => []

/-- R124: the tiles that an M-slot or E-slot operation marks on the scoreboard; those of a placed operation follow from its view. -/
def engineTilesWritten (i : Instr) : List Nat :=
  match i with
  | .tld _ t _ _ _ _ => [t.toNat]
  | .tgath _ t _ _ _ _ => [t.toNat]
  | .tspld _ t _ => [t.toNat]
  | .tzero _ t => [t.toNat]
  | .tmovt _ t _ => [t.toNat]
  | .accdrain _ _ t _ _ _ _ _ => [t.toNat]
  | .pread _ _ t _ => [t.toNat]
  | _ => []

/-- R211: the array commands. -/
def isArrayCommand (i : Instr) : Bool :=
  match i with
  | .mm _ _ _ _ _ _ _ _ => true
  | .mmcmp _ _ _ _ _ _ => true
  | .mstatTile _ _ _ _ _ => true
  | .mstatHandle _ _ _ _ _ => true
  | .mswap _ => true
  | .lease _ => true
  | .lrel _ => true
  | .acczeroFp _ _ _ => true
  | .acczeroInt _ _ => true
  | .accld _ _ _ _ _ _ _ => true
  | .accnorm _ _ _ _ _ => true
  | .accchk _ _ => true
  | .accdrain _ _ _ _ _ _ _ _ => true
  | .fold _ _ _ _ => true
  | _ => false

/-- R274: the BANK commands. -/
def isBankCommand (i : Instr) : Bool :=
  match i with
  | .pabm _ _ _ _ => true
  | .pbcast _ _ _ _ => true
  | .pmac _ _ _ _ => true
  | .pread _ _ _ _ => true
  | .pexit _ _ => true
  | _ => false

/-- R24: a signed field of n bits as a 32-bit value, extended by XIMM's e where it is extended (R25). -/
def immSigned (n : Nat) (x : BitVec n) (e : Option (BitVec 20)) : Word :=
  match e with
  | none => x.signExtend 32
  | some k =>
    let m := n + 20
    let p := k.toNat * 2 ^ n + x.toNat
    if 32 ≤ m then BitVec.ofNat 32 p else (BitVec.ofNat m p).signExtend 32

/-- R24: an unsigned field of n bits as a 32-bit value, extended by XIMM's e where it is extended (R25). -/
def immUnsigned (n : Nat) (x : BitVec n) (e : Option (BitVec 20)) : Word :=
  match e with
  | none => x.setWidth 32
  | some k => BitVec.ofNat 32 (k.toNat * 2 ^ n + x.toNat)

end Sys2Proof.Machine
end

