-- ==== Sys2Proof/Machine/Sparse.lean ====
section
/-! DEFINITION. Sys2Proof/Machine/Sparse.lean: data by key, as lists of pairs with rising keys. A table keeps every pair written; a
sparse map drops a pair whose value is the default, so that equal contents are equal lists. -/

namespace Sys2Proof.Machine

/-- The value at key k, or d where no pair has the key. -/
def tget {α : Type} (d : α) (t : Sparse α) (k : Nat) : α :=
  match t with
  | [] => d
  | (k', v) :: rest => if k = k' then v else tget d rest k

/-- The table with v at key k. -/
def tput {α : Type} (t : Sparse α) (k : Nat) (v : α) : Sparse α :=
  match t with
  | [] => [(k, v)]
  | (k', v') :: rest =>
    if k < k' then (k, v) :: (k', v') :: rest
    else if k = k' then (k, v) :: rest
    else (k', v') :: tput rest k v

/-- The table without key k. -/
def tdel {α : Type} (t : Sparse α) (k : Nat) : Sparse α :=
  match t with
  | [] => []
  | (k', v) :: rest => if k = k' then tdel rest k else (k', v) :: tdel rest k

/-- The table has a pair with key k. -/
def thas {α : Type} (t : Sparse α) (k : Nat) : Bool :=
  match t with
  | [] => false
  | (k', _) :: rest => if k = k' then true else thas rest k

/-- The value at key k, if a pair has the key. -/
def tfind {α : Type} (t : Sparse α) (k : Nat) : Option α :=
  match t with
  | [] => none
  | (k', v) :: rest => if k = k' then some v else tfind rest k

/-- The sparse map with v at key k; the default is not kept. -/
def sput {α : Type} [DecidableEq α] (d : α) (t : Sparse α) (k : Nat) (v : α) : Sparse α :=
  if v = d then tdel t k else tput t k v

/-- The keys rise strictly from above the bound. -/
def risesFrom {α : Type} (b : Option Nat) (t : Sparse α) : Bool :=
  match t with
  | [] => true
  | (k, _) :: rest =>
    (match b with
      | none => true
      | some x => decide (x < k)) && risesFrom (some k) rest

/-- The canonical form of a sparse map: keys strictly rising, and no pair whose value is the default. -/
def sparseOk {α : Type} [DecidableEq α] (d : α) (t : Sparse α) : Bool :=
  risesFrom none t && t.all (fun p => decide (p.2 ≠ d))

/-- Element i of a vector; d beyond its end. -/
def vget {α : Type} {n : Nat} (d : α) (v : Vector α n) (i : Nat) : α := v[i]?.getD d

/-- The vector with x at i; unchanged when i is beyond its end. -/
def vput {α : Type} {n : Nat} (v : Vector α n) (i : Nat) (x : α) : Vector α n := v.setIfInBounds i x

/-- A list with x in place of element i. -/
def lput {α : Type} (l : List α) (i : Nat) (x : α) : List α :=
  match l, i with
  | [], _ => []
  | _ :: t, 0 => x :: t
  | h :: t, i + 1 => h :: lput t i x

end Sys2Proof.Machine
end

