-- ==== Sys2Proof/Machine/Ops.lean ====
section
/-! DEFINITION. Sys2Proof/Machine/Ops.lean: the named operations over the state: records by number, rows and scratchpad, memory cells, the
operands of an instruction, the pending-write queue, the position of a strand, the effects at the end of a tick, and the stop of a strand
(the fault path of R186-R192), written once for every cause. -/

namespace Sys2Proof.Machine

/-! Records by number. -/

def seqAt (s : State) (q : Nat) : Seq := tget Seq.reset s.seqs q
def setSeq (s : State) (q : Nat) (x : Seq) : State := { s with seqs := tput s.seqs q x }

/-- The stream that runs. -/
def me (s : State) : Seq := seqAt s s.cur
def setMe (s : State) (x : Seq) : State := setSeq s s.cur x

def coreAt (s : State) (k : Nat) : CoreState := tget CoreState.reset s.cores k
def setCore (s : State) (k : Nat) (x : CoreState) : State := { s with cores := tput s.cores k x }
def quadAt (s : State) (k : Nat) : Quad := tget Quad.reset s.quads k
def setQuad (s : State) (k : Nat) (x : Quad) : State := { s with quads := tput s.quads k x }

/-- The core of a sequencer. -/
def coreOf (q : Nat) : Nat := q / 2
/-- R297: the core is a steward core. -/
def isSteward (k : Nat) : Bool := decide (1024 ≤ k)
/-- The die of a core. -/
def dieOfCore (k : Nat) : Nat := if k < 1024 then k / 64 else k - 1024
/-- The die of a sequencer. -/
def dieOf (q : Nat) : Nat := dieOfCore (coreOf q)
/-- The quad of a quad core. -/
def quadOf (q : Nat) : Nat := coreOf q / 4
/-- The core of the running stream. -/
def myCore (s : State) : CoreState := coreAt s (coreOf s.cur)
def setMyCore (s : State) (x : CoreState) : State := setCore s (coreOf s.cur) x
/-- GT of a die (R327). -/
def gtAt (s : State) (die : Nat) : BitVec 64 := tget 0 s.gt die

def dieAt (s : State) (d : Nat) : Die := tget Die.reset s.dies d
def setDie (s : State) (d : Nat) (x : Die) : State := { s with dies := tput s.dies d x }

/-- The key of a task: an identifier within an address space (R284). -/
def taskKey (asid : Nat) (id : Word) : Nat := asid * 2 ^ 32 + id.toNat

/-- The key of a sequencer's task. -/
def taskOf (sq : Seq) : Nat := taskKey sq.asid sq.task

/-- R204: a core with FREEZE set in either sequencer is frozen. -/
def coreFrozen (s : State) (k : Nat) : Bool := (seqAt s (2 * k)).freeze || (seqAt s (2 * k + 1)).freeze

/-! Rows, scratchpad, tiles. -/

/-- n bits of a row from a bit on. -/
def rowField (r : Row) (bit n : Nat) : BitVec n := r.extractLsb' bit n

/-- A row with n bits from a bit on replaced. -/
def rowPut (r : Row) (bit n : Nat) (x : BitVec n) : Row :=
  (r &&& ~~~((BitVec.allOnes n).setWidth 2048 <<< bit)) ||| (x.setWidth 2048 <<< bit)

/-- Byte j of a row. -/
def rowByte (r : Row) (j : Nat) : Byte := rowField r (8 * j) 8

/-- The row of up to 256 bytes, the first at byte 0. -/
def rowOfBytes (l : List Byte) : Row :=
  match l with
  | [] => 0
  | b :: rest => (rowOfBytes rest <<< 8) ||| b.setWidth 2048

/-- The bytes of a row, byte 0 first. -/
def bytesOfRow (r : Row) : List Byte := (List.range 256).map (rowByte r)

/-- R114: row r of a core's tile t. -/
def tileRow (c : CoreState) (t r : Nat) : Row := tget 0 c.tiles (64 * t + r)
def putTileRow (c : CoreState) (t r : Nat) (x : Row) : CoreState := { c with tiles := sput 0 c.tiles (64 * t + r) x }

/-- The 64 rows of a tile. -/
def tileRows (c : CoreState) (t : Nat) : List Row := (List.range 64).map (tileRow c t)

/-- Rows from row r on written into a tile. -/
def putTileRows (c : CoreState) (t r : Nat) (l : List Row) : CoreState :=
  match l with
  | [] => c
  | x :: rest => putTileRows (putTileRow c t r x) t (r + 1) rest

/-- R158: the scratchpad row, byte and word at an address that does not straddle a 256-byte row. -/
def spadRow (c : CoreState) (k : Nat) : Row := tget 0 c.spad k
def spad8 (c : CoreState) (a : Nat) : Byte := rowField (spadRow c (a / 256)) (8 * (a % 256)) 8
def spad32 (c : CoreState) (a : Nat) : Word := rowField (spadRow c (a / 256)) (8 * (a % 256)) 32
def putSpadRow (c : CoreState) (k : Nat) (x : Row) : CoreState := { c with spad := sput 0 c.spad k x }
def putSpad32 (c : CoreState) (a : Nat) (x : Word) : CoreState :=
  putSpadRow c (a / 256) (rowPut (spadRow c (a / 256)) (8 * (a % 256)) 32 x)

/-- Bytes written into the scratchpad from an address on. -/
def putSpadBytes (c : CoreState) (a : Nat) (l : List Byte) : CoreState :=
  match l with
  | [] => c
  | b :: rest => putSpadBytes (putSpadRow c (a / 256) (rowPut (spadRow c (a / 256)) (8 * (a % 256)) 8 b)) (a + 1) rest

/-! Memory (R2, R317). A location is a number: 2^48 * u + p for the byte at physical address p of unit u, where unit d is the HBM of die d,
unit 16 + d the slices of die d, units 32 to 35 the LPDDR6 of the I/O dies, 36 and 37 the CXL ports, 38 host memory,
and unit 48 + d the register window of die d (R361), whose bytes are no memory. An unlisted location reads as zero (R358 scrubs HBM and slices; for the
second tier log 3). -/

/-- The location of a byte of a unit. -/
def location (unit p : Nat) : Nat := unit * 2 ^ 48 + p

/-- R317: the unit of a physical address of a tier and die, or store of the second tier; LPDDR6 is interleaved over the I/O dies by bits [13:12]. -/
def unitOf (tier die pa : Nat) : Nat :=
  if tier = 0 then die else if tier = 1 then 16 + die else if die = 0 then 32 + pa / 4096 % 4 else 35 + die

/-- The byte at a location. -/
def memByte (m : List Host.Cell) (loc : Nat) : Byte := tget 0 m loc

/-- The memory with a byte written. -/
def memPut (m : List Host.Cell) (loc : Nat) (b : Byte) : List Host.Cell := sput 0 m loc b

/-- The canonical form of memory: locations strictly rising, no zero byte listed. -/
def Memory.wf (m : List Host.Cell) : Bool := sparseOk 0 m

/-- Bytes written from a location on. -/
def memPutBytes (m : List Host.Cell) (loc : Nat) (l : List Byte) : List Host.Cell :=
  match l with
  | [] => m
  | b :: rest => memPutBytes (memPut m loc b) (loc + 1) rest

/-- Cells written in order. -/
def memPutCells (m : List Host.Cell) (l : List Host.Cell) : List Host.Cell :=
  match l with
  | [] => m
  | (a, b) :: rest => memPutCells (memPut m a b) rest

/-- n bytes from a location on. -/
def memBytes (m : List Host.Cell) (loc n : Nat) : List Byte :=
  match n with
  | 0 => []
  | n + 1 => memByte m loc :: memBytes m (loc + 1) n

/-- R12: n bytes of a number, the lowest first. -/
def leBytes (n x : Nat) : List Byte :=
  match n with
  | 0 => []
  | n + 1 => BitVec.ofNat 8 x :: leBytes n (x / 256)

/-- The number of little-endian bytes. -/
def natOfBytes (l : List Byte) : Nat :=
  match l with
  | [] => 0
  | b :: rest => b.toNat + 256 * natOfBytes rest

/-- The values of a list without repeats. -/
def distinct (l : List Nat) : List Nat :=
  match l with
  | [] => []
  | x :: rest =>
    let r := distinct rest
    if r.contains x then r else x :: r

/-! Homes, slices and the writes on their way (R257, R258, R264, R265, R275, R318-R320). -/

/-- R258: a slice's registers. -/
def sliceAt (s : State) (die k : Nat) : Slice := tget Slice.reset s.slices (die * 32 + k)
def setSlice (s : State) (die k : Nat) (x : Slice) : State := { s with slices := tput s.slices (die * 32 + k) x }

/-- R264, R318: the die that a location is homed on; none for the second tier. -/
def homeDie (loc : Nat) : Option Nat :=
  let u := loc / 2 ^ 48
  if u < 16 then some u else if u < 32 then some (u - 16) else none

/-- R318: the home of a location as a number: its die, or, in the second tier, the controller that holds it: an I/O die's LPDDR6 (32 to 35), a CXL
port (36, 37) or the host (38). -/
def homeOf (loc : Nat) : Nat := (homeDie loc).getD (loc / 2 ^ 48)

/-- R257: the slice of a location: bits [12:8]. -/
def sliceOf (loc : Nat) : Nat := loc / 256 % 32

/-- R265: the line of a location at its home slice. -/
def lineOf (loc : Nat) : Nat := loc / 256

/-- R265: an operation on a line at its home slice, among the slices; FWDHIT counts one on a line that the forwarding buffer of 8 lines holds, and a line that
the operation may change, or that the slice keeps nowhere else (R257), is in the buffer after it. The buffer is taken as one for a slice, which replaces the
line used longest ago, and an access as one operation for each of its lines (log 117). -/
def passedLine (t : Sparse Slice) (loc : Nat) (keeps : Bool) : Sparse Slice :=
  match homeDie loc with
  | none => t
  | some d =>
    let n := d * 32 + sliceOf loc
    let x := tget Slice.reset t n
    let hit := x.lines.contains (lineOf loc)
    let lines := if keeps then (lineOf loc :: x.lines.filter (fun y => y != lineOf loc)).take 8 else x.lines
    tput t n { x with lines := lines, fwdHit := if hit then x.fwdHit + 1 else x.fwdHit }

/-- R265: an operation on a line at its home slice. -/
def passLine (s : State) (loc : Nat) (keeps : Bool) : State := { s with slices := passedLine s.slices loc keeps }

/-- R265: an operation that changes a line. -/
def forwardLine (s : State) (loc : Nat) : State := passLine s loc true

/-- R257: a line of the HBM whose home slice has no cache ways: every access to it goes through the forwarding buffer. -/
def uncachedLine (s : State) (loc : Nat) : Bool :=
  decide (loc / 2 ^ 48 < 16) && (sliceAt s (loc / 2 ^ 48) (sliceOf loc)).scratch == BitVec.allOnes 16

/-- R257: the slices after accesses to lines of uncached slices, one for each line of a list of locations. -/
def passedUncached (s : State) (locs : List Nat) : Sparse Slice :=
  (distinct ((locs.filter (uncachedLine s)).map (fun l => lineOf l * 256))).foldl (fun t l => passedLine t l true) s.slices

/-- R257: accesses to a list of locations pass the forwarding buffers of uncached slices. -/
def passUncached (s : State) (locs : List Nat) : State := { s with slices := passedUncached s locs }

/-- R319: the newest byte of a location that a die's proxy has forwarded and the home has not performed. -/
def forwardedByte (l : List Forward) (die loc : Nat) : Option Byte :=
  match l with
  | [] => none
  | f :: rest =>
    match forwardedByte rest die loc with
    | some b => some b
    | none => if f.die = die then tfind f.cells.reverse loc else none

/-- R275: a strand in all-bank mode holds the pseudo-channel of a location. -/
def channelHeld (s : State) (loc : Nat) : Bool :=
  s.seqs.any (fun q => match q.2.bank with
    | some b => b.die == loc / 2 ^ 48 && b.channel == loc / 4096 % 64
    | none => false)

/-- R275: no strand is in all-bank mode. -/
def noChannelHeld (s : State) : Bool := s.seqs.all (fun q => q.2.bank.isNone)

/-- R275: a write on its way goes to a pseudo-channel that a strand holds. -/
def forwardHeld (s : State) (f : Forward) : Bool := f.cells.any (fun c => channelHeld s c.1)

/-- R318: a proxy slice and a home as one number. -/
def proxyKey (loc : Nat) : Nat := sliceOf loc * 64 + homeOf loc

/-- R318, R320: the forwards of a write, one for each proxy slice and home that it passes. -/
def newForwards (op die id : Nat) (ks : List Nat) (l : List Host.Cell) : List Forward :=
  match ks with
  | [] => []
  | k :: rest =>
    match l.filter (fun c => proxyKey c.1 == k) with
    | [] => newForwards op die id rest l
    | c => { id := id, op := op, die := die, slice := k / 64, cells := c } :: newForwards op die (id + 1) rest l

/-- The forwards of a write of a die for the cells homed away from it; none where there are no such cells. -/
def forwardsOf (op die id : Nat) (l : List Host.Cell) : List Forward :=
  match l.filter (fun c => homeDie c.1 != some die && decide (c.1 < location 48 0)) with
  | [] => []
  | away => newForwards op die id (distinct (away.map (fun c => proxyKey c.1))) away

/-- The number that stands for the die of an agent that is on none: the host, and the package's own units. -/
def noDie : Nat := 16

/-- R257, R275: cells that an agent of no die, or a unit of the package, writes at their homes; a cell whose pseudo-channel is held waits there for the PEXIT. -/
def writeHome (s : State) (l : List Host.Cell) : State :=
  if noChannelHeld s then { s with mem := memPutCells s.mem l, slices := passedUncached s (l.map Prod.fst) }
  else
    let now := l.filter (fun c => !channelHeld s c.1)
    let fs := forwardsOf s.nextOp noDie s.nextOp (l.filter (fun c => channelHeld s c.1))
    { s with mem := memPutCells s.mem now, slices := passedUncached s (now.map Prod.fst), forwards := s.forwards ++ fs, nextOp := s.nextOp + fs.length }

/-- The cells of bytes from a location on. -/
def cellsAt (loc : Nat) (l : List Byte) : List Host.Cell := ((List.range l.length).map (fun j => loc + j)).zip l

/-- A byte at its home as a unit of the package finds it, behind the writes of the units that wait there (R275). -/
def homeByte (s : State) (loc : Nat) : Byte := (forwardedByte s.forwards noDie loc).getD (memByte s.mem loc)

/-- n bytes at their home from a location on. -/
def homeBytes (s : State) (loc n : Nat) : List Byte := (List.range n).map (fun j => homeByte s (loc + j))

/-- The addresses at which n bytes from one on can be told apart by pieces of k: the first byte of each piece, and the first and the last byte. -/
def pieces (k a n : Nat) : List Nat :=
  if n = 0 then [] else a :: (List.range ((a + (n - 1)) / k - a / k)).map (fun j => (a / k + 1 + j) * k)

/-- R275: a strand holds the pseudo-channel of one of n bytes at their home; a pseudo-channel holds 4 KiB granules. -/
def homeHeld (s : State) (loc n : Nat) : Bool := !noChannelHeld s && (pieces 4096 loc n).any (channelHeld s)

/-- R257: a unit's read of n bytes at their home passes the forwarding buffers of uncached slices. -/
def passHome (s : State) (loc n : Nat) : State := passUncached s (pieces 256 loc n)

/-! The trace unit (R337-R341). -/

/-- R337: the records that the buffer holds. -/
def traceCapacity (t : Trace) : Nat := 2 ^ (t.logsz - 4)

/-- R341: the records free. -/
def traceFree (t : Trace) : Nat := traceCapacity t - (t.wr - t.rd).toNat

/-- R338, R339: a record as a number: PAYLOAD, WHERE, SLOT with SLOTV where the kind names a slot, KIND and DELTA. -/
def traceWord (kind delta : Nat) (payload : BitVec 64) (place : Word) (slot : Option (Nat × Bool)) : Nat :=
  payload.toNat * 2 ^ 64 + place.toNat * 2 ^ 32 + (match slot with
    | some (n, v) => (if v then 2 ^ 27 else 0) + n % 8 * 2 ^ 24
    | none => 0) + kind * 2 ^ 16 + delta

/-- R337, R341: a record goes into the buffer of a die, or is dropped and counted when the buffer is full. The buffer's addresses are not compared with the size
of the HBM (log 112). -/
def traceRaw (s : State) (d kind delta : Nat) (payload : BitVec 64) (place : Word) (slot : Option (Nat × Bool)) : State :=
  let x := dieAt s d
  let t := x.trace
  if traceFree t = 0 then setDie s d { x with trace := { t with dropped := t.dropped + 1 } }
  else
    let a := location d (t.base.toNat + 16 * (t.wr.toNat % traceCapacity t))
    setDie (writeHome s (cellsAt a (leBytes 16 (traceWord kind delta payload place slot)))) d
      { x with trace := { t with wr := t.wr + 1, last := gtAt s d, fresh := false } }

/-- R340, R341: a record stamped with GT; an ABS stands before it after a gap and at the first record since the enable. A full buffer takes neither, and the
record alone is counted (log 109). -/
def traceStamped (s : State) (d kind : Nat) (payload : BitVec 64) (place : Word) (slot : Option (Nat × Bool)) : State :=
  let t := (dieAt s d).trace
  let gap := (gtAt s d - t.last).toNat
  if (t.fresh || decide (65535 < gap)) && decide (0 < traceFree t) then
    let s1 := traceRaw s d 0x08 0 (gtAt s d) 0 none
    traceRaw s1 d kind 0 payload place slot
  else traceRaw s d kind gap payload place slot

/-- R355: GT is locked, and stays so: the package took its own time as the reference when its clocks locked, or three small corrections locked it (log 8). -/
def gtLocked (s : State) : Bool := s.pod.locked

/-- R340: the RESYNC after a power-up, once GT has locked, in place of the ABS. -/
def traceResync (s : State) (d : Nat) : State :=
  let x := dieAt s d
  if x.trace.en && x.trace.resync && gtLocked s && decide (0 < traceFree x.trace) then
    let s1 := traceRaw s d 0x0A 0 (gtAt s d) 0 none
    let y := dieAt s1 d
    setDie s1 d { y with trace := { y.trace with resync := false } }
  else s

/-- R341: LOST with the count, once three records are free, and the unit resumes. -/
def traceLost (s : State) (d : Nat) : State :=
  let x := dieAt s d
  if x.trace.en && decide (0 < x.trace.dropped) && decide (3 ≤ traceFree x.trace) && !x.trace.resync then
    traceStamped (setDie s d { x with trace := { x.trace with dropped := 0 } }) d 0x0B (BitVec.ofNat 64 x.trace.dropped) 0 none
  else s

/-- R337-R341: the trace unit of a die accepts a record, or drops and counts it. -/
def traceRecord (s : State) (d kind : Nat) (payload : BitVec 64) (place : Word) (slot : Option (Nat × Bool)) : State :=
  if !(dieAt s d).trace.en then s
  else
    let s1 := traceLost (traceResync s d) d
    let x := dieAt s1 d
    if x.trace.resync || decide (0 < x.trace.dropped) then
      setDie s1 d { x with trace := { x.trace with dropped := x.trace.dropped + 1 } }
    else traceStamped s1 d kind payload place slot

/-- R343, R344: a record that is written once a write, numbered n, has performed: now, or when no strand holds its pseudo-channel any more (R275). -/
def traceAfter (s : State) (d n kind : Nat) (payload : BitVec 64) : State :=
  let x := dieAt s d
  if s.forwards.any (fun f => f.op == n) then setDie s d { x with trace := { x.trace with due := x.trace.due ++ [{ op := n, kind := kind, load := payload }] } }
  else traceRecord s d kind payload 0 none

/-- R343, R344: the records of a die whose writes have performed. -/
def writeDue (s : State) (d : Nat) : State :=
  let x := dieAt s d
  let waits := fun (r : DueRecord) => s.forwards.any (fun f => f.op == r.op)
  (x.trace.due.filter (fun r => !waits r)).foldl (fun s r => traceRecord s d r.kind r.load 0 none)
    (setDie s d { x with trace := { x.trace with due := x.trace.due.filter waits } })

/-! Queue mappings (R79, R80). -/

/-- The mapping of s31 (hi) or s30. -/
def mapOf (sq : Seq) (hi : Bool) : Option QueueMap := if hi then sq.map31 else sq.map30
def setMap (sq : Seq) (hi : Bool) (m : Option QueueMap) : Seq :=
  if hi then { sq with map31 := m } else { sq with map30 := m }

/-- The scratchpad address of slot i of a ring (R270). -/
def ringSlot (r : Ring) (i : Nat) : Word := BitVec.ofNat 32 (r.base.toNat * 256 + 256 * i)

/-- R80: 1 when a mapping to queue n holds a popped entry of it. -/
def holdsOne (n : Nat) (m : Option QueueMap) : Nat :=
  match m with
  | some m => if m.ring = n ∧ m.held.isSome then 1 else 0
  | none => 0

/-- R80: the popped entries of queue n that the two streams of core k hold. -/
def heldCount (s : State) (k n : Nat) : Nat :=
  holdsOne n (seqAt s (2 * k)).map30 + holdsOne n (seqAt s (2 * k)).map31 + holdsOne n (seqAt s (2 * k + 1)).map30 +
    holdsOne n (seqAt s (2 * k + 1)).map31

/-- R80: the address of the oldest entry not yet popped of the queue that a register of sequencer q is mapped to. -/
def queueHead (s : State) (q : Nat) (m : QueueMap) : Option Word :=
  let held := heldCount s (coreOf q) m.ring
  if m.ring < 64 then
    let r := tget Ring.reset (coreAt s (coreOf q)).rings m.ring
    if r.count ≤ held then none else some (ringSlot r r.head)
  else
    let e := tget { head := 0, tail := 0, count := 0, waiting := [] } s.events (dieOf q)
    if e.count ≤ held then none else some (BitVec.ofNat 32 (0x30000 + 64 * e.head))

/-- R294: the event queue of a die. -/
def eventsAt (s : State) (die : Nat) : EventQueue := tget { head := 0, tail := 0, count := 0, waiting := [] } s.events die

/-- R294: a record put into the next slot of a die's event queue. -/
def pushEvent (s : State) (die : Nat) (rec : BitVec 512) : State :=
  let e := eventsAt s die
  let k := 1024 + die
  let c := putSpadBytes (coreAt s k) (0x30000 + 64 * e.tail) (leBytes 64 rec.toNat)
  let s1 := setCore s k c
  let s2 := { s1 with events := tput s1.events die { e with tail := (e.tail + 1) % 512, count := e.count + 1 } }
  traceRecord s2 die 0x03 ((rec.extractLsb' 32 32).setWidth 64 <<< 32 ||| (rec.setWidth 8).setWidth 64) 0 none

/-- R295: an event is posted; when the queue is full its source waits, and no event is lost. -/
def postEvent (s : State) (die : Nat) (rec : BitVec 512) : State :=
  let e := eventsAt s die
  if e.count < 512 ∧ e.waiting = [] then pushEvent s die rec
  else { s with events := tput s.events die { e with waiting := e.waiting ++ [rec] } }

/-- R295: a die's event queue has a free slot that no record waits for. -/
def eventRoom (s : State) (die : Nat) : Bool := decide ((eventsAt s die).count < 512) && (eventsAt s die).waiting.isEmpty

/-- R295: a freed slot goes to the oldest waiting record. -/
def drainEvents (s : State) (die : Nat) : State :=
  let e := eventsAt s die
  match e.waiting with
  | [] => s
  | rec :: rest =>
    if e.count < 512 then pushEvent { s with events := tput s.events die { e with waiting := rest } } die rec else s

/-- R80: the entry that a mapping holds returns to its queue. -/
def returnHeld (s : State) (q : Nat) (m : QueueMap) : State :=
  match m.held with
  | none => s
  | some _ =>
    if m.ring < 64 then
      let k := coreOf q
      let c := coreAt s k
      let r := tget Ring.reset c.rings m.ring
      setCore s k { c with rings := tput c.rings m.ring { r with count := r.count - 1 } }
    else
      let d := dieOf q
      let e := eventsAt s d
      drainEvents { s with events := tput s.events d { e with count := e.count - 1 } } d

/-- R80: a pop through the mapping of s31 (hi) or s30 of the running stream; nothing when it is unmapped or empty. -/
def popQueue (s : State) (hi : Bool) : State :=
  match mapOf (me s) hi with
  | none => s
  | some m =>
    match queueHead s s.cur m with
    | none => s
    | some a =>
      let s1 := returnHeld s s.cur m
      let s2 :=
        if m.ring < 64 then
          let k := coreOf s1.cur
          let c := coreAt s1 k
          let r := tget Ring.reset c.rings m.ring
          setCore s1 k { c with rings := tput c.rings m.ring { r with head := (r.head + 1) % (r.nslot.toNat + 1) } }
        else
          let d := dieOf s1.cur
          let e := eventsAt s1 d
          { s1 with events := tput s1.events d { e with head := (e.head + 1) % 512 } }
      setMe s2 (setMap (me s2) hi (some { m with held := some a }))

/-- R80: the pops of an instruction that reads the given source fields, s30 first. -/
def takePops (fs : List (BitVec 6)) (s : State) : State :=
  let s1 := if fs.contains 30 then popQueue s false else s
  if fs.contains 31 then popQueue s1 true else s1

/-- R80: an instruction that reads the given fields would pop an empty queue. -/
def popBlocked (s : State) (fs : List (BitVec 6)) : Bool :=
  let blocked := fun (hi : Bool) =>
    match mapOf (me s) hi with
    | none => false
    | some m => (queueHead s s.cur m).isNone
  (fs.contains 30 && blocked false) || (fs.contains 31 && blocked true)

/-! Operands. -/

/-- R17: the constant of a source code from 40 to 47. -/
def sourceConst (n : Nat) : Word :=
  match n with
  | 40 => 0
  | 41 => 1
  | 42 => 2
  | 43 => 4
  | 44 => 8
  | 45 => 16
  | 46 => 0xFFFFFFFF
  | _ => 0xFFFFFFFE

/-- R17, R80: Src(f): the operand of a source field. A mapped s30 or s31 reads the oldest entry, which takePops then pops. -/
def src (s : State) (f : BitVec 6) : Word :=
  let sq := me s
  let n := f.toNat
  if n < 32 then
    let queued :=
      if n = 30 ∨ n = 31 then
        (match mapOf sq (n == 31) with
          | none => none
          | some m => queueHead s s.cur m)
      else none
    match queued with
    | some a => a
    | none => vget 0 sq.regs n
  else if n < 40 then vget 0 sq.latches (n - 32)
  else sourceConst n

/-- R15: the guard is true. Predicate p0 always reads true. -/
def guardTrue (preds : BitVec 8) (g : BitVec 4) : Bool :=
  let p := g.toNat % 8
  (p == 0 || preds.getLsbD p) != g.getLsbD 3

/-- A predicate's value; p0 reads true. -/
def predVal (preds : BitVec 8) (p : BitVec 3) : Bool := p == 0 || preds.getLsbD p.toNat

/-- The predicates with one written; p0 stays true. -/
def putPred (preds : BitVec 8) (p : BitVec 3) (v : Bool) : BitVec 8 :=
  if p = 0 then preds
  else if v then preds ||| (1#8 <<< p.toNat) else preds &&& ~~~(1#8 <<< p.toNat)

/-- R25: the extension that the XIMM of the bundle in issue gives slot n. -/
def extOf (s : State) (n : Nat) : Option (BitVec 20) :=
  match (me s).issue with
  | none => none
  | some c =>
    match slotAt c.slots 7 with
    | some (.ximm tgt e) => if tgt.toNat = n then some e else none
    | _ => none

/-- R49: i(k), the index of loop level k; zero at and beyond the depth. -/
def loopIndex (sq : Seq) (k : Nat) : Word :=
  match sq.loops[k]? with
  | some l => l.index
  | none => 0

/-- R23, R129: the rows of the destination and the two sources that a row selector gives. -/
def vRows (s : State) (rs : BitVec 4) : Nat × Nat × Nat :=
  if rs = 6 then
    match (me s).issue with
    | some c => c.rows
    | none => (0, 0, 0)
  else
    let r := (loopIndex (me s) rs.toNat).toNat % 64
    (r, r, r)

/-! The pending-write queue (R53-R60). -/

/-- The result of the running stream's slot n enters the queue with a counter of k ticks. -/
def enqueue (s : State) (n : Nat) (d : Dest) (v : BitVec 64) (fl : Flags) (k : Nat) (payload : Row) : State :=
  let sq := me s
  setMe s { sq with queue := sq.queue ++
    [{ dest := d, value := v, flags := fl, cnt := k, slot := n, payload := payload, tick := sq.ticks, superseded := none }] }

/-- R46: Write(d, x, k), from slot n: into the register and the latch, or with the suppress bit into the latch alone (R19). -/
def writeScalar (s : State) (n : Nat) (d : BitVec 6) (x : Word) (k : Nat) : State :=
  enqueue s n (if d.getLsbD 5 then .latch else .scalar (d.setWidth 5)) (x.setWidth 64) 0 k 0

/-- R46: WriteP(p, x, k), from slot n. -/
def writePred (s : State) (n : Nat) (p : BitVec 3) (x : Bool) (k : Nat) : State :=
  enqueue s n (.pred p) (if x then 1 else 0) 0 k 0

/-- R129: a row result of slot n, with its flags. -/
def writeRow (s : State) (n : Nat) (t : BitVec 4) (r : Nat) (x : Row × Flags) (k : Nat) : State :=
  enqueue s n (.tileRow t (BitVec.ofNat 6 r)) 0 x.2 k x.1

/-- A plane with one field written, in its width (R118). -/
def putPlaneField (p : Plane) (fld v : Nat) : Plane :=
  match fld with
  | 0 => { p with mrows := v % 128 }
  | 1 => { p with ncols := v % 256 }
  | 2 => { p with kdep := v % 1024 }
  | 3 => { p with row0 := v % 64 }
  | 4 => { p with col0 := v % 128 }
  | 5 => { p with sgn := v % 4 }
  | 6 => { p with amode := v % 4 }
  | 7 => { p with trb := v % 2 }
  | _ => p

/-- R305: a plane as 8 bytes, which a pending write of a plane carries as its payload too (log 6: R192 names that payload, not its layout). -/
def planeWord (p : Plane) : Nat :=
  p.mrows % 128 + p.ncols % 256 * 2 ^ 7 + p.kdep % 1024 * 2 ^ 15 + p.row0 % 64 * 2 ^ 25 + p.col0 % 128 * 2 ^ 31 + p.sgn % 4 * 2 ^ 38
    + p.amode % 4 * 2 ^ 40 + p.trb % 2 * 2 ^ 42

/-- R305: the plane of 8 bytes. -/
def planeOfWord (w : Nat) : Plane :=
  { mrows := w % 128, ncols := w / 2 ^ 7 % 256, kdep := w / 2 ^ 15 % 1024, row0 := w / 2 ^ 25 % 64, col0 := w / 2 ^ 31 % 128,
    sgn := w / 2 ^ 38 % 4, amode := w / 2 ^ 40 % 4, trb := w / 2 ^ 42 % 2 }

/-- A plane as the payload of a pending write. -/
def planeRow (p : Plane) : Row := BitVec.ofNat 2048 (planeWord p)

/-- The plane of a payload. -/
def planeOfRow (r : Row) : Plane := planeOfWord (rowField r 0 64).toNat

/-- R159: a view register with the field of a code written. -/
def putViewField (v : View) (fld : Nat) (x : Word) : View :=
  match fld with
  | 0 => { v with handle := x }
  | 1 => { v with off := (v.off &&& 0xFFFFFFFF00000000) ||| x.setWidth 64 }
  | 2 => { v with off := (v.off &&& 0xFFFFFFFF) ||| (x.setWidth 64 <<< 32) }
  | 3 => { v with xt := vput v.xt 0 x }
  | 4 => { v with sd := vput v.sd 0 x }
  | 5 => { v with xt := vput v.xt 1 x }
  | 6 => { v with sd := vput v.sd 1 x }
  | 7 => { v with xt := vput v.xt 2 x }
  | 8 => { v with sd := vput v.sd 2 x }
  | 9 => { v with xt := vput v.xt 3 x }
  | 10 => { v with sd := vput v.sd 3 x }
  | 11 => { v with stamp := x }
  | _ => v

def viewAt (sq : Seq) (v : Nat) : View := vget View.reset sq.views v
def putView (sq : Seq) (v : Nat) (x : View) : Seq := { sq with views := vput sq.views v x }
def shapeAt (sq : Seq) (g : Nat) : ShapeReg := vget { active := Plane.reset, shadow := Plane.reset } sq.shapes g
def putShape (sq : Seq) (g : Nat) (x : ShapeReg) : Seq := { sq with shapes := vput sq.shapes g x }
def scaleAt (sq : Seq) (q : Nat) : Vector (BitVec 16) 64 := vget (Vector.replicate 64 0) sq.scales q

/-- R121: scales 0 to n written from the halfwords of a payload. -/
def putScales (v : Vector (BitVec 16) 64) (r : Row) (n : Nat) : Vector (BitVec 16) 64 :=
  match n with
  | 0 => vput v 0 (rowField r 0 16)
  | n + 1 => vput (putScales v r n) (n + 1) (rowField r (16 * (n + 1)) 16)

/-- R80: register r of the stream is mapped to a queue. -/
def isMapped (sq : Seq) (r : Nat) : Bool := (r == 30 && sq.map30.isSome) || (r == 31 && sq.map31.isSome)

/-- R18, R19, R58: a scalar result lands in its register, unless that is mapped or the entry is superseded, and in its slot's latch. -/
def landScalar (sq : Seq) (r : Nat) (slot : Nat) (x : Word) (superseded : Bool) : Seq :=
  let sq1 := { sq with latches := vput sq.latches slot x }
  if superseded || isMapped sq r then sq1 else { sq1 with regs := vput sq1.regs r x }

/-- R80, R200: a register was mapped to a queue when a region opened: a result that lands leaves the snapshot's register as it is. -/
def mappedIn (r : Region) (d : BitVec 5) : Bool := (d == 30 && r.mapped30) || (d == 31 && r.mapped31)

/-- R200: an entry issued before a region lands in the region's snapshot too, as it would have landed had the region never issued. -/
def landRegion (p : Pend) (r : Region) : Region :=
  if r.tick ≤ p.tick then r
  else
    match p.dest with
    | .scalar d =>
      if mappedIn r d || (match p.superseded with
        | some t => decide (t < r.tick)
        | none => false) then r
      else { r with regs := vput r.regs d.toNat (p.value.setWidth 32) }
    | .pred d => { r with preds := putPred r.preds d (p.value.getLsbD 0) }
    | _ => r

/-- R53, R54: an entry lands in the state of its stream; a tile row lands by landTile. -/
def landSeq (sq : Seq) (p : Pend) : Seq :=
  let sq := { sq with cstat := sq.cstat ||| p.flags, regions := sq.regions.map (landRegion p) }
  let x : Word := p.value.setWidth 32
  match p.dest with
  | .scalar r => landScalar sq r.toNat p.slot x p.superseded.isSome
  | .latch => { sq with latches := vput sq.latches p.slot x }
  | .pred d => { sq with preds := putPred sq.preds d (p.value.getLsbD 0) }
  | .tileRow _ _ => sq
  | .shapeField g fld =>
    let r := shapeAt sq g.toNat
    putShape sq g.toNat { r with shadow := putPlaneField r.shadow fld.toNat x.toNat }
  | .shapePlane g =>
    let r := shapeAt sq g.toNat
    putShape sq g.toNat { r with shadow := planeOfRow p.payload }
  | .scale q n => { sq with scales := vput sq.scales q.toNat (vput (scaleAt sq q.toNat) n.toNat (x.setWidth 16)) }
  | .scales q n => { sq with scales := vput sq.scales q.toNat (putScales (scaleAt sq q.toNat) p.payload n.toNat) }
  | .scalesZero q => { sq with scales := vput sq.scales q.toNat (Vector.replicate 64 0) }
  | .viewField v fld => putView sq v.toNat (putViewField (viewAt sq v.toNat) fld.toNat x)
  | .bounds v => putView sq v.toNat { viewAt sq v.toNat with blo := x, bhi := (p.value >>> 32).setWidth 32, ben := true }
  | .boundOff v => putView sq v.toNat { viewAt sq v.toNat with ben := false }

/-- R54: a tile row lands in the core's tile file. (R59: a later write by an M or E operation has entered its payload.) -/
def landTile (c : CoreState) (p : Pend) : CoreState :=
  match p.dest with
  | .tileRow t r => putTileRow c t.toNat r.toNat p.payload
  | _ => c

/-- Entries land in the order of a list. -/
def landAll (sq : Seq) (c : CoreState) (l : List Pend) : Seq × CoreState :=
  match l with
  | [] => (sq, c)
  | p :: rest => landAll (landSeq sq p) (landTile c p) rest

/-- R53: the entries after one tick: every counter one lower. -/
def aged (l : List Pend) : List Pend := l.map (fun p => { p with cnt := p.cnt - 1 })

/-- R52: the stage predicates of the current iteration of the bound level. -/
def stagePreds (sq : Seq) : BitVec 8 :=
  match sq.stage with
  | none => sq.preds
  | some b =>
    if b.pending then sq.preds
    else
      match sq.loops[b.level]? with
      | none => sq.preds
      | some l =>
        let m := b.mask
        let d := if m.getLsbD 3 then 4 else if m.getLsbD 2 then 3 else if m.getLsbD 1 then 2 else 1
        let set := fun (ps : BitVec 8) (j : Nat) =>
          if m.getLsbD j then
            putPred ps (BitVec.ofNat 3 (4 + j)) (decide (j ≤ l.index.toNat) && decide (l.index.toNat + d ≤ l.count.toNat + j))
          else ps
        set (set (set (set sq.preds 0) 1) 2) 3

/-- R53, R52: the stream and its core at the start of a tick: the counters fall, the entries that reach zero land, and then the stage
predicates of an iteration that has just started are set. -/
def tickStart (sq : Seq) (c : CoreState) : Seq × CoreState :=
  let q := aged sq.queue
  let due := q.filter (fun p => p.cnt == 0)
  let r := landAll { sq with queue := q.filter (fun p => p.cnt != 0) } c due
  (if r.1.stageDue then { r.1 with preds := stagePreds r.1 } else r.1, r.2)

/-- The state at the start of the coming tick of the running stream (R53), unless its landings have been taken. -/
def landed (s : State) : State :=
  if (me s).tickOpen then s
  else
    let r := tickStart (me s) (myCore s)
    setMe (setMyCore s r.2) r.1

/-- R60: every entry of a stream's queue lands, in the order of R53: by the ticks left, and within a tick in queue order. -/
def landRest (n : Nat) (sq : Seq) (c : CoreState) : Seq × CoreState :=
  match n with
  | 0 => (sq, c)
  | n + 1 =>
    let q := aged sq.queue
    let r := landAll { sq with queue := q.filter (fun p => p.cnt != 0) } c (q.filter (fun p => p.cnt == 0))
    landRest n r.1 r.2

/-- R60: the queue of sequencer q lands; no counter exceeds 31. -/
def landQueue (s : State) (q : Nat) : State :=
  let r := landRest 32 (seqAt s q) (coreAt s (coreOf q))
  setSeq (setCore s (coreOf q) r.2) q r.1

/-! Position (R47-R52, R66). -/

/-- The depth of the loop stack. -/
def depth (sq : Seq) : Nat := sq.loops.length

/-- The address of a level's last bundle (R50). -/
def lastOf (l : LoopLevel) : Word := l.start + 32 * (l.len.setWidth 32 - 1)

/-- R50: the innermost level's boundary would act on the bundle at an address. -/
def atBoundary (sq : Seq) (a : Word) : Bool :=
  match sq.loops.getLast? with
  | none => false
  | some l => lastOf l == a

/-- R50, R52, R83: the innermost level pops; a binding of it ends and its predicates keep their values. -/
def popLevel (sq : Seq) : Seq :=
  let k := depth sq - 1
  { sq with loops := sq.loops.dropLast, preds := if sq.stageDue then stagePreds sq else sq.preds,
            stage := (match sq.stage with
              | some b => if b.level = k && !b.pending then none else some b
              | none => none) }

/-- R50: the boundary at the bundle at a: the innermost level loops back, or pops and the next level outward that shares the bundle
acts. At most n levels. -/
def loopBoundary (n : Nat) (sq : Seq) (a : Word) : Seq :=
  match n with
  | 0 => { sq with pc := a + 32 }
  | n + 1 =>
    match sq.loops.getLast? with
    | none => { sq with pc := a + 32 }
    | some l =>
      if lastOf l ≠ a then { sq with pc := a + 32 }
      else
        let l' := { l with index := l.index + 1 }
        if l'.index.toNat < l.count.toNat then
          { sq with loops := sq.loops.dropLast ++ [l'], pc := l.start,
                    stageDue := (match sq.stage with
                      | some b => (b.level == depth sq - 1 && !b.pending) || sq.stageDue
                      | none => false) }
        else loopBoundary n (popLevel sq) a

/-- R50: the boundary at a ends in a pop of the innermost level. -/
def boundaryPops (sq : Seq) (a : Word) : Bool :=
  match sq.loops.getLast? with
  | none => false
  | some l => lastOf l == a && !decide (l.index.toNat + 1 < l.count.toNat)

/-- What the position still owes is done (DELAY_EXPIRE, LOOP_EXIT). -/
def settle (sq : Seq) : Seq :=
  match sq.due with
  | none => sq
  | some .expire => { sq with pc := sq.delayTarget, due := none }
  | some (.exit a) => { loopBoundary 6 sq a with due := none }

/-- R50, R62, R66: the position after the bundle at a has issued or been skipped: a delay position counts down; the last bundle of a body
brings its boundary; otherwise the next bundle follows. -/
def advance (sq : Seq) (a : Word) : Seq :=
  if sq.delayCount = 2 then { sq with pc := a + 32, delayCount := 1 }
  else if 0 < sq.delayCount then { sq with pc := a + 32, delayCount := 0, due := some .expire }
  else if atBoundary sq a then
    if boundaryPops sq a then { sq with pc := a + 32, due := some (.exit a) } else loopBoundary 6 sq a
  else { sq with pc := a + 32 }

/-- R82, R84: a level is pushed; a binding that waits for it comes into force, and its predicates are due. -/
def pushLevel (sq : Seq) (start : Word) (len : BitVec 12) (count : Word) (body : Sparse (List Nat)) : Seq :=
  let k := depth sq
  let sq1 := { sq with loops := sq.loops ++ [({ start := start, len := len, count := count, index := 0, body := body } : LoopLevel)] }
  match sq1.stage with
  | some b => if b.level = k ∧ b.pending then { sq1 with stage := some { b with pending := false }, stageDue := true } else sq1
  | none => sq1

/-- R84: the binding that LSTG forms, with lv compared with the depth as the boundary leaves it. An iteration that the boundary of its bundle
has begun sets the predicates of the binding that stood, and none of the new one's (log 20). -/
def bindStage (sq : Seq) (lv : Nat) (m : BitVec 4) : Seq :=
  let sq1 := { sq with preds := if sq.stageDue then stagePreds sq else sq.preds, stageDue := false }
  if m = 0 then { sq1 with stage := none }
  else { sq1 with stage := some { level := lv, mask := m, pending := decide (lv = depth sq) } }

/-! Control registers (R74-R76). -/

/-- R75: CPLACE. A steward strand's core belongs to no quad (R297) and the spec gives its QUAD and CORE no value: both read 0 (DESIGN CHOICE, log 127). -/
def placeOf (q : Nat) (strand : BitVec 3) : Word :=
  let k := coreOf q
  let low := (q % 2) * 16 + strand.toNat
  if isSteward k then BitVec.ofNat 32 (dieOfCore k * 2048 + low)
  else BitVec.ofNat 32 (k / 64 * 2048 + k / 4 % 16 * 128 + k % 4 * 32 + low)

/-- R75: the CSTAGE layout of a binding. -/
def stageWord (b : Option StageBind) : Word :=
  match b with
  | none => 0
  | some b => BitVec.ofNat 32 ((if b.pending then 256 else 0) + 128 + b.level * 16 + b.mask.toNat)

/-- R195: the binding of a word in the CSTAGE layout. -/
def stageOfWord (w : Word) : Option StageBind :=
  if w.getLsbD 7 then some { level := w.toNat / 16 % 8, mask := w.setWidth 4, pending := w.getLsbD 8 } else none

/-- R75: one half of CQMAP. -/
def mapWord (m : Option QueueMap) : Nat :=
  match m with
  | none => 0
  | some m => if m.ring < 64 then 128 + m.ring else 128 + 64

/-- R75: the CEDLY layout of a delay state. -/
def delayWord (target : Word) (count : Nat) : Word := (target &&& 0xFFFFFFE0) ||| BitVec.ofNat 32 count

/-- R74: the value of a strand control register. -/
def ctlRead (q : Nat) (sq : Seq) (n : Nat) : Word :=
  match n with
  | 0x000 => sq.cstat.setWidth 32
  | 0x001 => sq.rmode.setWidth 32
  | 0x002 => placeOf q sq.strand
  | 0x003 => sq.team
  | 0x004 => sq.task
  | 0x008 => sq.est.setWidth 32
  | 0x009 => (sq.est >>> 32).setWidth 32
  | 0x00A => sq.ts.setWidth 32
  | 0x00B => (sq.ts >>> 32).setWidth 32
  | 0x00C => sq.gtSnap
  | 0x010 => sq.trapVec
  | 0x011 => sq.epc
  | 0x012 => sq.edly
  | 0x013 => BitVec.ofNat 32 ((if sq.inTrap then 256 else 0) + sq.trapCode.toNat)
  | 0x014 => BitVec.ofNat 32 (depth sq)
  | 0x015 => stageWord sq.stage
  | 0x016 => BitVec.ofNat 32 (mapWord sq.map31 * 0x1000000 + mapWord sq.map30 * 0x100)
  | _ => 0

/-- R74, R76: a control register written; reserved bits are dropped, a read-only register ignores it. -/
def ctlWrite (sq : Seq) (n : Nat) (v : Word) : Seq :=
  match n with
  | 0x000 => { sq with cstat := v.setWidth 5 }
  | 0x001 => { sq with rmode := v.setWidth 2 }
  | 0x008 => { sq with est := (sq.est &&& 0xFFFFFFFF00000000) ||| v.setWidth 64 }
  | 0x009 => { sq with est := (sq.est &&& 0xFFFFFFFF) ||| (v.setWidth 64 <<< 32) }
  | 0x00A => { sq with ts := (sq.ts &&& 0xFFFFFFFF00000000) ||| v.setWidth 64 }
  | 0x00B => { sq with ts := (sq.ts &&& 0xFFFFFFFF) ||| (v.setWidth 64 <<< 32) }
  | 0x010 => { sq with trapVec := v &&& 0xFFFFFFE0 }
  | 0x011 => { sq with epc := v &&& 0xFFFFFFE0 }
  | 0x012 => if v.setWidth 2 = 3#2 then sq else { sq with edly := v &&& 0xFFFFFFE3 }
  | _ => sq

/-! Slot counters (R207, R208). Classes: 0 S, 1 C, 2 V, 3 M, 4 E, 5 K; set 6 is the whole strand's; the three counters of a class are
ISSUED, EMPTY and STALL. -/

/-- The class of a slot. -/
def classOfSlot (n : Nat) : Nat :=
  match n with
  | 0 => 0
  | 1 => 0
  | 2 => 1
  | 3 => 2
  | 4 => 2
  | 5 => 3
  | 6 => 4
  | _ => 5

/-- One counter of one set plus one. -/
def bump (v : Vector (BitVec 48) 126) (set cls kind : Nat) : Vector (BitVec 48) 126 :=
  let i := set * 18 + cls * 3 + kind
  vput v i (vget 0 v i + 1)

/-- R207: a counter plus one in the set of every active level, below n, and in the strand's. -/
def bumpLevels (n : Nat) (v : Vector (BitVec 48) 126) (cls kind : Nat) : Vector (BitVec 48) 126 :=
  match n with
  | 0 => bump v 6 cls kind
  | n + 1 => bump (bumpLevels n v cls kind) n cls kind

/-- R207: one held cycle of the running stream for a class. The steward's strands keep no counters (R297). -/
def countHeld (s : State) (cls : Nat) : State :=
  if isSteward (coreOf s.cur) then s
  else
    let sq := me s
    setMe s { sq with counters := bumpLevels (depth sq) sq.counters cls 2 }

/-! The stop of a strand (R186-R192). -/

/-- R192: EKIND and TARGET of a destination. -/
def destCode (d : Dest) : Nat × Nat :=
  match d with
  | .scalar r => (0, r.toNat)
  | .latch => (1, 0)
  | .pred p => (2, p.toNat)
  | .tileRow t r => (3, t.toNat * 64 + r.toNat)
  | .shapeField g fld => (4, g.toNat * 16 + fld.toNat)
  | .shapePlane g => (5, g.toNat)
  | .scale q n => (6, q.toNat * 64 + n.toNat)
  | .scales q n => (7, q.toNat * 64 + n.toNat)
  | .scalesZero q => (8, q.toNat)
  | .viewField v fld => (9, v.toNat * 16 + fld.toNat)
  | .bounds v => (10, v.toNat)
  | .boundOff v => (11, v.toNat)

/-- R192: the destination of an EKIND and a TARGET; none for a reserved EKIND. -/
def destOfCode (k t : Nat) : Option Dest :=
  match k with
  | 0 => some (.scalar (BitVec.ofNat 5 t))
  | 1 => some .latch
  | 2 => some (.pred (BitVec.ofNat 3 t))
  | 3 => some (.tileRow (BitVec.ofNat 4 (t / 64)) (BitVec.ofNat 6 t))
  | 4 => some (.shapeField (BitVec.ofNat 2 (t / 16)) (BitVec.ofNat 4 t))
  | 5 => some (.shapePlane (BitVec.ofNat 2 t))
  | 6 => some (.scale (BitVec.ofNat 3 (t / 64)) (BitVec.ofNat 6 t))
  | 7 => some (.scales (BitVec.ofNat 3 (t / 64)) (BitVec.ofNat 6 t))
  | 8 => some (.scalesZero (BitVec.ofNat 3 t))
  | 9 => some (.viewField (BitVec.ofNat 4 (t / 16)) (BitVec.ofNat 4 t))
  | 10 => some (.bounds (BitVec.ofNat 4 t))
  | 11 => some (.boundOff (BitVec.ofNat 4 t))
  | _ => none

/-- R58, R192: EKIND and TARGET of an entry: one that a result has superseded writes its latch alone. -/
def pendCode (p : Pend) : Nat × Nat := if p.superseded.isSome then (1, 0) else destCode p.dest

/-- R192: a pending-write descriptor. -/
def pendWord (p : Pend) : Nat :=
  let c := pendCode p
  p.value.toNat * 2 ^ 64 + p.flags.toNat * 2 ^ 32 + p.cnt * 2 ^ 24 + p.slot * 2 ^ 20 + c.1 * 2 ^ 16 + c.2

/-- R192: a loop-stack entry. -/
def loopWord (l : LoopLevel) : Nat :=
  l.index.toNat * 2 ^ 96 + l.count.toNat * 2 ^ 64 + l.start.toNat * 2 ^ 32 + l.len.toNat

/-- R189: the header. -/
def headerWord (sq : Seq) (i : StopInfo) : Nat :=
  i.aux0.toNat * 2 ^ 448 + i.aux1.toNat * 2 ^ 416 + sq.cstat.toNat * 2 ^ 384 + i.baddr.toNat * 2 ^ 352 + sq.pc.toNat * 2 ^ 320
    + (delayWord sq.delayTarget sq.delayCount).toNat * 2 ^ 288 + (stageWord sq.stage).toNat * 2 ^ 256
    + (sq.preds ||| 1).toNat * 2 ^ 248 + i.cmask.toNat * 2 ^ 240 + i.cause * 2 ^ 232 + i.slot * 2 ^ 229 + i.kind * 2 ^ 226
    + i.engine * 2 ^ 223 + depth sq * 2 ^ 220 + sq.queue.length * 2 ^ 214 + i.cqn * 2 ^ 212

/-- n free bytes (R188: undefined), from a number on. -/
def freeBytes (k n : Nat) : List Byte := (List.range n).map (fun j => Config.recordByte (k + j))

/-- R188, R192: the payload slots of the entries of a queue, the unused ones free; slot n takes its free bytes from a number of its own. -/
def payloadSlots (free n : Nat) (l : List Pend) : List Byte :=
  match l with
  | [] => []
  | p :: rest =>
    (match p.dest with
      | .tileRow _ _ => bytesOfRow p.payload
      | .shapePlane _ => bytesOfRow p.payload
      | .scales _ _ => bytesOfRow p.payload
      | _ => freeBytes (free + 512 + 256 * n) 256) ++ payloadSlots free (n + 1) rest

/-- R188: the fault record, 8,960 bytes; the content of unused descriptors and payload slots is free. -/
def faultRecord (sq : Seq) (i : StopInfo) (free : Nat) : List Byte :=
  leBytes 64 (headerWord sq i)
    ++ (((List.range 6).flatMap (fun k => leBytes 4 (if i.kind = 2 then ((i.idx[k]?).getD 0).toNat else 0))) ++ leBytes 8 0)
    ++ (List.range 6).flatMap (fun k => leBytes 16 (match sq.loops[k]? with
        | some l => loopWord l
        | none => 0))
    ++ (List.range 8).flatMap (fun k => leBytes 4 (vget 0 sq.latches k).toNat)
    ++ leBytes 32 sq.busy.toNat
    ++ sq.queue.flatMap (fun p => leBytes 16 (pendWord p))
    ++ freeBytes (free + 16 * sq.queue.length) (512 - 16 * sq.queue.length)
    ++ payloadSlots free 0 sq.queue
    ++ freeBytes (free + 512 + 256 * sq.queue.length) (256 * (32 - sq.queue.length))

/-- The event record of a strand (R294). -/
def eventRecord (kind : Nat) (detail : BitVec 64) (task : Word) (team strand quad : Nat) : BitVec 512 :=
  BitVec.ofNat 512 (detail.toNat * 2 ^ 64 + task.toNat * 2 ^ 32 + team % 2 ^ 16 * 2 ^ 16 + strand * 2 ^ 13 + quad * 2 ^ 9 + kind)

/-- The name under which the held bundle of a sequencer reads from other packages: its placed operation, its WAITM, and its
SEND for a slot. -/
def readTag (q : Nat) : Nat := 2 ^ 40 + q
def stampTag (q : Nat) : Nat := 2 ^ 40 + 4096 + q
def sendTag (q : Nat) : Nat := 2 ^ 40 + 8192 + q

/-- The number under which requests of no operation stand. -/
def noOp : Nat := 2 ^ 41

/-- R347, R353: the name of the requests that sequencer q's strand has given up after they were sent: they stay outstanding until their responses or a fence. -/
def orphanTag (q : Nat) : Nat := 2 ^ 42 + q

/-- A request whose operation has given it up. -/
def isOrphan (r : Request) : Bool := decide (2 ^ 42 ≤ r.op)

/-- The sequencer of the operation or of the held bundle for which a request's number stands. -/
def seqOfTag (s : State) (op : Nat) : Option Nat :=
  if op = noOp then none
  else if 2 ^ 40 ≤ op then some (op % 4096)
  else (s.ops.find? (fun o => o.id == op)).map (fun o => o.seq)

/-- A request of an operation is forgotten; one that has been sent and not been answered stays outstanding, for no operation. -/
def giveUp (s : State) (r : Request) : Option Request :=
  if r.sent.isSome && !r.answered then some { r with op := orphanTag ((seqOfTag s r.op).getD 4095) } else none

/-- The requests of an operation are forgotten. -/
def dropRequests (s : State) (op : Nat) : State :=
  { s with pod := { s.pod with requests := s.pod.requests.filterMap (fun r => if r.op = op then giveUp s r else some r) } }

/-- R354: the requests of an operation that completed with poison are forgotten. -/
def dropPoisoned (s : State) (op : Nat) : State :=
  { s with pod := { s.pod with requests := s.pod.requests.filter (fun r => !(r.op == op && r.answered && r.poison)) } }

/-- R164, R321: the registrations of a VOPEN that is still held are taken back. -/
def dropWaiting (s : State) (q : Nat) : State :=
  { s with flock := s.flock.map (fun p => (p.1, p.2.filter (fun e => !(e.seq == some q && e.waits)))) }

/-- What a sequencer's held bundle has asked for is forgotten: its reads, and the registrations of its VOPEN. -/
def dropReads (s : State) (q : Nat) : State :=
  dropWaiting (dropRequests (dropRequests (dropRequests s (readTag q)) (stampTag q)) (sendTag q)) q

/-! What an operation still has to do. -/

/-- R247: a placed operation's read through a view; a tile view carries no class. -/
def placedRead (c : BitVec 4) (v : View) : List (BitVec 4 × View × Bool) := if v.handle = 0 then [] else [(c, v, false)]

/-- R169: the accesses of an operation through views that are still to perform: class, view, and whether it writes. -/
def pendingAccesses (o : Op) : List (BitVec 4 × View × Bool) :=
  let r := o.rcls.getD 0
  let w := o.wcls.getD 0
  match o.kind with
  | .load _ _ v => [(r, v, false)]
  | .store _ _ v => [(w, v, true)]
  | .copy vd vs _ _ _ _ _ _ _ => [(r, vs, false), (w, vd, true)]
  | .atomic op _ _ _ _ v _ _ _ => [(w, v, op != .load)]
  | .ared _ _ v _ _ => [(w, v, true)]
  | .placed _ vd _ _ _ _ _ _ _ _ _ _ _ _ => if vd.handle = 0 then [] else [(w, vd, true)]
  | _ => []

/-- R169, R247: the accesses of an operation in program order: those still to perform, and for a placed operation, which has read its inputs, its reads: what
they order waits for the write-back. -/
def accessesOf (o : Op) : List (BitVec 4 × View × Bool) :=
  match o.kind with
  | .placed _ _ va vb _ _ _ _ _ _ _ _ _ _ => placedRead va.cls va ++ placedRead vb.cls vb ++ pendingAccesses o
  | _ => pendingAccesses o

/-- R168, R320: the operation has performed at a scope (R21): at package scope once the homes have performed its writes. -/
def performedAt (s : State) (o : Op) (sc : Nat) : Bool :=
  (o.phase == .performed || o.phase == .drained) && (decide (sc < 3) || !s.forwards.any (fun f => f.op == o.id))

/-- R180: a copy has written its stamp, and its entry waits only for its event (R295). -/
def copyStamped (o : Op) : Bool := !o.result.isEmpty

/-- R171, R180, R196: the operation is done for what it orders: performed at a scope, and a copy with its stamp. A copy that has failed in transfer
has written its stamp. -/
def orderDone (s : State) (o : Op) (sc : Nat) : Bool :=
  match o.kind with
  | .copy _ _ _ _ _ _ _ _ _ =>
    (o.phase == .drained || o.phase == .failed || copyStamped o) && (decide (sc < 3) || !s.forwards.any (fun f => f.op == o.id))
  | _ => performedAt s o sc

/-- R211, R246: the operation is a command of the central array: an array command, or a placed operation that has risen. -/
def isArrayOp (o : Op) : Bool :=
  match o.kind with
  | .array _ => true
  | .placed _ _ _ _ _ _ _ _ _ _ _ _ home _ => home == 3
  | _ => false

/-! FAULT events (R187, R295). -/

/-- R295: the writes that a strand has issued and that have not performed. -/
def pendingWrites (s : State) (q : Nat) : List Nat :=
  (s.ops.filter (fun o => o.seq == q && (accessesOf o).any (fun x => x.2.2) && !orderDone s o 2)).map (fun o => o.id)

/-- R196, R204: an operation that its engine keeps: it has failed, stands behind a failed one of its strand or of its core's array queue, or its core is
frozen. -/
def isKept (s : State) (o : Op) : Bool :=
  coreFrozen s (coreOf o.seq) || s.ops.any (fun a => a.phase == .failed && decide (a.id ≤ o.id) &&
    (a.seq == o.seq || (coreOf a.seq == coreOf o.seq && isArrayOp a && isArrayOp o)))

/-- R295: the writes that stand before a FAULT record have performed, those apart that an engine keeps until the strand resumes (log 146). -/
def eventReady (s : State) (e : DueEvent) : Bool :=
  e.after.all (fun n => match s.ops.find? (fun o => o.id == n) with
    | some o => orderDone s o 2 || isKept s o
    | none => true)

/-- R295: the FAULT record of the strand of sequencer q, posted after the strand's writes, so that a pop of it is an acquire, and once it finds a slot; until
then the strand keeps it. -/
def postFault (s : State) (q : Nat) (e : DueEvent) : State :=
  if eventReady s e && eventRoom s (dieOf q) then postEvent (setSeq s q { seqAt s q with faultDue := none }) (dieOf q) e.record
  else setSeq s q { seqAt s q with faultDue := some e }

/-- R187: sequencer q stops: its record is written at SQFRA, its STATE becomes faulted and a FAULT event is posted. SQFRA is a physical
address of the die's HBM (log 7), and is not compared with the size of the HBM (log 112). -/
def stopStrand (s : State) (q : Nat) (i : StopInfo) : State :=
  let sq := settle (seqAt s q)
  let d := dieOf q
  let s1 := setSeq (dropReads s q) q
    { sq with status := .faulted, stop := some i, issue := none, waitGt := none, pinned := [], queue := sq.queue.map (fun p => { p with cover := 0 }) }
  let s2 := { writeHome s1 (cellsAt (location d sq.sqfra.toNat) (faultRecord sq i s1.free)) with free := s1.free + 16384 }
  let s3 := traceRecord s2 d 0x02 (BitVec.ofNat 64 (i.kind * 2 ^ 40 + i.cause * 2 ^ 32 + i.baddr.toNat)) (placeOf q sq.strand) (some (i.slot, true))
  postFault s3 q
    { record := eventRecord 2 sq.sqfra sq.task sq.team.toNat sq.strand.toNat (if isSteward (coreOf q) then 0 else quadOf q % 16), after := pendingWrites s q }

/-! Operations that are dropped (R196, R200, R211, R301). -/

/-- R212: the array commands queued for a core. -/
def arrayQueue (s : State) (k : Nat) : List Op := s.ops.filter (fun o => coreOf o.seq == k && isArrayOp o && o.phase != .drained)

/-- R274: the BANK commands queued for a sequencer. -/
def bankQueue (s : State) (q : Nat) : List Op :=
  s.ops.filter (fun o => o.seq == q && (match o.kind with
    | .bank _ => true
    | _ => false))

/-- R211: a core of a quad requests the lease: an explicit lease that it has, or commands in its queue. -/
def leaseWaits (s : State) (quad c : Nat) : Bool :=
  vget false (quadAt s quad).explicit c || !(arrayQueue s (quad * 4 + c)).isEmpty

/-- R211: an implicit lease ends with the last command of its core. -/
def endImplicit (s : State) (quad c : Nat) : State :=
  let x := quadAt s quad
  if x.holder = some c ∧ !leaseWaits s quad c then setQuad s quad { x with holder := none } else s

/-- R195, R196, R200: the mark of an atomic whose result is dropped clears. -/
def clearMark (sq : Seq) (o : Op) : Seq :=
  match o.kind with
  | .atomic _ d _ _ _ _ _ _ _ => { sq with busy := sq.busy &&& ~~~(1#33 <<< (if d.getLsbD 5 then 32 else d.toNat % 32)) }
  | _ => sq

/-- R196, R200, R301: the failed operations of sequencer q from a region of depth d or deeper are dropped, with their marks; a core whose last
array command one was leaves the lease. -/
def dropStuck (s : State) (q d : Nat) : State :=
  let stuck := fun (o : Op) => o.seq == q && o.phase == .failed && decide (d ≤ o.region)
  let gone := s.ops.filter stuck
  let s1 := gone.foldl (fun s o => dropRequests s o.id) s
  let s2 := setSeq { s1 with ops := s.ops.filter (fun o => !stuck o) } q (gone.foldl clearMark (seqAt s q))
  if gone.any isArrayOp then endImplicit s2 (quadOf q) (coreOf q % 4) else s2

/-- R200: the contained causes: BOUND, UNCORR, REMOTE_TIMEOUT, POISON_READ, STAMP_POISON, ENG_UNCORR, ENG_POISON and ENG_TIMEOUT. -/
def isContained (cause : Nat) : Bool := [0x29, 0x2A, 0x2B, 0x2C, 0x28, 0x31, 0x33, 0x34].contains cause

/-- R200, steps 1 and 2: the strand stops issue, the regions inside the one of depth d are discarded, with the queue entries issued at
tick T or later; the unwind then waits. -/
def beginUnwind (s : State) (q d : Nat) (i : StopInfo) : State :=
  let sq := seqAt s q
  let keep := sq.regions.drop (sq.regions.length - d)
  let inner := sq.regions.take (sq.regions.length - d)
  match keep with
  | [] => stopStrand s q i
  | r :: rest =>
    let w := i.cause + i.slot * 256 + i.kind * 2048 + d * 16384
    let own := fun (p : Pend) => { p with superseded := p.superseded.filter (fun t => decide (t < r.tick)) }
    let left := (sq.queue.filter (fun p => decide (p.tick < r.tick))).map own
    let whole := { r with opened := r.opened ++ inner.flatMap (fun x => x.opened), retired := r.retired ++ inner.flatMap (fun x => x.retired) }
    let s1 := dropReads (dropStuck s q d) q
    setSeq s1 q
      { seqAt s1 q with regions := whole :: rest, queue := left, status := .unwinding, issue := none, waitGt := none, pinned := [],
                        endPending := false,
                        unwind := some { depth := d, causeWord := BitVec.ofNat 32 w, detail := i.aux0.setWidth 32 },
                        reports := sq.reports.filter (fun e => decide (e.region < d)) }

/-- R186, R200: sequencer q takes a fault of an instruction that issued in a region of depth d (0 for none). -/
def takeFault (s : State) (q d : Nat) (i : StopInfo) : State :=
  if d ≠ 0 && isContained i.cause then beginUnwind s q d i else stopStrand s q i

/-- R67, R186: an issue trap of the running stream: nothing of the bundle takes effect, the record names its slot. -/
def issueTrap (s : State) (addr : Word) (cause slot : Nat) : State :=
  stopStrand s s.cur { kind := 0, cause := cause, slot := slot, engine := 0, cqn := 0, aux0 := 0, aux1 := 0, cmask := 0, baddr := addr,
                       idx := [], op := none }

/-- R193: the running stream's bundle at addr stops with slot faults, the lowest-numbered first; cm is the completion mask. -/
def slotStop (s : State) (addr : Word) (f : SlotFault) (cm : BitVec 8) : State :=
  takeFault s s.cur (me s).regions.length
    { kind := 1, cause := f.cause, slot := f.slot, engine := 0, cqn := 0, aux0 := f.aux0, aux1 := f.aux1, cmask := cm, baddr := addr,
      idx := [], op := none }

/-! Effects at the end of a tick (R69). -/

/-- R79: the mapping of s31 (hi) or s30 ends, its held entry returns. -/
def endMap (s : State) (q : Nat) (hi : Bool) : State :=
  match mapOf (seqAt s q) hi with
  | none => s
  | some m =>
    let s1 := returnHeld s q m
    setSeq s1 q (setMap (seqAt s1 q) hi none)

/-- R88: TRAP: with a handler and outside one, the handler is entered; otherwise the strand stops with SW_TRAP. SLOT of its record is 2, that of TRAP
(DESIGN CHOICE, log 145). -/
def softTrap (s : State) (addr : Word) (code : BitVec 8) : State :=
  let sq := settle (me s)
  if sq.trapVec ≠ 0 && !sq.inTrap then
    setMe s { sq with epc := sq.pc, edly := delayWord sq.delayTarget sq.delayCount, inTrap := true,
                      trapCode := code, pc := sq.trapVec, delayCount := 0 }
  else
    stopStrand (setMe s sq) s.cur
      { kind := 3, cause := 0x40, slot := 2, engine := 0, cqn := 0, aux0 := 0, aux1 := code.setWidth 32, cmask := 0xFF, baddr := addr,
        idx := [], op := none }

/-- R89: ERET: what its bundle leaves due is done (the level whose last bundle it was pops, R50), and the position becomes that of CEPC with the
delay state of CEDLY. -/
def trapReturn (sq : Seq) (epc edly : Word) : Seq :=
  { settle sq with pc := epc, delayTarget := edly &&& 0xFFFFFFE0, delayCount := edly.toNat % 4, inTrap := false, due := none }

/-- One effect at the end of the running stream's tick. TRAP acts on the position that stands (R88). -/
def applyEnd (s : State) (e : EndEffect) : State :=
  let sq := me s
  match e with
  | .setRm m => setMe s { sq with rmode := m }
  | .setTs t => setMe s { sq with ts := t }
  | .setEst t => setMe s { sq with est := t }
  | .ctlWrite n v => setMe s (ctlWrite sq n v)
  | .queueMap hi sel =>
    let s1 := endMap s s.cur hi
    setMe s1 (setMap (me s1) hi (some { ring := if sel = 0xFFFFFFFF then 64 else sel.toNat, held := none }))
  | .queueUnmap hi => endMap s s.cur hi
  | .spadStore a v => setMyCore s (putSpad32 (myCore s) a v)
  | .transfer t => setMe s { sq with delayTarget := t, delayCount := 2 }
  | .loopPush start len count body => setMe s (pushLevel sq start len count body)
  | .loopSkip next => setMe s { sq with pc := next }
  | .loopPop => setMe s (popLevel sq)
  | .stageBind lv m => setMe s (bindStage (settle sq) lv m)
  | .predWrite p v => setMe s { sq with preds := putPred sq.preds p v }
  | .barrierWait k a => setMe s { sq with barWait := some (k, a) }
  | .trapTo code => softTrap s sq.pc code
  | .trapReturn epc edly => setMe s (trapReturn sq epc edly)
  | .strandEnd => setMe s { sq with endPending := true }

/-- An effect is kept for the end of the tick of the bundle in issue; outside a bundle it acts at once. -/
def atEnd (e : EndEffect) (s : State) : State :=
  let sq := me s
  match sq.issue with
  | none => applyEnd s e
  | some c => setMe s { sq with issue := some { c with ends := c.ends ++ [e] } }

/-- The address of the bundle in issue, or of the next bundle. -/
def bundleAddr (s : State) : Word :=
  match (me s).issue with
  | some c => c.addr
  | none => (me s).pc

end Sys2Proof.Machine
end

