-- ==== Sys2Proof/Machine/Memory.lean ====
section
/-! DEFINITION. Sys2Proof/Machine/Memory.lean: handles, views and their addresses (R151-R158), translation (R185, R262, R317), the
order of a strand's accesses (R168-R172), and bytes homed on other dies (R318-R320). -/

namespace Sys2Proof.Machine

/-- R152: the key of a handle table entry. -/
def handleKey (asid : Nat) (h : Word) : Nat := asid * 2 ^ 20 + h.toNat % 2 ^ 20

/-- R152: the entry that a handle's index names. -/
def handleEntry (s : State) (asid : Nat) (h : Word) : HandleEntry := tget HandleEntry.reset s.handles (handleKey asid h)

/-- R152: HTLOG of an address space; 20 until the host runtime fixes it (log 1). -/
def htlogOf (s : State) (asid : Nat) : Nat := tget 20 s.htlog asid

/-- R153: the handle is current. -/
def handleCurrent (s : State) (asid : Nat) (h : Word) : Bool :=
  let e := handleEntry s asid h
  decide (h.toNat % 2 ^ 20 < 2 ^ htlogOf s asid) && e.valid && e.gen == BitVec.ofNat 12 (h.toNat / 2 ^ 20)

/-- R156: ViewSize. -/
def viewSize (v : View) : Nat :=
  (vget 0 v.xt 0).toNat * (vget 0 v.xt 1).toNat * (vget 0 v.xt 2).toNat * (vget 0 v.xt 3).toNat

/-- R156: the offset of position L from the allocation's byte 0, formed exactly. -/
def viewOffset (v : View) (l : Nat) : Int :=
  let x0 := (vget 0 v.xt 0).toNat
  let x1 := (vget 0 v.xt 1).toNat
  let x2 := (vget 0 v.xt 2).toNat
  (v.off.toNat : Int) + (l % x0 : Nat) * (vget 0 v.sd 0).toInt + (l / x0 % x1 : Nat) * (vget 0 v.sd 1).toInt
    + (l / (x0 * x1) % x2 : Nat) * (vget 0 v.sd 2).toInt + (l / (x0 * x1 * x2) : Nat) * (vget 0 v.sd 3).toInt

/-- R157: the positions from `first` on, `count` of them, that are in view. -/
def inView (v : View) (first count : Nat) : List Nat :=
  (List.range (min count (viewSize v - first))).map (fun j => first + j)

/-- R2, R7: the bytes of a die's HBM: 64 GB. -/
def hbmBytes : Nat := 64 * 10 ^ 9

/-- R1, R7, R317: the bytes of the package's LPDDR6: 2048 GB, and none in an MZ-STV16-PK. -/
def lpddrBytes : Nat := if Config.withLpddr then 2048 * 10 ^ 9 else 0

/-- R185: the bytes of a page. -/
def pageBytes (size : Nat) : Nat := if size = 0 then 2 ^ 16 else if size = 1 then 2 ^ 21 else 2 ^ 30

/-- R185: the page of an address space that holds an address. -/
def pageFor (l : List Page) (asid va : Nat) : Option Page :=
  l.find? (fun p => p.asid == asid && decide (p.va ≤ va) && decide (va < p.va + pageBytes p.size))

/-- R262: what the translation caches of a die hold for an address. -/
def tlbFind (s : State) (die asid va : Nat) : Option WalkResult :=
  ((tget [] s.tlb die).find? (fun e => e.asid == asid && e.vpn == va / 65536)).map (fun e => e.result)

/-- What a translation gives: a location of this package, an address of another package, a fault, or nothing yet. -/
inductive Xlate where
  | at_ (loc : Nat)
  | remote (dest lasid va : Nat)
  | perm
  | unmapped
  | scratch
  | uncorr
  | denied
  | timeout
  | miss
deriving DecidableEq, Repr

/-- The destination of a number (R347). -/
def destAt (s : State) (n : Nat) : PodDest := tget PodDest.reset s.pod.dests n

/-- R257, R317, R348: the place of a byte of a page. A byte of a slice whose way is not scratch has none; with `old`, an access that was
checked before a change of the mask still finds the ways that the change takes away (R259), and one checked before a fence or before VALID was cleared its
place (R351, R353). A destination that may not be reached gives none, and one that is fenced none, to an access that is checked now (R349, R354). -/
def pagePlace (s : State) (old : Bool) (p : Page) (va : Nat) : Xlate :=
  match p.target with
  | .remote dest lasid base =>
    if (destAt s dest).fenced && !old then .timeout
    else if (destAt s dest).valid || old then .remote dest lasid (base + (va - p.va))
    else .unmapped
  | .registers die => .at_ (location (48 + die) (va - p.va))
  | .local_ tier die base =>
    let pa := base + (va - p.va)
    if tier = 1 then
      let x := sliceAt s die (pa / 256 % 32)
      let w := pa / 2 ^ 22 % 16
      if x.scratch.getLsbD w || (old && x.old.getLsbD w) then .at_ (location (16 + die) pa) else .scratch
    else .at_ (location (unitOf tier die pa) pa)

/-- R184, R185, R262: the translation of an address by the caches of a die, for a read or a write: a destination that may not be reached comes before the
permission, and the permission before a way that is not scratch. -/
def xlateAs (s : State) (old : Bool) (die asid va : Nat) (wr : Bool) : Xlate :=
  match tlbFind s die asid va with
  | none => .miss
  | some .unmapped => .unmapped
  | some .uncorr => .uncorr
  | some .denied => .perm
  | some .timeout => .timeout
  | some (.page p) =>
    match pagePlace s old p va with
    | .timeout => .timeout
    | .unmapped => .unmapped
    | x => if wr && !p.writable then .perm else x

/-- The translation of an access that is checked now. -/
def xlate (s : State) (die asid va : Nat) (wr : Bool) : Xlate := xlateAs s false die asid va wr

/-- The translation of an access that performs now, and was checked before. -/
def xlateLate (s : State) (die asid va : Nat) (wr : Bool) : Xlate := xlateAs s true die asid va wr

/-- The outcome of the checks of an access: it may go, it waits for walks of pages (die, address space, 64 KiB page number), or it fails
with a cause and its AUX0. -/
inductive Check where
  | ok
  | wait (vpns : List Nat)
  | fail (cause : Nat) (aux0 : BitVec 64)
deriving DecidableEq, Repr

/-- The first of two outcomes that is not ok, failures of the first before waits of the second. -/
def Check.andThen (a b : Check) : Check :=
  match a with
  | .ok => b
  | x => x

/-- The addresses of positions of a view over an allocation, as exact integers. -/
def viewAddrs (e : HandleEntry) (v : View) (ls : List Nat) : List Int := ls.map (fun l => (e.base : Int) + viewOffset v l)

/-- The pages whose walks the translation of addresses misses. -/
def missingPages (s : State) (die asid : Nat) (wr : Bool) (vas : List Nat) : List Nat :=
  distinct ((vas.filter (fun va => xlate s die asid va wr == .miss)).map (fun va => va / 65536))

/-- R352: the ATOM bit of an atomic operation; none for one that has no bit, and for ALD and AST, which need none. -/
def atomBit (op : AtomicOp) : Option Nat :=
  match op with
  | .add => some 0
  | .smin => some 1
  | .smax => some 1
  | .umin => some 2
  | .umax => some 2
  | .and => some 3
  | .or => some 3
  | .xor => some 3
  | .xchg => some 4
  | .cas => some 5
  | .fadd => some 6
  | _ => none

/-- R352: an atomic operation can be sent to a destination. -/
def mayAtomic (d : PodDest) (op : AtomicOp) : Bool :=
  op == .load || op == .store || d.stav || (match atomBit op with
    | some k => d.atom.getLsbD k
    | none => false)

/-- What an access asks of a place beyond its translation: a place on a scratch way, of an allocation of TIER 1 (R317), a place on this package, for the record
of a LAUNCH, and for an atomic, its operation. -/
structure Ask where
  tier1 : Bool := false
  here : Bool := false
  op : Option AtomicOp := none
deriving DecidableEq, Repr

/-- R348, R352: the translation of an address as an access meets it. At another package a TIER 1 use finds no scratch, and an atomic that the
destination does not perform no permission; LAUNCH, which R348 does not permit there, finds no translation. -/
def Ask.meets (k : Ask) (s : State) (x : Xlate) : Xlate :=
  match x with
  | .remote d _ _ =>
    if k.here then .unmapped
    else if (match k.op with
      | some op => !mayAtomic (destAt s d) op
      | none => false) then .perm
    else if k.tier1 then .scratch
    else x
  | _ => x

/-- R184: the first cause of the table that a translation of the addresses meets, with the first address that meets it. -/
def pageFault (s : State) (die asid : Nat) (wr : Bool) (k : Ask) (vas : List Nat) : Option (Nat × Nat) :=
  let causes : List (Xlate × Nat) := [(.timeout, 0x2B), (.unmapped, 0x26), (.perm, 0x27), (.scratch, 0x2D), (.uncorr, 0x2A)]
  causes.findSome? (fun c => (vas.find? (fun va => k.meets s (xlate s die asid va wr) == c.1)).map (fun va => (c.2, va)))

/-- R191: AUX0 of a translation cause: the address, and zero for REMOTE_TIMEOUT and SCRATCH_UNMAPPED. -/
def pageAux (cause va : Nat) : BitVec 64 := if cause = 0x2B ∨ cause = 0x2D then 0 else BitVec.ofNat 64 va

/-- R184: the translation checks of addresses, in the order of the table: a walk that is missing holds the access before any of
them. -/
def checkPages (s : State) (die asid : Nat) (wr : Bool) (k : Ask) (vas : List Nat) : Check :=
  match missingPages s die asid wr vas, pageFault s die asid wr k vas with
  | [], some (c, va) => .fail c (pageAux c va)
  | [], none => .ok
  | l, _ => .wait l

/-- R184, R348, R352: the translation checks of addresses of an allocation, of an atomic with its operation. -/
def checkPlaces (s : State) (die asid : Nat) (wr : Bool) (e : HandleEntry) (op : Option AtomicOp) (vas : List Nat) : Check :=
  checkPages s die asid wr { tier1 := e.tier == 1, op := op } vas

/-- R157: every position lies inside the allocation. -/
def checkRange (e : HandleEntry) (as : List Int) : Check :=
  match as.find? (fun (a : Int) => decide (a < (e.base : Int)) || decide ((e.base : Int) + (e.size : Int) ≤ a)) with
  | some a => .fail 0x24 (BitVec.ofInt 64 a)
  | none => .ok

/-- R153: the handle check of slot n; a handle that the running stream's held bundle has pinned for the slot stands. -/
def checkHandle (s : State) (n asid : Nat) (h : Word) : Check :=
  if handleCurrent s asid h || (asid == (me s).asid && (me s).pinned.contains (n, h)) then .ok else .fail 0x20 (h.setWidth 64)

/-- R153, R154, R179: the handle check of TCOPY and HFREE, which no hold has made before. -/
def checkCurrent (s : State) (asid : Nat) (h : Word) : Check := if handleCurrent s asid h then .ok else .fail 0x20 (h.setWidth 64)

/-- R184: the handle, range and translation checks of an M-slot access to positions of a view; a tile view is a stale handle for it (R235). -/
def checkView (s : State) (die asid : Nat) (v : View) (ls : List Nat) (wr : Bool) : Check :=
  let e := handleEntry s asid v.handle
  let as := viewAddrs e v ls
  (checkHandle s 5 asid v.handle).andThen
    ((checkRange e as).andThen (checkPlaces s die asid wr e none (as.map Int.toNat)))

/-- R319: the byte that an agent of a die reads at a location, at a scope (R21). -/
def readByte (s : State) (die : Nat) (sc : Nat) (loc : Nat) : Byte :=
  if 3 ≤ sc ∨ homeDie loc = some die then memByte s.mem loc
  else
    match forwardedByte s.forwards die loc with
    | some b => b
    | none => memByte s.mem loc

/-- R320: writes of a die that its proxy of a location's slice has taken and the home has not performed. -/
def forwardsAhead (s : State) (die loc : Nat) : Bool :=
  homeDie loc != some die && s.forwards.any (fun f => f.die == die && f.slice == sliceOf loc && f.cells.any (fun c => homeOf c.1 == homeOf loc))

/-- R275: a strand holds the pseudo-channel of a byte. -/
def bankHeld (s : State) (die asid : Nat) (vas : List Nat) : Bool :=
  vas.any (fun va => match xlateLate s die asid va false with
    | .at_ loc => channelHeld s loc
    | _ => false)

/-- R319: a read at package scope waits for the writes of its die that reached the proxy before it. -/
def readsWait (s : State) (die asid sc : Nat) (vas : List Nat) : Bool :=
  decide (3 ≤ sc) && vas.any (fun va => match xlateLate s die asid va false with
    | .at_ loc => forwardsAhead s die loc
    | _ => false)

/-! The fetch (R12, R51). -/

/-- R12: the place of the bundle at an address of the running stream's address space; none where no page of this package has it (a fetch
miss, log 12), or while a strand holds its pseudo-channel (R275). -/
def fetchPlace (s : State) (a : Word) : Option Nat :=
  match pageFor s.pages (me s).asid a.toNat with
  | none => none
  | some p =>
    match pagePlace s false p a.toNat with
    | .at_ loc => if loc < location 48 0 ∧ channelHeld s loc = false then some loc else none
    | _ => none

/-- R12: the 32 bytes of the bundle at an address. -/
def fetchBytes (s : State) (a : Word) : Option (List Byte) :=
  (fetchPlace s a).map (fun loc => (List.range 32).map (fun j => readByte s (dieOf s.cur) 2 (loc + j)))

/-- R51: the words of a bundle that the loop buffer holds for an active level, the outermost that has them. -/
def buffered (l : List LoopLevel) (a : Word) : Option (List Nat) := l.findSome? (fun x => tfind x.body a.toNat)

/-- The words of the bundle at an address. -/
def fetchWords (s : State) (a : Word) : Option (List Nat) :=
  match buffered (me s).loops a with
  | some ws => some ws
  | none => (fetchBytes s a).map (wordsOfBytes 8)

/-- R51: the bundle at an address is replayed from the loop buffer: a level beyond its first iteration has it. -/
def isReplayed (l : List LoopLevel) (a : Word) : Bool := l.any (fun x => x.index != 0 && (tfind x.body a.toNat).isSome)

/-- R51, R257: the fetch of the bundle at an address passes the forwarding buffer of an uncached slice; a replayed bundle is not fetched. -/
def passFetch (s : State) (a : Word) : State :=
  if isReplayed (me s).loops a then s else passUncached s (fetchPlace s a).toList

/-- R51: the body that a new level of len bundles from an address on captures, when it has at most 32; a bundle that cannot be fetched is not
in it. A store to the body takes no effect on fetches until the level pops. -/
def capturedBody (s : State) (start : Word) (len : Nat) : Sparse (List Nat) :=
  if 32 < len then []
  else (List.range len).foldl (fun t k =>
    let a := start + BitVec.ofNat 32 (32 * k)
    match fetchWords s a with
    | some ws => tput t a.toNat ws
    | none => t) []

/-- R257, R318-R320: an agent of a die writes cells, in order: those homed on the die are written, through the forwarding buffers of uncached slices, the
others are taken by the die's proxy slices and forwarded. -/
def writeCells (s : State) (die op : Nat) (l : List Host.Cell) : State :=
  let here := l.filter (fun c => homeDie c.1 == some die)
  let fs := forwardsOf op die s.nextOp l
  { s with mem := memPutCells s.mem here, slices := passedUncached s (here.map Prod.fst), forwards := s.forwards ++ fs, nextOp := s.nextOp + fs.length }

/-! Memory as the package's own agents read it. -/

/-- A byte at a virtual address through the page tables of an address space, for a unit of the package; zero where no local page has it. -/
def virtualByte (s : State) (asid va : Nat) : Byte :=
  match pageFor s.pages asid va with
  | none => 0
  | some p =>
    match pagePlace s true p va with
    | .at_ loc => homeByte s loc
    | _ => 0

/-- n bytes from a virtual address on. -/
def virtualBytes (s : State) (asid va n : Nat) : List Byte := (List.range n).map (fun j => virtualByte s asid (va + j))

/-- The place on this package of a virtual address, as a unit of the package finds it. -/
def virtualPlace (s : State) (asid va : Nat) : Option Nat :=
  match (pageFor s.pages asid va).map (fun p => pagePlace s true p va) with
  | some (.at_ loc) => some loc
  | _ => none

/-- R275: a strand holds the pseudo-channel of one of n bytes from a virtual address on; a pseudo-channel holds 4 KiB granules. -/
def virtualHeld (s : State) (asid va n : Nat) : Bool :=
  !noChannelHeld s && (pieces 4096 va n).any (fun a => (virtualPlace s asid a).any (channelHeld s))

/-- R257: a unit's read of n bytes from a virtual address on passes the forwarding buffers of uncached slices. -/
def passVirtual (s : State) (asid va n : Nat) : State := passUncached s ((pieces 256 va n).filterMap (virtualPlace s asid))

/-- The cells of bytes written at a virtual address, where a local page has them. -/
def virtualCells (s : State) (asid va : Nat) (l : List Byte) : List Host.Cell :=
  match l with
  | [] => []
  | b :: rest =>
    let r := virtualCells s asid (va + 1) rest
    match pageFor s.pages asid va with
    | none => r
    | some p =>
      match pagePlace s true p va with
      | .at_ loc => (loc, b) :: r
      | _ => r

/-- Bytes written by the package's own agents, performed at their homes. -/
def writeVirtual (s : State) (asid va : Nat) (l : List Byte) : State := writeHome s (virtualCells s asid va l)

/-- n little-endian bytes of a list, from byte k on, as a number. -/
def natAt (l : List Byte) (k n : Nat) : Nat := natOfBytes ((l.drop k).take n)

/-- The 32-bit word of a list at byte k. -/
def wordAt (l : List Byte) (k : Nat) : Word := BitVec.ofNat 32 (natAt l k 4)

/-! Ordering within a strand (R168-R172). -/

/-- R170: the footprint of a view, as its first and last address; none when an extent is zero. BASE is that of the handle's index at the time of
the test, also for a view whose handle has been freed (log 95). -/
def footprint (s : State) (asid : Nat) (v : View) : Option (Int × Int) :=
  if viewSize v = 0 then none
  else
    let b := ((handleEntry s asid v.handle).base : Int) + v.off.toNat
    let t := fun (k : Nat) => (vget 0 v.sd k).toInt * ((vget 0 v.xt k).toNat - 1 : Int)
    some (b + min 0 (t 0) + min 0 (t 1) + min 0 (t 2) + min 0 (t 3), b + max 0 (t 0) + max 0 (t 1) + max 0 (t 2) + max 0 (t 3))

/-- R170, test 2: the greatest common divisor of the strides whose extent exceeds 1 in either view. -/
def strideGcd (a b : View) : Nat :=
  let g := fun (k : Nat) =>
    if 1 < (vget 0 a.xt k).toNat ∨ 1 < (vget 0 b.xt k).toNat then (vget 0 a.sd k).toInt.natAbs else 0
  Nat.gcd (g 0) (Nat.gcd (g 1) (Nat.gcd (g 2) (g 3)))

/-- R170: the two views can meet. Addresses and handles of two address spaces are compared as they stand (log 96). -/
def canMeet (s : State) (asidA : Nat) (a : View) (asidB : Nat) (b : View) : Bool :=
  match footprint s asidA a, footprint s asidB b with
  | some fa, some fb =>
    if fa.2 < fb.1 ∨ fb.2 < fa.1 then false
    else if a.handle = b.handle ∧ a.sd = b.sd then
      let g := strideGcd a b
      let d := (a.off.toNat : Int) - b.off.toNat
      if g = 0 then decide (d = 0) else decide (d % (g : Int) = 0)
    else true
  | _, _ => false

/-- R216: the bytes of an allocation that MSTAT fetches, as a view. -/
def fetchView (h : Word) : View :=
  { View.reset with handle := h, xt := vput (Vector.replicate 4 1) 0 32768, sd := vput (Vector.replicate 4 0) 0 1 }

/-- R171: two accesses, the first earlier in program order, are ordered. -/
def accessOrdered (s : State) (asid : Nat) (a b : BitVec 4 × View × Bool) : Bool :=
  a.1 == b.1 || ((a.2.2 || b.2.2) && canMeet s asid a.2.1 asid b.2.1)

/-- R172: the FENCEs between two operations that select both accesses; the widest of their scopes. -/
def fenceScope (l : List FenceMark) (a b : Nat) (ca cb : BitVec 4) : Option Nat :=
  let between := l.filter (fun f => decide (a < f.at_) && decide (f.at_ ≤ b) && f.mask.getLsbD ca.toNat && f.mask.getLsbD cb.toNat)
  if between.isEmpty then none else some (between.foldl (fun n f => max n f.scope.toNat) 0)

/-- The scope of a release that an operation makes (R267). -/
def releaseScope (o : Op) : Option Nat :=
  match o.kind with
  | .atomic _ _ _ _ _ _ ord sc _ => if ord = 2 ∨ ord = 3 then some (sc.toNat + 1) else none
  | _ => none

/-- The scope of an acquire that an operation makes (R267). -/
def acquireScope (o : Op) : Option Nat :=
  match o.kind with
  | .atomic _ _ _ _ _ _ ord sc _ => if ord = 1 ∨ ord = 3 then some (sc.toNat + 1) else none
  | _ => none

/-- R216: the operation is an MSTAT's fetch of a handle's bytes. -/
def isFetch (o : Op) : Bool :=
  match o.kind with
  | .array (.mstatFetch _ _ _ _) => true
  | _ => false

/-- The operation reads or writes an allocation: through views, or as a fetch (R216) or the steps of a PMAC (R277). -/
def makesAccess (o : Op) : Bool :=
  !(accessesOf o).isEmpty || isFetch o || (match o.kind with
    | .bank (.pmac _ _ _) => true
    | _ => false)

/-- R196: the operations of one memory path, which a failed one holds. -/
def onMemoryPath (o : Op) : Bool :=
  match o.kind with
  | .copy _ _ _ _ _ _ _ _ _ => false
  | .array _ => false
  | .bank _ => false
  | .placed _ _ _ _ _ _ _ _ _ _ _ _ _ _ => false
  | .retire _ _ _ => false
  | .tileSet _ _ => false
  | _ => true

/-- R354: an operation that another package's fence has poisoned: a release, a FENCE, a barrier and a retire do not wait for it any more. -/
def poisonedOp (s : State) (a : Op) : Bool :=
  let sq := seqAt s a.seq
  a.phase == .failed &&
    (sq.reports.any (fun r => r.op == a.id && r.cause == 0x34) || (match sq.stop with
      | some i => i.op == some a.id && i.cause == 0x34
      | none => false))

/-- R171, R172: the accesses xs of an earlier operation a come before the accesses ys, which number n of the strand is to make, by class, by views that meet
or by a FENCE between, and a is not done for them. -/
def orderedBack (s : State) (sq : Seq) (a : Op) (xs ys : List (BitVec 4 × View × Bool)) (n : Nat) : Bool :=
  let pairs := xs.flatMap (fun x => ys.map (fun y => (x, y)))
  (!orderDone s a 0 && pairs.any (fun p => accessOrdered s a.asid p.1 p.2)) ||
    (!poisonedOp s a && pairs.any (fun p =>
      match fenceScope sq.fences a.id n p.1.1 p.2.1 with
      | some sc => !orderDone s a sc
      | none => false))

/-- R171, R172, R216, R267: an earlier operation a of the strand that b has to wait for, and has not yet performed. -/
def holdsBack (s : State) (sq : Seq) (a b : Op) : Bool :=
  if a.seq ≠ b.seq ∨ b.id ≤ a.id then false
  else
    let byAcquire :=
      (match acquireScope a with
        | some sc => !performedAt s a sc && makesAccess b
        | none => false)
    let byRelease :=
      (match releaseScope b with
        | some sc => makesAccess a && !orderDone s a sc && !poisonedOp s a
        | none => false)
    let byFetch :=
      (match a.kind, b.kind with
        | .array (.mstatFetch h _ _ _), _ =>
          !performedAt s a 0 && (accessesOf b).any (fun y => y.2.2 && canMeet s a.asid (fetchView h) b.asid y.2.1)
        | _, .array (.mstatFetch h _ _ _) =>
          !performedAt s a 0 && (accessesOf a).any (fun x => x.2.2 && canMeet s a.asid x.2.1 b.asid (fetchView h))
        | _, _ => false)
    let byFailure := onMemoryPath a && onMemoryPath b && a.phase == .failed && !((releaseScope b).isSome && poisonedOp s a)
    orderedBack s sq a (accessesOf a) (accessesOf b) b.id || byAcquire || byRelease || byFetch || byFailure

/-- R171, R172, R267: nothing earlier of its strand holds the operation back. -/
def mayPerform (s : State) (o : Op) : Bool := !s.ops.any (fun a => holdsBack s (seqAt s o.seq) a o)

/-- R348: the page of an address is another package's. -/
def remotePage (s : State) (asid va : Nat) : Bool :=
  match pageFor s.pages asid va with
  | some p => (match p.target with
    | .remote _ _ _ => true
    | _ => false)
  | none => false

/-- The operation of a number. -/
def opAt (s : State) (n : Nat) : Option Op := s.ops.find? (fun o => o.id == n)

/-- The operations with one replaced. -/
def setOp (s : State) (o : Op) : State := { s with ops := s.ops.map (fun x => if x.id = o.id then o else x) }

/-- The operations without one. -/
def dropOp (s : State) (n : Nat) : State := { s with ops := s.ops.filter (fun x => x.id != n) }

/-- R265: an AST of the HBM or the slices, which its home bank performs. -/
def isAst (s : State) (op : Nat) : Bool :=
  match opAt s op with
  | some o => (match o.kind with
    | .atomic .store _ _ _ _ _ _ _ _ => true
    | _ => false)
  | none => false

/-- R257, R265, R320: a write on its way is performed at its home: an AST changes its line there, and every access to a line of an uncached slice passes the
forwarding buffer. -/
def performForward (s : State) (f : Forward) : State :=
  let loc := (f.cells.headD (0, 0)).1
  let s1 := if isAst s f.op && !uncachedLine s loc then forwardLine s loc else s
  { s1 with mem := memPutCells s1.mem f.cells, slices := passedUncached s1 (f.cells.map Prod.fst), forwards := s1.forwards.filter (fun g => g.id != f.id) }

/-- R275, R343, R344: the writes of the host and of the package's units that waited for the PEXIT of a pseudo-channel are performed, and the trace records that
waited for them are written. -/
def landWaiting (s : State) : State :=
  let s1 := (s.forwards.filter (fun f => f.die == noDie && !forwardHeld s f)).foldl performForward s
  s1.dies.foldl (fun s d => if d.2.trace.due.isEmpty then s else writeDue s d.1) s1

/-- R196, R200, R301: an operation is dropped with its requests and its mark; a core whose last array command it was leaves the lease. -/
def dropFailed (s : State) (o : Op) : State :=
  let s1 := dropOp (dropRequests (setSeq s o.seq (clearMark (seqAt s o.seq) o)) o.id) o.id
  if isArrayOp o then endImplicit s1 (quadOf o.seq) (coreOf o.seq % 4) else s1

/-- R301: the task of a strand is killed. -/
def strandKilled (s : State) (sq : Seq) : Bool :=
  match tfind s.tasks (taskOf sq) with
  | some t => t.killed
  | none => false

/-- R172: FENCEs that no earlier operation needs any more are forgotten. -/
def pruneFences (s : State) (q : Nat) : State :=
  let sq := seqAt s q
  let live := sq.fences.filter (fun f => s.ops.any (fun o => o.seq == q && decide (o.id < f.at_)))
  if live.length = sq.fences.length then s else setSeq s q { sq with fences := live }

/-- R106: an M-slot or E-slot operation completes: its flags reach its strand's CSTAT. It stays listed while a home has yet to perform
a write of it (R320). -/
def completeOp (s : State) (o : Op) : State :=
  let sq := seqAt s o.seq
  let s1 := setSeq s o.seq { sq with cstat := sq.cstat ||| o.flags }
  let s2 := if s1.forwards.any (fun f => f.op == o.id) then setOp s1 { o with phase := .drained, flags := 0, wtiles := [], pins := [] }
            else dropOp s1 o.id
  pruneFences s2 o.seq

/-- R191: the status word of an engine whose layout the spec does not give: a free value. -/
def freeStatus (s : State) : State × BitVec 64 := ({ s with free := s.free + 1 }, Config.statusWord s.free)

/-- R262: answers that are no translation leave the caches once the access that waited has taken them. -/
def dropFailures (s : State) (die asid : Nat) : State :=
  let keep := (tget [] s.tlb die).filter (fun e => e.asid != asid || (match e.result with
    | .page _ => true
    | _ => false))
  { s with tlb := tput s.tlb die keep }

/-- R196: an engine fails the command of an operation: it keeps the command and reports to the issuing strand. One that a step of a frozen core raises appears in that step (R205). A fault that the unwind of the
command's region meets is not reported (R200), and a command of a strand that is killed is dropped (R301). -/
def failOp (s : State) (o : Op) (cause engine cqn : Nat) (aux0 : BitVec 64) (aux1 : Word) : State :=
  let s := dropFailures s (dieOf o.seq) o.asid
  let sq := seqAt s o.seq
  let unwinding :=
    (match sq.unwind with
      | some u => decide (u.depth ≤ o.region)
      | none => false)
  if (sq.endPending && strandKilled s sq) || unwinding then dropFailed s o
  else
    let r : EngineReport :=
      { op := o.id, cause := cause, engine := engine, cqn := cqn, slot := o.slot, baddr := o.baddr, idx := o.idx, aux0 := aux0, aux1 := aux1,
        region := o.region, stepped := coreFrozen s (coreOf o.seq) }
    setOp (setSeq s o.seq { sq with reports := sq.reports ++ [r] }) { o with phase := .failed }

/-- R196: the same, of an engine whose status word is not given. -/
def failOpFree (s : State) (o : Op) (cause engine cqn : Nat) (aux1 : Word) : State :=
  let x := freeStatus s
  failOp x.1 o cause engine cqn x.2 aux1

/-- The operation has completed as R90 and R199 ask. -/
def isComplete (o : Op) : Bool := o.phase == .drained

/-- R124: the tiles of a core that an M or E operation has yet to write. -/
def markedTiles (s : State) (k : Nat) : List Nat := (s.ops.filter (fun o => coreOf o.seq == k)).flatMap (fun o => o.wtiles)

/-- A new operation of slot `slot` of sequencer q, from the bundle at an address. -/
def newOpFor (s : State) (q : Nat) (addr : Word) (slot : Nat) (r w : Option (BitVec 4)) (tiles : List Nat) (pins : List Word) (k : OpKind)
    (via : List Nat := []) (slice : Option Nat := none) : State :=
  let sq := seqAt s q
  let o : Op :=
    { id := s.nextOp, seq := q, slot := slot, baddr := addr, tick := sq.ticks, region := sq.regions.length,
      idx := (List.range 6).map (loopIndex sq), asid := sq.asid, rcls := r, wcls := w, wtiles := tiles, pins := pins, phase := .queued,
      flags := 0, result := [], kind := k, via := via, slice := slice }
  { s with ops := s.ops ++ [o], nextOp := s.nextOp + 1 }

/-- A new operation of the running stream's slot. -/
def newOp (s : State) (slot : Nat) (r w : Option (BitVec 4)) (tiles : List Nat) (pins : List Word) (k : OpKind) (via : List Nat := [])
    (slice : Option Nat := none) : State :=
  newOpFor s s.cur (bundleAddr s) slot r w tiles pins k via slice

/-- R178: the walks that an access waits for are asked of the die's walkers, each once. -/
def requestWalks (s : State) (die asid : Nat) (vpns : List Nat) : State :=
  let w := tget [] s.walks die
  { s with walks := tput s.walks die (w ++ (vpns.map (fun v => (asid, v))).filter (fun x => !w.contains x)) }

end Sys2Proof.Machine
end

