-- ==== Sys2Proof/Machine/Issue.lean ====
section
/-! DEFINITION. Sys2Proof/Machine/Issue.lean: what the sequencer checks before an instruction takes effect: the traps raised at issue, in the
order of R67, R91, R126, R183 and R202. The holds of R64 stand in Machine/Slot.lean. -/

namespace Sys2Proof.Machine

/-- The slot of a slot instruction. -/
def slotNo (i : Instr) : Nat :=
  match slotOf i with
  | some cl => slotNumber cl
  | none => 0

/-- An issue trap: its place in the order of R67, R91, R126, R183 and R202, and its cause (R190). -/
structure TrapAt where
  order : Nat
  cause : Nat
deriving DecidableEq, Repr

/-- The trap when a condition holds. -/
def trapIf (b : Bool) (order cause : Nat) : List TrapAt := if b then [{ order := order, cause := cause }] else []

/-- R66: a taken transfer whose count is nonzero, or on whose bundle the boundary of R50 would act. -/
def transferTraps (sq : Seq) (addr : Word) : List TrapAt := trapIf (decide (sq.delayCount ≠ 0) || atBoundary sq addr) 2 3

/-- R39: the target of a jump through a register is no bundle address. -/
def targetTraps (t : Word) : List TrapAt := trapIf (t.setWidth 5 != 0#5) 1 2

/-- R66, R67, R82: the traps of a loop push with n iterations and a body of len bundles. -/
def loopTraps (sq : Seq) (addr : Word) (n : Word) (len : Nat) : List TrapAt :=
  let start := addr.toNat + 32
  let last := start + 32 * (len - 1)
  let inside :=
    match sq.loops.getLast? with
    | none => true
    | some l => decide (l.start.toNat ≤ start) && decide (last ≤ l.start.toNat + 32 * (l.len.toNat - 1))
  trapIf (decide (sq.delayCount ≠ 0)) 2 3 ++ trapIf (n != 0 && decide (depth sq = 6)) 3 4 ++ trapIf (!inside) 6 7

/-- R52, R67: a fixed-latency result that names a bound stage predicate. -/
def stageTraps (sq : Seq) (p : BitVec 3) : List TrapAt :=
  match sq.stage with
  | none => []
  | some b => trapIf (decide (4 ≤ p.toNat) && b.mask.getLsbD (p.toNat - 4)) 4 5

/-- R84: the depth as the boundary of the bundle at addr leaves it. -/
def depthAfter (sq : Seq) (addr : Word) : Nat :=
  if sq.delayCount = 0 ∧ atBoundary sq addr then depth (loopBoundary 6 sq addr) else depth sq

/-- R85: the bucket table k of the strand's task. -/
def bucketOf (s : State) (k : Nat) : Bucket :=
  match tfind s.tasks (taskOf (me s)) with
  | some t => tget Bucket.reset t.info.buckets k
  | none => Bucket.reset

/-- R79: the selector of a QMAP is denied. -/
def qmapDenied (s : State) (hi : Bool) (sel : Word) : Bool :=
  let sq := me s
  let n := if sel = 0xFFFFFFFF then 64 else sel.toNat
  let other :=
    match mapOf sq (!hi) with
    | none => false
    | some m => m.ring == n
  let bad :=
    if n < 64 then !(tget Ring.reset (myCore s).rings n).valid
    else if n = 64 ∧ sel = 0xFFFFFFFF then !isSteward (coreOf s.cur)
    else true
  bad || other

/-- R78: the traps of SLD and SST at an address. -/
def wordTraps (a : Nat) : List TrapAt := trapIf (decide (0x40000 ≤ a)) 11 0x0C ++ trapIf (decide (a % 4 ≠ 0)) 12 0x0D

/-- R121, R174, R176: the traps of n scratchpad bytes at an address that must be a multiple of k. -/
def spadTraps (a n k : Nat) : List TrapAt := trapIf (decide (0x40000 < a + n)) 11 0x0C ++ trapIf (decide (a % k ≠ 0)) 12 0x0D

/-- R78: the address of SLD and SST. -/
def spadAddr (s : State) (n : Nat) (a : BitVec 6) (off : BitVec 8) : Word := src s a + 4 * immSigned 8 off (extOf s n)

/-- R125, R196: the copies of copy queue cq of a core, a failed one among them until its strand resumes. -/
def copiesOf (s : State) (k cq : Nat) : List Op :=
  s.ops.filter (fun o => coreOf o.seq == k && o.phase != .drained && (match o.kind with
    | .copy _ _ _ _ _ c _ _ _ => c == cq
    | _ => false))

/-- R125, R180: the entries of copy queue cq of a core: a copy that has failed has left with its stamp. -/
def copiesIn (s : State) (k cq : Nat) : List Op := (copiesOf s k cq).filter (fun o => o.phase != .failed)

/-- R160: modes W (1) and S (2) allow atomics, W alone stores. -/
def viewTraps (v : View) (store atomic : Bool) : List TrapAt :=
  trapIf (!v.isOpen) 15 0x10 ++
    trapIf ((store && v.mode != 1) || (atomic && v.mode != 1 && v.mode != 2)) 16 0x11

/-- R159: a view that a VFSET may not write. -/
def busyTraps (s : State) (v : BitVec 4) : List TrapAt :=
  let sq := me s
  let w := viewAt sq v.toNat
  let opening :=
    match sq.issue with
    | none => false
    | some c =>
      match slotAt c.slots 5 with
      | some (.vopen g x _ _ _) => x == v && guardTrue sq.preds g
      | _ => false
  trapIf (w.isOpen || w.retiring || opening) 17 0x12

/-- R164: a pending VFSET or VFSETI entry targets a field of the view. -/
def viewPending (sq : Seq) (v : BitVec 4) : Bool :=
  sq.queue.any (fun p => match p.dest with
    | .viewField w _ => w == v
    | _ => false)

/-- R183: the traps of a placed operation. -/
def placedTraps (sq : Seq) (vd va : BitVec 4) (vb : Option (BitVec 4)) : List TrapAt :=
  viewTraps (viewAt sq vd.toNat) true false ++ viewTraps (viewAt sq va.toNat) false false ++
    (match vb with
      | some b => viewTraps (viewAt sq b.toNat) false false
      | none => [])

/-- The issue traps that an instruction with a true guard raises in the bundle at addr. -/
def trapsOf (s : State) (addr : Word) (i : Instr) : List TrapAt :=
  let sq := me s
  let n := slotNo i
  let stage := match predDest i with
    | some p => stageTraps sq p
    | none => []
  stage ++ match i with
  | .br _ _ => transferTraps sq addr
  | .call _ _ => transferTraps sq addr
  | .jr _ a => targetTraps (src s a) ++ transferTraps sq addr
  | .callr _ a => targetTraps (src s a) ++ transferTraps sq addr
  | .bktj _ _ k => transferTraps sq addr ++ trapIf (bucketOf s k.toNat).caps.isEmpty 9 0x0A
  | .lbrk _ => trapIf (decide (sq.delayCount ≠ 0) || atBoundary (popLevel sq) addr) 2 3 ++ trapIf (depth sq == 0) 7 8
  | .loop _ a len => loopTraps sq addr (src s a) len.toNat
  | .loopi _ cnt len => loopTraps sq addr (immUnsigned 12 cnt (extOf s n)) len.toNat
  | .lstg _ lv _ => trapIf (decide (depthAfter sq addr < lv.toNat)) 8 9
  | .qmap _ _ hi a => trapIf (qmapDenied s hi (src s a)) 10 0x0B
  | .sld _ _ _ a off => wordTraps (spadAddr s n a off).toNat
  | .sst _ _ _ a off => wordTraps (spadAddr s n a off).toNat
  | .qld _ _ a k => spadTraps (src s a).toNat (2 * (k.toNat + 1)) 2
  | .eret _ => trapIf (decide (sq.delayCount ≠ 0)) 2 3 ++ trapIf (!sq.inTrap) 13 0x0E
  | .contain _ _ => trapIf (decide (sq.regions.length = 4)) 18 0x13
  | .containend _ => trapIf (decide (sq.regions.length = 0)) 19 0x14
  | .tld _ _ v _ _ _ => viewTraps (viewAt sq v.toNat) false false
  | .tst _ _ v _ _ _ => viewTraps (viewAt sq v.toNat) true false
  | .tgath _ _ v a _ _ => spadTraps (src s a).toNat 256 4 ++ viewTraps (viewAt sq v.toNat) false false
  | .tscat _ _ v a _ _ => spadTraps (src s a).toNat 256 4 ++ viewTraps (viewAt sq v.toNat) true false
  | .tspld _ _ a => spadTraps (src s a).toNat 16384 256
  | .tspst _ _ a => spadTraps (src s a).toNat 16384 256
  | .ared _ _ v _ _ _ => viewTraps (viewAt sq v.toNat) false true
  | .tcopy _ vd vs _ cq _ =>
    trapIf (!(myCore s).lenient && decide (16 ≤ (copiesIn s (coreOf s.cur) cq.toNat).length)) 14 0x0F ++
      viewTraps (viewAt sq vs.toNat) false false ++ viewTraps (viewAt sq vd.toNat) true false
  | .vopen _ v _ _ _ => trapIf ((viewAt sq v.toNat).isOpen || viewPending sq v) 17 0x12
  | .vretire _ v => trapIf (!(viewAt sq v.toNat).isOpen) 15 0x10
  | .waitm _ _ v _ _ _ => viewTraps (viewAt sq v.toNat) false false
  | .aadd _ _ v _ _ _ => viewTraps (viewAt sq v.toNat) false true
  | .amin _ _ v _ _ _ => viewTraps (viewAt sq v.toNat) false true
  | .amax _ _ v _ _ _ => viewTraps (viewAt sq v.toNat) false true
  | .aminu _ _ v _ _ _ => viewTraps (viewAt sq v.toNat) false true
  | .amaxu _ _ v _ _ _ => viewTraps (viewAt sq v.toNat) false true
  | .aand _ _ v _ _ _ => viewTraps (viewAt sq v.toNat) false true
  | .aor _ _ v _ _ _ => viewTraps (viewAt sq v.toNat) false true
  | .axor _ _ v _ _ _ => viewTraps (viewAt sq v.toNat) false true
  | .axchg _ _ v _ _ _ => viewTraps (viewAt sq v.toNat) false true
  | .acas _ _ v _ _ _ => viewTraps (viewAt sq v.toNat) false true
  | .aincb _ _ v _ _ _ => viewTraps (viewAt sq v.toNat) false true
  | .afadd _ _ v _ _ _ => viewTraps (viewAt sq v.toNat) false true
  | .afaddh _ _ v _ _ _ => viewTraps (viewAt sq v.toNat) false true
  | .ald _ _ v _ _ _ => viewTraps (viewAt sq v.toNat) false true
  | .ast _ _ v _ _ _ => viewTraps (viewAt sq v.toNat) false true
  | .tadd _ vd va vb _ _ _ => placedTraps sq vd va (some vb)
  | .tsub _ vd va vb _ _ _ => placedTraps sq vd va (some vb)
  | .tmul _ vd va vb _ _ _ => placedTraps sq vd va (some vb)
  | .tmax _ vd va vb _ _ _ => placedTraps sq vd va (some vb)
  | .tred _ vd va _ _ _ => placedTraps sq vd va none
  | .tmv _ vd va vb _ _ _ => placedTraps sq vd va (some vb)
  | .tmm _ vd va vb _ _ _ => placedTraps sq vd va (some vb)
  | .vfset _ v _ _ => busyTraps s v
  | .vfseti _ v _ _ => busyTraps s v
  | _ => []

/-- The trap of the lowest order of a list. -/
def firstTrap (l : List TrapAt) : Option TrapAt :=
  match l with
  | [] => none
  | t :: rest =>
    match firstTrap rest with
    | none => some t
    | some u => if u.order < t.order then some u else some t

end Sys2Proof.Machine
end

