-- ==== Sys2Proof/Machine/Remote.lean ====
section
/-! DEFINITION. Sys2Proof/Machine/Remote.lean: the requests of an operation to other packages (R348-R354). An operation in flight is named by
its number; the read phase of a bundle that is held (a WAITM, a placed operation) by readTag. -/

namespace Sys2Proof.Machine

/-- The requests of an operation. -/
def requestsOf (s : State) (op : Nat) : List Request := s.pod.requests.filter (fun r => r.op == op)

/-- Every request of an operation has been answered. -/
def allAnswered (s : State) (op : Nat) : Bool := (requestsOf s op).all (fun r => r.answered)

/-- R354: a request of an operation completed with poison. -/
def anyPoison (s : State) (op : Nat) : Bool := (requestsOf s op).any (fun r => r.answered && r.poison)

/-- A request enters its stream (R350); one to a fenced destination fails before it is sent (R353). -/
def addRequest (s : State) (op dest : Nat) (cls : BitVec 4) (k : RequestKind) : State :=
  let r : Request :=
    { id := s.nextOp, op := op, dest := dest, cls := cls, sent := none, answered := (destAt s dest).fenced, poison := (destAt s dest).fenced,
      answer := [], kind := k }
  { s with pod := { s.pod with requests := s.pod.requests ++ [r] }, nextOp := s.nextOp + 1 }

/-- The requests without one. -/
def removeRequest (s : State) (n : Nat) : State := { s with pod := { s.pod with requests := s.pod.requests.filter (fun r => r.id != n) } }

/-- R351: a read of an operation, or of the held bundle that a number names, has been answered for an address of a destination. -/
def hasRead (s : State) (op dest a : Nat) : Bool :=
  (requestsOf s op).any (fun r => r.dest == dest && r.answered && !r.poison && (match r.kind with
    | .read l => l.contains a
    | _ => false))

/-- What one byte of an access reaches on another package: the destination and the address there. -/
def remotePlace (s : State) (die asid va : Nat) (wr : Bool) : Option (Nat × Nat) :=
  match xlateLate s die asid va wr with
  | .remote dest _ a => some (dest, a)
  | _ => none

/-- The destinations that addresses of an access reach. -/
def remoteDests (s : State) (die asid : Nat) (wr : Bool) (vas : List Nat) : List Nat :=
  distinct (vas.filterMap (fun va => (remotePlace s die asid va wr).map Prod.fst))

/-- One read request to each destination that the addresses reach. -/
def askReads (s : State) (op die asid : Nat) (cls : BitVec 4) (vas : List Nat) (ds : List Nat) : State :=
  match ds with
  | [] => s
  | d :: rest =>
    let l := vas.filterMap (fun va => match remotePlace s die asid va false with
      | some (n, a) => if n = d then some a else none
      | none => none)
    askReads (addRequest s op d cls (.read l)) op die asid cls vas rest

/-- One write request to each destination that the bytes reach. -/
def askWrites (s : State) (op die asid : Nat) (cls : BitVec 4) (l : List (Nat × Byte)) (ds : List Nat) : State :=
  match ds with
  | [] => s
  | d :: rest =>
    let w := l.filterMap (fun c => match remotePlace s die asid c.1 true with
      | some (n, a) => if n = d then some (a, c.2) else none
      | none => none)
    askWrites (addRequest s op d cls (.write w)) op die asid cls l rest

/-- The position of a value in a list. -/
def indexOf (l : List Nat) (x : Nat) : Nat :=
  match l with
  | [] => 0
  | y :: rest => if y = x then 0 else indexOf rest x + 1

/-- R351, R354: the byte that an operation's requests have read at an address of a destination; zero when it came with poison. -/
def remoteByte (s : State) (op dest a : Nat) : Byte :=
  match (requestsOf s op).find? (fun r => r.dest == dest && (match r.kind with
    | .read l => l.contains a
    | _ => false)) with
  | none => 0
  | some r =>
    match r.kind with
    | .read l => if r.poison then 0 else (r.answer[indexOf l a]?).getD 0
    | _ => 0

/-- A byte that an operation of an agent of a die reads at a virtual address, at a scope. -/
def readVa (s : State) (op die asid sc va : Nat) : Byte :=
  match xlateLate s die asid va false with
  | .at_ loc => readByte s die sc loc
  | .remote dest _ a => remoteByte s op dest a
  | _ => 0

/-- R351: the held bundle that a number names has read the byte of another package at an address: its access has performed. -/
def readAlready (s : State) (op die asid va : Nat) : Bool :=
  match xlateLate s die asid va false with
  | .remote dest _ a => hasRead s op dest a
  | _ => false

/-- The places on this package of addresses of an access. -/
def placesOf (s : State) (die asid : Nat) (wr : Bool) (vas : List Nat) : List Nat :=
  vas.filterMap (fun va => match xlateLate s die asid va wr with
    | .at_ loc => some loc
    | _ => none)

/-- The cells on this package of bytes at virtual addresses. -/
def localCells (s : State) (die asid : Nat) (l : List (Nat × Byte)) : List Host.Cell :=
  l.filterMap (fun c => match xlateLate s die asid c.1 true with
    | .at_ loc => some (loc, c.2)
    | _ => none)

/-- R196: a location of an access holds an uncorrectable error. -/
def anyDamaged (s : State) (die asid : Nat) (wr : Bool) (vas : List Nat) : Bool :=
  vas.any (fun va => match xlateLate s die asid va wr with
    | .at_ loc => s.damaged.contains loc
    | _ => false)

/-- An access of an operation may not find its translation any more: the first address without one. -/
def firstLost (s : State) (die asid : Nat) (wr : Bool) (vas : List Nat) : Option Nat :=
  vas.find? (fun va => match xlateLate s die asid va wr with
    | .at_ _ => false
    | .remote _ _ _ => false
    | _ => true)

end Sys2Proof.Machine
end

