-- ==== Sys2Proof/Machine/Access.lean ====
section
/-! DEFINITION. Sys2Proof/Machine/Access.lean: the checks that an M-slot access, a copy, an atomic or a view opening passes in its bundle's hold
(R153, R157, R164, R178, R179, R182, R184, R266, R269), and the live-view directory (R162-R167, R201). -/

namespace Sys2Proof.Machine

/-- The die of the running stream. -/
def myDie (s : State) : Nat := dieOf s.cur

/-- R173: the rows of a view that TLD, TST, ARED and PREF move: Src(a) + r. -/
def seqRows (a : Word) : RowList := (List.range 64).map (fun r => some (a.toNat + r))

/-- R174: the rows that the 64 index words at a scratchpad address name; none for 0xFFFF_FFFF. -/
def indexRows (c : CoreState) (a : Nat) : RowList :=
  (List.range 64).map (fun r =>
    let w := spad32 c (a + 4 * r)
    if w = 0xFFFFFFFF then none else some w.toNat)

/-- The positions in view of rows of a view. -/
def rowPositions (v : View) (rows : RowList) : List Nat :=
  rows.flatMap (fun r => match r with
    | none => []
    | some k => inView v (k * 256) 256)

/-- R184, R201: a load through a poisoned view. -/
def checkPoison (v : View) : Check := if v.poison then .fail 0x2C 0 else .ok

/-- R184: the checks of a tile load (wr false) or store. -/
def checkRows (s : State) (v : View) (rows : RowList) (wr : Bool) : Check :=
  let sq := me s
  (checkHandle s 5 sq.asid v.handle).andThen
    ((if wr then Check.ok else checkPoison v).andThen (checkView s (myDie s) sq.asid v (rowPositions v rows) wr))

/-- The virtual address of a position of a view, as a number. -/
def posAddr (s : State) (asid : Nat) (v : View) (l : Nat) : Int := (handleEntry s asid v.handle).base + viewOffset v l

/-- R182, R184, R266, R269: the checks of words of n bytes, one at each of the positions ps: each cause over all words before the next. A word
lies in view, in range and at a multiple of n, and is translated, but for the addresses that have been read; the 4 bytes of an atomic's word are at
consecutive addresses too (R266, R269). The 8 positions of a stamp's word are checked for the first alone (log 129). A position
out of view has no address: AUX0 of VIEW_RANGE is the formula of R156 at the word's first position (DESIGN CHOICE, log 150). -/
def checkWordsPast (s : State) (v : View) (ps : List Nat) (n : Nat) (wr : Bool) (op : Option AtomicOp) (read : Nat → Bool) : Check :=
  let sq := me s
  let e := handleEntry s sq.asid v.handle
  let bytes := fun (p : Nat) => (List.range n).map (fun j => p + j)
  let consecutive := fun (p : Nat) => (List.range n).all (fun j => decide (posAddr s sq.asid v (p + j) = posAddr s sq.asid v p + (j : Int)))
  let skewed := fun (p : Nat) => posAddr s sq.asid v p % (n : Int) != 0 || (n == 4 && !consecutive p)
  let failAt := fun (cause : Nat) (x : Option Nat) => match x with
    | some p => Check.fail cause (BitVec.ofInt 64 (posAddr s sq.asid v p))
    | none => .ok
  let as := viewAddrs e v (ps.flatMap bytes)
  (checkHandle s 5 sq.asid v.handle).andThen
    ((failAt 0x23 (ps.find? (fun p => decide (viewSize v < p + n)))).andThen
      ((checkRange e as).andThen
        ((failAt 0x25 (ps.find? skewed)).andThen (checkPlaces s (myDie s) sq.asid wr e op ((as.map Int.toNat).filter (fun va => !read va))))))

/-- R266, R352: the checks of an atomic on the words at positions ps. -/
def checkWords (s : State) (v : View) (op : AtomicOp) (ps : List Nat) : Check := checkWordsPast s v ps 4 true (some op) (fun _ => false)

/-- R184, R266: the checks of an atomic on word a. -/
def checkAtomic (s : State) (v : View) (op : AtomicOp) (a : Word) : Check := checkWords s v op [4 * a.toNat]

/-- R182: the checks of WAITM, on the word of 8 bytes at position 8 * a. A byte that another package has answered has been read: its translation may end
(R351). -/
def checkStamp (s : State) (v : View) (a : Word) : Check :=
  (checkHandle s 5 (me s).asid v.handle).andThen
    ((checkPoison v).andThen (checkWordsPast s v [8 * a.toNat] 8 false none (readAlready s (stampTag s.cur) (myDie s) (me s).asid)))

/-- R269: the words of an ARED that are not out of view: (row, element) as 64r + j. -/
def aredWords (v : View) (first : Nat) : List Nat :=
  (List.range 4096).filter (fun k => decide ((first + k / 64) * 256 + 4 * (k % 64) < viewSize v))

/-- R269: the position of word k of an ARED that starts at row `first`. -/
def aredPos (first k : Nat) : Nat := (first + k / 64) * 256 + 4 * (k % 64)

/-- R269: the checks of an ARED, an atomic addition to each of its words. -/
def checkAred (s : State) (v : View) (first : Nat) : Check := checkWords s v .fadd ((aredWords v first).map (aredPos first))

/-- R157, R179: the checks of a copy: both handles, then the positions that it moves and the stamp word against their allocations, then the
stamp's alignment. -/
def checkCopy (s : State) (vd vs : View) : Check :=
  let sq := me s
  let e := handleEntry s sq.asid vd.handle
  let a := e.base + vd.stamp.toNat
  let rangeFault : Check := if e.size < vd.stamp.toNat + 8 then .fail 0x24 (BitVec.ofNat 64 a) else .ok
  let alignFault : Check := if vd.stamp.toNat % 8 ≠ 0 then .fail 0x25 (BitVec.ofNat 64 a) else .ok
  let ls := List.range (min (viewSize vs) (viewSize vd))
  let f := handleEntry s sq.asid vs.handle
  (checkCurrent s sq.asid vs.handle).andThen
    ((checkCurrent s sq.asid vd.handle).andThen
      ((checkRange f (viewAddrs f vs ls)).andThen
        ((checkRange e (viewAddrs e vd ls)).andThen
          (if vd.stamp = 0xFFFFFFFF then Check.ok else rangeFault.andThen alignFault))))

/-! The live-view directory (R162-R167). -/

/-- R162: the die directories that hold a view opened on a die: its own, or with package and pod scope every die's (R321). -/
def flockDies (v : View) (die : Nat) : List Nat := if 3 ≤ v.scope.toNat then List.range 16 else [die]

/-- R163, R170: the footprint that a directory tests: the view's, or the whole allocation. -/
def flockFoot (s : State) (asid : Nat) (v : View) (wide : Bool) : Option (Int × Int) :=
  if wide then
    let e := handleEntry s asid v.handle
    if e.size = 0 then none else some ((e.base : Int), (e.base : Int) + e.size - 1)
  else footprint s asid v

/-- R162, R163: two views can meet as a directory tests them. -/
def flockMeet (s : State) (a b : FlockEntry) : Bool :=
  if a.wide || b.wide then
    match flockFoot s a.asid a.view a.wide, flockFoot s b.asid b.view b.wide with
    | some x, some y => !(decide (x.2 < y.1) || decide (y.2 < x.1))
    | _, _ => false
  else canMeet s a.asid a.view b.asid b.view

/-- R162: sequencer q lies in the instance of a scope that contains sequencer p. -/
def sameInstance (sc p q : Nat) : Bool :=
  if sc = 0 then coreOf p == coreOf q
  else if sc = 1 then coreOf p / 4 == coreOf q / 4 && (decide (coreOf p < 1024) && decide (coreOf q < 1024) || coreOf p == coreOf q)
  else if sc = 2 then dieOf p == dieOf q
  else true

/-- R162: the opener of B lies in the instance of A's scope that contains the opener of A; a launch view that a launch has registered at die d is
opened by an agent that lies in every core, quad and die instance of die d. -/
def inScopeOf (a b : FlockEntry) : Bool :=
  match a.seq, b.seq with
  | some p, some q => sameInstance a.view.scope.toNat (p % 4096) (q % 4096)
  | none, some q => decide (3 ≤ a.view.scope.toNat) || a.dies.contains (dieOf (q % 4096))
  | some p, none => decide (3 ≤ a.view.scope.toNat) || b.dies.contains (dieOf (p % 4096))
  | none, none => decide (3 ≤ a.view.scope.toNat) || a.dies.any b.dies.contains

/-- R162: two views registered with one directory conflict. -/
def flockConflict (s : State) (a b : FlockEntry) : Bool :=
  let sameLaunch :=
    match a.task, b.task with
    | some x, some y => x == y
    | _, _ => false
  let one := (a.view.mode == 1 && inScopeOf a b) || (b.view.mode == 1 && inScopeOf b a)
  !sameLaunch && one && flockMeet s a b

/-- The directory of a die. -/
def flockAt (s : State) (die : Nat) : List FlockEntry := tget [] s.flock die

/-- R163: the number of a whole-base entry: one for a handle of an address space. -/
def wideKey (asid : Nat) (h : Word) : Nat := asid * 2 ^ 32 + h.toNat

/-- R163: the handles that have a whole-base entry in a directory, each once with its address space. -/
def wideBases (l : List FlockEntry) : List Nat := distinct ((l.filter (fun e => e.wide)).map (fun e => wideKey e.asid e.view.handle))

/-- R163: whether a new view would be exact (some false) or join a whole-base entry (some true); none when the directory is full. -/
def flockRoom (l : List FlockEntry) (asid : Nat) (v : View) : Option Bool :=
  if (l.filter (fun e => !e.wide)).length < 2048 then some false
  else if (wideBases l).contains (wideKey asid v.handle) || decide ((wideBases l).length < 256) then some true
  else none

/-- The entry of a view that the running stream opens. -/
def myEntry (s : State) (reg : Nat) (v : View) (wide : Bool) : FlockEntry :=
  { seq := some s.cur, task := none, reg := reg, asid := (me s).asid, view := v, wide := wide }

/-- R164: the view conflicts with another own view of the running strand, in any directory that it would register with. The launch views of the
strand's task are its own too, also one whose register copy the strand has retired (log 97). -/
def ownConflict (s : State) (reg : Nat) (v : View) : Bool :=
  (flockDies v (myDie s)).any (fun d =>
    (flockAt s d).any (fun e =>
      (e.seq == some s.cur && e.reg != reg || (e.task.isSome && e.task == some (taskOf (me s)))) &&
        flockConflict s e (myEntry s reg v (flockRoom (flockAt s d) (me s).asid v == some true))))

/-- R164: the view conflicts in die d's directory with a view of another agent. -/
def otherConflict (s : State) (reg : Nat) (v : View) (d : Nat) : Bool :=
  (flockAt s d).any (fun e =>
    !(e.seq == some s.cur || (e.task.isSome && e.task == some (taskOf (me s)))) &&
      flockConflict s e (myEntry s reg v (flockRoom (flockAt s d) (me s).asid v == some true)))

/-- R163: an entry joins a directory, exact or whole-base. -/
def addEntry (s : State) (d : Nat) (e : FlockEntry) (wide : Bool) : State :=
  { s with flock := tput s.flock d (flockAt s d ++ [{ e with wide := wide }]) }

/-- How far the registration of a VOPEN comes: with every directory, up to a conflict that holds it, or up to a directory without room. -/
inductive Opening where
  | done
  | held
  | full
deriving DecidableEq, Repr

/-- R164, R321: the running stream's VOPEN registers with directories in a row; one that has the view already is passed, and a conflict leaves the
registrations before it standing. -/
def registerView (s : State) (reg : Nat) (v : View) (ds : List Nat) : State × Opening :=
  match ds with
  | [] => (s, .done)
  | d :: rest =>
    if (flockAt s d).any (fun e => e.seq == some s.cur && e.reg == reg) then registerView s reg v rest
    else if otherConflict s reg v d then (s, .held)
    else
      match flockRoom (flockAt s d) (me s).asid v with
      | none => (s, .full)
      | some w => registerView (addEntry s d { myEntry s reg v w with waits := true } w) reg v rest

/-- R164: what VOPEN checks before any hold: the handle (not for a tile view, R235) and its own views. -/
def checkFirst (s : State) (reg : Nat) (v : View) : Check :=
  if v.handle = 0 then .ok
  else (checkHandle s 5 (me s).asid v.handle).andThen (if ownConflict s reg v then .fail 0x22 0 else .ok)

/-- R164: what VOPEN checks: first the handle and its own views, and at its registration the room of the directories (log 98). -/
def checkOpen (s : State) (reg : Nat) (v : View) : Check :=
  (checkFirst s reg v).andThen
    (if v.handle != 0 && (registerView s reg v (flockDies v (myDie s))).2 == .full then .fail 0x21 0 else .ok)

/-- R164: a VOPEN is held: its register is retiring, or a conflict with another agent's view stands. -/
def openHeld (s : State) (reg : Nat) (v : View) : Bool :=
  v.retiring || (v.handle != 0 && (registerView s reg v (flockDies v (myDie s))).2 == .held)

/-- R321: a VOPEN that is held keeps the registrations that it has. -/
def registerHeld (s : State) (reg : Nat) (v : View) : State :=
  if v.handle = 0 ∨ v.retiring ∨ checkFirst s reg v ≠ .ok then s else (registerView s reg v (flockDies v (myDie s))).1

/-- R164: the registration of a VOPEN is complete. -/
def registered (s : State) (reg : Nat) (v : View) : State :=
  if v.handle = 0 then s
  else
    let s1 := (registerView s reg v (flockDies v (myDie s))).1
    { s1 with flock := s1.flock.map (fun p => (p.1, p.2.map (fun e => if e.seq = some s.cur ∧ e.reg = reg then { e with waits := false } else e))) }

/-- R165: the registrations of register reg of sequencer q are removed from every directory. -/
def unregisterView (s : State) (q reg : Nat) : State :=
  { s with flock := s.flock.map (fun p => (p.1, p.2.filter (fun e => !(e.seq == some q && e.reg == reg)))) }

/-- R166, R201: a view opened over a poison record of one of its directories, in the scopes of R166, opens poisoned; the record of a view of any mode poisons,
R mode too (DESIGN CHOICE, log 151). -/
def opensPoisoned (s : State) (v : View) : Bool :=
  (flockDies v (myDie s)).any (fun d => (tget [] s.poison d).any (fun r =>
    canMeet s r.asid r.view (me s).asid v && sameInstance r.view.scope.toNat r.seq s.cur && sameInstance v.scope.toNat s.cur r.seq))

/-- R201: the footprint of a view covers that of a record. -/
def coversRecord (s : State) (asid : Nat) (v : View) (r : PoisonRecord) : Bool :=
  match footprint s asid v, footprint s r.asid r.view with
  | some x, some y => decide (x.1 ≤ y.1) && decide (y.2 ≤ x.2)
  | _, none => true
  | _, _ => false

/-- R201: the directories of a view after its retire: a record of a poisoned one, or the records that an unpoisoned W view covers gone. -/
def recordPoison (s : State) (q task asid : Nat) (v : View) (poison : Bool) (ds : List Nat) : State :=
  match ds with
  | [] => s
  | d :: rest =>
    let l := tget [] s.poison d
    let l1 := if poison then (if handleCurrent s asid v.handle then l ++ [{ task := task, asid := asid, view := v, seq := q }] else l)
              else if v.mode = 1 then l.filter (fun r => !coversRecord s asid v r) else l
    recordPoison { s with poison := tput s.poison d l1 } q task asid v poison rest

end Sys2Proof.Machine
end

