-- ==== Sys2Proof/Machine/Placed.lean ====
section
/-! DEFINITION. Sys2Proof/Machine/Placed.lean: the placement rule (R234-R244): tensors, homes, the decision, and the checks and holds of the
read phase. -/

namespace Sys2Proof.Machine

/-- The size of a tile file in bytes (R235). -/
def tileFileBytes : Nat := 262144

/-- R237: the shape of a view as a tensor of 2-byte elements: rows and columns. -/
def tensorCols (v : View) : Nat := (vget 0 v.xt 0).toNat / 2
def tensorRows (v : View) : Nat := viewSize v / (vget 0 v.xt 0).toNat

/-- R237: the view is a valid placed operand. -/
def tensorOk (v : View) : Bool :=
  let x := (vget 0 v.xt 0).toNat
  viewSize v != 0 && x % 2 == 0 && x != 0 && decide (viewSize v ≤ 65536)

/-- R240, R241: a home: the issuing core's tile file, slice or pseudo-channel of a die, or the quad's array. -/
inductive Home where
  | tile
  | slice (die unit : Nat)
  | bank (die unit : Nat)
  | array
deriving DecidableEq, Repr

/-- R257, R265: the slice that is a home, as 32 times its die and its number. -/
def homeSlice (h : Home) : Option Nat :=
  match h with
  | .slice d u => some (32 * d + u)
  | _ => none

/-- R234: the home of the byte at position l of a view, for an issuer of a die; none for the second tier and another package, also where the
translation of its page is refused (R348). -/
def byteHome (s : State) (die asid : Nat) (v : View) (l : Nat) : Option Home :=
  if v.handle = 0 then some .tile
  else
    let e := handleEntry s asid v.handle
    let va := ((e.base : Int) + viewOffset v l).toNat
    let here :=
      if e.tier = 0 then some (Home.bank e.die (va / 4096 % 64))
      else if e.tier = 1 then some (Home.slice e.die (va / 256 % 32))
      else none
    match xlateLate s die asid va false with
    | .at_ _ => here
    | .remote _ _ _ => none
    | _ => if remotePage s asid va then none else here

/-- The homes of the positions of a view. -/
def viewHomes (s : State) (die asid : Nat) (v : View) : List (Option Home) :=
  (List.range (viewSize v)).map (byteHome s die asid v)

/-- A placed operation as it is issued: its code, views, format, the transposition of TMM, and the rounding mode. -/
structure PlacedCall where
  op : PlacedOp
  vd : BitVec 4
  va : BitVec 4
  vb : Option (BitVec 4)
  fmt : BitVec 4
  sg : BitVec 2
  sw : Bool
deriving DecidableEq, Repr

/-- The call of a placed instruction. -/
def placedCall (i : Instr) : Option PlacedCall :=
  match i with
  | .tadd _ vd va vb fmt sg sw => some { op := .add, vd := vd, va := va, vb := some vb, fmt := fmt, sg := sg, sw := sw }
  | .tsub _ vd va vb fmt sg sw => some { op := .sub, vd := vd, va := va, vb := some vb, fmt := fmt, sg := sg, sw := sw }
  | .tmul _ vd va vb fmt sg sw => some { op := .mul, vd := vd, va := va, vb := some vb, fmt := fmt, sg := sg, sw := sw }
  | .tmax _ vd va vb fmt sg sw => some { op := .max, vd := vd, va := va, vb := some vb, fmt := fmt, sg := sg, sw := sw }
  | .tred _ vd va fmt sg sw => some { op := .red, vd := vd, va := va, vb := none, fmt := fmt, sg := sg, sw := sw }
  | .tmv _ vd va vb fmt sg sw => some { op := .mv, vd := vd, va := va, vb := some vb, fmt := fmt, sg := sg, sw := sw }
  | .tmm _ vd va vb fmt sg sw => some { op := .mm, vd := vd, va := va, vb := some vb, fmt := fmt, sg := sg, sw := sw }
  | _ => none

/-- R117: the active plane of a shape register after the swap. -/
def activeAfter (sq : Seq) (g : BitVec 2) (sw : Bool) : Plane :=
  let r := shapeAt sq g.toNat
  if sw then r.shadow else r.active

/-- R252: TRB of the active plane after the swap. -/
def callTrb (sq : Seq) (c : PlacedCall) : Bool := (activeAfter sq c.sg c.sw).trb == 1

/-- R238: two inputs are one operand. -/
def sameOperand (sq : Seq) (a b : BitVec 4) : Bool :=
  let x := viewAt sq a.toNat
  let y := viewAt sq b.toNat
  a == b || (x.handle == y.handle && x.off == y.off && x.xt == y.xt && x.sd == y.sd)

/-- R238: the distinct inputs of a call. -/
def distinctInputs (sq : Seq) (c : PlacedCall) : List View :=
  match c.vb with
  | none => [viewAt sq c.va.toNat]
  | some b => if sameOperand sq c.va b then [viewAt sq c.va.toNat] else [viewAt sq c.va.toNat, viewAt sq b.toNat]

/-- The columns of the result of TMM (R252). -/
def mmCols (b : View) (trb : Bool) : Nat := if trb then tensorRows b else tensorCols b

/-- R249-R252: the shapes that a call requires, in the order result, first source, second source: whether each agrees. -/
def shapesAgree (op : PlacedOp) (trb : Bool) (d a b : View) : List Bool :=
  let nr := tensorRows a
  let nc := tensorCols a
  let is := fun (v : View) (r c : Nat) => tensorRows v == r && tensorCols v == c
  match op with
  | .red => [is d nr 1, true, true]
  | .mv => [is d nr 1, true, is b 1 nc]
  | .mm => [is d nr (mmCols b trb), true, if trb then tensorCols b == nc else tensorRows b == nc]
  | _ => [is d nr nc, true, is b nr nc || is b 1 nc]

/-- R238: the multiply-accumulates of a call. -/
def macCount (op : PlacedOp) (trb : Bool) (a b : View) : Nat :=
  match op with
  | .mul => tensorRows a * tensorCols a
  | .mv => tensorRows a * tensorCols a
  | .mm => tensorRows a * tensorCols a * mmCols b trb
  | _ => 0

/-- R241: the mesh distance of two dies. -/
def hops (a b : Nat) : Nat := ((a % 4 : Int) - (b % 4 : Int)).natAbs + ((a / 4 : Int) - (b / 4 : Int)).natAbs

/-- R241: the key of a home as one number: class, and for a remote home distance, die and kind, then unit. -/
def homeRank (die : Nat) (h : Home) : Nat :=
  match h with
  | .tile => 0
  | .slice d u => if d = die then 2 ^ 20 + u else 3 * 2 ^ 20 + hops die d * 2 ^ 14 + d * 2 ^ 8 + u
  | .bank d u => if d = die then 2 * 2 ^ 20 + u else 3 * 2 ^ 20 + hops die d * 2 ^ 14 + d * 2 ^ 8 + 2 ^ 7 + u
  | .array => 4 * 2 ^ 20

/-- The homes of a list, each once, in the order of R241. -/
def insertHome (die : Nat) (h : Home) (l : List Home) : List Home :=
  match l with
  | [] => [h]
  | x :: rest =>
    if h = x then x :: rest
    else if homeRank die h < homeRank die x then h :: x :: rest
    else x :: insertHome die h rest

def sortHomes (die : Nat) (l : List (Option Home)) : List Home :=
  match l with
  | [] => []
  | none :: rest => sortHomes die rest
  | some h :: rest => insertHome die h (sortHomes die rest)

/-- R239: the bytes of a list of homes that are not at h. -/
def shippedTo (h : Home) (l : List (Option Home)) : Nat := (l.filter (fun x => x != some h)).length

/-- R240: the home that holds the most bytes of a list, the first in order of those that hold equally many. -/
def mostBytes (l : List (Option Home)) (cands : List Home) : Option Home :=
  match cands with
  | [] => none
  | h :: rest =>
    match mostBytes l rest with
    | none => some h
    | some k => if (l.filter (fun x => x == some h)).length < (l.filter (fun x => x == some k)).length then some k else some h

/-- The least of the bytes shipped. -/
def leastShipped (l : List (Option Home)) (cands : List Home) : Nat :=
  match cands with
  | [] => 0
  | [h] => shippedTo h l
  | h :: rest => min (shippedTo h l) (leastShipped l rest)

/-- R239-R241: the home of an operation among the homes of its inputs' and its result's bytes, and the bytes shipped to it. -/
def chooseHome (die : Nat) (inputs result : List (Option Home)) : Home × Nat :=
  let all := inputs ++ result
  let cands := (match sortHomes die all with
    | [] => [Home.tile]
    | l => l)
  let n := leastShipped all cands
  let best := cands.filter (fun h => shippedTo h all == n)
  let own := mostBytes result (sortHomes die result)
  let h := (match own with
    | some r => if best.contains r then r else best.headD .tile
    | none => best.headD .tile)
  (h, n)

/-- R240, R297: the decision of a call: its home and the bytes shipped to it. A reuse factor above 2 rises to ARRAY, on the steward to TILE. -/
def decideHome (s : State) (q : Nat) (c : PlacedCall) : Home × Nat :=
  let sq := seqAt s q
  let die := dieOf q
  let d := viewAt sq c.vd.toNat
  let a := viewAt sq c.va.toNat
  let b := (match c.vb with
    | some b => viewAt sq b.toNat
    | none => a)
  let ins := distinctInputs sq c
  let count := (ins.map (fun v => tensorRows v * tensorCols v)).foldl (fun x y => x + y) 0
  let inputs := ins.flatMap (viewHomes s die sq.asid)
  let result := viewHomes s die sq.asid d
  if 2 * count < macCount c.op (callTrb sq c) a b then
    let h := if isSteward (coreOf q) then Home.tile else Home.array
    (h, shippedTo h (inputs ++ result))
  else chooseHome die inputs result

/-! The checks of the read phase (R244). -/

/-- R191: AUX1 of a fault on operand k, at a home. -/
def placedAux (die : Nat) (k : Nat) (h : Option Home) : Word :=
  let code := (match h with
    | none => 5
    | some .tile => 0
    | some (.slice d _) => if d = die then 1 else 4 + 256 * d
    | some (.bank d _) => if d = die then 2 else 4 + 256 * d
    | some .array => 3)
  let dieField := (match h with
    | none => 0
    | some (.slice d _) => if d = die then 256 * die else 0
    | some (.bank d _) => if d = die then 256 * die else 0
    | some _ => 256 * die)
  BitVec.ofNat 32 (code + 16 * k + dieField)

/-- The outcome of the checks of a placed call: it may go, it waits for walks, or it fails with a cause, AUX0 and AUX1. -/
inductive PlacedCheck where
  | ok
  | wait (vpns : List Nat)
  | fail (cause : Nat) (aux0 : BitVec 64) (aux1 : Word)
deriving DecidableEq, Repr

/-- The first failure of two, walks of both together. -/
def PlacedCheck.andThen (a b : PlacedCheck) : PlacedCheck :=
  match a, b with
  | .ok, x => x
  | .fail c x y, _ => .fail c x y
  | .wait v, .wait w => .wait (distinct (v ++ w))
  | .wait v, _ => .wait v

/-- R235, R244: the checks of operand k of a call of sequencer q: 0 result, 1 first source, 2 second source. A byte that another package has answered has been
read: its translation may end (R351). A tile view has no virtual address: AUX0 of its HANDLE_RANGE is the offset in the tile file (log 132). -/
def checkOperand (s : State) (q k : Nat) (v : View) : PlacedCheck :=
  let die := dieOf q
  let asid := (seqAt s q).asid
  let ls := List.range (viewSize v)
  if v.handle = 0 then
    match ls.find? (fun l => decide (viewOffset v l < 0) || decide ((tileFileBytes : Int) ≤ viewOffset v l)) with
    | some l => .fail 0x24 (BitVec.ofInt 64 (viewOffset v l)) (placedAux die k none)
    | none => .ok
  else
    let e := handleEntry s asid v.handle
    let as := viewAddrs e v ls
    let vas := (as.map Int.toNat).filter (fun va => k == 0 || !readAlready s (readTag q) die asid va)
    match checkHandle s 6 asid v.handle, checkRange e as with
    | .fail c x, _ => .fail c x (placedAux die k none)
    | _, .fail c x => .fail c x (placedAux die k none)
    | _, _ =>
      match missingPages s die asid (k == 0) vas, pageFault s die asid (k == 0) { tier1 := e.tier == 1 } vas with
      | [], some (c, va) =>
        .fail c (pageAux c va) (placedAux die k (((ls.find? (fun l => decide ((e.base : Int) + viewOffset v l = (va : Int)))).map
          (byteHome s die asid v)).getD none))
      | x :: l, _ => .wait (x :: l)
      | [], none =>
        if k = 0 then .ok
        else
          match ls.find? (fun l => anyDamaged s die asid false [((e.base : Int) + viewOffset v l).toNat]) with
          | some l => .fail 0x2A (BitVec.ofInt 64 ((e.base : Int) + viewOffset v l)) (placedAux die k (byteHome s die asid v l))
          | none => .ok

/-- The first operand of a list for which a test is false, numbered from 0. -/
def firstFalse (l : List Bool) : Option Nat := (List.range l.length).find? (fun k => !(l.getD k true))

/-- R237, R244: the checks of a call: sizes, shapes, then each operand in turn. -/
def checkPlaced (s : State) (q : Nat) (c : PlacedCall) : PlacedCheck :=
  let sq := seqAt s q
  let d := viewAt sq c.vd.toNat
  let a := viewAt sq c.va.toNat
  let b := (match c.vb with
    | some b => viewAt sq b.toNat
    | none => a)
  match firstFalse [tensorOk d, tensorOk a, tensorOk b] with
  | some k => .fail 0x2F 0 (BitVec.ofNat 32 (16 * k))
  | none =>
    match firstFalse (shapesAgree c.op (callTrb sq c) d a b) with
    | some k => .fail 0x2E 0 (BitVec.ofNat 32 (16 * k))
    | none =>
      let operand := checkOperand s q
      (operand 0 d).andThen ((operand 1 a).andThen (match c.vb with
        | some _ => operand 2 b
        | none => .ok))

/-- R247: an earlier access of the strand that a read through view v has to wait for. -/
def readBlocked (s : State) (q : Nat) (v : View) : Bool :=
  let sq := seqAt s q
  let probe : Op :=
    { id := s.nextOp, seq := q, slot := 6, baddr := 0, tick := 0, region := 0, idx := [], asid := sq.asid, rcls := some v.cls, wcls := none,
      wtiles := [], pins := [], phase := .queued, flags := 0, result := [], kind := .load 0 [] v }
  v.handle != 0 && !mayPerform s probe

/-- R247: an earlier write of the strand that R171 or a FENCE orders before the result of a call, whose view is v, has not performed: the read phase waits for
it too. -/
def writeBlocked (s : State) (q : Nat) (v : View) : Bool :=
  v.handle != 0 && s.ops.any (fun a => a.seq == q &&
    orderedBack s (seqAt s q) a ((accessesOf a).filter (fun x => x.2.2)) [(v.cls, v, true)] s.nextOp)

/-- The addresses of an input of sequencer q: none of a tile view. -/
def viewReads (s : State) (q : Nat) (v : View) : List Nat :=
  let asid := (seqAt s q).asid
  if v.handle = 0 then [] else (viewAddrs (handleEntry s asid v.handle) v (List.range (viewSize v))).map Int.toNat

/-- The addresses of a call's inputs. -/
def inputAddrs (s : State) (q : Nat) (c : PlacedCall) : List Nat := (distinctInputs (seqAt s q) c).flatMap (viewReads s q)

/-- R348: the destinations from which a call has to read. -/
def inputDests (s : State) (q : Nat) (c : PlacedCall) : List Nat := remoteDests s (dieOf q) (seqAt s q).asid false (inputAddrs s q c)

/-- R247, R348, R350: the reads of each input that other packages hold are asked for in the class of its view. -/
def askInputs (s : State) (q : Nat) (l : List View) : State :=
  l.foldl (fun s v =>
    let vas := viewReads s q v
    askReads s (readTag q) (dieOf q) (seqAt s q).asid v.cls vas (remoteDests s (dieOf q) (seqAt s q).asid false vas)) s

/-- R243, R354: the inputs held by other packages have been read: there are none, or their requests are answered. -/
def inputsRead (s : State) (q : Nat) (c : PlacedCall) : Bool :=
  (inputDests s q c).isEmpty || (!(requestsOf s (readTag q)).isEmpty && allAnswered s (readTag q))

/-- R158, R275, R319: the bytes of an input may be read: no strand holds their pseudo-channels, and at package scope no write of the die is on its way. -/
def inputFree (s : State) (q : Nat) (v : View) : Bool :=
  let asid := (seqAt s q).asid
  let l := viewReads s q v
  !bankHeld s (dieOf q) asid l && !readsWait s (dieOf q) asid v.scope.toNat l

/-- R247: nothing earlier of the strand holds the reads of a call: no access ordered before one of its reads, and no write ordered before its result. A bundle is held until its reads are done (R243), so a write that slot 5 of the same bundle
makes comes after them (log 101). -/
def readsFree (s : State) (q : Nat) (c : PlacedCall) : Bool :=
  let sq := seqAt s q
  !writeBlocked s q (viewAt sq c.vd.toNat) && !readBlocked s q (viewAt sq c.va.toNat) && inputFree s q (viewAt sq c.va.toNat) && (match c.vb with
    | some b => !readBlocked s q (viewAt sq b.toNat) && inputFree s q (viewAt sq b.toNat)
    | none => true)

/-- R243: the read phase is done. -/
def readDone (s : State) (q : Nat) (c : PlacedCall) : Bool := readsFree s q c && inputsRead s q c

/-- The bytes of a view that a placed operation of sequencer q reads. -/
def placedBytes (s : State) (q : Nat) (v : View) : List Byte :=
  let sq := seqAt s q
  let e := handleEntry s sq.asid v.handle
  let core := coreAt s (coreOf q)
  (List.range (viewSize v)).map (fun l =>
    if v.handle = 0 then
      let o := (viewOffset v l).toNat
      rowByte (tileRow core (o / 16384) (o / 256 % 64)) (o % 256)
    else readVa s (readTag q) (dieOf q) sq.asid v.scope.toNat ((e.base : Int) + viewOffset v l).toNat)

/-- R237: the elements of a tensor in row-major order. -/
def placedElems (l : List Byte) : List Nat :=
  match l with
  | a :: b :: rest => (a.toNat + 256 * b.toNat) :: placedElems rest
  | _ => []

/-- R215: the check of MSTAT's handle operand: it is current, holds 32 KiB, and its bytes are translated. -/
def checkFetch (s : State) (h : Word) : Check :=
  let sq := me s
  let e := handleEntry s sq.asid h
  (checkHandle s 6 sq.asid h).andThen
    ((if e.size < 32768 then Check.fail 0x24 (BitVec.ofNat 64 (e.base + e.size)) else .ok).andThen
      (checkPlaces s (myDie s) sq.asid false e none ((List.range 32768).map (fun j => e.base + j))))

end Sys2Proof.Machine
end

