-- ==== Sys2Proof/Machine/Barrier.lean ====
section
/-! DEFINITION. Sys2Proof/Machine/Barrier.lean: barriers (R128, R233, R308-R310, R328, R357). A barrier is one scope instance and one
identifier for one task. The count and generation of a core, quad or die barrier stand in one record; a package or pod barrier is counted at
the task's home die, and each die holds the generation that a completion message has brought to it. -/

namespace Sys2Proof.Machine

/-- The task of a sequencer's strand; none for a steward strand (R297). -/
def taskAt (s : State) (q : Nat) : Option Task := tfind s.tasks (taskOf (seqAt s q))

/-- R288: the page counts of a team's map entry. -/
def mapCounts (s : State) (asid : Nat) (h : Word) (team : Nat) : List Nat :=
  if h = 0 then List.replicate 16 0
  else
    let l := virtualBytes s asid ((handleEntry s asid h).base + 32 * team) 32
    (List.range 16).map (fun d => natAt l (2 * d) 2)

/-- R288: the dies that hold the greatest count. -/
def bestDies (counts : List Nat) : List Nat :=
  let m := counts.foldl max 0
  (List.range 16).filter (fun d => counts.getD d 0 == m)

/-- The instance of the home die's count of a package or pod barrier. -/
def homeInst : Nat := 16

/-- The number of a barrier of a task: scope, instance, identifier. -/
def barrierKey (task sc inst id : Nat) : Nat := ((task * 8 + sc) * 2 ^ 20 + inst) * 8 + id

/-- R308: the scope instance that sequencer q lies in, as a barrier of its task sees it: a team's cores and a team for core and quad scope, a
die for the others. -/
def barrierInst (s : State) (q sc : Nat) : Nat :=
  if isSteward (coreOf q) then 2 ^ 19 + coreOf q
  else if sc = 0 then (seqAt s q).team.toNat * 4 + coreOf q % 4
  else if sc = 1 then (seqAt s q).team.toNat
  else dieOf q

/-- The barrier that sequencer q's instruction names. -/
def barrierOf (s : State) (q sc id : Nat) : Nat := barrierKey (taskOf (seqAt s q)) sc (barrierInst s q sc) id

def barrierAt (s : State) (k : Nat) : Barrier := tget { count := 0, gen := 0 } s.bars k
def setBarrier (s : State) (k : Nat) (b : Barrier) : State := { s with bars := tput s.bars k b }

/-- R308: a strand's record for a barrier. -/
def armOf (sq : Seq) (sc id : Nat) : BarrierArm := tget { arr := false, gen := 0 } sq.barriers (sc * 8 + id)
def setArm (sq : Seq) (sc id : Nat) (a : BarrierArm) : Seq := { sq with barriers := tput sq.barriers (sc * 8 + id) a }

/-- The scope and identifier of a barrier's number. -/
def keyScope (k : Nat) : Nat := k / 2 ^ 23 % 8
def keyId (k : Nat) : Nat := k % 8

/-- R308: the strand has arrived and the phase has not completed. -/
def phaseOpen (s : State) (q sc id : Nat) : Bool :=
  let a := armOf (seqAt s q) sc id
  a.arr && a.gen == (barrierAt s (barrierOf s q sc id)).gen

/-- R309: a team counts for die d's barriers: it was sent there, or it waits at its home die and may yet be sent there (R288). -/
def teamCounts (t : Task) (d k : Nat) : Bool :=
  match t.teams[k]? with
  | none => false
  | some x =>
    match x.die with
    | some e => e == d
    | none => x.choices.contains d

/-- R309: the participants of a task's barriers of die d. -/
def dieParticipants (t : Task) (d : Nat) : Nat :=
  (t.info.spt + 1) * ((List.range t.teams.length).filter (teamCounts t d)).length

/-- R309, R128, R233: the participants of a barrier of core, quad or die scope. The steward's core barrier joins its two sequencers; it takes
part in no wider one (R297). -/
def participants (s : State) (q sc : Nat) : Nat :=
  match taskAt s q with
  | none => if sc = 0 then 2 else 1
  | some t =>
    let n := t.info.spt + 1
    if sc = 0 then (if (seqAt s q).strand.toNat / 2 * 2 + 1 < n then 2 else 1)
    else if sc = 1 then n
    else dieParticipants t (dieOf q)

/-- R308: the phase of a barrier completes. -/
def completePhase (s : State) (k : Nat) : State :=
  let b := barrierAt s k
  setBarrier s k { count := 0, gen := b.gen + 1 }

/-- R308: an arrival at a barrier that one record counts. -/
def countArrival (s : State) (k n : Nat) : State :=
  let b := barrierAt s k
  if n ≤ b.count + 1 then completePhase s k else setBarrier s k { b with count := b.count + 1 }

/-- R309: the participants of the die barriers of a task have become fewer: a team has been sent to another die. A phase for which all that are left have
arrived completes. -/
def recountDie (s : State) (key : Nat) (t : Task) : State :=
  let full := fun (k : Nat) (b : Barrier) =>
    k / 2 ^ 26 == key && keyScope k == 2 && b.count != 0 && decide (dieParticipants t (k / 8 % 2 ^ 20) ≤ b.count)
  { s with bars := s.bars.map (fun b => (b.1, if full b.1 b.2 then { count := 0, gen := b.2.gen + 1 } else b.2)) }

/-- R328: the completion of a package or pod barrier of a task: at the home die at once, to every other die by a message. -/
def completeEverywhere (s : State) (task sc id home : Nat) : State :=
  let s1 := completePhase s (barrierKey task sc home id)
  let away := (List.range 16).filter (fun d => d != home)
  let ms : List BarrierMsg := away.map (fun d => { id := s1.nextOp + d, key := barrierKey task sc d id, die := d, arrival := false, src := home })
  { s1 with barMsgs := s1.barMsgs ++ ms, nextOp := s1.nextOp + 16 }

/-- R356: the group entry that names a task. -/
def groupOf (s : State) (id : Word) : Option (Nat × Group) := s.pod.groups.find? (fun g => g.2.valid && g.2.task == id)

/-- The task with an identifier, the one of the lowest address space (log 9). -/
def findTask (s : State) (id : Word) : Option (Nat × Task) := s.tasks.find? (fun t => t.2.info.taskId == id)

/-- R357: the master completes a phase: its own strands, and a completion message to every other member. -/
def masterComplete (s : State) (g : Nat) (x : Group) (id : Nat) : State :=
  let others := x.arrived.filter (fun n => n.1 == id && n.2 != s.pod.id.toNat)
  let rest := x.arrived.filter (fun n => n.1 != id)
  let s1 := { s with pod := { s.pod with groups := tput s.pod.groups g { x with arrived := rest },
                                         outbox := s.pod.outbox ++ others.map (fun n => PodMsg.completion n.2 (g * 8 + id)) } }
  match findTask s1 x.task with
  | some (k, t) => completeEverywhere s1 k 4 id t.home
  | none => s1

/-- R356: the member packages of a group, 1 to 1024 in ten bits: 0 stands for 1024 (log 16). -/
def groupSize (x : Group) : Nat := if x.npkg = 0 then 1024 else x.npkg

/-- R357: an arrival of package n at the master of group g, for the barrier with identifier id. -/
def groupArrival (s : State) (g n id : Nat) : State :=
  let x := tget Group.reset s.pod.groups g
  let l := x.arrived ++ [(id, n)]
  if groupSize x ≤ (l.filter (fun y => y.1 == id)).length then masterComplete s g { x with arrived := l } id
  else { s with pod := { s.pod with groups := tput s.pod.groups g { x with arrived := l } } }

/-- R328, R357: every strand of the task on the package has arrived. -/
def packageArrived (s : State) (k : Nat) (t : Task) (sc id : Nat) : State :=
  if sc = 4 then
    match groupOf s t.info.taskId with
    | none => completeEverywhere s k sc id t.home
    | some (g, x) =>
      if x.master = s.pod.id.toNat then groupArrival s g x.master id
      else { s with pod := { s.pod with outbox := s.pod.outbox ++ [PodMsg.arrival x.master (g * 8 + id)] } }
  else completeEverywhere s k sc id t.home

/-- R328: an arrival at the home die of a task. -/
def homeArrival (s : State) (k : Nat) (t : Task) (sc id : Nat) : State :=
  let h := barrierKey k sc homeInst id
  let b := barrierAt s h
  let n := t.info.teams * (t.info.spt + 1)
  if n ≤ b.count + 1 then packageArrived (setBarrier s h { b with count := 0 }) k t sc id
  else setBarrier s h { b with count := b.count + 1 }

/-- R308: sequencer q arrives. -/
def arrive (s : State) (q sc id : Nat) : State :=
  let k := barrierOf s q sc id
  let sq := seqAt s q
  let s1 := setSeq s q (setArm sq sc id { arr := true, gen := (barrierAt s k).gen })
  match taskAt s q with
  | none => countArrival s1 k (participants s q sc)
  | some t =>
    if sc ≤ 2 then countArrival s1 k (participants s q sc)
    else if t.home = dieOf q then homeArrival s1 (taskOf sq) t sc id
    else { s1 with barMsgs := s1.barMsgs ++
             [{ id := s1.nextOp, key := barrierKey (taskOf sq) sc homeInst id, die := t.home, arrival := true, src := dieOf q }], nextOp := s1.nextOp + 1 }

/-- R310: the strand's wait for a barrier of its task ends. -/
def clearArm (s : State) (q sc id : Nat) : State :=
  let sq := seqAt s q
  setSeq s q (setArm sq sc id { armOf sq sc id with arr := false })

/-- R310: every M-slot and E-slot operation of sequencer q has performed at a scope. -/
def allPerformed (s : State) (q sc : Nat) : Bool := s.ops.all (fun o => o.seq != q || orderDone s o sc || poisonedOp s o)

/-- R310: the next bundle of sequencer q is still held by its BAR. -/
def barHeld (s : State) (q : Nat) : Bool :=
  match (seqAt s q).barWait with
  | none => false
  | some (k, _) => phaseOpen s q (keyScope k) (keyId k)

/-- R310: the hold of a BAR has ended: ARR is cleared. -/
def endBarWait (s : State) (q : Nat) : State :=
  match (seqAt s q).barWait with
  | none => s
  | some (k, _) =>
    let s1 := clearArm s q (keyScope k) (keyId k)
    setSeq s1 q { seqAt s1 q with barWait := none }

/-- R316: an earlier message from one die to another is still on its way. -/
def messageBehind (s : State) (m : BarrierMsg) : Bool := s.barMsgs.any (fun x => x.src == m.src && x.die == m.die && decide (x.id < m.id))

/-- PKG_BARRIER_MESSAGE (R316, R328): a message of a barrier reaches its die, in the order in which they left. -/
def deliverBarrier (s : State) (n : Nat) : State :=
  match s.barMsgs.find? (fun m => m.id == n) with
  | none => s
  | some m =>
    let s1 := { s with barMsgs := s.barMsgs.filter (fun x => x.id != n) }
    if messageBehind s m then s
    else if m.arrival then
      match tfind s1.tasks (m.key / 2 ^ 26) with
      | some t => homeArrival s1 (m.key / 2 ^ 26) t (keyScope m.key) (keyId m.key)
      | none => s1
    else completePhase s1 m.key

/-- R357: a member or the master of group g is fenced. The entry names the master; the members are those whose arrivals have come in, and those that the
entries of other packages make members (log 38). -/
def groupFenced (s : State) (g : Nat) (x : Group) : Bool :=
  (destAt s x.master).fenced ||
    s.pod.dests.any (fun d => d.2.fenced && (x.arrived.any (fun a => a.2 == d.1) || Config.podMember g d.1))

end Sys2Proof.Machine
end

