-- ==== Sys2Proof/Machine/Tasks.lean ====
section
/-! DEFINITION. Sys2Proof/Machine/Tasks.lean: the launch record and its validation (R281-R284), a task's launch (R283, R344), the order of a
die and the placement of teams (R285-R291, R333), the end of a strand, of a team and of a task (R90, R167, R295), and a kill (R301). -/

namespace Sys2Proof.Machine

/-! The launch record (R281, R282). -/

/-- R155: a view register from its image. -/
def viewOfImage (x : Nat) : View :=
  let w := fun (k : Nat) => BitVec.ofNat 32 (x / 2 ^ (32 * k))
  let attr := x / 2 ^ 384 % 2 ^ 32
  { handle := w 0, off := BitVec.ofNat 64 (x / 2 ^ 32), xt := #v[w 3, w 5, w 7, w 9], sd := #v[w 4, w 6, w 8, w 10], stamp := w 11,
    blo := w 13, bhi := w 14, isOpen := attr.testBit 31, retiring := attr.testBit 30, poison := attr.testBit 29, ben := attr.testBit 28,
    cls := BitVec.ofNat 4 (attr / 2 ^ 8), scope := BitVec.ofNat 3 (attr / 2 ^ 4), mode := BitVec.ofNat 2 attr }

/-- R155: the image of a view register. -/
def imageOfView (v : View) : Nat :=
  let b := fun (x : Bool) (k : Nat) => if x then 2 ^ k else 0
  let attr := b v.isOpen 31 + b v.retiring 30 + b v.poison 29 + b v.ben 28 + v.cls.toNat * 2 ^ 8 + v.scope.toNat * 2 ^ 4 + v.mode.toNat
  v.handle.toNat + v.off.toNat * 2 ^ 32
    + (vget 0 v.xt 0).toNat * 2 ^ 96 + (vget 0 v.sd 0).toNat * 2 ^ 128 + (vget 0 v.xt 1).toNat * 2 ^ 160 + (vget 0 v.sd 1).toNat * 2 ^ 192
    + (vget 0 v.xt 2).toNat * 2 ^ 224 + (vget 0 v.sd 2).toNat * 2 ^ 256 + (vget 0 v.xt 3).toNat * 2 ^ 288 + (vget 0 v.sd 3).toNat * 2 ^ 320
    + v.stamp.toNat * 2 ^ 352 + attr * 2 ^ 384 + v.blo.toNat * 2 ^ 416 + v.bhi.toNat * 2 ^ 448

/-- R282: edge entry k. -/
def edgeAt (l : List Byte) (k : Nat) : Edge := { ptask := wordAt l (0x40 + 8 * k), evmask := BitVec.ofNat 16 (natAt l (0x44 + 8 * k) 2) }

/-- R282: ring entry k. -/
def ringEntryAt (l : List Byte) (k : Nat) : RingEntry :=
  let x := natAt l (0x80 + 16 * k) 16
  { ring := x % 64, cstr := x / 2 ^ 8 % 8, pstr := x / 2 ^ 12 % 8, pext := x.testBit 15, nslot := BitVec.ofNat 7 (x / 2 ^ 16),
    base := BitVec.ofNat 10 (x / 2 ^ 32), ppkg := BitVec.ofNat 10 (x / 2 ^ 64), pseq := BitVec.ofNat 11 (x / 2 ^ 76) }

/-- R282: bucket table k. -/
def bucketAt (l : List Byte) (k : Nat) : Bucket :=
  let o := 0x500 + 96 * k
  { caps := (List.range (natAt l o 4 % 16)).map (fun j => (wordAt l (o + 8 + 4 * j), wordAt l (o + 40 + 4 * j))), overflow := wordAt l (o + 4) }

/-- R282: the bucket tables present. -/
def bucketsOf (l : List Byte) : Sparse Bucket :=
  ((List.range 16).filter (fun k => (natAt l 0x14 2).testBit k)).map (fun k => (k, bucketAt l k))

/-- R281, R282: the record of its bytes. -/
def recordOf (l : List Byte) : LaunchRec :=
  let w8 := natAt l 0x08 4
  let wc := natAt l 0x0C 4
  { entry := wordAt l 0, taskId := wordAt l 4, teams := w8 % 2 ^ 16, spt := w8 / 2 ^ 16 % 8, prio := w8 / 2 ^ 20 % 8, ckpt := w8.testBit 24,
    kill := w8.testBit 25, cohort := w8.testBit 26, lenient := w8.testBit 27, cool := wc % 256,
    edges := (List.range (min (wc / 2 ^ 8 % 16) 8)).map (edgeAt l), rings := (List.range (min (wc / 2 ^ 12 % 16) 8)).map (ringEntryAt l),
    vmask := BitVec.ofNat 16 (wc / 2 ^ 16), tokens := natAt l 0x10 4, est := BitVec.ofNat 64 (natAt l 0x18 8),
    arg := BitVec.ofNat 64 (natAt l 0x20 8), maph := wordAt l 0x28, ckh := wordAt l 0x2C,
    views := Vector.ofFn (fun n => viewOfImage (natAt l (0x100 + 64 * n.val) 64)), buckets := bucketsOf l, bytes := l }

/-- Whether a table is not as R282 gives. Of its targets, those below NB and TOVF are tested; the words of TGT at and above NB may hold anything (log 119). -/
def badBucket (l : List Byte) (k : Nat) : Bool :=
  let o := 0x500 + 96 * k
  let n := natAt l o 4
  let caps := (List.range (min n 8)).map (fun j => natAt l (o + 8 + 4 * j) 4)
  decide (8 < n) || natAt l (o + 72) 24 != 0 || natAt l (o + 4) 4 % 32 != 0
    || (List.range (min n 8)).any (fun j => natAt l (o + 40 + 4 * j) 4 % 32 != 0)
    || (caps.zip (caps.drop 1)).any (fun p => decide (p.2 ≤ p.1))

/-- R284, cause 1: a zero field of the record is nonzero, or a field breaks its rule. A reserved view mode or scope code of R21 breaks none of them, nor
does an NEDGE or NRING above 8 (log 19). -/
def badField (l : List Byte) : Bool :=
  let r := recordOf l
  let w8 := natAt l 0x08 4
  let wc := natAt l 0x0C 4
  let ne := wc / 2 ^ 8 % 16
  let nr := wc / 2 ^ 12 % 16
  let ringZero := fun (x : Nat) => (x &&& (2 ^ 128 - 1 - (0x3F + 0x700 + 0xF000 + 0x7F0000 + 0x3FF * 2 ^ 32 + 0x3FF * 2 ^ 64 + 0x7FF * 2 ^ 76)))
  let fields :=
    w8.testBit 19 || w8.testBit 23 || w8 / 2 ^ 28 != 0 || natAt l 0x16 2 != 0 || natAt l 0x30 16 != 0 || r.teams == 0
      || r.entry.setWidth 5 != 0#5
  let edges := (List.range 8).any (fun k => if k < ne then natAt l (0x46 + 8 * k) 2 != 0 else natAt l (0x40 + 8 * k) 8 != 0)
  let rings := (List.range 8).any (fun k =>
    let x := natAt l (0x80 + 16 * k) 16
    if k < nr then ringZero x != 0 else x != 0)
  let attrs := (List.range 16).any (fun n =>
    let x := natAt l (0x100 + 64 * n) 64
    r.vmask.getLsbD n && (x / 2 ^ 480 != 0 || (x / 2 ^ 384 % 2 ^ 32 &&& (2 ^ 32 - 1 - 0x10000F73)) != 0))
  let tables := (List.range 16).any (fun k => (natAt l 0x14 2).testBit k && badBucket l k)
  let ringRules := r.rings.any (fun e =>
    decide (r.spt < e.cstr) || decide (r.spt < e.pstr) || decide (0x40000 < e.base.toNat * 256 + 256 * (e.nslot.toNat + 1))
      || (!e.pext && (e.ppkg != 0 || e.pseq != 0)) || (e.pext && e.pstr != 0))
  let twice := (List.range 8).any (fun j => (List.range j).any (fun k =>
    match r.rings[j]?, r.rings[k]? with
    | some a, some b => a.ring == b.ring && a.cstr / 2 == b.cstr / 2
    | _, _ => false))
  fields || edges || rings || attrs || tables || ringRules || twice

/-- R285, R291: the launch views that a directory registers: those of the mask that are no tile views. -/
def launchViews (t : LaunchRec) : List (Nat × View) :=
  ((List.range 16).filter (fun n => t.vmask.getLsbD n && (vget View.reset t.views n).handle != 0)).map
    (fun n => (n, vget View.reset t.views n))

/-- R289: the cores that a team needs. -/
def coresNeeded (r : LaunchRec) : Nat := (r.spt + 2) / 2

/-- R275: a strand holds a pseudo-channel of a byte of a view. -/
def viewHeld (s : State) (asid : Nat) (v : View) : Bool :=
  v.handle != 0 && (viewAddrs (handleEntry s asid v.handle) v (List.range (viewSize v))).any (fun a => virtualHeld s asid a.toNat 1)

/-- R284: the cause for which a record is refused: the lowest-numbered of those that apply (log 118). -/
def refusal (s : State) (die asid : Nat) (l : List Byte) : Option Nat :=
  let r := recordOf l
  let small := fun (h : Word) (n : Nat) =>
    h != 0 && (!handleCurrent s asid h || decide ((handleEntry s asid h).size < n))
  let quads := (r.teams + 4 / coresNeeded r - 1) / (4 / coresNeeded r)
  if (dieAt s die).boot = .failed ∨ badField l then some 1
  else if r.taskId = 0 ∨ thas s.tasks (taskKey asid r.taskId) then some 2
  else if small r.maph (32 * r.teams) ∨ small r.ckh (0x2B8000 * r.teams) then some 3
  else if r.cohort ∧ 256 < quads then some 4
  else if (launchViews r).any (fun v => (flockRoom (flockAt s die) asid v.2).isNone) then some 5
  else none

/-! Launch (R283). -/

/-- A task event (R294): the team, strand and quad fields are zero. -/
def taskEvent (kind : Nat) (detail : Nat) (task : Word) : BitVec 512 := eventRecord kind (BitVec.ofNat 64 detail) task 0 0 0

/-- R344, R345: a byte that the replay unit reads, the n-th of read k; on a page of another package what that package answers, which is free (log 107). -/
def unitByte (s : State) (asid k n va : Nat) : Byte :=
  match (pageFor s.pages asid va).map (fun p => pagePlace s true p va) with
  | some (.at_ loc) => homeByte s loc
  | some (.remote _ _ _) => Config.remoteByte k n
  | _ => 0

/-- R344, R345: the bytes Rd8(v, L) of a view, as the replay unit reads them in read k. -/
def unitBytes (s : State) (asid k : Nat) (v : View) : List Byte :=
  (List.range (viewSize v)).map (fun l => unitByte s asid k l ((handleEntry s asid v.handle).base + viewOffset v l).toNat)

/-- R344, R184: the replay unit's read k of a byte of an allocation meets no fault. Another package may answer that it has no translation (R349), or not at all
(R353): which, is free (log 107). -/
def unitReads (s : State) (asid k : Nat) (e : HandleEntry) (a : Int) : Bool :=
  decide ((e.base : Int) ≤ a) && decide (a < (e.base : Int) + e.size) && !s.badTables.contains (asid, a.toNat / 65536) &&
    (match (pageFor s.pages asid a.toNat).map (fun p => pagePlace s false p a.toNat) with
      | some (.at_ loc) => !s.damaged.contains loc
      | some (.remote _ _ _) => e.tier != 1 && !Config.remoteFails k
      | _ => false)

/-- R344: the snapshot of a view meets no fault in read k. -/
def snapshotReads (s : State) (asid k : Nat) (v : View) : Bool :=
  handleCurrent s asid v.handle && (viewAddrs (handleEntry s asid v.handle) v (List.range (viewSize v))).all (unitReads s asid k (handleEntry s asid v.handle))

/-- R257: the replay unit's read of a view passes the forwarding buffers of uncached slices. -/
def passView (s : State) (asid : Nat) (v : View) : State :=
  if v.handle = 0 then s
  else passUncached s ((viewAddrs (handleEntry s asid v.handle) v (List.range (viewSize v))).filterMap (fun a => virtualPlace s asid a.toNat))

/-- R344: a replay snapshot of a view: its size and bytes, padded to 64 bytes; a tile view records 0, and a view whose snapshot faults
0xFFFF_FFFF_FFFF_FFFF. -/
def snapshot (s : State) (asid k : Nat) (v : View) : List Byte :=
  let body :=
    if v.handle = 0 then leBytes 8 0
    else if snapshotReads s asid k v then leBytes 8 (viewSize v) ++ unitBytes s asid k v
    else leBytes 8 0xFFFFFFFFFFFFFFFF
  body ++ leBytes ((64 - body.length % 64) % 64) 0

/-- R344: with capture on, a launch of the address space appends an entry to the die's replay area, whose address is not compared with the size of the HBM
(log 112); RLAUNCH follows once the entry has performed. -/
def captureLaunch (s : State) (die asid : Nat) (r : LaunchRec) : State × Option Nat :=
  let x := dieAt s die
  let p := x.replay
  if p.mode = 1 ∧ p.asid = asid then
    let views := ((List.range 16).filter (fun n => r.vmask.getLsbD n)).flatMap (fun n => snapshot s asid (s.free + n) (vget View.reset r.views n))
    let len := 0xB40 + views.length
    if 2 ^ p.log < p.next.toNat + len then (setDie s die { x with replay := { p with skipped := p.skipped + 1 } }, none)
    else
      let entry := leBytes 8 len ++ leBytes 8 r.taskId.toNat ++ leBytes 8 (gtAt s die).toNat ++ leBytes 8 0 ++ leBytes 32 0
        ++ r.bytes.take 2816 ++ views
      let s0 := ((launchViews r).filter (fun v => snapshotReads s asid (s.free + v.1) v.2)).foldl (fun s v => passView s asid v.2) s
      let s1 := writeHome s0 (cellsAt (location die (p.base.toNat + p.next.toNat)) entry)
      let s2 := setDie { s1 with free := s.free + 16 } die { x with replay := { p with next := p.next + BitVec.ofNat 32 len } }
      (traceAfter s2 die s0.nextOp 0x18 (BitVec.ofNat 64 (r.taskId.toNat * 2 ^ 32 + p.next.toNat)), some p.next.toNat)
  else (s, none)

def hqAt (s : State) (n : Nat) : HostQueue := tget HostQueue.reset s.hqs n
def setHq (s : State) (n : Nat) (x : HostQueue) : State := { s with hqs := tput s.hqs n x }

/-- R323: an entry of a host queue gets its STATUS. -/
def entryDone (i st : Nat) (e : HostEntry) : HostEntry := if e.index = i then { e with status := some st } else e

/-- R323: the LAUNCH entry of a task completes. -/
def hostDone (s : State) (host : Option (Nat × Nat)) (st : Nat) : State :=
  match host with
  | none => s
  | some (n, i) => setHq s n { hqAt s n with entries := (hqAt s n).entries.map (entryDone i st) }

/-- R257, R288: the read of a record's map entries passes the forwarding buffers of uncached slices. -/
def passMap (s : State) (asid : Nat) (r : LaunchRec) : State :=
  if r.maph = 0 then s else passVirtual s asid (handleEntry s asid r.maph).base (32 * r.teams)

/-- R283: a die's scheduler accepts a launch for an address space: refused with LAUNCH_FAIL (R323: its host queue entry completes with STATUS 2 and the
cause), parked, or queued for placement. The map entries of its teams are read now, once (R288, log 120). -/
def acceptLaunch (s : State) (die : Nat) (a : AskedLaunch) : State :=
  let asid := a.asid
  let l := a.record
  let start := a.start
  let host := a.host
  let r := recordOf l
  match refusal s die asid l with
  | some c => hostDone (postEvent s die (taskEvent 7 c r.taskId)) host (2 + 256 * c)
  | none =>
    let c := captureLaunch (passMap s asid r) die asid r
    let s1 := c.1
    let team := fun (k : Nat) =>
      let b := bestDies (mapCounts s1 asid r.maph k)
      { Team.reset (r.spt + 1) with die := (if b.length = 1 then b.head? else none), choices := b }
    let t : Task :=
      { asid := asid, home := die, order := s1.launches, info := r, start := start, parked := !r.edges.isEmpty, killed := false,
        tokens := r.tokens, teams := (List.range r.teams).map team, dies := [], ckBase := (handleEntry s1 asid r.ckh).base,
        ckPinned := false, poisoned := 0, replay := c.2, host := host }
    let s2 := { s1 with tasks := tput s1.tasks (taskKey asid r.taskId) t, launches := s1.launches + 1,
                          killed := s1.killed.filter (fun k => k != taskKey asid r.taskId) }
    if r.edges.isEmpty then s2 else postEvent s2 die (taskEvent 4 0 r.taskId)

/-- R358, step 4: a die's scheduler accepts launches: its firmware has written GO. One whose boot has failed refuses every launch. -/
def accepting (s : State) (die : Nat) : Bool := (dieAt s die).go || (dieAt s die).boot == .failed

/-- R283: the accesses that LAUNCH waits for: every earlier access of the strand has performed at package scope. -/
def launchWaits (s : State) : Bool :=
  s.ops.any (fun o => o.seq == s.cur && !orderDone s o 3 && (match o.kind with
    | .retire _ _ _ => false
    | .spadLoad _ _ => false
    | .spadStore _ _ => false
    | .tileSet _ _ => false
    | .send _ _ => false
    | .array (.mstatFetch _ _ _ _) => true
    | .array _ => false
    | .bank (.pmac _ _ _) => true
    | .bank _ => false
    | _ => true))

/-- R184: LAUNCH's read of its record meets an uncorrectable error: the check of it. -/
def checkDamage (s : State) (die asid : Nat) (vas : List Nat) : Check :=
  match vas.find? (fun va => anyDamaged s die asid false [va]) with
  | some va => .fail 0x2A (BitVec.ofNat 64 va)
  | none => .ok

/-- R184, R283: the checks of LAUNCH: the handle, its size, the translation of the record, and its bytes. A record on a page of another package cannot be read
(R348). -/
def checkLaunch (s : State) (h : Word) : Check :=
  let sq := me s
  let e := handleEntry s sq.asid h
  let vas := (List.range 2816).map (fun j => e.base + j)
  (checkHandle s 2 sq.asid h).andThen
    ((if e.size < 2816 then Check.fail 0x24 (BitVec.ofNat 64 (e.base + e.size)) else .ok).andThen
      ((checkPages s (myDie s) sq.asid false { here := true } vas).andThen (checkDamage s (myDie s) sq.asid vas)))

/-- R283: the bytes of the record that a handle names. -/
def launchBytes (s : State) (h : Word) : List Byte :=
  let sq := me s
  virtualBytes s sq.asid (handleEntry s sq.asid h).base 2816

/-- R275: a strand holds a pseudo-channel of what a launch of a record reads beside it: the map entries of its teams, and with capture on its launch views. -/
def launchHeld (s : State) (die asid : Nat) (l : List Byte) : Bool :=
  let r := recordOf l
  let p := (dieAt s die).replay
  !noChannelHeld s &&
    ((r.maph != 0 && virtualHeld s asid (handleEntry s asid r.maph).base (32 * r.teams)) ||
      (p.mode == 1 && p.asid == asid && (launchViews r).any (fun v => viewHeld s asid v.2)))

/-- R283, R358: a launch reaches the scheduler of a die, which accepts it, or, before GO and behind launches that wait, leaves it waiting (log 39). -/
def launchTask (s : State) (die asid : Nat) (l : List Byte) (start : BitVec 64) (host : Option (Nat × Nat)) : State :=
  let a : AskedLaunch := { asid := asid, record := l, start := start, host := host }
  if accepting s die && (dieAt s die).asked.isEmpty then acceptLaunch s die a
  else setDie s die { dieAt s die with asked := (dieAt s die).asked ++ [a] }

/-- R275: a launch that waited for GO waits for a pseudo-channel of what it reads; one that a die refuses for its boot reads nothing. -/
def askedHeld (s : State) (die : Nat) (a : AskedLaunch) : Bool := (dieAt s die).boot != .failed && launchHeld s die a.asid a.record

/-- R358: launches that waited are taken in order, up to one that a held pseudo-channel keeps waiting. -/
def takeLaunches (s : State) (die : Nat) (l : List AskedLaunch) : State :=
  match l with
  | [] => s
  | a :: rest => if askedHeld s die a then setDie s die { dieAt s die with asked := a :: rest } else takeLaunches (acceptLaunch s die a) die rest

/-- R358: the launches that waited for GO, for the verdict, or for a held pseudo-channel. -/
def takeAsked (s : State) (die : Nat) : State :=
  let l := (dieAt s die).asked
  if accepting s die && !l.isEmpty then takeLaunches (setDie s die { dieAt s die with asked := [] }) die l else s

/-! Coolant (R332, R333). -/

/-- R289, R329: the zone of a quad. -/
def zoneOf (quad : Nat) : Nat := quad / 16 * 4 + quad % 16 / 4

def zoneAt (s : State) (z : Nat) : Zone := tget Zone.reset s.zones z
def setZone (s : State) (z : Nat) (x : Zone) : State := { s with zones := tput s.zones z x }

/-- R332: USED. -/
def zoneUsed (z : Zone) : Nat := z.catq.foldl (fun a e => a + e.2.units) 0

/-- R333: a zone has n units for a team. -/
def zoneFree (z : Zone) (n : Nat) : Bool := decide (z.mode ≤ 1) && decide (zoneUsed z + n ≤ z.cap)

/-- R332: the entry of a team on a quad whose lowest core is c. -/
def catIndex (quad c : Nat) : Nat := 4 * (quad % 4) + c

/-- The lowest core of a mask. -/
def lowCore (m : BitVec 4) : Nat := if m.getLsbD 0 then 0 else if m.getLsbD 1 then 1 else if m.getLsbD 2 then 2 else 3

/-- R333: a team takes its units; one with COOL 0 makes no entry, and TASK of its place reads 0 (DESIGN CHOICE, log 155). -/
def takeCool (s : State) (quad : Nat) (mask : BitVec 4) (task : Word) (n : Nat) : State :=
  if n = 0 then s
  else
    let z := zoneAt s (zoneOf quad)
    setZone s (zoneOf quad) { z with catq := tput z.catq (catIndex quad (lowCore mask)) { task := task, units := n } }

/-- R336: step 2 of an evacuation ends with USED = 0: the valves close. -/
def zoneDrained (z : Zone) : Zone :=
  if z.mode = 2 ∧ z.step = 2 ∧ zoneUsed z = 0 then { z with step := 3, valve := 0, stepFor := 0 } else z

/-- R333: a team's units return. -/
def returnCool (s : State) (quad : Nat) (mask : BitVec 4) : State :=
  let z := zoneAt s (zoneOf quad)
  setZone s (zoneOf quad) (zoneDrained { z with catq := tdel z.catq (catIndex quad (lowCore mask)) })

/-! Placement (R285-R290). -/

/-- The number of a team. -/
def teamKey (task k : Nat) : Nat := task * 2 ^ 16 + k

/-- The cores of a quad in a mask. -/
def maskCores (quad : Nat) (m : BitVec 4) : List Nat := ((List.range 4).filter (fun c => m.getLsbD c)).map (fun c => quad * 4 + c)

/-- R289: the mask of the n lowest-numbered cores without a team; none when there are fewer. -/
def freeMask (s : State) (quad n : Nat) : Option (BitVec 4) :=
  let l := ((List.range 4).filter (fun c => (coreAt s (quad * 4 + c)).team.isNone)).take n
  if l.length = n then some (l.foldl (fun m c => m ||| (1#4 <<< c)) 0#4) else none

/-- R212: array commands queued for a core. -/
def arrayPending (s : State) (k : Nat) : Bool := s.ops.any (fun o => coreOf o.seq == k && isArrayOp o && o.phase != .drained)

/-- R289: the lease queue of a quad. -/
def leaseQueue (s : State) (quad : Nat) : Nat :=
  ((List.range 4).filter (fun c =>
    (quadAt s quad).holder == some c || vget false (quadAt s quad).explicit c || arrayPending s (quad * 4 + c))).length

/-- R289: the quads of a die that are free for a team of a record. -/
def freeQuads (s : State) (die : Nat) (r : LaunchRec) : List Nat :=
  ((List.range 16).map (fun k => die * 16 + k)).filter (fun k =>
    (freeMask s k (coresNeeded r)).isSome && zoneFree (zoneAt s (zoneOf k)) r.cool)

/-- R289: the free quad with the shortest lease queue, the lower number first. -/
def bestQuad (s : State) (l : List Nat) : Option Nat :=
  match l with
  | [] => none
  | k :: rest =>
    match bestQuad s rest with
    | none => some k
    | some m => if leaseQueue s m < leaseQueue s k then some m else some k

/-- R289: the sequencer on which strand k of a team runs. -/
def strandSeq (quad : Nat) (m : BitVec 4) (k : Nat) : Nat := 2 * ((maskCores quad m).getD (k / 2) (quad * 4)) + k % 2

/-- R286, R270: the descriptor of a ring entry. -/
def ringOf (s : State) (quad : Nat) (m : BitVec 4) (e : RingEntry) : Ring :=
  { Ring.reset with valid := true, nslot := e.nslot, base := e.base, ppkg := if e.pext then e.ppkg else s.pod.id,
                    pseq := if e.pext then e.pseq else BitVec.ofNat 11 (strandSeq quad m e.pstr) }

/-- R286: the descriptors of the core on which strands 2j and 2j + 1 run. -/
def ringsOf (s : State) (quad : Nat) (m : BitVec 4) (j : Nat) (l : List RingEntry) : Sparse Ring :=
  l.foldl (fun t e => if e.cstr / 2 = j then tput t e.ring (ringOf s quad m e) else t) []

/-- What a sequencer keeps from strand to strand: its debug block (R203). -/
def keepDebug (old x : Seq) : Seq := { x with freeze := old.freeze, sqfra := old.sqfra, resFail := old.resFail, stepHeld := old.stepHeld }

/-- R285: a strand at its start. -/
def strandStart (t : Task) (team k : Nat) (old : Seq) : Seq :=
  let r := t.info
  let view := fun (n : Fin 16) =>
    if r.vmask.getLsbD n.val then { vget View.reset r.views n.val with isOpen := true, poison := t.poisoned.getLsbD n.val } else View.reset
  keepDebug old { Seq.reset with
    pc := r.entry, asid := t.asid, task := r.taskId, team := BitVec.ofNat 32 team, strand := BitVec.ofNat 3 k, est := r.est,
    regs := (((Vector.replicate 32 0).setIfInBounds 0 (r.arg.setWidth 32)).setIfInBounds 1 ((r.arg >>> 32).setWidth 32)
      |>.setIfInBounds 2 (BitVec.ofNat 32 team)).setIfInBounds 3 (BitVec.ofNat 32 k),
    views := Vector.ofFn view, status := if t.start = 0 then .running else .waiting t.start }

/-- R285: strands k - 1 down to 0 of a team start. -/
def startStrands (s : State) (t : Task) (team quad : Nat) (m : BitVec 4) (k : Nat) : State :=
  match k with
  | 0 => s
  | k + 1 =>
    let s1 := startStrands s t team quad m k
    let q := strandSeq quad m k
    setSeq s1 q (strandStart t team k (seqAt s1 q))

/-- R114, R286: the cores of a team at placement. -/
def placeCores (s : State) (t : Task) (key quad : Nat) (m : BitVec 4) (l : List Nat) (j : Nat) : State :=
  match l with
  | [] => s
  | k :: rest =>
    let s1 := setCore s k { CoreState.reset with rings := ringsOf s quad m j t.info.rings, lenient := t.info.lenient, team := some key,
                                                 suspended := (coreAt s k).suspended }
    placeCores s1 t key quad m rest (j + 1)

def teamAt (t : Task) (k : Nat) : Team := (t.teams[k]?).getD (Team.reset 1)
def putTeam (t : Task) (k : Nat) (x : Team) : Task := { t with teams := lput t.teams k x }
def setTask (s : State) (k : Nat) (t : Task) : State := { s with tasks := tput s.tasks k t }
def taskNo (s : State) (k : Nat) : Option Task := tfind s.tasks k

/-- R285-R289, R333: team k of a task is placed on a quad. Strands of an untimed launch run at once. -/
def placeTeam (s : State) (key : Nat) (t : Task) (k quad : Nat) : State :=
  match freeMask s quad (coresNeeded t.info) with
  | none => s
  | some m =>
    let x := { teamAt t k with die := some (quad / 16), phase := .placed, quad := quad, mask := m }
    let s1 := recountDie (setTask s key (putTeam t k x)) key (putTeam t k x)
    let s2 := placeCores s1 t (teamKey key k) quad m (maskCores quad m) 0
    let s3 := startStrands s2 t k quad m (t.info.spt + 1)
    takeCool s3 quad m t.info.taskId t.info.cool

/-- R289, R290, R306: an entry of a die's order: a team that waits to be placed or restored, or a cohort as one. -/
structure OrderEntry where
  key : Nat
  team : Nat
  cohort : Bool
  restore : Bool
  prio : Nat
  order : Nat
deriving DecidableEq, Repr

/-- The entry stands before another. -/
def OrderEntry.before (a b : OrderEntry) : Bool :=
  decide (b.prio < a.prio) || (a.prio == b.prio && (decide (a.order < b.order) || (a.order == b.order && decide (a.team < b.team))))

/-- R289, R290, R306: what a task has in a die's order. -/
def orderOf (die key : Nat) (t : Task) : List OrderEntry :=
  if t.parked || t.killed then []
  else
    let mk := fun (k : Nat) (c r : Bool) => OrderEntry.mk key k c r t.info.prio t.order
    let outs := ((List.range t.teams.length).filter (fun k =>
      (teamAt t k).phase == .out && (teamAt t k).quad / 16 == die)).map (fun k => mk k false true)
    let waits := (List.range t.teams.length).filter (fun k =>
      (teamAt t k).phase == .waiting && ((teamAt t k).die.getD t.home) == die)
    if t.info.cohort then
      (if t.home == die && t.teams.any (fun x => x.phase == .waiting) then [mk 0 true false] else []) ++ outs
    else waits.map (fun k => mk k false false) ++ outs

/-- R292: the writes that a released task waits for have performed at package scope. -/
def awaitsDone (s : State) (t : Task) : Bool :=
  t.awaits.all (fun n => match opAt s n with
    | none => true
    | some o => orderDone s o 3)

/-- The entries of a die's order, in no order. -/
def orderList (s : State) (die : Nat) : List OrderEntry := s.tasks.flatMap (fun t => if awaitsDone s t.2 then orderOf die t.1 t.2 else [])

/-- The first of a list of entries. -/
def firstEntry (l : List OrderEntry) : Option OrderEntry :=
  match l with
  | [] => none
  | a :: rest =>
    match firstEntry rest with
    | none => some a
    | some b => if b.before a then some b else some a

/-- R289: the head of a die's order. -/
def orderHead (s : State) (die : Nat) : Option OrderEntry := firstEntry (orderList s die)

/-- R291: the task's launch views are registered with a die, or it has none. -/
def viewsReady (t : Task) (die : Nat) : Bool := t.dies.contains die || (launchViews t.info).isEmpty

/-- R288: a team that waits at its home die for a die: the dies that share the greatest count and have a free quad. -/
def openDies (s : State) (t : Task) (k : Nat) : List Nat :=
  (teamAt t k).choices.filter (fun d => !(freeQuads s d t.info).isEmpty)

/-- R289, R291: a team at the head of a die's order is placed on the free quad with the shortest lease queue, once its launch views are
registered with the die. -/
def placeOn (s : State) (die key : Nat) (t : Task) (k : Nat) : State :=
  if (orderHead s die).any (fun e => e.key == key && e.team == k && !e.cohort && !e.restore) && viewsReady t die && (dieAt s die).go then
    match bestQuad s (freeQuads s die t.info) with
    | some q => placeTeam s key t k q
    | none => s
  else s

/-- R288, R289: the head of a die's order is placed; a team without a die of its own is first sent to one, and placed there at
once when it is the head of that die's order. -/
def placeNext (s : State) (die : Nat) : State :=
  match orderHead s die with
  | none => s
  | some e =>
    match taskNo s e.key with
    | none => s
    | some t =>
      if e.cohort || e.restore || !(dieAt s die).go then s
      else
        match (teamAt t e.team).die, openDies s t e.team with
        | none, d :: _ =>
          let t1 := putTeam t e.team { teamAt t e.team with die := some d }
          placeOn (recountDie (setTask s e.key t1) e.key t1) d e.key t1 e.team
        | none, [] => s
        | some _, _ => placeOn s die e.key t e.team

/-- TEAM_PLACE (R288, R289): the launches that a held pseudo-channel kept waiting are taken (R275), and the head of the die's order is placed. -/
def placeHead (s : State) (die : Nat) : State := placeNext (takeAsked s die) die

/-- R290: a team of die d's order stands before a cohort of a priority and launch. -/
def waitsBefore (s : State) (d prio order : Nat) : Bool :=
  (orderList s d).any (fun e => decide (prio < e.prio) || (e.prio == prio && decide (e.order < order)))

/-- R290: the die for a team of a cohort: its own, or the lowest of those that share the greatest count and have a free quad. -/
def cohortDie (s : State) (t : Task) (k : Nat) : Option Nat :=
  match (teamAt t k).die with
  | some d => some d
  | none => (openDies s t k).head?

/-- R290: the teams of a cohort from number k on are placed, n of them; none when one finds no quad. -/
def placeCohort (n k : Nat) (s : State) (key : Nat) : Option State :=
  match n with
  | 0 => some s
  | n + 1 =>
    match taskNo s key with
    | none => none
    | some t =>
      match cohortDie s t k with
      | none => none
      | some d =>
        if (d != t.home && waitsBefore s d t.info.prio t.order) || !viewsReady t d || !(dieAt s d).go then none
        else
          match bestQuad s (freeQuads s d t.info) with
          | none => none
          | some q => placeCohort n (k + 1) (placeTeam s key t k q) key

/-- COHORT_PLACE (R290): the attempt, when the cohort is the head of its home die's order. -/
def placeCohortHead (s : State) (die : Nat) : State :=
  match orderHead s die with
  | none => s
  | some e =>
    if !e.cohort then s
    else
      match taskNo s e.key with
      | none => s
      | some t => (placeCohort t.teams.length 0 s e.key).getD s

/-- R162, R291: a launch view as a directory holds it, registered for the teams of a die. -/
def launchEntry (key : Nat) (t : Task) (die : Nat) (v : Nat × View) : FlockEntry :=
  { seq := none, task := some key, reg := v.1, asid := t.asid, view := v.2, wide := false, dies := [die] }

/-- The entry is that of launch view v of a task. -/
def isLaunchEntry (key : Nat) (v : Nat × View) (e : FlockEntry) : Bool := e.task == some key && e.reg == v.1

/-- R162: the teams of a further die open the launch view of an entry too. -/
def addDie (die : Nat) (e : FlockEntry) : FlockEntry := if e.dies.contains die then e else { e with dies := e.dies ++ [die] }

/-- R291, R321: a launch view registers for a die with directories in a row; a conflict with another task's view, or a directory without room, stops it,
and the registrations before it stand. A conflict with a view that a strand of the same task opened stops it too (DESIGN CHOICE, log 138). -/
def registerLaunchView (s : State) (key : Nat) (t : Task) (die : Nat) (v : Nat × View) (ds : List Nat) : State × Bool :=
  match ds with
  | [] => (s, true)
  | d :: rest =>
    let l := flockAt s d
    let conflicts := fun (w : Bool) => l.any (fun e => !isLaunchEntry key v e && flockConflict s e { launchEntry key t die v with wide := w })
    match l.find? (isLaunchEntry key v), flockRoom l t.asid v.2 with
    | some e, _ =>
      if conflicts e.wide then (s, false)
      else registerLaunchView { s with flock := tput s.flock d (l.map (fun e => if isLaunchEntry key v e then addDie die e else e)) } key t die v rest
    | none, none => (s, false)
    | none, some w => if conflicts w then (s, false) else registerLaunchView (addEntry s d (launchEntry key t die v) w) key t die v rest

/-- R291: the launch views of a list register for a die, in turn (log 100). -/
def registerLaunch (s : State) (key : Nat) (t : Task) (die : Nat) (l : List (Nat × View)) : State × Bool :=
  match l with
  | [] => (s, true)
  | v :: rest =>
    let r := registerLaunchView s key t die v (flockDies v.2 die)
    if r.2 then registerLaunch r.1 key t die rest else r

/-- R288: the dies among which a task's teams are: where they were sent, or where they may be sent. -/
def teamDies (t : Task) : List Nat :=
  distinct ((List.range t.teams.length).flatMap (fun k => match (teamAt t k).die with
    | some d => [d]
    | none => (teamAt t k).choices))

/-- R291: a die is about to place a task's first team: the task is the head of its order and finds a quad, or is a cohort at the head of its home
die's order, with a team for the die. -/
def wantsViews (s : State) (die key : Nat) (t : Task) : Bool :=
  if t.info.cohort then
    ((orderHead s t.home).any (fun e => e.key == key && e.cohort)) && (teamDies t).contains die
  else (orderHead s die).any (fun e => e.key == key && !e.restore && (teamAt t e.team).die == some die) && !(freeQuads s die t.info).isEmpty

/-- LAUNCH_VIEW_REGISTER (R291): the launch views of a task register for a die that is about to place its first team; the placement waits until every
one of them has. -/
def registerViews (s : State) (die key : Nat) : State :=
  match taskNo s key with
  | none => s
  | some t =>
    if !wantsViews s die key t || t.dies.contains die || t.parked || t.killed then s
    else
      let r := registerLaunch s key t die (launchViews t.info)
      if r.2 then setTask r.1 key { t with dies := t.dies ++ [die] } else r.1

/-- TIMED_START (R283): a strand waits until its die's GT reaches the start. -/
def timedStart (s : State) (q : Nat) : State :=
  let sq := seqAt s q
  match sq.status with
  | .waiting t => if gtAt s (dieOf q) < t then s else setSeq s q { sq with status := .running }
  | _ => s

/-! The end of strands, teams and tasks. -/

/-- R343: the sums of a list added. -/
def Sums.add (a b : Sums) : Sums :=
  { slots := (List.range 18).map (fun k => a.slots.getD k 0 + b.slots.getD k 0),
    placed := (List.range 5).map (fun k => ((a.placed.getD k (0, 0)).1 + (b.placed.getD k (0, 0)).1,
                                            (a.placed.getD k (0, 0)).2 + (b.placed.getD k (0, 0)).2)),
    stall := a.stall + b.stall }

/-- R343: the whole-strand set of counters. -/
def strandSums (c : Vector (BitVec 48) 126) : Sums :=
  { Sums.zero with slots := (List.range 18).map (fun k => (vget 0 c (108 + k)).toNat) }

/-- R343: the core registers. -/
def coreSums (st : Vector Word 4) (pl : Vector (BitVec 64) 5) : Sums :=
  { Sums.zero with placed := (List.range 5).map (fun k => ((vget 0 pl k).toNat / 2 ^ 40, (vget 0 pl k).toNat % 2 ^ 40)),
                   stall := (List.range 4).foldl (fun a k => a + (vget 0 st k).toNat) 0 }

/-- R343: the task that a capture is of: where none had the identifier at CAPSTART, any that has it (DESIGN CHOICE, log 142). -/
def ofCapture (c : Capture) (key : Nat) : Bool :=
  match c.key with
  | some k => c.task.isSome && k == key
  | none => c.task == some (BitVec.ofNat 32 key)

/-- R343: what ends inside an open capture of its task counts with its final values. -/
def captureEnded (s : State) (die key : Nat) (x : Sums) : State :=
  let d := dieAt s die
  if ofCapture d.capture key then setDie s die { d with capture := { d.capture with ended := d.capture.ended.add x } } else s

/-- R211, R232: cores of a quad give up the lease. -/
def dropLease (s : State) (quad : Nat) (m : BitVec 4) : State :=
  let x := quadAt s quad
  setQuad s quad { x with holder := (match x.holder with
                            | some c => if m.getLsbD c then none else some c
                            | none => none),
                          explicit := Vector.ofFn (fun c => !m.getLsbD c.val && vget false x.explicit c.val) }

/-- R342, R343: the core registers of a team's cores are taken at its end. -/
def endCores (s : State) (key : Nat) (l : List Nat) : State :=
  match l with
  | [] => s
  | k :: rest =>
    let c := coreAt s k
    let s1 := captureEnded s (dieOfCore k) key (coreSums c.stalls c.placed)
    endCores (setCore s1 k { c with team := none }) key rest

/-- R333: a team leaves its quad. -/
def leaveQuad (s : State) (x : Team) : State := returnCool (dropLease s x.quad x.mask) x.quad x.mask

/-- R300: the pin of CKH holds until every affected team has been restored. -/
def unpinned (t : Task) : Task := if t.teams.any (fun x => x.phase == .out || x.phase == .landing) then t else { t with ckPinned := false }

/-- A team ends: its cores, coolant and lease are free. -/
def endTeam (s : State) (key k : Nat) : State :=
  match taskNo s key with
  | none => s
  | some t =>
    let x := teamAt t k
    let s1 := leaveQuad (endCores s key (maskCores x.quad x.mask)) x
    setTask s1 key (unpinned (putTeam t k { x with phase := .ended }))

/-- R201: a note in the innermost open region. -/
def noteRegion (f : Region → Region) (l : List Region) : List Region :=
  match l with
  | [] => []
  | r :: rest => f r :: rest

/-- R165, R201: a retire of view register `reg` of sequencer q, poisoned or not. -/
def retireView (s : State) (q : Nat) (addr : Word) (slot reg : Nat) (poison : Bool) : State :=
  let sq := seqAt s q
  let v := viewAt sq reg
  let note := if poison then sq.regions else noteRegion (fun r => { r with retired := r.retired ++ [(reg, v)] }) sq.regions
  let s1 := setSeq s q (putView { sq with regions := note } reg { v with isOpen := false, retiring := true })
  newOpFor s1 q addr slot none none [] [] (.retire reg v poison)

/-- R167: the open views of a list of registers retire. -/
def retireViews (s : State) (q : Nat) (addr : Word) (poison : Bool) (l : List Nat) : State :=
  match l with
  | [] => s
  | r :: rest =>
    let s1 := if (viewAt (seqAt s q) r).isOpen then retireView s q addr 2 r poison else s
    retireViews s1 q addr poison rest

/-- R275, R279: a pseudo-channel that a strand holds is left; what the host and the package's units have meanwhile written there is performed. -/
def leaveBank (s : State) (q : Nat) : State :=
  if (seqAt s q).bank.isNone then s else landWaiting (setSeq s q { seqAt s q with bank := none })

/-- The strand of sequencer q has ended: its state is released, and its team may end; a cohort's teams stay resident until the task ends (R290). -/
def releaseStrand (s : State) (q : Nat) : State :=
  let sq := seqAt s q
  let s1 := captureEnded s (dieOf q) (taskOf sq) (strandSums sq.counters)
  let s2 := setSeq s1 q (keepDebug sq { Seq.reset with pc := sq.pc, regs := sq.regs, preds := sq.preds, cstat := sq.cstat, views := sq.views,
                                                       asid := sq.asid, task := sq.task, team := sq.team, strand := sq.strand, barriers := sq.barriers })
  match taskNo s2 (taskOf sq) with
  | none => s2
  | some t =>
    let x := teamAt t sq.team.toNat
    let live := x.live &&& ~~~(1#8 <<< sq.strand.toNat)
    let s3 := setTask s2 (taskOf sq) (putTeam t sq.team.toNat { x with live := live })
    if live = 0 ∧ t.info.cohort = false then endTeam s3 (taskOf sq) sq.team.toNat else s3

/-- Operations of a sequencer that have not completed. -/
def strandBusy (s : State) (q : Nat) : Bool := s.ops.any (fun o => o.seq == q && o.phase != .drained)

/-- R60, R90, R167: what the end of a strand does once its operations have completed: its queue lands, its mappings end, its open views retire. -/
def closeStrand (s : State) (q : Nat) : State := retireViews (endMap (endMap (landQueue s q) q false) q true) q (seqAt s q).pc false (List.range 16)

/-- No strand of a team is left to run: it has ended, or, of a cohort, stands on its quad without one (R290). -/
def Team.isDone (x : Team) : Bool := x.phase == .ended || ((x.phase == .placed || x.phase == .landing) && x.live == 0)

/-- R295: every other strand of the task of sequencer q's strand has ended. -/
def lastStrand (s : State) (q : Nat) : Bool :=
  let sq := seqAt s q
  match taskNo s (taskOf sq) with
  | none => false
  | some t => (List.range t.teams.length).all (fun k =>
      if k = sq.team.toNat then (teamAt t k).live &&& ~~~(1#8 <<< sq.strand.toNat) == 0 else (teamAt t k).isDone)

/-- The strand of sequencer q is to end, no engine has a fault to report to it, and no FAULT event of it is still to be posted (R295). -/
def strandEnding (sq : Seq) : Bool := sq.endPending && sq.status == .running && sq.reports.isEmpty && sq.faultDue.isNone

/-- R90, R279, R295: a strand that has issued its EXIT, or is killed, goes on ending: a pseudo-channel that it holds is left once its BANK commands have run,
and when none of its operations is left it closes; after the retires its state is released. The last strand of a task stays until the task's event
is posted (log 52). -/
def finishStrand (s : State) (q : Nat) : State :=
  if !strandEnding (seqAt s q) then s
  else
    let s1 := if (bankQueue s q).isEmpty then leaveBank s q else s
    if strandBusy s1 q then s1
    else
      let s2 := closeStrand s1 q
      if strandBusy s2 q || lastStrand s2 q then s2 else releaseStrand s2 q

/-- R90: the strand of sequencer q has issued its EXIT. -/
def endStrand (s : State) (q : Nat) : State := finishStrand (setSeq s q { seqAt s q with endPending := true, issue := none }) q

/-- R301: the strand of sequencer q of a killed task: it stops, its queue is discarded, a failing command is dropped, open views retire
poisoned. Its other operations run to completion. -/
def killStrand (s : State) (q : Nat) : State :=
  let sq := seqAt s q
  if sq.status = .idle then s
  else
    let s1 := setSeq (dropReads s q) q
      { sq with queue := [], reports := [], stop := none, unwind := none, barWait := none, issue := none, reissue := none, waitGt := none, pinned := [],
                due := none, status := .running, landing := .none_, endPending := true, resumeAsked := none, arrived := [] }
    let s2 := endMap (endMap (dropStuck s1 q 0) q false) q true
    finishStrand (retireViews s2 q sq.pc true (List.range 16)) q

/-- R301: the strands of a team, from k - 1 down. -/
def killStrands (s : State) (x : Team) (k : Nat) : State :=
  match k with
  | 0 => s
  | k + 1 =>
    let s1 := killStrands s x k
    if x.live.getLsbD k then killStrand s1 (strandSeq x.quad x.mask k) else s1

/-- R307: the suspended ring sets of a team that will not return are dropped. -/
def dropSuspended (s : State) (x : Team) : State :=
  { s with cores := s.cores.map (fun c => (c.1, if (maskCores x.quad x.mask).contains c.1 then { c.2 with suspended := none } else c.2)) }

/-- R303: the number under which the registrations of a strand stand while its team is out. -/
def outSeq (q key strand : Nat) : Nat := q + 4096 * (8 * key + strand + 1)

/-- R304: the address of strand j's block in team k's checkpoint. -/
def strandBlock (t : Task) (k j : Nat) : Nat := t.ckBase + 0x2B8000 * k + 0x1000 + 0x4000 * j

/-- R301, R303: a strand that is out is killed: its open views retire poisoned. -/
def killOutStrand (s : State) (key k : Nat) (t : Task) (x : Team) (y : SavedStrand) : State :=
  let q := strandSeq x.quad x.mask y.strand
  let s1 := { s with flock := s.flock.map (fun p => (p.1, p.2.filter (fun e => e.seq != some (outSeq q (teamKey key k) y.strand)))) }
  y.opened.foldl (fun s v => recordPoison s q key t.asid v true (flockDies v (dieOf q))) s1

/-- R301: a team that is out is killed. -/
def killOut (s : State) (key k : Nat) (t : Task) (x : Team) : State :=
  let s1 := x.saved.strands.foldl (fun s y => captureEnded s (x.quad / 16) key (strandSums y.counters)) s
  let s2 := x.saved.cores.foldl (fun s y => captureEnded s (x.quad / 16) key (coreSums y.stalls y.placed)) s1
  dropSuspended (x.saved.strands.foldl (fun s y => killOutStrand s key k t x y) s2) x

/-- R301: a team that is on no core ends. -/
def endWaiting (s : State) (key k : Nat) : State :=
  match taskNo s key with
  | none => s
  | some t => setTask s key (putTeam t k { teamAt t k with phase := .ended, live := 0 })

/-- R301: the teams of the task t, from number k - 1 down: a placed team's strands are killed, a team that waits or is out ends. -/
def killTeams (s : State) (key : Nat) (t : Task) (k : Nat) : State :=
  match k with
  | 0 => s
  | k + 1 =>
    let s1 := killTeams s key t k
    let x := teamAt t k
    match x.phase with
    | .placed => killStrands s1 x 8
    | .landing => killStrands s1 x 8
    | .out => endWaiting (killOut s1 key k t x) key k
    | _ => endWaiting s1 key k

/-- R301: a task is killed; its KILLED event follows when the last of its operations and retires has completed. -/
def killTask (s : State) (key : Nat) : State :=
  match taskNo s key with
  | none => s
  | some t => if t.killed then s else killTeams (setTask s key { t with killed := true, parked := false }) key t t.teams.length

end Sys2Proof.Machine
end

