-- ==== Sys2Proof/Machine/Slot.lean ====
section
/-! DEFINITION. Sys2Proof/Machine/Slot.lean: the holds of R64, with the class that R208 counts a held cycle for, and slotStep, the frame in
which the own effect of every slot instruction stands. -/

namespace Sys2Proof.Machine

/-- A hold of R64: its place in the table of R208, the class that it counts for, and the walks that it waits for. -/
structure Hold where
  rank : Nat
  cls : Nat
  vpns : List Nat
deriving DecidableEq, Repr

/-- The hold when a condition holds. -/
def holdIf (b : Bool) (rank cls : Nat) : List Hold := if b then [{ rank := rank, cls := cls, vpns := [] }] else []

/-- R178: the hold of an access that waits for walks. -/
def holdCheck (c : Check) (cls : Nat) : List Hold :=
  match c with
  | .wait v => [{ rank := 5, cls := cls, vpns := v }]
  | _ => []

/-- R58: a source field names a busy register, or latch b5 while it is busy. -/
def busyField (sq : Seq) (f : BitVec 6) : Bool :=
  (decide (f.toNat < 32) && sq.busy.getLsbD f.toNat) || (f == 37 && sq.busy.getLsbD 32)

/-- R133: a VROW reads its sources only when the guard of the V slot that it names is true. Outside a bundle there is no such slot, and the guard
counts as true (log 99). -/
def readsRows (sq : Seq) (sl : Bool) : Bool :=
  match sq.issue with
  | none => true
  | some c => c.mask.getLsbD (if sl then 4 else 3)

/-- R80, R133: the source fields that an instruction of a stream reads, and pops where one is mapped. -/
def readsOf (sq : Seq) (i : Instr) : List (BitVec 6) :=
  match i with
  | .vrow sl rd ra rb => if readsRows sq sl then [rd, ra, rb] else []
  | i => sourcesOf i

/-- R58: an instruction reads, writes or pops a busy register. -/
def busyHold (sq : Seq) (i : Instr) : Bool :=
  (readsOf sq i).any (busyField sq) ||
    (match scalarDest i with
      | some d => !d.getLsbD 5 && sq.busy.getLsbD (d.toNat % 32)
      | none => false)

/-- R235: the tiles that a tile view reaches. -/
def viewTiles (v : View) : List Nat :=
  if v.handle = 0 then distinct ((inView v 0 (viewSize v)).map (fun l => (viewOffset v l).toNat / 16384)) else []

/-- R59, R124, R243: the tiles that an instruction reads or writes, through its slot or its engine. -/
def tilesTouched (sq : Seq) (i : Instr) : List Nat :=
  let placed := fun (l : List (BitVec 4)) => l.flatMap (fun v => viewTiles (viewAt sq v.toNat))
  vTilesRead i ++ vTilesWritten i ++ engineTilesRead i ++ engineTilesWritten i ++
    (match i with
      | .tadd _ vd va vb _ _ _ => placed [vd, va, vb]
      | .tsub _ vd va vb _ _ _ => placed [vd, va, vb]
      | .tmul _ vd va vb _ _ _ => placed [vd, va, vb]
      | .tmax _ vd va vb _ _ _ => placed [vd, va, vb]
      | .tred _ vd va _ _ _ => placed [vd, va]
      | .tmv _ vd va vb _ _ _ => placed [vd, va, vb]
      | .tmm _ vd va vb _ _ _ => placed [vd, va, vb]
      | _ => [])

/-- R78: an earlier TSPLD or TSPST of the stream touches one of n scratchpad bytes at an address and has not performed. -/
def spadPending (s : State) (a n : Nat) : Bool :=
  s.ops.any (fun o => o.seq == s.cur && (match o.kind with
    | .spadLoad _ b => decide (a < b + 16384) && decide (b < a + n)
    | .spadStore _ b => decide (a < b + 16384) && decide (b < a + n)
    | _ => false))

/-- R182: the addresses of the 8-byte word of a stamp: those of its 8 positions, also where the view does not place them at consecutive addresses
(DESIGN CHOICE, log 129). -/
def stampAddrs (s : State) (v : View) (a : Word) : List Nat :=
  (List.range 8).map (fun j => (posAddr s (me s).asid v (8 * a.toNat + j)).toNat)

/-- R182: the 8-byte word of a stamp, as the running strand reads it at a scope. -/
def stampWord (s : State) (v : View) (a : Word) (sc : Nat) : Nat :=
  natOfBytes ((stampAddrs s v a).map (readVa s (stampTag s.cur) (myDie s) (me s).asid sc))

/-- R348: the destinations that hold the word of a stamp. -/
def stampDests (s : State) (v : View) (a : Word) : List Nat := remoteDests s (myDie s) (me s).asid false (stampAddrs s v a)

/-- R171, R172, R275, R319, R348: the read of WAITM at a scope may take place: nothing earlier holds it, nor its controller, and what another package holds
has been read. -/
def stampRead (s : State) (v : View) (a : Word) (sc : Nat) : Bool :=
  !readBlocked s s.cur v && !bankHeld s (myDie s) (me s).asid (stampAddrs s v a) && !readsWait s (myDie s) (me s).asid sc (stampAddrs s v a) &&
    ((stampDests s v a).isEmpty || (!(requestsOf s (stampTag s.cur)).isEmpty && allAnswered s (stampTag s.cur)))

/-- R184: the word of a stamp holds an uncorrectable error. -/
def stampDamaged (s : State) (v : View) (a : Word) : Bool := anyDamaged s (myDie s) (me s).asid false (stampAddrs s v a)

/-- R182: the sequence of a stamp has reached x, in wrapping order. -/
def stampReached (w : Nat) (x : Word) : Bool := decide ((BitVec.ofNat 32 w - x).toNat < 2 ^ 31)

/-- R271: SEND's operand names the issuing package. -/
def sendsHere (s : State) (a : Word) : Bool := !a.getLsbD 31 || (a >>> 16).setWidth 10 == s.pod.id

/-- R271: the core and the ring that SEND's operand names. -/
def sendTarget (a : Word) : Nat × Nat := (a.toNat / 4096 % 16 * 64 + a.toNat / 256 % 16 * 4 + a.toNat / 64 % 4, a.toNat % 64)

/-- R270: the producer field of a sequencer. -/
def pseqOf (q : Nat) : BitVec 11 := BitVec.ofNat 11 q

/-- R270: a ring is registered to a sequencer of this package as its producer. -/
def ringMine (s : State) (q : Nat) (r : Ring) : Bool := r.valid && r.pseq == pseqOf q && r.ppkg == s.pod.id && decide (q < 2048)

/-- R271: the operand of a SEND has nonzero bits [30:26]. -/
def sendReserved (a : Word) : Bool := a.toNat / 2 ^ 26 % 32 != 0

/-- R271: a ring has no free slot. Messages of its producer granted and not yet delivered hold a slot; one of another producer waits for the ring of that
number in a suspended set (R307) and holds none. -/
def ringFull (s : State) (k n : Nat) (r : Ring) : Bool :=
  let going := (s.ops.filter (fun o => o.phase == .queued && ringMine s o.seq r && (match o.kind with
    | .send _ a => sendTarget a == (k, n) && sendsHere s a
    | _ => false))).length
  decide (r.nslot.toNat + 1 ≤ r.count + going)

/-- How a SEND stands with its ring: it is denied, finds no slot, has a slot, waits for another package's word, or that package is fenced or may not be
reached. -/
inductive SendState where
  | denied
  | full
  | granted
  | asking
  | fenced
  | unmapped
deriving DecidableEq, Repr

/-- R307: the ring that SEND's operand names is that of a suspended set, and sequencer q is its producer there. -/
def ringSuspended (s : State) (q : Nat) (a : Word) : Bool :=
  let x := sendTarget a
  ringMine s q (tget Ring.reset ((coreAt s x.1).suspended.getD []) x.2)

/-- R271, R307, R349: the state of a SEND of sequencer q with the operand a. A ring of a suspended set gives no slot. A package whose VALID is 0 may not be
reached by a request that has not been sent. Another package has answered with 1 for a slot, 0 for none, and 2 when it denies (log 10). -/
def sendState (s : State) (q : Nat) (a : Word) : SendState :=
  let x := sendTarget a
  if sendReserved a then .denied
  else if sendsHere s a then
    let r := tget Ring.reset (coreAt s x.1).rings x.2
    if ringMine s q r then (if ringFull s x.1 x.2 r then .full else .granted)
    else if ringSuspended s q a then .full
    else .denied
  else
    let d := destAt s (a.toNat / 2 ^ 16 % 2 ^ 10)
    match requestsOf s (sendTag q) with
    | [] => if d.fenced then .fenced else if d.valid then .asking else .unmapped
    | r :: _ =>
      if !r.answered then (if d.valid || r.sent.isSome then .asking else .unmapped)
      else if r.poison then .fenced
      else if r.answer.headD 2 = 0 then .full
      else if r.answer.headD 2 = 1 then .granted
      else .denied

/-- R271: the SEND waits for its start. -/
def sendEarly (s : State) (timed : Bool) : Bool := timed && decide (gtAt s (myDie s) < (me s).ts)

/-- R271: the SEND waits for a slot. -/
def sendWaits (s : State) (a : Word) : Bool := !(me s).sendFull && (sendState s s.cur a == .full || sendState s s.cur a == .asking)

/-- The operations of the running strand that have not completed (R90, R199), issued in a region of depth d or deeper. -/
def openOps (s : State) (d : Nat) : List Op := s.ops.filter (fun o => o.seq == s.cur && !isComplete o && decide (d ≤ o.region))

/-- The view as VOPEN's word sets it (R164). -/
def openingView (v : View) (mode : BitVec 2) (sc : BitVec 3) (cls : BitVec 4) : View := { v with mode := mode, scope := sc, cls := cls }

/-- The holds of the M slot for an access that no issue trap stops: translation, an unperformed condition of WAITM, VOPEN or SEND. -/
def memoryHolds (s : State) (i : Instr) : List Hold :=
  let sq := me s
  let view := fun (v : BitVec 4) => viewAt sq v.toNat
  let atomic := fun (op : AtomicOp) (v : BitVec 4) (a : BitVec 6) => holdCheck (checkAtomic s (view v) op (src s a)) 3
  match i with
  | .tld _ _ v a _ _ => holdCheck (checkRows s (view v) (seqRows (src s a)) false) 3
  | .tst _ _ v a _ _ => holdCheck (checkRows s (view v) (seqRows (src s a)) true) 3
  | .tgath _ _ v a _ _ =>
    holdIf (spadPending s (src s a).toNat 256) 4 3 ++
      holdCheck (checkRows s (view v) (indexRows (myCore s) (src s a).toNat) false) 3
  | .tscat _ _ v a _ _ =>
    holdIf (spadPending s (src s a).toNat 256) 4 3 ++
      holdCheck (checkRows s (view v) (indexRows (myCore s) (src s a).toNat) true) 3
  | .ared _ _ v a _ _ => holdCheck (checkAred s (view v) (src s a).toNat) 3
  | .vopen _ v mode sc cls =>
    let w := openingView (view v) mode sc cls
    (match checkFirst s v.toNat w with
      | .ok => holdIf (openHeld s v.toNat w) 7 3
      | _ => [])
  | .waitm _ d v a _ sc =>
    (match checkStamp s (view v) (src s a) with
      | .wait vpns => [{ rank := 5, cls := 3, vpns := vpns }]
      | .ok =>
        holdIf (!stampRead s (view v) (src s a) (sc.toNat + 1) || (!anyPoison s (stampTag s.cur) && !stampDamaged s (view v) (src s a) &&
          !stampReached (stampWord s (view v) (src s a) (sc.toNat + 1) % 2 ^ 32) (src s d))) 7 3
      | .fail _ _ => [])
  | .send _ a _ _ timed => holdIf (sendEarly s timed || sendWaits s (src s a)) 7 3
  | .aadd _ _ v a _ _ => atomic .add v a
  | .amin _ _ v a _ _ => atomic .smin v a
  | .amax _ _ v a _ _ => atomic .smax v a
  | .aminu _ _ v a _ _ => atomic .umin v a
  | .amaxu _ _ v a _ _ => atomic .umax v a
  | .aand _ _ v a _ _ => atomic .and v a
  | .aor _ _ v a _ _ => atomic .or v a
  | .axor _ _ v a _ _ => atomic .xor v a
  | .axchg _ _ v a _ _ => atomic .xchg v a
  | .acas _ _ v a _ _ => atomic .cas v a
  | .aincb _ _ v a _ _ => atomic .incb v a
  | .afadd _ _ v a _ _ => atomic .fadd v a
  | .afaddh _ _ v a _ _ => atomic .faddh v a
  | .ald _ _ v a _ _ => atomic .load v a
  | .ast _ _ v a _ _ => atomic .store v a
  | _ => []

/-- R215, R243: the holds of the read phase of a placed operation, and of the check of MSTAT's handle. -/
def engineHolds (s : State) (i : Instr) : List Hold :=
  match i, placedCall i with
  | .mstatHandle _ a _ _ _, _ => holdCheck (checkFetch s (src s a)) 4
  | _, some c =>
    (match checkPlaced s s.cur c with
      | .wait v => [{ rank := 6, cls := 4, vpns := v }]
      | .ok => holdIf (!readDone s s.cur c || (decideHome s s.cur c).1 == .array && decide (32 ≤ (arrayQueue s (coreOf s.cur)).length)) 6 4
      | .fail _ _ _ => [])
  | _, none => []

/-- R310: the holds of an arrival: the release, and the phase of an earlier arrival. -/
def arrivalHolds (s : State) (sc id : BitVec 3) (rl : Bool) : List Hold :=
  holdIf ((rl && !allPerformed s s.cur sc.toNat) || phaseOpen s s.cur sc.toNat id.toNat) 9 1

/-- R275: a strand holds a pseudo-channel of the record that LAUNCH reads, or of what the launch reads beside it. -/
def recordHeld (s : State) (h : Word) : Bool :=
  bankHeld s (myDie s) (me s).asid ((List.range 2816).map (fun j => (handleEntry s (me s).asid h).base + j)) ||
    launchHeld s (myDie s) (me s).asid (launchBytes s h)

/-- R283: the holds of LAUNCH. -/
def launchHolds (s : State) (h : Word) : List Hold :=
  (match checkLaunch s h with
    | .wait v => [{ rank := 9, cls := 1, vpns := v }]
    | _ => []) ++ holdIf (launchWaits s || recordHeld s h) 9 1

/-- R87: the 64-bit value Src(b):Src(a). -/
def srcPair (s : State) (a b : BitVec 6) : BitVec 64 := (src s b).setWidth 64 <<< 32 ||| (src s a).setWidth 64

/-- R86: the time that WAITGT waits for: the one that it read when its hold began, else the one that its operands give. -/
def waitTime (s : State) (a b : BitVec 6) : BitVec 64 := (me s).waitGt.getD (srcPair s a b)

/-- The holds of R64 that an instruction with a true guard meets, in any order. An instruction that an issue trap stops makes no access for
which it could be held; a full copy queue holds a TCOPY before its traps are tested (R91, R126). -/
def holdsOf (s : State) (i : Instr) : List Hold :=
  let sq := me s
  let n := slotNo i
  let cls := classOfSlot n
  let marked := markedTiles s (coreOf s.cur)
  holdIf (busyHold sq i) 2 0 ++ holdIf ((tilesTouched sq i).any (fun t => marked.contains t)) 3 cls ++
    (if (trapsOf s (bundleAddr s) i).isEmpty then memoryHolds s i ++ engineHolds s i else []) ++
    holdIf (isArrayCommand i && decide (32 ≤ (arrayQueue s (coreOf s.cur)).length)) 6 4 ++
    holdIf (isBankCommand i && decide (16 ≤ (bankQueue s s.cur).length)) 6 4 ++
    holdIf (popBlocked s (readsOf sq i)) 8 cls ++
    (match i with
      | .sld _ _ _ a off => holdIf (spadPending s (spadAddr s n a off).toNat 4) 4 0
      | .sst _ _ _ a off => holdIf (spadPending s (spadAddr s n a off).toNat 4) 4 0
      | .qld _ _ a k => holdIf (spadPending s (src s a).toNat (2 * (k.toNat + 1))) 4 5
      | .tcopy _ _ _ _ cq _ => holdIf ((myCore s).lenient && decide (16 ≤ (copiesIn s (coreOf s.cur) cq.toNat).length)) 7 3
      | .waitgt _ a b => holdIf (decide (gtAt s (myDie s) < waitTime s a b)) 9 1
      | .launch _ a _ => launchHolds s (src s a)
      | .bar _ sc id rl _ => arrivalHolds s sc id rl
      | .bararv _ sc id rl => arrivalHolds s sc id rl
      | .barwt _ sc id _ => holdIf (phaseOpen s s.cur sc.toNat id.toNat) 9 1
      | .containend _ => holdIf (decide (sq.regions.length ≠ 0) && !(openOps s sq.regions.length).isEmpty) 9 1
      | .exit _ => holdIf (!(openOps s 0).isEmpty) 9 1
      | _ => [])

/-- The hold of a list that R208 counts a held cycle for: the first of the lowest rank. -/
def firstHold (l : List Hold) : Option Hold :=
  match l with
  | [] => none
  | h :: rest =>
    match firstHold rest with
    | none => some h
    | some k => if k.rank < h.rank then some k else some h

/-- R86: the hold of a WAITGT begins: it keeps the time that its operands give. -/
def beginWait (s : State) (a b : BitVec 6) : State :=
  let sq := me s
  if busyHold sq (.waitgt 0 a b) || popBlocked s [a, b] || decide (waitTime s a b ≤ gtAt s (myDie s)) then s
  else setMe s { sq with waitGt := some (waitTime s a b) }

/-- R86, R321, R348: what an instruction of a held bundle does meanwhile. A WAITGT keeps its time, and a VOPEN the registrations that it has. It asks
other packages for what it reads there: a placed operation its inputs, once nothing earlier holds its reads; a WAITM its word, and again while
the word has not reached the stamp. -/
def askHeld (s : State) (i : Instr) : State :=
  let sq := me s
  match i, placedCall i with
  | .waitgt _ a b, _ => beginWait s a b
  | .vopen _ v mode sc cls, _ =>
    if (trapsOf s (bundleAddr s) i).isEmpty then registerHeld s v.toNat (openingView (viewAt sq v.toNat) mode sc cls) else s
  | .waitm _ d v a _ sc, _ =>
    let w := viewAt sq v.toNat
    let ds := stampDests s w (src s a)
    let again := (requestsOf s (stampTag s.cur)).isEmpty || allAnswered s (stampTag s.cur) && !anyPoison s (stampTag s.cur) &&
      !stampReached (stampWord s w (src s a) (sc.toNat + 1) % 2 ^ 32) (src s d)
    if ds.isEmpty || readBlocked s s.cur w || checkStamp s w (src s a) != .ok || !again then s
    else askReads (dropRequests s (stampTag s.cur)) (stampTag s.cur) (myDie s) sq.asid w.cls (stampAddrs s w (src s a)) ds
  | .send _ a _ _ timed, _ =>
    if sendEarly s timed || !sendWaits s (src s a) then s
    else
      let s1 := setMe s { sq with sendWait := sq.sendWait + 1 }
      let n := (src s a).toNat / 2 ^ 16 % 2 ^ 10
      let again := (requestsOf s (sendTag s.cur)).isEmpty || sendState s s.cur (src s a) == .full
      if sendsHere s (src s a) || !again then s1
      else addRequest (dropRequests s1 (sendTag s.cur)) (sendTag s.cur) n 0 (.ringSlot (src s a))
  | _, some c =>
    if checkPlaced s s.cur c = .ok ∧ (requestsOf s (readTag s.cur)).isEmpty ∧ readsFree s s.cur c then
      askInputs s s.cur (distinctInputs sq c)
    else s
  | _, none => s

/-- R153, R178, R215, R243, R283: the handles that an instruction checks while it is held. -/
def heldHandles (s : State) (i : Instr) : List Word :=
  let h := fun (v : BitVec 4) => (viewAt (me s) v.toNat).handle
  match i, placedCall i with
  | .tld _ _ v _ _ _, _ => [h v]
  | .tst _ _ v _ _ _, _ => [h v]
  | .tgath _ _ v _ _ _, _ => [h v]
  | .tscat _ _ v _ _ _, _ => [h v]
  | .vopen _ v _ _ _, _ => [h v]
  | .waitm _ _ v _ _ _, _ => [h v]
  | .ared _ _ v _ _ _, _ => [h v]
  | .aadd _ _ v _ _ _, _ => [h v]
  | .amin _ _ v _ _ _, _ => [h v]
  | .amax _ _ v _ _ _, _ => [h v]
  | .aminu _ _ v _ _ _, _ => [h v]
  | .amaxu _ _ v _ _ _, _ => [h v]
  | .aand _ _ v _ _ _, _ => [h v]
  | .aor _ _ v _ _ _, _ => [h v]
  | .axor _ _ v _ _ _, _ => [h v]
  | .axchg _ _ v _ _ _, _ => [h v]
  | .acas _ _ v _ _ _, _ => [h v]
  | .aincb _ _ v _ _ _, _ => [h v]
  | .afadd _ _ v _ _ _, _ => [h v]
  | .afaddh _ _ v _ _ _, _ => [h v]
  | .ald _ _ v _ _ _, _ => [h v]
  | .ast _ _ v _ _ _, _ => [h v]
  | .mstatHandle _ a _ _ _, _ => [src s a]
  | .launch _ a _, _ => [src s a]
  | _, some c => [h c.vd, h c.va] ++ (match c.vb with
    | some b => [h b]
    | none => [])
  | _, none => []

/-- R153: the checks that an instruction of a held bundle passes pin their handles: its operands are there, and no issue trap stops it. -/
def pinHeld (s : State) (i : Instr) : List Word :=
  let sq := me s
  if busyHold sq i || popBlocked s (readsOf sq i) || !(trapsOf s (bundleAddr s) i).isEmpty then []
  else (heldHandles s i).filter (fun h => h != 0 && handleCurrent s sq.asid h)

/-- R126: a cycle for which a full copy queue holds a TCOPY in lenient mode counts in the queue's stall counter. -/
def stallHeld (s : State) (i : Instr) : State :=
  match i with
  | .tcopy _ _ _ _ cq _ =>
    let c := myCore s
    if c.lenient && decide (16 ≤ (copiesIn s (coreOf s.cur) cq.toNat).length) then
      setMyCore s { c with stalls := vput c.stalls cq.toNat (vget 0 c.stalls cq.toNat + 1) }
    else s
  | _ => s

/-- R182, R257: a WAITM that may read its word does so in each cycle of its hold, past the forwarding buffer of an uncached slice (log 117). -/
def pollHeld (s : State) (i : Instr) : State :=
  match i with
  | .waitm _ _ v a _ sc =>
    let sq := me s
    let w := viewAt sq v.toNat
    if busyHold sq i || popBlocked s (readsOf sq i) || !(trapsOf s (bundleAddr s) i).isEmpty || checkStamp s w (src s a) != .ok
        || !stampRead s w (src s a) (sc.toNat + 1) then s
    else passUncached s (placesOf s (myDie s) sq.asid false (stampAddrs s w (src s a)))
  | _ => s

/-- R64: one cycle in which a hold keeps the running stream's bundle: no tick, no effect; the walks that it waits for are asked for. -/
def heldCycle (s : State) (h : Hold) : State := countHeld (requestWalks s (myDie s) (me s).asid h.vpns) h.cls

/-- R193: the running stream's slot n faults: kept with the bundle in issue, or, for an instruction on its own, a stop at once. -/
def slotFault (s : State) (n : Nat) (f : SlotFault) : State :=
  let sq := me s
  match sq.issue with
  | some c => setMe s { sq with issue := some { c with undone := c.undone ++ [f] } }
  | none => slotStop (dropFailures s (myDie s) sq.asid) sq.pc f (BitVec.ofNat 8 (255 - 2 ^ n))

/-- The frame of every slot instruction: with a false guard it has no effect (R15). On its own (no bundle in issue), it is held while a hold
of R64 applies and traps where R67 and its continuations say so; in a bundle, the bundle has been checked before (R67). Then its own
effect takes place, or its slot fault; its pops follow (R80), which a faulting slot does not take (R193). -/
def slotStep (i : Instr) (s : State) (body : State → Except SlotFault State) : Host.Outcome State Fault Refusal :=
  let sq := me s
  if guardTrue sq.preds (guardOf i) = false then .next s
  else
    let run :=
      match body s with
      | .ok t => takePops (readsOf sq i) t
      | .error f => slotFault s (slotNo i) f
    match sq.issue with
    | some _ => .next run
    | none =>
      match firstHold (holdsOf s i) with
      | some h => .next (heldCycle (pollHeld (stallHeld (askHeld s i) i) i) h)
      | none =>
        match firstTrap (trapsOf s sq.pc i) with
        | some t => .next (issueTrap s sq.pc t.cause (slotNo i))
        | none => .next run

/-- The instruction may take effect now: its guard is true, and nothing holds or traps it. -/
def slotReady (i : Instr) (s : State) : Bool :=
  guardTrue (me s).preds (guardOf i) &&
    ((me s).issue.isSome || ((firstHold (holdsOf s i)).isNone && (firstTrap (trapsOf s (me s).pc i)).isNone))

/-- A check's failure as the slot fault of slot n; otherwise the effect. -/
def afterCheck (c : Check) (n : Nat) (t : State) : Except SlotFault State :=
  match c with
  | .fail x a => .error { slot := n, cause := x, aux0 := a, aux1 := 0 }
  | _ => .ok t

end Sys2Proof.Machine
end

