-- ==== Sys2Proof/Machine/Scalar.lean ====
section
/-! DEFINITION. Sys2Proof/Machine/Scalar.lean: the S class (R69-R80). -/

namespace Sys2Proof.Machine

/-- The outcome of a slot's step. -/
abbrev SlotOutcome := Host.Outcome State Fault Refusal

/-- The slot number of the S slot of a lane (R13). -/
def sSlot (l : Bool) : Nat := if l then 1 else 0

/-- R70: a shift count, from bits [7:0] of an operand. -/
def shiftCount (b : Word) : Nat := b.toNat % 256

/-- R70: SHL. -/
def shiftLeft (a : Word) (n : Nat) : Word := if n < 32 then a <<< n else 0

/-- R70: SHR. -/
def shiftRight (a : Word) (n : Nat) : Word := if n < 32 then a >>> n else 0

/-- R70: SRA. -/
def shiftArith (a : Word) (n : Nat) : Word := if n < 32 then a.sshiftRight n else if a.msb then 0xFFFFFFFF else 0

/-- R70: CLZ of the low n bits. -/
def leadingZeros (n : Nat) (a : Word) : Nat :=
  match n with
  | 0 => 0
  | k + 1 => if a.getLsbD k then 0 else 1 + leadingZeros k a

/-- R71: the division results. -/
def quotient (a b : Word) : Word := if b = 0 then 0xFFFFFFFF else a / b
def remainder (a b : Word) : Word := if b = 0 then a else a % b

/-- R71: the signed and unsigned high words of a product. -/
def mulHigh (a b : Word) : Word := BitVec.ofInt 32 ((a.toInt * b.toInt) / 2 ^ 32)
def mulHighU (a b : Word) : Word := BitVec.ofNat 32 (a.toNat * b.toNat / 2 ^ 32)

/-- R70: a two-operand form: x from Src(a) and Src(b), written after k ticks. -/
def scalar2 (i : Instr) (l : Bool) (d a b : BitVec 6) (k : Nat) (f : Word → Word → Word) (s : State) : SlotOutcome :=
  slotStep i s (fun s => .ok (writeScalar s (sSlot l) d (f (src s a) (src s b)) k))

/-- R70: a one-operand form. -/
def scalar1 (i : Instr) (l : Bool) (d a : BitVec 6) (f : Word → Word) (s : State) : SlotOutcome :=
  slotStep i s (fun s => .ok (writeScalar s (sSlot l) d (f (src s a)) 1))

/-- R72: a two-address immediate form: x from the register that d names and an immediate. -/
def scalarImm (i : Instr) (l : Bool) (d : BitVec 6) (f : Word → Word) (s : State) : SlotOutcome :=
  slotStep i s (fun s => .ok (writeScalar s (sSlot l) d (f (src s (regField d))) 1))

/-- R24, R25: the signed 12-bit immediate of the S slot of a lane. -/
def imm12 (s : State) (l : Bool) (imm : BitVec 12) : Word := immSigned 12 imm (extOf s (sSlot l))

def execAdd (l : Bool) (g : BitVec 4) (d a b : BitVec 6) (s : State) : SlotOutcome :=
  scalar2 (.add l g d a b) l d a b 1 (fun x y => x + y) s
def execSub (l : Bool) (g : BitVec 4) (d a b : BitVec 6) (s : State) : SlotOutcome :=
  scalar2 (.sub l g d a b) l d a b 1 (fun x y => x - y) s
def execAnd (l : Bool) (g : BitVec 4) (d a b : BitVec 6) (s : State) : SlotOutcome :=
  scalar2 (.and l g d a b) l d a b 1 (fun x y => x &&& y) s
def execOr (l : Bool) (g : BitVec 4) (d a b : BitVec 6) (s : State) : SlotOutcome :=
  scalar2 (.or l g d a b) l d a b 1 (fun x y => x ||| y) s
def execXor (l : Bool) (g : BitVec 4) (d a b : BitVec 6) (s : State) : SlotOutcome :=
  scalar2 (.xor l g d a b) l d a b 1 (fun x y => x ^^^ y) s
def execShl (l : Bool) (g : BitVec 4) (d a b : BitVec 6) (s : State) : SlotOutcome :=
  scalar2 (.shl l g d a b) l d a b 1 (fun x y => shiftLeft x (shiftCount y)) s
def execShr (l : Bool) (g : BitVec 4) (d a b : BitVec 6) (s : State) : SlotOutcome :=
  scalar2 (.shr l g d a b) l d a b 1 (fun x y => shiftRight x (shiftCount y)) s
def execSra (l : Bool) (g : BitVec 4) (d a b : BitVec 6) (s : State) : SlotOutcome :=
  scalar2 (.sra l g d a b) l d a b 1 (fun x y => shiftArith x (shiftCount y)) s
def execMin (l : Bool) (g : BitVec 4) (d a b : BitVec 6) (s : State) : SlotOutcome :=
  scalar2 (.min l g d a b) l d a b 1 (fun x y => if x.slt y then x else y) s
def execMax (l : Bool) (g : BitVec 4) (d a b : BitVec 6) (s : State) : SlotOutcome :=
  scalar2 (.max l g d a b) l d a b 1 (fun x y => if x.slt y then y else x) s
def execMinu (l : Bool) (g : BitVec 4) (d a b : BitVec 6) (s : State) : SlotOutcome :=
  scalar2 (.minu l g d a b) l d a b 1 (fun x y => if x.ult y then x else y) s
def execMaxu (l : Bool) (g : BitVec 4) (d a b : BitVec 6) (s : State) : SlotOutcome :=
  scalar2 (.maxu l g d a b) l d a b 1 (fun x y => if x.ult y then y else x) s
def execMov (l : Bool) (g : BitVec 4) (d a : BitVec 6) (s : State) : SlotOutcome := scalar1 (.mov l g d a) l d a (fun x => x) s
def execAddsh (l : Bool) (g : BitVec 4) (d a b : BitVec 6) (sh : BitVec 2) (s : State) : SlotOutcome :=
  scalar2 (.addsh l g d a b sh) l d a b 1 (fun x y => x + (y <<< sh.toNat)) s
def execClz (l : Bool) (g : BitVec 4) (d a : BitVec 6) (s : State) : SlotOutcome :=
  scalar1 (.clz l g d a) l d a (fun x => BitVec.ofNat 32 (leadingZeros 32 x)) s

def execMul (l : Bool) (g : BitVec 4) (d a b : BitVec 6) (s : State) : SlotOutcome :=
  scalar2 (.mul l g d a b) l d a b 3 (fun x y => x * y) s
def execMulh (l : Bool) (g : BitVec 4) (d a b : BitVec 6) (s : State) : SlotOutcome :=
  scalar2 (.mulh l g d a b) l d a b 3 mulHigh s
def execMulhu (l : Bool) (g : BitVec 4) (d a b : BitVec 6) (s : State) : SlotOutcome :=
  scalar2 (.mulhu l g d a b) l d a b 3 mulHighU s
def execDivu (l : Bool) (g : BitVec 4) (d a b : BitVec 6) (s : State) : SlotOutcome :=
  scalar2 (.divu l g d a b) l d a b 18 quotient s
def execRemu (l : Bool) (g : BitVec 4) (d a b : BitVec 6) (s : State) : SlotOutcome :=
  scalar2 (.remu l g d a b) l d a b 18 remainder s

def execMovi (l : Bool) (g : BitVec 4) (d : BitVec 6) (imm : BitVec 12) (s : State) : SlotOutcome :=
  slotStep (.movi l g d imm) s (fun s => .ok (writeScalar s (sSlot l) d (imm12 s l imm) 1))
def execAddi (l : Bool) (g : BitVec 4) (d : BitVec 6) (imm : BitVec 12) (s : State) : SlotOutcome :=
  scalarImm (.addi l g d imm) l d (fun x => x + imm12 s l imm) s
def execAndi (l : Bool) (g : BitVec 4) (d : BitVec 6) (imm : BitVec 12) (s : State) : SlotOutcome :=
  scalarImm (.andi l g d imm) l d (fun x => x &&& imm12 s l imm) s
def execOri (l : Bool) (g : BitVec 4) (d : BitVec 6) (imm : BitVec 12) (s : State) : SlotOutcome :=
  scalarImm (.ori l g d imm) l d (fun x => x ||| imm12 s l imm) s
def execXori (l : Bool) (g : BitVec 4) (d : BitVec 6) (imm : BitVec 12) (s : State) : SlotOutcome :=
  scalarImm (.xori l g d imm) l d (fun x => x ^^^ imm12 s l imm) s
def execShli (l : Bool) (g : BitVec 4) (d : BitVec 6) (imm : BitVec 12) (s : State) : SlotOutcome :=
  scalarImm (.shli l g d imm) l d (fun x => shiftLeft x imm.toNat) s
def execShri (l : Bool) (g : BitVec 4) (d : BitVec 6) (imm : BitVec 12) (s : State) : SlotOutcome :=
  scalarImm (.shri l g d imm) l d (fun x => shiftRight x imm.toNat) s
def execSrai (l : Bool) (g : BitVec 4) (d : BitVec 6) (imm : BitVec 12) (s : State) : SlotOutcome :=
  scalarImm (.srai l g d imm) l d (fun x => shiftArith x imm.toNat) s
def execMovh (l : Bool) (g : BitVec 4) (d : BitVec 6) (imm : BitVec 12) (s : State) : SlotOutcome :=
  scalarImm (.movh l g d imm) l d (fun x => (imm.setWidth 32 <<< 20) ||| (x &&& 0xFFFFF)) s

/-- R73: LIDX. -/
def execLidx (l : Bool) (g : BitVec 4) (d : BitVec 6) (lvl : BitVec 12) (s : State) : SlotOutcome :=
  slotStep (.lidx l g d lvl) s (fun s => .ok (writeScalar s (sSlot l) d (loopIndex (me s) lvl.toNat) 1))

/-- R76: CTLRD. -/
def execCtlrd (l : Bool) (g : BitVec 4) (d : BitVec 6) (ctl : BitVec 12) (s : State) : SlotOutcome :=
  slotStep (.ctlrd l g d ctl) s (fun s => .ok (writeScalar s (sSlot l) d (ctlRead s.cur (me s) ctl.toNat) 1))

/-- R76: CTLWR, at the end of the tick. -/
def execCtlwr (l : Bool) (g : BitVec 4) (src' : BitVec 6) (ctl : BitVec 12) (s : State) : SlotOutcome :=
  slotStep (.ctlwr l g src' ctl) s (fun s => .ok (atEnd (.ctlWrite ctl.toNat (src s src')) s))

/-- R73: GTLO: GT[31:0], and the snapshot of GT[63:32] at once, so that a GTHI of the bundle's later slot reads it. -/
def execGtlo (l : Bool) (g : BitVec 4) (d : BitVec 6) (s : State) : SlotOutcome :=
  slotStep (.gtlo l g d) s (fun s =>
    let t := gtAt s (myDie s)
    let s1 := setMe s { me s with gtSnap := (t >>> 32).setWidth 32 }
    .ok (writeScalar s1 (sSlot l) d (t.setWidth 32) 1))

/-- R73: GTHI. -/
def execGthi (l : Bool) (g : BitVec 4) (d : BitVec 6) (s : State) : SlotOutcome :=
  slotStep (.gthi l g d) s (fun s => .ok (writeScalar s (sSlot l) d (me s).gtSnap 1))

/-- R77: CMP. -/
def execCmp (l : Bool) (g : BitVec 4) (pd cc : BitVec 3) (a b : BitVec 6) (s : State) : SlotOutcome :=
  slotStep (.cmp l g pd cc a b) s (fun s => .ok (writePred s (sSlot l) pd (condTrue cc (src s a) (src s b)) 1))

/-- R77: CMPI. -/
def execCmpi (l : Bool) (g : BitVec 4) (pd cc : BitVec 3) (a : BitVec 6) (imm : BitVec 8) (s : State) : SlotOutcome :=
  slotStep (.cmpi l g pd cc a imm) s (fun s =>
    .ok (writePred s (sSlot l) pd (condTrue cc (src s a) (immSigned 8 imm (extOf s (sSlot l)))) 1))

/-- R78: SLD reads the word at issue. -/
def execSld (l : Bool) (g : BitVec 4) (d a : BitVec 6) (off : BitVec 8) (s : State) : SlotOutcome :=
  slotStep (.sld l g d a off) s (fun s =>
    .ok (writeScalar s (sSlot l) d (spad32 (myCore s) (spadAddr s (sSlot l) a off).toNat) 6))

/-- R78: SST writes the word after every SLD of the bundle has read. -/
def execSst (l : Bool) (g : BitVec 4) (src' a : BitVec 6) (off : BitVec 8) (s : State) : SlotOutcome :=
  slotStep (.sst l g src' a off) s (fun s =>
    .ok (atEnd (.spadStore (spadAddr s (sSlot l) a off).toNat (src s src')) s))

/-- R79: QMAP, at the end of the tick. -/
def execQmap (l : Bool) (g : BitVec 4) (reg : Bool) (a : BitVec 6) (s : State) : SlotOutcome :=
  slotStep (.qmap l g reg a) s (fun s => .ok (atEnd (.queueMap reg (src s a)) s))

/-- R79: QUNMAP, at the end of the tick. -/
def execQunmap (l : Bool) (g : BitVec 4) (reg : Bool) (s : State) : SlotOutcome :=
  slotStep (.qunmap l g reg) s (fun s => .ok (atEnd (.queueUnmap reg) s))

end Sys2Proof.Machine
end

