-- ==== Sys2Proof/Machine/Mem.lean ====
section
/-! DEFINITION. Sys2Proof/Machine/Mem.lean: the M class at its issue (R154, R164, R165, R173-R182, R266-R272). What an instruction leaves to an
engine is an operation in flight; the events of Machine/Engines.lean perform it. -/

namespace Sys2Proof.Machine

/-- R158: Class(v, cx, cls). -/
def viewClass (v : View) (cx : Bool) (cls : BitVec 4) : BitVec 4 := if cx then cls else v.cls

/-- The view that a field names. -/
def myView (s : State) (v : BitVec 4) : View := viewAt (me s) v.toNat

/-- The rows of a tile as they stand at issue (R59). -/
def myTile (s : State) (t : BitVec 4) : List Row := tileRows (myCore s) t.toNat

/-- R173, R174: a load of tile t from rows of view v. -/
def loadOp (t v : BitVec 4) (cx : Bool) (cls : BitVec 4) (rows : RowList) (s : State) : Except SlotFault State :=
  let w := myView s v
  afterCheck (checkRows s w rows false) 5
    (newOp s 5 (some (viewClass w cx cls)) none [t.toNat] [w.handle] (.load t.toNat rows w) [v.toNat])

/-- R173, R174: a store of tile t to rows of view v. -/
def storeOp (t v : BitVec 4) (cx : Bool) (cls : BitVec 4) (rows : RowList) (s : State) : Except SlotFault State :=
  let w := myView s v
  afterCheck (checkRows s w rows true) 5
    (newOp s 5 none (some (viewClass w cx cls)) [] [w.handle] (.store (myTile s t) rows w) [v.toNat])

def execTld (g t v : BitVec 4) (a : BitVec 6) (cx : Bool) (cls : BitVec 4) (s : State) : SlotOutcome :=
  slotStep (.tld g t v a cx cls) s (fun s => loadOp t v cx cls (seqRows (src s a)) s)
def execTst (g t v : BitVec 4) (a : BitVec 6) (cx : Bool) (cls : BitVec 4) (s : State) : SlotOutcome :=
  slotStep (.tst g t v a cx cls) s (fun s => storeOp t v cx cls (seqRows (src s a)) s)
def execTgath (g t v : BitVec 4) (a : BitVec 6) (cx : Bool) (cls : BitVec 4) (s : State) : SlotOutcome :=
  slotStep (.tgath g t v a cx cls) s (fun s => loadOp t v cx cls (indexRows (myCore s) (src s a).toNat) s)
def execTscat (g t v : BitVec 4) (a : BitVec 6) (cx : Bool) (cls : BitVec 4) (s : State) : SlotOutcome :=
  slotStep (.tscat g t v a cx cls) s (fun s => storeOp t v cx cls (indexRows (myCore s) (src s a).toNat) s)

/-- R175: PREF has no effect on architectural state but its pops. -/
def execPref (g v : BitVec 4) (a : BitVec 6) (s : State) : SlotOutcome := slotStep (.pref g v a) s (fun s => .ok s)

/-- R176: TSPLD. -/
def execTspld (g t : BitVec 4) (a : BitVec 6) (s : State) : SlotOutcome :=
  slotStep (.tspld g t a) s (fun s => .ok (newOp s 5 none none [t.toNat] [] (.spadLoad t.toNat (src s a).toNat)))
/-- R176: TSPST. -/
def execTspst (g t : BitVec 4) (a : BitVec 6) (s : State) : SlotOutcome :=
  slotStep (.tspst g t a) s (fun s => .ok (newOp s 5 none none [] [] (.spadStore (myTile s t) (src s a).toNat)))
/-- R177: TZERO. -/
def execTzero (g t : BitVec 4) (s : State) : SlotOutcome :=
  slotStep (.tzero g t) s (fun s => .ok (newOp s 5 none none [t.toNat] [] (.tileSet t.toNat (List.replicate 64 0))))
/-- R177: TMOVT. Of a tile to itself it leaves the tile unchanged: it writes nothing, and a row of the tile still pending lands (log 18). -/
def execTmovt (g t ts : BitVec 4) (s : State) : SlotOutcome :=
  slotStep (.tmovt g t ts) s (fun s =>
    .ok (if t = ts then s else newOp s 5 none none [t.toNat] [] (.tileSet t.toNat (myTile s ts))))

/-- R269: ARED, with the tile as of its issue; `left` lists the words still to be added. -/
def execAred (g t v : BitVec 4) (a : BitVec 6) (cx : Bool) (cls : BitVec 4) (s : State) : SlotOutcome :=
  slotStep (.ared g t v a cx cls) s (fun s =>
    let w := myView s v
    let first := (src s a).toNat
    let left := aredWords w first
    afterCheck (checkAred s w first) 5
      (newOp s 5 none (some (viewClass w cx cls)) [] [w.handle] (.ared (myTile s t) first w (me s).rmode left) [v.toNat]))

/-- R179: TCOPY enters its queue. -/
def execTcopy (g vd vs : BitVec 4) (a : BitVec 6) (cq : BitVec 2) (ev : Bool) (s : State) : SlotOutcome :=
  slotStep (.tcopy g vd vs a cq ev) s (fun s =>
    let d := myView s vd
    let x := myView s vs
    afterCheck (checkCopy s d x) 5
      (newOp s 5 (some x.cls) (some d.cls) [] [x.handle, d.handle]
        (.copy d x vd.toNat vs.toNat (src s a) cq.toNat ev false 0) [vd.toNat, vs.toNat]))

/-- R164: VOPEN, once its hold has ended: the view is registered and open, and poisoned over a poison record (R201). A tile view (R235)
registers nowhere. -/
def execVopen (g v : BitVec 4) (mode : BitVec 2) (sc : BitVec 3) (cls : BitVec 4) (s : State) : SlotOutcome :=
  slotStep (.vopen g v mode sc cls) s (fun s =>
    let w := openingView (myView s v) mode sc cls
    let s1 := setMe s { me s with regions := noteRegion (fun r => { r with opened := r.opened ++ [v.toNat] }) (me s).regions }
    let t := registered s1 v.toNat w
    afterCheck (checkOpen s v.toNat w) 5
      (setMe t (putView (me t) v.toNat { w with isOpen := true, poison := w.handle != 0 && opensPoisoned s w })))

/-- R165: VRETIRE. -/
def execVretire (g v : BitVec 4) (s : State) : SlotOutcome :=
  slotStep (.vretire g v) s (fun s => .ok (retireView s s.cur (bundleAddr s) 5 v.toNat false))

/-- R154: the entry of a freed handle. -/
def freeHandle (s : State) (asid : Nat) (h : Word) : State :=
  let e := handleEntry s asid h
  { s with handles := tput s.handles (handleKey asid h) { e with valid := false, gen := e.gen + 1 } }

/-- R201: a poison record lasts no longer than its handle. -/
def dropPoison (s : State) (asid : Nat) (h : Word) : State :=
  { s with poison := s.poison.map (fun p => (p.1, p.2.filter (fun r => !(r.asid == asid && r.view.handle == h)))) }

/-- R154: HFREE. -/
def execHfree (g : BitVec 4) (a : BitVec 6) (s : State) : SlotOutcome :=
  slotStep (.hfree g a) s (fun s =>
    let h := src s a
    afterCheck (checkCurrent s (me s).asid h) 5 (dropPoison (freeHandle s (me s).asid h) (me s).asid h))

/-- R182, R184, R354: what the word that WAITM has read says, in the order of R184: poison, an uncorrectable error, or nonzero status. -/
def stampVerdict (s : State) (v : View) (a : Word) (sc : Nat) : Check :=
  if anyPoison s (stampTag s.cur) then .fail 0x2B 0
  else if stampDamaged s v a then .fail 0x2A (BitVec.ofInt 64 (posAddr s (me s).asid v (8 * a.toNat)))
  else if stampWord s v a sc / 2 ^ 32 ≠ 0 then .fail 0x28 0
  else .ok

/-- R182: WAITM has no effect but its hold and its faults; its read of an uncached slice passes the forwarding buffer (R257, R265). -/
def execWaitm (g : BitVec 4) (d : BitVec 6) (v : BitVec 4) (a : BitVec 6) (ord : Bool) (sc : BitVec 2) (s : State) : SlotOutcome :=
  slotStep (.waitm g d v a ord sc) s (fun s =>
    let w := myView s v
    afterCheck ((checkStamp s w (src s a)).andThen (stampVerdict s w (src s a) (sc.toNat + 1))) 5
      (passUncached (dropRequests s (stampTag s.cur)) (placesOf s (myDie s) (me s).asid false (stampAddrs s w (src s a)))))

/-- R58: the busy mark of a destination, or of latch b5 when its suppress bit is set. -/
def markBusy (sq : Seq) (d : BitVec 6) : Seq :=
  { sq with busy := sq.busy ||| (1#33 <<< (if d.getLsbD 5 then 32 else d.toNat % 32)) }

/-- R266: an atomic on word Src(a) of view v, with its operands as they stand at issue. -/
def atomicOp (i : Instr) (op : AtomicOp) (d : BitVec 6) (x y : BitVec 6) (v : BitVec 4) (a : BitVec 6) (ord sc : BitVec 2) (s : State) :
    SlotOutcome :=
  slotStep i s (fun s =>
    let w := myView s v
    let k : OpKind := .atomic op d (src s x) (src s y) (src s a).toNat w ord sc (me s).rmode
    let t := newOp s 5 none (some w.cls) [] [w.handle] k [v.toNat]
    afterCheck (checkAtomic s w op (src s a)) 5 (if op = .store then t else setMe t (markBusy (me t) d)))

/-- R268: the two-operand atomics: X is the register that d names. -/
def atomicX (i : Instr) (op : AtomicOp) (d : BitVec 6) (v : BitVec 4) (a : BitVec 6) (ord sc : BitVec 2) (s : State) : SlotOutcome :=
  atomicOp i op d (regField d) (regField d) v a ord sc s

def execAadd (g : BitVec 4) (d : BitVec 6) (v : BitVec 4) (a : BitVec 6) (ord sc : BitVec 2) (s : State) : SlotOutcome :=
  atomicX (.aadd g d v a ord sc) .add d v a ord sc s
def execAmin (g : BitVec 4) (d : BitVec 6) (v : BitVec 4) (a : BitVec 6) (ord sc : BitVec 2) (s : State) : SlotOutcome :=
  atomicX (.amin g d v a ord sc) .smin d v a ord sc s
def execAmax (g : BitVec 4) (d : BitVec 6) (v : BitVec 4) (a : BitVec 6) (ord sc : BitVec 2) (s : State) : SlotOutcome :=
  atomicX (.amax g d v a ord sc) .smax d v a ord sc s
def execAminu (g : BitVec 4) (d : BitVec 6) (v : BitVec 4) (a : BitVec 6) (ord sc : BitVec 2) (s : State) : SlotOutcome :=
  atomicX (.aminu g d v a ord sc) .umin d v a ord sc s
def execAmaxu (g : BitVec 4) (d : BitVec 6) (v : BitVec 4) (a : BitVec 6) (ord sc : BitVec 2) (s : State) : SlotOutcome :=
  atomicX (.amaxu g d v a ord sc) .umax d v a ord sc s
def execAand (g : BitVec 4) (d : BitVec 6) (v : BitVec 4) (a : BitVec 6) (ord sc : BitVec 2) (s : State) : SlotOutcome :=
  atomicX (.aand g d v a ord sc) .and d v a ord sc s
def execAor (g : BitVec 4) (d : BitVec 6) (v : BitVec 4) (a : BitVec 6) (ord sc : BitVec 2) (s : State) : SlotOutcome :=
  atomicX (.aor g d v a ord sc) .or d v a ord sc s
def execAxor (g : BitVec 4) (d : BitVec 6) (v : BitVec 4) (a : BitVec 6) (ord sc : BitVec 2) (s : State) : SlotOutcome :=
  atomicX (.axor g d v a ord sc) .xor d v a ord sc s
def execAxchg (g : BitVec 4) (d : BitVec 6) (v : BitVec 4) (a : BitVec 6) (ord sc : BitVec 2) (s : State) : SlotOutcome :=
  atomicX (.axchg g d v a ord sc) .xchg d v a ord sc s
def execAcas (g : BitVec 4) (d : BitVec 5) (v : BitVec 4) (a : BitVec 6) (ord sc : BitVec 2) (s : State) : SlotOutcome :=
  atomicOp (.acas g d v a ord sc) .cas (acasDest d) (acasReg d) (acasReg d + 1) v a ord sc s
def execAincb (g : BitVec 4) (d : BitVec 6) (v : BitVec 4) (a : BitVec 6) (ord sc : BitVec 2) (s : State) : SlotOutcome :=
  atomicX (.aincb g d v a ord sc) .incb d v a ord sc s
def execAfadd (g : BitVec 4) (d : BitVec 6) (v : BitVec 4) (a : BitVec 6) (ord sc : BitVec 2) (s : State) : SlotOutcome :=
  atomicX (.afadd g d v a ord sc) .fadd d v a ord sc s
def execAfaddh (g : BitVec 4) (d : BitVec 6) (v : BitVec 4) (a : BitVec 6) (ord sc : BitVec 2) (s : State) : SlotOutcome :=
  atomicX (.afaddh g d v a ord sc) .faddh d v a ord sc s
/-- R266: ALD does not read the register that d names. -/
def execAld (g : BitVec 4) (d : BitVec 6) (v : BitVec 4) (a : BitVec 6) (ord sc : BitVec 2) (s : State) : SlotOutcome :=
  atomicOp (.ald g d v a ord sc) .load d 40 40 v a ord sc s
def execAst (g : BitVec 4) (d : BitVec 6) (v : BitVec 4) (a : BitVec 6) (ord sc : BitVec 2) (s : State) : SlotOutcome :=
  atomicX (.ast g d v a ord sc) .store d v a ord sc s

/-- R271: FULL makes the SEND's own guard false at the end of the tick; a guard by p0 or by a bound stage predicate records nothing. -/
def sendStatus (g : BitVec 4) (s : State) : State :=
  let sq := me s
  let p : BitVec 3 := g.setWidth 3
  let bound :=
    (match sq.stage with
      | some b => decide (4 ≤ p.toNat) && b.mask.getLsbD (p.toNat - 4)
      | none => false)
  if p == 0 || bound then s else atEnd (.predWrite p (g.getLsbD 3)) s

/-- The last operation of the state fails. -/
def failLast (s : State) (cause engine : Nat) (aux0 : BitVec 64) : State :=
  match opAt s (s.nextOp - 1) with
  | some o => failOp s o cause engine 0 aux0 0
  | none => s

/-- R271, R349, R354: SEND, once its waits have ended: FULL, denied, without its destination, or on its way. A ring has no virtual address: AUX0 of
XLATE_UNMAPPED is 0 (log 134). -/
def execSend (g : BitVec 4) (a : BitVec 6) (t : BitVec 4) (b : BitVec 6) (timed : Bool) (s : State) : SlotOutcome :=
  slotStep (.send g a t b timed) s (fun s =>
    let w := src s a
    let s1 := dropRequests (setMe s { me s with sendWait := 0, sendFull := false }) (sendTag s.cur)
    let row := tileRow (myCore s) t.toNat ((src s b).toNat % 64)
    if (me s).sendFull then .ok (sendStatus g s1)
    else
      match sendState s s.cur w with
      | .denied =>
        .ok (failLast (newOp s1 5 none none [] [] (.send row w)) 0x3F (if sendsHere s w then 0 else 5) (BitVec.ofNat 64 (0x28 * 2 ^ 32)))
      | .fenced => .error { slot := 5, cause := 0x2B, aux0 := 0, aux1 := 0 }
      | .unmapped => .error { slot := 5, cause := 0x26, aux0 := 0, aux1 := 0 }
      | _ => .ok (newOp s1 5 none none [] [] (.send row w)))

end Sys2Proof.Machine
end

