-- ==== Sys2Proof/Machine/Array.lean ====
section
/-! DEFINITION. Sys2Proof/Machine/Array.lean: the E class at its issue: the array commands (R211-R231), the placed operations (R234-R252) and
the BANK commands (R273-R279). Each samples its operands and enters its queue; the events of Machine/ArrayRun.lean and Machine/Engines.lean run
it. -/

namespace Sys2Proof.Machine

/-- R117: the swap that an E-slot operation makes. -/
def swapped (s : State) (g : BitVec 2) (sw : Bool) : State :=
  if sw then
    let sq := me s
    let r := shapeAt sq g.toNat
    setMe s (putShape sq g.toNat { active := r.shadow, shadow := r.active })
  else s

/-- R212: an array command of the running stream enters its core's queue. -/
def arrayOp (tiles : List Nat) (pins : List Word) (c : ArrayCmd) (s : State) : State := newOp s 6 none none tiles pins (.array c)

/-- R120: the scales of a register as they stand at issue. -/
def myScales (s : State) (q : BitVec 3) : List (BitVec 16) := (scaleAt (me s) q.toNat).toList

/-- R220: MM. -/
def execMm (g : BitVec 4) (acc : BitVec 3) (t : BitVec 4) (sg : BitVec 2) (sw : Bool) (fmt : BitVec 4) (q : BitVec 3) (scl : Bool)
    (s : State) : SlotOutcome :=
  slotStep (.mm g acc t sg sw fmt q scl) s (fun s =>
    let c : ArrayCmd := .mm acc.toNat (myTile s t) (activeAfter (me s) sg sw) fmt.toNat (if scl then some (myScales s q) else none)
    .ok (arrayOp [] [] c (swapped s sg sw)))

/-- R225: MMCMP. -/
def execMmcmp (g : BitVec 4) (acc : BitVec 3) (t : BitVec 4) (sg : BitVec 2) (sw : Bool) (fmt : BitVec 4) (s : State) : SlotOutcome :=
  slotStep (.mmcmp g acc t sg sw fmt) s (fun s =>
    .ok (arrayOp [] [] (.mmcmp acc.toNat (myTile s t) (activeAfter (me s) sg sw) fmt.toNat) (swapped s sg sw)))

/-- R215: MSTAT from the tile pair 2t, 2t + 1. -/
def execMstatTile (g : BitVec 4) (t : BitVec 3) (sg : BitVec 2) (sw : Bool) (fmt : BitVec 4) (s : State) : SlotOutcome :=
  slotStep (.mstatTile g t sg sw fmt) s (fun s =>
    let rows := tileRows (myCore s) (2 * t.toNat) ++ tileRows (myCore s) (2 * t.toNat + 1)
    .ok (arrayOp [] [] (.mstat rows (activeAfter (me s) sg sw) fmt.toNat) (swapped s sg sw)))

/-- R215: MSTAT from a handle, which it pins until the fetch has performed. -/
def execMstatHandle (g : BitVec 4) (a : BitVec 6) (sg : BitVec 2) (sw : Bool) (fmt : BitVec 4) (s : State) : SlotOutcome :=
  slotStep (.mstatHandle g a sg sw fmt) s (fun s =>
    let h := src s a
    let base := (handleEntry s (me s).asid h).base
    afterCheck (checkFetch s h) 6
      (arrayOp [] [h] (.mstatFetch h base (activeAfter (me s) sg sw) fmt.toNat) (swapped s sg sw)))

/-- R217: MSWAP. -/
def execMswap (g : BitVec 4) (s : State) : SlotOutcome := slotStep (.mswap g) s (fun s => .ok (arrayOp [] [] .mswap s))
/-- R213: LEASE. -/
def execLease (g : BitVec 4) (s : State) : SlotOutcome := slotStep (.lease g) s (fun s => .ok (arrayOp [] [] .lease s))
/-- R213: LREL. -/
def execLrel (g : BitVec 4) (s : State) : SlotOutcome := slotStep (.lrel g) s (fun s => .ok (arrayOp [] [] .lrel s))
/-- R226: ACCZERO of a floating accumulator; E is read at issue. -/
def execAcczeroFp (g : BitVec 4) (acc : BitVec 3) (t : BitVec 4) (s : State) : SlotOutcome :=
  slotStep (.acczeroFp g acc t) s (fun s => .ok (arrayOp [] [] (.acczeroFp acc.toNat ((src s (highReg t)).setWidth 16)) s))
/-- R226: ACCZERO of an integer accumulator. -/
def execAcczeroInt (g : BitVec 4) (acc : BitVec 3) (s : State) : SlotOutcome :=
  slotStep (.acczeroInt g acc) s (fun s => .ok (arrayOp [] [] (.acczeroInt acc.toNat) s))
/-- R227: ACCLD. -/
def execAccld (g : BitVec 4) (acc : BitVec 3) (t : BitVec 4) (sg : BitVec 2) (sw : Bool) (fmt : BitVec 4) (hi : Bool) (s : State) :
    SlotOutcome :=
  slotStep (.accld g acc t sg sw fmt hi) s (fun s =>
    .ok (arrayOp [] [] (.accld acc.toNat (myTile s t) (activeAfter (me s) sg sw) fmt.toNat hi) (swapped s sg sw)))
/-- R228: ACCNORM; the shift is read at issue. -/
def execAccnorm (g : BitVec 4) (acc : BitVec 3) (t : BitVec 4) (sg : BitVec 2) (sw : Bool) (s : State) : SlotOutcome :=
  slotStep (.accnorm g acc t sg sw) s (fun s =>
    .ok (arrayOp [] [] (.accnorm acc.toNat ((src s (highReg t)).toNat % 64) (activeAfter (me s) sg sw)) (swapped s sg sw)))
/-- R229: ACCCHK. -/
def execAccchk (g : BitVec 4) (acc : BitVec 3) (s : State) : SlotOutcome :=
  slotStep (.accchk g acc) s (fun s => .ok (arrayOp [] [] (.accchk acc.toNat) s))
/-- R231: ACCDRAIN; with bit 0 of x, the parameter tile 8 + q is read as it stands at issue. -/
def execAccdrain (g : BitVec 4) (acc : BitVec 3) (t : BitVec 4) (sg : BitVec 2) (sw : Bool) (fmt : BitVec 4) (q x : BitVec 3) (s : State) :
    SlotOutcome :=
  slotStep (.accdrain g acc t sg sw fmt q x) s (fun s =>
    let params := if x.getLsbD 0 then some (tileRows (myCore s) (8 + q.toNat)) else none
    .ok (arrayOp [t.toNat] []
      (.accdrain acc.toNat t.toNat (activeAfter (me s) sg sw) fmt.toNat params (x.getLsbD 1) (x.getLsbD 2) (me s).rmode) (swapped s sg sw)))
/-- R230: FOLD. -/
def execFold (g : BitVec 4) (acc : BitVec 3) (sg : BitVec 2) (sw : Bool) (s : State) : SlotOutcome :=
  slotStep (.fold g acc sg sw) s (fun s => .ok (arrayOp [] [] (.fold acc.toNat (activeAfter (me s) sg sw)) (swapped s sg sw)))

/-! Placed operations (R243). -/

/-- R191: the code of a home for an issuer of a die. -/
def homeCode (die : Nat) (h : Home) : Nat :=
  match h with
  | .tile => 0
  | .slice d _ => if d = die then 1 else 4
  | .bank d _ => if d = die then 2 else 4
  | .array => 3

/-- R354: the first source whose bytes a fenced package holds: 1 or 2. -/
def poisonedOperand (s : State) (q : Nat) (c : PlacedCall) : Nat :=
  let sq := seqAt s q
  let v := viewAt sq c.va.toNat
  let vas := (viewAddrs (handleEntry s sq.asid v.handle) v (List.range (viewSize v))).map Int.toNat
  let bad := (requestsOf s (readTag q)).filter (fun r => r.poison)
  if v.handle != 0 && (remoteDests s (dieOf q) sq.asid false vas).any (fun d => bad.any (fun r => r.dest == d)) then 1 else 2

/-- R243: the operation of a call whose read phase is done, with its inputs in the home's working buffer. -/
def placedKind (s : State) (q : Nat) (c : PlacedCall) : OpKind :=
  let sq := seqAt s q
  let a := viewAt sq c.va.toNat
  let b := (match c.vb with
    | some b => viewAt sq b.toNat
    | none => a)
  let h := decideHome s q c
  .placed c.op (viewAt sq c.vd.toNat) a b c.fmt.toNat (placedElems (placedBytes s q a)) (placedElems (placedBytes s q b))
    (tensorRows a) (tensorCols a) (if c.op = .mm then mmCols b (callTrb sq c) else tensorRows b) (callTrb sq c) sq.rmode
    (homeCode (dieOf q) h.1) h.2

/-- R247: the class of a call's reads: that of its first source that is no tile view. -/
def placedReadClass (sq : Seq) (c : PlacedCall) : Option (BitVec 4) :=
  let a := viewAt sq c.va.toNat
  if a.handle ≠ 0 then some a.cls
  else
    match c.vb with
    | some b => if (viewAt sq b.toNat).handle ≠ 0 then some (viewAt sq b.toNat).cls else none
    | none => none

/-- R257, R265: the reads of a call at its home pass the forwarding buffers of uncached slices, and those of a computation at a slice the slice's own. -/
def passInputs (s : State) (q : Nat) (c : PlacedCall) (h : Home) : State :=
  let locs := placesOf s (dieOf q) (seqAt s q).asid false (inputAddrs s q c)
  let s1 := passUncached s locs
  match h with
  | .slice d u =>
    let own := locs.filter (fun l => homeDie l == some d && sliceOf l == u && !uncachedLine s l)
    (distinct (own.map (fun l => lineOf l * 256))).foldl (fun s l => passLine s l false) s1
  | _ => s1

/-- R243: a placed operation, after its hold: its faults, or the end of its read phase and its compute and write-back to come. -/
def placedBody (c : PlacedCall) (s : State) : Except SlotFault State :=
  let sq := me s
  let d := viewAt sq c.vd.toNat
  match checkPlaced s s.cur c with
  | .fail x a0 a1 => .error { slot := 6, cause := x, aux0 := a0, aux1 := a1 }
  | _ =>
    if anyPoison s (readTag s.cur) then
      .error { slot := 6, cause := 0x2B, aux0 := 0, aux1 := placedAux (myDie s) (poisonedOperand s s.cur c) none }
    else
      let k := placedKind s s.cur c
      let s1 := passInputs (dropRequests (swapped s c.sg c.sw) (readTag s.cur)) s.cur c (decideHome s s.cur c).1
      .ok (newOp s1 6 (placedReadClass sq c) (if d.handle = 0 then none else some d.cls) (viewTiles d)
        (if d.handle = 0 then [] else [d.handle]) k (c.vd.toNat :: c.va.toNat :: c.vb.toList.map BitVec.toNat)
        (homeSlice (decideHome s s.cur c).1))

/-- The frame of the seven placed instructions. -/
def placedStep (i : Instr) (s : State) : SlotOutcome :=
  slotStep i s (fun s =>
    match placedCall i with
    | some c => placedBody c s
    | none => .ok s)

def execTadd (g vd va vb fmt : BitVec 4) (sg : BitVec 2) (sw : Bool) (s : State) : SlotOutcome := placedStep (.tadd g vd va vb fmt sg sw) s
def execTsub (g vd va vb fmt : BitVec 4) (sg : BitVec 2) (sw : Bool) (s : State) : SlotOutcome := placedStep (.tsub g vd va vb fmt sg sw) s
def execTmul (g vd va vb fmt : BitVec 4) (sg : BitVec 2) (sw : Bool) (s : State) : SlotOutcome := placedStep (.tmul g vd va vb fmt sg sw) s
def execTmax (g vd va vb fmt : BitVec 4) (sg : BitVec 2) (sw : Bool) (s : State) : SlotOutcome := placedStep (.tmax g vd va vb fmt sg sw) s
def execTred (g vd va fmt : BitVec 4) (sg : BitVec 2) (sw : Bool) (s : State) : SlotOutcome := placedStep (.tred g vd va fmt sg sw) s
def execTmv (g vd va vb fmt : BitVec 4) (sg : BitVec 2) (sw : Bool) (s : State) : SlotOutcome := placedStep (.tmv g vd va vb fmt sg sw) s
def execTmm (g vd va vb fmt : BitVec 4) (sg : BitVec 2) (sw : Bool) (s : State) : SlotOutcome := placedStep (.tmm g vd va vb fmt sg sw) s

/-! BANK commands (R274). -/

/-- R274: a BANK command enters its sequencer's queue with its row as it stands at issue. -/
def bankOp (s : State) (tiles : List Nat) (c : BankCmd) : State := newOp s 6 none none tiles [] (.bank c)

/-- R129, R274: the row of the tile that a BANK command names. -/
def bankRow (s : State) (rs : BitVec 4) : Nat := (vRows s rs).2.1

def execPabm (g : BitVec 4) (a : BitVec 6) (t rs : BitVec 4) (s : State) : SlotOutcome :=
  slotStep (.pabm g a t rs) s (fun s => .ok (bankOp s [] (.pabm (src s a) (tileRow (myCore s) t.toNat (bankRow s rs)))))
def execPbcast (g : BitVec 4) (a : BitVec 6) (t rs : BitVec 4) (s : State) : SlotOutcome :=
  slotStep (.pbcast g a t rs) s (fun s => .ok (bankOp s [] (.pbcast (src s a) (tileRow (myCore s) t.toNat (bankRow s rs)))))
def execPmac (g : BitVec 4) (a : BitVec 6) (t rs : BitVec 4) (s : State) : SlotOutcome :=
  slotStep (.pmac g a t rs) s (fun s => .ok (bankOp s [] (.pmac (src s a) (tileRow (myCore s) t.toNat (bankRow s rs)) (me s).rmode)))
def execPread (g : BitVec 4) (a : BitVec 6) (t rs : BitVec 4) (s : State) : SlotOutcome :=
  slotStep (.pread g a t rs) s (fun s => .ok (bankOp s [t.toNat] (.pread (src s a) t.toNat (bankRow s rs))))
def execPexit (g : BitVec 4) (a : BitVec 6) (s : State) : SlotOutcome :=
  slotStep (.pexit g a) s (fun s => .ok (bankOp s [] (.pexit (src s a))))

end Sys2Proof.Machine
end

