-- ==== Sys2Proof/Machine/Keccak.lean ====
section
/-! DEFINITION. Sys2Proof/Machine/Keccak.lean: SHAKE256 (R345, R359, R362), which the spec names and does not write out: the function of FIPS 202
(log 14). -/

namespace Sys2Proof.Machine

/-- A lane of the state: lane x + 5y. -/
def lane (a : List (BitVec 64)) (x y : Nat) : BitVec 64 := a.getD (x % 5 + 5 * (y % 5)) 0

/-- A state from a function of x and y. -/
def lanes (f : Nat → Nat → BitVec 64) : List (BitVec 64) := (List.range 25).map (fun i => f (i % 5) (i / 5))

/-- The rotations of the lanes. -/
def rhoTable : List Nat := [0, 1, 62, 28, 27, 36, 44, 6, 55, 20, 3, 10, 43, 25, 39, 41, 45, 15, 21, 8, 18, 2, 61, 56, 14]

/-- The round constants. -/
def iotaTable : List (BitVec 64) :=
  [0x0000000000000001, 0x0000000000008082, 0x800000000000808A, 0x8000000080008000, 0x000000000000808B, 0x0000000080000001,
   0x8000000080008081, 0x8000000000008009, 0x000000000000008A, 0x0000000000000088, 0x0000000080008009, 0x000000008000000A]
  ++ [0x000000008000808B, 0x800000000000008B, 0x8000000000008089, 0x8000000000008003, 0x8000000000008002, 0x8000000000000080,
      0x000000000000800A, 0x800000008000000A, 0x8000000080008081, 0x8000000000008080, 0x0000000080000001, 0x8000000080008008]

/-- One round of the permutation. -/
def keccakRound (a : List (BitVec 64)) (rc : BitVec 64) : List (BitVec 64) :=
  let c := (List.range 5).map (fun x => lane a x 0 ^^^ lane a x 1 ^^^ lane a x 2 ^^^ lane a x 3 ^^^ lane a x 4)
  let col := fun (x : Nat) => c.getD (x % 5) 0
  let t := lanes (fun x y => lane a x y ^^^ col (x + 4) ^^^ (col (x + 1)).rotateLeft 1)
  let r := (t.zip rhoTable).map (fun p => p.1.rotateLeft p.2)
  let b := lanes (fun x y => lane r (x + 3 * y) x)
  let e := lanes (fun x y => lane b x y ^^^ (~~~(lane b (x + 1) y) &&& lane b (x + 2) y))
  match e with
  | [] => []
  | h :: rest => (h ^^^ rc) :: rest

/-- The permutation. -/
def keccak (a : List (BitVec 64)) : List (BitVec 64) := iotaTable.foldl keccakRound a

/-- The 64-bit lane of 8 bytes. -/
def laneOfBytes (l : List Byte) : BitVec 64 :=
  match l with
  | [] => 0
  | b :: rest => (laneOfBytes rest <<< 8) ||| b.setWidth 64

/-- The 17 lanes of a 136-byte block, and 8 zero lanes. -/
def blockLanes (l : List Byte) : List (BitVec 64) :=
  (List.range 17).map (fun k => laneOfBytes ((l.drop (8 * k)).take 8)) ++ List.replicate 8 0

/-- A block goes in. -/
def absorb (a : List (BitVec 64)) (l : List Byte) : List (BitVec 64) :=
  keccak ((a.zip (blockLanes l)).map (fun p => p.1 ^^^ p.2))

/-- At most n whole blocks of a list go in. -/
def absorbAll (n : Nat) (a : List (BitVec 64)) (l : List Byte) : List (BitVec 64) :=
  match n with
  | 0 => a
  | n + 1 => if l.isEmpty then a else absorbAll n (absorb a (l.take 136)) (l.drop 136)

/-- The message padded to whole blocks. -/
def shakePad (l : List Byte) : List Byte :=
  let n := 135 - l.length % 136
  if n = 0 then l ++ [0x9F] else l ++ [0x1F] ++ List.replicate (n - 1) 0 ++ [0x80]

/-- The bytes of a state. -/
def laneBytes (a : List (BitVec 64)) : List Byte := a.flatMap (fun x => (List.range 8).map (fun k => x.extractLsb' (8 * k) 8))

/-- R345, R359: the first n bytes of SHAKE256, n at most 136. -/
def shake256 (n : Nat) (l : List Byte) : List Byte :=
  let p := shakePad l
  (laneBytes (absorbAll (p.length / 136) (List.replicate 25 0) p)).take n

end Sys2Proof.Machine
end

