-- ==== Sys2Proof/Machine/ArrayRun.lean ====
section
/-! DEFINITION. Sys2Proof/Machine/ArrayRun.lean: what the central array computes: residue words (R108-R110), the planes (R214, R215), the array
step (R218-R224), compare-accumulate (R225), the accumulator instructions (R226-R231), and the image of the array's state (R304). -/

namespace Sys2Proof.Machine

/-! Residue words (R108-R110). -/

/-- R108: the product of the moduli. -/
def residueRange : Int := 549755805696

/-- R108: the word of three residues. -/
def residueWord (x1 x2 x3 : Nat) : BitVec 64 := BitVec.ofNat 64 (x3 % 8193 * 2 ^ 26 + x2 % 8192 * 2 ^ 13 + x1 % 8191)

/-- R108: the residues of a word, each reduced. -/
def residues (w : BitVec 64) : Nat × Nat × Nat :=
  (w.toNat % 2 ^ 13 % 8191, w.toNat / 2 ^ 13 % 2 ^ 13, w.toNat / 2 ^ 26 % 2 ^ 14 % 8193)

/-- R109: ToResidue. -/
def toResidue (x : Int) : BitVec 64 := residueWord (x % 8191).toNat (x % 8192).toNat (x % 8193).toNat

/-- R110: the residue sum. -/
def residueAdd (a b : BitVec 64) : BitVec 64 :=
  let x := residues a
  let y := residues b
  residueWord (x.1 + y.1) (x.2.1 + y.2.1) (x.2.2 + y.2.2)

/-- R108: FromResidue: the integer of [-M/2, M/2) with the residues of a word, by the Chinese remainder theorem. -/
def fromResidue (w : BitVec 64) : Int :=
  let x := residues w
  let n : Int := ((x.1 * (8192 * 8193 * 4096) + x.2.1 * (8191 * 8193 * 8191) + x.2.2 * (8191 * 8192 * 4097) : Nat) : Int) % residueRange
  if n < 274877902848 then n else n - residueRange

/-! Accumulators. -/

/-- R232: why an array command fails: its cause, and DETAIL, ROW and COL of the status word. -/
structure ArrayFail where
  cause : Nat
  detail : Nat
  row : Nat
  col : Nat
deriving DecidableEq, Repr

/-- A shape failure (R219); ROW and COL are 0, also where no row or column fails (log 103). -/
def shapeFail (detail : Nat) : ArrayFail := { cause := 0x3B, detail := detail, row := 0, col := 0 }

def accWord (a : Acc) (r c : Nat) : BitVec 64 := tget 0 a.words (128 * r + c)
def putAccWord (a : Acc) (r c : Nat) (x : BitVec 64) : Acc := { a with words := sput 0 a.words (128 * r + c) x }
def accExp (a : Acc) (r : Nat) : BitVec 16 := tget 0 a.e r
def accHead (a : Acc) (r : Nat) : Nat := vget 512 a.hg r

/-- R224: the checksum of the words of a row. -/
def rowCheck (a : Acc) (r : Nat) : BitVec 40 :=
  if a.integer then
    ((List.range 128).foldl (fun x c => residueAdd x (accWord a r c)) 0).setWidth 40
  else BitVec.ofNat 40 ((List.range 128).foldl (fun x c => (x + (accWord a r c).toNat) % 2 ^ 32) 0)

/-- R224: CK of a row set afresh. -/
def setCheck (a : Acc) (r : Nat) : Acc := { a with ck := sput 0 a.ck r (rowCheck a r) }

/-- R108: a checksum as it is read: that of an integer accumulator reduced. -/
def readCheck (a : Acc) (r : Nat) : BitVec 40 :=
  if a.integer then (residueAdd ((tget 0 a.ck r).setWidth 64) 0).setWidth 40 else tget 0 a.ck r

/-- R224: CK of a row agrees with its words. -/
def checkOk (a : Acc) (r : Nat) : Bool := readCheck a r == rowCheck a r

/-- R224: the first row of a list whose CK disagrees. -/
def badCheck (a : Acc) (rows : List Nat) : Option ArrayFail :=
  (rows.find? (fun r => !checkOk a r)).map (fun r => { cause := 0x3A, detail := 0, row := r, col := 0 })

/-- R219: the window rows of a plane's fields, and the columns of its column window. -/
def windowRows (p : Plane) : List Nat := (List.range p.mrows).map (fun j => p.row0 + j)
def windowCols (p : Plane) : List Nat := (List.range p.ncols).map (fun j => p.col0 + j)

/-- The first failure of a list of conditions with their details, in the order of the codes (log 104). -/
def firstShape (l : List (Bool × Nat)) : Option ArrayFail := (l.find? (fun x => x.1)).map (fun x => shapeFail x.2)

def accAt (x : ArrayState) (k : Nat) : Acc := vget Acc.reset x.accs k
def putAcc (x : ArrayState) (k : Nat) (a : Acc) : ArrayState := { x with accs := vput x.accs k a }

/-! Planes (R214, R215, R217). -/

/-- The plane rows of 128 rows. -/
def planeOfRows (l : List Row) (n : Nat) : Sparse Row :=
  match l with
  | [] => []
  | r :: rest => if r = 0 then planeOfRows rest (n + 1) else (n, r) :: planeOfRows rest (n + 1)

/-- R214: the pair rows transposed: plane row n holds element n of every pair row. -/
def transposeRows (fmt : Nat) (rows : List Row) : List Row :=
  (List.range 128).map (fun n => rowOf fmt (fun k => elemAt fmt (rows.getD k 0) n))

/-- R215: MSTAT's write of the shadow plane. -/
def loadPlane (x : ArrayState) (rows : List Row) (p : Plane) (fmt : Nat) : Except ArrayFail ArrayState :=
  if p.trb = 1 ∧ fmt ≠ 1 ∧ fmt ≠ 2 then .error (shapeFail 6)
  else
    let l := if p.trb = 1 then transposeRows fmt rows else rows
    .ok { x with shadow := { rows := planeOfRows l 0, fmt := fmt } }

/-! The array step (R218-R224). -/

/-- R218: products per cell. -/
def cellProducts (fmt : Nat) : Nat := if fmt = 1 ∨ fmt = 2 then 1 else if fmt = 7 then 4 else 2

/-- R218: the limit of KDEP. -/
def depthLimit (fmt : Nat) : Nat := if fmt = 1 ∨ fmt = 2 then 128 else if fmt = 7 then 512 else 256

/-- R218: the integer headroom cost of a step. -/
def stepCost (fmt sgn : Nat) : Nat := if fmtWidth fmt = 4 then 1 else if sgn = 3 then 1 else if sgn = 0 then 4 else 2

/-- R218: an integer code of a width, signed or not. -/
def signedCode (w c : Nat) (sgn : Bool) : Int := if sgn && decide (2 ^ (w - 1) ≤ c) then (c : Int) - (2 ^ w : Nat) else c

/-- R222: the step's sum of one element, on the integer path. -/
def intContrib (fmt : Nat) (p : Plane) (a b : Row) : Int :=
  let w := fmtWidth fmt
  (List.range p.kdep).foldl (fun (x : Int) k =>
    x + signedCode w (elemAt fmt a k) (p.sgn % 2 == 1) * signedCode w (elemAt fmt b k) (p.sgn / 2 % 2 == 1)) 0

/-- A finite value floored to the grid 2^g, and whether a remainder is discarded (R223). -/
def floorTo (neg : Bool) (m : Nat) (e g : Int) : Int × Bool :=
  let x : Int := if neg then -(m : Int) else m
  if g ≤ e then (x * (2 ^ (e - g).toNat : Nat), false)
  else
    let d : Int := (2 ^ (g - e).toNat : Nat)
    (x / d, x % d != 0)

/-- R223: the sum of a cell's products so far: the floored sum, the infinities of each sign, an invalid product, and the flags. -/
structure CellSum where
  sum : Int
  pos : Nat
  neg : Nat
  bad : Bool
  flags : Flags
deriving DecidableEq, Repr

/-- R223: a product joins its cell's sum on the grid 2^g. -/
def CellSum.add (x : CellSum) (g : Int) (v : Val) : CellSum :=
  match v with
  | .fin n m e =>
    let f := floorTo n m e g
    { x with sum := x.sum + f.1, flags := x.flags ||| flagIf f.2 flagNX }
  | .inf n => if n then { x with neg := x.neg + 1 } else { x with pos := x.pos + 1 }
  | .nan _ => { x with bad := true }

/-- R223: a cell's contribution with its flags; none when it is wide and not clamped. -/
def CellSum.finish (x : CellSum) (clamp : Bool) : Option (Int × Flags) :=
  let s := x.sum + (2 ^ 47 : Nat) * ((x.pos : Int) - x.neg)
  let wide := decide (s < -(2 ^ 47 : Nat)) || decide ((2 ^ 47 - 1 : Nat) < s)
  if !clamp then (if wide || x.bad || decide (0 < x.pos) || decide (0 < x.neg) then none else some (s, x.flags))
  else
    let c : Int := min (2 ^ 47 - 1 : Nat) (max (-(2 ^ 47 : Nat)) s)
    some (c, x.flags ||| flagIf (x.bad || (decide (0 < x.pos) && decide (0 < x.neg))) flagNV ||| flagIf wide flagOF)

def CellSum.zero : CellSum := { sum := 0, pos := 0, neg := 0, bad := false, flags := 0 }

/-- R221, R223: the exact product of element k with its scale. -/
def scaledProduct (fmt : Nat) (scales : Option (List (BitVec 16))) (a b : Row) (k : Nat) : Val :=
  let v := mulVal (decodeFloat fmt (elemAt fmt a k)) (decodeFloat fmt (elemAt fmt b k))
  match scales with
  | none => v
  | some l => mulVal v (decodeFloat 2 (l.getD (k / 128) 0).toNat)

/-- R223: the contribution of one cell: elements P * i to P * i + P - 1 below KDEP. -/
def cellContrib (fmt : Nat) (p : Plane) (scales : Option (List (BitVec 16))) (g : Int) (a b : Row) (i : Nat) : Option (Int × Flags) :=
  let n := cellProducts fmt
  let ks := ((List.range n).map (fun j => n * i + j)).filter (fun k => decide (k < p.kdep))
  (ks.foldl (fun x k => x.add g (scaledProduct fmt scales a b k)) CellSum.zero).finish (p.amode / 2 % 2 == 1)

/-- The sum of the contributions of n cells, none when one is wide. -/
def cellsSum (n : Nat) (f : Nat → Option (Int × Flags)) : Option (Int × Flags) :=
  match n with
  | 0 => some (0, 0)
  | n + 1 =>
    match cellsSum n f, f n with
    | some x, some y => some (x.1 + y.1, x.2 ||| y.2)
    | _, _ => none

/-- The step's sum of an element: on the integer path exact, on the floating path the sum of its cells. -/
def stepContrib (fmt : Nat) (p : Plane) (scales : Option (List (BitVec 16))) (g : Int) (a b : Row) : Option (Int × Flags) :=
  if isFloat fmt then cellsSum ((p.kdep + cellProducts fmt - 1) / cellProducts fmt) (cellContrib fmt p scales g a b)
  else some (intContrib fmt p a b, 0)

/-- R220, R224: an element's word and its row's CK take a contribution. -/
def addContrib (a : Acc) (r c : Nat) (x : Int) : Acc :=
  if a.integer then
    let w := toResidue x
    { putAccWord a r c (residueAdd (accWord a r c) w) with
      ck := sput 0 a.ck r ((residueAdd ((tget 0 a.ck r).setWidth 64) w).setWidth 40) }
  else
    { putAccWord a r c (accWord a r c + BitVec.ofInt 64 x) with
      ck := sput 0 a.ck r (BitVec.ofNat 40 (((tget 0 a.ck r).toNat + (x % (2 ^ 32 : Nat)).toNat) % 2 ^ 32)) }

/-- Contributions to the columns of a row from column c on. -/
def addRow (a : Acc) (r : Nat) (f : Nat → Option (Int × Flags)) (fl : Flags) (js : List (Nat × Nat)) : Except ArrayFail (Acc × Flags) :=
  match js with
  | [] => .ok (a, fl)
  | (j, c) :: rest =>
    match f j with
    | none => .error { cause := 0x39, detail := 0, row := r, col := c }
    | some x => addRow (addContrib a r c x.1) r f (fl ||| x.2) rest

/-- The step over window rows: contributions to each, then its headroom. -/
def addRows (a : Acc) (f : Nat → Nat → Option (Int × Flags)) (cost : Nat) (p : Plane) (fl : Flags) (rows : List Nat) :
    Except ArrayFail (Acc × Flags) :=
  match rows with
  | [] => .ok (a, fl)
  | r :: rest =>
    match addRow a r (f r) fl ((List.range p.ncols).map (fun j => (j, p.col0 + j))) with
    | .error e => .error e
    | .ok (b, fl1) => addRows { b with hg := vput b.hg r (accHead b r - cost) } f cost p fl1 rest

/-- R222, R223: the first window row without headroom for a cost. -/
def noHeadroom (a : Acc) (cost : Nat) (rows : List Nat) : Option ArrayFail :=
  (rows.find? (fun r => if a.integer then decide (accHead a r ≤ cost) else decide (accHead a r = 0))).map
    (fun r => { cause := 0x38, detail := 0, row := r, col := 0 })

/-- R220: MM. -/
def runMm (x : ArrayState) (k : Nat) (tile : List Row) (p : Plane) (fmt : Nat) (scales : Option (List (BitVec 16))) :
    Except ArrayFail (ArrayState × Flags) :=
  let a := accAt x k
  let plane := x.active
  let sameFormat := if isFloat fmt then plane.fmt == fmt else fmtWidth plane.fmt == fmtWidth fmt
  let shape := firstShape [(decide (64 < p.row0 + p.mrows), 1), (decide (128 < p.col0 + p.ncols), 2), (decide (depthLimit fmt < p.kdep), 3),
    (!sameFormat, 4), (a.integer == isFloat fmt, 5)]
  let cost := if a.integer then stepCost fmt p.sgn else 1
  match shape, noHeadroom a cost (windowRows p) with
  | some e, _ => .error e
  | none, some e => .error e
  | none, none =>
    let f := fun (r j : Nat) => stepContrib fmt p scales (accExp a r).toInt (tile.getD r 0) (tget 0 plane.rows j)
    match addRows a f cost p 0 (windowRows p) with
    | .error e => .error e
    | .ok (b, fl) => .ok (putAcc x k b, fl)

/-- R225: s_a > s_b, and s_a = s_b, of codes of a format. -/
def scoreGt (fmt a b : Nat) : Bool :=
  if isFloat fmt then
    let x := decodeFloat fmt a
    let y := decodeFloat fmt b
    if isNan x then false else if isNan y then true else ltVal y x
  else decide (decodeInt fmt b < decodeInt fmt a)

def scoreEq (fmt a b : Nat) : Bool :=
  if isFloat fmt then
    let x := decodeFloat fmt a
    let y := decodeFloat fmt b
    (isNan x && isNan y) || eqVal x y
  else decodeInt fmt a == decodeInt fmt b

/-- R225: the rank of element j among the first n of a row. -/
def rankOf (fmt n : Nat) (r : Row) (j : Nat) : Nat :=
  let sj := elemAt fmt r j
  ((List.range n).filter (fun k =>
    scoreGt fmt (elemAt fmt r k) sj || (scoreEq fmt (elemAt fmt r k) sj && decide (k < j)))).length

/-- R225: MMCMP. -/
def runMmcmp (x : ArrayState) (k : Nat) (tile : List Row) (p : Plane) (fmt : Nat) : Except ArrayFail (ArrayState × Flags) :=
  let a := accAt x k
  let shape := firstShape [(decide (64 < p.row0 + p.mrows), 1), (decide (128 < p.col0 + p.ncols), 2), (decide (128 < p.kdep), 3),
    (!a.integer, 5), (decide (p.kdep < p.ncols), 8)]
  match shape, noHeadroom a 1 (windowRows p) with
  | some e, _ => .error e
  | none, some e => .error e
  | none, none =>
    let f := fun (r j : Nat) => some ((rankOf fmt p.kdep (tile.getD r 0) j : Int), (0 : Flags))
    match addRows a f 1 p 0 (windowRows p) with
    | .error e => .error e
    | .ok (b, fl) => .ok (putAcc x k b, fl)

/-! Accumulator instructions (R226-R231). -/

/-- A sparse list of 64 entries of one value. -/
def constRows {α : Type} [DecidableEq α] (d v : α) : Sparse α := if v = d then [] else (List.range 64).map (fun r => (r, v))

/-- R226: ACCZERO. -/
def zeroAcc (integer : Bool) (e : BitVec 16) : Acc :=
  { integer := integer, words := [], ck := [], e := constRows 0 e, hg := Vector.replicate 64 (if integer then 65536 else 512) }

/-- R227: the value that ACCLD enters for a code; none when it is wide. -/
def loadValue (a : Acc) (p : Plane) (fmt r code : Nat) : Option (BitVec 64 × Flags) :=
  if fmt = 8 then some (toResidue (decodeInt 8 code), 0)
  else ((CellSum.zero.add (accExp a r).toInt (decodeFloat 0 code)).finish (p.amode / 2 % 2 == 1)).map
    (fun x => (BitVec.ofInt 64 x.1, x.2))

/-- R227: words of row r replaced from a tile row. -/
def accLoadRow (a : Acc) (p : Plane) (fmt r : Nat) (row : Row) (hi : Bool) (fl : Flags) (ks : List Nat) : Except ArrayFail (Acc × Flags) :=
  match ks with
  | [] => .ok (a, fl)
  | k :: rest =>
    let c := (if hi then 64 else 0) + k
    if c < p.col0 ∨ p.col0 + p.ncols ≤ c then accLoadRow a p fmt r row hi fl rest
    else
      match loadValue a p fmt r (elemAt fmt row k) with
      | none => .error { cause := 0x39, detail := 0, row := r, col := c }
      | some x => accLoadRow (putAccWord a r c x.1) p fmt r row hi (fl ||| x.2) rest

/-- R227: the rows of the window. -/
def accLoadRows (a : Acc) (p : Plane) (fmt : Nat) (tile : List Row) (hi : Bool) (fl : Flags) (rows : List Nat) :
    Except ArrayFail (Acc × Flags) :=
  match rows with
  | [] => .ok (a, fl)
  | r :: rest =>
    match accLoadRow a p fmt r (tile.getD r 0) hi fl (List.range 64) with
    | .error e => .error e
    | .ok (b, fl1) =>
      let h := if a.integer then min (accHead b r) 65024 else min (accHead b r) 511
      accLoadRows (setCheck { b with hg := vput b.hg r h } r) p fmt tile hi fl1 rest

/-- R227: ACCLD. -/
def runAccld (x : ArrayState) (k : Nat) (tile : List Row) (p : Plane) (fmt : Nat) (hi : Bool) : Except ArrayFail (ArrayState × Flags) :=
  let a := accAt x k
  let shape := firstShape [(decide (64 < p.row0 + p.mrows), 1), (decide (128 < p.col0 + p.ncols), 2), (a.integer != (fmt == 8), 5)]
  match shape, badCheck a (windowRows p) with
  | some e, _ => .error e
  | none, some e => .error e
  | none, none =>
    match accLoadRows a p fmt tile hi 0 (windowRows p) with
    | .error e => .error e
    | .ok (b, fl) => .ok (putAcc x k b, fl)

/-- R228: a word shifted by n. -/
def normWord (w : BitVec 64) (n : Nat) : BitVec 64 × Bool :=
  let m := w.toInt
  let q := roundShift 0 (decide (m < 0)) m.natAbs n
  (BitVec.ofInt 64 (if m < 0 then -(q.1 : Int) else q.1), q.2)

/-- R228: the words of a row from column c on. -/
def normWords (a : Acc) (r n : Nat) (fl : Flags) (cs : List Nat) : Acc × Flags :=
  match cs with
  | [] => (a, fl)
  | c :: rest =>
    let w := normWord (accWord a r c) n
    normWords (putAccWord a r c w.1) r n (fl ||| flagIf w.2 flagNX) rest

/-- R228: a row. -/
def normRow (a : Acc) (r n : Nat) : Acc × Flags :=
  let b := normWords a r n 0 (List.range 128)
  let big := (List.range 128).foldl (fun m c => max m (accWord b.1 r c).toInt.natAbs) 0
  let g := min 512 ((2 ^ 63 - big) / 2 ^ 54)
  (setCheck { b.1 with e := sput 0 b.1.e r (accExp a r + BitVec.ofNat 16 n), hg := vput b.1.hg r g } r, b.2)

/-- R228: ACCNORM; CK is compared before the exponents (log 104). -/
def runAccnorm (x : ArrayState) (k n : Nat) (p : Plane) : Except ArrayFail (ArrayState × Flags) :=
  let a := accAt x k
  let rows := windowRows p
  match firstShape [(decide (64 < p.row0 + p.mrows), 1), (a.integer, 5)], badCheck a rows,
      rows.find? (fun r => decide (32767 < (accExp a r).toInt + n)) with
  | some e, _, _ => .error e
  | none, some e, _ => .error e
  | none, none, some r => .error { cause := 0x3B, detail := 7, row := r, col := 0 }
  | none, none, none =>
    let y := rows.foldl (fun (z : Acc × Flags) r =>
      let w := normRow z.1 r n
      (w.1, z.2 ||| w.2)) (a, 0)
    .ok (putAcc x k y.1, y.2)

/-- R230, R231: an integer into INT32: saturated with OF, or wrapped. -/
def toInt32 (sat : Bool) (n : Int) : Int × Flags :=
  if sat then
    let y := satInt 8 n
    (decodeInt 8 y.1, y.2)
  else (decodeInt 8 (encodeInt 8 n), 0)

/-- R230: the words of a row from column c on. -/
def foldWords (a : Acc) (r : Nat) (sat : Bool) (fl : Flags) (cs : List Nat) : Acc × Flags :=
  match cs with
  | [] => (a, fl)
  | c :: rest =>
    let y := toInt32 sat (fromResidue (accWord a r c))
    foldWords (putAccWord a r c (toResidue y.1)) r sat (fl ||| y.2) rest

/-- R230: FOLD. -/
def runFold (x : ArrayState) (k : Nat) (p : Plane) : Except ArrayFail (ArrayState × Flags) :=
  let a := accAt x k
  let rows := windowRows p
  match firstShape [(decide (64 < p.row0 + p.mrows), 1), (!a.integer, 5)], badCheck a rows with
  | some e, _ => .error e
  | none, some e => .error e
  | none, none =>
    let y := rows.foldl (fun (z : Acc × Flags) r =>
      let w := foldWords z.1 r (p.amode % 2 == 1) z.2 (List.range 128)
      (setCheck { w.1 with hg := vput w.1.hg r 65024 } r, w.2)) (a, 0)
    .ok (putAcc x k y.1, y.2)

/-- R231: the parameters of column c: the codes of MUL and BIAS, and SH. -/
structure DrainParam where
  mul : Nat
  sh : Int
  bias : Nat
deriving DecidableEq, Repr

/-- R231: without a parameter tile, MUL is 1 in the accumulator's format, SH and BIAS are 0. -/
def drainParam (integer : Bool) (params : Option (List Row)) (c : Nat) : DrainParam :=
  match params with
  | none => { mul := if integer then 1 else 0x3F800000, sh := 0, bias := 0 }
  | some l =>
    { mul := elemAt 8 (l.getD (c / 64) 0) (c % 64), sh := decodeInt 9 (elemAt 9 (l.getD 2 0) c),
      bias := elemAt 8 (l.getD (3 + c / 64) 0) (c % 64) }

/-- R231: RoundInt(mode, n * 2^(-sh)). -/
def scaleInt (mode : RMode) (n sh : Int) : Int :=
  let y := (roundMag mode (decide (n < 0)) n.natAbs (-sh)).1
  if n < 0 then -(y : Int) else y

/-- R231: the code that the word of row r, column c drains to. -/
def drainCode (a : Acc) (p : Plane) (fmt : Nat) (params : Option (List Row)) (mode : RMode) (r c : Nat) : Nat × Flags :=
  let q := drainParam a.integer params c
  if a.integer then
    let v := toInt32 (p.amode % 2 == 1) (fromResidue (accWord a r c))
    let y := scaleInt mode (v.1 * decodeInt 8 q.mul) q.sh + decodeInt 8 q.bias
    let out := if isFloat fmt then roundTo fmt mode (valOfInt y) else satInt fmt y
    (out.1, v.2 ||| out.2)
  else
    let m := (accWord a r c).toInt
    let x : Val := .fin (decide (m < 0)) m.natAbs ((accExp a r).toInt - q.sh)
    let y := fmaVal mode x (decodeFloat 0 q.mul) (decodeFloat 0 q.bias)
    if isFloat fmt then roundTo fmt mode y else roundToInt fmt mode y

/-- R92: a row with the code of element k replaced. -/
def putElem (fmt : Nat) (r : Row) (k code : Nat) : Row := rowPut r (fmtStride fmt * k) (fmtStride fmt) (BitVec.ofNat (fmtStride fmt) code)

/-- R231: the element of the tile row that column c goes to; none when the half leaves it out. -/
def drainPlace (fmt : Nat) (hi : Bool) (c : Nat) : Option Nat :=
  if fmtWidth fmt = 32 then (if (c / 64 == 1) == hi then some (c % 64) else none) else some c

/-- R231: the columns of a list drained: the elements of the tile row that they give, and their flags. -/
def drainCols (a : Acc) (p : Plane) (fmt : Nat) (params : Option (List Row)) (hi : Bool) (mode : RMode) (r : Nat) (cs : List Nat) :
    List (Nat × Nat) × Flags :=
  match cs with
  | [] => ([], 0)
  | c :: rest =>
    let z := drainCols a p fmt params hi mode r rest
    match drainPlace fmt hi c with
    | none => z
    | some k =>
      let y := drainCode a p fmt params mode r c
      ((k, y.1) :: z.1, y.2 ||| z.2)

/-- R59, R231: a tile row with drained elements; its other elements stand. -/
def putCodes (fmt : Nat) (l : List (Nat × Nat)) (row : Row) : Row := l.foldl (fun r x => putElem fmt r x.1 x.2) row

/-- R231: a drained row cleared; E keeps its value. -/
def clearRow (a : Acc) (r : Nat) : Acc :=
  { a with words := a.words.filter (fun w => decide (w.1 / 128 ≠ r)), ck := tdel a.ck r,
           hg := vput a.hg r (if a.integer then 65536 else 512) }

/-- The elements that a command writes to its tile: its rows, with the elements of each. -/
abbrev Drained := List (Nat × List (Nat × Nat))

/-- R231: ACCDRAIN. -/
def runDrain (x : ArrayState) (k : Nat) (p : Plane) (fmt : Nat) (params : Option (List Row)) (hi clr : Bool)
    (mode : RMode) : Except ArrayFail (ArrayState × Flags × Drained) :=
  let a := accAt x k
  let rows := windowRows p
  match firstShape [(decide (64 < p.row0 + p.mrows), 1), (decide (128 < p.col0 + p.ncols), 2)], badCheck a rows with
  | some e, _ => .error e
  | none, some e => .error e
  | none, none =>
    let out := rows.map (fun r => (r, drainCols a p fmt params hi mode r (windowCols p)))
    let b := if clr then rows.foldl clearRow a else a
    .ok (putAcc x k b, out.foldl (fun f o => f ||| o.2.2) 0, out.map (fun o => (o.1, o.2.1)))

/-- R212-R231: the effect of a command on the array's state, its flags, and the elements of its tile that it writes; `fetched` are the pair rows
that a fetch has read. -/
def runArray (x : ArrayState) (fetched : List Row) (c : ArrayCmd) :
    Except ArrayFail (ArrayState × Flags × Drained) :=
  let plain := fun (r : Except ArrayFail (ArrayState × Flags)) =>
    match r with
    | .error e => (Except.error e : Except ArrayFail (ArrayState × Flags × Drained))
    | .ok (y, fl) => .ok (y, fl, [])
  match c with
  | .mm k t p fmt sc => plain (runMm x k t p fmt sc)
  | .mmcmp k t p fmt => plain (runMmcmp x k t p fmt)
  | .mstat rows p fmt => plain ((loadPlane x rows p fmt).map (fun y => (y, 0)))
  | .mstatFetch _ _ p fmt => plain ((loadPlane x fetched p fmt).map (fun y => (y, 0)))
  | .mswap => .ok ({ x with active := x.shadow, shadow := x.active }, 0, [])
  | .lease => .ok (x, 0, [])
  | .lrel => .ok (x, 0, [])
  | .acczeroFp k e => .ok (putAcc x k (zeroAcc false e), 0, [])
  | .acczeroInt k => .ok (putAcc x k (zeroAcc true 0), 0, [])
  | .accld k t p fmt hi => plain (runAccld x k t p fmt hi)
  | .accnorm k n p => plain (runAccnorm x k n p)
  | .accchk k =>
    (match badCheck (accAt x k) (List.range 64) with
      | some e => .error e
      | none => .ok (x, 0, []))
  | .accdrain k _ p fmt params hi clr mode => runDrain x k p fmt params hi clr mode
  | .fold k p => plain (runFold x k p)

/-- R232: the opcode of a command, and the accumulator that it names. -/
def arrayOpcode (c : ArrayCmd) : Nat × Nat :=
  match c with
  | .mm k _ _ _ _ => (0x01, k)
  | .mmcmp k _ _ _ => (0x02, k)
  | .mstat _ _ _ => (0x03, 0)
  | .mstatFetch _ _ _ _ => (0x03, 0)
  | .mswap => (0x04, 0)
  | .lease => (0x05, 0)
  | .lrel => (0x06, 0)
  | .acczeroFp k _ => (0x08, k)
  | .acczeroInt k => (0x08, k)
  | .accld k _ _ _ _ => (0x09, k)
  | .accnorm k _ _ => (0x0A, k)
  | .accchk k => (0x0B, k)
  | .accdrain k _ _ _ _ _ _ _ => (0x0C, k)
  | .fold k _ => (0x0D, k)

/-- R232: the status word of a failure. -/
def arrayStatus (c : ArrayCmd) (e : ArrayFail) : BitVec 64 :=
  let o := arrayOpcode c
  BitVec.ofNat 64 (o.1 * 2 ^ 32 + e.detail * 2 ^ 24 + e.row * 2 ^ 16 + e.col * 2 ^ 8 + o.2)

/-! The image of the array's state (R304), 602,112 bytes. -/

/-- R210: the status word of row r. -/
def accStatus (a : Acc) (r : Nat) : Nat :=
  (tget 0 a.ck r).toNat * 2 ^ 88 + (accExp a r).toNat * 2 ^ 72 + accHead a r * 2 ^ 48 + (if a.integer then 1 else 0)

/-- R304: the array block of a state. -/
def arrayImage (x : ArrayState) : List Byte :=
  let plane := fun (p : PlaneRows) => (List.range 128).flatMap (fun n => bytesOfRow (tget 0 p.rows n))
  plane x.active ++ plane x.shadow ++ leBytes 1 x.active.fmt ++ leBytes 1 x.shadow.fmt ++ leBytes 4094 0
    ++ (List.range 8).flatMap (fun n => (List.range 8192).flatMap (fun k => leBytes 8 (accWord (accAt x n) (k / 128) (k % 128)).toNat))
    ++ (List.range 8).flatMap (fun n => (List.range 64).flatMap (fun r => leBytes 16 (accStatus (accAt x n) r)))

/-- The sparse map of a list's values, by their places. -/
def sparseOf {α : Type} [DecidableEq α] (d : α) (l : List α) : Sparse α :=
  (l.zip (List.range l.length)).filterMap (fun x => if x.1 = d then none else some (x.2, x.1))

/-- k pieces of n elements. -/
def chunks {α : Type} (n k : Nat) (l : List α) : List (List α) :=
  match k with
  | 0 => []
  | k + 1 => l.take n :: chunks n k (l.drop n)

/-- R210: the rows of an accumulator's status words. -/
def statusOf (x : Nat) : BitVec 40 × BitVec 16 × Nat := (BitVec.ofNat 40 (x / 2 ^ 88), BitVec.ofNat 16 (x / 2 ^ 72), x / 2 ^ 48 % 2 ^ 24)

/-- R108: a word of an accumulator as the device stores it: an integer one's residues reduced. -/
def canonicalWord (integer : Bool) (w : BitVec 64) : BitVec 64 := if integer then residueAdd w 0 else w

/-- R304: the state of an array block. -/
def arrayOfImage (l : List Byte) : ArrayState :=
  let plane := fun (o : Nat) => sparseOf (0 : Row) ((chunks 256 128 (l.drop o)).map rowOfBytes)
  let acc := fun (n : Nat) =>
    let st := (chunks 16 64 (l.drop (0x91000 + 0x400 * n))).map natOfBytes
    let integer := st.headD 0 % 2 == 1
    ({ integer := integer,
       words := sparseOf 0 ((chunks 8 8192 (l.drop (0x11000 + 0x10000 * n))).map (fun b => canonicalWord integer (BitVec.ofNat 64 (natOfBytes b)))),
       ck := sparseOf 0 (st.map (fun x => (canonicalWord integer ((statusOf x).1.setWidth 64)).setWidth 40)), e := sparseOf 0 (st.map (fun x => (statusOf x).2.1)),
       hg := Vector.ofFn (fun (r : Fin 64) => (statusOf (st.getD r.val 0)).2.2) } : Acc)
  let fmt := (l.drop 0x10000).take 2
  { active := { rows := plane 0, fmt := (fmt.headD 0).toNat % 16 }, shadow := { rows := plane 0x8000, fmt := (fmt.getD 1 0).toNat % 16 },
    accs := Vector.ofFn (fun (n : Fin 8) => acc n.val) }

end Sys2Proof.Machine
end

