-- ==== Sys2Proof/Machine/Control.lean ====
section
/-! DEFINITION. Sys2Proof/Machine/Control.lean: the C class (R81-R90, R77's predicate operations, R172, R198, R199, R283, R308-R310). -/

namespace Sys2Proof.Machine

/-- R39, R81: the address 32 * disp from the bundle's own. -/
def branchTarget (s : State) (disp : BitVec 20) : Word := bundleAddr s + 32 * disp.signExtend 32

/-- R81: a taken transfer with two delay bundles. -/
def transferTo (t : Word) (s : State) : State := atEnd (.transfer t) s

/-- R81: the link of CALL and CALLR. -/
def linkAddr (s : State) : Word := bundleAddr s + 96

def execBr (g : BitVec 4) (disp : BitVec 20) (s : State) : SlotOutcome :=
  slotStep (.br g disp) s (fun s => .ok (transferTo (branchTarget s disp) s))

def execCall (g : BitVec 4) (disp : BitVec 20) (s : State) : SlotOutcome :=
  slotStep (.call g disp) s (fun s => .ok (transferTo (branchTarget s disp) (writeScalar s 2 29 (linkAddr s) 1)))

def execJr (g : BitVec 4) (a : BitVec 6) (s : State) : SlotOutcome :=
  slotStep (.jr g a) s (fun s => .ok (transferTo (src s a) s))

def execCallr (g : BitVec 4) (a : BitVec 6) (s : State) : SlotOutcome :=
  slotStep (.callr g a) s (fun s => .ok (transferTo (src s a) (writeScalar s 2 29 (linkAddr s) 1)))

/-- R82: a loop of n iterations over the len bundles that follow; a count of zero passes over the body. -/
def loopFrom (s : State) (n : Word) (len : BitVec 12) : State :=
  let start := bundleAddr s + 32
  if n = 0 then atEnd (.loopSkip (start + 32 * len.setWidth 32)) s else atEnd (.loopPush start len n (capturedBody s start len.toNat)) s

def execLoop (g : BitVec 4) (a : BitVec 6) (len : BitVec 12) (s : State) : SlotOutcome :=
  slotStep (.loop g a len) s (fun s => .ok (loopFrom s (src s a) len))

def execLoopi (g : BitVec 4) (cnt : BitVec 12) (len : BitVec 8) (s : State) : SlotOutcome :=
  slotStep (.loopi g cnt len) s (fun s => .ok (loopFrom s (immUnsigned 12 cnt (extOf s 2)) (len.setWidth 12)))

/-- R83: the innermost level pops, and a transfer goes to the bundle after its body. -/
def execLbrk (g : BitVec 4) (s : State) : SlotOutcome :=
  slotStep (.lbrk g) s (fun s =>
    .ok (match (me s).loops.getLast? with
      | none => s
      | some l => transferTo (l.start + 32 * l.len.setWidth 32) (atEnd .loopPop s)))

def execLstg (g : BitVec 4) (lv : BitVec 3) (pm : BitVec 4) (s : State) : SlotOutcome :=
  slotStep (.lstg g lv pm) s (fun s => .ok (atEnd (.stageBind lv.toNat pm) s))

/-- R77: a predicate operation on two predicates, each negated where its bit says so. -/
def predOp (i : Instr) (pd pa pb : BitVec 3) (na nb : Bool) (f : Bool → Bool → Bool) (s : State) : SlotOutcome :=
  slotStep i s (fun s =>
    .ok (writePred s 2 pd (f (predVal (me s).preds pa != na) (predVal (me s).preds pb != nb)) 1))

def execPand (g : BitVec 4) (pd pa pb : BitVec 3) (na nb : Bool) (s : State) : SlotOutcome :=
  predOp (.pand g pd pa pb na nb) pd pa pb na nb (fun x y => x && y) s
def execPor (g : BitVec 4) (pd pa pb : BitVec 3) (na nb : Bool) (s : State) : SlotOutcome :=
  predOp (.por g pd pa pb na nb) pd pa pb na nb (fun x y => x || y) s
def execPxor (g : BitVec 4) (pd pa pb : BitVec 3) (na nb : Bool) (s : State) : SlotOutcome :=
  predOp (.pxor g pd pa pb na nb) pd pa pb na nb (fun x y => x != y) s

/-- R85: the target of a count in a bucket table. -/
def bucketTarget (b : Bucket) (n : Word) : Word :=
  match b.caps.find? (fun c => decide (n.toNat ≤ c.1.toNat)) with
  | some c => c.2
  | none => b.overflow

def execBktj (g : BitVec 4) (a : BitVec 6) (tbl : BitVec 4) (s : State) : SlotOutcome :=
  slotStep (.bktj g a tbl) s (fun s => .ok (transferTo (bucketTarget (bucketOf s tbl.toNat) (src s a)) s))

/-- R86: WAITGT has no effect but its hold. -/
def execWaitgt (g : BitVec 4) (a b : BitVec 6) (s : State) : SlotOutcome :=
  slotStep (.waitgt g a b) s (fun s => .ok (setMe s { me s with waitGt := none }))

def execSetest (g : BitVec 4) (a b : BitVec 6) (s : State) : SlotOutcome :=
  slotStep (.setest g a b) s (fun s => .ok (atEnd (.setEst (srcPair s a b)) s))
def execSetts (g : BitVec 4) (a b : BitVec 6) (s : State) : SlotOutcome :=
  slotStep (.setts g a b) s (fun s => .ok (atEnd (.setTs (srcPair s a b)) s))
def execSetrm (g : BitVec 4) (rm : BitVec 2) (s : State) : SlotOutcome :=
  slotStep (.setrm g rm) s (fun s => .ok (atEnd (.setRm rm) s))

/-- R257: LAUNCH's read of the record passes the forwarding buffers of uncached slices. -/
def passRecord (s : State) (h : Word) : State :=
  passUncached s (placesOf s (myDie s) (me s).asid false ((List.range 2816).map (fun j => (handleEntry s (me s).asid h).base + j)))

/-- R283: LAUNCH hands the record that the handle names to the issuing die's launch unit, with its start when it is timed. -/
def execLaunch (g : BitVec 4) (a : BitVec 6) (timed : Bool) (s : State) : SlotOutcome :=
  slotStep (.launch g a timed) s (fun s =>
    afterCheck (checkLaunch s (src s a)) 2
      (launchTask (passRecord s (src s a)) (myDie s) (me s).asid (launchBytes s (src s a)) (if timed then (me s).ts else 0) none))

/-- R310: BAR arrives, and the next bundle is held until the phase completes. -/
def execBar (g : BitVec 4) (sc id : BitVec 3) (rl aq : Bool) (s : State) : SlotOutcome :=
  slotStep (.bar g sc id rl aq) s (fun s =>
    .ok (atEnd (.barrierWait (barrierOf s s.cur sc.toNat id.toNat) (bundleAddr s)) (arrive s s.cur sc.toNat id.toNat)))

/-- R310: BARARV arrives. -/
def execBararv (g : BitVec 4) (sc id : BitVec 3) (rl : Bool) (s : State) : SlotOutcome :=
  slotStep (.bararv g sc id rl) s (fun s => .ok (arrive s s.cur sc.toNat id.toNat))

/-- R310: BARWT, after its hold, clears ARR. -/
def execBarwt (g : BitVec 4) (sc id : BitVec 3) (aq : Bool) (s : State) : SlotOutcome :=
  slotStep (.barwt g sc id aq) s (fun s => .ok (clearArm s s.cur sc.toNat id.toNat))

/-- R172: FENCE stands between the operations issued before it and those issued after. -/
def execFence (g : BitVec 4) (sc : BitVec 3) (mask : BitVec 16) (s : State) : SlotOutcome :=
  slotStep (.fence g sc mask) s (fun s =>
    let sq := me s
    .ok (setMe s { sq with fences := sq.fences ++ [{ at_ := s.nextOp, scope := sc, mask := mask }] }))

/-- R88: TRAP, at the end of its tick. -/
def execTrap (g : BitVec 4) (code : BitVec 8) (s : State) : SlotOutcome :=
  slotStep (.trap g code) s (fun s => .ok (atEnd (.trapTo code) s))

/-- R89: ERET, to the position that CEPC and CEDLY name at its issue. -/
def execEret (g : BitVec 4) (s : State) : SlotOutcome :=
  slotStep (.eret g) s (fun s => .ok (atEnd (.trapReturn (me s).epc (me s).edly) s))

/-- R90: EXIT: in a bundle at the end of its tick, with the bundle's other slots. -/
def execExit (g : BitVec 4) (s : State) : SlotOutcome :=
  slotStep (.exit g) s (fun s =>
    .ok (match (me s).issue with
      | none => endStrand s s.cur
      | some _ => atEnd .strandEnd s))

/-- R198: CONTAIN pushes a region, to which the bundle's other slots belong. -/
def execContain (g : BitVec 4) (disp : BitVec 20) (s : State) : SlotOutcome :=
  slotStep (.contain g disp) s (fun s =>
    let sq := me s
    let r : Region :=
      { handler := branchTarget s disp, tick := sq.ticks, regs := sq.regs, preds := sq.preds, loops := sq.loops, stage := sq.stage,
        opened := [], retired := [], mapped30 := sq.map30.isSome, mapped31 := sq.map31.isSome }
    .ok (setMe s { sq with regions := r :: sq.regions }))

/-- R199, R201: the innermost region is popped; what was opened and retired in it was so inside the next one. -/
def popRegion (l : List Region) : List Region :=
  match l with
  | [] => []
  | [_] => []
  | r :: o :: rest => { o with opened := o.opened ++ r.opened, retired := o.retired ++ r.retired } :: rest

/-- R199: CONTAINEND, after its hold, pops the innermost region. The M and E slots of its own bundle are outside the region that it closes
(log 27). -/
def execContainend (g : BitVec 4) (s : State) : SlotOutcome :=
  slotStep (.containend g) s (fun s =>
    let sq := me s
    .ok (setMe s { sq with regions := popRegion sq.regions }))

end Sys2Proof.Machine
end

