-- ==== Sys2Proof/Machine/Kslot.lean ====
section
/-! DEFINITION. Sys2Proof/Machine/Kslot.lean: the K class (R23, R25, R119, R121, R122, R159). -/

namespace Sys2Proof.Machine

/-- R119: SHPSET writes a field of the shadow plane. -/
def execShpset (g : BitVec 4) (sg : BitVec 2) (fld : BitVec 4) (imm : BitVec 14) (s : State) : SlotOutcome :=
  slotStep (.shpset g sg fld imm) s (fun s =>
    .ok (enqueue s 7 (.shapeField sg fld) ((immUnsigned 14 imm (extOf s 7)).setWidth 64) 0 1 0))

/-- R119: SHPCPY copies the active plane, as it stands after the swap of its tick, into the shadow plane. -/
def execShpcpy (g : BitVec 4) (sg : BitVec 2) (s : State) : SlotOutcome :=
  slotStep (.shpcpy g sg) s (fun s => .ok (enqueue s 7 (.shapePlane sg) 0 0 1 (planeRow (shapeAt (me s) sg.toNat).active)))

/-- R121: the bytes of scales 0 to n from a scratchpad address on. -/
def scaleRow (c : CoreState) (a n : Nat) : Row :=
  rowOfBytes ((List.range (2 * (n + 1))).map (fun j => spad8 c (a + j)))

/-- R121: QLD reads the scales at issue. -/
def execQld (g : BitVec 4) (q : BitVec 3) (a n : BitVec 6) (s : State) : SlotOutcome :=
  slotStep (.qld g q a n) s (fun s => .ok (enqueue s 7 (.scales q n) 0 0 4 (scaleRow (myCore s) (src s a).toNat n.toNat)))

/-- R121: QSET. -/
def execQset (g : BitVec 4) (q : BitVec 3) (a n : BitVec 6) (s : State) : SlotOutcome :=
  slotStep (.qset g q a n) s (fun s => .ok (enqueue s 7 (.scale q n) (((src s a).setWidth 16).setWidth 64) 0 1 0))

/-- R121: QZERO. -/
def execQzero (g : BitVec 4) (q : BitVec 3) (s : State) : SlotOutcome :=
  slotStep (.qzero g q) s (fun s => .ok (enqueue s 7 (.scalesZero q) 0 0 1 0))

/-- R159: VFSET. -/
def execVfset (g v fld : BitVec 4) (a : BitVec 6) (s : State) : SlotOutcome :=
  slotStep (.vfset g v fld a) s (fun s => .ok (enqueue s 7 (.viewField v fld) ((src s a).setWidth 64) 0 1 0))

/-- R159: VFSETI. -/
def execVfseti (g v fld : BitVec 4) (imm : BitVec 12) (s : State) : SlotOutcome :=
  slotStep (.vfseti g v fld imm) s (fun s => .ok (enqueue s 7 (.viewField v fld) ((immSigned 12 imm (extOf s 7)).setWidth 64) 0 1 0))

/-- R122: BNDSET lands the bounds and the enable. -/
def execBndset (g v : BitVec 4) (a b : BitVec 6) (s : State) : SlotOutcome :=
  slotStep (.bndset g v a b) s (fun s =>
    .ok (enqueue s 7 (.bounds v) ((src s b).setWidth 64 <<< 32 ||| (src s a).setWidth 64) 0 1 0))

/-- R122: BNDOFF lands the enable's clearing. -/
def execBndoff (g v : BitVec 4) (s : State) : SlotOutcome :=
  slotStep (.bndoff g v) s (fun s => .ok (enqueue s 7 (.boundOff v) 0 0 1 0))

/-- R23, R133: VROW gives its bundle's V slot its rows; its pops are its only effect of its own, and none with a false guard of the V slot. -/
def execVrow (sl : Bool) (rd ra rb : BitVec 6) (s : State) : SlotOutcome := slotStep (.vrow sl rd ra rb) s (fun s => .ok s)

/-- R25: XIMM gives another slot of its bundle bits of an immediate; on its own it has no effect. -/
def execXimm (tgt : BitVec 3) (e : BitVec 20) (s : State) : SlotOutcome := slotStep (.ximm tgt e) s (fun s => .ok s)

end Sys2Proof.Machine
end

