-- ==== Sys2Proof/Machine/Vector.lean ====
section
/-! DEFINITION. Sys2Proof/Machine/Vector.lean: the V class (R129-R150). Rows are read at issue; the result is one whole row, which lands
after the ticks of R55 with the union of the elements' flags. -/

namespace Sys2Proof.Machine

/-- The slot number of the V slot of a lane (R13). -/
def vSlot (l : Bool) : Nat := if l then 4 else 3

/-- A row of a tile of the running stream's core. -/
def myRow (s : State) (t : BitVec 4) (r : Nat) : Row := tileRow (myCore s) t.toNat r

/-- R129: a row operation: the result from the destination's old row and the source rows, which the row selector picks; `ra` is the row
number of the first source. -/
def rowOp (i : Instr) (l : Bool) (td ta tb rs : BitVec 4) (k : Nat)
    (f : State → (old a b : Row) → (ra : Nat) → Row × Flags) (s : State) : SlotOutcome :=
  slotStep i s (fun s =>
    let r := vRows s rs
    .ok (writeRow s (vSlot l) td r.1 (f s (myRow s td r.1) (myRow s ta r.2.1) (myRow s tb r.2.2) r.2.1) k))

/-- The rounding mode of the running stream (R22). -/
def myMode (s : State) : RMode := (me s).rmode

/-- R132: an element-wise operation of two floating or integer elements. -/
def elem2 (f : Nat) (fl : Val → Val → Nat × Flags) (it : Int → Int → Int) (ca cb : Nat) : Nat × Flags :=
  if isFloat f then fl (decodeFloat f ca) (decodeFloat f cb) else satInt f (it (decodeInt f ca) (decodeInt f cb))

/-- R132, R134: the sum, difference and product of two elements, and a * b + c. -/
def elemAdd (f : Nat) (m : RMode) : Nat → Nat → Nat × Flags := elem2 f (fun x y => roundTo f m (addVal m x y)) (fun x y => x + y)
def elemSub (f : Nat) (m : RMode) : Nat → Nat → Nat × Flags := elem2 f (fun x y => roundTo f m (addVal m x (negVal y))) (fun x y => x - y)
def elemMul (f : Nat) (m : RMode) : Nat → Nat → Nat × Flags := elem2 f (fun x y => roundTo f m (mulVal x y)) (fun x y => x * y)
def elemFma (f : Nat) (m : RMode) (ca cb cc : Nat) : Nat × Flags :=
  if isFloat f then roundTo f m (fmaVal m (decodeFloat f ca) (decodeFloat f cb) (decodeFloat f cc))
  else satInt f (decodeInt f ca * decodeInt f cb + decodeInt f cc)

/-- R134: the lesser (wantMax false) or greater of two elements. -/
def elemPick (f : Nat) (wantMax : Bool) (ca cb : Nat) : Nat × Flags := if isFloat f then pickFloat f wantMax ca cb else pickInt f wantMax ca cb

/-- R129: a row from the elements of two rows. -/
def map2 (f : Nat) (op : Nat → Nat → Nat × Flags) (a b : Row) : Row × Flags :=
  rowOfFlags f (fun k => op (elemAt f a k) (elemAt f b k))

/-- R129: a row from the elements of one row. -/
def map1 (f : Nat) (op : Nat → Nat × Flags) (a : Row) : Row × Flags := rowOfFlags f (fun k => op (elemAt f a k))

def execVadd (l : Bool) (g fmt td ta tb rs : BitVec 4) (s : State) : SlotOutcome :=
  rowOp (.vadd l g fmt td ta tb rs) l td ta tb rs 2 (fun s _ a b _ => map2 fmt.toNat (elemAdd fmt.toNat (myMode s)) a b) s
def execVsub (l : Bool) (g fmt td ta tb rs : BitVec 4) (s : State) : SlotOutcome :=
  rowOp (.vsub l g fmt td ta tb rs) l td ta tb rs 2 (fun s _ a b _ => map2 fmt.toNat (elemSub fmt.toNat (myMode s)) a b) s
def execVmul (l : Bool) (g fmt td ta tb rs : BitVec 4) (s : State) : SlotOutcome :=
  rowOp (.vmul l g fmt td ta tb rs) l td ta tb rs 4 (fun s _ a b _ => map2 fmt.toNat (elemMul fmt.toNat (myMode s)) a b) s
def execVfma (l : Bool) (g fmt td ta tb rs : BitVec 4) (s : State) : SlotOutcome :=
  rowOp (.vfma l g fmt td ta tb rs) l td ta tb rs 4 (fun s old a b _ =>
    rowOfFlags fmt.toNat (fun k =>
      elemFma fmt.toNat (myMode s) (elemAt fmt.toNat a k) (elemAt fmt.toNat b k) (elemAt fmt.toNat old k))) s
def execVmin (l : Bool) (g fmt td ta tb rs : BitVec 4) (s : State) : SlotOutcome :=
  rowOp (.vmin l g fmt td ta tb rs) l td ta tb rs 2 (fun _ _ a b _ => map2 fmt.toNat (elemPick fmt.toNat false) a b) s
def execVmax (l : Bool) (g fmt td ta tb rs : BitVec 4) (s : State) : SlotOutcome :=
  rowOp (.vmax l g fmt td ta tb rs) l td ta tb rs 2 (fun _ _ a b _ => map2 fmt.toNat (elemPick fmt.toNat true) a b) s

/-- R135: VABS and VNEG of a code: a floating format's sign bit alone, an integer clamped. -/
def elemAbs (f c : Nat) : Nat × Flags :=
  if isFloat f then (c % 2 ^ (fmtWidth f - 1), 0) else satInt f ((decodeInt f c).natAbs : Int)
def elemNeg (f c : Nat) : Nat × Flags :=
  if isFloat f then ((c + 2 ^ (fmtWidth f - 1)) % 2 ^ fmtWidth f, 0) else satInt f (-(decodeInt f c))

def execVabs (l : Bool) (g fmt td ta rs : BitVec 4) (s : State) : SlotOutcome :=
  rowOp (.vabs l g fmt td ta rs) l td ta ta rs 2 (fun _ _ a _ _ => map1 fmt.toNat (elemAbs fmt.toNat) a) s
def execVneg (l : Bool) (g fmt td ta rs : BitVec 4) (s : State) : SlotOutcome :=
  rowOp (.vneg l g fmt td ta rs) l td ta ta rs 2 (fun _ _ a _ _ => map1 fmt.toNat (elemNeg fmt.toNat) a) s
def execVmov (l : Bool) (g fmt td ta rs : BitVec 4) (s : State) : SlotOutcome :=
  rowOp (.vmov l g fmt td ta rs) l td ta ta rs 2 (fun _ _ a _ _ => (rowOf fmt.toNat (elemAt fmt.toNat a), 0)) s

/-- R136: a bitwise or shift operation of the codes of two rows; no flag. -/
def codes2 (f : Nat) (op : Nat → Nat → Nat) (a b : Row) : Row × Flags := (rowOf f (fun k => op (elemAt f a k) (elemAt f b k)), 0)

/-- R136: the shifts of a code of w bits by a count n. -/
def codeShl (w c n : Nat) : Nat := if n < w then c * 2 ^ n % 2 ^ w else 0
def codeShr (w c n : Nat) : Nat := if n < w then c / 2 ^ n else 0
def codeSra (w c n : Nat) : Nat :=
  let fill := fun (k : Nat) => if c / 2 ^ (w - 1) = 1 then 2 ^ w - 2 ^ (w - k) else 0
  if n < w then c / 2 ^ n + fill n else fill w

def execVand (l : Bool) (g fmt td ta tb rs : BitVec 4) (s : State) : SlotOutcome :=
  rowOp (.vand l g fmt td ta tb rs) l td ta tb rs 2 (fun _ _ a b _ => codes2 fmt.toNat (fun x y => x &&& y) a b) s
def execVor (l : Bool) (g fmt td ta tb rs : BitVec 4) (s : State) : SlotOutcome :=
  rowOp (.vor l g fmt td ta tb rs) l td ta tb rs 2 (fun _ _ a b _ => codes2 fmt.toNat (fun x y => x ||| y) a b) s
def execVxor (l : Bool) (g fmt td ta tb rs : BitVec 4) (s : State) : SlotOutcome :=
  rowOp (.vxor l g fmt td ta tb rs) l td ta tb rs 2 (fun _ _ a b _ => codes2 fmt.toNat (fun x y => x ^^^ y) a b) s
def execVshl (l : Bool) (g fmt td ta tb rs : BitVec 4) (s : State) : SlotOutcome :=
  rowOp (.vshl l g fmt td ta tb rs) l td ta tb rs 2 (fun _ _ a b _ => codes2 fmt.toNat (codeShl (fmtWidth fmt.toNat)) a b) s
def execVshr (l : Bool) (g fmt td ta tb rs : BitVec 4) (s : State) : SlotOutcome :=
  rowOp (.vshr l g fmt td ta tb rs) l td ta tb rs 2 (fun _ _ a b _ => codes2 fmt.toNat (codeShr (fmtWidth fmt.toNat)) a b) s
def execVsra (l : Bool) (g fmt td ta tb rs : BitVec 4) (s : State) : SlotOutcome :=
  rowOp (.vsra l g fmt td ta tb rs) l td ta tb rs 2 (fun _ _ a b _ => codes2 fmt.toNat (codeSra (fmtWidth fmt.toNat)) a b) s

/-- R137: the mask code of a condition. -/
def maskCode (f : Nat) (b : Bool) : Nat := if b then 2 ^ fmtWidth f - 1 else 0

/-- R137: a compare of two elements; NV for a signalling NaN, or for any NaN where `anyNan`. -/
def elemCmp (f : Nat) (anyNan : Bool) (fl : Val → Val → Bool) (it : Int → Int → Bool) (ca cb : Nat) : Nat × Flags :=
  if isFloat f then
    let a := decodeFloat f ca
    let b := decodeFloat f cb
    if isNan a || isNan b then (0, flagIf (anyNan || isSig a || isSig b) flagNV) else (maskCode f (fl a b), 0)
  else (maskCode f (it (decodeInt f ca) (decodeInt f cb)), 0)

def execVcmpeq (l : Bool) (g fmt td ta tb rs : BitVec 4) (s : State) : SlotOutcome :=
  rowOp (.vcmpeq l g fmt td ta tb rs) l td ta tb rs 2 (fun _ _ a b _ =>
    map2 fmt.toNat (elemCmp fmt.toNat false eqVal (fun x y => decide (x = y))) a b) s
def execVcmplt (l : Bool) (g fmt td ta tb rs : BitVec 4) (s : State) : SlotOutcome :=
  rowOp (.vcmplt l g fmt td ta tb rs) l td ta tb rs 2 (fun _ _ a b _ =>
    map2 fmt.toNat (elemCmp fmt.toNat true ltVal (fun x y => decide (x < y))) a b) s
def execVcmple (l : Bool) (g fmt td ta tb rs : BitVec 4) (s : State) : SlotOutcome :=
  rowOp (.vcmple l g fmt td ta tb rs) l td ta tb rs 2 (fun _ _ a b _ =>
    map2 fmt.toNat (elemCmp fmt.toNat true (fun x y => ltVal x y || eqVal x y) (fun x y => decide (x ≤ y))) a b) s

/-- R138: VSEL: the mask is the old destination row. -/
def execVsel (l : Bool) (g fmt td ta tb rs : BitVec 4) (s : State) : SlotOutcome :=
  rowOp (.vsel l g fmt td ta tb rs) l td ta tb rs 2 (fun _ old a b _ =>
    (rowOf fmt.toNat (fun k => if elemAt fmt.toNat old k ≠ 0 then elemAt fmt.toNat a k else elemAt fmt.toNat b k), 0)) s

/-- R139: VCVT: the low elements of the source row; the rest of the result is the zero code. -/
def execVcvt (l : Bool) (g fmt td ta fsrc rs : BitVec 4) (s : State) : SlotOutcome :=
  rowOp (.vcvt l g fmt td ta fsrc rs) l td ta ta rs 3 (fun s _ a _ _ =>
    rowOfFlags fmt.toNat (fun k =>
      if k < fmtCount fsrc.toNat then convert fsrc.toNat fmt.toNat (myMode s) (elemAt fsrc.toNat a k) else (0, 0))) s

/-- R107, R140: an element times its block scale, rounded once. -/
def elemScale (f : Nat) (m : RMode) (c sc : Nat) : Nat × Flags := roundTo f m (mulVal (decodeFloat f c) (decodeFloat 2 sc))

/-- R140: VSCL. -/
def execVscl (l : Bool) (g fmt td ta : BitVec 4) (q : BitVec 3) (rs : BitVec 4) (s : State) : SlotOutcome :=
  rowOp (.vscl l g fmt td ta q rs) l td ta ta rs 4 (fun s _ a _ ra =>
    rowOfFlags fmt.toNat (fun k =>
      let j := (ra * fmtCount fmt.toNat + k) / 128 % 64
      elemScale fmt.toNat (myMode s) (elemAt fmt.toNat a k) (vget 0 (scaleAt (me s) q.toNat) j).toNat)) s

/-- R141: a bound brought into a format: an FP32 code rounded in a mode, or an INT32 clamped without a flag. -/
def boundCode (f : Nat) (m : RMode) (b : Word) : Nat × Flags :=
  if isFloat f then convert 0 f m b.toNat else ((satInt f b.toInt).1, 0)

/-- R141: one element of VCLMP against the bounds. -/
def elemClamp (f : Nat) (lo hi : Nat) (blo bhi : Word) (c : Nat) : Nat × Flags :=
  if isFloat f then
    let x := decodeFloat f c
    let fl := flagIf (isSig x) flagNV
    if isNan x || isNan (decodeFloat 0 blo.toNat) || isNan (decodeFloat 0 bhi.toNat) || ltVal x (decodeFloat f lo) then (lo, fl)
    else if ltVal (decodeFloat f hi) x then (hi, fl)
    else (c, fl)
  else if decodeInt f c < decodeInt f lo then (lo, 0)
  else if decodeInt f hi < decodeInt f c then (hi, 0)
  else (c, 0)

/-- R141: VCLMP. -/
def execVclmp (l : Bool) (g fmt td ta v rs : BitVec 4) (s : State) : SlotOutcome :=
  rowOp (.vclmp l g fmt td ta v rs) l td ta ta rs 2 (fun s _ a _ _ =>
    let w := viewAt (me s) v.toNat
    if !w.ben then (rowOf fmt.toNat (elemAt fmt.toNat a), 0)
    else
      let lo := boundCode fmt.toNat 3 w.blo
      let hi := boundCode fmt.toNat 2 w.bhi
      let r := map1 fmt.toNat (elemClamp fmt.toNat lo.1 hi.1 w.blo w.bhi) a
      (r.1, r.2 ||| lo.2 ||| hi.2)) s

/-- R142: the special functions. -/
def execVexp2 (l : Bool) (g fmt td ta rs : BitVec 4) (s : State) : SlotOutcome :=
  rowOp (.vexp2 l g fmt td ta rs) l td ta ta rs 8 (fun s _ a _ _ => map1 fmt.toNat (exp2Code fmt.toNat (myMode s)) a) s
def execVrcp (l : Bool) (g fmt td ta rs : BitVec 4) (s : State) : SlotOutcome :=
  rowOp (.vrcp l g fmt td ta rs) l td ta ta rs 8 (fun s _ a _ _ => map1 fmt.toNat (recipCode fmt.toNat (myMode s)) a) s
def execVrsq (l : Bool) (g fmt td ta rs : BitVec 4) (s : State) : SlotOutcome :=
  rowOp (.vrsq l g fmt td ta rs) l td ta ta rs 8 (fun s _ a _ _ => map1 fmt.toNat (rsqrtCode fmt.toNat (myMode s)) a) s

/-- The integers of a row's elements added up. -/
def intSum (f : Nat) (a : Row) : Int := ((List.range (fmtCount f)).map (fun k => decodeInt f (elemAt f a k))).foldl (fun x y => x + y) 0

/-- R143: VRSUM: the tree sum converted to the format, or the exact integer sum clamped once. -/
def rowSum (f : Nat) (m : RMode) (a : Row) : Nat × Flags :=
  if isFloat f then
    let t := treeSum f m a
    let r := roundTo f m (decodeFloat 0 t.1)
    (r.1, r.2 ||| t.2)
  else satInt f (intSum f a)

/-- R113, R143: the extreme element. -/
def rowPick (f : Nat) (wantMax : Bool) (a : Row) : Nat × Flags :=
  ((List.range (fmtCount f)).map (elemAt f a)).foldl
    (fun x c =>
      let r := elemPick f wantMax x.1 c
      (r.1, x.2 ||| r.2))
    (elemAt f a 0, 0)

/-- R143: one code in every element. -/
def broadcast (f : Nat) (x : Nat × Flags) : Row × Flags := (rowOf f (fun _ => x.1), x.2)

def execVrsum (l : Bool) (g fmt td ta rs : BitVec 4) (s : State) : SlotOutcome :=
  rowOp (.vrsum l g fmt td ta rs) l td ta ta rs 6 (fun s _ a _ _ => broadcast fmt.toNat (rowSum fmt.toNat (myMode s) a)) s
def execVrmax (l : Bool) (g fmt td ta rs : BitVec 4) (s : State) : SlotOutcome :=
  rowOp (.vrmax l g fmt td ta rs) l td ta ta rs 6 (fun _ _ a _ _ => broadcast fmt.toNat (rowPick fmt.toNat true a)) s
def execVrmin (l : Bool) (g fmt td ta rs : BitVec 4) (s : State) : SlotOutcome :=
  rowOp (.vrmin l g fmt td ta rs) l td ta ta rs 6 (fun _ _ a _ _ => broadcast fmt.toNat (rowPick fmt.toNat false a)) s

/-- The low bits of a scalar as a code of a format. -/
def codeOf (f : Nat) (x : Word) : Nat := x.toNat % 2 ^ fmtWidth f

/-- R144: VBCS. -/
def execVbcs (l : Bool) (g fmt td sn rs : BitVec 4) (s : State) : SlotOutcome :=
  rowOp (.vbcs l g fmt td sn rs) l td td td rs 2 (fun s _ _ _ _ => (rowOf fmt.toNat (fun _ => codeOf fmt.toNat (src s (highReg sn))), 0)) s

/-- R145: the scalar of a code: sign-extended for INT formats, zero-extended for every other. -/
def extendCode (f c : Nat) : Word := if isInt f then BitVec.ofInt 32 (decodeInt f c) else BitVec.ofNat 32 c

/-- R145: VEXT: a scalar result. -/
def execVext (l : Bool) (g fmt sd ta sn rs : BitVec 4) (s : State) : SlotOutcome :=
  slotStep (.vext l g fmt sd ta sn rs) s (fun s =>
    let r := (vRows s rs).2.1
    let e := (src s (highReg sn)).toNat % fmtCount fmt.toNat
    .ok (writeScalar s (vSlot l) (highReg sd) (extendCode fmt.toNat (elemAt fmt.toNat (myRow s ta r) e)) 3))

/-- R146: VINS. -/
def execVins (l : Bool) (g fmt td sv sn rs : BitVec 4) (s : State) : SlotOutcome :=
  rowOp (.vins l g fmt td sv sn rs) l td td td rs 2 (fun s old _ _ _ =>
    let f := fmt.toNat
    let e := (src s (highReg sn)).toNat % fmtCount f
    (rowPut old (fmtStride f * e) (fmtStride f) (BitVec.ofNat (fmtStride f) (codeOf f (src s (highReg sv)))), 0)) s

/-- R147: VPERM. -/
def execVperm (l : Bool) (g fmt td ta tb rs : BitVec 4) (s : State) : SlotOutcome :=
  rowOp (.vperm l g fmt td ta tb rs) l td ta tb rs 3 (fun _ _ a b _ =>
    let f := fmt.toNat
    let n := min (fmtCount f) (2 ^ fmtWidth f)
    (rowOf f (fun k => elemAt f a (k - k % n + elemAt f b k % n)), 0)) s

/-- R148: VLSH. -/
def execVlsh (l : Bool) (g fmt td ta sn rs : BitVec 4) (s : State) : SlotOutcome :=
  rowOp (.vlsh l g fmt td ta sn rs) l td ta ta rs 3 (fun s _ a _ _ =>
    let f := fmt.toNat
    let c := (src s (highReg sn)).toInt
    (rowOf f (fun k =>
      let j := (k : Int) - c
      if 0 ≤ j ∧ j < fmtCount f then elemAt f a j.toNat else 0), 0)) s

/-- R149: VPACK. -/
def execVpack (l : Bool) (g fmt td ta tb rs : BitVec 4) (s : State) : SlotOutcome :=
  rowOp (.vpack l g fmt td ta tb rs) l td ta tb rs 3 (fun _ _ a b _ =>
    let f := fmt.toNat
    let h := fmtCount f / 2
    (rowOf f (fun k => if k < h then elemAt f a k else elemAt f b (k - h)), 0)) s

/-- R149: VUNPK. -/
def execVunpk (l : Bool) (g fmt td ta : BitVec 4) (half : Bool) (rs : BitVec 4) (s : State) : SlotOutcome :=
  rowOp (.vunpk l g fmt td ta half rs) l td ta ta rs 3 (fun _ _ a _ _ =>
    let f := fmt.toNat
    let h := fmtCount f / 2
    (rowOf f (fun k => if k < h then elemAt f a (k + if half then h else 0) else 0), 0)) s

/-- R150: the scalar-operand forms. -/
def execVadds (l : Bool) (g fmt td ta sn rs : BitVec 4) (s : State) : SlotOutcome :=
  rowOp (.vadds l g fmt td ta sn rs) l td ta ta rs 2 (fun s _ a _ _ =>
    map1 fmt.toNat (fun x => elemAdd fmt.toNat (myMode s) x (codeOf fmt.toNat (src s (highReg sn)))) a) s
def execVmuls (l : Bool) (g fmt td ta sn rs : BitVec 4) (s : State) : SlotOutcome :=
  rowOp (.vmuls l g fmt td ta sn rs) l td ta ta rs 4 (fun s _ a _ _ =>
    map1 fmt.toNat (fun x => elemMul fmt.toNat (myMode s) x (codeOf fmt.toNat (src s (highReg sn)))) a) s
def execVfmas (l : Bool) (g fmt td ta sn rs : BitVec 4) (s : State) : SlotOutcome :=
  rowOp (.vfmas l g fmt td ta sn rs) l td ta ta rs 4 (fun s old a _ _ =>
    rowOfFlags fmt.toNat (fun k =>
      elemFma fmt.toNat (myMode s) (elemAt fmt.toNat a k) (codeOf fmt.toNat (src s (highReg sn))) (elemAt fmt.toNat old k))) s

end Sys2Proof.Machine
end

