-- ==== Sys2Proof/Machine/Slots.lean ====
section
/-! DEFINITION. Sys2Proof/Machine/Slots.lean: the slot instructions by constructor, as a bundle runs them: each arm calls the meaning that its arm
of Machine/Dispatch.lean calls. -/

namespace Sys2Proof.Machine

/-- The effect of an instruction in its slot; a step of the package stands in no slot. -/
def runSlot (i : Instr) (s : State) : SlotOutcome :=
  match i with
  | .add l g d a b => execAdd l g d a b s
  | .sub l g d a b => execSub l g d a b s
  | .and l g d a b => execAnd l g d a b s
  | .or l g d a b => execOr l g d a b s
  | .xor l g d a b => execXor l g d a b s
  | .shl l g d a b => execShl l g d a b s
  | .shr l g d a b => execShr l g d a b s
  | .sra l g d a b => execSra l g d a b s
  | .min l g d a b => execMin l g d a b s
  | .max l g d a b => execMax l g d a b s
  | .minu l g d a b => execMinu l g d a b s
  | .maxu l g d a b => execMaxu l g d a b s
  | .mov l g d a => execMov l g d a s
  | .addsh l g d a b sh => execAddsh l g d a b sh s
  | .clz l g d a => execClz l g d a s
  | .mul l g d a b => execMul l g d a b s
  | .mulh l g d a b => execMulh l g d a b s
  | .mulhu l g d a b => execMulhu l g d a b s
  | .divu l g d a b => execDivu l g d a b s
  | .remu l g d a b => execRemu l g d a b s
  | .movi l g d imm => execMovi l g d imm s
  | .addi l g d imm => execAddi l g d imm s
  | .andi l g d imm => execAndi l g d imm s
  | .ori l g d imm => execOri l g d imm s
  | .xori l g d imm => execXori l g d imm s
  | .shli l g d imm => execShli l g d imm s
  | .shri l g d imm => execShri l g d imm s
  | .srai l g d imm => execSrai l g d imm s
  | .movh l g d imm => execMovh l g d imm s
  | .lidx l g d lvl => execLidx l g d lvl s
  | .ctlrd l g d ctl => execCtlrd l g d ctl s
  | .ctlwr l g src ctl => execCtlwr l g src ctl s
  | .gtlo l g d => execGtlo l g d s
  | .gthi l g d => execGthi l g d s
  | .cmp l g pd cc a b => execCmp l g pd cc a b s
  | .cmpi l g pd cc a imm => execCmpi l g pd cc a imm s
  | .sld l g d a off => execSld l g d a off s
  | .sst l g src a off => execSst l g src a off s
  | .qmap l g reg a => execQmap l g reg a s
  | .qunmap l g reg => execQunmap l g reg s
  | .br g disp => execBr g disp s
  | .call g disp => execCall g disp s
  | .contain g disp => execContain g disp s
  | .jr g a => execJr g a s
  | .callr g a => execCallr g a s
  | .loop g a len => execLoop g a len s
  | .loopi g cnt len => execLoopi g cnt len s
  | .lbrk g => execLbrk g s
  | .lstg g lv pm => execLstg g lv pm s
  | .pand g pd pa pb na nb => execPand g pd pa pb na nb s
  | .por g pd pa pb na nb => execPor g pd pa pb na nb s
  | .pxor g pd pa pb na nb => execPxor g pd pa pb na nb s
  | .bktj g a tbl => execBktj g a tbl s
  | .waitgt g a b => execWaitgt g a b s
  | .setest g a b => execSetest g a b s
  | .setts g a b => execSetts g a b s
  | .setrm g rm => execSetrm g rm s
  | .launch g a timed => execLaunch g a timed s
  | .bar g sc id rl aq => execBar g sc id rl aq s
  | .bararv g sc id rl => execBararv g sc id rl s
  | .barwt g sc id aq => execBarwt g sc id aq s
  | .fence g sc mask => execFence g sc mask s
  | .trap g code => execTrap g code s
  | .eret g => execEret g s
  | .exit g => execExit g s
  | .containend g => execContainend g s
  | .vadd l g fmt td ta tb rs => execVadd l g fmt td ta tb rs s
  | .vsub l g fmt td ta tb rs => execVsub l g fmt td ta tb rs s
  | .vmul l g fmt td ta tb rs => execVmul l g fmt td ta tb rs s
  | .vfma l g fmt td ta tb rs => execVfma l g fmt td ta tb rs s
  | .vmin l g fmt td ta tb rs => execVmin l g fmt td ta tb rs s
  | .vmax l g fmt td ta tb rs => execVmax l g fmt td ta tb rs s
  | .vabs l g fmt td ta rs => execVabs l g fmt td ta rs s
  | .vneg l g fmt td ta rs => execVneg l g fmt td ta rs s
  | .vmov l g fmt td ta rs => execVmov l g fmt td ta rs s
  | .vand l g fmt td ta tb rs => execVand l g fmt td ta tb rs s
  | .vor l g fmt td ta tb rs => execVor l g fmt td ta tb rs s
  | .vxor l g fmt td ta tb rs => execVxor l g fmt td ta tb rs s
  | .vshl l g fmt td ta tb rs => execVshl l g fmt td ta tb rs s
  | .vshr l g fmt td ta tb rs => execVshr l g fmt td ta tb rs s
  | .vsra l g fmt td ta tb rs => execVsra l g fmt td ta tb rs s
  | .vcmpeq l g fmt td ta tb rs => execVcmpeq l g fmt td ta tb rs s
  | .vcmplt l g fmt td ta tb rs => execVcmplt l g fmt td ta tb rs s
  | .vcmple l g fmt td ta tb rs => execVcmple l g fmt td ta tb rs s
  | .vsel l g fmt td ta tb rs => execVsel l g fmt td ta tb rs s
  | .vcvt l g fmt td ta fsrc rs => execVcvt l g fmt td ta fsrc rs s
  | .vscl l g fmt td ta q rs => execVscl l g fmt td ta q rs s
  | .vclmp l g fmt td ta v rs => execVclmp l g fmt td ta v rs s
  | .vexp2 l g fmt td ta rs => execVexp2 l g fmt td ta rs s
  | .vrcp l g fmt td ta rs => execVrcp l g fmt td ta rs s
  | .vrsq l g fmt td ta rs => execVrsq l g fmt td ta rs s
  | .vrsum l g fmt td ta rs => execVrsum l g fmt td ta rs s
  | .vrmax l g fmt td ta rs => execVrmax l g fmt td ta rs s
  | .vrmin l g fmt td ta rs => execVrmin l g fmt td ta rs s
  | .vbcs l g fmt td sn rs => execVbcs l g fmt td sn rs s
  | .vext l g fmt sd ta sn rs => execVext l g fmt sd ta sn rs s
  | .vins l g fmt td sv sn rs => execVins l g fmt td sv sn rs s
  | .vperm l g fmt td ta tb rs => execVperm l g fmt td ta tb rs s
  | .vlsh l g fmt td ta sn rs => execVlsh l g fmt td ta sn rs s
  | .vpack l g fmt td ta tb rs => execVpack l g fmt td ta tb rs s
  | .vunpk l g fmt td ta half rs => execVunpk l g fmt td ta half rs s
  | .vadds l g fmt td ta sn rs => execVadds l g fmt td ta sn rs s
  | .vmuls l g fmt td ta sn rs => execVmuls l g fmt td ta sn rs s
  | .vfmas l g fmt td ta sn rs => execVfmas l g fmt td ta sn rs s
  | .tld g t v a cx cls => execTld g t v a cx cls s
  | .tst g t v a cx cls => execTst g t v a cx cls s
  | .tgath g t v a cx cls => execTgath g t v a cx cls s
  | .tscat g t v a cx cls => execTscat g t v a cx cls s
  | .pref g v a => execPref g v a s
  | .tspld g t a => execTspld g t a s
  | .tspst g t a => execTspst g t a s
  | .ared g t v a cx cls => execAred g t v a cx cls s
  | .tzero g t => execTzero g t s
  | .tmovt g t ts => execTmovt g t ts s
  | .tcopy g vd vs a cq ev => execTcopy g vd vs a cq ev s
  | .vopen g v mode sc cls => execVopen g v mode sc cls s
  | .vretire g v => execVretire g v s
  | .hfree g a => execHfree g a s
  | .waitm g d v a ord sc => execWaitm g d v a ord sc s
  | .aadd g d v a ord sc => execAadd g d v a ord sc s
  | .amin g d v a ord sc => execAmin g d v a ord sc s
  | .amax g d v a ord sc => execAmax g d v a ord sc s
  | .aminu g d v a ord sc => execAminu g d v a ord sc s
  | .amaxu g d v a ord sc => execAmaxu g d v a ord sc s
  | .aand g d v a ord sc => execAand g d v a ord sc s
  | .aor g d v a ord sc => execAor g d v a ord sc s
  | .axor g d v a ord sc => execAxor g d v a ord sc s
  | .axchg g d v a ord sc => execAxchg g d v a ord sc s
  | .acas g d v a ord sc => execAcas g d v a ord sc s
  | .aincb g d v a ord sc => execAincb g d v a ord sc s
  | .afadd g d v a ord sc => execAfadd g d v a ord sc s
  | .afaddh g d v a ord sc => execAfaddh g d v a ord sc s
  | .ald g d v a ord sc => execAld g d v a ord sc s
  | .ast g d v a ord sc => execAst g d v a ord sc s
  | .send g a t b timed => execSend g a t b timed s
  | .mm g acc t sg sw fmt q scl => execMm g acc t sg sw fmt q scl s
  | .mmcmp g acc t sg sw fmt => execMmcmp g acc t sg sw fmt s
  | .mstatTile g t sg sw fmt => execMstatTile g t sg sw fmt s
  | .mstatHandle g a sg sw fmt => execMstatHandle g a sg sw fmt s
  | .mswap g => execMswap g s
  | .lease g => execLease g s
  | .lrel g => execLrel g s
  | .acczeroFp g acc t => execAcczeroFp g acc t s
  | .acczeroInt g acc => execAcczeroInt g acc s
  | .accld g acc t sg sw fmt hi => execAccld g acc t sg sw fmt hi s
  | .accnorm g acc t sg sw => execAccnorm g acc t sg sw s
  | .accchk g acc => execAccchk g acc s
  | .accdrain g acc t sg sw fmt q x => execAccdrain g acc t sg sw fmt q x s
  | .fold g acc sg sw => execFold g acc sg sw s
  | .tadd g vd va vb fmt sg sw => execTadd g vd va vb fmt sg sw s
  | .tsub g vd va vb fmt sg sw => execTsub g vd va vb fmt sg sw s
  | .tmul g vd va vb fmt sg sw => execTmul g vd va vb fmt sg sw s
  | .tmax g vd va vb fmt sg sw => execTmax g vd va vb fmt sg sw s
  | .tred g vd va fmt sg sw => execTred g vd va fmt sg sw s
  | .tmv g vd va vb fmt sg sw => execTmv g vd va vb fmt sg sw s
  | .tmm g vd va vb fmt sg sw => execTmm g vd va vb fmt sg sw s
  | .pabm g a t rs => execPabm g a t rs s
  | .pbcast g a t rs => execPbcast g a t rs s
  | .pmac g a t rs => execPmac g a t rs s
  | .pread g a t rs => execPread g a t rs s
  | .pexit g a => execPexit g a s
  | .shpset g sg fld imm => execShpset g sg fld imm s
  | .shpcpy g sg => execShpcpy g sg s
  | .qld g q a n => execQld g q a n s
  | .qset g q a n => execQset g q a n s
  | .qzero g q => execQzero g q s
  | .vfset g v fld a => execVfset g v fld a s
  | .vfseti g v fld imm => execVfseti g v fld imm s
  | .bndset g v a b => execBndset g v a b s
  | .bndoff g v => execBndoff g v s
  | .vrow sl rd ra rb => execVrow sl rd ra rb s
  | .ximm tgt e => execXimm tgt e s
  | _ => .next s

end Sys2Proof.Machine
end

