-- ==== Sys2Proof/Machine/Bundle.lean ====
section
/-! DEFINITION. Sys2Proof/Machine/Bundle.lean: a bundle's way through its sequencer (R48-R53, R61-R68, R127, R193, R194, R302): the fetch, the
judging of its guards, its holds and traps, its issue as a tick, and the reissue of slots after a slot fault. -/

namespace Sys2Proof.Machine

/-- A step of sequencer q, as the running stream. -/
def withCur (s : State) (q : Nat) (f : State → State) : State := { f { s with cur := q } with cur := s.cur }

/-! The judging. -/

/-- R14: the occupied slots of a bundle's words, those that are not zero. -/
def wordMask (ws : List Nat) : BitVec 8 :=
  (List.range 8).foldl (fun m n => if ws.getD n 0 ≠ 0 then m ||| (1#8 <<< n) else m) 0#8

/-- R14: the occupied-slot mask. -/
def occMask (b : Slots) : BitVec 8 :=
  (List.range 8).foldl (fun m n => if (slotAt b n).isSome then m ||| (1#8 <<< n) else m) 0#8

/-- The occupied slots whose guards are true. -/
def trueMask (preds : BitVec 8) (b : Slots) : BitVec 8 :=
  (List.range 8).foldl (fun m n => match slotAt b n with
    | some i => if guardTrue preds (guardOf i) then m ||| (1#8 <<< n) else m
    | none => m) 0#8

/-- R80: the instructions of slots n to n + k - 1 in a mask, each with its slot and the state in which it is checked: the pops of the slots
before it have been taken. -/
def checkedSlots (v : State) (b : Slots) (m : BitVec 8) (n k : Nat) : List (Nat × Instr × State) :=
  match k with
  | 0 => []
  | k + 1 =>
    match slotAt b n with
    | none => checkedSlots v b m (n + 1) k
    | some i => if m.getLsbD n then (n, i, v) :: checkedSlots (takePops (readsOf (me v) i) v) b m (n + 1) k else checkedSlots v b m (n + 1) k

/-- R23: the rows that VROW gives. -/
def rowsOf (v : State) (b : Slots) (m : BitVec 8) : Nat × Nat × Nat :=
  match slotAt b 7 with
  | some (.vrow _ rd ra rb) =>
    let w := (checkedSlots v b m 0 8).foldl (fun w x => if x.1 = 7 then x.2.2 else w) v
    ((src w rd).toNat % 64, (src w ra).toNat % 64, (src w rb).toNat % 64)
  | _ => (0, 0, 0)

/-- The state with the bundle b at an address in issue, the slots of a mask to act. -/
def withBundle (v : State) (a : Word) (b : Slots) (m : BitVec 8) : State :=
  let c : IssueCtx := { addr := a, slots := b, rows := (0, 0, 0), mask := m, undone := [], ends := [] }
  let w := setMe v { me v with issue := some c }
  setMe w { me w with issue := some { c with rows := rowsOf w b m } }

/-- R64: the holds of the slots to act. A pop that finds too few entries counts for the lowest popping slot (R208). -/
def bundleHolds (l : List (Nat × Instr × State)) : List Hold :=
  let pops := l.filter (fun x => (readsOf (me x.2.2) x.2.1).any (fun f => (f == 30 && (mapOf (me x.2.2) false).isSome) || (f == 31 && (mapOf (me x.2.2) true).isSome)))
  let dry := l.any (fun x => popBlocked x.2.2 (readsOf (me x.2.2) x.2.1))
  (match pops with
    | [] => []
    | x :: _ => holdIf dry 8 (classOfSlot x.1)) ++ l.flatMap (fun x => holdsOf x.2.2 x.2.1)

/-- R57: the entries that the slots to act would add exceed the free ones: the trap, at the lowest slot that adds one. -/
def overflowTrap (sq : Seq) (l : List (Nat × Instr × State)) : List (TrapAt × Nat) :=
  let adds := l.filter (fun x => takesEntry x.2.1)
  match adds with
  | [] => []
  | x :: _ => if 32 < sq.queue.length + adds.length then [({ order := 5, cause := 6 }, x.1)] else []

/-- R66: the boundary would act on a bundle in a delay position. -/
def boundaryConflict (sq : Seq) (a : Word) : Bool := decide (sq.delayCount ≠ 0) && atBoundary sq a

/-- R67: the first trap of a bundle: the lowest order, then the lowest slot. -/
def lowestTrap (l : List (TrapAt × Nat)) : Option (TrapAt × Nat) :=
  match l with
  | [] => none
  | t :: rest =>
    match lowestTrap rest with
    | none => some t
    | some u => if u.1.order < t.1.order ∨ (u.1.order = t.1.order ∧ u.2 < t.2) then some u else some t

/-- R67, R91, R126, R183, R202: the traps of a bundle at an address. -/
def bundleTraps (v : State) (a : Word) (l : List (Nat × Instr × State)) : List (TrapAt × Nat) :=
  l.flatMap (fun x => (trapsOf x.2.2 a x.2.1).map (fun t => (t, x.1))) ++ overflowTrap (me v) l ++
    (if boundaryConflict (me v) a then [({ order := 2, cause := 3 }, 2)] else [])

/-- R297: an array command in the E slot of a steward strand. -/
def stewardArray (q : Nat) (ws : List Nat) : Bool :=
  isSteward (coreOf q) && (match decodeSlot .e (ws.getD 6 0) with
    | some i => isArrayCommand i
    | none => false)

/-- R40, R297: the slots of a bundle of sequencer q, or the lowest slot that is illegal. -/
def legalSlots (q : Nat) (ws : List Nat) : Except Nat Slots :=
  match decodeBundle ws with
  | .ok b => if stewardArray q ws then .error 6 else .ok b
  | .error n => .error (if n = 7 ∧ stewardArray q ws then 6 else n)

/-- What a sequencer finds at its next bundle. -/
inductive Verdict where
  | idle
  | held (h : Hold)
  | trap (cause slot : Nat)
  | skip
  | issue (b : Slots) (m : BitVec 8)
deriving DecidableEq, Repr

/-- R302: a strand has landed. -/
def hasLanded (sq : Seq) : Bool :=
  match sq.landing with
  | .landed _ => true
  | _ => false

/-- The running stream issues bundles: it runs, and nothing stops it before its next one. -/
def mayIssue (s : State) : Bool :=
  let sq := me s
  sq.status == .running && !sq.endPending && !hasLanded sq && sq.reports.isEmpty && sq.unwind.isNone

/-- R40, R61-R67: the judging of the bundle that the slots make, at the running stream's position. -/
def judgeSlots (s : State) (b : Slots) : Verdict :=
  let a := (me s).pc
  let v := landed s
  let m := trueMask (me v).preds b
  if occMask b ≠ 0 ∧ m = 0 then (if boundaryConflict (me s) a then .trap 3 2 else .skip)
  else
    let l := checkedSlots (withBundle v a b m) b m 0 8
    match firstHold (bundleHolds l) with
    | some h => .held h
    | none =>
      match lowestTrap (bundleTraps v a l) with
      | some t => .trap t.1.cause t.2
      | none => .issue b m

/-- R208, R310: while a BAR waits for its phase, its next bundle is held, for that or for a hold of its own that stands earlier in the table. -/
def awaitBar (s : State) (v : Verdict) : Verdict :=
  if barHeld s s.cur then
    (match v with
      | .held h => .held { rank := min h.rank 9, cls := if h.rank < 9 then h.cls else 1, vpns := [] }
      | _ => .held { rank := 9, cls := 1, vpns := [] })
  else v

/-- The judging of the running stream's next bundle, its position settled. -/
def judge (s : State) : Verdict :=
  if !mayIssue s then .idle
  else
    awaitBar s (match fetchWords s (me s).pc with
      | none => .held { rank := 0, cls := 1, vpns := [] }
      | some ws =>
        match legalSlots s.cur ws with
        | .error n => .trap 1 n
        | .ok b => judgeSlots s b)

/-- R310: the wait of a BAR ends when its phase has completed. -/
def released (s : State) : State := if (me s).barWait.isSome && !barHeld s s.cur then endBarWait s s.cur else s

/-- R51: an active level of at most 32 bundles does not have the bundle at an address of its body. -/
def lacksBundle (l : LoopLevel) (a : Word) : Bool :=
  decide (l.len.toNat ≤ 32) && decide ((a - l.start).toNat < 32 * l.len.toNat) && (tfind l.body a.toNat).isNone

/-- R51: a body's bundle that could not be fetched when its level was pushed is captured when it is fetched for the first time. -/
def captureHere (s : State) : State :=
  let sq := me s
  if sq.loops.any (fun l => lacksBundle l sq.pc) then
    (match fetchWords s sq.pc with
      | some ws => setMe s { sq with loops := sq.loops.map (fun l => if lacksBundle l sq.pc then { l with body := tput l.body sq.pc.toNat ws } else l) }
      | none => s)
  else s

/-- The stream at its position: what the last bundle left due is done, and its bundle is in the loop buffer. -/
def prepared (s : State) : State := captureHere (released (setMe s (settle (me s))))

/-! Issue. -/

/-- R207: the counters of an issued bundle. -/
def countSlots (sq : Seq) (m : BitVec 8) (l : List Nat) (v : Vector (BitVec 48) 126) : Vector (BitVec 48) 126 :=
  match l with
  | [] => v
  | n :: rest => countSlots sq m rest (bumpLevels (depth sq) v (classOfSlot n) (if m.getLsbD n then 0 else 1))

/-- R207, R297: the counters, of a strand that keeps them. -/
def countIssue (s : State) (m : BitVec 8) : State :=
  let sq := me s
  if isSteward (coreOf s.cur) then s else setMe s { sq with counters := countSlots sq m (List.range 8) sq.counters }

/-- R339: the sample of a tick whose number is a multiple of the period. -/
def sampleTick (s : State) (a : Word) (m : BitVec 8) : State :=
  let sq := me s
  let t := (dieAt s (myDie s)).trace
  let p := 2 ^ t.slog
  if t.sen && sq.ticks % p == 0 then
    let j := sq.ticks / p % 8
    let load : BitVec 64 := sq.task.setWidth 64 <<< 32 ||| a.setWidth 64
    traceRecord s (myDie s) 0x01 load (placeOf s.cur sq.strand) (some (j, m.getLsbD j))
  else s

/-- Slot n of the bundle in issue acts. -/
def runSlotAt (s : State) (n : Nat) : State :=
  match (me s).issue with
  | none => s
  | some c =>
    match slotAt c.slots n with
    | none => s
    | some i =>
      if c.mask.getLsbD n then
        (match runSlot i s with
          | .next t => t
          | _ => s)
      else s

/-- The slots of the bundle in issue act, in slot order. -/
def runSlots (s : State) : State := (List.range 8).foldl runSlotAt s

/-- R81-R90: the effects on the position, which follow the bundle's own. -/
def isPositional (e : EndEffect) : Bool :=
  match e with
  | .transfer _ => true
  | .loopPush _ _ _ _ => true
  | .loopSkip _ => true
  | .stageBind _ _ => true
  | .trapTo _ => true
  | .trapReturn _ _ => true
  | .strandEnd => true
  | _ => false

/-- R88, R90: what a slot fault of the bundle leaves incomplete. -/
def isFinal (e : EndEffect) : Bool :=
  match e with
  | .trapTo _ => true
  | .strandEnd => true
  | _ => false

/-- An effect on the position of the bundle at an address. -/
def applyPositional (a : Word) (s : State) (e : EndEffect) : State :=
  match e with
  | .trapTo code => softTrap s a code
  | .strandEnd => endStrand s s.cur
  | _ => applyEnd s e

/-- The slot fault of the lowest slot. -/
def lowestFault (l : List SlotFault) : Option SlotFault :=
  match l with
  | [] => none
  | f :: rest =>
    match lowestFault rest with
    | none => some f
    | some g => if g.slot < f.slot then some g else some f

/-- R186: the completion mask: the bits of the faulting slots, and of a TRAP or EXIT that they leave incomplete, are 0. -/
def completionMask (l : List SlotFault) (final : Bool) : BitVec 8 :=
  let m := l.foldl (fun m f => m &&& ~~~(1#8 <<< f.slot)) 0xFF#8
  if final then m &&& ~~~(1#8 <<< 2) else m

/-- R302: a strand has a PABM queued, and is about to hold a pseudo-channel. -/
def awaitsBank (s : State) (q : Nat) : Bool :=
  (bankQueue s q).any (fun o => match o.kind with
    | .bank (.pabm _ _) => true
    | _ => false)

/-- R302: a strand that is asked for its landing point has reached it; one that holds a pseudo-channel, or is about to, has none. What a held bundle has asked
for and kept is asked again after the restore. -/
def landHere (s : State) : State :=
  let sq := me s
  if sq.landing = .asked ∧ sq.status = .running ∧ !sq.endPending ∧ sq.bank.isNone ∧ awaitsBank s s.cur = false then
    setMe (dropReads s s.cur) { settle sq with landing := .landed (gtAt s (myDie s)), waitGt := none, pinned := [] }
  else s

/-- R69: the end of the tick of the bundle in issue, whole, or of its reissued slots: the effects of its slots, its position, then its
slot faults. The depth 0 of a landing (R302) is the depth that the bundle leaves (log 125). -/
def finishBundle (s : State) (whole : Bool) : State :=
  match (me s).issue with
  | none => s
  | some c =>
    let final := c.ends.any isFinal && !c.undone.isEmpty
    let ends := if c.undone.isEmpty then c.ends else c.ends.filter (fun e => !isFinal e)
    let s1 := (ends.filter (fun e => !isPositional e)).foldl applyEnd (setMe s { me s with issue := none, waitGt := none, pinned := [] })
    let sq := me s1
    let acted := whole && decide (sq.delayCount = 0) && atBoundary sq c.addr
    let s2 := if whole then setMe s1 (advance sq c.addr) else s1
    let s3 := (ends.filter isPositional).foldl (applyPositional c.addr) s2
    match lowestFault c.undone with
    | some f => slotStop (dropFailures s3 (myDie s3) (me s3).asid) c.addr f (completionMask c.undone final)
    | none => if whole && (acted || (settle (me s3)).loops.isEmpty) then landHere s3 else s3

/-- R53: the bundle b at the running stream's position issues as a tick, with the slots of a mask. -/
def issueTick (s : State) (b : Slots) (m : BitVec 8) : State :=
  let v := landed (passFetch s (me s).pc)
  let sq := me v
  let v1 := setMe v { sq with ticks := sq.ticks + 1, tickOpen := false, stageDue := false }
  let v2 := withBundle (sampleTick (countIssue v1 m) sq.pc m) sq.pc b m
  finishBundle (runSlots v2) true

/-- R62: the bundle at the running stream's position is skipped. -/
def skipBundle (s : State) : State :=
  let sq := me s
  let s1 := setMe (passFetch s sq.pc) (advance sq sq.pc)
  if sq.delayCount = 0 ∧ atBoundary sq sq.pc then landHere s1 else s1

/-- R126, R153, R257, R348: what the held slots ask for, keep, pin and read, and their queues count, in a cycle of their hold. -/
def askSlots (s : State) (l : List (Nat × Instr × State)) : State :=
  match l with
  | [] => s
  | x :: rest =>
    let v := { x.2.2 with pod := s.pod, nextOp := s.nextOp, flock := s.flock }
    let w := askHeld v x.2.1
    let p := pollHeld { v with slices := s.slices } x.2.1
    let s1 := { s with pod := w.pod, nextOp := w.nextOp, flock := w.flock, slices := p.slices }
    let sq := me s1
    let pins := ((pinHeld v x.2.1).map (fun h => (x.1, h))).filter (fun p => !sq.pinned.contains p)
    let kept := { sq with sendWait := max sq.sendWait (me w).sendWait, pinned := sq.pinned ++ pins, waitGt := (match (me w).waitGt with
                            | some t => some t
                            | none => sq.waitGt) }
    askSlots (stallHeld (setMe s1 kept) x.2.1) rest

/-- R302: the holds at which a strand lands, by their place in R208: that of a WAITGT, of a WAITM, of a BARWT, of a BAR or BARARV that waits for the phase of
an earlier arrival (a barrier wait, log 148), of a SEND waiting for a slot, of a VOPEN, of a full copy queue. -/
def landingRank (s : State) (i : Instr) : Option Nat :=
  match i with
  | .waitgt _ _ _ => some 9
  | .barwt _ _ _ _ => some 9
  | .bar _ sc id _ _ => if phaseOpen s s.cur sc.toNat id.toNat then some 9 else none
  | .bararv _ sc id _ => if phaseOpen s s.cur sc.toNat id.toNat then some 9 else none
  | .waitm _ _ _ _ _ _ => some 7
  | .vopen _ _ _ _ _ => some 7
  | .tcopy _ _ _ _ _ _ => some 7
  | .send _ _ _ _ timed => if sendEarly s timed then none else some 7
  | _ => none

/-- R302: a slot is held where a strand lands: by one of these holds, or by a pop. -/
def landingHold (l : List (Nat × Instr × State)) : Bool :=
  l.any (fun x => popBlocked x.2.2 (readsOf (me x.2.2) x.2.1) || (holdsOf x.2.2 x.2.1).any (fun h => some h.rank == landingRank x.2.2 x.2.1))

/-- The slots to act of the bundle at the running stream's position. -/
def nextSlots (s : State) : List (Nat × Instr × State) :=
  match fetchWords s (me s).pc with
  | none => []
  | some ws =>
    match legalSlots s.cur ws with
    | .error _ => []
    | .ok b =>
      let v := landed s
      let m := trueMask (me v).preds b
      checkedSlots (withBundle v (me s).pc b m) b m 0 8

/-- The slots that a hold of their own keeps: none while a BAR waits for its phase. -/
def heldSlots (s : State) : List (Nat × Instr × State) := if barHeld s s.cur then [] else nextSlots s

/-- R126: a full copy queue counts a cycle of its hold, also one in which a BAR holds the bundle. -/
def stallSlots (s : State) (l : List (Nat × Instr × State)) : State := l.foldl (fun s x => stallHeld s x.2.1) s

/-- R64: a cycle in which a hold keeps the running stream's bundle. -/
def holdBundle (s : State) (h : Hold) : State :=
  let l := heldSlots s
  let vpns := (bundleHolds l).flatMap (fun x => x.vpns)
  let s0 := if barHeld s s.cur then stallSlots s (nextSlots s) else askSlots s l
  let s1 := heldCycle s0 { h with vpns := distinct (h.vpns ++ vpns) }
  if barHeld s s.cur || landingHold l then landHere s1 else s1

/-- What the verdict on the running stream's bundle brings, apart from the merge. -/
def carryOut (s : State) (v : Verdict) : State :=
  match v with
  | .idle => s
  | .held h => holdBundle s h
  | .trap c n => issueTrap (passFetch s (me s).pc) (me s).pc c n
  | .skip => skipBundle s
  | .issue b m => issueTick s b m

/-! Reissue after a slot fault (R194). -/

/-- R125, R126: a copy queue that has filled since the tick holds a reissued TCOPY, in strict mode too (log 130). -/
def queueHolds (l : List (Nat × Instr × State)) : List Hold :=
  l.flatMap (fun x => match x.2.1 with
    | .tcopy _ _ _ _ cq _ => holdIf (decide (16 ≤ (copiesIn x.2.2 (coreOf x.2.2.cur) cq.toNat).length)) 7 3
    | _ => [])

/-- R194: the slots of a reissue that are to act: the incomplete ones whose guards, read again, are true (log 130). -/
def reissuedSlots (s : State) (a : Word) (cm : BitVec 8) : List (Nat × Instr × State) :=
  match fetchWords s a with
  | none => []
  | some ws =>
    match legalSlots s.cur ws with
    | .error _ => []
    | .ok b =>
      let m := trueMask (me s).preds b &&& ~~~cm
      checkedSlots (withBundle s a b m) b m 0 8

/-- R194: the incomplete slots of the bundle at an address are reissued as part of its tick: no counter moves and nothing lands. The traps at issue
are not tested again, and the guards are read again (log 130). A bundle that has become illegal stops the strand, and its resume reissues it whole. -/
def reissueSlots (s : State) (a : Word) (cm : BitVec 8) : State :=
  match fetchWords s a with
  | none => s
  | some ws =>
    match legalSlots s.cur ws with
    | .error n => issueTrap (passFetch (setMe s { me s with reissue := none }) a) a 1 n
    | .ok b =>
      let m := trueMask (me s).preds b &&& ~~~cm
      let w := withBundle s a b m
      let l := reissuedSlots s a cm
      match firstHold (bundleHolds l ++ queueHolds l) with
      | some h =>
        let vpns := (bundleHolds l).flatMap (fun x => x.vpns)
        heldCycle (askSlots s l) { h with vpns := distinct vpns }
      | none => finishBundle (runSlots (passFetch (setMe w { me w with reissue := none }) a)) false

/-! The merge (R127). -/

/-- R61: the bundle at the running stream's position is skipped by the nullifier. -/
def isSkipped (s : State) (ws : List Nat) : Bool :=
  match legalSlots s.cur ws with
  | .error _ => false
  | .ok b => occMask b != 0 && trueMask (me (landed s)).preds b == 0

/-- R127, R67: the slots with which the running stream's next bundle takes part in the merge. One that will trap takes part with what it occupies: its
traps are tested once its holds have ended, the collision's among them. One that the nullifier skips uses no slot. -/
def mergeMask (t : State) : Option (BitVec 8) :=
  match judge t with
  | .issue b _ => some (occMask b)
  | .trap _ _ =>
    (match fetchWords t (me t).pc with
      | some ws => if isSkipped t ws then none else some (wordMask ws)
      | none => none)
  | _ => none

/-- R127: the occupied slots of a sequencer's next bundle, when the sequencer is ready: no hold applies but those of the merge. -/
def readyMask (s : State) (q : Nat) : Option (BitVec 8) :=
  let t := prepared { s with cur := q }
  if coreFrozen s (coreOf q) || (me t).reissue.isSome then none else mergeMask t

/-- R127: a sequencer is ready. -/
def isReady (s : State) (q : Nat) : Bool := (readyMask s q).isSome

/-- R127: the slots in which two masks collide, the lowest. -/
def lowestCollision (a b : BitVec 8) : Option Nat := (List.range 8).find? (fun n => (a &&& b).getLsbD n)

/-- R194: the running stream, with slots to be reissued, may reissue them. -/
def mayReissue (s : State) : Bool := (me s).status == .running && !(me s).endPending && (me s).unwind.isNone

/-- One cycle of the running stream, alone. -/
def streamCycle (s : State) : State :=
  let t := prepared s
  match (me t).reissue with
  | some (a, cm) => if mayReissue t then reissueSlots t a cm else s
  | none =>
    if (me s).status = .running then carryOut t (judge t) else s

/-- R127: the secondary of core k issues, or meets its trap, and W returns to zero (log 133). -/
def secondaryIssues (s : State) (k : Nat) : State :=
  withCur (setCore s k { coreAt s k with primaryMask := none, wait := 0 }) (2 * k + 1) streamCycle

/-- R127: the secondary of core k is held for a cycle, for a collision in slot n. -/
def secondaryCollides (s : State) (k n : Nat) : State :=
  withCur (setCore s k { coreAt s k with primaryMask := none, wait := min 64 ((coreAt s k).wait + 1) }) (2 * k + 1)
    (fun t => heldCycle (prepared t) { rank := 1, cls := classOfSlot n, vpns := [] })

/-- R127: a cycle of core k that begins with W at 64 and the secondary ready is the guard's. -/
def guardDue (s : State) (k : Nat) : Bool := decide (64 ≤ (coreAt s k).wait) && isReady s (2 * k + 1)

/-- R127, R208: the hold of the guard. -/
def guardHold : Hold := { rank := 0, cls := 1, vpns := [] }

/-- R126, R127, R208: the guard holds the running stream for a cycle, which counts for the guard, the first in the table; a hold of the stream's own goes on
in that cycle: its queue counts the stall, and its slots ask and pin. A stream that is skipped, idle or stopped has no cycle. -/
def guardHolds (s : State) : State :=
  let t := prepared s
  match (me t).reissue with
  | some (a, cm) => if mayReissue t then heldCycle (askSlots t (reissuedSlots t a cm)) guardHold else s
  | none =>
    match judge t with
    | .held h => holdBundle t { guardHold with vpns := h.vpns }
    | _ => if (mergeMask t).isSome then heldCycle t guardHold else s

/-- STARVATION_GUARD (R127): with W at 64 and the secondary ready, the primary is held for a cycle and the secondary issues. -/
def starveCycle (s : State) (k : Nat) : State :=
  secondaryIssues (withCur (setCore s k { coreAt s k with primaryMask := none }) (2 * k) guardHolds) k

/-- R127: the secondary of core k, ready with the slots m occupied, in a cycle in which the primary has taken the slots p. -/
def secondaryJoins (s : State) (k : Nat) (p m : BitVec 8) : State :=
  match lowestCollision p m with
  | some n => secondaryCollides s k n
  | none => secondaryIssues s k

/-- R116, R127: a new cycle of core k begins with its primary: what the cycle before still owes a ready secondary is done. It issues or is held beside the
primary's bundle, or issues the bundle whose landings it has taken. -/
def closeCycle (s : State) (k : Nat) : State :=
  match readyMask s (2 * k + 1), (coreAt s k).primaryMask with
  | some m, some p => secondaryJoins s k p m
  | some _, none => if (seqAt s (2 * k + 1)).tickOpen then (if guardDue s k then starveCycle s k else secondaryIssues s k) else s
  | none, some _ => setCore s k { coreAt s k with primaryMask := none }
  | none, none => s

/-- R127: a cycle of the secondary: a ready one issues beside the primary's bundle of the cycle unless their occupied slots collide, or alone when the
primary is held by the guard or not ready; while the primary is to issue first, nothing happens (R116). -/
def secondaryCycle (s : State) (k : Nat) : State :=
  match readyMask s (2 * k + 1), (coreAt s k).primaryMask with
  | some m, some p => secondaryJoins s k p m
  | some _, none =>
    if guardDue s k then starveCycle s k
    else if isReady s (2 * k) && !(seqAt s (2 * k + 1)).tickOpen then s
    else secondaryIssues s k
  | none, _ => withCur s (2 * k + 1) streamCycle

/-- R127: the slots that the primary takes in a cycle of its own: those of the bundle that it issues or that traps, none where it is held or reissues slots. A
skipped bundle takes no cycle (R63), and an idle stream has none. -/
def takenSlots (t : State) : Option (BitVec 8) :=
  if (me t).status ≠ .running then none
  else
    match judge t, (me t).reissue with
    | _, some _ => some 0
    | .issue b _, none => some (occMask b)
    | .held _, none => some 0
    | .trap _ _, none => some ((mergeMask t).getD 0)
    | _, none => none

/-- R127: a cycle of the primary. -/
def primaryCycle (s : State) : State :=
  let k := coreOf s.cur
  let t := prepared s
  match takenSlots t with
  | some m => streamCycle (setCore t k { coreAt t k with primaryMask := some m })
  | none => streamCycle t

/-- BUNDLE_ISSUE: one cycle of sequencer q: its next bundle is held, skipped, trapped or issued as a tick. -/
def bundleCycle (s : State) (q : Nat) : State :=
  let k := coreOf q
  if coreFrozen s k then s
  else if q % 2 = 1 then secondaryCycle s k
  else
    let s1 := closeCycle s k
    if guardDue s1 k then starveCycle s1 k else withCur s1 q primaryCycle

end Sys2Proof.Machine
end

