-- ==== Sys2Proof/Machine/Engines.lean ====
section
/-! DEFINITION. Sys2Proof/Machine/Engines.lean: the steps of the memory path, the copy queues and the atomic units on operations in flight (R58,
R124, R125, R165, R168-R182, R196, R201, R204, R264-R269, R271, R272, R318-R321, R348-R354). -/

namespace Sys2Proof.Machine

/-! When an operation may move. -/

/-- R204, R205: the engines of an operation's core move: it is not frozen, or a debug step lets this operation move. -/
def engineMoves (s : State) (o : Op) : Bool := !coreFrozen s (coreOf o.seq) || (coreAt s (coreOf o.seq)).granted.contains o.id

/-- R205: the operation has moved in the debug step. -/
def spend (s : State) (o : Op) : State :=
  let k := coreOf o.seq
  if coreFrozen s k then setCore s k { coreAt s k with granted := (coreAt s k).granted.filter (fun n => n != o.id) } else s

/-- R171, R196, R204: an operation that has not performed may do so. -/
def mayMove (s : State) (o : Op) : Bool := o.phase == .queued && engineMoves s o && mayPerform s o

/-- R165, R301: an operation has completed; a strand that ends may have waited for it. -/
def opDone (s : State) (o : Op) : State := finishStrand (completeOp s o) o.seq

/-- A step of the operation of a number, when a condition on it holds; its strand may end with it. -/
def onOp (s : State) (n : Nat) (may : Op → Bool) (f : State → Op → State) : State :=
  match opAt s n with
  | none => s
  | some o => if may o then finishStrand (f (spend s o) o) o.seq else s

/-! What an access reaches when it performs. -/

/-- What the addresses of an access reach: they may go, wait for walks, need a fenced destination, have lost their translation, or meet an
uncorrectable error. -/
inductive Reach where
  | ok
  | wait (vpns : List Nat)
  | fenced
  | lost
  | damaged
deriving DecidableEq, Repr

/-- What the pages of an access reach. -/
def reachPages (s : State) (die asid : Nat) (wr : Bool) (vas : List Nat) : Reach :=
  match vas.filter (fun va => xlateLate s die asid va wr == .miss) with
  | x :: l => .wait (distinct ((x :: l).map (fun va => va / 65536)))
  | [] =>
    if vas.any (fun va => xlateLate s die asid va wr == .timeout) then .fenced
    else if (firstLost s die asid wr vas).isSome then .lost
    else if anyDamaged s die asid wr vas then .damaged
    else .ok

/-- R349, R351: a destination may not be reached any more, its VALID cleared, by an operation that has no request there, or one that has not been sent. -/
def cutOff (s : State) (op d : Nat) : Bool :=
  let l := (requestsOf s op).filter (fun r => r.dest == d)
  !(destAt s d).valid && (l.isEmpty || l.any (fun r => r.sent.isNone && !r.answered))

/-- What the addresses of an access of an operation reach. -/
def reach (s : State) (op die asid : Nat) (wr : Bool) (vas : List Nat) : Reach :=
  match reachPages s die asid wr vas with
  | .wait l => .wait l
  | .fenced => .fenced
  | x => if (remoteDests s die asid wr vas).any (cutOff s op) then .lost else x

/-- The addresses of positions of a view. -/
def addrsOf (s : State) (asid : Nat) (v : View) (ls : List Nat) : List Nat := (viewAddrs (handleEntry s asid v.handle) v ls).map Int.toNat

/-- R158: Rd8 of a view by an operation. -/
def opRead (s : State) (o : Op) (v : View) (l : Nat) : Byte :=
  if l < viewSize v then readVa s o.id (dieOf o.seq) o.asid v.scope.toNat (posAddr s o.asid v l).toNat else 0

/-! Tile writes (R59, R124). -/

/-- R59: an earlier row write of the operation's strand, still to land, takes the operation's change too; `cover` collects the bits that such a change sets,
for a resume (R195). -/
def patchPend (o : Op) (t r : Nat) (f : Row → Row) (p : Pend) : Pend :=
  if p.dest = .tileRow (BitVec.ofNat 4 t) (BitVec.ofNat 6 r) ∧ (p.tick < o.tick ∨ (p.tick = o.tick ∧ p.slot < o.slot)) then
    { p with payload := f p.payload, cover := p.cover ||| ~~~(f 0 ^^^ f (BitVec.allOnes 2048)) }
  else p

/-- R59: an operation changes a row of a tile of its core. -/
def tileWrite (o : Op) (t : Nat) (s : State) (x : Nat × (Row → Row)) : State :=
  let k := coreOf o.seq
  let c := coreAt s k
  let s1 := setCore s k (putTileRow c t x.1 (x.2 (tileRow c t x.1)))
  let sq := seqAt s1 o.seq
  setSeq s1 o.seq { sq with queue := sq.queue.map (patchPend o t x.1 x.2) }

/-- Whole rows of a tile from row 0 on. -/
def tileWriteAll (s : State) (o : Op) (t : Nat) (rows : List Row) : State :=
  (rows.zip (List.range rows.length)).foldl (fun s x => tileWrite o t s (x.2, fun _ => x.1)) s

/-! Loads and stores (R173, R174). -/

/-- R173, R174: a row that a load reads. -/
def loadRow (s : State) (o : Op) (v : View) (r : Option Nat) : Row :=
  match r with
  | none => 0
  | some k => rowOfBytes ((List.range 256).map (fun j => opRead s o v (k * 256 + j)))

/-- R351, R354: the destinations of a list to which an operation has no request yet; a resume finds those that have answered with their answers. -/
def notAsked (s : State) (op : Nat) (ds : List Nat) : List Nat := ds.filter (fun d => !(requestsOf s op).any (fun r => r.dest == d))

/-- VIEW_ACCESS_PERFORM (R173) of a load; bytes that a fenced package withholds read as zero (R354), and only the requests to it are repeated. -/
def performLoad (s : State) (o : Op) (t : Nat) (rows : RowList) (v : View) : State :=
  let die := dieOf o.seq
  let vas := addrsOf s o.asid v (rowPositions v rows)
  let ds := notAsked s o.id (remoteDests s die o.asid false vas)
  match reach s o.id die o.asid false vas with
  | .wait l => requestWalks s die o.asid l
  | .lost => failOpFree s o 0x30 0 0 0
  | .damaged => failOpFree s o 0x31 0 0 0
  | r =>
    if bankHeld s die o.asid vas || readsWait s die o.asid v.scope.toNat vas then s
    else if !ds.isEmpty then askReads s o.id die o.asid (o.rcls.getD 0) vas ds
    else if !allAnswered s o.id then s
    else
      let data := rows.map (loadRow s o v)
      let passed := fun (s : State) => passUncached s (placesOf s die o.asid false vas)
      if r == .fenced || anyPoison s o.id then failOpFree (tileWriteAll (passed (dropPoisoned s o.id)) o t data) o 0x34 5 0 0
      else setOp (passed (dropRequests s o.id)) { o with phase := .performed, result := data, pins := [] }

/-- R173, R174: the bytes that a store writes, in increasing position, each with its address. -/
def storeBytes (s : State) (o : Op) (tile : List Row) (rows : RowList) (v : View) : List (Nat × Byte) :=
  (rows.zip tile).flatMap (fun x => match x.1 with
    | none => []
    | some k => (inView v (k * 256) 256).map (fun l => ((posAddr s o.asid v l).toNat, rowByte x.2 (l % 256))))

/-- A write of bytes at virtual addresses: it waits, fails, or has been made; remote bytes are asked for first (R351). `failed` says what a
failure does with its cause and engine; after a time-out, only the requests to the fenced package are repeated (R354). -/
def performWrite (s : State) (o : Op) (l : List (Nat × Byte)) (failed : State → Nat → Nat → State) (made : State → State) : State :=
  let die := dieOf o.seq
  let vas := l.map Prod.fst
  let ds := notAsked s o.id (remoteDests s die o.asid true vas)
  let write := fun (s : State) => writeCells s die o.id (localCells s die o.asid l)
  match reach s o.id die o.asid true vas with
  | .wait p => requestWalks s die o.asid p
  | .lost => failed s 0x30 0
  | .damaged => failed s 0x31 0
  | r =>
    if bankHeld s die o.asid vas then s
    else if !ds.isEmpty then askWrites s o.id die o.asid (o.wcls.getD 0) l ds
    else if !allAnswered s o.id then s
    else if r == .fenced || anyPoison s o.id then failed (write (dropPoisoned s o.id)) 0x34 5
    else made (write (dropRequests s o.id))

/-- VIEW_ACCESS_PERFORM (R173) of a store. -/
def performStore (s : State) (o : Op) (tile : List Row) (rows : RowList) (v : View) : State :=
  performWrite s o (storeBytes s o tile rows v) (fun s c e => failOpFree s o c e 0 0) (fun s => opDone s { o with phase := .performed })

/-! Scratchpad transfers (R176). -/

/-- R176: an earlier scratchpad transfer of the stream has not performed. -/
def spadBehind (s : State) (o : Op) : Bool :=
  s.ops.any (fun a => a.seq == o.seq && decide (a.id < o.id) && (match a.kind with
    | .spadLoad _ _ => true
    | .spadStore _ _ => true
    | _ => false))

/-- R176: 64 rows of the scratchpad from a row address on. -/
def spadRows (c : CoreState) (a : Nat) : List Row := (List.range 64).map (fun r => spadRow c (a / 256 + r))

def putSpadRows (c : CoreState) (k : Nat) (l : List Row) : CoreState :=
  match l with
  | [] => c
  | r :: rest => putSpadRows (putSpadRow c k r) (k + 1) rest

/-! Copies (R179-R181). -/

/-- A place that two bytes share, as a number: the location, or the address on another package. -/
def placeKey (x : Xlate) : Nat :=
  match x with
  | .at_ loc => loc
  | .remote d _ a => 2 ^ 60 * (d + 1) + a
  | _ => 0

/-- R179: the bytes of a copy, read and written in increasing position: each with its destination's address. `done` has the places written. -/
def copyForward (s : State) (o : Op) (vs : View) (l : List (Nat × Nat × Nat × Nat)) (done : List (Nat × Byte)) : List (Nat × Byte) :=
  match l with
  | [] => []
  | x :: rest =>
    let b := (match done.find? (fun p => p.1 == x.2.1) with
      | some p => p.2
      | none => opRead s o vs x.1)
    (x.2.2.1, b) :: copyForward s o vs rest ((x.2.2.2, b) :: done)

/-- R179: the bytes of a copy of some positions: source position and place, destination address and place. -/
def copyPlan (s : State) (o : Op) (vd vs : View) (ls : List Nat) : List (Nat × Nat × Nat × Nat) :=
  let die := dieOf o.seq
  ls.map (fun l =>
    let a := (posAddr s o.asid vs l).toNat
    let d := (posAddr s o.asid vd l).toNat
    (l, placeKey (xlateLate s die o.asid a false), d, placeKey (xlateLate s die o.asid d true)))

/-- R179: the bytes that a copy writes for some positions. Where no source place is a destination place, each is as it stands. -/
def copyBytes (s : State) (o : Op) (vd vs : View) (ls : List Nat) : List (Nat × Byte) :=
  let l := copyPlan s o vd vs ls
  let lo := fun (k : List Nat) => k.foldl min (k.headD 0)
  let hi := fun (k : List Nat) => k.foldl max 0
  let ss := l.map (fun x => x.2.1)
  let ds := l.map (fun x => x.2.2.2)
  if hi ss < lo ds ∨ hi ds < lo ss then l.map (fun x => (x.2.2.1, opRead s o vs x.1)) else copyForward s o vs l []

/-- A copy whose payload has ended, with its status; it still pins its destination for a stamp (R153). -/
def withStatus (o : Op) (n : Nat) : Op :=
  match o.kind with
  | .copy vd vs dr sr q cq ev st _ =>
    { o with kind := .copy vd vs dr sr q cq ev st n, phase := .performed, pins := if vd.stamp = 0xFFFFFFFF then [] else [vd.handle] }
  | _ => o

/-- R180: a copy that fails has read the source of a position: the byte has a place here, undamaged and within reach, or another package has answered it. -/
def copyRead (s : State) (o : Op) (vs : View) (l : Nat) : Bool :=
  match xlateLate s (dieOf o.seq) o.asid (posAddr s o.asid vs l).toNat false with
  | .at_ loc => !s.damaged.contains loc && !channelHeld s loc && !(decide (3 ≤ vs.scope.toNat) && forwardsAhead s (dieOf o.seq) loc)
  | .remote dest _ a => hasRead s o.id dest a
  | _ => false

/-- R180: a copy that fails may have written the destination of a position. -/
def copyReaches (s : State) (o : Op) (vd : View) (l : Nat) : Bool :=
  match xlateLate s (dieOf o.seq) o.asid (posAddr s o.asid vd l).toNat true with
  | .at_ loc => !channelHeld s loc
  | _ => false

/-- R171, R180: the positions that a failing copy has copied: any of those that it could read and write, once nothing earlier holds it back (a free choice for
each). -/
def copiedPart (s : State) (o : Op) (vd vs : View) (n : Nat) : List Nat :=
  if mayPerform s o then (List.range n).filter (fun l => Config.copyWrote (s.free + l) && copyRead s o vs l && copyReaches s o vd l) else []

/-- R180: a copy ends in a failure: any part of its destination may hold the bytes that it has read. -/
def endCopy (s : State) (o : Op) (vd vs : View) (n status : Nat) : State :=
  let die := dieOf o.seq
  let ls := copiedPart s o vd vs n
  let s1 := passUncached (dropRequests s o.id) (placesOf s die o.asid false (addrsOf s o.asid vs ls))
  let s2 := writeCells s1 die o.id (localCells s die o.asid (copyBytes s o vd vs ls))
  setOp { s2 with free := s2.free + n } (withStatus o status)

/-- A write request of an operation exists. -/
def askedWrites (s : State) (op : Nat) : Bool :=
  (requestsOf s op).any (fun r => match r.kind with
    | .write _ => true
    | _ => false)

/-- R348: an access goes through a TIER 1 handle to another package. -/
def tierRefused (s : State) (o : Op) (v : View) (ds : List Nat) : Bool := !ds.isEmpty && (handleEntry s o.asid v.handle).tier == 1

/-- VIEW_ACCESS_PERFORM (R173) of a copy's payload (R179-R181). -/
def performCopy (s : State) (o : Op) (vd vs : View) : State :=
  let die := dieOf o.seq
  let n := min (viewSize vd) (viewSize vs)
  let sv := addrsOf s o.asid vs (List.range n)
  let dv := addrsOf s o.asid vd (List.range n)
  let rs := remoteDests s die o.asid false sv
  let ws := remoteDests s die o.asid true dv
  if vs.poison then endCopy s o vd vs n 4
  else if n = 0 then setOp s (withStatus o 0)
  else if tierRefused s o vs rs || tierRefused s o vd ws then endCopy s o vd vs n 1
  else
    match reach s o.id die o.asid false sv, reach s o.id die o.asid true dv with
    | .wait l, .wait m => requestWalks s die o.asid (distinct (l ++ m))
    | .wait l, _ => requestWalks s die o.asid l
    | _, .wait m => requestWalks s die o.asid m
    | .fenced, _ => endCopy s o vd vs n 5
    | .lost, _ => endCopy s o vd vs n 1
    | .damaged, _ => endCopy s o vd vs n 2
    | _, .fenced => endCopy s o vd vs n 5
    | _, .lost => endCopy s o vd vs n 1
    | _, .damaged => endCopy s o vd vs n 2
    | .ok, .ok =>
      if bankHeld s die o.asid (sv ++ dv) || readsWait s die o.asid vs.scope.toNat sv then s
      else if !rs.isEmpty && (requestsOf s o.id).isEmpty then askReads s o.id die o.asid vs.cls sv rs
      else if !allAnswered s o.id then s
      else if anyPoison s o.id then endCopy s o vd vs n 5
      else
        let l := copyBytes s o vd vs (List.range n)
        if !ws.isEmpty && !askedWrites s o.id then askWrites s o.id die o.asid vd.cls l ws
        else
          let s1 := passUncached (dropRequests s o.id) (placesOf s die o.asid false sv)
          setOp (writeCells s1 die o.id (localCells s die o.asid l)) (withStatus o 0)

/-- R125, R196: the copy at the head of copy queue cq of a core; one that has failed has left its entry and still keeps the later ones waiting. -/
def copyHead (s : State) (k cq : Nat) : Option Op := (copiesOf s k cq).head?

/-- R259: a copy that starts meets an offset that is no longer in scratch. -/
def meetsScratch (s : State) (o : Op) (vd vs : View) : Bool :=
  let n := min (viewSize vd) (viewSize vs)
  let lost := fun (v : View) (wr : Bool) => (addrsOf s o.asid v (List.range n)).any (fun va => xlate s (dieOf o.seq) o.asid va wr == .scratch)
  lost vs false || lost vd true

/-- COPY_START (R125). -/
def startCopy (s : State) (k cq : Nat) : State :=
  match copyHead s k cq with
  | none => s
  | some o =>
    match o.kind with
    | .copy vd vs dr sr q c ev false st =>
      if o.phase ≠ .queued ∨ !engineMoves s o then s
      else if meetsScratch s o vd vs then endCopy (spend s o) o vd vs (min (viewSize vd) (viewSize vs)) 1
      else setOp (spend s o) { o with kind := .copy vd vs dr sr q c ev true st }
    | _ => s

/-- R180: every write that the strand issued before a copy has performed at a scope, stamps included. -/
def writesBefore (s : State) (o : Op) (sc : Nat) : Bool :=
  s.ops.all (fun a => a.seq != o.seq || decide (o.id ≤ a.id) || poisonedOp s a || !(accessesOf a).any (fun x => x.2.2) || orderDone s a sc)

/-- R180: the cause of a copy's status. -/
def copyCause (status : Nat) : Nat :=
  match status with
  | 1 => 0x30
  | 2 => 0x31
  | 4 => 0x33
  | _ => 0x34

/-- R294, R295: the COPY event. -/
def copyEvent (s : State) (o : Op) (status : Nat) (seqno : Word) : State :=
  let sq := seqAt s o.seq
  postEvent s (dieOf o.seq) (eventRecord 3 (BitVec.ofNat 64 (status * 2 ^ 32 + seqno.toNat)) sq.task sq.team.toNat sq.strand.toNat
    (if isSteward (coreOf o.seq) then 0 else quadOf o.seq % 16))

/-- R180, R295: a copy's entry leaves its queue, after its stamp: its event, for which it waits while the event queue is full, and for a failed copy the
report. -/
def leaveCopy (s : State) (o : Op) (status : Nat) (seqno : Word) (cq : Nat) (ev : Bool) : State :=
  if ev && !eventRoom s (dieOf o.seq) then s
  else
    let s1 := if ev then copyEvent s o status seqno else s
    if status = 0 then opDone s1 o else finishStrand (failOpFree s1 { o with pins := [] } (copyCause status) 1 cq 0) o.seq

/-- R180: the copy with its status, its stamp written or given up. -/
def stampDone (o : Op) (status : Nat) : Op := { withStatus o status with result := [0], pins := [] }

/-- COPY_COMPLETE (R171, R172, R180): the stamp is written last, as one store, once the payload and every earlier write of the strand have performed and
nothing earlier that its class, a meeting of views or a FENCE orders before the copy is left: a copy that has lost its scratch has not met that order yet. A stamp word that has lost its translation is not written (log 13), nor is one on a page of
another package through a TIER 1 handle (R348). Without a stamp the entry leaves where it would have been written, after the earlier writes (log 114). -/
def completeCopy (s : State) (o : Op) (vd : View) (seqno : Word) (cq : Nat) (ev : Bool) (status : Nat) : State :=
  let sc := vd.scope.toNat
  let leaves := fun (s : State) (n : Nat) => leaveCopy (setOp s (stampDone o n)) (stampDone o n) n seqno cq ev
  if copyStamped o then leaveCopy s o status seqno cq ev
  else if !performedAt s o sc || !writesBefore s o sc || !mayPerform s o then s
  else if vd.stamp = 0xFFFFFFFF then leaves s status
  else
    let a := (handleEntry s o.asid vd.handle).base + vd.stamp.toNat
    let bytes := leBytes 8 (status * 2 ^ 32 + seqno.toNat)
    let failed := fun (s : State) (c : Nat) =>
      leaves (dropRequests s o.id) (if status ≠ 0 then status else if c = 0x30 then 1 else if c = 0x31 then 2 else 5)
    if tierRefused s o vd (remoteDests s (dieOf o.seq) o.asid true ((List.range 8).map (fun j => a + j))) then failed s 0x30
    else
      performWrite s o ((List.range 8).map (fun j => (a + j, bytes.getD j 0))) (fun s c _ => failed s c) (fun s => leaves s status)

/-! Atomics (R265-R269). -/

/-- R268: the word that an atomic leaves, and its flags. -/
def atomicNew (op : AtomicOp) (old x y : Word) (mode : BitVec 2) : Word × Flags :=
  match op with
  | .add => (old + x, 0)
  | .smin => (if x.slt old then x else old, 0)
  | .smax => (if old.slt x then x else old, 0)
  | .umin => (if x.ult old then x else old, 0)
  | .umax => (if old.ult x then x else old, 0)
  | .and => (old &&& x, 0)
  | .or => (old ||| x, 0)
  | .xor => (old ^^^ x, 0)
  | .xchg => (x, 0)
  | .cas => (if old = x then y else old, 0)
  | .incb => (if old.ult x then old + 1 else old, 0)
  | .fadd =>
    let r := roundTo 0 mode (addVal mode (decodeFloat 0 old.toNat) (decodeFloat 0 x.toNat))
    (BitVec.ofNat 32 r.1, r.2)
  | .faddh =>
    let half := fun (k : Nat) => roundTo 2 mode
      (addVal mode (decodeFloat 2 (old.toNat / 2 ^ k % 2 ^ 16)) (decodeFloat 2 (x.toNat / 2 ^ k % 2 ^ 16)))
    (BitVec.ofNat 32 ((half 16).1 * 2 ^ 16 + (half 0).1), (half 0).2 ||| (half 16).2)
  | .load => (old, 0)
  | .store => (x, 0)

/-- The word at a location. -/
def wordAtLoc (s : State) (loc : Nat) : Word := BitVec.ofNat 32 (natOfBytes (memBytes s.mem loc 4))

/-- R264, R265, R320: an atomic on the word at a location, by an agent of a die: it waits for the writes of that die ahead of it, and performs
at the home. AST is a write, and ALD a read at its scope. -/
def atomicAt (s : State) (o : Op) (op : AtomicOp) (x y : Word) (sc : Nat) (mode : BitVec 2) (loc : Nat) : Option (State × Word × Flags) :=
  let die := dieOf o.seq
  match op with
  | .store =>
    let s1 := if homeDie loc = some die ∧ uncachedLine s loc = false then forwardLine s loc else s
    some (writeCells s1 die o.id ((List.range 4).map (fun j => (loc + j, rowByte (x.setWidth 2048) j))), 0, 0)
  | .load =>
    if decide (3 ≤ sc) && forwardsAhead s die loc then none
    else some (passLine s loc (uncachedLine s loc), BitVec.ofNat 32 (natOfBytes ((List.range 4).map (fun j => readByte s die sc (loc + j)))), 0)
  | _ =>
    if forwardsAhead s die loc then none
    else
      let old := wordAtLoc s loc
      let r := atomicNew op old x y mode
      some ({ forwardLine s loc with mem := memPutBytes s.mem loc (leBytes 4 r.1.toNat) }, old, r.2)

/-- R352: the request of an atomic, or of element elem of an ARED, on a word of destination dest: a UALink atomic where the destination has the operation's
ATOM bit, else the device's own message; ALD and AST go as a read and a write. -/
def atomicRequest (s : State) (dest : Nat) (op : AtomicOp) (x y : Word) (mode : BitVec 2) (a elem : Nat) : RequestKind :=
  let ualink := (match atomBit op with
    | some k => (destAt s dest).atom.getLsbD k
    | none => false)
  match op with
  | .load => .read ((List.range 4).map (fun j => a + j))
  | .store => .write ((List.range 4).map (fun j => (a + j, rowByte (x.setWidth 2048) j)))
  | _ => .atomic a op x y mode (!ualink) elem

/-- R266, R351: an atomic has performed with its old value. -/
def atomicDone (s : State) (o : Op) (op : AtomicOp) (old : Word) (fl : Flags) : State :=
  let o1 := { o with phase := .performed, flags := fl, result := [old.setWidth 2048], pins := [] }
  if op = .store then opDone s o1 else setOp s o1

/-- ATOMIC_BANK_OPERATION (R265) of an atomic. -/
def performAtomic (s : State) (o : Op) (op : AtomicOp) (x y : Word) (index : Nat) (v : View) (sc mode : BitVec 2) : State :=
  let die := dieOf o.seq
  let vas := addrsOf s o.asid v ((List.range 4).map (fun j => 4 * index + j))
  let a := vas.headD 0
  match reach s o.id die o.asid true vas with
  | .wait l => requestWalks s die o.asid l
  | .lost => failOpFree s o 0x30 0 0 0
  | .damaged => failOpFree s o 0x31 0 0 0
  | .fenced => failOpFree s o 0x34 5 0 0
  | .ok =>
    if bankHeld s die o.asid vas then s
    else
      match xlateLate s die o.asid a true with
      | .remote dest _ r =>
        (match requestsOf s o.id with
          | [] => addRequest s o.id dest v.cls (atomicRequest s dest op x y mode r 0)
          | q :: _ =>
            if !q.answered then s
            else if q.poison then failOpFree (dropRequests s o.id) o 0x34 5 0 0
            else
              let old : Word := BitVec.ofNat 32 (natOfBytes (q.answer.take 4))
              atomicDone (dropRequests s o.id) o op old (atomicNew op old x y mode).2)
      | .at_ loc =>
        (match atomicAt s o op x y (sc.toNat + 1) mode loc with
          | none => s
          | some r => atomicDone r.1 o op r.2.1 r.2.2)
      | _ => s

/-- R269: the words of an ARED still to be added, and its flags. -/
def aredLeft (o : Op) (left : List Nat) (fl : Flags) : Op :=
  match o.kind with
  | .ared tile first v mode _ => { o with flags := o.flags ||| fl, kind := .ared tile first v mode left }
  | _ => o

/-- R269: the request of element k of an ARED. -/
def requestFor (s : State) (op k : Nat) : Option Request :=
  (requestsOf s op).find? (fun r => match r.kind with
    | .atomic _ _ _ _ _ _ e => e == k
    | _ => false)

/-- R269: element k of an ARED has been added. -/
def aredDone (s : State) (o : Op) (left : List Nat) (fl : Flags) : State :=
  let o1 := aredLeft o left fl
  if left.isEmpty then opDone (dropRequests s o.id) { o1 with phase := .performed } else setOp s o1

/-- R349, R351: the destination of an element of an ARED may not be reached any more, and its request has not gone there before. -/
def elementCut (s : State) (op k dest : Nat) : Bool :=
  !(destAt s dest).valid && !(requestFor s op k).any (fun r => r.sent.isSome || r.answered)

/-- ATOMIC_BANK_OPERATION (R265) of element k of an ARED, as 64r + j. An element whose request came back with poison is asked for again after the resume; the
answers to the others stand (R353, R354). -/
def performAred (s : State) (o : Op) (k : Nat) (tile : List Row) (first : Nat) (v : View) (mode : BitVec 2) (left : List Nat) : State :=
  let die := dieOf o.seq
  let vas := addrsOf s o.asid v ((List.range 4).map (fun j => (first + k / 64) * 256 + 4 * (k % 64) + j))
  let a := vas.headD 0
  let x : Word := BitVec.ofNat 32 (elemAt 0 (tile.getD (k / 64) 0) (k % 64))
  let rest := left.filter (fun j => j != k)
  if left.isEmpty then opDone s { o with phase := .performed }
  else if !left.contains k then s
  else
    match reachPages s die o.asid true vas with
    | .wait l => requestWalks s die o.asid l
    | .lost => failOpFree s o 0x30 0 0 0
    | .damaged => failOpFree s o 0x31 0 0 0
    | .fenced => failOpFree s o 0x34 5 0 0
    | .ok =>
      if bankHeld s die o.asid vas then s
      else
        match xlateLate s die o.asid a true with
        | .remote dest _ r =>
          if elementCut s o.id k dest then failOpFree s o 0x30 0 0 0
          else (match requestFor s o.id k with
            | none => addRequest s o.id dest (o.wcls.getD 0) (atomicRequest s dest .fadd x 0 mode r k)
            | some q =>
              if !q.answered then s
              else if q.poison then failOpFree (removeRequest s q.id) o 0x34 5 0 0
              else aredDone s o rest (atomicNew .fadd (BitVec.ofNat 32 (natOfBytes (q.answer.take 4))) x 0 mode).2)
        | .at_ loc =>
          (match atomicAt s o .fadd x 0 1 mode loc with
            | none => s
            | some r => aredDone r.1 o rest r.2.2)
        | _ => s

/-- R58: a queue entry that still targets a register when its result arrives is superseded. -/
def supersede (r : Nat) (tick : Nat) (p : Pend) : Pend :=
  if p.dest = .scalar (BitVec.ofNat 5 r) then { p with superseded := some (match p.superseded with
    | some t => min t tick
    | none => tick) }
  else p

/-- R58, R80, R200: the old value of an atomic lands in its register and in b5, and clears the mark; a region opened since has it in its snapshot, unless the
register was mapped to a queue then. A region that unwinds drops the results of its own ticks. -/
def landResult (sq : Seq) (o : Op) (d : BitVec 6) (x : Word) : Seq :=
  let r := d.toNat % 32
  let mark : BitVec 33 := 1#33 <<< (if d.getLsbD 5 then 32 else r)
  let clear := { sq with busy := sq.busy &&& ~~~mark }
  let dropped :=
    (match sq.unwind, sq.regions with
      | some _, g :: _ => decide (g.tick ≤ o.tick)
      | _, _ => false)
  if dropped then clear
  else
    let sq1 := { clear with latches := vput clear.latches 5 x }
    if d.getLsbD 5 then sq1
    else
      let snap := fun (g : Region) => if o.tick < g.tick && !mappedIn g (BitVec.ofNat 5 r) then { g with regs := vput g.regs r x } else g
      { sq1 with regs := if isMapped sq r then sq1.regs else vput sq1.regs r x, queue := sq1.queue.map (supersede r o.tick),
                 regions := sq1.regions.map snap }

/-- R58: the result of an atomic that has performed lands, and the atomic is complete. -/
def landAtomic (s : State) (o : Op) : State :=
  match o.kind with
  | .atomic _ d _ _ _ _ _ _ _ => opDone (setSeq s o.seq (landResult (seqAt s o.seq) o d ((o.result.headD 0).setWidth 32))) o
  | _ => s

/-- R195: a result that arrives during a stop is held. -/
def noteArrival (sq : Seq) (o : Op) : Seq :=
  match o.kind with
  | .atomic _ _ _ _ _ _ _ _ _ => if sq.arrived.contains o.id then sq else { sq with arrived := sq.arrived ++ [o.id] }
  | _ => sq

/-- R195: the results that arrived during the stop of sequencer q land, in the order of their arrival. -/
def landArrived (s : State) (q : Nat) : State :=
  (seqAt s q).arrived.foldl (fun s n => match opAt s n with
    | some o => landAtomic s o
    | none => s) (setSeq s q { seqAt s q with arrived := [] })

/-- VARIABLE_RESULT_ARRIVAL (R58); while the strand is stopped, the result is held for its resume (R195). -/
def resultArrives (s : State) (n : Nat) : State :=
  onOp s n (fun o => o.phase == .performed && engineMoves s o) (fun s o =>
    if (seqAt s o.seq).status = .faulted then setSeq s o.seq (noteArrival (seqAt s o.seq) o) else landAtomic s o)

/-! Retires (R165, R201). -/

/-- Two views are one geometry. -/
def sameView (a b : View) : Bool := a.handle == b.handle && a.off == b.off && a.xt == b.xt && a.sd == b.sd

/-- R165, R166, R354: an earlier operation of the strand goes through view register reg, and has not performed at a scope; a copy has not written its stamp
there. -/
def retireWaits (s : State) (o : Op) (reg sc : Nat) : Bool :=
  s.ops.any (fun a => a.seq == o.seq && decide (a.id < o.id) && a.via.contains reg && !poisonedOp s a && !orderDone s a sc)

/-- RETIRE_COMPLETE (R165): RETIRING and the registration are cleared; a poisoned retire sets POISON (R201). -/
def retireCompletes (s : State) (n : Nat) : State :=
  onOp s n (fun o => match o.kind with
      | .retire reg v _ => o.phase == .queued && engineMoves s o && !retireWaits s o reg v.scope.toNat
      | _ => false) (fun s o =>
    match o.kind with
    | .retire reg v poison =>
      let sq := seqAt s o.seq
      let w := viewAt sq reg
      let s1 := setSeq s o.seq (putView sq reg { w with retiring := false, poison := w.poison || poison })
      let s2 := unregisterView s1 o.seq reg
      opDone (if v.handle = 0 then s2 else recordPoison s2 o.seq (taskOf sq) o.asid v poison (flockDies v (dieOf o.seq))) o
    | _ => s)

/-! Messages (R271, R272). -/

/-- R272: the smallest scope that holds the producer and the consumer core of a message. -/
def meetScope (q : Nat) (a : Word) (here : Bool) : Nat :=
  let k := (sendTarget a).1
  if !here then 3
  else if coreOf q = k then 0
  else if coreOf q < 1024 ∧ coreOf q / 4 = k / 4 then 1
  else if dieOf q = k / 64 then 2
  else 3

/-- R271: the ring that SEND's operand names, as the package (0 for the issuing one), the core and the ring. -/
def ringKey (s : State) (a : Word) : Nat × Nat × Nat := (if sendsHere s a then 0 else 1 + a.toNat / 2 ^ 16 % 2 ^ 10, sendTarget a)

/-- R272: an earlier message of the strand to the ring has not been delivered. -/
def sendBehind (s : State) (o : Op) (a : Word) : Bool :=
  s.ops.any (fun b => b.seq == o.seq && decide (b.id < o.id) && b.phase == .queued && (match b.kind with
    | .send _ c => ringKey s c == ringKey s a
    | _ => false))

/-- R316: a barrier message that has left the producer's die for the consumer's is still on its way. -/
def meshBehind (s : State) (o : Op) (a : Word) : Bool :=
  let d := (sendTarget a).1 / 64
  sendsHere s a && d != dieOf o.seq && s.barMsgs.any (fun m => m.src == dieOf o.seq && m.die == d)

/-- R271: a message is delivered into the slot TAIL of its ring, and TAIL and COUNT advance. -/
def deliverRow (s : State) (k n : Nat) (row : Row) : State :=
  let c := coreAt s k
  let r := tget Ring.reset c.rings n
  let c1 := putSpadRow c ((ringSlot r r.tail).toNat / 256) row
  setCore s k { c1 with rings := tput c1.rings n { r with tail := (r.tail + 1) % (r.nslot.toNat + 1), count := r.count + 1 } }

/-- R271: the status word of a denied SEND. -/
def deniedStatus : BitVec 64 := BitVec.ofNat 64 (0x28 * 2 ^ 32)

/-- MESSAGE_DELIVERY (R272): a message reaches its ring after the writes that its strand issued before it; one for another package is sent as a
request, unless its VALID has been cleared (R349). A message whose ring is in a suspended set waits for it (R307), and one whose ring has been taken away, or
whose operand a resume meets again with nonzero bits [30:26], is denied. -/
def deliver (s : State) (n : Nat) : State :=
  onOp s n (fun o => mayMove s o && (match o.kind with
      | .send _ a => !sendBehind s o a && !meshBehind s o a && writesBefore s o (meetScope o.seq a (sendsHere s a))
      | _ => false)) (fun s o =>
    match o.kind with
    | .send row a =>
      let x := sendTarget a
      if sendReserved a then failOp s o 0x3F (if sendsHere s a then 0 else 5) 0 deniedStatus 0
      else if sendsHere s a then
        let r := tget Ring.reset (coreAt s x.1).rings x.2
        if !ringMine s o.seq r then (if ringSuspended s o.seq a then s else failOp s o 0x3F 0 0 deniedStatus 0)
        else if r.nslot.toNat + 1 ≤ r.count then s
        else opDone (deliverRow s x.1 x.2 row) { o with phase := .performed }
      else
        let d := a.toNat / 2 ^ 16 % 2 ^ 10
        match requestsOf s o.id with
        | [] => if !(destAt s d).fenced && cutOff s o.id d then failOpFree s o 0x30 0 0 0 else addRequest s o.id d 0 (.message a row)
        | q :: _ =>
          if !q.answered then (if cutOff s o.id d then failOpFree (dropRequests s o.id) o 0x30 0 0 0 else s)
          else if q.poison then failOpFree (dropRequests s o.id) o 0x34 5 0 0
          else opDone (dropRequests s o.id) { o with phase := .performed }
    | _ => s)

/-! The steps. -/

/-- VIEW_ACCESS_PERFORM (R173): the payload of a tile load or store, of a scratchpad store, or of a copy performs. -/
def accessPerforms (s : State) (n : Nat) : State :=
  onOp s n (mayMove s) (fun s o =>
    match o.kind with
    | .load t rows v => performLoad s o t rows v
    | .store tile rows v => performStore s o tile rows v
    | .spadStore tile a =>
      if spadBehind s o then s
      else
        let k := coreOf o.seq
        opDone (setCore s k (putSpadRows (coreAt s k) (a / 256) tile)) { o with phase := .performed }
    | .copy vd vs _ _ _ _ _ true _ => performCopy s o vd vs
    | _ => s)

/-- TILE_WRITE_COMPLETE (R124): the rows of a load that has performed, of a scratchpad load, or of TZERO and TMOVT are in the tile. -/
def tileCompletes (s : State) (n : Nat) : State :=
  onOp s n (fun o => engineMoves s o && (o.phase == .performed || (o.phase == .queued && mayPerform s o))) (fun s o =>
    match o.kind, o.phase with
    | .load t _ _, .performed => opDone (tileWriteAll s o t o.result) { o with phase := .performed, result := [] }
    | .spadLoad t a, .queued =>
      if spadBehind s o then s
      else opDone (tileWriteAll s o t (spadRows (coreAt s (coreOf o.seq)) a)) { o with phase := .performed }
    | .tileSet t tile, .queued => opDone (tileWriteAll s o t tile) { o with phase := .performed }
    | _, _ => s)

/-- COPY_COMPLETE (R180). -/
def copyCompletes (s : State) (n : Nat) : State :=
  onOp s n (fun o => o.phase == .performed && engineMoves s o) (fun s o =>
    match o.kind with
    | .copy vd _ _ _ seqno cq ev _ status => completeCopy s o vd seqno cq ev status
    | _ => s)

/-- ATOMIC_BANK_OPERATION (R265): the atomic, or element k of an ARED. -/
def bankOperates (s : State) (n k : Nat) : State :=
  onOp s n (mayMove s) (fun s o =>
    match o.kind with
    | .atomic op _ x y index v _ sc mode => performAtomic s o op x y index v sc mode
    | .ared tile first v mode left => performAred s o k tile first v mode left
    | _ => s)

/-- R316, R318: an earlier write of the same proxy slice to the same home has not been performed. -/
def forwardBehind (s : State) (f : Forward) : Bool :=
  let home := fun (x : Forward) => x.cells.head?.map (fun c => homeOf c.1)
  s.forwards.any (fun g => g.die == f.die && g.slice == f.slice && home g == home f && decide (g.id < f.id))

/-- R318, R320: an operation that waits only for its writes has none left on their way, and ends. -/
def endDrained (s : State) (n : Nat) : State :=
  match opAt s n with
  | some o => if o.phase = .drained ∧ !s.forwards.any (fun g => g.op == n) then finishStrand (pruneFences (dropOp s n) o.seq) o.seq else s
  | none => s

/-- LINE_INVALIDATE (R318, R320): write n of a proxy of a die reaches its home, after those of the proxy to that home before it: the other dies' copies of the line
are invalidated and the home performs it, once no strand holds its pseudo-channel (R275). Writes of other slices and to other homes come in any order (R316). -/
def lineInvalidates (s : State) (n : Nat) : State :=
  match s.forwards.find? (fun f => f.id == n && !forwardBehind s f && !forwardHeld s f) with
  | none => s
  | some f => endDrained (performForward s f) f.op

def execTileWriteComplete (op : Nat) (s : State) : Host.Outcome State Fault Refusal := .next (tileCompletes s op)
def execViewAccessPerform (op : Nat) (s : State) : Host.Outcome State Fault Refusal := .next (accessPerforms s op)
def execCopyStart (core cq : Nat) (s : State) : Host.Outcome State Fault Refusal := .next (startCopy s core cq)
def execCopyComplete (op : Nat) (s : State) : Host.Outcome State Fault Refusal := .next (copyCompletes s op)
def execRetireComplete (op : Nat) (s : State) : Host.Outcome State Fault Refusal := .next (retireCompletes s op)
def execVariableResultArrival (op : Nat) (s : State) : Host.Outcome State Fault Refusal := .next (resultArrives s op)
def execMessageDelivery (op : Nat) (s : State) : Host.Outcome State Fault Refusal := .next (deliver s op)
def execLineInvalidate (write : Nat) (s : State) : Host.Outcome State Fault Refusal := .next (lineInvalidates s write)

end Sys2Proof.Machine
end

