-- ==== Sys2Proof/Machine/Compute.lean ====
section
/-! DEFINITION. Sys2Proof/Machine/Compute.lean: the steps of the units that compute: placed operations at their homes (R243-R253), the central
array with its lease (R211-R217, R232), the BANK units (R273-R280), and the walkers (R262, R349). -/

namespace Sys2Proof.Machine

/-! Placed operations. -/

/-- The exact sum of finite and infinite values, from the left (R99). -/
def exactSum (mode : RMode) (l : List Val) : Val :=
  match l with
  | [] => .fin false 0 0
  | x :: rest => rest.foldl (addVal mode) x

/-- R248: the sum of exact terms: a NaN for a NaN among them or infinities of both signs, signalling for one that is, for an invalid product and
for the infinities. -/
def termSum (mode : RMode) (l : List Val) : Val :=
  let both := l.contains (.inf false) && l.contains (.inf true)
  if l.any isNan || both then .nan (l.any isSig || both) else exactSum mode l

/-- R248: a sum rounded once. -/
def sumCode (fmt : Nat) (mode : RMode) (l : List Val) : Nat × Flags := roundTo fmt mode (termSum mode l)

/-- R251: the exact products of two lists of codes. -/
def products (fmt : Nat) (a b : List Nat) : List Val := (a.zip b).map (fun x => mulVal (decodeFloat fmt x.1) (decodeFloat fmt x.2))

/-- R249: one element of an element-wise operation. -/
def placedElem (op : PlacedOp) (fmt : Nat) (mode : RMode) (a b : Nat) : Nat × Flags :=
  match op with
  | .add => elemAdd fmt mode a b
  | .sub => elemSub fmt mode a b
  | .mul => elemMul fmt mode a b
  | _ => elemPick fmt true a b

/-- R252: the columns of the second source of TMM, each as a list. -/
def mmColumns (b : List Nat) (nc n : Nat) (trb : Bool) : List (List Nat) :=
  if trb then chunks nc n b else (List.range n).map (fun j => (chunks n nc b).map (fun r => r.getD j 0))

/-- R249-R252: the elements of the result in row-major order, with their flags: a is nr rows of nc elements; n is the rows of b, for TMM the
columns of the result. -/
def placedResult (op : PlacedOp) (fmt : Nat) (mode : RMode) (a b : List Nat) (nr nc n : Nat) (trb : Bool) : List (Nat × Flags) :=
  let rows := chunks nc nr a
  match op with
  | .red => rows.map (fun r => sumCode fmt mode (r.map (decodeFloat fmt)))
  | .mv => rows.map (fun r => sumCode fmt mode (products fmt r b))
  | .mm => rows.flatMap (fun r => (mmColumns b nc n trb).map (fun c => sumCode fmt mode (products fmt r c)))
  | _ =>
    let second := if n = 1 then List.replicate nr (b.take nc) else chunks nc nr b
    (rows.zip second).flatMap (fun x => (x.1.zip x.2).map (fun y => placedElem op fmt mode y.1 y.2))

/-- R122: a floating code is within the bounds of a view. -/
def inBounds (fmt : Nat) (v : View) (code : Nat) : Bool :=
  let x := decodeFloat fmt code
  let lo := decodeFloat 0 v.blo.toNat
  let hi := decodeFloat 0 v.bhi.toNat
  !v.ben || (!isNan x && !isNan lo && !isNan hi && !ltVal x lo && !ltVal hi x)

/-- R197: the first element of a result that is out of the view's bounds. -/
def firstOut (fmt : Nat) (v : View) (l : List (Nat × Flags)) : Option Nat :=
  (List.range l.length).find? (fun k => !inBounds fmt v (l.getD k (0, 0)).1)

/-- R245: ENGINE of a failure at a home. -/
def placedEngine (home : Nat) : Nat :=
  match home with
  | 0 => 0
  | 1 => 3
  | 2 => 4
  | 3 => 2
  | _ => 5

/-- R253: the placement counter of a home. -/
def placedCounter (home : Nat) : Nat := if home = 3 then 4 else if home = 4 then 3 else home

/-- R253: the counter of a class plus one operation and its bytes. -/
def countPlaced (s : State) (k home shipped : Nat) : State :=
  let c := coreAt s k
  let n := placedCounter home
  let x := (vget 0 c.placed n).toNat
  let y := (x / 2 ^ 40 + 1) % 2 ^ 24 * 2 ^ 40 + (x % 2 ^ 40 + shipped) % 2 ^ 40
  setCore s k { c with placed := vput c.placed n (BitVec.ofNat 64 y) }

/-- The bytes of a result, low byte first. -/
def resultBytes (l : List (Nat × Flags)) : List Byte := l.flatMap (fun x => leBytes 2 x.1)

/-- R235: the bytes written through a tile view, each with its offset in the tile file, in increasing position. -/
def tileViewBytes (v : View) (l : List Byte) : List (Nat × Byte) :=
  (l.zip (List.range l.length)).map (fun x => ((viewOffset v x.2).toNat, x.1))

/-- A row with the bytes of a list that fall in it written in order. -/
def rowPatch (k : Nat) (l : List (Nat × Byte)) (r : Row) : Row :=
  l.foldl (fun r x => if x.1 / 256 = k then rowPut r (8 * (x.1 % 256)) 8 x.2 else r) r

/-- R243: bytes at offsets of the tile file written by an operation. -/
def writeTileBytes (s : State) (o : Op) (l : List (Nat × Byte)) : State :=
  (distinct (l.map (fun x => x.1 / 256))).foldl (fun s k => tileWrite o (k / 64) s (k % 64, rowPatch k l)) s

/-- R232, R245: what stands for the storage of a quad's array, and for the units that compute placed operations of a core, among the places that
may hold an uncorrectable error (log 73). -/
def arrayStorage (quad : Nat) : Nat := location (64 + quad) 0
def computeUnits (core : Nat) : Nat := location (320 + core) 0

/-- R245: an uncorrectable error is met during a placed operation's compute. -/
def computeFails (s : State) (o : Op) (home : Nat) : Bool :=
  s.damaged.contains (computeUnits (coreOf o.seq)) || (home == 3 && s.damaged.contains (arrayStorage (quadOf o.seq)))

/-- R265: what a computation at a slice writes to the slice's own lines, scratch and cached ones, passes its forwarding buffer; a line of an uncached slice passes
it as every access does (R257). -/
def passSlices (s : State) (home : Option Nat) (locs : List Nat) : State :=
  match home with
  | none => s
  | some n =>
    let own := locs.filter (fun l => !uncachedLine s l && (homeDie l).map (fun d => 32 * d + sliceOf l) == some n)
    (distinct (own.map (fun l => lineOf l * 256))).foldl forwardLine s

/-- R246: the opcode of a placed operation, as R232 has it. -/
def placedOpcode (op : PlacedOp) : Nat :=
  match op with
  | .add => 0x10
  | .sub => 0x11
  | .mul => 0x12
  | .max => 0x13
  | .red => 0x14
  | .mv => 0x15
  | .mm => 0x16

/-- R191, R232, R246: the status word of a placed operation that fails: a risen one is an array command, with its opcode, DETAIL 0 and the reserved bits 0;
ROW, COL and ACC, which name places of an accumulator, and the word of another home are free values (log 144). -/
def placedStatus (s : State) (op : PlacedOp) (home : Nat) : State × BitVec 64 :=
  let x := freeStatus s
  (x.1, if home = 3 then BitVec.ofNat 64 (placedOpcode op * 2 ^ 32) ||| (x.2 &&& 0xFFFF07) else x.2)

/-- R245: a placed operation fails at its home. -/
def failPlaced (s : State) (o : Op) (op : PlacedOp) (home cause : Nat) (aux1 : Word) : State :=
  let x := placedStatus s op home
  failOp x.1 o cause (placedEngine home) 0 x.2 aux1

/-- R243, R247, R253: a placed operation's compute and write-back. -/
def performPlaced (s : State) (o : Op) : State :=
  match o.kind with
  | .placed op vd _ _ fmt a b nr nc n trb mode home shipped =>
    let l := placedResult op fmt mode a b nr nc n trb
    let fl := l.foldl (fun f x => f ||| x.2) 0
    let done := fun (s : State) =>
      opDone (countPlaced s (coreOf o.seq) home shipped) { o with phase := .performed, flags := fl }
    if computeFails s o home then failPlaced s o op home 0x31 0
    else (match firstOut fmt vd l with
      | some k => failPlaced s o op home 0x29 (BitVec.ofNat 32 k)
      | none =>
        if vd.handle = 0 then done (writeTileBytes s o (tileViewBytes vd (resultBytes l)))
        else
          let bytes := ((resultBytes l).zip (List.range (2 * l.length))).map (fun x => ((posAddr s o.asid vd x.2).toNat, x.1))
          let locs := placesOf s (dieOf o.seq) o.asid true (bytes.map Prod.fst)
          performWrite s o bytes (fun s c _ => failPlaced s o op home c 0) (fun s => done (passSlices s o.slice locs)))
  | _ => s

/-! The lease of a quad's array (R211, R213). -/

/-- The next waiting core after core c in the order of R211. -/
def nextWaiting (s : State) (quad c : Nat) : Option Nat :=
  [(c + 1) % 4, (c + 2) % 4, (c + 3) % 4].find? (leaseWaits s quad)

/-- R304: the offset of a team's array block in its task's CKH allocation. -/
def arrayBlock (team : Nat) : Nat := 0x2B8000 * team + 0x225000

/-- The task and the team of a team's number. -/
def teamTask (key : Nat) : Nat := key / 2 ^ 16
def teamIndex (key : Nat) : Nat := key % 2 ^ 16

/-- R211, R304: the state of the team that leaves the array is saved, in its CKH block or in firmware memory; that of a team that is no longer
on the quad is not. -/
def saveArray (s : State) (quad key : Nat) : State :=
  match taskNo s (teamTask key) with
  | none => s
  | some t =>
    let x := teamAt t (teamIndex key)
    let y := quadAt s quad
    if (x.phase != .placed && x.phase != .landing) || x.quad != quad then s
    else if t.info.ckh = 0 then setQuad s quad { y with saved := tput y.saved key y.array }
    else writeVirtual s t.asid (t.ckBase + arrayBlock (teamIndex key)) (arrayImage y.array)

/-- R211, R304: the state of the team that takes the array: what it has saved, or the reset state at its first lease. -/
def savedArray (s : State) (quad key : Nat) : ArrayState :=
  match taskNo s (teamTask key) with
  | none => ArrayState.reset
  | some t =>
    if !(teamAt t (teamIndex key)).leased then ArrayState.reset
    else if t.info.ckh = 0 then tget ArrayState.reset (quadAt s quad).saved key
    else arrayOfImage (virtualBytes s t.asid (t.ckBase + arrayBlock (teamIndex key)) 602112)

/-- R257: the read of the state that a team takes passes the forwarding buffers of uncached slices, where it stands in memory. -/
def passArray (s : State) (key : Nat) : State :=
  match taskNo s (teamTask key) with
  | none => s
  | some t =>
    if (teamAt t (teamIndex key)).leased && t.info.ckh != 0 then passVirtual s t.asid (t.ckBase + arrayBlock (teamIndex key)) 602112 else s

/-- R304: the team has taken a lease. -/
def markLeased (s : State) (key : Nat) : State :=
  match taskNo s (teamTask key) with
  | none => s
  | some t => setTask s (teamTask key) (putTeam t (teamIndex key) { teamAt t (teamIndex key) with leased := true })

/-- R211: the handover of the array's state to the team of a core. -/
def handOver (s : State) (quad c : Nat) : State :=
  match (coreAt s (quad * 4 + c)).team with
  | none => s
  | some key =>
    if (quadAt s quad).owner = some key then s
    else
      let s1 := (match (quadAt s quad).owner with
        | some old => saveArray s quad old
        | none => s)
      let x := savedArray s1 quad key
      let s2 := markLeased (passArray s1 key) key
      setQuad s2 quad { quadAt s2 quad with array := x, owner := some key }

/-- R211: the lease goes to core c of a quad, with fresh bounds. -/
def leaseTo (s : State) (quad c : Nat) : State :=
  let s1 := handOver s quad c
  setQuad s1 quad { quadAt s1 quad with holder := some c, commands := 0, cycles := 0 }

/-- R211, R275: the handover to the team of a core would read or write array state of which a strand holds a pseudo-channel. -/
def blockHeld (s : State) (key : Nat) : Bool :=
  match taskNo s (teamTask key) with
  | none => false
  | some t => t.info.ckh != 0 && virtualHeld s t.asid (t.ckBase + arrayBlock (teamIndex key)) 602112

/-- R211: the handover to core c of a quad waits for a held pseudo-channel. -/
def handoverHeld (s : State) (quad c : Nat) : Bool := (coreAt s (quad * 4 + c)).team.any (fun key => (quadAt s quad).owner != some key && blockHeld s key)

/-- LEASE_GRANT (R211): a core that requests the lease is granted it, when no core holds it. -/
def grantLease (s : State) (quad c : Nat) : State :=
  if c < 4 ∧ (quadAt s quad).holder = none ∧ leaseWaits s quad c ∧ handoverHeld s quad c = false then leaseTo s quad c else s

/-- R211: the bound of a lease is reached. -/
def boundReached (x : Quad) : Bool := decide (64 ≤ x.commands) || decide (8 * 4096 ≤ x.cycles)

/-- R232: a failing command of a core keeps the lease. -/
def arrayStuck (s : State) (quad c : Nat) : Bool :=
  match (arrayQueue s (quad * 4 + c)).head? with
  | some o => o.phase == .failed
  | none => false

/-- R211: the command at the head of core c's queue is under way: it has asked other packages for what it reads or writes. -/
def commandUnderWay (s : State) (quad c : Nat) : Bool :=
  match (arrayQueue s (quad * 4 + c)).head? with
  | some o => o.phase == .queued && !(requestsOf s o.id).isEmpty
  | none => false

/-- R211: the bound of core c's lease is reached at a boundary between commands: a lease never ends inside a command. -/
def boundStops (s : State) (quad c : Nat) : Bool := boundReached (quadAt s quad) && !commandUnderWay s quad c

/-- LEASE_BOUND_EXPIRY (R211): at a boundary between commands the lease passes to the next waiting core, or stays with fresh bounds. -/
def expireLease (s : State) (quad : Nat) : State :=
  let x := quadAt s quad
  match x.holder with
  | none => s
  | some c =>
    if !boundStops s quad c || arrayStuck s quad c || coreFrozen s (quad * 4 + c) then s
    else
      match nextWaiting s quad c with
      | some d => if handoverHeld s quad d then s else leaseTo s quad d
      | none => setQuad s quad { x with commands := 0, cycles := 0 }

/-- R213: LREL ends the core's lease, which passes to the next waiting core; at a core without the lease it has no effect (log 58). -/
def releaseLease (s : State) (quad c : Nat) : State :=
  let x := quadAt s quad
  if x.holder = some c then
    let s1 := setQuad s quad { x with explicit := vput x.explicit c false }
    match nextWaiting s1 quad c with
    | some d => if handoverHeld s1 quad d then setQuad s1 quad { quadAt s1 quad with holder := none } else leaseTo s1 quad d
    | none => setQuad s1 quad { quadAt s1 quad with holder := none }
  else s

/-! Array commands (R212, R216, R232). -/

/-- R232: a command fails: its engine fault has ENGINE 2. -/
def failArray (s : State) (o : Op) (cmd : ArrayCmd) (e : ArrayFail) : State := failOp s o e.cause 2 0 (arrayStatus cmd e) 0

/-- A failure of a fetch, with no detail. -/
def fetchFail (cause : Nat) : ArrayFail := { cause := cause, detail := 0, row := 0, col := 0 }

/-- R212: a command counts toward the bound when it completes. -/
def commandDone (s : State) (quad c : Nat) (counted : Bool) : State :=
  let x := quadAt s quad
  endImplicit (if counted then setQuad s quad { x with commands := x.commands + 1 } else s) quad c

/-- The tile that a command writes, and the format of its elements. -/
def drainTile (cmd : ArrayCmd) : Nat × Nat :=
  match cmd with
  | .accdrain _ t _ fmt _ _ _ _ => (t, fmt)
  | _ => (0, 0)

/-- R217, R226: MSWAP and ACCZERO raise no fault after decode: they read nothing of the array's storage. -/
def readsArray (cmd : ArrayCmd) : Bool :=
  match cmd with
  | .mswap => false
  | .acczeroFp _ _ => false
  | .acczeroInt _ => false
  | _ => true

/-- R212: a command's effect on the array, with the rows that its fetch has read. -/
def applyCommand (s : State) (quad c : Nat) (o : Op) (cmd : ArrayCmd) (fetched : List Row) : State :=
  let x := quadAt s quad
  let t := drainTile cmd
  match (if readsArray cmd && s.damaged.contains (arrayStorage quad) then .error (fetchFail 0x31) else runArray x.array fetched cmd) with
  | .error e => failArray s o cmd e
  | .ok (y, fl, rows) =>
    let s1 := setQuad s quad { x with array := y }
    let s2 := rows.foldl (fun s r => tileWrite o t.1 s (r.1, putCodes t.2 r.2)) s1
    commandDone (opDone s2 { o with phase := .performed, flags := fl }) quad c true

/-- R216, R354: the fetch of MSTAT: it waits, fails, or its rows go into the shadow plane; bytes that a fenced package withholds are zero. Its requests to
other packages go in the streams of class 0 (log 102). -/
def fetchCommand (s : State) (quad c : Nat) (o : Op) (cmd : ArrayCmd) (base : Nat) : State :=
  let die := dieOf o.seq
  let vas := (List.range 32768).map (fun j => base + j)
  let ds := notAsked s o.id (remoteDests s die o.asid false vas)
  match reach s o.id die o.asid false vas with
  | .wait l => requestWalks s die o.asid l
  | .lost => failArray s o cmd (fetchFail 0x30)
  | .damaged => failArray s o cmd (fetchFail 0x31)
  | r =>
    if bankHeld s die o.asid vas then s
    else if !ds.isEmpty then askReads s o.id die o.asid 0 vas ds
    else if !allAnswered s o.id then s
    else
      let rows := (chunks 256 128 (vas.map (readVa s o.id die o.asid 2))).map rowOfBytes
      if r == .fenced || anyPoison s o.id then
        let x := quadAt s quad
        let s1 := dropPoisoned s o.id
        let s2 := (match runArray x.array rows cmd with
          | .ok (y, _, _) => setQuad s1 quad { x with array := y }
          | .error _ => s1)
        failOp s2 o 0x34 5 0 (arrayStatus cmd (fetchFail 0x34)) 0
      else applyCommand (passUncached (dropRequests s o.id) (placesOf s die o.asid false vas)) quad c { o with pins := [] } cmd rows

/-- R211, R212: a command at the head of core c's queue runs, the lease held and within its bounds; one under way goes on past them. -/
def heldCommand (s : State) (quad c : Nat) (o : Op) : State :=
  let x := quadAt s quad
  if x.holder ≠ some c ∨ boundStops s quad c ∨ !mayPerform s o then s
  else
    match o.kind with
    | .array .lease => opDone (setQuad s quad { x with explicit := vput x.explicit c true }) { o with phase := .performed }
    | .array (.mstatFetch h base p fmt) => fetchCommand s quad c o (.mstatFetch h base p fmt) base
    | .array cmd => applyCommand s quad c o cmd []
    | _ =>
      let s1 := performPlaced s o
      if (opAt s1 o.id).any (fun a => a.phase == .queued || a.phase == .failed) then s1 else commandDone s1 quad c true

/-- ARRAY_COMMAND_RUN (R212): the command at the head of the queue of core c of a quad. LREL waits for no lease (R213). -/
def runCommand (s : State) (quad c : Nat) : State :=
  match (arrayQueue s (quad * 4 + c)).head? with
  | none => s
  | some o =>
    if o.phase != .queued || !engineMoves s o then s
    else
      let s1 := spend s o
      finishStrand (match o.kind with
        | .array .lrel => releaseLease (opDone s1 { o with phase := .performed }) quad c
        | _ => heldCommand s1 quad c o) o.seq

/-- PLACED_WRITEBACK (R243, R246): a placed operation at its home; a risen one is a command of its core. -/
def writesBack (s : State) (n : Nat) : State :=
  match opAt s n with
  | none => s
  | some o =>
    match o.kind with
    | .placed _ _ _ _ _ _ _ _ _ _ _ _ home _ =>
      if home = 3 then
        (if (arrayQueue s (coreOf o.seq)).head? = some o then runCommand s (quadOf o.seq) (coreOf o.seq % 4) else s)
      else onOp s n (mayMove s) performPlaced
    | _ => s

/-! BANK commands (R273-R280). -/

/-- R274, R280: the opcode of a command. -/
def bankOpcode (c : BankCmd) : Nat :=
  match c with
  | .pabm _ _ => 0x18
  | .pbcast _ _ => 0x19
  | .pmac _ _ _ => 0x1A
  | .pread _ _ _ => 0x1B
  | .pexit _ => 0x1C

/-- R280: a command fails, at a word of its row. -/
def failBank (s : State) (o : Op) (c : BankCmd) (cause word : Nat) : State :=
  failOp s o cause 6 0 (BitVec.ofNat 64 (bankOpcode c * 2 ^ 32 + word)) 0

/-- R274: the all-bank mode of the strand that a handle names. -/
def bankNamed (s : State) (q : Nat) (h : Word) : Option BankMode := (seqAt s q).bank.filter (fun b => b.handle == h)

/-- R273: the pseudo-channel of an address. -/
def channelOf (va : Nat) : Nat := va / 4096 % 64

/-- R180: the addresses of the stamp word of a copy. -/
def stampWordAddrs (s : State) (o : Op) : List Nat :=
  match o.kind with
  | .copy vd _ _ _ _ _ _ _ _ =>
    if vd.stamp = 0xFFFFFFFF then [] else (List.range 8).map (fun j => (handleEntry s o.asid vd.handle).base + vd.stamp.toNat + j)
  | _ => []

/-- The addresses that an operation has still to read or write: those of its views, of a plane fetch, and of a copy's stamp. -/
def pendingAddrs (s : State) (o : Op) : List Nat :=
  let views := (pendingAccesses o).map (fun a => a.2.1) ++ (match o.kind with
    | .array (.mstatFetch h _ _ _) => [fetchView h]
    | _ => [])
  views.flatMap (fun v => addrsOf s o.asid v (inView v 0 (viewSize v))) ++ stampWordAddrs s o

/-- R275: an address lies in the memory of a die: by the die's caches, or, where they do not have its page yet, by the page tables. -/
def liesOn (s : State) (d asid va die : Nat) : Bool :=
  match xlateLate s d asid va false with
  | .at_ loc => loc / 2 ^ 48 == die
  | .miss => (virtualPlace s asid va).any (fun loc => loc / 2 ^ 48 == die)
  | _ => false

/-- R275: an operation has an access to a byte of a pseudo-channel of a die. -/
def touchesChannel (s : State) (o : Op) (die ch : Nat) : Bool :=
  (pendingAddrs s o).any (fun va => channelOf va == ch && liesOn s (dieOf o.seq) o.asid va die)

/-- R275: the channel is held by another strand, or an earlier access of the strand to it has not performed. -/
def channelBusy (s : State) (o : Op) (die ch : Nat) : Bool :=
  s.seqs.any (fun x => x.1 != o.seq && x.2.bank.any (fun b => b.die == die && b.channel == ch)) ||
    s.ops.any (fun a => a.seq == o.seq && decide (a.id < o.id) && !orderDone s a 3 && touchesChannel s a die ch)

/-- R275, R348: PABM; the granule is not on a page of another package. -/
def runPabm (s : State) (o : Op) (h : Word) (row : Row) : State :=
  let e := handleEntry s o.asid h
  let off := (rowField row 0 64).toNat
  let ch := channelOf (e.base + off)
  let die := dieOf o.seq
  if !handleCurrent s o.asid h || e.tier != 0 || e.die != die || (seqAt s o.seq).bank.isSome || remotePage s o.asid (e.base + off) then
    failBank s o (.pabm h row) 0x3C 0
  else if off % 4096 ≠ 0 ∨ e.size < off + 4096 then failBank s o (.pabm h row) 0x3D 0
  else if channelBusy s o die ch then s
  else
    let b : BankMode := { die := die, channel := ch, handle := h, off := BitVec.ofNat 64 off, bx := [], bacc := [] }
    opDone (setSeq s o.seq { seqAt s o.seq with bank := some b }) { o with phase := .performed }

/-- R276: PBCAST. -/
def loadBx (b : BankMode) (row : Row) : BankMode :=
  { b with bx := (List.range 128).foldl (fun t k => sput 0 t k (BitVec.ofNat 16 (elemAt 1 row k))) b.bx }

/-- R277: a step: granule, burst, BX entry and BACC entry. -/
structure BankStep where
  g : Nat
  j : Nat
  e : Nat
  n : Nat
deriving DecidableEq, Repr

def bankStep (w : Nat) : BankStep := { g := w / 2 ^ 16 % 2 ^ 16, j := w / 32 % 8, e := w / 4 % 8, n := w % 4 }

/-- The 32-bit word k of a row. -/
def rowWord (row : Row) (k : Nat) : Nat := (rowField row (32 * k) 32).toNat

/-- R277: the steps of a list. -/
def stepWords (row : Row) : List Nat := (List.range (rowWord row 0 % 64)).map (fun i => rowWord row (i + 1))

/-- R277: why a step word is refused, for a granule at an offset of an allocation of a size. -/
def stepRefusal (off size w : Nat) : Option Nat :=
  if w / 2 ^ 8 % 2 ^ 8 ≠ 0 then some 0x3E
  else if size < off + 262144 * (bankStep w).g + 4096 then some 0x3D
  else none

/-- R277: the first failure of a step list, with its word. -/
def listRefusal (off size : Nat) (row : Row) : Option (Nat × Nat) :=
  let w0 := rowWord row 0
  if w0 / 64 ≠ 0 ∨ w0 % 64 = 0 then some (0x3E, 0)
  else
    let l := stepWords row
    (List.range l.length).findSome? (fun i => (stepRefusal off size (l.getD i 0)).map (fun c => (c, i + 1)))

/-- R277: a lane of a step. -/
def macLane (s : State) (o : Op) (a : Nat) (mode : RMode) (t : BankStep) (x : BankMode × Flags) (k : Nat) : BankMode × Flags :=
  let b := k / 16
  let l := k % 16
  let va := a + 256 * b + 32 * t.j + 2 * l
  let w := natOfBytes ((List.range 2).map (fun i => readVa s o.id (dieOf o.seq) o.asid 2 (va + i)))
  let key := (b * 4 + t.n) * 16 + l
  let acc := (tget 0 x.1.bacc key).toNat
  let v := fmaVal mode (decodeFloat 1 w) (decodeFloat 1 (tget 0 x.1.bx (16 * t.e + l)).toNat) (decodeFloat 0 acc)
  let r := roundTo 0 mode v
  ({ x.1 with bacc := sput 0 x.1.bacc key (BitVec.ofNat 32 r.1) }, x.2 ||| r.2)

/-- R277: a step acts in every bank and lane. -/
def macStep (s : State) (o : Op) (base : Nat) (mode : RMode) (x : BankMode × Flags) (w : Nat) : BankMode × Flags :=
  let t := bankStep w
  (List.range 256).foldl (macLane s o (base + x.1.off.toNat + 262144 * t.g) mode t) x

/-- The addresses of the granule of a step. -/
def granuleAddrs (base off w : Nat) : List Nat := (List.range 4096).map (fun j => base + off + 262144 * (bankStep w).g + j)

/-- R277: PMAC. A granule on a page of another package cannot be translated to the held channel (log 105). -/
def runPmac (s : State) (o : Op) (h : Word) (row : Row) (mode : RMode) (b : BankMode) : State :=
  let e := handleEntry s o.asid h
  let off := b.off.toNat
  let die := dieOf o.seq
  let cmd : BankCmd := .pmac h row mode
  match listRefusal off e.size row with
  | some (c, w) => failBank s o cmd c w
  | none =>
    let l := stepWords row
    let found := fun (i : Nat) =>
      let vas := granuleAddrs e.base off (l.getD i 0)
      if (remoteDests s die o.asid false vas).isEmpty then reachPages s die o.asid false vas else .lost
    let ks := List.range l.length
    let vpns := ks.flatMap (fun i => match found i with
      | .wait v => v
      | _ => [])
    if !vpns.isEmpty then requestWalks s die o.asid (distinct vpns)
    else
      match ks.find? (fun i => found i == .lost || found i == .fenced), ks.find? (fun i => found i == .damaged) with
      | some i, _ => failBank s o cmd 0x30 (i + 1)
      | none, some i => failBank s o cmd 0x31 (i + 1)
      | none, none =>
        let r := l.foldl (macStep s o e.base mode) (b, 0)
        let s1 := passUncached s (placesOf s die o.asid false (l.flatMap (granuleAddrs e.base off)))
        opDone (setSeq s1 o.seq { seqAt s1 o.seq with bank := some r.1 }) { o with phase := .performed, flags := r.2 }

/-- R278: the row of PREAD. -/
def partialSums (b : BankMode) (r : Nat) : Row := rowOf 0 (fun k => (tget 0 b.bacc ((r % 16 * 4 + k / 16) * 16 + k % 16)).toNat)

/-- R274: a command other than PABM, with the mode of the strand that its handle names. -/
def runNamed (s : State) (o : Op) (c : BankCmd) (h : Word) (f : BankMode → State) : State :=
  match bankNamed s o.seq h with
  | none => failBank s o c 0x3C 0
  | some b => f b

/-- R274-R279: a command's effect. -/
def runBank (s : State) (o : Op) (c : BankCmd) : State :=
  let done := { o with phase := .performed }
  match c with
  | .pabm h row => runPabm s o h row
  | .pbcast h row => runNamed s o c h (fun b => opDone (setSeq s o.seq { seqAt s o.seq with bank := some (loadBx b row) }) done)
  | .pmac h row mode => runNamed s o c h (runPmac s o h row mode)
  | .pread h t r => runNamed s o c h (fun b => opDone (tileWrite o t s (r, fun _ => partialSums b r)) done)
  | .pexit h => runNamed s o c h (fun _ => opDone (leaveBank s o.seq) done)

/-- BANK_COMMAND_RUN (R274): the command at the head of a sequencer's bank command queue; a PMAC, which reads memory, not before an acquire that stands
before it (R267). -/
def runBankHead (s : State) (q : Nat) : State :=
  match (bankQueue s q).head? with
  | none => s
  | some o =>
    match o.kind with
    | .bank c => onOp s o.id (mayMove s) (fun s o => runBank s o c)
    | _ => s

/-- R153, R300: the pin count of a handle's index: accesses in flight that its checks have pinned, held bundles, the all-bank modes that hold it, and the
tasks whose checkpoints are out. -/
def pinCount (s : State) (asid : Nat) (h : Word) : Nat :=
  let k := handleKey asid h
  (s.ops.map (fun o => if o.asid = asid then (o.pins.filter (fun x => handleKey asid x == k)).length else 0)).foldl (fun x y => x + y) 0
    + (s.seqs.filter (fun q => q.2.asid == asid && q.2.bank.any (fun b => handleKey asid b.handle == k))).length
    + (s.seqs.filter (fun q => q.2.asid == asid && q.2.pinned.any (fun x => handleKey asid x.2 == k))).length
    + (s.tasks.filter (fun t => t.2.asid == asid && t.2.ckPinned && handleKey asid t.2.info.ckh == k)).length

/-! The walkers (R262, R349). -/

/-- The answer of a walk of a die for a 64 KiB page of an address space enters the caches, and what waits for it proceeds. -/
def walkAnswer (s : State) (die asid vpn : Nat) (r : WalkResult) : State :=
  let w := (tget [] s.walks die).filter (fun x => x != (asid, vpn))
  let t := (tget [] s.tlb die).filter (fun e => e.asid != asid || e.vpn != vpn)
  { s with walks := tput s.walks die w, tlb := tput s.tlb die (t ++ [{ asid := asid, vpn := vpn, result := r }]) }

/-- R349: the translation request of a walk. -/
def isTranslation (die asid vpn : Nat) (k : RequestKind) : Bool :=
  match k with
  | .translation d a v _ => d == die && a == asid && v == vpn
  | _ => false

/-- R349: the translation request of a walk, when it has not been sent, is forgotten. -/
def dropWalkRequest (s : State) (die asid vpn : Nat) : State :=
  { s with pod := { s.pod with requests := s.pod.requests.filter (fun r => !(isTranslation die asid vpn r.kind && r.sent.isNone)) } }

/-- TRANSLATION_WALK_COMPLETE (R262): a walk that a die's walkers have been asked for ends: a page, none, an uncorrectable error of the page-table read (R184),
or for a remote page (R349) a translation request to its destination, once. -/
def walkCompletes (s : State) (die asid vpn : Nat) : State :=
  if !(tget [] s.walks die).contains (asid, vpn) then s
  else if s.badTables.contains (asid, vpn) then walkAnswer s die asid vpn .uncorr
  else
    match pageFor s.pages asid (vpn * 65536) with
    | none => walkAnswer s die asid vpn .unmapped
    | some p =>
      match p.target with
      | .remote dest _ base =>
        if (destAt s dest).fenced then walkAnswer s die asid vpn .timeout
        else if !(destAt s dest).valid then walkAnswer (dropWalkRequest s die asid vpn) die asid vpn .unmapped
        else if s.pod.requests.any (fun r => isTranslation die asid vpn r.kind) then s
        else addRequest s noOp dest 0 (.translation die asid vpn (base + (vpn * 65536 - p.va)))
      | _ => walkAnswer s die asid vpn (.page p)

def execLeaseGrant (quad c : Nat) (s : State) : Host.Outcome State Fault Refusal := .next (grantLease s quad c)
def execLeaseBoundExpiry (quad : Nat) (s : State) : Host.Outcome State Fault Refusal := .next (expireLease s quad)
def execArrayCommandRun (quad c : Nat) (s : State) : Host.Outcome State Fault Refusal := .next (runCommand s quad c)
def execPlacedWriteback (op : Nat) (s : State) : Host.Outcome State Fault Refusal := .next (writesBack s op)
def execBankCommandRun (q : Nat) (s : State) : Host.Outcome State Fault Refusal := .next (runBankHead s q)
def execTranslationWalkComplete (die asid vpn : Nat) (s : State) : Host.Outcome State Fault Refusal := .next (walkCompletes s die asid vpn)

end Sys2Proof.Machine
end

