-- ==== Sys2Proof/Machine/Sequencer.lean ====
section
/-! DEFINITION. Sys2Proof/Machine/Sequencer.lean: the steps of a sequencer other than its slots: the parts of a cycle (R50, R53, R62, R66, R127), the
stop for an engine fault (R196), the unwind of a region (R200, R201), and the debug block: freeze, step, and resume (R194-R196, R203-R206). -/

namespace Sys2Proof.Machine

/-! The parts of a cycle. -/

/-- R116, R127: the running stream's next bundle, with the slots m occupied, would issue in the current cycle of its core. -/
def issuesNow (s : State) (m : BitVec 8) : Bool :=
  let k := coreOf s.cur
  if s.cur % 2 = 0 then !guardDue s k
  else
    match (coreAt s k).primaryMask with
    | some p => (lowestCollision p m).isNone
    | none => guardDue s k || !isReady s (2 * k)

/-- PENDING_WRITE_LANDING (R53, R116): the landings of the tick of the running stream's next bundle, when it would issue in the current cycle; with the
primary's landings a new cycle begins. -/
def takeLandings (s : State) : State :=
  let t := prepared (if s.cur % 2 = 0 then closeCycle s (coreOf s.cur) else s)
  if (me t).tickOpen || coreFrozen s (coreOf s.cur) || (me t).reissue.isSome then s
  else
    match judge t with
    | .issue b _ =>
      if issuesNow t (occMask b) then
        let v := landed t
        setMe v { me v with tickOpen := true }
      else s
    | _ => s

/-- BUNDLE_SKIP (R62): the running stream's next bundle is skipped, when the nullifier skips it. -/
def takeSkip (s : State) : State :=
  let t := prepared s
  if coreFrozen s (coreOf s.cur) || (me t).reissue.isSome then s
  else
    match judge t with
    | .skip => skipBundle t
    | _ => s

/-- LOOP_EXIT (R50): the level whose last bundle has been passed is left. -/
def takeExit (sq : Seq) : Seq :=
  match sq.due with
  | some (.exit _) => settle sq
  | _ => sq

/-- DELAY_EXPIRE (R66): the target of a transfer becomes the position. -/
def takeTarget (sq : Seq) : Seq :=
  match sq.due with
  | some .expire => settle sq
  | _ => sq

def execPendingWriteLanding (q : Nat) (s : State) : Host.Outcome State Fault Refusal := .next (withCur s q takeLandings)
def execBundleSkip (q : Nat) (s : State) : Host.Outcome State Fault Refusal := .next (withCur s q takeSkip)
def execLoopExit (q : Nat) (s : State) : Host.Outcome State Fault Refusal := .next (setSeq s q (takeExit (seqAt s q)))
def execDelayExpire (q : Nat) (s : State) : Host.Outcome State Fault Refusal := .next (setSeq s q (takeTarget (seqAt s q)))
def execStarvationGuard (core : Nat) (s : State) : Host.Outcome State Fault Refusal :=
  .next (if guardDue s core && !coreFrozen s core then starveCycle s core else s)

/-! Engine faults (R196). -/

/-- The stop of a strand for an engine's report. -/
def reportStop (r : EngineReport) : StopInfo :=
  { kind := 2, cause := r.cause, slot := r.slot, engine := r.engine, cqn := r.cqn, aux0 := r.aux0, aux1 := r.aux1, cmask := 0xFF,
    baddr := r.baddr, idx := r.idx, op := some r.op }

/-- R196: a strand with a report stops before its next bundle, the bundle in progress complete; one that has issued its EXIT stops too, and
goes on ending after its resume (R90, log 52). The report waits while slots of a bundle are to be reissued (log 131). -/
def engineStop (s : State) (q : Nat) : State :=
  let sq := seqAt s q
  match sq.reports with
  | [] => s
  | r :: rest =>
    if sq.status ≠ .running ∨ sq.reissue.isSome then s
    else takeFault (setSeq s q { sq with reports := rest }) q r.region (reportStop r)

/-- ENGINE_FAULT (R196, R204, R205): in a frozen core a report waits for a step or for the end of the freeze, unless a step has raised it. -/
def faultArrives (s : State) (q : Nat) : State :=
  if coreFrozen s (coreOf q) && !(seqAt s q).reports.any (fun r => r.stepped) then s else engineStop s q

def execEngineFault (q : Nat) (s : State) : Host.Outcome State Fault Refusal := .next (faultArrives s q)

/-! The unwind (R200, R201). -/

/-- R201: a retire in flight of a view, to be poisoned. -/
def poisonRetire (q reg : Nat) (v : View) (o : Op) : Op :=
  match o.kind with
  | .retire r w false => if o.seq = q ∧ r = reg ∧ sameView w v then { o with kind := .retire r w true } else o
  | _ => o

/-- R201: a retire of the view of a register by sequencer q is in flight. -/
def retireInFlight (s : State) (q reg : Nat) (v : View) : Bool :=
  s.ops.any (fun o => o.seq == q && (match o.kind with
    | .retire r w _ => r == reg && sameView w v
    | _ => false))

/-- R201: a view retired inside the region that unwinds is poisoned: its retire, or, when that has completed, its register and its directories. -/
def poisonRetired (s : State) (q : Nat) (x : Nat × View) : State :=
  if retireInFlight s q x.1 x.2 then { s with ops := s.ops.map (poisonRetire q x.1 x.2) }
  else
    let sq := seqAt s q
    let w := viewAt sq x.1
    let s1 := if sameView w x.2 && !w.isOpen then setSeq s q (putView sq x.1 { w with poison := true }) else s
    if x.2.handle = 0 then s1 else recordPoison s1 q (taskOf sq) sq.asid x.2 true (flockDies x.2 (dieOf q))

/-- R201: the views of the region that unwinds: those retired in it are poisoned, those opened in it and still open retire poisoned. -/
def poisonRegion (s : State) (q : Nat) : State :=
  let sq := seqAt s q
  match sq.regions with
  | [] => s
  | r :: rest =>
    let s1 := setSeq s q { sq with regions := { r with opened := [], retired := [] } :: rest }
    let s2 := r.retired.foldl (fun s x => poisonRetired s q x) s1
    retireViews s2 q sq.pc true (distinct r.opened)

/-- R200, steps 4 to 6. What is left of the queue lands in the snapshot, as it would have landed had the region never issued. -/
def endUnwind (s : State) (q : Nat) (u : Unwind) : State :=
  let s1 := landQueue s q
  let x := seqAt s1 q
  match x.regions with
  | [] => s
  | r :: rest =>
    setSeq s1 q
      { x with regs := vput (vput r.regs 26 u.causeWord) 27 u.detail, preds := r.preds, loops := r.loops, stage := r.stage, regions := rest, latches := Vector.replicate 8 0, delayCount := 0,
               barWait := none, due := none, stageDue := false, tickOpen := false, reissue := none, pc := r.handler, unwind := none, status := .running }

/-- R200, step 3: an operation of the region has not completed. -/
def regionBusy (s : State) (q d : Nat) : Bool := s.ops.any (fun o => o.seq == q && !isComplete o && decide (d ≤ o.region))

/-- R200: the unwind of sequencer q goes on. -/
def unwindMoves (s : State) (q : Nat) : State :=
  match (seqAt s q).unwind with
  | none => s
  | some u =>
    let s1 := poisonRegion s q
    if regionBusy s1 q u.depth then s1 else endUnwind s1 q u

/-- CONTAINED_UNWIND (R200, R204). -/
def unwindStep (s : State) (q : Nat) : State := if coreFrozen s (coreOf q) then s else unwindMoves s q

def execContainedUnwind (q : Nat) (s : State) : Host.Outcome State Fault Refusal := .next (unwindStep s q)

/-! SEND_FULL (R271). -/

/-- The running stream's next bundle holds a SEND that waits for a slot. -/
def waitingSend (s : State) : Bool :=
  let t := prepared s
  mayIssue t && (heldSlots t).any (fun x => match x.2.1 with
    | .send _ a _ _ timed => !sendEarly x.2.2 timed && sendWaits x.2.2 (src x.2.2 a)
    | _ => false)

/-- R271: CYC cycles have passed without a grant: the SEND completes as FULL. -/
def sendGivesUp (s : State) (q : Nat) : State :=
  let sq := seqAt s q
  if (dieAt s (dieOf q)).ringWait.toNat ≤ sq.sendWait ∧ waitingSend { s with cur := q } then setSeq s q { sq with sendFull := true } else s

def execSendFull (q : Nat) (s : State) : Host.Outcome State Fault Refusal := .next (sendGivesUp s q)

/-! Freeze and step (R203-R205). -/

/-- R203: SQSTAT.STATE. A strand that waits for a timed start or is unwinding is held, as is one whose next bundle is held, and
one whose incomplete slots are still to be reissued, whether or not a hold applies to them (DESIGN CHOICE, log 147). -/
def seqState (s : State) (q : Nat) : Nat :=
  let sq := seqAt s q
  match sq.status with
  | .idle => 0
  | .faulted => 4
  | _ =>
    if coreFrozen s (coreOf q) then 3
    else
      match sq.status with
      | .running =>
        let t := prepared { s with cur := q }
        if (me t).reissue.isSome then 2
        else
          (match judge t with
            | .held _ => 2
            | .idle => 2
            | _ => 1)
      | _ => 2

/-- R204: FREEZE of sequencer q; the end of the freeze takes back what a step has granted. -/
def setFreeze (s : State) (q : Nat) (on : Bool) : State :=
  let s1 := setSeq s q { seqAt s q with freeze := on }
  let k := coreOf q
  let c := coreAt s1 k
  if coreFrozen s1 k then setCore s1 k { c with primaryMask := none } else setCore s1 k { c with granted := [] }

/-- R205: bundles that the nullifier skips pass first, at most n of them. -/
def passSkips (n : Nat) (s : State) : State :=
  match n with
  | 0 => s
  | n + 1 =>
    let t := prepared s
    if (me t).reissue.isSome then s
    else
      match judge t with
      | .skip => passSkips n (skipBundle t)
      | _ => s

/-- R205: the stepped stream's part of the step: its unwind goes on, a report stops it, or its next bundle issues, traps or is held, after those that the
nullifier skips; six levels of at most 2^32 iterations hold fewer than 2^256 positions. A step that issues no tick sets STEPHELD (R203); one that completes a
reissue, which belongs to the faulting tick (R194), counts as one that issues (log 116). The secondary's issue brings W back to zero (R127). -/
def stepStream (s : State) : State :=
  let u :=
    if (me s).unwind.isSome then unwindMoves s s.cur
    else if !(me s).reports.isEmpty && (me s).reissue.isNone then engineStop s s.cur
    else streamCycle (passSkips (2 ^ 256) s)
  let issued := (me u).ticks != (me s).ticks || (me u).status == .idle || ((me s).reissue.isSome && (me u).reissue.isNone)
  let v := setMe u { me u with stepHeld := !issued }
  if s.cur % 2 = 1 ∧ (me u).ticks ≠ (me s).ticks then setMyCore v { myCore v with wait := 0 } else v

/-- SQCTL_STEP (R205): one cycle of a frozen core. -/
def stepCore (s : State) (q : Nat) : State :=
  if seqState s q ≠ 3 then s
  else
    let k := coreOf q
    let ids := (s.ops.filter (fun o => coreOf o.seq == k)).map (fun o => o.id)
    let s1 := withCur s q stepStream
    setCore s1 k { coreAt s1 k with granted := ids }

/-! Resume (R194-R196). -/

/-- R192: a loop-stack entry of a record. -/
def loopOfWord (x : Nat) : LoopLevel :=
  { start := BitVec.ofNat 32 (x / 2 ^ 32) &&& 0xFFFFFFE0, len := BitVec.ofNat 12 x, count := BitVec.ofNat 32 (x / 2 ^ 64),
    index := BitVec.ofNat 32 (x / 2 ^ 96) }

/-- R59, R192: the entry of a descriptor and its payload; `old` is the entry that stood in its place, and `tick` the current one. An entry that keeps
its kind and target keeps its place in program order, and what later M and E writes have put into its row since the stop. -/
def pendOfWord (x : Nat) (payload : Row) (old : Option Pend) (tick : Nat) : Option Pend :=
  let code := (x / 2 ^ 16 % 16, x % 2 ^ 16)
  match destOfCode code.1 code.2 with
  | none => none
  | some d =>
    let p : Pend := { dest := d, value := BitVec.ofNat 64 (x / 2 ^ 64), flags := BitVec.ofNat 5 (x / 2 ^ 32), cnt := x / 2 ^ 24 % 32,
                      slot := x / 2 ^ 20 % 8, payload := payload, tick := tick, superseded := none }
    match old with
    | none => some p
    | some o => some (if pendCode o = code then { p with dest := o.dest, tick := o.tick, superseded := o.superseded,
                                                            payload := (payload &&& ~~~o.cover) ||| (o.payload &&& o.cover) }
                      else { p with tick := o.tick })

/-- R192: the entries of a record of a queue. -/
def pendsOf (l : List Byte) (old : List Pend) (tick n : Nat) : List (Option Pend) :=
  (List.range n).map (fun i =>
    pendOfWord (natAt l (0x100 + 16 * i) 16) (rowOfBytes ((l.drop (0x300 + 256 * i)).take 256)) old[i]? tick)

/-- R195: what a record gives back: its header as a number, and its entries. -/
structure Recovered where
  header : Nat
  queue : List Pend
deriving DecidableEq, Repr

/-- R189: the fields of a header. -/
def headField (h lo n : Nat) : Nat := h / 2 ^ lo % 2 ^ n

/-- R195: the record read back; none where the resume fails for its fields. -/
def readRecord (l : List Byte) (old : List Pend) (tick : Nat) : Option Recovered :=
  let h := natAt l 0 64
  let n := headField h 214 6
  let ps := pendsOf l old tick (min n 32)
  let good := ps.filterMap (fun p => p.filter (fun p => decide (1 ≤ p.cnt) && decide (p.cnt ≤ 18)))
  if 32 < n ∨ 6 < headField h 220 3 ∨ headField h 288 2 = 3 ∨ good.length ≠ ps.length then none
  else some { header := h, queue := good }

/-- R51, R195: a loop-stack entry of a record: a level that stood there keeps its captured body, another one captures it. -/
def restoredLevel (s : State) (old : Option LoopLevel) (l : LoopLevel) : LoopLevel :=
  match old with
  | some o => if o.start = l.start ∧ o.len = l.len then { l with body := o.body } else { l with body := capturedBody s l.start l.len.toNat }
  | none => { l with body := capturedBody s l.start l.len.toNat }

/-- R195: the position and queue of the running stream from a record. -/
def restorePosition (s : State) (l : List Byte) (r : Recovered) : Seq :=
  let sq := me s
  let h := r.header
  { sq with pc := BitVec.ofNat 32 (headField h 320 32) &&& 0xFFFFFFE0, delayTarget := BitVec.ofNat 32 (headField h 288 32) &&& 0xFFFFFFE0,
            delayCount := headField h 288 2, stage := stageOfWord (BitVec.ofNat 32 (headField h 256 32)),
            loops := (List.range (headField h 220 3)).map (fun k => restoredLevel s sq.loops[k]? (loopOfWord (natAt l (0x60 + 16 * k) 16))),
            latches := Vector.ofFn (fun k => wordAt l (0xC0 + 4 * k.val)), queue := r.queue, due := none }

/-- R195: the CMASK of a KIND 1 record leaves a slot incomplete that the bundle does not occupy. -/
def badMask (s : State) (q : Nat) (a : Word) (cm : BitVec 8) : Bool :=
  match fetchWords { s with cur := q } a with
  | none => false
  | some ws => (~~~cm &&& ~~~(wordMask ws)) != 0

/-- R196: the failed command of a stop is performed again, or dropped; a copy is never repeated. -/
def resumeCommand (s : State) (i : StopInfo) (skip : Bool) : State :=
  match i.op with
  | none => s
  | some n =>
    match opAt s n with
    | none => s
    | some o =>
      match o.kind, skip with
      | .copy _ _ _ _ _ _ _ _ _, _ => dropFailed s o
      | _, true => dropFailed s o
      | _, false => setOp (dropPoisoned s o.id) { o with phase := .queued }

/-- R194: where the strand goes on after a stop. -/
def resumeAt (sq : Seq) (i : StopInfo) (h : Nat) : Seq :=
  let a := BitVec.ofNat 32 (headField h 352 32) &&& 0xFFFFFFE0
  let sq1 := { sq with status := .running, stop := none, resFail := false, issue := none, resumeAsked := none }
  match i.kind with
  | 0 => { sq1 with pc := a }
  | 1 => { sq1 with reissue := some (a, BitVec.ofNat 8 (headField h 240 8)) }
  | _ => sq1

/-- R194-R196: a faulted strand resumes from its record, whose read passes the forwarding buffers of uncached slices (R257). -/
def resumeNow (s : State) (q : Nat) (i : StopInfo) (skip : Bool) : State :=
  let sq := seqAt s q
  let loc := location (dieOf q) sq.sqfra.toNat
  let s0 := passHome s loc 8960
  match readRecord (homeBytes s loc 8960) sq.queue sq.ticks with
  | none => setSeq s0 q { sq with resFail := true, resumeAsked := none }
  | some r =>
    let a := BitVec.ofNat 32 (headField r.header 352 32) &&& 0xFFFFFFE0
    if i.kind = 1 ∧ badMask s q a (BitVec.ofNat 8 (headField r.header 240 8)) then setSeq s0 q { sq with resFail := true, resumeAsked := none }
    else
      let s1 := setSeq s0 q (resumeAt (restorePosition { s0 with cur := q } (homeBytes s loc 8960) r) i r.header)
      finishStrand (landArrived (if i.kind = 2 then resumeCommand s1 i skip else s1) q) q

/-- R295: the FAULT event of a stop that has not been posted yet. -/
def postDue (s : State) (q : Nat) : State :=
  match (seqAt s q).faultDue with
  | some e => finishStrand (postFault s q e) q
  | none => s

/-- R275, R295: a resume waits while a strand holds a pseudo-channel of its record, or the FAULT event of the stop is not posted. -/
def resumeWaits (s : State) (q : Nat) : Bool := homeHeld s (location (dieOf q) (seqAt s q).sqfra.toNat) 8960 || (seqAt s q).faultDue.isSome

/-- SQCTL_RESUME, SQCTL_RESUME_SKIP (R194-R196): the resume of a faulted strand. -/
def resumeStrand (s : State) (q : Nat) (skip : Bool) : State :=
  match (seqAt s q).status, (seqAt s q).stop with
  | .faulted, some i =>
    let s1 := postDue s q
    if resumeWaits s1 q then setSeq s1 q { seqAt s1 q with resumeAsked := some skip } else resumeNow s1 q i skip
  | _, _ => s

/-- R275, R295: a resume that waited is carried out once nothing keeps it, in a BUNDLE_ISSUE step of the strand (DESIGN CHOICE, log 143). -/
def takeResume (s : State) (q : Nat) : State :=
  match (seqAt s q).resumeAsked with
  | some skip => resumeStrand s q skip
  | none => s

/-- R275, R295: what a stopped strand still waits for is tried again: its FAULT event, then its resume. -/
def takeDue (s : State) (q : Nat) : State := takeResume (postDue s q) q

/-- BUNDLE_ISSUE: a cycle of a sequencer; a strand with a FAULT event or a resume that waits is asked for it again. -/
def execBundleIssue (q : Nat) (s : State) : Host.Outcome State Fault Refusal :=
  .next (if (seqAt s q).faultDue.isSome || (seqAt s q).resumeAsked.isSome then takeDue s q else bundleCycle s q)

/-- R203: SQCTL written whole: FREEZE, then RESUME, which a strand that is not faulted ignores, or STEP. -/
def writeSqctl (s : State) (q : Nat) (v : Word) : State :=
  let s1 := setFreeze s q (v.getLsbD 4)
  if v.getLsbD 6 && (seqAt s1 q).status == .faulted then resumeStrand s1 q (v.getLsbD 7) else if v.getLsbD 5 then stepCore s1 q else s1

def execSqctlFreeze (s : State) : Host.Outcome State Fault Refusal := .next (setFreeze s s.bus.unit true)
def execSqctlUnfreeze (s : State) : Host.Outcome State Fault Refusal := .next (setFreeze s s.bus.unit false)
def execSqctlStep (s : State) : Host.Outcome State Fault Refusal := .next (stepCore s s.bus.unit)
def execSqctlResume (s : State) : Host.Outcome State Fault Refusal := .next (resumeStrand s s.bus.unit false)
def execSqctlResumeSkip (s : State) : Host.Outcome State Fault Refusal := .next (resumeStrand s s.bus.unit true)

end Sys2Proof.Machine
end

