-- ==== Sys2Proof/Machine/DieRegs.lean ====
section
/-! DEFINITION. Sys2Proof/Machine/DieRegs.lean: the registers of the slices and their changes (R258-R261), the invalidation of translations (R263,
R349), and the ring descriptors (R270). -/

namespace Sys2Proof.Machine

/-! What operations in flight still reach. -/

/-- The operation has accesses under way: it has not performed, and a copy has started. -/
def underWay (o : Op) : Bool :=
  o.phase == .queued && (match o.kind with
    | .copy _ _ _ _ _ _ _ started _ => started
    | _ => true)

/-- The addresses that an operation still reaches, each with whether it writes. -/
def opAddrs (s : State) (o : Op) : List (Nat × Bool) :=
  let fetch := (match o.kind with
    | .array (.mstatFetch _ base _ _) => (List.range 32768).map (fun j => (base + j, false))
    | .bank (.pmac h row _) => (bankNamed s o.seq h).toList.flatMap (fun b =>
        (stepWords row).flatMap (fun w => (granuleAddrs (handleEntry s o.asid h).base b.off.toNat w).map (fun va => (va, false))))
    | _ => [])
  fetch ++ (pendingAccesses o).flatMap (fun a => (addrsOf s o.asid a.2.1 (inView a.2.1 0 (viewSize a.2.1))).map (fun va => (va, a.2.2)))

/-- R349: a request of an operation has been sent and not been answered. -/
def requestOut (s : State) (o : Op) : Bool := (requestsOf s o.id).any (fun r => r.sent.isSome && !r.answered)

/-- R180, R349: the addresses that an access of an operation in flight has translated: for a copy whose payload has ended, those of its stamp. -/
def usedAddrs (s : State) (o : Op) : List Nat :=
  match o.kind, o.phase with
  | .copy vd _ _ _ _ _ _ _ _, .performed =>
    if vd.stamp = 0xFFFFFFFF then [] else (List.range 8).map (fun j => (handleEntry s o.asid vd.handle).base + vd.stamp.toNat + j)
  | _, _ => (opAddrs s o).map Prod.fst

/-! Slices (R258-R260). -/

/-- R257: a location lies in slice k of a die, in one of the ways of a mask. -/
def inWays (die k : Nat) (m : BitVec 16) (loc : Nat) : Bool :=
  loc / 2 ^ 48 == 16 + die && loc % 2 ^ 48 / 256 % 32 == k && m.getLsbD (loc % 2 ^ 48 / 2 ^ 22 % 16)

/-- SLICE_WAYMASK_WRITE (R259): a change starts: ways leaving scratch are still reached by the accesses that came before. -/
def writeWaymask (s : State) (die k v : Nat) : State :=
  let x := sliceAt s die k
  if x.scratchBusy then s
  else
    let m := BitVec.ofNat 16 v
    setSlice s die k { x with scratch := m, scratchBusy := true, old := x.scratch &&& ~~~m, entering := m &&& ~~~x.scratch }

/-- R259: an operation under way touches a way leaving scratch. -/
def touchesWays (s : State) (die k : Nat) (m : BitVec 16) (o : Op) : Bool :=
  underWay o && (opAddrs s o).any (fun a => match xlateLate s (dieOf o.seq) o.asid a.1 a.2 with
    | .at_ loc => inWays die k m loc
    | _ => false)

/-- R259: the cells of ways leaving or entering scratch are gone: their offsets read as zero. -/
def dropWays (s : State) (die k : Nat) (m : BitVec 16) : State :=
  { s with mem := s.mem.filter (fun c => !inWays die k m c.1), damaged := s.damaged.filter (fun l => !inWays die k m l) }

/-- WAYMASK_CHANGE_COMPLETE (R259): every access before the change has performed; the ways that left and those that entered scratch have lost their
contents, and BUSY clears. What has been stored to an entering way since the change began is lost with it (log 135). -/
def endWaymask (s : State) (die k : Nat) : State :=
  let x := sliceAt s die k
  if !x.scratchBusy || (x.old != 0 && (s.ops.any (touchesWays s die k x.old) || s.forwards.any (fun f => f.cells.any (fun c => inWays die k x.old c.1)))) then s
  else setSlice (dropWays s die k (x.old ||| x.entering)) die k { x with scratchBusy := false, old := 0, entering := 0 }

/-- REMOTE_WAYS_WRITE (R258, R260). -/
def writeRemoteWays (s : State) (die k v : Nat) : State :=
  if 8 < v % 16 then s else setSlice s die k { sliceAt s die k with remoteWays := v % 16, remoteBusy := true }

/-- REMOTE_WAYS_CHANGE_COMPLETE (R260): lines are copies, and writing them back changes no value. -/
def endRemoteWays (s : State) (die k : Nat) : State := setSlice s die k { sliceAt s die k with remoteBusy := false }

/-- SLICE_WAYMASK as it reads. -/
def waymaskWord (x : Slice) : Nat := x.scratch.toNat + (if x.scratchBusy then 2 ^ 32 else 0)

/-- REMOTE_WAYS as it reads. -/
def remoteWaysWord (x : Slice) : Nat := x.remoteWays + (if x.remoteBusy then 16 else 0)

/-- SLICE_STAT as it reads. -/
def sliceStat (x : Slice) : Nat := x.pfDrop.toNat * 2 ^ 32 + x.fwdHit.toNat

def execSliceWaymaskWrite (s : State) : Host.Outcome State Fault Refusal := .next (writeWaymask s (s.bus.unit) (s.bus.reg) s.bus.val)
def execWaymaskChangeComplete (die slice : Nat) (s : State) : Host.Outcome State Fault Refusal := .next (endWaymask s die slice)
def execRemoteWaysWrite (s : State) : Host.Outcome State Fault Refusal := .next (writeRemoteWays s s.bus.unit s.bus.reg s.bus.val)
def execRemoteWaysChangeComplete (die slice : Nat) (s : State) : Host.Outcome State Fault Refusal := .next (endRemoteWays s die slice)

/-! Invalidation of translations (R263, R349). -/

/-- R263: an invalidation of an address space matches its 64 KiB page vpn. The caches hold a page in pieces of 64 KiB, and one whose SIZE is smaller than the page
drops the named pieces alone (DESIGN CHOICE, log 149). -/
def invalMatches (x : Invalidation) (asid vpn : Nat) : Bool :=
  x.asid == asid && (x.size == 3 || vpn * 65536 / pageBytes x.size == x.vpn * 65536 / pageBytes x.size)

/-- R263, R349: an invalidation matches an entry of the translation caches; one of a destination matches its pages, by their addresses there. -/
def entryMatches (x : Invalidation) (e : CacheEntry) : Bool :=
  match x.dest with
  | none => invalMatches x e.asid e.vpn
  | some n =>
    match e.result with
    | .page p =>
      (match p.target with
        | .remote d _ base => d == n && (x.size == 3 || (base + (e.vpn * 65536 - p.va)) / pageBytes x.size == x.vpn * 65536 / pageBytes x.size)
        | _ => false)
    | _ => false

/-- R349: an invalidation matches a page that a destination has been given from an address space. -/
def servedMatches (x : Invalidation) (y : Nat × Nat × Nat) : Bool := invalMatches x y.2.1 y.2.2

/-- R349: two invalidations of an address space share a page. -/
def invalMeets (x y : Invalidation) : Bool :=
  let n := max (pageBytes x.size) (pageBytes y.size)
  x.dest.isNone && y.dest.isNone && x.asid == y.asid && (x.size == 3 || y.size == 3 || x.vpn * 65536 / n == y.vpn * 65536 / n)

/-- R349: invalidations go to the destinations that have been given translations from the page, or that have not answered an invalidation of it. -/
def sendInvalidations (s : State) (die : Nat) (x : Invalidation) : State :=
  let given := (s.pod.served.filter (servedMatches x)).map (fun y => y.1)
  let asked := (s.pod.waits.filter (fun w => invalMeets x w.2.2)).map (fun w => w.1)
  let ds := (distinct (given ++ asked)).filter (fun d => !(destAt s d).fenced)
  { s with pod := { s.pod with served := s.pod.served.filter (fun y => !servedMatches x y),
                               waits := s.pod.waits ++ ds.map (fun d => (d, die, x)),
                               outbox := s.pod.outbox ++ ds.map (fun d => PodMsg.invalidation d x.vpn x.size) } }

/-- R263: the invalidation that a value of XLINV names. -/
def invalOf (v : Nat) : Invalidation := { dest := none, asid := v / 16 % 4096, size := v / 4 % 4, vpn := v / 2 ^ 16 }

/-- XLINV_GO (R263): a write of XLINV with GO starts an invalidation, unless one is in progress. -/
def startInval (s : State) (die v : Nat) : State :=
  let d := dieAt s die
  if v % 2 = 0 ∨ d.xlinv.isSome then s
  else sendInvalidations (setDie s die { d with xlinv := some (invalOf v) }) die (invalOf v)

/-- R263: an access under way on a die uses an entry that an invalidation matches; a write on its way to its home, or to another package, is one. -/
def usesEntry (s : State) (die : Nat) (x : Invalidation) (o : Op) : Bool :=
  let hits := (tget [] s.tlb die).filter (entryMatches x)
  dieOf o.seq == die && (underWay o || requestOut s o || s.forwards.any (fun f => f.op == o.id)) &&
    (usedAddrs s o).any (fun a => hits.any (fun e => e.asid == o.asid && e.vpn == a / 65536))

/-- R263: the read of a held bundle of a die, or a request that has been given up, waits for another package. -/
def heldRead (s : State) (die : Nat) : Bool :=
  s.pod.requests.any (fun r => !r.answered && ((decide (2 ^ 40 ≤ r.op) && decide (r.op < 2 ^ 40 + 8192)) || isOrphan r) && dieOf (r.op % 4096) == die)

/-- R263: the entries that an invalidation matches leave the caches of a die. -/
def dropEntries (s : State) (die : Nat) (x : Invalidation) : State :=
  { s with tlb := tput s.tlb die ((tget [] s.tlb die).filter (fun e => !entryMatches x e)) }

/-- R349: once no die is busy, the invalidations of destinations are answered. -/
def answerInvalidations (s : State) : State :=
  if s.pod.answers.isEmpty || (List.range 16).any (fun d => (dieAt s d).xlinv.isSome) then s
  else { s with pod := { s.pod with answers := [], outbox := s.pod.outbox ++ s.pod.answers.map PodMsg.invalidated } }

/-- XLINV_COMPLETE (R263, R349): BUSY of a die clears when no access uses a matching entry any more, every destination has answered, and the
entries are gone. -/
def endInval (s : State) (die : Nat) : State :=
  let d := dieAt s die
  match d.xlinv with
  | none => s
  | some x =>
    let waits := s.pod.waits.any (fun w => w.2.1 == die && !(destAt s w.1).fenced)
    if waits || heldRead s die || s.ops.any (usesEntry s die x) then s
    else
      let s1 := dropEntries (setDie s die { d with xlinv := none }) die x
      answerInvalidations { s1 with pod := { s1.pod with waits := s1.pod.waits.filter (fun w => w.2.1 != die) } }

def execXlinvGo (s : State) : Host.Outcome State Fault Refusal := .next (startInval s s.bus.unit s.bus.val)
def execXlinvComplete (die : Nat) (s : State) : Host.Outcome State Fault Refusal := .next (endInval s die)

/-! Ring descriptors (R270). -/

/-- R270: the descriptor that a value of RINGD registers, its pointers at 0. -/
def ringOfWord (v : Nat) : Ring :=
  let base := v / 2 ^ 32 % 2 ^ 10
  let n := v / 2 ^ 24 % 2 ^ 7
  { valid := v.testBit 63 && decide (base * 256 + 256 * (n + 1) ≤ 0x40000), ppkg := BitVec.ofNat 10 (v / 2 ^ 53), pseq := BitVec.ofNat 11 (v / 2 ^ 42),
    base := BitVec.ofNat 10 base, nslot := BitVec.ofNat 7 n, count := 0, head := 0, tail := 0 }

/-- RINGD_WRITE (R270): ignored on a registered ring unless it clears VALID. COUNT, HEAD and TAIL are zero after every write that is taken, also one that leaves
VALID 0 (DESIGN CHOICE, log 63). -/
def writeRing (s : State) (k n v : Nat) : State :=
  let c := coreAt s k
  let r := tget Ring.reset c.rings n
  if r.valid && v.testBit 63 then s else setCore s k { c with rings := tput c.rings n (ringOfWord v) }

/-- RINGD as it reads. -/
def ringWord (r : Ring) : Nat :=
  (if r.valid then 2 ^ 63 else 0) + r.ppkg.toNat * 2 ^ 53 + r.pseq.toNat * 2 ^ 42 + r.base.toNat * 2 ^ 32 + r.nslot.toNat * 2 ^ 24 + r.count % 256 * 2 ^ 16
    + r.head % 256 * 2 ^ 8 + r.tail % 256

def execRingdWrite (s : State) : Host.Outcome State Fault Refusal := .next (writeRing s s.bus.unit (s.bus.reg % 64) s.bus.val)

end Sys2Proof.Machine
end

