-- ==== Sys2Proof/Machine/Sched.lean ====
section
/-! DEFINITION. Sys2Proof/Machine/Sched.lean: the scheduler's steps: placement and registration (R283, R288-R291), release and kill (R292, R293,
R298, R301), pre-emption (R299, R300), and checkpoint and restore (R302-R307). -/

namespace Sys2Proof.Machine

def execTeamPlace (die : Nat) (s : State) : Host.Outcome State Fault Refusal := .next (placeHead s die)
def execCohortPlace (die : Nat) (s : State) : Host.Outcome State Fault Refusal := .next (placeCohortHead s die)
def execLaunchViewRegister (die task : Nat) (s : State) : Host.Outcome State Fault Refusal := .next (registerViews s die task)
def execTimedStart (q : Nat) (s : State) : Host.Outcome State Fault Refusal := .next (timedStart s q)
def execPkgBarrierMessage (msg : Nat) (s : State) : Host.Outcome State Fault Refusal := .next (deliverBarrier s msg)

/-! Release and kill (R292, R293, R298, R301). -/

/-- R292, R320: the writes that proxies hold are performed at their homes, in order; one to a held pseudo-channel waits. -/
def flushForwards (s : State) : State :=
  let s1 := (s.forwards.filter (fun f => !forwardHeld s f)).foldl performForward s
  let left := s.forwards.filter (forwardHeld s)
  { s1 with forwards := left, ops := s1.ops.filter (fun o => o.phase != .drained || left.any (fun f => f.op == o.id)) }

/-- R293: a producer of a task has been killed, or is being killed. -/
def producerKilled (s : State) (asid : Nat) (p : Word) : Bool :=
  s.killed.contains (taskKey asid p) || (match taskNo s (taskKey asid p) with
    | some t => t.killed
    | none => false)

/-- R293: the poison records of a producer that can meet a view. -/
def meetingRecords (s : State) (t : Task) (p : Word) (v : View) : List PoisonRecord :=
  ((List.range 16).flatMap (fun d => tget [] s.poison d)).filter (fun r =>
    r.task == taskKey t.asid p && canMeet s r.asid r.view t.asid v)

/-- Records added to the directories of dies, each once. -/
def addRecords (s : State) (ds : List Nat) (l : List PoisonRecord) : State :=
  match ds with
  | [] => s
  | d :: rest =>
    let old := tget [] s.poison d
    addRecords { s with poison := tput s.poison d (old ++ l.filter (fun r => !old.contains r)) } rest l

/-- R293: view n of a task, named on an edge: whether it opens poisoned, and the records that meet it in the directories of the task's dies. -/
def edgeView (e : Edge) (x : State × Task) (n : Nat) : State × Task :=
  if !e.evmask.getLsbD n then x
  else
    let s := x.1
    let t := x.2
    let v := vget View.reset t.info.views n
    let l := meetingRecords s t e.ptask v
    let s1 := if l.isEmpty then s else addRecords s (teamDies t) l
    if l.isEmpty && !producerKilled s t.asid e.ptask then (s1, t) else (s1, { t with poisoned := t.poisoned ||| (1#16 <<< n) })

/-- R292: the operation writes a byte of a view that an edge of a task names, for a strand of the edge's producer; a copy with a stamp counts. -/
def producerWrite (s : State) (t : Task) (o : Op) : Bool :=
  t.info.edges.any (fun e =>
    let named := (List.range 16).filter (fun n => e.evmask.getLsbD n)
    let stamped := (match o.kind with
      | .copy vd _ _ _ _ _ _ _ _ => vd.stamp != 0xFFFFFFFF
      | _ => false)
    taskOf (seqAt s o.seq) == taskKey t.asid e.ptask && !named.isEmpty && (stamped || (accessesOf o).any (fun x =>
      x.2.2 && named.any (fun n => canMeet s o.asid x.2.1 t.asid (vget View.reset t.info.views n)))))

/-- R292, R293: a parked task is released: what its producers' strands have issued to write in its named views performs before it is placed, and these
views carry their poison. -/
def releaseTask (s : State) (key : Nat) : State :=
  match taskNo s key with
  | none => s
  | some t =>
    if !t.parked then s
    else
      let r := t.info.edges.foldl (fun x e => (List.range 16).foldl (edgeView e) x) (flushForwards s,
        { t with parked := false, awaits := (s.ops.filter (producerWrite s t)).map (fun o => o.id) })
      setTask r.1 key r.2

/-- TASKCMD_RELEASE, TASKCMD_KILL (R298): the task that the command names, if one lives. -/
def commandTask (s : State) (id : Nat) (f : State → Nat → State) : State :=
  match findTask s (BitVec.ofNat 32 id) with
  | some (key, _) => f s key
  | none => s

/-- R298: TASKCMD written whole. -/
def writeTaskcmd (s : State) (v : Nat) : State :=
  if v % 4 = 1 then commandTask s (v / 2 ^ 32) releaseTask else if v % 4 = 2 then commandTask s (v / 2 ^ 32) killTask else s

def execTaskcmdRelease (s : State) : Host.Outcome State Fault Refusal := .next (commandTask s s.bus.val releaseTask)
def execTaskcmdKill (s : State) : Host.Outcome State Fault Refusal := .next (commandTask s s.bus.val killTask)

/-! Checkpoint (R302-R305). -/

/-- A list with zeros after it, to n bytes. -/
def padTo (n : Nat) (l : List Byte) : List Byte := l ++ List.replicate (n - l.length) 0

/-- R302-R305: a landed strand as its block gives it: its position settled, the stage predicates of an iteration to come set, the counters as before
landings already taken, latches and marks zero. -/
def stillSeq (sq : Seq) : Seq :=
  let x := settle sq
  { x with preds := if x.stageDue then stagePreds x else x.preds,
           queue := if x.tickOpen then x.queue.map (fun p => { p with cnt := p.cnt + 1 }) else x.queue,
           latches := Vector.replicate 8 0, busy := 0 }

/-- R305: the stop that the position of a block stands for. -/
def blockStop (sq : Seq) : StopInfo :=
  { kind := 0, cause := 0, slot := 0, engine := 0, cqn := 0, aux0 := 0, aux1 := 0, cmask := 0xFF, baddr := sq.pc, idx := [], op := none }

/-- R305: the loop stack of a block's region, 96 bytes. -/
def loopsImage (l : List LoopLevel) : List Byte := padTo 96 ((l.take 6).flatMap (fun x => leBytes 16 (loopWord x)))

def regsImage (v : Vector Word 32) : List Byte := (List.range 32).flatMap (fun k => leBytes 4 (vget 0 v k).toNat)

/-- R305: a region; QMARK counts the entries issued before its tick. Bit 0 of its predicates, which no rule gives, is 1, as p0 reads (log 121). -/
def regionImage (sq : Seq) (r : Region) : List Byte :=
  padTo 32 (leBytes 4 r.handler.toNat ++ leBytes 4 (sq.queue.filter (fun p => decide (p.tick < r.tick))).length ++ leBytes 4 (r.preds ||| 1).toNat
    ++ leBytes 4 (stageWord r.stage).toNat ++ leBytes 4 r.loops.length) ++ loopsImage r.loops ++ regsImage r.regs

/-- R305: the control words of a block. -/
def ctlNumbers : List Nat := [0x000, 0x001, 0x008, 0x009, 0x00A, 0x00B, 0x00C, 0x010, 0x011, 0x012, 0x013, 0x016]

/-- R305: the byte of a barrier record. -/
def armByte (a : BarrierArm) : Nat := (if a.arr then 1 else 0) + a.gen.toNat * 2

/-- R305: a strand block, 16,384 bytes. -/
def strandImage (q : Nat) (sq : Seq) (free : Nat) : List Byte :=
  let low := faultRecord sq (blockStop sq) free ++ regsImage sq.regs ++ padTo 64 (ctlNumbers.flatMap (fun n => leBytes 4 (ctlRead q sq n).toNat))
    ++ (List.range 4).flatMap (fun n => leBytes 8 (planeWord (shapeAt sq n).active) ++ leBytes 8 (planeWord (shapeAt sq n).shadow))
    ++ padTo 64 ((List.range 40).map (fun n => BitVec.ofNat 8 (armByte (armOf sq (n / 8) (n % 8)))))
    ++ leBytes 4 sq.regions.length ++ leBytes 4 (sq.preds &&& 0xFE).toNat
  padTo 16384 (padTo 0x2800 low ++ (List.range 16).flatMap (fun n => leBytes 64 (imageOfView (viewAt sq n)))
    ++ (List.range 8).flatMap (fun q => (List.range 64).flatMap (fun n => leBytes 2 (vget 0 (scaleAt sq q) n).toNat))
    ++ sq.regions.reverse.flatMap (regionImage sq))

/-- R304: a core's block, 528,384 bytes. -/
def coreImage (c : CoreState) : List Byte :=
  padTo 528384 ((List.range 1024).flatMap (fun k => bytesOfRow (tget 0 c.tiles k)) ++ (List.range 1024).flatMap (fun k => bytesOfRow (spadRow c k))
    ++ (List.range 64).flatMap (fun n => leBytes 8 (ringWord (tget Ring.reset c.rings n))))

/-- R302: the landing of a strand; none while it has not landed. -/
def landingOf (sq : Seq) : Option (BitVec 64) :=
  match sq.landing with
  | .landed t => some t
  | _ => none

/-- The strands of a team that have not ended. -/
def liveStrands (x : Team) : List Nat := (List.range 8).filter (fun j => x.live.getLsbD j)

/-- R304: GT of landing: the latest of its strands. -/
def landingTime (s : State) (x : Team) : BitVec 64 :=
  ((liveStrands x).filterMap (fun j => landingOf (seqAt s (strandSeq x.quad x.mask j)))).foldl (fun a b => if a.ult b then b else a) 0

/-- R304: the header. -/
def headerImage (s : State) (t : Task) (k : Nat) (x : Team) : List Byte :=
  padTo 4096 (leBytes 4 t.info.taskId.toNat ++ leBytes 4 k ++ leBytes 1 (t.info.spt + 1) ++ leBytes 1 x.mask.toNat ++ leBytes 1 (if x.leased then 1 else 0)
    ++ leBytes 1 (x.quad % 16) ++ leBytes 1 (x.quad / 16) ++ leBytes 3 0 ++ leBytes 8 (landingTime s x).toNat)

/-- R303: every strand of a team has landed, and its operations have completed. -/
def teamLanded (s : State) (x : Team) : Bool :=
  (liveStrands x).all (fun j =>
    let q := strandSeq x.quad x.mask j
    let sq := seqAt s q
    sq.status == .running && hasLanded sq && sq.reports.isEmpty && sq.unwind.isNone && sq.reissue.isNone
      && s.ops.all (fun o => o.seq != q || isComplete o))

/-- R342: what firmware memory keeps of a strand. -/
def savedStrand (j : Nat) (sq : Seq) : SavedStrand :=
  { strand := j, counters := sq.counters, ticks := sq.ticks, barWait := sq.barWait, held30 := sq.map30.bind (fun m => m.held),
    held31 := sq.map31.bind (fun m => m.held), regions := sq.regions, loops := sq.loops,
    opened := sq.views.toList.filter (fun v => v.isOpen && v.handle != 0) }

/-- R303, R305: strand j's block is written, its registrations stay under another number, and its sequencer is free. -/
def saveStrand (t : Task) (key k : Nat) (x : Team) (s : State) (j : Nat) : State :=
  let q := strandSeq x.quad x.mask j
  let sq := stillSeq (seqAt s q)
  let s1 := writeVirtual { s with free := s.free + 16384 } t.asid (strandBlock t k j) (strandImage q sq s.free)
  let retag := fun (e : FlockEntry) => if e.seq = some q then { e with seq := some (outSeq q (teamKey key k) j) } else e
  let s2 := { s1 with flock := s1.flock.map (fun p => (p.1, p.2.map retag)) }
  setSeq s2 q (keepDebug sq Seq.reset)

/-- R304, R307: a core's block is written, its descriptors become its suspended set, and it is free. -/
def saveCore (t : Task) (k : Nat) (s : State) (c : Nat) : State :=
  let x := coreAt s c
  let s1 := writeVirtual s t.asid (t.ckBase + 0x2B8000 * k + 0x21000 + 0x81000 * (c % 4)) (coreImage x)
  setCore s1 c { CoreState.reset with suspended := some x.rings }

/-- R303: the team's array state goes into its block, from the array when it is loaded, and its lease is released. -/
def saveTeamArray (s : State) (key k : Nat) (x : Team) : State :=
  let y := quadAt s x.quad
  if y.owner = some (teamKey key k) then
    let s1 := saveArray s x.quad (teamKey key k)
    dropLease (setQuad s1 x.quad { quadAt s1 x.quad with owner := none }) x.quad x.mask
  else dropLease s x.quad x.mask

/-- R343: a CHECKPOINTED event of the task of a die's open capture. -/
def capturePreempt (s : State) (die key : Nat) : State :=
  let d := dieAt s die
  if ofCapture d.capture key then setDie s die { d with capture := { d.capture with preempt := d.capture.preempt + 1 } } else s

/-- R294: an event of a team. -/
def teamEvent (s : State) (kind : Nat) (t : Task) (k : Nat) (x : Team) : State :=
  let die := x.quad / 16
  postEvent s die (eventRecord kind (gtAt s die) t.info.taskId k 0 (x.quad % 16))

/-- CHECKPOINT_WRITE (R303-R305): the checkpoint of a team whose strands have landed; the team is out. -/
def checkpointTeam (s : State) (key k : Nat) : State :=
  match taskNo s key with
  | none => s
  | some t =>
    let x := teamAt t k
    let die := x.quad / 16
    if x.phase ≠ .landing ∨ !teamLanded s x ∨ !eventRoom s die ∨ t.killed then s
    else
      let cores := maskCores x.quad x.mask
      let kept : SavedTeam :=
        { strands := (liveStrands x).map (fun j => savedStrand j (seqAt s (strandSeq x.quad x.mask j))),
          cores := cores.map (fun c => { core := c % 4, stalls := (coreAt s c).stalls, placed := (coreAt s c).placed }) }
      let s1 := writeVirtual s t.asid (t.ckBase + 0x2B8000 * k) (headerImage s t k x)
      let s2 := saveTeamArray s1 key k x
      let s3 := (liveStrands x).foldl (saveStrand t key k x) s2
      let s4 := cores.foldl (saveCore t k) s3
      let s5 := returnCool s4 x.quad x.mask
      let s6 := setTask s5 key (putTeam ((taskNo s5 key).getD t) k { x with phase := .out, saved := kept })
      teamEvent (capturePreempt s6 die key) 5 t k x

def execCheckpointWrite (task team : Nat) (s : State) : Host.Outcome State Fault Refusal := .next (checkpointTeam s task team)

/-! Restore (R306, R307). -/

/-- R305: region k of a block, from 0 outermost, and its QMARK. -/
def regionOf (l : List Byte) (k : Nat) : Region × Nat :=
  let b := (l.drop (0x3000 + 0x100 * k)).take 256
  ({ handler := wordAt b 0 &&& 0xFFFFFFE0, tick := k + 1, regs := Vector.ofFn (fun (n : Fin 32) => wordAt b (0x80 + 4 * n.val)),
     preds := BitVec.ofNat 8 (natAt b 8 1) ||| 1, loops := (List.range (min (natAt b 0x10 4) 6)).map (fun n => loopOfWord (natAt b (0x20 + 16 * n) 16)),
     stage := stageOfWord (wordAt b 0x0C), opened := [], retired := [] }, natAt b 4 4)

/-- R75: one half of CQMAP, with the entry held. -/
def mapOfWord (b : Nat) (held : Option Word) : Option QueueMap :=
  if b < 128 then none else some { ring := b % 128, held := held }

/-- R342: a region of a block with what firmware memory has kept of it: its views, its mappings, and the bodies of its levels. -/
def keptRegion (s : State) (r o : Region) : Region :=
  { r with opened := o.opened, retired := o.retired, mapped30 := o.mapped30, mapped31 := o.mapped31,
           loops := (r.loops.zip (List.range r.loops.length)).map (fun x => restoredLevel s o.loops[x.2]? x.1) }

/-- R342: the regions of a block, innermost first, with those that firmware memory has kept. -/
def keptRegions (s : State) (l old : List Region) : List Region :=
  match l, old with
  | r :: rest, o :: more => keptRegion s r o :: keptRegions s rest more
  | l, _ => l

/-- R305, R306: the control registers, the shapes, views, scales and barrier records of a block. -/
def blockRegs (l : List Byte) (y : SavedStrand) (sq : Seq) : Seq :=
  let w := fun (k : Nat) => wordAt l (0x2380 + 4 * k)
  let plane := fun (o : Nat) => planeOfWord (natAt l o 8)
  let arms := ((List.range 40).filter (fun n => natAt l (0x2400 + n) 1 != 0)).map (fun n =>
    (n, ({ arr := (natAt l (0x2400 + n) 1).testBit 0, gen := BitVec.ofNat 7 (natAt l (0x2400 + n) 1 / 2) } : BarrierArm)))
  { sq with
    regs := Vector.ofFn (fun (n : Fin 32) => wordAt l (0x2300 + 4 * n.val)), preds := BitVec.ofNat 8 (natAt l 0x2444 1) ||| 1,
    cstat := (w 0).setWidth 5, rmode := (w 1).setWidth 2, est := (w 3).setWidth 64 <<< 32 ||| (w 2).setWidth 64,
    ts := (w 5).setWidth 64 <<< 32 ||| (w 4).setWidth 64, gtSnap := w 6, trapVec := w 7 &&& 0xFFFFFFE0, epc := w 8 &&& 0xFFFFFFE0,
    edly := w 9 &&& 0xFFFFFFE3, inTrap := (w 10).getLsbD 8, trapCode := (w 10).setWidth 8,
    map30 := mapOfWord ((w 11).toNat / 2 ^ 8 % 256) y.held30, map31 := mapOfWord ((w 11).toNat / 2 ^ 24 % 256) y.held31,
    shapes := Vector.ofFn (fun (n : Fin 4) => { active := plane (0x23C0 + 16 * n.val), shadow := plane (0x23C8 + 16 * n.val) }),
    views := Vector.ofFn (fun (n : Fin 16) => viewOfImage (natAt l (0x2800 + 64 * n.val) 64)),
    scales := Vector.ofFn (fun (q : Fin 8) => Vector.ofFn (fun (n : Fin 64) => BitVec.ofNat 16 (natAt l (0x2C00 + 128 * q.val + 2 * n.val) 2))),
    barriers := arms }

/-- R305: the entry at place i of a restored queue, with a tick that stands after those of the regions that it was issued in. -/
def placeEntry (marks : List Nat) (x : Pend × Nat) : Pend := { x.1 with tick := (marks.filter (fun m => decide (m ≤ x.2))).length }

/-- R306: the running stream, a strand at its start with the loop levels that firmware memory has kept, from its block; none where the checks of R195
fail. -/
def seqOfBlock (s : State) (l : List Byte) (y : SavedStrand) : Option Seq :=
  match readRecord l [] 0 with
  | none => none
  | some r =>
    let rs := (List.range (min (natAt l 0x2440 4) 4)).map (regionOf l)
    let q := (r.queue.zip (List.range r.queue.length)).map (placeEntry (rs.map (fun x => x.2)))
    let sq := blockRegs l y (restorePosition s l r)
    some { sq with queue := q, latches := Vector.replicate 8 0, regions := keptRegions s (rs.map (fun x => x.1)).reverse y.regions,
                   counters := y.counters, ticks := y.ticks, barWait := y.barWait, status := .running }

/-- R306: strand j of a team resumes, or a FAULT is posted for it. -/
def restoreStrand (t : Task) (key k : Nat) (x : Team) (s : State) (y : SavedStrand) : State :=
  let j := y.strand
  let q := strandSeq x.quad x.mask j
  let old := seqAt s q
  let start := keepDebug old { Seq.reset with asid := t.asid, task := t.info.taskId, team := BitVec.ofNat 32 k, strand := BitVec.ofNat 3 j }
  let retag := fun (e : FlockEntry) => if e.seq = some (outSeq q (teamKey key k) j) then { e with seq := some q } else e
  let s1 := passVirtual { s with flock := s.flock.map (fun p => (p.1, p.2.map retag)) } t.asid (strandBlock t k j) 16384
  let s0 := { setSeq s1 q { start with loops := y.loops } with cur := q }
  match seqOfBlock s0 (virtualBytes s1 t.asid (strandBlock t k j) 16384) y with
  | some sq => setSeq s1 q sq
  | none =>
    let s2 := setSeq s1 q { start with status := .faulted, resFail := true, counters := y.counters, ticks := y.ticks }
    postEvent s2 (x.quad / 16) (eventRecord 2 start.sqfra t.info.taskId k j (x.quad % 16))

/-- R304, R307, R342: a core from its block, with its suspended set live again. -/
def restoreCore (t : Task) (key k : Nat) (s : State) (y : SavedCore) : State :=
  let x := teamAt t k
  let c := x.quad * 4 + y.core
  let block := t.ckBase + 0x2B8000 * k + 0x21000 + 0x81000 * y.core
  let rows := (chunks 256 2048 (virtualBytes s t.asid block 0x80000)).map rowOfBytes
  setCore (passVirtual s t.asid block 0x80000) c
    { CoreState.reset with
      tiles := sparseOf 0 (rows.take 1024), spad := sparseOf 0 (rows.drop 1024), stalls := y.stalls, placed := y.placed,
      rings := ((coreAt s c).suspended).getD [], lenient := t.info.lenient, team := some (teamKey key k) }

/-- R306: the cores of a team that is out are free, and its coolant. -/
def coresFree (s : State) (t : Task) (x : Team) : Bool :=
  (maskCores x.quad x.mask).all (fun c => (coreAt s c).team.isNone) && zoneFree (zoneAt s (zoneOf x.quad)) t.info.cool

/-- R195, R306: the block of a strand that is out fails the checks of a resume. -/
def blockFails (s : State) (t : Task) (k : Nat) (y : SavedStrand) : Bool :=
  (readRecord (virtualBytes s t.asid (strandBlock t k y.strand) 16384) [] 0).isNone

/-- R295, R306: the events of a restore find slots: RESTORED, and a FAULT for each block that fails. -/
def restoreRoom (s : State) (t : Task) (k : Nat) (x : Team) : Bool :=
  let e := eventsAt s (x.quad / 16)
  decide (e.count + (x.saved.strands.filter (blockFails s t k)).length < 512) && e.waiting.isEmpty

/-- TEAM_RESTORE (R306): the head of a die's order, a team that is out, returns to its cores, once no strand holds a pseudo-channel of its checkpoint (R275) and
its events find slots (R295). -/
def restoreTeam (s : State) (key k : Nat) : State :=
  match taskNo s key with
  | none => s
  | some t =>
    let x := teamAt t k
    let die := x.quad / 16
    let first := (orderHead s die).any (fun e => e.restore && e.key == key && e.team == k)
    let waits := virtualHeld s t.asid (t.ckBase + 0x2B8000 * k) 0x2B8000 || !restoreRoom s t k x
    if x.phase ≠ .out ∨ !first ∨ !coresFree s t x ∨ !(dieAt s die).go ∨ waits then s
    else
      let leased := natOfBytes (virtualBytes s t.asid (t.ckBase + 0x2B8000 * k + 0x0A) 1) = 1
      let s1 := x.saved.cores.foldl (restoreCore t key k) (passVirtual s t.asid (t.ckBase + 0x2B8000 * k + 0x0A) 1)
      let s2 := x.saved.strands.foldl (restoreStrand t key k x) s1
      let back := { x with phase := .placed, leased := leased, saved := { strands := [], cores := [] } }
      let s3 := setTask s2 key (unpinned (putTeam t k back))
      teamEvent (takeCool s3 x.quad x.mask t.info.taskId t.info.cool) 8 t k x

def execTeamRestore (task team : Nat) (s : State) : Host.Outcome State Fault Refusal := .next (restoreTeam s task team)

/-! Decisions (R299, R300). -/

/-- R299: the newcomer of a die: the head of its order, when it cannot be placed for want of a quad. A cohort or a team that waits only for its launch
views to register is none (log 106). -/
def newcomer (s : State) (die : Nat) : Option (OrderEntry × Task) :=
  match orderHead s die with
  | none => none
  | some e =>
    match taskNo s e.key with
    | none => none
    | some t =>
      let x := teamAt t e.team
      let placeable :=
        if e.restore then coresFree s t x
        else if e.cohort then (placeCohort t.teams.length 0 (setTask s e.key { t with dies := List.range 16 }) e.key).isSome
        else
          match x.die with
          | some d => !(freeQuads s d t.info).isEmpty
          | none => !(openDies s t e.team).isEmpty
      if placeable || !(dieAt s die).go then none else some (e, t)

/-- R299: the teams of a task placed on a quad; one that is landing already counts no more (DESIGN CHOICE, log 152). -/
def teamsOn (t : Task) (quad : Nat) : List Nat :=
  (List.range t.teams.length).filter (fun k => (teamAt t k).phase == .placed && (teamAt t k).quad == quad)

/-- R299: a quad whose cores, freed of a task's teams, would be free for a newcomer. -/
def wouldFit (s : State) (e : OrderEntry) (n v : Task) (quad : Nat) : Bool :=
  let l := teamsOn v quad
  let freed := l.flatMap (fun k => maskCores quad (teamAt v k).mask)
  let open_ := fun (c : Nat) => (coreAt s c).team.isNone || freed.contains c
  let z := zoneAt s (zoneOf quad)
  let coolant := decide (z.mode ≤ 1) && decide (zoneUsed z + n.info.cool ≤ z.cap + l.length * v.info.cool)
  let cores :=
    if e.restore then (teamAt n e.team).quad == quad && (maskCores quad (teamAt n e.team).mask).all open_
    else decide (coresNeeded n.info ≤ ((List.range 4).filter (fun c => open_ (quad * 4 + c))).length)
  !l.isEmpty && cores && coolant

/-- R299: the lowest quad of a die that a victim would free. -/
def victimQuad (s : State) (die : Nat) (e : OrderEntry) (n v : Task) : Option Nat :=
  ((List.range 16).map (fun k => die * 16 + k)).find? (wouldFit s e n v)

/-- R299: the lower priority, then the later launch. -/
def weaker (a b : Nat × Task) : Bool := decide (a.2.info.prio < b.2.info.prio) || (a.2.info.prio == b.2.info.prio && decide (b.2.order < a.2.order))

def weakest (l : List (Nat × Task)) : Option (Nat × Task) :=
  match l with
  | [] => none
  | a :: rest =>
    match weakest rest with
    | none => some a
    | some b => if weaker b a then some b else some a

/-- R299: the victim of a newcomer, and the affected teams. -/
def victim (s : State) (die : Nat) (e : OrderEntry) (n : Task) : Option (Nat × Task × List Nat) :=
  let l := s.tasks.filter (fun v => decide (v.2.info.prio < e.prio) && !v.2.killed && (victimQuad s die e n v.2).isSome)
  match weakest l with
  | none => none
  | some (key, v) =>
    let teams :=
      if v.info.cohort then (List.range v.teams.length).filter (fun k => (teamAt v k).phase == .placed)
      else teamsOn v ((victimQuad s die e n v).getD 0)
    some (key, v, teams)

/-- The sequencers of the strands of a task's teams on their quads that have not ended. -/
def placedStrands (t : Task) : List Nat :=
  t.teams.flatMap (fun x => if x.phase = .placed ∨ x.phase = .landing then (liveStrands x).map (strandSeq x.quad x.mask) else [])

/-- R300: e: the largest estimate among a victim's strands on a die. -/
def largestEst (s : State) (die : Nat) (v : Task) : BitVec 64 :=
  ((placedStrands v).filter (fun q => dieOf q == die)).foldl (fun a q => if a.ult (seqAt s q).est then (seqAt s q).est else a) 0

/-- R300: a checkpoint of the affected teams may be taken. -/
def mayCheckpoint (s : State) (die : Nat) (n v : Task) (teams : List Nat) : Bool :=
  v.info.ckpt && v.info.ckh != 0 && handleCurrent s v.asid v.info.ckh && (placedStrands v).all (fun q => (seqAt s q).status != .faulted)
    && teams.all (fun k => (maskCores (teamAt v k).quad (teamAt v k).mask).all (fun c => (coreAt s c).suspended.isNone))
    && decide (teams.length * (dieAt s die).ckptCost.toNat ≤ n.tokens)

/-- R302: the strands of a team are asked to land. -/
def askLanding (x : Team) (s : State) (j : Nat) : State :=
  let q := strandSeq x.quad x.mask j
  setSeq s q { seqAt s q with landing := .asked }

/-- R301: the affected teams of a task are to land, at the BASE of CKH as it stands. -/
def startCheckpoint (s : State) (key : Nat) (v : Task) (teams : List Nat) : State :=
  let t := { v with ckBase := (handleEntry s v.asid v.info.ckh).base, ckPinned := true }
  let t1 := teams.foldl (fun t k => putTeam t k { teamAt t k with phase := .landing }) t
  teams.foldl (fun s k => (liveStrands (teamAt v k)).foldl (askLanding (teamAt v k)) s) (setTask s key t1)

/-- R300: tokens are taken from a task. -/
def spendTokens (s : State) (key n : Nat) : State :=
  match taskNo s key with
  | some t => setTask s key { t with tokens := t.tokens - n }
  | none => s

/-- R300: the decision for a newcomer of a die. -/
def decideFor (s : State) (die : Nat) (e : OrderEntry) (n : Task) (key : Nat) (v : Task) (teams : List Nat) : State :=
  let d := dieAt s die
  let note := fun (code : Nat) (s : State) =>
    setDie s die { dieAt s die with decision := some { code := code, newTask := e.key, newTeam := e.team, victim := key, teams := teams,
                                                       since := gtAt s die } }
  let kills := teams.length * d.killCost.toNat
  if (largestEst s die v).ult d.drainLimit then note 1 s
  else if mayCheckpoint s die n v teams then
    startCheckpoint (note 2 (spendTokens s e.key (teams.length * d.ckptCost.toNat))) key v teams
  else if v.info.kill && decide (kills ≤ n.tokens) then killTask (note 3 (spendTokens s e.key kills)) key
  else note 4 s

/-- R299: a die decides afresh; without a newcomer or a victim there is no decision. -/
def decide_ (s : State) (die : Nat) : State :=
  let none_ := setDie s die { dieAt s die with decision := none }
  match newcomer s die with
  | none => none_
  | some (e, n) =>
    match victim s die e n with
    | none => none_
    | some (key, v, teams) => decideFor s die e n key v teams

/-- R299: a decision whose affected teams are still on their cores is in progress, even when its newcomer has been placed elsewhere (log 124). -/
def decisionLive (s : State) (d : Decision) : Bool :=
  d.code != 4 && (match taskNo s d.victim with
    | none => false
    | some t => d.teams.any (fun k => (teamAt t k).phase == .placed || (teamAt t k).phase == .landing))

/-- R299, R300: a wait for the newcomer that stands. -/
def waitStands (s : State) (die : Nat) (d : Decision) : Bool :=
  d.code == 4 && (match newcomer s die with
    | some (e, _) => e.key == d.newTask && e.team == d.newTeam
    | none => false)

/-- PREEMPT_DECISION (R299): a decision is taken, when none is in progress. -/
def preemptDecision (s : State) (die : Nat) : State :=
  match (dieAt s die).decision with
  | none => decide_ s die
  | some d => if decisionLive s d || waitStands s die d then s else decide_ s die

/-- R300: a wait is to be decided afresh: PPERIOD has passed, or the victim set has changed: the chosen victim and the teams it affects
(DESIGN CHOICE, log 137). -/
def waitOver (s : State) (die : Nat) (d : Decision) : Bool :=
  decide ((dieAt s die).pperiod.toNat ≤ (gtAt s die - d.since).toNat) ||
    (match newcomer s die with
      | none => true
      | some (e, n) =>
        (match victim s die e n with
          | none => true
          | some (key, _, teams) => key != d.victim || teams != d.teams))

/-- PREEMPT_REEVALUATE (R300). -/
def preemptAgain (s : State) (die : Nat) : State :=
  match (dieAt s die).decision with
  | none => s
  | some d => if d.code = 4 ∧ waitOver s die d then decide_ s die else s

/-- R298: SCHEDSTAT.DECIDE. -/
def decideCode (s : State) (die : Nat) : Nat :=
  match (dieAt s die).decision with
  | none => 0
  | some d => if decisionLive s d || waitStands s die d then d.code else 0

/-- R290, R298: team k of a task waits on a die: in the order of the die that it was sent to, or, also for a cohort, of its home die, or to return there. -/
def waitsOn (t : Task) (die k : Nat) : Bool :=
  let x := teamAt t k
  let at_ := if t.info.cohort then t.home else x.die.getD t.home
  !t.killed && ((x.phase == .waiting && !t.parked && at_ == die) || (x.phase == .out && x.quad / 16 == die))

/-- R298: SCHEDSTAT as it reads. -/
def schedStat (s : State) (die : Nat) : Nat :=
  let teams := s.tasks.flatMap (fun t => (List.range t.2.teams.length).filter (waitsOn t.2 die))
  (eventsAt s die).count % 1024 * 2 ^ 32 + teams.length % 65536 * 2 ^ 16 + decideCode s die

def execPreemptDecision (die : Nat) (s : State) : Host.Outcome State Fault Refusal := .next (preemptDecision s die)
def execPreemptReevaluate (die : Nat) (s : State) : Host.Outcome State Fault Refusal := .next (preemptAgain s die)

end Sys2Proof.Machine
end

