-- ==== Sys2Proof/Machine/TaskEnd.lean ====
section
/-! DEFINITION. Sys2Proof/Machine/TaskEnd.lean: the end of a task (R295, R345) and the host queues (R323-R326). -/

namespace Sys2Proof.Machine

/-! The end of a task. -/

/-- R345: the bytes of view entry n that the digest covers; a tile view has none. -/
def digestBytes (s : State) (t : Task) (n : Nat) : List Byte :=
  let v := vget View.reset t.info.views n
  if v.handle = 0 ∨ (v.mode ≠ 1 ∧ v.mode ≠ 2) then [] else unitBytes s t.asid (s.free + n) v

/-- R345: the digest of a task. -/
def taskDigest (s : State) (t : Task) : List Byte :=
  shake256 32 (((List.range 16).filter (fun n => t.info.vmask.getLsbD n)).flatMap (digestBytes s t))

/-- R257, R345: the reads of the digest of a task pass the forwarding buffers of uncached slices. -/
def passDigest (s : State) (t : Task) : State :=
  ((launchViews t.info).filter (fun v => v.2.mode == 1 || v.2.mode == 2)).foldl (fun s v => passView s t.asid v.2) s

/-- R345: a DIGEST record. -/
def digestRecord (s : State) (t : Task) (off result : Nat) : State :=
  traceRecord s t.home 0x19 (BitVec.ofNat 64 (t.info.taskId.toNat * 2 ^ 32 + off / 64 * 64 + result)) 0 none

/-- R344, R345: the replay unit of the home die at the completion of a task: with MODE 1 the time and the digest go into its entry, with MODE 2 the digest
of a task of the address space, or of one that has an entry, is compared. -/
def replayEnd (s : State) (t : Task) : State :=
  let p := (dieAt s t.home).replay
  let base := location t.home p.base.toNat
  let s1 := passDigest { s with free := s.free + 16 } t
  if p.mode = 2 ∧ (p.asid = t.asid ∨ t.replay.isSome) then
    let same := homeBytes s (base + p.cmp.toNat + 0x20) 32 = taskDigest s t
    digestRecord (passHome s1 (base + p.cmp.toNat + 0x20) 32) t p.cmp.toNat (if same then 1 else 2)
  else
    match t.replay with
    | none => s
    | some off =>
      if p.mode ≠ 1 then s
      else
        let entry := leBytes 8 (gtAt s t.home).toNat ++ taskDigest s t
        digestRecord (writeHome s1 (cellsAt (base + off + 0x18) entry)) t off 0

/-- R308, R161, R167, R209, R293: what the package forgets with a task: its launch views, its barriers, the array states of its teams. -/
def dropTask (s : State) (key : Nat) (t : Task) : State :=
  let mine := fun (k : Nat) => k / 2 ^ 16 == key
  let quads := s.quads.map (fun x =>
    (x.1, { x.2 with owner := if x.2.owner.any mine then none else x.2.owner, saved := x.2.saved.filter (fun y => !mine y.1) }))
  { s with tasks := tdel s.tasks key, quads := quads, bars := s.bars.filter (fun b => b.1 / 2 ^ 26 != key),
           barMsgs := s.barMsgs.filter (fun m => m.key / 2 ^ 26 != key),
           flock := s.flock.map (fun d => (d.1, d.2.filter (fun e => e.task != some key))),
           killed := if t.killed then key :: s.killed.filter (fun k => k != key) else s.killed }

/-- R295: no team of a task waits or is out, and at most one of its strands has not ended. -/
def lastPart (t : Task) : Bool :=
  t.teams.all (fun x => x.phase == .ended || x.phase == .placed || x.phase == .landing) && decide ((placedStrands t).length ≤ 1)

/-- R275, R345: a strand holds a pseudo-channel of a byte that the digest of a task covers. -/
def digestHeld (s : State) (t : Task) : Bool :=
  let p := (dieAt s t.home).replay
  !noChannelHeld s && !t.killed && (t.replay.isSome || (p.mode == 2 && p.asid == t.asid)) && (launchViews t.info).any (fun v => viewHeld s t.asid v.2)

/-- R275, R325: every write on its way can be performed at its home. -/
def forwardsFree (s : State) : Bool := !s.forwards.any (forwardHeld s)

/-- R295, R301, R345: the task of a record is complete: its event is posted at its home die, and what the package holds of it goes. -/
def endTask (s : State) (key : Nat) (t : Task) : State :=
  let s1 := flushForwards s
  let s2 := if t.killed then s1 else replayEnd s1 t
  hostDone (postEvent (dropTask s2 key t) t.home (taskEvent (if t.killed then 6 else 1) 0 t.info.taskId)) t.host 0

/-- R290: the teams of the task t that are still on their quads end with the task. -/
def endTeams (s : State) (key : Nat) (t : Task) : State :=
  ((List.range t.teams.length).filter (fun k => (teamAt t k).phase == .placed || (teamAt t k).phase == .landing)).foldl (fun s k => endTeam s key k) s

/-- R290, R295: what the last strands of a task still hold is released, and the teams of a cohort leave their quads. -/
def releaseLast (s : State) (key : Nat) (l : List Nat) : State :=
  let s1 := l.foldl releaseStrand s
  match taskNo s1 key with
  | none => s1
  | some t => endTeams s1 key t

/-- TASK_COMPLETE (R295, R301, R345): a task whose last strand ends posts COMPLETE, or KILLED, at its home die. Its writes have performed
at their homes. While the event queue is full the last strand stays. -/
def completeTask (s : State) (key : Nat) : State :=
  match taskNo s key with
  | none => s
  | some t =>
    let l := placedStrands t
    let s0 := l.foldl finishStrand s
    if !lastPart t || l.any (fun q => !strandEnding (seqAt s0 q) || strandBusy s0 q) || !eventRoom s0 t.home || !forwardsFree s0 || digestHeld s0 t then s
    else
      let s1 := releaseLast s0 key l
      endTask s1 key ((taskNo s1 key).getD t)

def execTaskComplete (task : Nat) (s : State) : Host.Outcome State Fault Refusal := .next (completeTask s task)

/-! Host queues (R323-R326). -/

/-- R326: a queue is ready. -/
def queueReady (x : HostQueue) : Bool := x.valid && !x.err && x.tail != x.head

/-- R323: every entry of a queue before one has completed. -/
def earlierDone (x : HostQueue) (e : HostEntry) : Bool := (x.entries.takeWhile (fun a => a.index != e.index)).all (fun a => a.written)

/-- R323: a FENCE that has been read and whose condition does not hold yet. -/
def fencePending (x : HostQueue) : Bool := x.entries.any (fun e => e.kind == 3 && !earlierDone x e)

/-- R326: a ready queue waits for a slot. -/
def queueWaits (s : State) : Bool := s.hqs.any (fun x => queueReady x.2 && x.2.slot.isNone)

/-- R326: a slot frees. -/
def slotFrees (s : State) (x : HostQueue) : Bool :=
  match x.slot with
  | none => false
  | some k => !fencePending x && (!queueReady x || (decide (64 ≤ k) && queueWaits s))

/-- R326: slots free, in a table of queues. -/
def freeSlots (s : State) : State :=
  { s with hqs := s.hqs.map (fun x => (x.1, if slotFrees s x.2 then { x.2 with slot := none } else x.2)) }

/-- R326: the first ready queue without a slot after number n, among the next k numbers modulo 1024. -/
def nextReady (s : State) (n k : Nat) : Option Nat :=
  ((List.range k).map (fun j => (n + 1 + j) % 1024)).find? (fun m => queueReady (hqAt s m) && (hqAt s m).slot.isNone)

/-- QUEUE_SLOT_ADMIT (R326). The queue last admitted is kept once, for all slots (DESIGN CHOICE, log 139). -/
def admitQueue (s : State) : State :=
  let s1 := freeSlots s
  if 32 ≤ (s1.hqs.filter (fun x => x.2.slot.isSome)).length then s1
  else
    match nextReady s1 s1.admitted 1024 with
    | none => s1
    | some m => { setHq s1 m { hqAt s1 m with slot := some 0 } with admitted := m }

def execQueueSlotAdmit (s : State) : Host.Outcome State Fault Refusal := .next (admitQueue s)

/-- R324: the bytes of entry i of a queue: zeros where its address has no local page (DESIGN CHOICE, log 141). -/
def entryBytes (s : State) (x : HostQueue) (i : Nat) : List Byte := virtualBytes s x.asid (x.base.toNat + 64 * (i % 2 ^ x.logn)) 64

/-- R323: the kind of an entry; 4 where it is invalid. -/
def entryKind (l : List Byte) : Nat :=
  let k := natAt l 0 1
  if 3 < k ∨ natAt l 1 3 ≠ 0 ∨ natAt l 0x18 40 ≠ 0 then 4 else k

/-- R326: a queue in its slot may read its next entry. It is ready while TAIL differs from HEAD, also where a NOTIFY has lowered TAIL below HEAD: the reads then go
on past TAIL (DESIGN CHOICE, log 154). -/
def mayRead (s : State) (x : HostQueue) : Bool :=
  queueReady x && !fencePending x && (match x.slot with
    | none => false
    | some k => !(decide (64 ≤ k) && queueWaits s))

/-- R324-R326: the device reads the entry at HEAD of queue n. -/
def readEntry (s : State) (n kind : Nat) (st : Option Nat) : State :=
  let x := hqAt s n
  setHq s n { x with head := x.head + 1, slot := x.slot.map (fun k => k + 1),
                     entries := x.entries ++ [{ index := x.head.toNat, kind := kind, status := st, written := false }] }

/-- R275, R325: a strand holds a pseudo-channel of the entry at HEAD of a queue, or of what the launch that it names reads. -/
def entryHeld (s : State) (x : HostQueue) (l : List Byte) : Bool :=
  let base := (handleEntry s x.asid (wordAt l 8)).base
  !noChannelHeld s &&
    (virtualHeld s x.asid (x.base.toNat + 64 * (x.head.toNat % 2 ^ x.logn)) 64 ||
      ((entryKind l == 1 || entryKind l == 2) && (virtualHeld s x.asid base 2816 || launchHeld s x.die x.asid (virtualBytes s x.asid base 2816))))

/-- The places of n bytes from a virtual address on, as a unit of the package finds them. -/
def virtualPlaces (s : State) (asid va n : Nat) : List Nat :=
  (List.range n).filterMap (fun j => match (pageFor s.pages asid (va + j)).map (fun p => pagePlace s true p (va + j)) with
    | some (.at_ loc) => some loc
    | _ => none)

/-- The entry at HEAD of queue n is read, when it is of a kind, once no strand holds it. -/
def onEntry (s : State) (n kind : Nat) (f : State → List Byte → State) : State :=
  let x := hqAt s n
  let l := entryBytes s x x.head.toNat
  if mayRead s x && entryKind l == kind && !entryHeld s x l then
    f (passUncached s (virtualPlaces s x.asid (x.base.toNat + 64 * (x.head.toNat % 2 ^ x.logn)) 64)) l
  else s

/-- R323: REC names a launch record that can be read. -/
def recordReadable (s : State) (x : HostQueue) (h : Word) : Bool :=
  let e := handleEntry s x.asid h
  handleCurrent s x.asid h && decide (2816 ≤ e.size) &&
    (List.range 2816).all (fun j => match pageFor s.pages x.asid (e.base + j) with
      | some p => (match pagePlace s true p (e.base + j) with
        | .at_ _ => true
        | _ => false)
      | none => false)

/-- HQ_LAUNCH, HQ_TIMED_LAUNCH (R323): the record is launched. The spec gives no STATUS for a REC that names no record (log 15). -/
def hostLaunch (n : Nat) (timed : Bool) (s : State) (l : List Byte) : State :=
  let x := hqAt s n
  let h := wordAt l 8
  let kind := if timed then 2 else 1
  if !recordReadable s x h then { readEntry s n kind (some (Config.hostStatus s.free % 2 ^ 16)) with free := s.free + 1 }
  else
    let base := (handleEntry s x.asid h).base
    let rec_ := virtualBytes s x.asid base 2816
    launchTask (passVirtual (readEntry s n kind none) x.asid base 2816) x.die x.asid rec_ (if timed then BitVec.ofNat 64 (natAt l 0x10 8) else 0) (some (n, x.head.toNat))

def execHqNop (n : Nat) (s : State) : Host.Outcome State Fault Refusal := .next (onEntry s n 0 (fun s _ => readEntry s n 0 (some 0)))
def execHqLaunch (n : Nat) (s : State) : Host.Outcome State Fault Refusal := .next (onEntry s n 1 (hostLaunch n false))
def execHqTimedLaunch (n : Nat) (s : State) : Host.Outcome State Fault Refusal := .next (onEntry s n 2 (hostLaunch n true))
def execHqFence (n : Nat) (s : State) : Host.Outcome State Fault Refusal := .next (onEntry s n 3 (fun s _ => readEntry s n 3 (some 0)))
def execHqInvalid (n : Nat) (s : State) : Host.Outcome State Fault Refusal := .next (onEntry s n 4 (fun s _ => readEntry s n 4 (some 1)))

/-- R323: an entry may complete: a FENCE after every earlier entry. -/
def mayComplete (x : HostQueue) (e : HostEntry) : Bool :=
  !e.written && e.status.isSome && (e.kind != 3 || earlierDone x e)

/-- R324: DONE passes the entries that have completed, in order. -/
def passDone (x : HostQueue) (l : List HostEntry) : HostQueue :=
  match l with
  | [] => { x with entries := [] }
  | e :: rest => if e.written then passDone { x with done := x.done + 1 } rest else { x with entries := e :: rest }

/-- HQ_ENTRY_COMPLETE (R325): STATUS is written and DONE advances; every write of the task has performed at its home. It does so
also after VALID is cleared, by the registers as they then stand (DESIGN CHOICE, log 140). -/
def completeEntry (s : State) (n i : Nat) : State :=
  let x := hqAt s n
  match x.entries.find? (fun e => e.index == i) with
  | none => s
  | some e =>
    if !mayComplete x e || !forwardsFree s then s
    else
      let s1 := writeVirtual (flushForwards s) x.asid (x.base.toNat + 64 * (i % 2 ^ x.logn) + 4) (leBytes 4 (e.status.getD 0))
      setHq s1 n (passDone x (x.entries.map (fun a => if a.index = i then { a with written := true } else a)))

def execHqEntryComplete (n entry : Nat) (s : State) : Host.Outcome State Fault Refusal := .next (completeEntry s n entry)

/-- R324: HQBASE. -/
def writeHqbase (s : State) (n v : Nat) : State :=
  let x := hqAt s n
  if x.valid then s else setHq s n { x with base := BitVec.ofNat 64 (v / 4096 * 4096) }

/-- R325: VALID set again: HEAD, DONE and ERR are zero. A queue of a die whose boot has failed stops with ERR (R358). -/
def enableQueue (s : State) (x : HostQueue) : HostQueue :=
  { x with head := 0, done := 0, entries := [], err := (dieAt s x.die).boot == .failed, slot := none }

/-- HQCTL_WRITE (R324, R325): ignored while VALID is 1 unless it clears VALID, and for a LOGN that is not 4 to 12. -/
def writeHqctl (s : State) (n v : Nat) : State :=
  let x := hqAt s n
  let on := v.testBit 63
  let logn := v / 2 ^ 32 % 16
  if logn < 4 ∨ 12 < logn ∨ (x.valid ∧ on) then s
  else
    let y := { x with valid := on, asid := v / 2 ^ 40 % 4096, die := v / 2 ^ 36 % 16, logn := logn }
    if on then
      let other := fun (h : Option (Nat × Nat)) => h.filter (fun h => h.1 != n)
      { setHq s n (enableQueue s y) with
          tasks := s.tasks.map (fun t => (t.1, { t.2 with host := other t.2.host })),
          dies := s.dies.map (fun d => (d.1, { d.2 with asked := d.2.asked.map (fun a => { a with host := other a.host }) })) }
    else setHq s n y

/-- NOTIFY (R325): TAIL; a TAIL more than 2^LOGN beyond DONE sets ERR. -/
def writeNotify (s : State) (n v : Nat) : State :=
  let x := hqAt s n
  let t : Word := BitVec.ofNat 32 v
  setHq s n { x with tail := t, err := x.err || decide (2 ^ x.logn < (t - x.done).toNat) }

/-- HQSTAT as it reads. -/
def hqStat (x : HostQueue) : Nat := x.done.toNat * 2 ^ 32 + x.head.toNat

/-- HQCTL as it reads. -/
def hqCtl (x : HostQueue) : Nat :=
  (if x.valid then 2 ^ 63 else 0) + (if x.err then 2 ^ 62 else 0) + x.asid * 2 ^ 40 + x.die * 2 ^ 36 + x.logn * 2 ^ 32

def execHqctlWrite (s : State) : Host.Outcome State Fault Refusal := .next (writeHqctl s s.bus.unit s.bus.val)
def execNotify (s : State) : Host.Outcome State Fault Refusal := .next (writeNotify s s.bus.unit s.bus.val)

end Sys2Proof.Machine
end

