-- ==== Sys2Proof/Machine/Cooling.lean ====
section
/-! DEFINITION. Sys2Proof/Machine/Cooling.lean: the coolant zones: sensors and traps (R330, R335), ZCTL, and the evacuation sequence (R336). -/

namespace Sys2Proof.Machine

/-- R329, R335: the die that a zone's events go to. -/
def zoneDie (z : Nat) : Nat := if z < 64 then z / 4 else if z < 68 then 4 * (z - 64) else 0

/-- R335: the conditions that the sensors show. -/
def lowFlow (x : Zone) : Bool := decide (x.flow < x.flowMin) && x.valve != 0
def isDry (x : Zone) : Bool := decide (x.press < x.dryP) && x.valve != 0
def overTemp (x : Zone) : Bool := decide (x.toutMax < x.tout)
def goodFlow (x : Zone) : Bool := x.mode == 5 && decide (x.flowMin ≤ x.flow) && decide (x.dryP ≤ x.press)

/-- R335, R336: how long the conditions have held: none of one that does not hold. -/
def zoneTimes (x : Zone) : Zone :=
  { x with lowFor := if lowFlow x then x.lowFor else 0, dryFor := if isDry x then x.dryFor else 0, goodFor := if goodFlow x then x.goodFor else 0 }

/-- Time passes for a zone, in ns. -/
def zoneElapse (ns : Nat) (x : Zone) : Zone :=
  zoneTimes { x with lowFor := x.lowFor + ns, dryFor := x.dryFor + ns, goodFor := x.goodFor + ns, stepFor := x.stepFor + ns }

/-- R339: a zone's registers change; a change of THR of a zone of quads is recorded. -/
def putZone (s : State) (z : Nat) (x : Zone) : State :=
  let old := (zoneAt s z).thr
  let s1 := setZone s z (zoneTimes x)
  if z < 64 ∧ old ≠ x.thr then traceRecord s1 (z / 4) 0x09 (BitVec.ofNat 64 (x.thr * 256 + z)) 0 none else s1

/-- R330: ZSENS. -/
def zoneSens (x : Zone) : Nat := x.press * 2 ^ 48 + x.flow * 2 ^ 32 + x.tout * 2 ^ 16 + x.tin

/-- SENSOR_SAMPLE (R330): the sensors of a zone, in the layout of ZSENS. -/
def sampleZone (s : State) (z v : Nat) : State :=
  putZone s z { zoneAt s z with press := v / 2 ^ 48 % 2 ^ 16, flow := v / 2 ^ 32 % 2 ^ 16, tout := v / 2 ^ 16 % 2 ^ 16, tin := v % 2 ^ 16 }

/-- R335: an event of a zone. -/
def zoneEvent (s : State) (z kind detail : Nat) : State :=
  postEvent s (zoneDie z) (eventRecord kind (BitVec.ofNat 64 detail) 0 z 0 0)

/-- COOL_LOWFLOW (R335). -/
def lowFlowTrap (s : State) (z : Nat) : State :=
  let x := zoneAt s z
  if x.lf || !lowFlow x || decide (x.lowFor < 1000000) then s else zoneEvent (putZone s z { x with lf := true }) z 9 (zoneSens x)

/-- COOL_OVERTEMP (R335). -/
def overTempTrap (s : State) (z : Nat) : State :=
  let x := zoneAt s z
  if x.ot || !overTemp x then s
  else zoneEvent (putZone s z { x with ot := true, thr := max x.thr x.thrHot, mode := if x.mode = 0 then 1 else x.mode }) z 10 (zoneSens x)

/-! Evacuation (R334, R336). -/

/-- R332: the quads of a compute zone. -/
def zoneQuads (z : Nat) : List Nat := (List.range 4).map (fun k => z / 4 * 16 + z % 4 * 4 + k)

/-- R336: the tasks of teams that hold units in a zone. -/
def zoneTeams (s : State) (z : Nat) : List Nat :=
  (zoneAt s z).catq.filterMap (fun e => (coreAt s (((zoneQuads z).getD (e.1 / 4) 0) * 4 + e.1 % 4)).team)

/-- R336: the teams of a task that are to leave their quads: those holding units in the zone, or all of a cohort. -/
def affectedTeams (s : State) (z key : Nat) (t : Task) : List Nat :=
  let here := (zoneTeams s z).filter (fun k => teamTask k == key) |>.map teamIndex
  (List.range t.teams.length).filter (fun k =>
    ((teamAt t k).phase == .placed || (teamAt t k).phase == .landing) && (t.info.cohort || here.contains k))

/-- R336: those of a task's teams that are not landing yet. -/
def leavingTeams (s : State) (z key : Nat) (t : Task) : List Nat := (affectedTeams s z key t).filter (fun k => (teamAt t k).phase == .placed)

/-- R336, R300: the teams of a task may leave with a checkpoint; CKH is checked where one of them is not landing yet (R300). -/
def mayEvacuate (s : State) (t : Task) (teams : List Nat) : Bool :=
  t.info.ckpt && t.info.ckh != 0 && (handleCurrent s t.asid t.info.ckh || teams.all (fun k => (teamAt t k).phase == .landing)) && (placedStrands t).all (fun q => (seqAt s q).status != .faulted)
    && teams.all (fun k => (maskCores (teamAt t k).quad (teamAt t k).mask).all (fun c => (coreAt s c).suspended.isNone))

/-- R336: a task leaves a zone: with a checkpoint, also one under way that the conditions still allow, or killed. -/
def evacuateTask (z : Nat) (s : State) (key : Nat) : State :=
  match taskNo s key with
  | none => s
  | some t =>
    let teams := leavingTeams s z key t
    if t.killed ∨ affectedTeams s z key t = [] then s
    else if !mayEvacuate s t (affectedTeams s z key t) then killTask s key
    else if teams = [] then s
    else startCheckpoint s key t teams

/-- R336: the tasks of a zone that still hold units. -/
def zoneTasks (s : State) (z : Nat) : List Nat := distinct ((zoneTeams s z).map teamTask)

/-- R336: steps 1 and 2: the throttle, and the teams' leaving; with no units held the valves close. -/
def startEvac (s : State) (z : Nat) : State :=
  let s1 := putZone s z { zoneAt s z with mode := 2, step := 2, thr := 7, stepFor := 0 }
  let s2 := if z < 64 then (zoneTasks s1 z).foldl (evacuateTask z) s1 else s1
  putZone s2 z (zoneDrained (zoneAt s2 z))

/-- COOL_DRY (R335, R336): the evacuation starts, whatever the zone's state; one in progress goes on (log 77). -/
def dryTrap (s : State) (z : Nat) : State :=
  let x := zoneAt s z
  if x.dr || !isDry x || decide (x.dryFor < 1000000) then s
  else
    let s1 := zoneEvent (putZone s z { x with dr := true }) z 11 (zoneSens x)
    if x.mode = 2 then s1 else startEvac s1 z

/-- ZCTL_EVAC (R336). -/
def writeEvac (s : State) (z : Nat) : State := if (zoneAt s z).mode ≤ 1 then startEvac s z else s

/-- EVAC_DRAIN_TIMEOUT (R336): after DRAIN_MS the tasks still in the zone are killed and the valves close. -/
def drainTimeout (s : State) (z : Nat) : State :=
  let x := zoneAt s z
  if x.mode ≠ 2 ∨ x.step ≠ 2 ∨ x.stepFor < x.drainMs * 1000000 then s
  else
    let s1 := (if z < 64 then zoneTasks s z else []).foldl killTask s
    let y := zoneAt s1 z
    putZone s1 z (if y.step = 2 then { y with step := 3, valve := 0, stepFor := 0 } else y)

/-- EVAC_VALVE_CLOSED (R336). -/
def valveClosed (s : State) (z : Nat) : State :=
  let x := zoneAt s z
  if x.mode = 2 ∧ x.step = 3 then putZone s z { x with step := 4, stepFor := 0 } else s

/-- EVAC_PURGE_DONE (R336). -/
def purgeDone (s : State) (z : Nat) : State :=
  let x := zoneAt s z
  if x.mode = 2 ∧ x.step = 4 ∧ x.purgeMs * 1000000 ≤ x.stepFor then putZone s z { x with step := 5, stepFor := 0, pressAt := x.press } else s

/-- EVAC_VERIFY_DONE (R336): steps 5 and 6. -/
def verifyDone (s : State) (z : Nat) : State :=
  let x := zoneAt s z
  if x.mode ≠ 2 ∨ x.step ≠ 5 ∨ x.stepFor < x.decayMs * 1000000 then s
  else
    let good := decide (x.pressAt - x.press ≤ x.decayMax)
    zoneEvent (putZone s z { x with mode := if good then 3 else 4, step := 0, stepFor := 0 }) z (if good then 12 else 13) 0

/-- ZCTL_RETURN (R336). -/
def writeReturn (s : State) (z : Nat) : State :=
  let x := zoneAt s z
  if x.mode = 3 ∨ x.mode = 4 then putZone s z { x with mode := 5, valve := 0x80, thr := 0, goodFor := 0 } else s

/-- ZONE_READY (R336). -/
def zoneReady (s : State) (z : Nat) : State :=
  let x := zoneAt s z
  if !goodFlow x || decide (x.goodFor < 10000000) then s else zoneEvent (putZone s z { x with mode := 0 }) z 14 0

/-- ZCTL_WRITE (R330, R335): VALVE and THR. -/
def writeValve (s : State) (z v : Nat) : State :=
  let x := zoneAt s z
  let thr := v / 256 % 8
  let valve := if x.mode ≤ 1 then v % 256 else x.valve
  if thr < x.thrHot ∧ overTemp x then putZone s z { x with valve := valve }
  else putZone s z { x with valve := valve, thr := thr, mode := if x.mode = 1 ∧ thr < x.thrHot then 0 else x.mode }

/-- R330: ZCTL written whole: VALVE and THR act first, then EVAC, then RETURN, which are taken also where THR is ignored (DESIGN CHOICE, log 77). -/
def writeZctl (s : State) (z v : Nat) : State :=
  let s1 := writeValve s z v
  let s2 := if v.testBit 16 then writeEvac s1 z else s1
  if v.testBit 17 then writeReturn s2 z else s2

/-! The other registers of a zone (R330, R332). -/

/-- A register of a zone written, at an offset of its block. -/
def writeZone (s : State) (z off v : Nat) : State :=
  let x := zoneAt s z
  match off with
  | 0x00 => writeZctl s z v
  | 0x08 => putZone s z { x with thrHot := v / 2 ^ 48 % 8, dryP := v / 2 ^ 32 % 2 ^ 16, toutMax := v / 2 ^ 16 % 2 ^ 16, flowMin := v % 2 ^ 16 }
  | 0x18 => putZone s z { x with dr := x.dr && !v.testBit 10, ot := x.ot && !v.testBit 9, lf := x.lf && !v.testBit 8 }
  | 0x20 => if z < 64 then putZone s z { x with cap := v % 2 ^ 16 } else s
  | 0x28 =>
    putZone s z { x with drainMs := v / 2 ^ 48 % 2 ^ 16, decayMax := v / 2 ^ 32 % 2 ^ 16, decayMs := v / 2 ^ 16 % 2 ^ 16, purgeMs := v % 2 ^ 16 }
  | _ => s

/-- R332: a CATQ entry as it reads. -/
def catWord (x : Zone) (n : Nat) : Nat :=
  match tfind x.catq n with
  | some e => e.task.toNat * 2 ^ 32 + 256 + e.units % 256
  | none => 0

/-- A register of a zone as it reads. -/
def readZone (s : State) (z off : Nat) : Nat :=
  let x := zoneAt s z
  let bit := fun (b : Bool) (k : Nat) => if b then 2 ^ k else 0
  match off with
  | 0x00 => x.thr * 256 + x.valve
  | 0x08 => x.thrHot * 2 ^ 48 + x.dryP * 2 ^ 32 + x.toutMax * 2 ^ 16 + x.flowMin
  | 0x10 => zoneSens x
  | 0x18 => bit x.dr 10 + bit x.ot 9 + bit x.lf 8 + x.step * 16 + x.mode
  | 0x20 => if z < 64 then zoneUsed x * 2 ^ 16 + x.cap else 0
  | 0x28 => x.drainMs * 2 ^ 48 + x.decayMax * 2 ^ 32 + x.decayMs * 2 ^ 16 + x.purgeMs
  | n => if z < 64 ∧ 0x40 ≤ n ∧ n < 0xC0 then catWord x ((n - 0x40) / 8) else 0

def execSensorSample (s : State) : Host.Outcome State Fault Refusal := .next (sampleZone s s.bus.unit s.bus.val)
def execCoolLowflow (zone : Nat) (s : State) : Host.Outcome State Fault Refusal := .next (lowFlowTrap s zone)
def execCoolOvertemp (zone : Nat) (s : State) : Host.Outcome State Fault Refusal := .next (overTempTrap s zone)
def execCoolDry (zone : Nat) (s : State) : Host.Outcome State Fault Refusal := .next (dryTrap s zone)
def execZctlEvac (s : State) : Host.Outcome State Fault Refusal := .next (writeEvac s s.bus.unit)
def execZctlReturn (s : State) : Host.Outcome State Fault Refusal := .next (writeReturn s s.bus.unit)
def execZctlWrite (s : State) : Host.Outcome State Fault Refusal := .next (writeValve s s.bus.unit s.bus.val)
def execEvacDrainTimeout (zone : Nat) (s : State) : Host.Outcome State Fault Refusal := .next (drainTimeout s zone)
def execEvacValveClosed (zone : Nat) (s : State) : Host.Outcome State Fault Refusal := .next (valveClosed s zone)
def execEvacPurgeDone (zone : Nat) (s : State) : Host.Outcome State Fault Refusal := .next (purgeDone s zone)
def execEvacVerifyDone (zone : Nat) (s : State) : Host.Outcome State Fault Refusal := .next (verifyDone s zone)
def execZoneReady (zone : Nat) (s : State) : Host.Outcome State Fault Refusal := .next (zoneReady s zone)

end Sys2Proof.Machine
end

