-- ==== Sys2Proof/Machine/TraceRegs.lean ====
section
/-! DEFINITION. Sys2Proof/Machine/TraceRegs.lean: the registers of the trace unit (R337, R340, R341), captures (R343), the replay unit's (R344), and
the counter windows (R342). -/

namespace Sys2Proof.Machine

def execLost (die : Nat) (s : State) : Host.Outcome State Fault Refusal := .next (traceLost s die)
def execResync (die : Nat) (s : State) : Host.Outcome State Fault Refusal := .next (traceResync s die)

/-- TRCTL_WRITE (R337): LOGSZ stays while EN is 1; EN from 0 to 1 zeroes RD and WR. -/
def writeTrctl (s : State) (d v : Nat) : State :=
  let x := dieAt s d
  let t := x.trace
  let logsz := v / 2 ^ 12 % 32
  if logsz < 12 ∨ 30 < logsz then s
  else
    let y := { t with sen := v.testBit 37, slog := v / 2 ^ 32 % 32, logsz := if t.en then t.logsz else logsz, en := v.testBit 0 }
    setDie s d { x with trace := if v.testBit 0 && !t.en then { y with rd := 0, wr := 0, fresh := true } else y }

/-- R337: TRBASE. -/
def writeTrbase (s : State) (d v : Nat) : State :=
  let x := dieAt s d
  if x.trace.en then s else setDie s d { x with trace := { x.trace with base := BitVec.ofNat 64 (v / 4096 * 4096) } }

/-- R337: TRPTR: RD. -/
def writeTrptr (s : State) (d v : Nat) : State :=
  let x := dieAt s d
  setDie s d { x with trace := { x.trace with rd := BitVec.ofNat 32 (v / 2 ^ 32) } }

def trctlWord (t : Trace) : Nat :=
  (if t.sen then 2 ^ 37 else 0) + t.slog * 2 ^ 32 + t.logsz * 2 ^ 12 + (if t.en then 1 else 0)

def execTrctlWrite (s : State) : Host.Outcome State Fault Refusal := .next (writeTrctl s s.bus.unit s.bus.val)

/-! Captures (R343). -/

/-- R343: the sums of a team on a die as they stand: its strands and cores when it is placed, what is saved when it is out. -/
def teamSums (s : State) (die : Nat) (x : Team) : Sums :=
  let all := fun (l : List Sums) => l.foldl Sums.add Sums.zero
  if x.quad / 16 ≠ die then Sums.zero
  else
    match x.phase with
    | .out => all (x.saved.strands.map (fun y => strandSums y.counters) ++ x.saved.cores.map (fun y => coreSums y.stalls y.placed))
    | .waiting => Sums.zero
    | .ended => Sums.zero
    | _ => all ((liveStrands x).map (fun j => strandSums (seqAt s (strandSeq x.quad x.mask j)).counters)
            ++ (maskCores x.quad x.mask).map (fun c => coreSums (coreAt s c).stalls (coreAt s c).placed))

/-- R343: the sums of a task on a die. -/
def taskSums (s : State) (die : Nat) (t : Task) : Sums := (t.teams.map (teamSums s die)).foldl Sums.add Sums.zero

/-- R343: the sums of a capture's task as they stand: of the task that had the identifier at CAPSTART, or, where none had it, of one that has it now
(log 142). -/
def captureSums (s : State) (die : Nat) (c : Capture) (id : Word) : Sums :=
  match (match c.key with
    | some k => taskNo s k
    | none => (findTask s id).map Prod.snd) with
  | some t => taskSums s die t
  | none => Sums.zero

/-- CAPSTART (R343): the record, then the start sums; ignored while a capture is open. -/
def startCapture (s : State) (d id : Nat) : State :=
  if (dieAt s d).capture.task.isSome then s
  else
    let w : Word := BitVec.ofNat 32 id
    let s1 := traceRecord s d 0x10 (BitVec.ofNat 64 (w.toNat * 2 ^ 32)) 0 none
    let x := dieAt s1 d
    let c := { x.capture with task := some w, key := (findTask s1 w).map Prod.fst }
    setDie s1 d { x with capture := { c with start := captureSums s1 d c w, ended := Sums.zero, preempt := 0, begun := gtAt s1 d } }

/-- R343: the difference of two sums modulo a width. -/
def sumDiff (width stop start : Nat) : Nat := (stop + 2 ^ width - start % 2 ^ width) % 2 ^ width

/-- R343: the block. -/
def captureBlock (c : Capture) (stop : Sums) (now : BitVec 64) : List Byte :=
  let slots := (List.range 18).flatMap (fun k => leBytes 8 (sumDiff 48 (stop.slots.getD k 0) (c.start.slots.getD k 0)))
  let placed := (List.range 5).flatMap (fun n =>
    let a := stop.placed.getD n (0, 0)
    let b := c.start.placed.getD n (0, 0)
    leBytes 8 (sumDiff 24 a.1 b.1 * 2 ^ 40 + sumDiff 40 a.2 b.2))
  padTo 256 (slots ++ placed ++ leBytes 8 (sumDiff 32 stop.stall c.start.stall) ++ leBytes 8 c.preempt ++ leBytes 8 c.begun.toNat ++ leBytes 8 now.toNat)

/-- CAPSTOP (R343): the stop sums, the block, and, once it has performed, the record; ignored for another task, or with no capture open. TRCAPA is a physical address of
the die's HBM (log 7), and is not compared with its size (log 112). -/
def stopCapture (s : State) (d id : Nat) : State :=
  let x := dieAt s d
  let c := x.capture
  let w : Word := BitVec.ofNat 32 id
  if c.task ≠ some w then s
  else
    let stop := (captureSums s d c w).add c.ended
    let s1 := setDie s d { x with capture := { c with task := none, key := none } }
    let s2 := writeHome s1 (cellsAt (location d c.addr.toNat) (captureBlock c stop (gtAt s d)))
    traceAfter s2 d s1.nextOp 0x11 (BitVec.ofNat 64 (w.toNat * 2 ^ 32 + c.preempt % 2 ^ 32))

/-- R343: TRCAP written whole. -/
def writeTrcap (s : State) (d v : Nat) : State :=
  if v % 4 = 1 then startCapture s d (v / 2 ^ 32) else if v % 4 = 2 then stopCapture s d (v / 2 ^ 32) else s

def execCapstart (s : State) : Host.Outcome State Fault Refusal := .next (startCapture s s.bus.unit s.bus.val)
def execCapstop (s : State) : Host.Outcome State Fault Refusal := .next (stopCapture s s.bus.unit s.bus.val)

/-! Replay (R344). -/

/-- RPCTL_WRITE (R344): MODE 3 leaves MODE; MODE from 0 to 1 zeroes NEXT. -/
def writeRpctl (s : State) (d v : Nat) : State :=
  let x := dieAt s d
  let p := x.replay
  let mode := if v % 4 = 3 then p.mode else v % 4
  setDie s d { x with replay := { p with asid := v / 2 ^ 40 % 4096, log := v / 2 ^ 32 % 32, mode := mode,
                                         next := if p.mode = 0 ∧ mode = 1 then 0 else p.next } }

def rpctlWord (p : Replay) : Nat := p.asid * 2 ^ 40 + p.log * 2 ^ 32 + p.skipped.toNat * 2 ^ 16 + p.mode

def execRpctlWrite (s : State) : Host.Outcome State Fault Refusal := .next (writeRpctl s s.bus.unit s.bus.val)

/-- A register of the trace unit written, at an offset. -/
def writeTrace (s : State) (d off v : Nat) : State :=
  let x := dieAt s d
  match off with
  | 0x00 => writeTrctl s d v
  | 0x08 => writeTrbase s d v
  | 0x10 => writeTrptr s d v
  | 0x18 => writeTrcap s d v
  | 0x20 => setDie s d { x with capture := { x.capture with addr := BitVec.ofNat 64 (v / 256 * 256) } }
  | 0x28 => writeRpctl s d v
  | 0x30 => setDie s d { x with replay := { x.replay with base := BitVec.ofNat 64 (v / 64 * 64) } }
  | 0x38 => setDie s d { x with replay := { x.replay with cmp := BitVec.ofNat 32 (v / 2 ^ 32) } }
  | _ => s

/-- A register of the trace unit as it reads. -/
def readTrace (s : State) (d off : Nat) : Nat :=
  let x := dieAt s d
  match off with
  | 0x00 => trctlWord x.trace
  | 0x08 => x.trace.base.toNat
  | 0x10 => x.trace.rd.toNat * 2 ^ 32 + x.trace.wr.toNat
  | 0x20 => x.capture.addr.toNat
  | 0x28 => rpctlWord x.replay
  | 0x30 => x.replay.base.toNat
  | 0x38 => x.replay.cmp.toNat * 2 ^ 32 + x.replay.next.toNat
  | _ => 0

/-! Counter windows (R342, R126, R253). -/

/-- R342: the register at an offset of the counter window of sequencer q. -/
def readCounters (s : State) (q off : Nat) : Nat :=
  let sq := seqAt s q
  let c := coreAt s (coreOf q)
  if sq.status = .idle then 0
  else if off < 0x3F0 then (vget 0 sq.counters (off / 8)).toNat
  else if q % 2 = 0 ∧ 0x400 ≤ off ∧ off < 0x420 then
    (vget 0 c.stalls ((off - 0x400) / 8)).toNat * 2 ^ 32 + (copiesIn s (coreOf q) ((off - 0x400) / 8)).length
  else if q % 2 = 0 ∧ 0x420 ≤ off ∧ off < 0x448 then (vget 0 c.placed ((off - 0x420) / 8)).toNat
  else 0

end Sys2Proof.Machine
end

