-- ==== Sys2Proof/Machine/Pod.lean ====
section
/-! DEFINITION. Sys2Proof/Machine/Pod.lean: the pod (R346-R357): its registers, streams and fences, requests from other packages, translations shared
with them, time messages and group barriers. Its times are GT of die 0, whose registers they are (log 16). -/

namespace Sys2Proof.Machine

def setPod (s : State) (p : Pod) : State := { s with pod := p }
def setDest (s : State) (n : Nat) (x : PodDest) : State := setPod s { s.pod with dests := tput s.pod.dests n x }
def groupAt (s : State) (g : Nat) : Group := tget Group.reset s.pod.groups g

/-! Registers (R347, R356). -/

/-- PODID_WRITE (R347): ID stays while a station is up; without LINKEN every station is down. -/
def writePodid (s : State) (v : Nat) : State :=
  let p := s.pod
  setPod s { p with linkEn := v.testBit 11, gtMaster := v.testBit 10, id := if p.up = 0 then BitVec.ofNat 10 v else p.id,
                    up := if v.testBit 11 then p.up else 0 }

def podidWord (p : Pod) : Nat := (if p.linkEn then 2 ^ 11 else 0) + (if p.gtMaster then 2 ^ 10 else 0) + p.id.toNat

/-- R347: RTIMEOUT; a write of 0 is ignored. -/
def writeRtimeout (s : State) (v : Nat) : State :=
  if v % 2 ^ 32 = 0 then s else setPod s { s.pod with rtimeout := BitVec.ofNat 32 v }

/-- DEST_FENCED_CLEAR (R353). -/
def unfence (s : State) (n : Nat) : State := setDest s n { destAt s n with fenced := false }

/-- R347: the settings of a destination that a value of its entry names. -/
def destOfWord (x : PodDest) (v : Nat) : PodDest :=
  { x with valid := v.testBit 63, stav := v.testBit 61, lasid := v / 2 ^ 40 % 4096, rasid := v / 2 ^ 28 % 4096, atom := BitVec.ofNat 8 (v / 2 ^ 20 % 128) }

/-- DEST_WRITE (R347): a write that changes LASID, RASID, STAV or ATOM is ignored while VALID is 1, unless it clears VALID. FENCED is cleared by a
1. -/
def writeDest (s : State) (n v : Nat) : State :=
  let x := destAt s n
  let y := destOfWord x v
  let changes := y.lasid != x.lasid || y.rasid != x.rasid || y.stav != x.stav || y.atom != x.atom
  if x.valid && y.valid && changes then s else setDest s n { y with fenced := x.fenced && !v.testBit 62 }

def destWord (x : PodDest) : Nat :=
  (if x.valid then 2 ^ 63 else 0) + (if x.fenced then 2 ^ 62 else 0) + (if x.stav then 2 ^ 61 else 0) + x.lasid * 2 ^ 40 + x.rasid * 2 ^ 28
    + x.atom.toNat * 2 ^ 20 + x.pend % 1024

/-- R356: a group entry. -/
def writeGroup (s : State) (g v : Nat) : State :=
  setPod s { s.pod with groups := tput s.pod.groups g { groupAt s g with valid := v.testBit 63, master := v / 2 ^ 42 % 1024, npkg := v / 2 ^ 32 % 1024,
                                                                         task := BitVec.ofNat 32 v } }

def groupWord (x : Group) : Nat := (if x.valid then 2 ^ 63 else 0) + x.master * 2 ^ 42 + x.npkg * 2 ^ 32 + x.task.toNat

/-- A pod register written, at an offset. -/
def writePodReg (s : State) (off v : Nat) : State :=
  if off = 0 then writePodid s v
  else if off = 8 then writeRtimeout s v
  else if 0x1000 ≤ off ∧ off < 0x3000 then writeDest s ((off - 0x1000) / 8) v
  else if 0x3000 ≤ off ∧ off < 0x3200 then writeGroup s ((off - 0x3000) / 8) v
  else s

/-- A pod register as it reads. -/
def readPodReg (s : State) (off : Nat) : Nat :=
  if off = 0 then podidWord s.pod
  else if off = 8 then s.pod.rtimeout.toNat
  else if off = 0x10 then s.pod.up.toNat
  else if 0x1000 ≤ off ∧ off < 0x3000 then destWord (destAt s ((off - 0x1000) / 8))
  else if 0x3000 ≤ off ∧ off < 0x3200 then groupWord (groupAt s ((off - 0x3000) / 8))
  else 0

def execPodidWrite (s : State) : Host.Outcome State Fault Refusal := .next (writePodid s s.bus.val)
def execDestWrite (s : State) : Host.Outcome State Fault Refusal := .next (writeDest s s.bus.unit s.bus.val)
def execDestFencedClear (s : State) : Host.Outcome State Fault Refusal := .next (unfence s s.bus.unit)

/-! Stations and streams (R350). -/

/-- STATION_UP (R347, R350): a station trains while LINKEN is 1. -/
def stationUp (s : State) (n : Nat) : State :=
  if s.pod.linkEn && decide (n < 16) then setPod s { s.pod with up := s.pod.up ||| (1#16 <<< n) } else s

/-- STATION_DOWN (R350): the streams move to the stations that are up. -/
def stationDown (s : State) (n : Nat) : State := setPod s { s.pod with up := s.pod.up &&& ~~~(1#16 <<< n) }

/-- R350: the station of the stream of a destination and class: the (n + c) mod k-th of the k stations that are up. -/
def stationOf (s : State) (n c : Nat) : Option Nat :=
  let l := (List.range 16).filter (fun k => s.pod.up.getLsbD k)
  if l.isEmpty then none else l[(n + c) % l.length]?

def execStationUp (station : Nat) (s : State) : Host.Outcome State Fault Refusal := .next (stationUp s station)
def execStationDown (station : Nat) (s : State) : Host.Outcome State Fault Refusal := .next (stationDown s station)

/-- The request of a number. -/
def requestNo (s : State) (n : Nat) : Option Request := s.pod.requests.find? (fun r => r.id == n)

/-- The sequencer of a request's operation, or of the held bundle that reads. -/
def requestSeq (s : State) (r : Request) : Option Nat := seqOfTag s r.op

/-- R350: a request writes. -/
def requestWrites (r : Request) : Bool :=
  match r.kind with
  | .write _ => true
  | .atomic _ _ _ _ _ _ _ => true
  | _ => false

/-- The addresses at its destination that a request reads or writes. -/
def requestAddrs (r : Request) : List Nat :=
  match r.kind with
  | .read l => l
  | .write w => w.map Prod.fst
  | .atomic a _ _ _ _ _ _ => [a, a + 3]
  | _ => []

/-- R350: the spans of two requests meet; the views of one whose operation has given it up are known by them alone (log 122). -/
def spansMeet (a b : Request) : Bool :=
  match requestAddrs a, requestAddrs b with
  | x :: l, y :: m => decide (l.foldl min x ≤ m.foldl max y) && decide (m.foldl min y ≤ l.foldl max x)
  | _, _ => false

/-- R350: an earlier request of the same strand that a request follows: one of its stream, or one whose view can meet its own. -/
def requestOrdered (s : State) (a b : Request) : Bool :=
  let views := (match opAt s a.op, opAt s b.op with
    | some x, some y => (pendingAccesses x).any (fun p => (pendingAccesses y).any (fun q => canMeet s x.asid p.2.1 y.asid q.2.1))
    | _, _ => isOrphan a && spansMeet a b)
  a.dest == b.dest && (requestSeq s a).isSome && requestSeq s a == requestSeq s b && (a.cls == b.cls || ((requestWrites a || requestWrites b) && views))

/-- R350: a request waits for an earlier one. -/
def requestBehind (s : State) (r : Request) : Bool :=
  s.pod.requests.any (fun a => decide (a.id < r.id) && !a.answered && requestOrdered s a r)

/-- The requests with one replaced. -/
def putRequest (s : State) (r : Request) : State :=
  setPod s { s.pod with requests := s.pod.requests.map (fun x => if x.id = r.id then r else x) }

/-- REMOTE_REQUEST_SEND (R350); to a fenced destination it fails before it is sent (R353), and one whose VALID has been cleared is not
reached (R349). -/
def sendRequest (s : State) (n : Nat) : State :=
  match requestNo s n with
  | none => s
  | some r =>
    let d := destAt s r.dest
    if r.sent.isSome || r.answered then s
    else if d.fenced then putRequest s { r with answered := true, poison := true }
    else if (stationOf s r.dest r.cls.toNat).isNone || requestBehind s r || decide (1023 ≤ d.pend) || !d.valid then s
    else setDest (putRequest s { r with sent := some (gtAt s 0) }) r.dest { d with pend := d.pend + 1 }

/-- REMOTE_RESPONSE (R351): the response to a request that has been sent; one that comes after the fence is discarded (R353). A request that its operation has
given up ends with it (R347). -/
def takeResponse (s : State) (n : Nat) : State :=
  match requestNo s n with
  | none => s
  | some r =>
    let d := destAt s r.dest
    if r.sent.isNone || r.answered then s
    else setDest (if isOrphan r then removeRequest s n else putRequest s { r with answered := true }) r.dest { d with pend := d.pend - 1 }

/-- R353: a request to a fenced destination completes with poison. -/
def poisonRequest (n : Nat) (r : Request) : Request := if r.dest = n ∧ !r.answered then { r with answered := true, poison := true } else r

/-- R349, R354: the walks whose translation requests have completed with poison end. -/
def endWalks (s : State) (l : List Request) : State :=
  match l with
  | [] => s
  | r :: rest =>
    match r.kind with
    | .translation die asid vpn _ => endWalks (walkAnswer s die asid vpn .timeout) rest
    | _ => endWalks s rest

/-- R353: a destination is fenced. -/
def fenceDest (s : State) (n : Nat) : State :=
  let walks := s.pod.requests.filter (fun r => r.dest == n && !r.answered && r.op == noOp)
  let s1 := setDest s n { destAt s n with fenced := true, pend := 0 }
  let s2 := setPod s1 { s1.pod with requests := (s1.pod.requests.filter (fun r => !(r.dest == n && (r.op == noOp || isOrphan r)))).map (poisonRequest n),
                                    waits := s1.pod.waits.filter (fun w => w.1 != n) }
  endWalks s2 walks

/-- REMOTE_FENCE (R353): a request unanswered for RTIMEOUT.NS. -/
def timeoutFence (s : State) (n : Nat) : State :=
  match requestNo s n with
  | none => s
  | some r =>
    match r.sent with
    | none => s
    | some t => if r.answered || decide ((gtAt s 0 - t).toNat < s.pod.rtimeout.toNat) then s else fenceDest s r.dest

def execRemoteRequestSend (req : Nat) (s : State) : Host.Outcome State Fault Refusal := .next (sendRequest s req)
def execRemoteResponse (req : Nat) (s : State) : Host.Outcome State Fault Refusal := .next (takeResponse s req)
def execRemoteFence (req : Nat) (s : State) : Host.Outcome State Fault Refusal := .next (timeoutFence s req)

/-! Requests from other packages (R346, R352, R353). -/

/-- R352: the place of a byte that another package names in an address space, for a read or a write. -/
def incomingPlace (s : State) (asid : Nat) (wr : Bool) (va : Nat) : Option Nat :=
  match pageFor s.pages asid va with
  | none => none
  | some p =>
    if wr && !p.writable then none
    else
      match pagePlace s false p va with
      | .at_ loc => if loc < location 48 0 then some loc else none
      | _ => none

/-- The places of n bytes; none when one has none, or holds an uncorrectable error. -/
def incomingPlaces (s : State) (asid : Nat) (wr : Bool) (va n : Nat) : Option (List Nat) :=
  let l := (List.range n).map (fun j => incomingPlace s asid wr (va + j))
  if l.any (fun x => match x with
    | none => true
    | some loc => s.damaged.contains loc) then none
  else some (l.filterMap id)

/-- R275: a strand holds the pseudo-channel of a place. -/
def placesHeld (s : State) (l : List Nat) : Bool :=
  (s.seqs.filterMap (fun q => q.2.bank)).any (fun b => l.any (fun loc => b.die == loc / 2 ^ 48 && b.channel == loc / 4096 % 64))

/-- A request has been answered: a response is owed. -/
def owe (s : State) (r : Incoming) (error : Bool) (bytes : List Byte) : State :=
  setPod s { s.pod with incoming := s.pod.incoming.filter (fun x => x.id != r.id),
                        owed := s.pod.owed ++ [{ id := r.id, dest := r.dest, since := gtAt s 0, error := error, bytes := bytes }] }

/-- R270, R271: the ring that a message of another package's sequencer names, when that is its producer. -/
def incomingRing (s : State) (r : Incoming) (ring : Word) (pseq : Nat) : Option Ring :=
  let x := sendTarget ring
  let d := tget Ring.reset (coreAt s x.1).rings x.2
  if d.valid && d.ppkg.toNat == r.dest && d.pseq.toNat == pseq && (ring >>> 26).setWidth 5 == 0#5 then some d else none

/-- R307: the ring and its producer are those of a suspended ring set, which gives no slot. -/
def incomingSuspended (s : State) (r : Incoming) (ring : Word) (pseq : Nat) : Bool :=
  let x := sendTarget ring
  (coreAt s x.1).suspended.any (fun t =>
    let d := tget Ring.reset t x.2
    d.valid && d.ppkg.toNat == r.dest && d.pseq.toNat == pseq && (ring >>> 26).setWidth 5 == 0#5)

/-- R352: an access of another package to n bytes: an error, a wait for a held pseudo-channel, or its effect. -/
def incomingAccess (s : State) (r : Incoming) (wr : Bool) (va n : Nat) (f : State → List Nat → State) : State :=
  match incomingPlaces s (destAt s r.dest).lasid wr va n with
  | none => owe s r true []
  | some l => if placesHeld s l then s else f s l

/-- R346, R352: what a request of another package does; one of another kind is refused with an error. -/
def performIncoming (s : State) (r : Incoming) : State :=
  match r.kind with
  | .read va n => incomingAccess s r false va n (fun s l => owe (passUncached s l) r false (l.map (memByte s.mem)))
  | .write va b => incomingAccess s r true va b.length (fun s l =>
      let t := passUncached s l
      owe { t with mem := memPutCells t.mem (l.zip b) } r false [])
  | .atomic op va x y mode =>
    if va % 4 ≠ 0 then owe s r true []
    else
      incomingAccess s r true va 4 (fun s l =>
        let loc := l.headD 0
        let old := wordAtLoc s loc
        let s1 := forwardLine s loc
        owe { s1 with mem := memPutBytes s1.mem loc (leBytes 4 (atomicNew op old x y mode).1.toNat) } r false (leBytes 4 old.toNat))
  | .message ring row pseq =>
    (match incomingRing s r ring pseq with
      | none => if incomingSuspended s r ring pseq then s else owe s r true []
      | some d =>
        let x := sendTarget ring
        if d.nslot.toNat + 1 ≤ d.count then s else owe (deliverRow s x.1 x.2 row) r false [])
  | .slot ring pseq =>
    (match incomingRing s r ring pseq with
      | none => owe s r false [if incomingSuspended s r ring pseq then 0 else 2]
      | some d => owe s r false [if d.nslot.toNat + 1 ≤ d.count then 0 else 1])
  | .other => owe s r true []

/-- INCOMING_REMOTE_REQUEST (R352): in arrival order per stream; one from a destination that may not reach this package is refused (R347). -/
def takeIncoming (s : State) (n : Nat) : State :=
  match s.pod.incoming.find? (fun r => r.id == n) with
  | none => s
  | some r =>
    let first := s.pod.incoming.find? (fun x => x.dest == r.dest && x.cls == r.cls)
    if first ≠ some r then s
    else if !(destAt s r.dest).valid then owe s r true []
    else performIncoming s r

/-- OWED_RESPONSE_TIMEOUT (R353). -/
def dropOwed (s : State) (n : Nat) : State :=
  setPod s { s.pod with owed := s.pod.owed.filter (fun o => o.id != n || decide ((gtAt s 0 - o.since).toNat < s.pod.rtimeout.toNat)) }

def execIncomingRemoteRequest (req : Nat) (s : State) : Host.Outcome State Fault Refusal := .next (takeIncoming s req)
def execOwedResponseTimeout (resp : Nat) (s : State) : Host.Outcome State Fault Refusal := .next (dropOwed s resp)

/-! Translations (R349). -/

/-- ATS_TRANSLATION_REQUEST (R349): a translation request of a destination is served through the page tables of LASID. -/
def serveTranslation (s : State) (n va : Nat) : State :=
  let d := destAt s n
  let vpn := va / 65536
  if !d.valid then s
  else
    let p := (pageFor s.pages d.lasid va).filter (fun p => match p.target with
      | .local_ _ _ _ => true
      | _ => false)
    let served := if p.isSome && !s.pod.served.contains (n, d.lasid, vpn) then s.pod.served ++ [(n, d.lasid, vpn)] else s.pod.served
    setPod s { s.pod with served := served, outbox := s.pod.outbox ++ [.translation n vpn p.isSome (p.any (fun p => p.writable))] }

/-- R349: the result of a walk that a destination has answered with: 0 for no translation, else bit 0 for a read and bit 1 for a write.
An answer without bit 0 refuses an input with XLATE_PERM (DESIGN CHOICE, log 136). -/
def translationResult (s : State) (asid vpn v : Nat) : WalkResult :=
  if v % 4 = 0 then .unmapped
  else if v % 2 = 0 then .denied
  else
    match pageFor s.pages asid (vpn * 65536) with
    | none => .unmapped
    | some p => .page { p with writable := p.writable && v.testBit 1 }

/-- R349: the translation requests to a destination for a page of its own are answered. -/
def answerWalks (s : State) (v : Nat) (l : List Request) : State :=
  match l with
  | [] => s
  | r :: rest =>
    match r.kind with
    | .translation die asid vpn _ => answerWalks (walkAnswer s die asid vpn (translationResult s asid vpn v)) v rest
    | _ => answerWalks s v rest

/-- ATS_TRANSLATION_RESPONSE (R349). -/
def takeTranslation (s : State) (n vpn v : Nat) : State :=
  let mine := fun (r : Request) => r.dest == n && r.sent.isSome && (match r.kind with
    | .translation _ _ _ va => va / 65536 == vpn
    | _ => false)
  let l := s.pod.requests.filter mine
  let d := destAt s n
  let s1 := setPod s { s.pod with requests := s.pod.requests.filter (fun r => !mine r) }
  if l.isEmpty then s else answerWalks (setDest s1 n { d with pend := d.pend - l.length }) v l

/-- ATS_INVALIDATION (R349): an invalidation of a destination is applied on every die, once none is busy, and is answered when all have done. -/
def applyInvalidation (s : State) (n vpn size : Nat) : State :=
  if (List.range 16).any (fun d => (dieAt s d).xlinv.isSome) then s
  else
    let x : Invalidation := { dest := some n, asid := 0, size := size % 4, vpn := vpn }
    let s1 := (List.range 16).foldl (fun s d => setDie s d { dieAt s d with xlinv := some x }) s
    setPod s1 { s1.pod with answers := s1.pod.answers ++ [n] }

/-- The waits without the oldest of a destination. -/
def answered (n : Nat) (l : List (Nat × Nat × Invalidation)) : List (Nat × Nat × Invalidation) :=
  match l with
  | [] => []
  | w :: rest => if w.1 = n then rest else w :: answered n rest

/-- ATS_INVALIDATION_ANSWER (R349): a destination answers the oldest invalidation of this package that it has not answered (log 110). -/
def takeAnswer (s : State) (n : Nat) : State := setPod s { s.pod with waits := answered n s.pod.waits }

def execAtsTranslationRequest (dest va : Nat) (s : State) : Host.Outcome State Fault Refusal := .next (serveTranslation s dest va)
def execAtsTranslationResponse (dest vpn val : Nat) (s : State) : Host.Outcome State Fault Refusal := .next (takeTranslation s dest vpn val)
def execAtsInvalidation (dest vpn size : Nat) (s : State) : Host.Outcome State Fault Refusal := .next (applyInvalidation s dest vpn size)
def execAtsInvalidationAnswer (dest : Nat) (s : State) : Host.Outcome State Fault Refusal := .next (takeAnswer s dest)

/-! Time (R355, R327). -/

/-- R355: a millisecond of GT has passed since the time master's last messages (log 123). -/
def timeDue (s : State) : Bool :=
  match s.pod.timeSent with
  | none => true
  | some t => decide (1000000 ≤ (gtAt s 0 - t).toNat)

/-- GT_TIME_MESSAGE_SEND (R355): the time master sends its time to every valid destination, once per millisecond. -/
def sendTime (s : State) : State :=
  if !s.pod.gtMaster || !timeDue s then s
  else
    setPod s { s.pod with timeSent := some (gtAt s 0),
                          outbox := s.pod.outbox ++ (s.pod.dests.filter (fun d => d.2.valid)).map (fun d => PodMsg.time d.1 (gtAt s 0)) }

/-- R327: every die's GT advances by the same time: the copies never differ (DESIGN CHOICE, log 153). -/
def advanceGt (s : State) (ns : Nat) : State :=
  { s with gt := (List.range 16).foldl (fun t d => tput t d (gtAt s d + BitVec.ofNat 64 ns)) s.gt }

/-- GT_TIME_MESSAGE (R355, R327): a package that is not the master corrects its GT: it advances, or is slowed by the excess; three small corrections
in a row lock it. -/
def takeTime (s : State) (n gt : Nat) : State :=
  let d := destAt s n
  if s.pod.gtMaster || !d.valid || d.fenced then s
  else
    let own := (gtAt s 0).toNat
    let diff := if own ≤ gt then gt - own else own - gt
    let small := if diff < 100 then min 3 (s.pod.small + 1) else 0
    let p := { s.pod with small := small, locked := s.pod.locked || small == 3, slow := if own ≤ gt then 0 else own - gt }
    if own ≤ gt then advanceGt (setPod s p) (gt - own) else setPod s p

/-- R355: time passes for GT: the correction that is due slows any part of it away. -/
def elapseGt (s : State) (ns : Nat) : State :=
  if s.pod.slow = 0 then advanceGt s ns
  else
    let lost := Config.slowed s.free % (min s.pod.slow ns + 1)
    advanceGt { setPod s { s.pod with slow := s.pod.slow - lost } with free := s.free + 1 } (ns - lost)

def execGtTimeMessageSend (s : State) : Host.Outcome State Fault Refusal := .next (sendTime s)
def execGtTimeMessage (dest gt : Nat) (s : State) : Host.Outcome State Fault Refusal := .next (takeTime s dest gt)

/-! Group barriers (R357). A group's number and the barrier's identifier are one number: 8 times the group, and the identifier. -/

/-- POD_BARRIER_ARRIVAL (R357): an arrival of a member reaches the master. -/
def podArrival (s : State) (x n : Nat) : State :=
  let g := groupAt s (x / 8)
  if g.valid && g.master == s.pod.id.toNat && (destAt s n).valid then groupArrival s (x / 8) n (x % 8) else s

/-- POD_BARRIER_COMPLETION (R357): the completion reaches a member. -/
def podCompletion (s : State) (x : Nat) : State :=
  let g := groupAt s (x / 8)
  match findTask s g.task with
  | some (k, t) => if g.valid then completeEverywhere s k 4 (x % 8) t.home else s
  | none => s

/-- R357: the strand of sequencer q waits for a pod barrier: by its BAR, or with its next bundle. -/
def podWait (s : State) (q id : Nat) : Option Word :=
  let sq := seqAt s q
  if sq.status ≠ .running ∨ sq.endPending ∨ !phaseOpen s q 4 id then none
  else
    match sq.barWait with
    | some (k, a) => if keyScope k = 4 ∧ keyId k = id then some a else none
    | none =>
      let named := (heldSlots { s with cur := q }).any (fun x => match x.2.1 with
        | .bar _ sc i _ _ => sc.toNat == 4 && i.toNat == id
        | .bararv _ sc i _ => sc.toNat == 4 && i.toNat == id
        | .barwt _ sc i _ => sc.toNat == 4 && i.toNat == id
        | _ => false)
      if named then some sq.pc else none

/-- R357: a strand's wait ends with ENG_TIMEOUT, reported on slot 2 of the barrier's bundle. -/
def timeoutWait (id : Nat) (s : State) (q : Nat) : State :=
  match podWait s q id with
  | none => s
  | some a =>
    let sq := seqAt s q
    let x := freeStatus s
    let r : EngineReport :=
      { op := noOp, cause := 0x34, engine := 5, cqn := 0, slot := 2, baddr := a, idx := (List.range 6).map (loopIndex sq), aux0 := x.2, aux1 := 0,
        region := sq.regions.length }
    if sq.reports.any (fun e => e.op == noOp) then s else setSeq x.1 q { sq with reports := sq.reports ++ [r] }

/-- POD_BARRIER_TIMEOUT (R357): a member or the master of a group is fenced. -/
def podTimeout (s : State) (x : Nat) : State :=
  let g := groupAt s (x / 8)
  if !g.valid || !groupFenced s (x / 8) g then s
  else
    match findTask s g.task with
    | none => s
    | some (k, _) =>
      let qs := (s.seqs.filter (fun q => taskOf q.2 == k)).map (fun q => q.1)
      qs.foldl (timeoutWait (x % 8)) s

def execPodBarrierArrival (group dest : Nat) (s : State) : Host.Outcome State Fault Refusal := .next (podArrival s group dest)
def execPodBarrierCompletion (group : Nat) (s : State) : Host.Outcome State Fault Refusal := .next (podCompletion s group)
def execPodBarrierTimeout (group : Nat) (s : State) : Host.Outcome State Fault Refusal := .next (podTimeout s group)

end Sys2Proof.Machine
end

