-- ==== Sys2Proof/Machine/Boot.lean ====
section
/-! DEFINITION. Sys2Proof/Machine/Boot.lean: power and bring-up (R358-R361, R363), BOOTSTAT, and attestation (R362). -/

namespace Sys2Proof.Machine

/-! The image (R359). The header's four fields are taken as its first four words (log 17). -/

/-- R359: the magic. -/
def imageMagic : Nat := 0x53545646

/-- The length of the code, the entry offset and the SVN of an image. -/
def imageLength (l : List Byte) : Nat := natAt l 4 4
def imageEntry (l : List Byte) : Word := wordAt l 8 &&& 0xFFFFFFE0
def imageSvn (l : List Byte) : Word := wordAt l 12

/-- R359: the bytes of an image that are signed: header and code. -/
def imageSigned (l : List Byte) : List Byte := l.take (64 + imageLength l)

/-- R359: its signature. -/
def imageSignature (l : List Byte) : List Byte := (l.drop (64 + imageLength l)).take 3309

/-- R359, R360: the verdict on an image: its code, 0 for a pass. The order of the checks is log 84's; the digest of the key is taken as 64 bytes (log 17). -/
def verdict (fuse : Nat) (l : List Byte) : Nat :=
  if l.length < 64 then 5
  else if natAt l 0 4 ≠ imageMagic then 1
  else if l.length < 64 + imageLength l + 3309 then 5
  else if shake256 64 (Config.publicKey l) ≠ Config.fusedKey then 2
  else if !Config.mldsaVerify (Config.publicKey l) (shake256 64 (imageSigned l)) (imageSignature l) then 3
  else if (imageSvn l).toNat < max Config.fusedSvn fuse then 4
  else 0

/-! Bring-up (R358, R361). -/

/-- The address space of a die's firmware, and the addresses of its register window there (log 17). -/
def stewardSpace (die : Nat) : Nat := 4096 + die
def windowVa : Nat := 2 ^ 64 - 2 ^ 30

/-- R361: v15 of the steward: the register window of 16 MiB, open in mode W at die scope, class c15. -/
def windowView : View :=
  { View.reset with handle := 1, xt := #v[0x1000000, 1, 1, 1], sd := #v[1, 0, 0, 0], isOpen := true, cls := 15, scope := 2, mode := 1 }

/-- R358, R361: the steward's primary sequencer at the image's entry. -/
def stewardStart (die : Nat) (l : List Byte) : Seq :=
  { Seq.reset with pc := imageEntry l, asid := stewardSpace die, views := vput Seq.reset.views 15 windowView, status := .running }

/-- The pages of a die's firmware: its code at address 0 of the die's HBM, and the register window. -/
def stewardPages (die : Nat) : List Page :=
  [{ asid := stewardSpace die, va := 0, size := 2, writable := true, target := .local_ 0 die 0 },
   { asid := stewardSpace die, va := windowVa, size := 2, writable := true, target := .registers die }]

/-- R162, R361: v15 of a die's steward, as its directory holds it. -/
def windowFlock (die : Nat) : FlockEntry :=
  { seq := some (2 * (1024 + die)), task := none, reg := 15, asid := stewardSpace die, view := windowView, wide := false }

/-- The handle of the register window. -/
def windowEntry : HandleEntry := { base := windowVa, size := 0x1000000, tier := 0, die := 0, gen := 0, valid := true }

/-- R358, step 4: the steward of a die starts, with v15 open and registered (R162, R361). -/
def startSteward (s : State) (die : Nat) (l : List Byte) : State :=
  let s1 := setSeq s (2 * (1024 + die)) (stewardStart die l)
  { s1 with mem := memPutBytes s1.mem (location die 0) ((l.drop 64).take (imageLength l)), pages := s1.pages ++ stewardPages die,
            handles := tput s1.handles (handleKey (stewardSpace die) 1) windowEntry, flock := tput s1.flock die (flockAt s1 die ++ [windowFlock die]) }

/-- R358: steps 3 and 4 of a die, with its memory scrubbed and its registers at their resets. -/
def bootDie (s : State) (die : Nat) : State :=
  let l := if Config.bootSource then s.hostImage else s.flash
  let c := verdict s.fuse l
  let d := dieAt s die
  let digest := if c = 0 then shake256 64 (imageSigned l) else d.digest
  if c = 0 then startSteward (setDie s die { d with boot := .started, svn := imageSvn l, digest := digest }) die l
  else takeAsked (setDie s die { d with boot := .failed, fail := true, code := c }) die

/-- R358: what survives a package reset: the flash, the fuses, the second tier, and what the host holds; of memory from unit u on. -/
def resetState (s : State) (u : Nat) : State :=
  { State.reset with mem := s.mem.filter (fun c => decide (location u 0 ≤ c.1) && decide (c.1 < location 48 0)),
                     flash := s.flash, hostImage := s.hostImage, fuse := s.fuse, agenda := s.agenda, free := s.free, cur := s.cur, bus := s.bus }

/-- POWER_UP (R358, R363): a package that is off. -/
def powerUp (s : State) : State := if s.powered then s else (List.range 16).foldl bootDie (resetState s 38)

/-- R340: a package reset is no power-up: a die's trace unit owes a RESYNC after it only where it owed one before. -/
def keepResync (old s : State) (die : Nat) : State :=
  let d := dieAt s die
  setDie s die { d with trace := { d.trace with resync := (dieAt old die).trace.resync } }

/-- PACKAGE_RESET (R358): a package that is on. -/
def packageReset (s : State) : State :=
  if s.powered then (List.range 16).foldl bootDie ((List.range 16).foldl (keepResync s) (resetState s 32)) else s

/-- POWER_OFF (R363): all memory of the package is lost; host memory is not its (log 85). -/
def powerOff (s : State) : State := { resetState s 38 with powered := false }

def execPowerUp (s : State) : Host.Outcome State Fault Refusal := .next (powerUp s)
def execPackageReset (s : State) : Host.Outcome State Fault Refusal := .next (packageReset s)
def execPowerOff (s : State) : Host.Outcome State Fault Refusal := .next (powerOff s)

/-! BOOTSTAT (R360). -/

/-- BOOTSTAT_GO (R358, R360): the scheduler accepts launches; a write of 0 is ignored, and the scheduler of a die whose boot has failed stays stopped. -/
def bootGo (s : State) (die v : Nat) : State :=
  if v % 2 = 0 ∨ (dieAt s die).boot = .failed then s else takeAsked (setDie s die { dieAt s die with go := true }) die

/-- BOOTSTAT_SVNSET (R360). -/
def bootSvn (s : State) (die : Nat) : State := { s with fuse := max s.fuse (dieAt s die).svn.toNat }

/-- R360: BOOTSTAT written whole. -/
def writeBootstat (s : State) (die v : Nat) : State :=
  let s1 := if v.testBit 8 then bootGo s die 1 else s
  if v.testBit 7 then bootSvn s1 die else s1

def bootWord (d : Die) : Nat :=
  d.svn.toNat * 2 ^ 32 + (if d.go then 256 else 0) + (if Config.bootSource then 64 else 0) + (if d.fail then 32 else 0) + d.code

def execBootstatGo (s : State) : Host.Outcome State Fault Refusal := .next (bootGo s s.bus.unit s.bus.val)
def execBootstatSvnset (s : State) : Host.Outcome State Fault Refusal := .next (bootSvn s s.bus.unit)

/-! Attestation (R362). -/

/-- ATTCTL_GO (R362): ignored while BUSY; a destination outside die 0's HBM sets ERR. -/
def attestGo (s : State) : State :=
  let a := s.attest
  if a.busy then s
  else if hbmBytes < a.dest.toNat + 8192 then { s with attest := { a with err := true } }
  else { s with attest := { a with err := false, busy := true } }

/-- R362: a list of bytes cut or padded to n. -/
def exactly (n : Nat) (l : List Byte) : List Byte := padTo n (l.take n)

/-- R362: the part of the report that is signed. -/
def reportBody (s : State) : List Byte :=
  leBytes 16 Config.serialNumber.toNat ++ (List.range 4).flatMap (fun n => leBytes 8 (vget 0 s.attest.nonce n).toNat)
    ++ (List.range 16).flatMap (fun d => exactly 64 (dieAt s d).digest ++ leBytes 4 (dieAt s d).svn.toNat) ++ leBytes 8 (gtAt s 0).toNat

/-- R362: the report, 8 KiB with the zeros after it. -/
def report (s : State) : List Byte := padTo 8192 (reportBody s ++ exactly 3309 (Config.mldsaSign (reportBody s)))

/-- ATTESTATION_COMPLETE (R362): the report is written and has performed; it waits while a strand holds a pseudo-channel of its area (R275). -/
def attestDone (s : State) : State :=
  if s.attest.busy && !homeHeld s (location 0 s.attest.dest.toNat) 8192 then
    { writeHome s (cellsAt (location 0 s.attest.dest.toNat) (report s)) with attest := { s.attest with busy := false } }
  else s

/-- An attestation register written, at an offset from ATTCTL. -/
def writeAttest (s : State) (off v : Nat) : State :=
  let a := s.attest
  if a.busy then s
  else if off = 0 then (if v % 2 = 1 then attestGo s else s)
  else if off < 0x28 then { s with attest := { a with nonce := vput a.nonce (off / 8 - 1) (BitVec.ofNat 64 v) } }
  else if off = 0x28 then { s with attest := { a with dest := BitVec.ofNat 64 (v / 8192 * 8192) } }
  else s

/-- An attestation register as it reads. -/
def readAttest (s : State) (off : Nat) : Nat :=
  let a := s.attest
  if off = 0 then (if a.err then 4 else 0) + (if a.busy then 2 else 0)
  else if off < 0x28 then (vget 0 a.nonce (off / 8 - 1)).toNat
  else if off = 0x28 then a.dest.toNat
  else 0

def execAttctlGo (s : State) : Host.Outcome State Fault Refusal := .next (attestGo s)
def execAttestationComplete (s : State) : Host.Outcome State Fault Refusal := .next (attestDone s)

end Sys2Proof.Machine
end

