-- ==== Sys2Proof/Machine/RegMap.lean ====
section
/-! DEFINITION. Sys2Proof/Machine/RegMap.lean: the register windows (R9, R296, R324, R361): a register of a die by its offset, read and written whole,
and the accesses of firmware through its register view; the inputs of the outside world; and the next thing that the package does of itself. -/

namespace Sys2Proof.Machine

/-! The scheduler registers and the small blocks (R298, R263, R270, R203). -/

def writeSchedReg (s : State) (d off v : Nat) : State :=
  let x := dieAt s d
  match off with
  | 0x00 => setDie s d { x with drainLimit := BitVec.ofNat 64 v }
  | 0x08 => setDie s d { x with killCost := BitVec.ofNat 32 (v / 2 ^ 32), ckptCost := BitVec.ofNat 32 v }
  | 0x10 => setDie s d { x with pperiod := BitVec.ofNat 32 v }
  | 0x18 => writeTaskcmd s v
  | _ => s

def readSchedReg (s : State) (d off : Nat) : Nat :=
  let x := dieAt s d
  match off with
  | 0x00 => x.drainLimit.toNat
  | 0x08 => x.killCost.toNat * 2 ^ 32 + x.ckptCost.toNat
  | 0x10 => x.pperiod.toNat
  | 0x20 => schedStat s d
  | _ => 0

def writeSliceReg (s : State) (d k off v : Nat) : State :=
  match off with
  | 0x00 => writeWaymask s d k v
  | 0x08 => writeRemoteWays s d k v
  | _ => s

def readSliceReg (s : State) (d k off : Nat) : Nat :=
  let x := sliceAt s d k
  match off with
  | 0x00 => waymaskWord x
  | 0x08 => remoteWaysWord x
  | 0x10 => sliceStat x
  | _ => 0

/-- XLINV, XLSTAT and RING_WAIT. -/
def writeNetReg (s : State) (d off v : Nat) : State :=
  match off with
  | 0x00 => startInval s d v
  | 0x10 => setDie s d { dieAt s d with ringWait := BitVec.ofNat 20 v }
  | _ => s

def readNetReg (s : State) (d off : Nat) : Nat :=
  match off with
  | 0x08 => if (dieAt s d).xlinv.isSome then 1 else 0
  | 0x10 => (dieAt s d).ringWait.toNat
  | _ => 0

/-- R203: the debug block of sequencer q. -/
def writeDebug (s : State) (q off v : Nat) : State :=
  match off with
  | 0x00 => writeSqctl s q (BitVec.ofNat 32 v)
  | 0x10 => setSeq s q { seqAt s q with sqfra := BitVec.ofNat 64 (v / 1024 * 1024) }
  | _ => s

def readDebug (s : State) (q off : Nat) : Nat :=
  let sq := seqAt s q
  match off with
  | 0x00 => if sq.freeze then 16 else 0
  | 0x08 => (if sq.resFail then 256 else 0) + (if sq.stepHeld then 128 else 0) + seqState s q
  | 0x10 => sq.sqfra.toNat
  | _ => 0

/-! The window of a die (R296). -/

/-- What an offset of the window names. -/
inductive Block where
  | sched (off : Nat)
  | slice (k off : Nat)
  | net (off : Nat)
  | zone (z off : Nat)
  | trace (off : Nat)
  | boot
  | attest (off : Nat)
  | debug (q off : Nat)
  | ring (k n : Nat)
  | counters (q off : Nat)
  | pod (off : Nat)
  | nothing
deriving DecidableEq, Repr

/-- R296: the map of die d's window. -/
def blockOf (d a : Nat) : Block :=
  if a < 0x10000 then .sched a
  else if a < 0x30000 then .slice ((a - 0x10000) / 0x1000) (a % 0x1000)
  else if 0x80000 ≤ a ∧ a < 0x80100 then .net (a % 0x100)
  else if 0x90000 ≤ a ∧ a < 0x90400 then .zone (4 * d + (a - 0x90000) / 0x100) (a % 0x100)
  else if d = 0 ∧ 0x90400 ≤ a ∧ a < 0x90900 then .zone (64 + (a - 0x90400) / 0x100) (a % 0x100)
  else if 0xA0000 ≤ a ∧ a < 0xA0100 then .trace (a % 0x100)
  else if a = 0xC0000 then .boot
  else if d = 0 ∧ 0xC0008 ≤ a ∧ a < 0xC0038 then .attest (a - 0xC0008)
  else if 0x100000 ≤ a ∧ a < 0x108000 then
    .debug (2 * (64 * d + 4 * ((a - 0x100000) / 0x800) + a / 0x200 % 4) + a / 0x100 % 2) (a % 0x100)
  else if 0x108000 ≤ a ∧ a < 0x108200 then .debug (2 * (1024 + d) + a / 0x100 % 2) (a % 0x100)
  else if 0x200000 ≤ a ∧ a < 0x240000 then (if a % 0x1000 < 0x200 then .ring (64 * d + (a - 0x200000) / 0x1000) (a % 0x1000 / 8) else .nothing)
  else if 0x240000 ≤ a ∧ a < 0x240200 then .ring (1024 + d) ((a - 0x240000) / 8)
  else if 0x300000 ≤ a ∧ a < 0x380000 then .counters (2 * (64 * d + (a - 0x300000) / 0x2000) + a / 0x1000 % 2) (a % 0x1000)
  else if d = 0 ∧ 0x400000 ≤ a ∧ a < 0x403200 then .pod (a - 0x400000)
  else .nothing

/-- R9, R296: the register at an offset of die d's window, a multiple of 8, written. -/
def writeRegister (s : State) (d a v : Nat) : State :=
  match blockOf d a with
  | .sched o => writeSchedReg s d o v
  | .slice k o => writeSliceReg s d k o v
  | .net o => writeNetReg s d o v
  | .zone z o => writeZone s z o v
  | .trace o => writeTrace s d o v
  | .boot => writeBootstat s d v
  | .attest o => writeAttest s o v
  | .debug q o => writeDebug s q o v
  | .ring k n => writeRing s k n v
  | .counters _ _ => s
  | .pod o => writePodReg s o v
  | .nothing => s

/-- R9, R296: the register at an offset of die d's window as it reads. -/
def readRegister (s : State) (d a : Nat) : Nat :=
  match blockOf d a with
  | .sched o => readSchedReg s d o
  | .slice k o => readSliceReg s d k o
  | .net o => readNetReg s d o
  | .zone z o => readZone s z o
  | .trace o => readTrace s d o
  | .boot => bootWord (dieAt s d)
  | .attest o => readAttest s o
  | .debug q o => readDebug s q o
  | .ring k n => ringWord (tget Ring.reset (coreAt s k).rings n)
  | .counters q o => readCounters s q o
  | .pod o => readPodReg s o
  | .nothing => 0

/-- R324: the host's package register window: HQBASE, HQCTL, HQSTAT and NOTIFY of the host queues. -/
def writeHostReg (s : State) (a v : Nat) : State :=
  if 0x100000 ≤ a ∧ a < 0x108000 then
    let n := (a - 0x100000) / 32
    match a % 32 with
    | 0x00 => writeHqbase s n v
    | 0x08 => writeHqctl s n v
    | 0x18 => writeNotify s n v
    | _ => s
  else s

/-- R324: what the host reads in its window. -/
def readHostReg (s : State) (a : Nat) : Nat :=
  if 0x100000 ≤ a ∧ a < 0x108000 then
    let x := hqAt s ((a - 0x100000) / 32)
    match a % 32 with
    | 0x00 => x.base.toNat
    | 0x08 => hqCtl x
    | 0x10 => hqStat x
    | _ => 0
  else 0

/-- REGISTER_WRITE (R9): unit 0 to 15 is a die's window, 16 the host's. -/
def registerWrite (s : State) (u a v : Nat) : State := if u = 16 then writeHostReg s (a / 8 * 8) v else writeRegister s u (a / 8 * 8) v

def execRegisterWrite (s : State) : Host.Outcome State Fault Refusal :=
  .next (registerWrite s s.bus.unit s.bus.reg (s.bus.val % 2 ^ 64))

/-! Accesses through the register view (R361). -/

/-- R203, R258, R263, R270: the registers of 32 bits, which take effect with their only word. -/
def narrowRegister (d a : Nat) : Bool :=
  match blockOf d a with
  | .slice _ o => o == 8
  | .net o => o == 8 || o == 0x10
  | .debug _ o => o == 0 || o == 8
  | _ => false

/-- R361: a word written at an offset of die d's window: the low word is kept, and the high word writes the register. -/
def writeWord (s : State) (d a : Nat) (x : Word) : State :=
  let r := a / 8 * 8
  if a % 8 = 0 then
    if narrowRegister d r then writeRegister s d r x.toNat else setDie s d { dieAt s d with low := tput (dieAt s d).low r x }
  else if narrowRegister d r then s
  else writeRegister s d r (x.toNat * 2 ^ 32 + (tget 0 (dieAt s d).low r).toNat)

/-- R361: a word read. -/
def readWord (s : State) (d a : Nat) : Word := BitVec.ofNat 32 (readRegister s d (a / 8 * 8) / 2 ^ (a % 8 * 8))

/-- R361: the register window that an atomic reaches: the die, and the offset. -/
def registerPlace (s : State) (o : Op) (index : Nat) (v : View) : Option (Nat × Nat) :=
  match addrsOf s o.asid v [4 * index] with
  | [a] =>
    (match xlateLate s (dieOf o.seq) o.asid a true with
      | .at_ loc => if location 48 0 ≤ loc then some (loc / 2 ^ 48 - 48, loc % 2 ^ 48) else none
      | _ => none)
  | _ => none

/-- R361: ALD and AST on a register; no other operation reaches one. -/
def registerAccess (s : State) (o : Op) (op : AtomicOp) (x : Word) (d a : Nat) : State :=
  let done := fun (s : State) (w : Word) => atomicDone s o op w 0
  match op with
  | .load => done s (readWord s d a)
  | .store => done (writeWord s d a x) 0
  | _ => done s 0

/-- ATOMIC_BANK_OPERATION (R265, R361). -/
def atomicStep (s : State) (n k : Nat) : State :=
  match opAt s n with
  | none => s
  | some o =>
    match o.kind with
    | .atomic op _ x _ index v _ _ _ =>
      (match registerPlace s o index v with
        | some (d, a) => onOp s n (mayMove s) (fun s o => registerAccess s o op x d a)
        | none => bankOperates s n k)
    | _ => bankOperates s n k

def execAtomicBankOperation (op elem : Nat) (s : State) : Host.Outcome State Fault Refusal := .next (atomicStep s op elem)

/-! The outside world. -/

/-- R204, R211, R331: cycles of the main clock pass for quad k: its lease bound counts those of its throttled clock, and none while its holder's core is
frozen. -/
def leaseElapse (s : State) (cycles k : Nat) (x : Quad) : Quad :=
  match x.holder with
  | none => x
  | some c => if coreFrozen s (4 * k + c) then x else { x with cycles := x.cycles + cycles * (8 - (zoneAt s (zoneOf k)).thr) }

/-- Time passes: GT, the zones, the lease bounds, in ns and cycles. -/
def elapseTime (s : State) (ns cycles : Nat) : State :=
  let s1 := elapseGt s ns
  { s1 with zones := (List.range 69).foldl (fun t z => tput t z (zoneElapse ns (zoneAt s z))) s1.zones,
            quads := s1.quads.map (fun q => (q.1, leaseElapse s cycles q.1 q.2)) }

/-- R351: the bytes of an answer stand with the request. -/
def putAnswer (s : State) (n : Nat) (l : List Byte) : State :=
  match requestNo s n with
  | some r => if r.answered then s else putRequest s { r with answer := l }
  | none => s

/-- R257, R259: a location is an offset of a way that is not scratch: nothing is there. -/
def offScratch (s : State) (loc : Nat) : Bool :=
  decide (16 ≤ loc / 2 ^ 48) && decide (loc / 2 ^ 48 < 32) && !inWays (loc / 2 ^ 48 - 16) (sliceOf loc) (sliceAt s (loc / 2 ^ 48 - 16) (sliceOf loc)).scratch loc

/-- R322, R287: bytes that the host or the loader writes, in order, from a location on; one for an offset that is not scratch is dropped. -/
def hostWrite (s : State) (loc : Nat) (l : List Byte) : State :=
  if location 48 0 ≤ loc + l.length then s else writeHome s ((cellsAt loc l).filter (fun c => !offScratch s c.1))

/-- The pages of two records share an address. -/
def pagesOverlap (p q : Page) : Bool :=
  p.asid == q.asid && decide (p.va < q.va + pageBytes q.size) && decide (q.va < p.va + pageBytes p.size)

/-- R185, R317, R361: a page as its tier allows it: TIER 0 keeps VA[17:0] in the HBM of a die, TIER 1 has no 1 GiB page, 26 address bits and VA[15:0], the
second tier names LPDDR6 of the package's capacity (R1), a CXL port or host memory. The register windows are the firmware's. -/
def pageOk (p : Page) : Bool :=
  let n := pageBytes p.size
  decide (p.size ≤ 2) && p.va % n == 0 && decide (p.va + n ≤ 2 ^ 64) && (match p.target with
    | .local_ 0 die base => decide (die < 16) && base % 2 ^ 18 == p.va % 2 ^ 18 && decide (base + n ≤ hbmBytes)
    | .local_ 1 die base => decide (die < 16) && decide (p.size ≤ 1) && base % 2 ^ 16 == 0 && decide (base + n ≤ 2 ^ 26)
    | .local_ tier store base => tier == 2 && decide (store ≤ 3) && base % 2 ^ 16 == 0 && decide (base + n ≤ if store = 0 then lpddrBytes else 2 ^ 48)
    | .remote dest _ _ => decide (dest < 1024)
    | .registers _ => false)

/-- The 64 KiB page of a number lies in a page. -/
def holdsPage (p : Page) (asid vpn : Nat) : Bool :=
  p.asid == asid && decide (p.va ≤ vpn * 65536) && decide (vpn * 65536 < p.va + pageBytes p.size)

/-- R185, R317: a page is mapped; its table entries are written anew. -/
def addPage (s : State) (p : Page) : State :=
  if pageOk p then
    { s with pages := s.pages.filter (fun q => !pagesOverlap p q) ++ [p], badTables := s.badTables.filter (fun x => !holdsPage p x.1 x.2) }
  else s

/-- R151, R152: an entry as the table allows it: an index from 1 on in the table, BASE a multiple of 64 KiB in 64 bits, SIZE 1 to 2^40 - 1, TIER 0 to 2, and
DIE 0 to 15, zero in the second tier. -/
def entryOk (s : State) (asid index base size tier die : Nat) : Bool :=
  index != 0 && decide (index < 2 ^ htlogOf s asid) && base % 65536 == 0 && decide (base < 2 ^ 64) && size != 0 && decide (size < 2 ^ 40)
    && decide (tier ≤ 2) && decide (die < 16) && (tier != 2 || die == 0)

/-- R152, R154: a handle is allocated, when its index is not in use and nothing pins it; its generation stays. -/
def allocateHandle (s : State) (asid index base size tier die : Nat) : State :=
  let k := asid * 2 ^ 20 + index
  let e := tget HandleEntry.reset s.handles k
  if !entryOk s asid index base size tier die || e.valid || pinCount s asid (BitVec.ofNat 32 index) != 0 then s
  else { s with handles := tput s.handles k { base := base, size := size, tier := tier, die := die, gen := e.gen, valid := true } }

/-- R152: HTLOG is fixed while a task of the space is live. -/
def fixHtlog (s : State) (asid log : Nat) : State :=
  if log < 10 ∨ 20 < log ∨ s.tasks.any (fun t => t.2.asid == asid) then s else { s with htlog := tput s.htlog asid log }

/-- An input that is no step of the package. -/
def takeInput (s : State) (i : Input) : State :=
  match i with
  | .elapse ns cycles => elapseTime s ns cycles
  | .damage loc => { s with damaged := if s.damaged.contains loc then s.damaged else s.damaged ++ [loc] }
  | .damageTable asid vpn => { s with badTables := if s.badTables.contains (asid, vpn) then s.badTables else s.badTables ++ [(asid, vpn)] }
  | .dropPrefetch k => { s with slices := tput s.slices k { tget Slice.reset s.slices k with pfDrop := (tget Slice.reset s.slices k).pfDrop + 1 } }
  | .arrive r => setPod s { s.pod with incoming := s.pod.incoming ++ [r] }
  | .accepted id => setPod s { s.pod with owed := s.pod.owed.filter (fun o => o.id != id) }
  | .image host l => if host then { s with hostImage := l } else { s with flash := l }
  | .answer n l => putAnswer s n l
  | .hostStore loc l => hostWrite s loc l
  | .mapPage p => addPage s p
  | .unmapPage asid va => { s with pages := s.pages.filter (fun p => p.asid != asid || p.va != va) }
  | .allocate asid index base size tier die => allocateHandle s asid index base size tier die
  | .addressSpace asid log => fixHtlog s asid log
  | .event _ => s
  | .write _ _ => s

end Sys2Proof.Machine
end

