-- ==== Sys2Proof/Machine/Dispatch.lean ====
section
/-! DEFINITION. Sys2Proof/Machine/Dispatch.lean: the meaning of every constructor of Instr. -/

namespace Sys2Proof.Machine

def exec (i : Instr) (s : State) : Host.Outcome State Fault Refusal :=
  match i with
  | .bundleIssue q => Sys2Proof.Machine.execBundleIssue q s
  | .pendingWriteLanding q => Sys2Proof.Machine.execPendingWriteLanding q s
  | .bundleSkip q => Sys2Proof.Machine.execBundleSkip q s
  | .loopExit q => Sys2Proof.Machine.execLoopExit q s
  | .delayExpire q => Sys2Proof.Machine.execDelayExpire q s
  | .starvationGuard core => Sys2Proof.Machine.execStarvationGuard core s
  | .variableResultArrival op => Sys2Proof.Machine.execVariableResultArrival op s
  | .tileWriteComplete op => Sys2Proof.Machine.execTileWriteComplete op s
  | .viewAccessPerform op => Sys2Proof.Machine.execViewAccessPerform op s
  | .engineFault q => Sys2Proof.Machine.execEngineFault q s
  | .containedUnwind q => Sys2Proof.Machine.execContainedUnwind q s
  | .copyStart core cq => Sys2Proof.Machine.execCopyStart core cq s
  | .copyComplete op => Sys2Proof.Machine.execCopyComplete op s
  | .retireComplete op => Sys2Proof.Machine.execRetireComplete op s
  | .leaseGrant quad c => Sys2Proof.Machine.execLeaseGrant quad c s
  | .leaseBoundExpiry quad => Sys2Proof.Machine.execLeaseBoundExpiry quad s
  | .arrayCommandRun quad c => Sys2Proof.Machine.execArrayCommandRun quad c s
  | .placedWriteback op => Sys2Proof.Machine.execPlacedWriteback op s
  | .bankCommandRun q => Sys2Proof.Machine.execBankCommandRun q s
  | .atomicBankOperation op elem => Sys2Proof.Machine.execAtomicBankOperation op elem s
  | .translationWalkComplete die asid vpn => Sys2Proof.Machine.execTranslationWalkComplete die asid vpn s
  | .sendFull q => Sys2Proof.Machine.execSendFull q s
  | .waymaskChangeComplete die slice => Sys2Proof.Machine.execWaymaskChangeComplete die slice s
  | .remoteWaysChangeComplete die slice => Sys2Proof.Machine.execRemoteWaysChangeComplete die slice s
  | .xlinvComplete die => Sys2Proof.Machine.execXlinvComplete die s
  | .teamPlace die => Sys2Proof.Machine.execTeamPlace die s
  | .cohortPlace die => Sys2Proof.Machine.execCohortPlace die s
  | .launchViewRegister die task => Sys2Proof.Machine.execLaunchViewRegister die task s
  | .timedStart q => Sys2Proof.Machine.execTimedStart q s
  | .preemptDecision die => Sys2Proof.Machine.execPreemptDecision die s
  | .preemptReevaluate die => Sys2Proof.Machine.execPreemptReevaluate die s
  | .checkpointWrite task team => Sys2Proof.Machine.execCheckpointWrite task team s
  | .teamRestore task team => Sys2Proof.Machine.execTeamRestore task team s
  | .taskComplete task => Sys2Proof.Machine.execTaskComplete task s
  | .pkgBarrierMessage msg => Sys2Proof.Machine.execPkgBarrierMessage msg s
  | .lineInvalidate write => Sys2Proof.Machine.execLineInvalidate write s
  | .hqNop n => Sys2Proof.Machine.execHqNop n s
  | .hqLaunch n => Sys2Proof.Machine.execHqLaunch n s
  | .hqTimedLaunch n => Sys2Proof.Machine.execHqTimedLaunch n s
  | .hqFence n => Sys2Proof.Machine.execHqFence n s
  | .hqInvalid n => Sys2Proof.Machine.execHqInvalid n s
  | .hqEntryComplete n entry => Sys2Proof.Machine.execHqEntryComplete n entry s
  | .coolLowflow zone => Sys2Proof.Machine.execCoolLowflow zone s
  | .coolOvertemp zone => Sys2Proof.Machine.execCoolOvertemp zone s
  | .coolDry zone => Sys2Proof.Machine.execCoolDry zone s
  | .evacDrainTimeout zone => Sys2Proof.Machine.execEvacDrainTimeout zone s
  | .evacValveClosed zone => Sys2Proof.Machine.execEvacValveClosed zone s
  | .evacPurgeDone zone => Sys2Proof.Machine.execEvacPurgeDone zone s
  | .evacVerifyDone zone => Sys2Proof.Machine.execEvacVerifyDone zone s
  | .zoneReady zone => Sys2Proof.Machine.execZoneReady zone s
  | .lost die => Sys2Proof.Machine.execLost die s
  | .resync die => Sys2Proof.Machine.execResync die s
  | .stationUp station => Sys2Proof.Machine.execStationUp station s
  | .stationDown station => Sys2Proof.Machine.execStationDown station s
  | .remoteRequestSend req => Sys2Proof.Machine.execRemoteRequestSend req s
  | .remoteResponse req => Sys2Proof.Machine.execRemoteResponse req s
  | .remoteFence req => Sys2Proof.Machine.execRemoteFence req s
  | .incomingRemoteRequest req => Sys2Proof.Machine.execIncomingRemoteRequest req s
  | .atsTranslationRequest dest va => Sys2Proof.Machine.execAtsTranslationRequest dest va s
  | .atsTranslationResponse dest vpn val => Sys2Proof.Machine.execAtsTranslationResponse dest vpn val s
  | .atsInvalidation dest vpn size => Sys2Proof.Machine.execAtsInvalidation dest vpn size s
  | .gtTimeMessage dest gt => Sys2Proof.Machine.execGtTimeMessage dest gt s
  | .podBarrierArrival group dest => Sys2Proof.Machine.execPodBarrierArrival group dest s
  | .podBarrierCompletion group => Sys2Proof.Machine.execPodBarrierCompletion group s
  | .podBarrierTimeout group => Sys2Proof.Machine.execPodBarrierTimeout group s
  | .add l g d a b => Sys2Proof.Machine.execAdd l g d a b s
  | .sub l g d a b => Sys2Proof.Machine.execSub l g d a b s
  | .and l g d a b => Sys2Proof.Machine.execAnd l g d a b s
  | .or l g d a b => Sys2Proof.Machine.execOr l g d a b s
  | .xor l g d a b => Sys2Proof.Machine.execXor l g d a b s
  | .shl l g d a b => Sys2Proof.Machine.execShl l g d a b s
  | .shr l g d a b => Sys2Proof.Machine.execShr l g d a b s
  | .sra l g d a b => Sys2Proof.Machine.execSra l g d a b s
  | .min l g d a b => Sys2Proof.Machine.execMin l g d a b s
  | .max l g d a b => Sys2Proof.Machine.execMax l g d a b s
  | .minu l g d a b => Sys2Proof.Machine.execMinu l g d a b s
  | .maxu l g d a b => Sys2Proof.Machine.execMaxu l g d a b s
  | .mov l g d a => Sys2Proof.Machine.execMov l g d a s
  | .addsh l g d a b sh => Sys2Proof.Machine.execAddsh l g d a b sh s
  | .clz l g d a => Sys2Proof.Machine.execClz l g d a s
  | .mul l g d a b => Sys2Proof.Machine.execMul l g d a b s
  | .mulh l g d a b => Sys2Proof.Machine.execMulh l g d a b s
  | .mulhu l g d a b => Sys2Proof.Machine.execMulhu l g d a b s
  | .divu l g d a b => Sys2Proof.Machine.execDivu l g d a b s
  | .remu l g d a b => Sys2Proof.Machine.execRemu l g d a b s
  | .movi l g d imm => Sys2Proof.Machine.execMovi l g d imm s
  | .addi l g d imm => Sys2Proof.Machine.execAddi l g d imm s
  | .andi l g d imm => Sys2Proof.Machine.execAndi l g d imm s
  | .ori l g d imm => Sys2Proof.Machine.execOri l g d imm s
  | .xori l g d imm => Sys2Proof.Machine.execXori l g d imm s
  | .shli l g d imm => Sys2Proof.Machine.execShli l g d imm s
  | .shri l g d imm => Sys2Proof.Machine.execShri l g d imm s
  | .srai l g d imm => Sys2Proof.Machine.execSrai l g d imm s
  | .movh l g d imm => Sys2Proof.Machine.execMovh l g d imm s
  | .lidx l g d lvl => Sys2Proof.Machine.execLidx l g d lvl s
  | .ctlrd l g d ctl => Sys2Proof.Machine.execCtlrd l g d ctl s
  | .ctlwr l g src ctl => Sys2Proof.Machine.execCtlwr l g src ctl s
  | .gtlo l g d => Sys2Proof.Machine.execGtlo l g d s
  | .gthi l g d => Sys2Proof.Machine.execGthi l g d s
  | .cmp l g pd cc a b => Sys2Proof.Machine.execCmp l g pd cc a b s
  | .cmpi l g pd cc a imm => Sys2Proof.Machine.execCmpi l g pd cc a imm s
  | .sld l g d a off => Sys2Proof.Machine.execSld l g d a off s
  | .sst l g src a off => Sys2Proof.Machine.execSst l g src a off s
  | .qmap l g reg a => Sys2Proof.Machine.execQmap l g reg a s
  | .qunmap l g reg => Sys2Proof.Machine.execQunmap l g reg s
  | .br g disp => Sys2Proof.Machine.execBr g disp s
  | .call g disp => Sys2Proof.Machine.execCall g disp s
  | .contain g disp => Sys2Proof.Machine.execContain g disp s
  | .jr g a => Sys2Proof.Machine.execJr g a s
  | .callr g a => Sys2Proof.Machine.execCallr g a s
  | .loop g a len => Sys2Proof.Machine.execLoop g a len s
  | .loopi g cnt len => Sys2Proof.Machine.execLoopi g cnt len s
  | .lbrk g => Sys2Proof.Machine.execLbrk g s
  | .lstg g lv pm => Sys2Proof.Machine.execLstg g lv pm s
  | .pand g pd pa pb na nb => Sys2Proof.Machine.execPand g pd pa pb na nb s
  | .por g pd pa pb na nb => Sys2Proof.Machine.execPor g pd pa pb na nb s
  | .pxor g pd pa pb na nb => Sys2Proof.Machine.execPxor g pd pa pb na nb s
  | .bktj g a tbl => Sys2Proof.Machine.execBktj g a tbl s
  | .waitgt g a b => Sys2Proof.Machine.execWaitgt g a b s
  | .setest g a b => Sys2Proof.Machine.execSetest g a b s
  | .setts g a b => Sys2Proof.Machine.execSetts g a b s
  | .setrm g rm => Sys2Proof.Machine.execSetrm g rm s
  | .launch g a timed => Sys2Proof.Machine.execLaunch g a timed s
  | .bar g sc id rl aq => Sys2Proof.Machine.execBar g sc id rl aq s
  | .bararv g sc id rl => Sys2Proof.Machine.execBararv g sc id rl s
  | .barwt g sc id aq => Sys2Proof.Machine.execBarwt g sc id aq s
  | .fence g sc mask => Sys2Proof.Machine.execFence g sc mask s
  | .trap g code => Sys2Proof.Machine.execTrap g code s
  | .eret g => Sys2Proof.Machine.execEret g s
  | .exit g => Sys2Proof.Machine.execExit g s
  | .containend g => Sys2Proof.Machine.execContainend g s
  | .vadd l g fmt td ta tb rs => Sys2Proof.Machine.execVadd l g fmt td ta tb rs s
  | .vsub l g fmt td ta tb rs => Sys2Proof.Machine.execVsub l g fmt td ta tb rs s
  | .vmul l g fmt td ta tb rs => Sys2Proof.Machine.execVmul l g fmt td ta tb rs s
  | .vfma l g fmt td ta tb rs => Sys2Proof.Machine.execVfma l g fmt td ta tb rs s
  | .vmin l g fmt td ta tb rs => Sys2Proof.Machine.execVmin l g fmt td ta tb rs s
  | .vmax l g fmt td ta tb rs => Sys2Proof.Machine.execVmax l g fmt td ta tb rs s
  | .vabs l g fmt td ta rs => Sys2Proof.Machine.execVabs l g fmt td ta rs s
  | .vneg l g fmt td ta rs => Sys2Proof.Machine.execVneg l g fmt td ta rs s
  | .vmov l g fmt td ta rs => Sys2Proof.Machine.execVmov l g fmt td ta rs s
  | .vand l g fmt td ta tb rs => Sys2Proof.Machine.execVand l g fmt td ta tb rs s
  | .vor l g fmt td ta tb rs => Sys2Proof.Machine.execVor l g fmt td ta tb rs s
  | .vxor l g fmt td ta tb rs => Sys2Proof.Machine.execVxor l g fmt td ta tb rs s
  | .vshl l g fmt td ta tb rs => Sys2Proof.Machine.execVshl l g fmt td ta tb rs s
  | .vshr l g fmt td ta tb rs => Sys2Proof.Machine.execVshr l g fmt td ta tb rs s
  | .vsra l g fmt td ta tb rs => Sys2Proof.Machine.execVsra l g fmt td ta tb rs s
  | .vcmpeq l g fmt td ta tb rs => Sys2Proof.Machine.execVcmpeq l g fmt td ta tb rs s
  | .vcmplt l g fmt td ta tb rs => Sys2Proof.Machine.execVcmplt l g fmt td ta tb rs s
  | .vcmple l g fmt td ta tb rs => Sys2Proof.Machine.execVcmple l g fmt td ta tb rs s
  | .vsel l g fmt td ta tb rs => Sys2Proof.Machine.execVsel l g fmt td ta tb rs s
  | .vcvt l g fmt td ta fsrc rs => Sys2Proof.Machine.execVcvt l g fmt td ta fsrc rs s
  | .vscl l g fmt td ta q rs => Sys2Proof.Machine.execVscl l g fmt td ta q rs s
  | .vclmp l g fmt td ta v rs => Sys2Proof.Machine.execVclmp l g fmt td ta v rs s
  | .vexp2 l g fmt td ta rs => Sys2Proof.Machine.execVexp2 l g fmt td ta rs s
  | .vrcp l g fmt td ta rs => Sys2Proof.Machine.execVrcp l g fmt td ta rs s
  | .vrsq l g fmt td ta rs => Sys2Proof.Machine.execVrsq l g fmt td ta rs s
  | .vrsum l g fmt td ta rs => Sys2Proof.Machine.execVrsum l g fmt td ta rs s
  | .vrmax l g fmt td ta rs => Sys2Proof.Machine.execVrmax l g fmt td ta rs s
  | .vrmin l g fmt td ta rs => Sys2Proof.Machine.execVrmin l g fmt td ta rs s
  | .vbcs l g fmt td sn rs => Sys2Proof.Machine.execVbcs l g fmt td sn rs s
  | .vext l g fmt sd ta sn rs => Sys2Proof.Machine.execVext l g fmt sd ta sn rs s
  | .vins l g fmt td sv sn rs => Sys2Proof.Machine.execVins l g fmt td sv sn rs s
  | .vperm l g fmt td ta tb rs => Sys2Proof.Machine.execVperm l g fmt td ta tb rs s
  | .vlsh l g fmt td ta sn rs => Sys2Proof.Machine.execVlsh l g fmt td ta sn rs s
  | .vpack l g fmt td ta tb rs => Sys2Proof.Machine.execVpack l g fmt td ta tb rs s
  | .vunpk l g fmt td ta half rs => Sys2Proof.Machine.execVunpk l g fmt td ta half rs s
  | .vadds l g fmt td ta sn rs => Sys2Proof.Machine.execVadds l g fmt td ta sn rs s
  | .vmuls l g fmt td ta sn rs => Sys2Proof.Machine.execVmuls l g fmt td ta sn rs s
  | .vfmas l g fmt td ta sn rs => Sys2Proof.Machine.execVfmas l g fmt td ta sn rs s
  | .tld g t v a cx cls => Sys2Proof.Machine.execTld g t v a cx cls s
  | .tst g t v a cx cls => Sys2Proof.Machine.execTst g t v a cx cls s
  | .tgath g t v a cx cls => Sys2Proof.Machine.execTgath g t v a cx cls s
  | .tscat g t v a cx cls => Sys2Proof.Machine.execTscat g t v a cx cls s
  | .pref g v a => Sys2Proof.Machine.execPref g v a s
  | .tspld g t a => Sys2Proof.Machine.execTspld g t a s
  | .tspst g t a => Sys2Proof.Machine.execTspst g t a s
  | .ared g t v a cx cls => Sys2Proof.Machine.execAred g t v a cx cls s
  | .tzero g t => Sys2Proof.Machine.execTzero g t s
  | .tmovt g t ts => Sys2Proof.Machine.execTmovt g t ts s
  | .tcopy g vd vs a cq ev => Sys2Proof.Machine.execTcopy g vd vs a cq ev s
  | .vopen g v mode sc cls => Sys2Proof.Machine.execVopen g v mode sc cls s
  | .vretire g v => Sys2Proof.Machine.execVretire g v s
  | .hfree g a => Sys2Proof.Machine.execHfree g a s
  | .waitm g d v a ord sc => Sys2Proof.Machine.execWaitm g d v a ord sc s
  | .aadd g d v a ord sc => Sys2Proof.Machine.execAadd g d v a ord sc s
  | .amin g d v a ord sc => Sys2Proof.Machine.execAmin g d v a ord sc s
  | .amax g d v a ord sc => Sys2Proof.Machine.execAmax g d v a ord sc s
  | .aminu g d v a ord sc => Sys2Proof.Machine.execAminu g d v a ord sc s
  | .amaxu g d v a ord sc => Sys2Proof.Machine.execAmaxu g d v a ord sc s
  | .aand g d v a ord sc => Sys2Proof.Machine.execAand g d v a ord sc s
  | .aor g d v a ord sc => Sys2Proof.Machine.execAor g d v a ord sc s
  | .axor g d v a ord sc => Sys2Proof.Machine.execAxor g d v a ord sc s
  | .axchg g d v a ord sc => Sys2Proof.Machine.execAxchg g d v a ord sc s
  | .acas g d v a ord sc => Sys2Proof.Machine.execAcas g d v a ord sc s
  | .aincb g d v a ord sc => Sys2Proof.Machine.execAincb g d v a ord sc s
  | .afadd g d v a ord sc => Sys2Proof.Machine.execAfadd g d v a ord sc s
  | .afaddh g d v a ord sc => Sys2Proof.Machine.execAfaddh g d v a ord sc s
  | .ald g d v a ord sc => Sys2Proof.Machine.execAld g d v a ord sc s
  | .ast g d v a ord sc => Sys2Proof.Machine.execAst g d v a ord sc s
  | .send g a t b timed => Sys2Proof.Machine.execSend g a t b timed s
  | .mm g acc t sg sw fmt q scl => Sys2Proof.Machine.execMm g acc t sg sw fmt q scl s
  | .mmcmp g acc t sg sw fmt => Sys2Proof.Machine.execMmcmp g acc t sg sw fmt s
  | .mstatTile g t sg sw fmt => Sys2Proof.Machine.execMstatTile g t sg sw fmt s
  | .mstatHandle g a sg sw fmt => Sys2Proof.Machine.execMstatHandle g a sg sw fmt s
  | .mswap g => Sys2Proof.Machine.execMswap g s
  | .lease g => Sys2Proof.Machine.execLease g s
  | .lrel g => Sys2Proof.Machine.execLrel g s
  | .acczeroFp g acc t => Sys2Proof.Machine.execAcczeroFp g acc t s
  | .acczeroInt g acc => Sys2Proof.Machine.execAcczeroInt g acc s
  | .accld g acc t sg sw fmt hi => Sys2Proof.Machine.execAccld g acc t sg sw fmt hi s
  | .accnorm g acc t sg sw => Sys2Proof.Machine.execAccnorm g acc t sg sw s
  | .accchk g acc => Sys2Proof.Machine.execAccchk g acc s
  | .accdrain g acc t sg sw fmt q x => Sys2Proof.Machine.execAccdrain g acc t sg sw fmt q x s
  | .fold g acc sg sw => Sys2Proof.Machine.execFold g acc sg sw s
  | .tadd g vd va vb fmt sg sw => Sys2Proof.Machine.execTadd g vd va vb fmt sg sw s
  | .tsub g vd va vb fmt sg sw => Sys2Proof.Machine.execTsub g vd va vb fmt sg sw s
  | .tmul g vd va vb fmt sg sw => Sys2Proof.Machine.execTmul g vd va vb fmt sg sw s
  | .tmax g vd va vb fmt sg sw => Sys2Proof.Machine.execTmax g vd va vb fmt sg sw s
  | .tred g vd va fmt sg sw => Sys2Proof.Machine.execTred g vd va fmt sg sw s
  | .tmv g vd va vb fmt sg sw => Sys2Proof.Machine.execTmv g vd va vb fmt sg sw s
  | .tmm g vd va vb fmt sg sw => Sys2Proof.Machine.execTmm g vd va vb fmt sg sw s
  | .pabm g a t rs => Sys2Proof.Machine.execPabm g a t rs s
  | .pbcast g a t rs => Sys2Proof.Machine.execPbcast g a t rs s
  | .pmac g a t rs => Sys2Proof.Machine.execPmac g a t rs s
  | .pread g a t rs => Sys2Proof.Machine.execPread g a t rs s
  | .pexit g a => Sys2Proof.Machine.execPexit g a s
  | .shpset g sg fld imm => Sys2Proof.Machine.execShpset g sg fld imm s
  | .shpcpy g sg => Sys2Proof.Machine.execShpcpy g sg s
  | .qld g q a n => Sys2Proof.Machine.execQld g q a n s
  | .qset g q a n => Sys2Proof.Machine.execQset g q a n s
  | .qzero g q => Sys2Proof.Machine.execQzero g q s
  | .vfset g v fld a => Sys2Proof.Machine.execVfset g v fld a s
  | .vfseti g v fld imm => Sys2Proof.Machine.execVfseti g v fld imm s
  | .bndset g v a b => Sys2Proof.Machine.execBndset g v a b s
  | .bndoff g v => Sys2Proof.Machine.execBndoff g v s
  | .vrow sl rd ra rb => Sys2Proof.Machine.execVrow sl rd ra rb s
  | .ximm tgt e => Sys2Proof.Machine.execXimm tgt e s
  | .messageDelivery op => Sys2Proof.Machine.execMessageDelivery op s
  | .owedResponseTimeout resp => Sys2Proof.Machine.execOwedResponseTimeout resp s
  | .atsInvalidationAnswer dest => Sys2Proof.Machine.execAtsInvalidationAnswer dest s
  | .sqctlFreeze => Sys2Proof.Machine.execSqctlFreeze s
  | .sqctlUnfreeze => Sys2Proof.Machine.execSqctlUnfreeze s
  | .sqctlStep => Sys2Proof.Machine.execSqctlStep s
  | .sqctlResume => Sys2Proof.Machine.execSqctlResume s
  | .sqctlResumeSkip => Sys2Proof.Machine.execSqctlResumeSkip s
  | .sliceWaymaskWrite => Sys2Proof.Machine.execSliceWaymaskWrite s
  | .remoteWaysWrite => Sys2Proof.Machine.execRemoteWaysWrite s
  | .xlinvGo => Sys2Proof.Machine.execXlinvGo s
  | .ringdWrite => Sys2Proof.Machine.execRingdWrite s
  | .taskcmdRelease => Sys2Proof.Machine.execTaskcmdRelease s
  | .taskcmdKill => Sys2Proof.Machine.execTaskcmdKill s
  | .hqctlWrite => Sys2Proof.Machine.execHqctlWrite s
  | .notify => Sys2Proof.Machine.execNotify s
  | .queueSlotAdmit => Sys2Proof.Machine.execQueueSlotAdmit s
  | .sensorSample => Sys2Proof.Machine.execSensorSample s
  | .zctlEvac => Sys2Proof.Machine.execZctlEvac s
  | .zctlReturn => Sys2Proof.Machine.execZctlReturn s
  | .zctlWrite => Sys2Proof.Machine.execZctlWrite s
  | .trctlWrite => Sys2Proof.Machine.execTrctlWrite s
  | .capstart => Sys2Proof.Machine.execCapstart s
  | .capstop => Sys2Proof.Machine.execCapstop s
  | .rpctlWrite => Sys2Proof.Machine.execRpctlWrite s
  | .podidWrite => Sys2Proof.Machine.execPodidWrite s
  | .destWrite => Sys2Proof.Machine.execDestWrite s
  | .destFencedClear => Sys2Proof.Machine.execDestFencedClear s
  | .gtTimeMessageSend => Sys2Proof.Machine.execGtTimeMessageSend s
  | .powerUp => Sys2Proof.Machine.execPowerUp s
  | .packageReset => Sys2Proof.Machine.execPackageReset s
  | .powerOff => Sys2Proof.Machine.execPowerOff s
  | .bootstatGo => Sys2Proof.Machine.execBootstatGo s
  | .bootstatSvnset => Sys2Proof.Machine.execBootstatSvnset s
  | .attctlGo => Sys2Proof.Machine.execAttctlGo s
  | .attestationComplete => Sys2Proof.Machine.execAttestationComplete s
  | .registerWrite => Sys2Proof.Machine.execRegisterWrite s

end Sys2Proof.Machine
end

