-- ==== Sys2Proof/Machine/Due.lean ====
section
/-! DEFINITION. Sys2Proof/Machine/Due.lean: what the package does next of itself when the agenda is empty (log 2): the first step that changes the
state, in a fixed order of its agents; and where a word stands that the next step is to fetch. -/

namespace Sys2Proof.Machine

/-- A step of an agent, and the state that it leaves. -/
abbrev Move := Instr × State

/-- The steps on an operation in flight that its kind may take. -/
def opMoves (s : State) (o : Op) : List Move :=
  match o.kind with
  | .load _ _ _ => [(.viewAccessPerform o.id, accessPerforms s o.id), (.tileWriteComplete o.id, tileCompletes s o.id)]
  | .store _ _ _ => [(.viewAccessPerform o.id, accessPerforms s o.id)]
  | .spadLoad _ _ => [(.tileWriteComplete o.id, tileCompletes s o.id)]
  | .spadStore _ _ => [(.viewAccessPerform o.id, accessPerforms s o.id)]
  | .tileSet _ _ => [(.tileWriteComplete o.id, tileCompletes s o.id)]
  | .copy _ _ _ _ _ cq _ _ _ =>
    [(.copyStart (coreOf o.seq) cq, startCopy s (coreOf o.seq) cq), (.viewAccessPerform o.id, accessPerforms s o.id),
     (.copyComplete o.id, copyCompletes s o.id)]
  | .retire _ _ _ => [(.retireComplete o.id, retireCompletes s o.id)]
  | .atomic _ _ _ _ _ _ _ _ _ => [(.atomicBankOperation o.id 0, atomicStep s o.id 0), (.variableResultArrival o.id, resultArrives s o.id)]
  | .ared _ _ _ _ left => [(.atomicBankOperation o.id (left.headD 0), atomicStep s o.id (left.headD 0))]
  | .send _ _ => [(.messageDelivery o.id, deliver s o.id)]
  | .placed _ _ _ _ _ _ _ _ _ _ _ _ _ _ => [(.placedWriteback o.id, writesBack s o.id)]
  | .array _ => [(.arrayCommandRun (quadOf o.seq) (coreOf o.seq % 4), runCommand s (quadOf o.seq) (coreOf o.seq % 4))]
  | .bank _ => [(.bankCommandRun o.seq, runBankHead s o.seq)]

/-- The steps of the memory system: walks, forwarded writes, requests. -/
def memoryMoves (s : State) : List Move :=
  (s.walks.flatMap (fun d => d.2.map (fun x => (Instr.translationWalkComplete d.1 x.1 x.2, walkCompletes s d.1 x.1 x.2))))
    ++ s.forwards.map (fun f => (.lineInvalidate f.id, lineInvalidates s f.id))
    ++ s.pod.requests.map (fun r => (.remoteRequestSend r.id, sendRequest s r.id))
    ++ s.pod.incoming.map (fun r => (.incomingRemoteRequest r.id, takeIncoming s r.id))

/-- The steps of the sequencers but for their bundles. -/
def seqMoves (s : State) : List Move :=
  s.seqs.flatMap (fun q => [(.bundleIssue q.1, takeDue s q.1), (.engineFault q.1, faultArrives s q.1), (.containedUnwind q.1, unwindStep s q.1), (.timedStart q.1, timedStart s q.1),
                            (.sendFull q.1, sendGivesUp s q.1)])

/-- The steps of the quads' leases. -/
def leaseMoves (s : State) : List Move :=
  s.ops.filterMap (fun o => if isArrayOp o then
    some (.leaseGrant (quadOf o.seq) (coreOf o.seq % 4), grantLease s (quadOf o.seq) (coreOf o.seq % 4)) else none)
    ++ s.quads.map (fun x => (.leaseBoundExpiry x.1, expireLease s x.1))

/-- The dies. -/
def dies : List Nat := List.range 16

/-- The steps of the schedulers. -/
def taskMoves (s : State) (key : Nat) (t : Task) : List Move :=
  dies.map (fun d => (.launchViewRegister d key, registerViews s d key))
    ++ (List.range t.teams.length).flatMap (fun k => [(.checkpointWrite key k, checkpointTeam s key k), (.teamRestore key k, restoreTeam s key k)])

/-- The steps of the schedulers and the barriers. -/
def schedMoves (s : State) : List Move :=
  s.barMsgs.map (fun m => (.pkgBarrierMessage m.id, deliverBarrier s m.id)) ++ s.tasks.map (fun t => (.taskComplete t.1, completeTask s t.1))
    ++ s.tasks.flatMap (fun t => taskMoves s t.1 t.2)
    ++ dies.flatMap (fun d => [(.teamPlace d, placeHead s d), (.cohortPlace d, placeCohortHead s d), (.preemptDecision d, preemptDecision s d),
                               (.preemptReevaluate d, preemptAgain s d)])

/-- A step of a host queue as a state. -/
def afterMove (s : State) (x : Host.Outcome State Fault Refusal) : State :=
  match x with
  | .next t => t
  | _ => s

/-- The steps of the host queues. -/
def hostMoves (s : State) : List Move :=
  (.queueSlotAdmit, admitQueue s) :: s.hqs.flatMap (fun x =>
    [(.hqNop x.1, afterMove s (execHqNop x.1 s)), (.hqLaunch x.1, afterMove s (execHqLaunch x.1 s)),
     (.hqTimedLaunch x.1, afterMove s (execHqTimedLaunch x.1 s)), (.hqFence x.1, afterMove s (execHqFence x.1 s)),
     (.hqInvalid x.1, afterMove s (execHqInvalid x.1 s))]
    ++ x.2.entries.map (fun e => (.hqEntryComplete x.1 e.index, completeEntry s x.1 e.index)))

/-- The changes of a slice and of the translations that end by themselves. -/
def dieMoves (s : State) : List Move :=
  s.slices.flatMap (fun x => [(.waymaskChangeComplete (x.1 / 32) (x.1 % 32), endWaymask s (x.1 / 32) (x.1 % 32)),
                              (.remoteWaysChangeComplete (x.1 / 32) (x.1 % 32), endRemoteWays s (x.1 / 32) (x.1 % 32))])
    ++ dies.map (fun d => (.xlinvComplete d, endInval s d)) ++ [(.attestationComplete, attestDone s)]

/-- The steps of the package, in the order in which they are tried. -/
def moves (s : State) : List Move :=
  memoryMoves s ++ seqMoves s ++ s.ops.flatMap (opMoves s) ++ leaseMoves s ++ schedMoves s ++ hostMoves s ++ dieMoves s

/-- DESIGN CHOICE (log 2): with nothing on the agenda, the first step that changes the state, or a cycle of the running stream. -/
def nextMove (s : State) : Instr :=
  match (moves s).find? (fun m => m.2 != s) with
  | some m => m.1
  | none => .bundleIssue s.cur

/-! Where the next step fetches. -/

/-- The slots of a bundle whose words are given, each with its number; the others are empty. -/
def bundleBytes (l : List (Nat × Nat)) : List Byte := (List.range 8).flatMap (fun n => bytesOfWord (tget 0 l n))

/-- The words that stand beside a word in its bundle (R23, R25): for an XIMM, an instruction whose immediate it extends; for a VROW, a VMOV that
takes its rows; and for an instruction of slot n that takes rows, a VROW. -/
def partners (i : Instr) (n : Nat) : List (Nat × Nat) :=
  match i with
  | .ximm tgt _ =>
    if tgt.toNat < 2 then [(tgt.toNat, encodeWord (.movi (tgt.getLsbD 0) 0 0 0))] else [(2, encodeWord (.loopi 0 1 1))]
  | .vrow sl _ _ _ => [(if sl then 4 else 3, encodeWord (.vmov sl 0 0 1 0 6))]
  | i => if rowSelector i = some 6 then [(7, encodeWord (.vrow (n == 4) 40 40 40))] else []

/-- The bundle of a word of an instruction. -/
def bundleOf (w : Nat) : List Byte :=
  match firstClass classOrder w with
  | some (cl, i) => bundleBytes (tput (partners i (slotNumber cl)) (slotNumber cl) w)
  | none => bundleBytes [(0, w)]

/-- A strand of address space 0 stands at address 0 of sequencer q, and its page is the HBM of die 0. -/
def placeCode (s : State) (q : Nat) (l : List Byte) : State :=
  let page : Page := { asid := (seqAt s q).asid, va := 0, size := 0, writable := false, target := .local_ 0 0 0 }
  let s1 := setSeq (addPage s page) q
    { seqAt s q with pc := 0, delayCount := 0, due := none, loops := [], reissue := none, barWait := none, reports := [], unwind := none, endPending := false, resumeAsked := none, faultDue := none,
                     landing := .none_, status := .running, freeze := false, issue := none }
  { s1 with mem := memPutBytes s1.mem (location 0 0) l, forwards := [], cur := q, powered := true, agenda := [.event (.bundleIssue q)] }

end Sys2Proof.Machine
end

