-- ==== Sys2Proof/Machine/Step.lean ====
section
/-! DEFINITION. Sys2Proof/Machine/Step.lean: one step of the package. -/

namespace Sys2Proof.Machine

/-- A step of the package that an input names; an instruction of a slot is none, it runs in its bundle. -/
def stepEvent (i : Instr) (s : State) : Host.Outcome State Fault Refusal :=
  if (slotOf i).isNone && i.wf then exec i s else .refused .illFormed

/-- One step: what stands first on the agenda, or what the package does of itself (log 2). A package that is off does nothing but come up (R363); its
flash is written all the same (R358). -/
def step (s : State) : Host.Outcome State Fault Refusal :=
  match s.agenda with
  | [] =>
    if !s.powered then .next s
    else if 2080 ≤ s.cur then .fault .noSuchSequencer
    else exec (nextMove s) s
  | x :: rest =>
    match x with
    | .event i => if s.powered || i == .powerUp then stepEvent i { s with agenda := rest } else .next { s with agenda := rest }
    | .write i b => if s.powered then stepEvent i { s with agenda := rest, bus := b } else .next { s with agenda := rest }
    | .image host l => .next (takeInput { s with agenda := rest } (.image host l))
    | i => .next (if s.powered then takeInput { s with agenda := rest } i else { s with agenda := rest })

/-- The state with an instruction's word where the next step fetches: a bundle with the word in its class's slot, at address 0 of the
running stream (log 5, log 12). -/
def State.withFetchWord (s : State) (nbits w : Nat) : State :=
  placeCode s (if s.cur < 2080 then s.cur else 0) (bundleOf (if nbits = 32 then w % 2 ^ 32 else 0))

end Sys2Proof.Machine
end

