-- ==== Sys2Proof/Safety.lean ====
section
/-! DEFINITION. Sys2Proof/Safety.lean: what a step may end in, the invariants of the package, and the words in which the statements speak of
an instruction's effect: entries of the pending-write queue, operations that enter the engines, and what two states share. -/

namespace Sys2Proof.Machine

/-- A step that ends in a next state. -/
def goesOn (s : State) : Bool :=
  match step s with
  | .next _ => true
  | _ => false

/-- The memory is in its canonical form. -/
def memoryOk (s : State) : Bool := Memory.wf s.mem

/-- The running stream is a sequencer of the package (R2). -/
def streamOk (s : State) : Bool := decide (s.cur < 2080)

/-- The instruction does u: exec answers u with the pops of the instruction's queue operands taken (R80). -/
def does (i : Instr) (s u : State) : Prop := exec i s = .next (takePops (readsOf (me s) i) u)

/-- The state with one entry more at the end of the running stream's pending-write queue (R53), and nothing else changed. -/
def withEntry (s : State) (p : Pend) : State :=
  { s with seqs := tput s.seqs s.cur { me s with queue := (me s).queue ++ [p] } }

/-- An entry of slot n of the running stream's coming tick: a value for a destination, with a counter of k ticks. -/
def pendOf (s : State) (n : Nat) (d : Dest) (v k : Nat) : Pend :=
  { dest := d, value := BitVec.ofNat 64 v, flags := 0, cnt := k, slot := n, payload := 0, tick := (me s).ticks, superseded := none }

/-- R19: where a scalar result of destination field d lands: its register, or with the suppress bit the latch of its slot alone. -/
def scalarTo (d : BitVec 6) : Dest := if d.toNat < 32 then .scalar (BitVec.ofNat 5 d.toNat) else .latch

/-- A scalar result x of slot n, due after k ticks. -/
def withScalar (s : State) (n : Nat) (d : BitVec 6) (x : Word) (k : Nat) : State := withEntry s (pendOf s n (scalarTo d) x.toNat k)

/-- A predicate result of slot n, due after one tick. -/
def withPred (s : State) (n : Nat) (p : BitVec 3) (x : Bool) : State := withEntry s (pendOf s n (.pred p) x.toNat 1)

/-- A row result of slot n with its flags, due after k ticks. -/
def withRow (s : State) (n : Nat) (t : BitVec 4) (r : Nat) (row : Row) (fl : Flags) (k : Nat) : State :=
  withEntry s { pendOf s n (.tileRow t (BitVec.ofNat 6 r)) 0 k with flags := fl, payload := row }

/-- A row result whose elements are given: the row that has code `res j` at each element j of the format, and the union of the flags. -/
def rowResult (i : Instr) (s : State) (n : Nat) (t : BitVec 4) (r f k : Nat) (res : Nat → Nat × Flags) : Prop :=
  ∃ row, does i s (withRow s n t r row ((List.range (fmtCount f)).foldl (fun a j => a ||| (res j).2) 0) k) ∧
    ∀ j, j < fmtCount f → elemAt f row j = (res j).1 % 2 ^ fmtWidth f

/-- The state with one operation more in flight, and nothing else changed. -/
def withOp (s : State) (o : Op) : State := { s with ops := s.ops ++ [o], nextOp := s.nextOp + 1 }

/-- A new operation of slot n of the running stream, still to perform, with a number of its own: its read and write classes, the tiles that it
writes, the handles that it pins, what it is, and the view registers that it goes through. -/
def opOf (s : State) (n : Nat) (r w : Option (BitVec 4)) (tiles : List Nat) (pins : List Word) (k : OpKind) (via : List Nat := []) : Op :=
  { id := s.nextOp, seq := s.cur, slot := n, baddr := bundleAddr s, tick := (me s).ticks, region := (me s).regions.length,
    idx := (List.range 6).map (loopIndex (me s)), asid := (me s).asid, rcls := r, wcls := w, wtiles := tiles, pins := pins, phase := .queued,
    flags := 0, result := [], kind := k, via := via }

/-- An instruction whose effect waits for the end of its tick (R69): on its own it leads to t; in a bundle the effect stands last in the list that the
end of the tick applies, over the state u that the instruction's other effects leave. -/
def actsAtEnd (i : Instr) (s u : State) (e : EndEffect) (t : State) : Prop :=
  match (me s).issue with
  | none => does i s t
  | some c => does i s (setMe u { me u with issue := some { c with ends := c.ends ++ [e] } })

/-- R81: the state in which the running stream has taken a transfer: the target, and two delay bundles to come. -/
def transferred (s : State) (tgt : Word) : State := setMe s { me s with delayTarget := tgt, delayCount := 2 }

/-- R24, R25: a signed immediate of twelve bits, extended by the bundle's XIMM where that names slot n. -/
def wordImmediate (s : State) (n : Nat) (imm : BitVec 12) : Word :=
  match extOf s n with
  | none => BitVec.ofInt 32 imm.toInt
  | some e => BitVec.ofNat 32 (e.toNat * 2 ^ 12 + imm.toNat)

/-- R21: the truth of condition code cc of two words. -/
def condition (cc : Nat) (a b : Word) : Bool :=
  if cc = 0 then decide (a = b)
  else if cc = 1 then decide (a ≠ b)
  else if cc = 2 then decide (a.toInt < b.toInt)
  else if cc = 3 then decide (b.toInt ≤ a.toInt)
  else if cc = 4 then decide (a.toNat < b.toNat)
  else decide (b.toNat ≤ a.toNat)

/-- Every byte of memory reads as before. -/
def sameMemory (s t : State) : Prop := ∀ a, memByte t.mem a = memByte s.mem a

/-- Every sequencer but one stands as before. -/
def sameOthers (q : Nat) (s t : State) : Prop := ∀ p, p ≠ q → seqAt t p = seqAt s p

/-- R53: the architectural registers of a sequencer's strand, which results reach only by landing: the scalar registers, latches and predicates, the
views, shapes, scales, marks and flags, the rounding mode, the position and the trap registers. -/
def sameRegisters (a b : Seq) : Prop :=
  b.regs = a.regs ∧ b.latches = a.latches ∧ b.preds = a.preds ∧ b.views = a.views ∧ b.shapes = a.shapes ∧ b.scales = a.scales ∧ b.busy = a.busy ∧
    b.cstat = a.cstat ∧ b.rmode = a.rmode ∧ b.pc = a.pc ∧ b.loops = a.loops ∧ b.trapVec = a.trapVec ∧ b.epc = a.epc ∧ b.edly = a.edly ∧
    b.inTrap = a.inTrap ∧ b.trapCode = a.trapCode ∧ b.est = a.est ∧ b.ts = a.ts ∧ b.regions = a.regions

/-- An operation that its engine may move now: it is in flight, its core is not frozen, and its strand has not ended. -/
def mayAct (s : State) (o : Op) : Prop := opAt s o.id = some o ∧ coreFrozen s (coreOf o.seq) = false ∧ (seqAt s o.seq).endPending = false

/-- An operation has completed with flags: it is in flight no more, its strand's CSTAT has gathered them (R106), and the strand's position, predicates
and loop stack, and every other sequencer, stand. -/
def completes (s t : State) (o : Op) (fl : Flags) : Prop :=
  opAt t o.id = none ∧ (seqAt t o.seq).cstat = (seqAt s o.seq).cstat ||| fl ∧ (seqAt t o.seq).pc = (seqAt s o.seq).pc ∧
    (seqAt t o.seq).preds = (seqAt s o.seq).preds ∧ (seqAt t o.seq).loops = (seqAt s o.seq).loops ∧ sameOthers o.seq s t

/-- R196: the engine keeps the operation and has reported it to its strand: the cause, the engine's number, the queue and the details, with the slot,
bundle and region that issued it. -/
def reported (s t : State) (o : Op) (cause engine cqn : Nat) (aux1 : Word) : Prop :=
  opAt t o.id = some { o with phase := .failed } ∧ ∃ r, (seqAt t o.seq).reports = (seqAt s o.seq).reports ++ [r] ∧ r.op = o.id ∧ r.cause = cause ∧
    r.engine = engine ∧ r.cqn = cqn ∧ r.aux1 = aux1 ∧ r.slot = o.slot ∧ r.baddr = o.baddr ∧ r.region = o.region

/-- The cells have been written in their order, the last write of a place standing, and every other byte of memory reads as before. -/
def wrote (cs : List Host.Cell) (s t : State) : Prop :=
  (∀ a, (∀ c ∈ cs, c.1 ≠ a) → memByte t.mem a = memByte s.mem a) ∧
    ∀ x y a b, cs = x ++ (a, b) :: y → (∀ c ∈ y, c.1 ≠ a) → memByte t.mem a = b

/-- R79: the running stream's mappings, if any, are to rings of its core: no register of it is mapped to the die's event queue. -/
def ringsOnly (s : State) : Prop := ∀ hi m, mapOf (me s) hi = some m → m.ring < 64

end Sys2Proof.Machine
end

