-- ==== Sys2Proof/Certificates/Slice0/Obligations.lean ====
section
/-! DEFINITION. Sys2Proof/Certificates/Slice0/Obligations.lean: the statements about the package, each with the rules of spec/ that it rests on. -/

open Sys2Proof Sys2Proof.Machine

/-- For every constructor that stands in a slot, with every operand at every value that the encoding admits: the instruction has one word, it
fits in 32 bits, and the decoder of its class gives the instruction back. In the other direction, a word that the decoder of a class accepts
belongs to that class, is well-formed, and is the word of its instruction, so that no two words of a class have one meaning. A step of the
package has no word. (R13, R26, R27, R28, R29, R30, R31, R38) -/
def Obligations.DecodeOfEncode : Prop :=
  (∀ (i : Instr) (cl : SlotClass), slotOf i = some cl → i.wf = true →
    encode i = [encodeWord i] ∧ encodeWord i < 2 ^ 32 ∧ decodeSlot cl (encodeWord i) = some i) ∧
  (∀ (i : Instr) (cl : SlotClass) (w : Nat), decodeSlot cl w = some i → slotOf i = some cl ∧ i.wf = true ∧ encode i = [w]) ∧
  ∀ i : Instr, slotOf i = none → encode i = []

/-- One word of each class as the spec's examples write it, as the bytes of a bundle in their order, decodes to its instruction: ADD s3, s1, s2
(0x0010_C108) in slot 0; LOOPI 5, 3 (0x0090_0503) in slot 2; VFMA.bf16 t2, t0, t1, i1 (0x0042_2011) in slot 3; TLD t0, v2, s6, c3
(0x0010_21A6) in slot 5; MM.bf16 acc2, t0, g0 (0x0014_0080) in slot 6; and BNDSET v3, s6, s7 (0x00C3_1870) in slot 7. The other slots are
empty. (R13, R26, R27, R28, R29, R30, R31, R12) -/
def Obligations.WordsOfTheSpec : Prop :=
  decode ([0x08, 0xC1, 0x10, 0x00] ++ [0, 0, 0, 0] ++ [0x03, 0x05, 0x90, 0x00] ++ [0x11, 0x20, 0x42, 0x00] ++ [0, 0, 0, 0] ++ [0xA6, 0x21, 0x10, 0x00] ++
      [0x80, 0x00, 0x14, 0x00] ++ [0x70, 0x18, 0xC3, 0x00]) =
    .ok [some (.add false 0 3 1 2), none, some (.loopi 0 5 3), some (.vfma false 0 2 2 0 1 1), none, some (.tld 0 0 2 6 true 3),
      some (.mm 0 2 0 0 false 2 0 false), some (.bndset 0 3 6 7)]

/-- For every eight slots, each empty or a well-formed instruction of its slot's class, paired as R23 and R25 ask: the 32 bytes of their words,
empty slots as zero words, little-endian, decode to them. For every list of bytes, the decoder refuses with a slot's number exactly when
that slot offends (a nonzero word that is no instruction of its slot's class, or a slot paired wrongly) and no lower-numbered slot does, so
that every bundle with an offending slot is refused, and by its lowest. A VROW word that is itself illegal names no V slot, so that the V
slot of rs 0x6 offends as well and is the lower of the two; that is the model's choice (log 128). (R12, R13, R14, R23, R25, R40) -/
def Obligations.BundleOfEightSlots : Prop :=
  (∀ b : Slots, b.length = 8 → (∀ n < 8, ∀ i, slotAt b n = some i → slotOf i = some (slotClass n) ∧ i.wf = true) →
    (∀ n < 8, pairingOk b n = true) →
    decode (b.flatMap (fun x => bytesOfWord (match x with
      | some i => encodeWord i
      | none => 0))) = .ok b) ∧
  ∀ (l : List Byte) (n : Nat),
    let ws := wordsOfBytes 8 l
    let b := (decodeWords 0 ws).1
    let bad := fun (k : Nat) => k < 8 ∧ ((∃ w, ws[k]? = some w ∧ w ≠ 0 ∧ decodeSlot (slotClass k) w = none) ∨ pairingOk b k = false)
    decode l = .error n ↔ bad n ∧ ∀ k, bad k → n ≤ k

/-- For every powered state: with a well-formed step of the package first on the agenda, the step is that instruction's meaning at the state
without it; with a register write first, the same with the write on the register bus; with an empty agenda and a stream of the package, the
step is the meaning of the package's own next move. A step whose head is a slot instruction is refused: slot instructions run in their
bundle. The order of the agenda is the model's (log 2). (R2, R9, R363) -/
def Obligations.StepRunsItsInstruction : Prop :=
  ∀ (s : State) (i : Instr) (b : BusWrite) (rest : List Input),
    (s.powered = true → slotOf i = none → i.wf = true →
      (s.agenda = .event i :: rest → step s = exec i { s with agenda := rest }) ∧
      (s.agenda = .write i b :: rest → step s = exec i { s with agenda := rest, bus := b })) ∧
    (s.powered = true → s.agenda = [] → s.cur < 2080 → step s = exec (nextMove s) s) ∧
    (s.powered = false → s.agenda = [] → step s = .next s) ∧
    (s.powered = true → (slotOf i).isSome = true → s.agenda = .event i :: rest → step s = .refused .illFormed)

/-- For every state with a bundle in issue: slot n with an instruction in the mask leads to the state that the instruction's meaning answers
there; an empty slot, or one outside the mask, changes nothing; the slots run from 0 to 7, each in the state that the one before has left.
Every slot instruction's meaning answers a next state, and inside a bundle it answers with its effect and pops, or with its slot fault kept
for the end of the tick. (R13, R14, R15, R69, R193) -/
def Obligations.SlotsRunTheirInstruction : Prop :=
  (∀ (s t : State) (c : IssueCtx) (n : Nat) (i : Instr), (me s).issue = some c → slotAt c.slots n = some i → (slotOf i).isSome = true →
    (c.mask.getLsbD n = true → exec i s = .next t → runSlotAt s n = t) ∧ (c.mask.getLsbD n = false → runSlotAt s n = s)) ∧
  (∀ (s : State) (c : IssueCtx) (n : Nat), (me s).issue = some c → slotAt c.slots n = none → runSlotAt s n = s) ∧
  (∀ s : State, runSlots s = runSlotAt (runSlotAt (runSlotAt (runSlotAt (runSlotAt (runSlotAt (runSlotAt (runSlotAt s 0) 1) 2) 3) 4) 5) 6) 7) ∧
  ∀ (i : Instr) (s : State) (c : IssueCtx), (slotOf i).isSome = true → (me s).issue = some c →
    (guardTrue (me s).preds (guardOf i) = false → exec i s = .next s) ∧
    (guardTrue (me s).preds (guardOf i) = true → (∃ u, does i s u) ∨
      ∃ f : SlotFault, exec i s = .next (setMe s { me s with issue := some { c with undone := c.undone ++ [f] } }))

/-- For every constructor, with every operand, and every state, the meaning answers a next state: no instruction of the spec stops the machine;
what the spec calls a fault is an exception that the next state has taken. A step of a state whose stream is one of the package's 2,080
sequencers therefore answers a next state, or refuses an agenda head that is no step of the package. (R2, R67, R186, R193, R297) -/
def Obligations.EveryInstructionAnswers : Prop :=
  (∀ (i : Instr) (s : State), ∃ t, exec i s = .next t) ∧
  ∀ s : State, s.cur < 2080 → (∃ t, step s = .next t) ∨ step s = .refused .illFormed

/-- After reset every sequencer is idle with predicate p0 set alone, an empty loop stack and queue, rounding mode 0, and shape planes of 64
rows, 128 columns and depth 128 with SGN 3; a view register is closed with stamp 0xFFFF_FFFF; every tile row and memory byte reads zero; a
quad's array has no holder and both stationary planes empty in format BF16; slices have half their ways as scratch; ring 0 is invalid; the
scheduler's costs, host queue size, pod time-out and a die's boot registers are as their rules say. That a byte of memory which nothing has
written reads zero, in the second tier too, is the model's choice (log 3); R358 has the HBM scrubbed. Other values that the spec leaves open
(log 1) are not stated. (R47, R74, R114, R118, R155, R209, R258, R270, R298, R324, R358, R360) -/
def Obligations.ResetState : Prop :=
  let s := State.reset
  (∀ q, (seqAt s q).status = .idle ∧ (seqAt s q).preds = 1 ∧ (seqAt s q).loops = [] ∧ (seqAt s q).queue = [] ∧ (seqAt s q).rmode = 0 ∧
    (seqAt s q).stage = none ∧ (seqAt s q).inTrap = false ∧ (seqAt s q).regions = [] ∧
    (∀ g < 4, (shapeAt (seqAt s q) g).active = { mrows := 64, ncols := 128, kdep := 128, row0 := 0, col0 := 0, sgn := 3, amode := 0, trb := 0 } ∧
      (shapeAt (seqAt s q) g).shadow = (shapeAt (seqAt s q) g).active) ∧
    ∀ v < 16, (viewAt (seqAt s q) v).isOpen = false ∧ (viewAt (seqAt s q) v).retiring = false ∧ (viewAt (seqAt s q) v).ben = false ∧
      (viewAt (seqAt s q) v).stamp = 0xFFFFFFFF) ∧
  (∀ k t r, tileRow (coreAt s k) t r = 0) ∧ (∀ a, memByte s.mem a = 0) ∧
  (∀ k, (quadAt s k).holder = none ∧ (quadAt s k).array.active = { rows := [], fmt := 2 } ∧ (quadAt s k).array.shadow = { rows := [], fmt := 2 }) ∧
  (∀ d k, (sliceAt s d k).scratch = 0x00FF ∧ (sliceAt s d k).remoteWays = 0) ∧ (∀ k n, (tget Ring.reset (coreAt s k).rings n).valid = false) ∧
  (∀ d, (dieAt s d).killCost = 400 ∧ (dieAt s d).ckptCost = 100 ∧ (dieAt s d).pperiod = 100000 ∧ (dieAt s d).go = false ∧ (dieAt s d).fail = false) ∧
  (∀ n, (hqAt s n).valid = false ∧ (hqAt s n).err = false ∧ (hqAt s n).logn = 4 ∧ (hqAt s n).done = 0) ∧ s.pod.rtimeout = 50000 ∧ s.pod.linkEn = false

/-- For every state whose memory is in canonical form (locations strictly rising, no zero byte listed) and every step, of whatever agent, that
answers a next state: the next state's memory is in canonical form. Equal memories are therefore equal data along every run, from every such
state. No rule of the spec says this: the list of bytes and its canonical form are the model's own representation (log 3); R257 and R317
place the bytes that it holds. (R257, R317, 13_die_memory) -/
def Obligations.StepKeepsMemoryCanonical : Prop :=
  ∀ s t : State, memoryOk s = true → step s = .next t → memoryOk t = true

/-- For every state and every step that answers a next state, whatever agent takes it and whatever stands on the agenda: the security version
that the fuses hold is at least what it was. Only SVNSET raises it (R360); a reset, a power-off and a power-up leave it. (R358, R360) -/
def Obligations.StepNeverLowersTheFuses : Prop :=
  ∀ s t : State, step s = .next t → s.fuse ≤ t.fuse

/-- The reset state lists no byte, so that its memory is in canonical form, and its running stream is a sequencer of the package (R2). That an
unlisted byte reads zero, in the second tier too, is the model's choice (log 3); R358 has the HBM scrubbed. (R2, R358) -/
def Obligations.ResetMemoryCanonical : Prop :=
  memoryOk State.reset = true ∧ streamOk State.reset = true ∧ State.reset.mem = []

/-- For every state in which the instruction is ready, and every lane, guard, destination field and operands: ADD, SUB, AND, OR, XOR, SHL, SHR,
SRA, MIN, MAX, MINU, MAXU, MOV, ADDSH and CLZ complete, with x as R70's table gives it as the one new entry of the pending-write queue, for
the destination field d with its suppress bit, due after one tick, and nothing else changed but the pops. A shift takes its count from
B[7:0]. The example word of R70 decodes to ADD s3, s1, s2. (R70) -/
def Obligations.ScalarArithmeticResults : Prop :=
  (∀ (s : State) (l : Bool) (g : BitVec 4) (d a b : BitVec 6),
    let A := src s a
    let B := src s b
    let n := B.toNat % 256
    let w := fun (x : Word) => withScalar s (sSlot l) d x 1
    (slotReady (.add l g d a b) s = true → does (.add l g d a b) s (w (BitVec.ofNat 32 (A.toNat + B.toNat)))) ∧
    (slotReady (.sub l g d a b) s = true → does (.sub l g d a b) s (w (BitVec.ofInt 32 (A.toInt - B.toInt)))) ∧
    (slotReady (.and l g d a b) s = true → does (.and l g d a b) s (w (A &&& B))) ∧
    (slotReady (.or l g d a b) s = true → does (.or l g d a b) s (w (A ||| B))) ∧
    (slotReady (.xor l g d a b) s = true → does (.xor l g d a b) s (w (A ^^^ B))) ∧
    (slotReady (.shl l g d a b) s = true →
      does (.shl l g d a b) s (w (if n < 32 then BitVec.ofNat 32 (A.toNat * 2 ^ n) else 0))) ∧
    (slotReady (.shr l g d a b) s = true →
      does (.shr l g d a b) s (w (if n < 32 then BitVec.ofNat 32 (A.toNat / 2 ^ n) else 0))) ∧
    (slotReady (.sra l g d a b) s = true →
      does (.sra l g d a b) s (w (if n < 32 then BitVec.ofInt 32 (A.toInt / 2 ^ n) else if A.toInt < 0 then 0xFFFFFFFF else 0))) ∧
    (slotReady (.min l g d a b) s = true → does (.min l g d a b) s (w (if A.toInt ≤ B.toInt then A else B))) ∧
    (slotReady (.max l g d a b) s = true → does (.max l g d a b) s (w (if A.toInt ≤ B.toInt then B else A))) ∧
    (slotReady (.minu l g d a b) s = true → does (.minu l g d a b) s (w (if A.toNat ≤ B.toNat then A else B))) ∧
    (slotReady (.maxu l g d a b) s = true → does (.maxu l g d a b) s (w (if A.toNat ≤ B.toNat then B else A))) ∧
    (slotReady (.mov l g d a) s = true → does (.mov l g d a) s (w A)) ∧
    (∀ sh : BitVec 2, slotReady (.addsh l g d a b sh) s = true →
      does (.addsh l g d a b sh) s (w (BitVec.ofNat 32 (A.toNat + B.toNat * 2 ^ sh.toNat)))) ∧
    (slotReady (.clz l g d a) s = true →
      does (.clz l g d a) s (w (BitVec.ofNat 32 (if A = 0 then 32 else 31 - A.toNat.log2))))) ∧
  decodeSlot (.s false) 0x0010C108 = some (.add false 0 3 1 2)

/-- For every state in which the instruction is ready: the multiplies complete with the low word, the signed high word and the unsigned high
word of the product, due after 3 ticks; DIVU and REMU with the quotient and remainder, due after 18 ticks, and with 0xFFFF_FFFF and the
dividend for a divisor of zero, which raises no fault. Until the result lands, every source field still reads what it read before. (R71,
R55, R56) -/
def Obligations.MultiplyDivideResults : Prop :=
  (∀ (s : State) (l : Bool) (g : BitVec 4) (d a b : BitVec 6),
    let A := src s a
    let B := src s b
    let w := fun (x : Word) (k : Nat) => withScalar s (sSlot l) d x k
    (slotReady (.mul l g d a b) s = true → does (.mul l g d a b) s (w (BitVec.ofNat 32 (A.toNat * B.toNat)) 3)) ∧
    (slotReady (.mulh l g d a b) s = true → does (.mulh l g d a b) s (w (BitVec.ofInt 32 (A.toInt * B.toInt / 2 ^ 32)) 3)) ∧
    (slotReady (.mulhu l g d a b) s = true → does (.mulhu l g d a b) s (w (BitVec.ofNat 32 (A.toNat * B.toNat / 2 ^ 32)) 3)) ∧
    (slotReady (.divu l g d a b) s = true →
      does (.divu l g d a b) s (w (if B = 0 then 0xFFFFFFFF else BitVec.ofNat 32 (A.toNat / B.toNat)) 18)) ∧
    (slotReady (.remu l g d a b) s = true →
      does (.remu l g d a b) s (w (if B = 0 then A else BitVec.ofNat 32 (A.toNat - B.toNat * (A.toNat / B.toNat))) 18))) ∧
  ∀ (s : State) (n : Nat) (d f : BitVec 6) (x : Word) (k : Nat), src (withScalar s n d x k) f = src s f

/-- For every state in which the instruction is ready: MOVI, ADDI, ANDI, ORI, XORI, SHLI, SHRI, SRAI and MOVH complete with the result of R72
over the register named by d[4:0], whatever the suppress bit says, due after one tick. The immediate of MOVI, ADDI, ANDI, ORI and XORI is
signed and extended by the XIMM of the bundle that names the slot; a shift count is below 32. (R72, R20, R24, R25) -/
def Obligations.ImmediateFormResults : Prop :=
  ∀ (s : State) (l : Bool) (g : BitVec 4) (d : BitVec 6) (imm : BitVec 12),
    let D := src s (BitVec.ofNat 6 (d.toNat % 32))
    let I := wordImmediate s (sSlot l) imm
    let w := fun (x : Word) => withScalar s (sSlot l) d x 1
    (slotReady (.movi l g d imm) s = true → does (.movi l g d imm) s (w I)) ∧
    (slotReady (.addi l g d imm) s = true → does (.addi l g d imm) s (w (BitVec.ofNat 32 (D.toNat + I.toNat)))) ∧
    (slotReady (.andi l g d imm) s = true → does (.andi l g d imm) s (w (D &&& I))) ∧
    (slotReady (.ori l g d imm) s = true → does (.ori l g d imm) s (w (D ||| I))) ∧
    (slotReady (.xori l g d imm) s = true → does (.xori l g d imm) s (w (D ^^^ I))) ∧
    (slotReady (.movh l g d imm) s = true → does (.movh l g d imm) s (w (BitVec.ofNat 32 (imm.toNat * 2 ^ 20 + D.toNat % 2 ^ 20)))) ∧
    (imm.toNat < 32 →
      (slotReady (.shli l g d imm) s = true → does (.shli l g d imm) s (w (BitVec.ofNat 32 (D.toNat * 2 ^ imm.toNat)))) ∧
      (slotReady (.shri l g d imm) s = true → does (.shri l g d imm) s (w (BitVec.ofNat 32 (D.toNat / 2 ^ imm.toNat)))) ∧
      (slotReady (.srai l g d imm) s = true → does (.srai l g d imm) s (w (BitVec.ofInt 32 (D.toInt / 2 ^ imm.toNat))))) ∧
    (32 ≤ imm.toNat → (Instr.shli l g d imm).wf = false ∧ (Instr.shri l g d imm).wf = false ∧ (Instr.srai l g d imm).wf = false)

/-- For every state in which the instruction is ready: LIDX completes with the INDEX of its level, zero at or beyond the depth; GTLO with
GT[31:0] of the die, copying GT[63:32] into CGTSNAP at issue; GTHI with CGTSNAP; CTLRD with the control register. Each result is due after
one tick. CSTAT, CRMODE, the team and the task, the estimate, the time stamp, CGTSNAP, the four software-trap registers (CTRAPVEC, CEPC,
CEDLY and CECODE), the depth, CPLACE, CSTAGE and CQMAP read as the tables give them, with every reserved bit 0; a steward's QUAD and CORE
read 0, the model's choice (log 127). (R73, R74, R75, R76, R49, R297) -/
def Obligations.TimeLoopAndControlReads : Prop :=
  (∀ (s : State) (l : Bool) (g : BitVec 4) (d : BitVec 6) (k : BitVec 12),
    let t := gtAt s (myDie s)
    (slotReady (.lidx l g d k) s = true → does (.lidx l g d k) s (withScalar s (sSlot l) d (match (me s).loops[k.toNat]? with
        | some x => x.index
        | none => 0) 1)) ∧
    (slotReady (.gtlo l g d) s = true → does (.gtlo l g d) s
      (withScalar (setMe s { me s with gtSnap := BitVec.ofNat 32 (t.toNat / 2 ^ 32) }) (sSlot l) d (BitVec.ofNat 32 t.toNat) 1)) ∧
    (slotReady (.gthi l g d) s = true → does (.gthi l g d) s (withScalar s (sSlot l) d (me s).gtSnap 1)) ∧
    (slotReady (.ctlrd l g d k) s = true → does (.ctlrd l g d k) s (withScalar s (sSlot l) d (ctlRead s.cur (me s) k.toNat) 1))) ∧
  ∀ (q : Nat) (sq : Seq),
    (ctlRead q sq 0x000).toNat = sq.cstat.toNat ∧ (ctlRead q sq 0x001).toNat = sq.rmode.toNat ∧ ctlRead q sq 0x003 = sq.team ∧
    ctlRead q sq 0x004 = sq.task ∧ (ctlRead q sq 0x008).toNat = sq.est.toNat % 2 ^ 32 ∧ (ctlRead q sq 0x009).toNat = sq.est.toNat / 2 ^ 32 ∧
    (ctlRead q sq 0x00A).toNat = sq.ts.toNat % 2 ^ 32 ∧ (ctlRead q sq 0x00B).toNat = sq.ts.toNat / 2 ^ 32 ∧ ctlRead q sq 0x00C = sq.gtSnap ∧
    ctlRead q sq 0x010 = sq.trapVec ∧ ctlRead q sq 0x011 = sq.epc ∧ ctlRead q sq 0x012 = sq.edly ∧
    ctlRead q sq 0x014 = BitVec.ofNat 32 sq.loops.length ∧
    ((ctlRead q sq 0x013).getLsbD 8 = sq.inTrap ∧ (ctlRead q sq 0x013).toNat % 2 ^ 8 = sq.trapCode.toNat ∧ (ctlRead q sq 0x013).toNat < 2 ^ 9) ∧
    (let w := (ctlRead q sq 0x002).toNat
     dieOf q < 16 → w < 2 ^ 15 ∧ w / 2 ^ 11 = dieOf q ∧ w / 2 ^ 4 % 2 = q % 2 ∧ w / 2 ^ 3 % 2 = 0 ∧ w % 2 ^ 3 = sq.strand.toNat ∧
       w / 2 ^ 7 % 2 ^ 4 = (if isSteward (coreOf q) then 0 else coreOf q / 4 % 16) ∧
       w / 2 ^ 5 % 2 ^ 2 = (if isSteward (coreOf q) then 0 else coreOf q % 4)) ∧
    (sq.stage = none → ctlRead q sq 0x015 = 0) ∧
    (∀ b, sq.stage = some b → b.level < 8 → let w := ctlRead q sq 0x015
      w.toNat < 2 ^ 9 ∧ w.getLsbD 8 = b.pending ∧ w.getLsbD 7 = true ∧ w.toNat / 2 ^ 4 % 2 ^ 3 = b.level ∧ w.toNat % 2 ^ 4 = b.mask.toNat) ∧
    ∀ hi : Bool,
      let field := (ctlRead q sq 0x016).toNat / (if hi then 2 ^ 24 else 2 ^ 8) % 2 ^ 8
      (ctlRead q sq 0x016).toNat / 2 ^ 16 % 2 ^ 8 = 0 ∧ (ctlRead q sq 0x016).toNat % 2 ^ 8 = 0 ∧
      (mapOf sq hi = none → field = 0) ∧
      ∀ x, mapOf sq hi = some x → field / 2 ^ 7 = 1 ∧ (x.ring < 64 → field % 2 ^ 7 = x.ring) ∧ (64 ≤ x.ring → field % 2 ^ 7 = 2 ^ 6)

/-- For every strand and every word v: CSTAT reads back v[4:0], CRMODE v[1:0], the words of CEST and CTS v whole, CTRAPVEC and CEPC v with bits
[4:0] zero, and CEDLY v without its reserved bits (a delay count of 3, which the table of CEDLY does not have, leaves it as it was). A write
of CPLACE, CTEAM, CTASK, CGTSNAP, CECODE, CLDEPTH, CSTAGE or CQMAP changes nothing, and each word of CEST and CTS leaves the other word.
(R74, R76, R9) -/
def Obligations.ControlRegisterWrites : Prop :=
  ∀ (q : Nat) (sq : Seq) (v : Word),
    ctlRead q (ctlWrite sq 0x000 v) 0x000 = v &&& 0x1F ∧ ctlRead q (ctlWrite sq 0x001 v) 0x001 = v &&& 3 ∧
    ctlRead q (ctlWrite sq 0x008 v) 0x008 = v ∧ ctlRead q (ctlWrite sq 0x008 v) 0x009 = ctlRead q sq 0x009 ∧
    ctlRead q (ctlWrite sq 0x009 v) 0x009 = v ∧ ctlRead q (ctlWrite sq 0x009 v) 0x008 = ctlRead q sq 0x008 ∧
    ctlRead q (ctlWrite sq 0x00A v) 0x00A = v ∧ ctlRead q (ctlWrite sq 0x00A v) 0x00B = ctlRead q sq 0x00B ∧
    ctlRead q (ctlWrite sq 0x00B v) 0x00B = v ∧ ctlRead q (ctlWrite sq 0x00B v) 0x00A = ctlRead q sq 0x00A ∧
    ctlRead q (ctlWrite sq 0x010 v) 0x010 = v &&& 0xFFFFFFE0 ∧ ctlRead q (ctlWrite sq 0x011 v) 0x011 = v &&& 0xFFFFFFE0 ∧
    ctlRead q (ctlWrite sq 0x012 v) 0x012 = (if v.toNat % 4 = 3 then ctlRead q sq 0x012 else v &&& 0xFFFFFFE3) ∧
    ∀ n ∈ [0x002, 0x003, 0x004, 0x00C, 0x013, 0x014, 0x015, 0x016], ctlWrite sq n v = sq

/-- For every state in which the instruction is ready: CMP and CMPI complete with the truth of the condition (eq, ne, lt and ge signed, ltu and
geu unsigned) of the operands, the immediate of CMPI being signed and extendable; PAND, POR and PXOR with the two predicates, each
optionally negated, p0 reading true. The predicate result is due after one tick. (R77, R21, R25, R15) -/
def Obligations.CompareAndPredicateResults : Prop :=
  ∀ (s : State) (l : Bool) (g : BitVec 4) (pd cc : BitVec 3) (a b : BitVec 6) (imm : BitVec 8) (pa pb : BitVec 3) (na nb : Bool),
    let I : Word := (match extOf s (sSlot l) with
      | none => BitVec.ofInt 32 imm.toInt
      | some e => BitVec.ofInt 32 ((BitVec.ofNat 28 (e.toNat * 2 ^ 8 + imm.toNat)).toInt))
    let p := fun (k : BitVec 3) => k == 0 || (me s).preds.getLsbD k.toNat
    let P := p pa != na
    let Q := p pb != nb
    (cc.toNat < 6 → slotReady (.cmp l g pd cc a b) s = true →
      does (.cmp l g pd cc a b) s (withPred s (sSlot l) pd (condition cc.toNat (src s a) (src s b)))) ∧
    (cc.toNat < 6 → slotReady (.cmpi l g pd cc a imm) s = true →
      does (.cmpi l g pd cc a imm) s (withPred s (sSlot l) pd (condition cc.toNat (src s a) I))) ∧
    (6 ≤ cc.toNat → (Instr.cmp l g pd cc a b).wf = false ∧ (Instr.cmpi l g pd cc a imm).wf = false) ∧
    (slotReady (.pand g pd pa pb na nb) s = true → does (.pand g pd pa pb na nb) s (withPred s 2 pd (P && Q))) ∧
    (slotReady (.por g pd pa pb na nb) s = true → does (.por g pd pa pb na nb) s (withPred s 2 pd (P || Q))) ∧
    (slotReady (.pxor g pd pa pb na nb) s = true → does (.pxor g pd pa pb na nb) s (withPred s 2 pd (P != Q)))

/-- For every state in which the instruction is ready: SLD completes with the scratchpad word at Src(a) + 4 x Imm(off), due after 6 ticks. SST
writes that word, CTLWR its control register, SETEST and SETTS the 64-bit value Src(b):Src(a), SETRM the rounding mode, QMAP the mapping of
s31 or s30 (ending an earlier one), QUNMAP its end: on its own at once, in a bundle as an effect of the end of the tick. (R78, R76, R87,
R69, R79) -/
def Obligations.ScratchpadAndRegisterWritesAtTickEnd : Prop :=
  ∀ (s : State) (l : Bool) (g : BitVec 4) (d a b : BitVec 6) (off : BitVec 8) (k : BitVec 12) (rm : BitVec 2) (hi : Bool),
    let I : Word := (match extOf s (sSlot l) with
      | none => BitVec.ofInt 32 off.toInt
      | some e => BitVec.ofInt 32 ((BitVec.ofNat 28 (e.toNat * 2 ^ 8 + off.toNat)).toInt))
    let at_ := (BitVec.ofNat 32 ((src s a).toNat + 4 * I.toNat)).toNat
    let pair := BitVec.ofNat 64 ((src s b).toNat * 2 ^ 32 + (src s a).toNat)
    let ring := if src s a = 0xFFFFFFFF then 64 else (src s a).toNat
    (slotReady (.sld l g d a off) s = true → does (.sld l g d a off) s (withScalar s (sSlot l) d (spad32 (myCore s) at_) 6)) ∧
    (slotReady (.sst l g d a off) s = true →
      actsAtEnd (.sst l g d a off) s s (.spadStore at_ (src s d)) (setMyCore s (putSpad32 (myCore s) at_ (src s d)))) ∧
    (slotReady (.ctlwr l g d k) s = true →
      actsAtEnd (.ctlwr l g d k) s s (.ctlWrite k.toNat (src s d)) (setMe s (ctlWrite (me s) k.toNat (src s d)))) ∧
    (slotReady (.setest g a b) s = true → actsAtEnd (.setest g a b) s s (.setEst pair) (setMe s { me s with est := pair })) ∧
    (slotReady (.setts g a b) s = true → actsAtEnd (.setts g a b) s s (.setTs pair) (setMe s { me s with ts := pair })) ∧
    (slotReady (.setrm g rm) s = true → actsAtEnd (.setrm g rm) s s (.setRm rm) (setMe s { me s with rmode := rm })) ∧
    (slotReady (.qmap l g hi a) s = true → actsAtEnd (.qmap l g hi a) s s (.queueMap hi (src s a))
      (setMe (endMap s s.cur hi) (setMap (me (endMap s s.cur hi)) hi (some { ring := ring, held := none })))) ∧
    (slotReady (.qunmap l g hi) s = true → actsAtEnd (.qunmap l g hi) s s (.queueUnmap hi) (endMap s s.cur hi))

/-- For every state in which the instruction is ready: BR and CALL go to the address of their bundle plus 32 x disp, JR and CALLR to Src(a),
BKTJ to the target of the smallest capacity that holds Src(a), or to the overflow target when none does. The delay state becomes the target
with a count of 2. CALL and CALLR also write their bundle's address plus 96 through s29, due after one tick. (R81, R85, R66, R55) -/
def Obligations.TakenTransfers : Prop :=
  ∀ (s : State) (g : BitVec 4) (disp : BitVec 20) (a : BitVec 6) (tbl : BitVec 4),
    let at_ := bundleAddr s
    let near := BitVec.ofInt 32 (at_.toInt + 32 * disp.toInt)
    let linked := withScalar s 2 29 (BitVec.ofNat 32 (at_.toNat + 96)) 1
    let table := bucketOf s tbl.toNat
    let go := fun (u : State) (i : Instr) (tgt : Word) => actsAtEnd i s u (.transfer tgt) (transferred u tgt)
    (slotReady (.br g disp) s = true → go s (.br g disp) near) ∧
    (slotReady (.call g disp) s = true → go linked (.call g disp) near) ∧
    (slotReady (.jr g a) s = true → go s (.jr g a) (src s a)) ∧
    (slotReady (.callr g a) s = true → go linked (.callr g a) (src s a)) ∧
    (slotReady (.bktj g a tbl) s = true → ∃ tgt, go s (.bktj g a tbl) tgt ∧
      ((∃ (j : Nat) (c : Word × Word), table.caps[j]? = some c ∧ (src s a).toNat ≤ c.1.toNat ∧ tgt = c.2 ∧
          ∀ m < j, ∀ e : Word × Word, table.caps[m]? = some e → e.1.toNat < (src s a).toNat) ∨
        ((∀ c ∈ table.caps, c.1.toNat < (src s a).toNat) ∧ tgt = table.overflow)))

/-- For every state in which the instruction is ready: LOOP and LOOPI with a count other than zero push a level with START the next bundle, LEN,
COUNT and INDEX 0, and a binding that waits for that level comes into force; a body of at most 32 bundles is captured at the push, and a
fetch in it gives the captured words whatever memory holds (R51; that the body is taken at the push is the model's reading, log 21); with a
count of zero they push nothing and the next position is the bundle after the body, which is no loop boundary (the model's reading, log 22).
LBRK pops the innermost level and transfers to the bundle after its body. LSTG replaces the binding: none for a mask of zero, else its level
and mask, pending when the level equals the depth; predicates that the old binding owes are set first (log 20). A count from an immediate is
unsigned and extendable. (R82, R83, R84, R49, R51, R52) -/
def Obligations.LoopsAndBindings : Prop :=
  (∀ (s t : State) (start a : Word) (len : BitVec 12) (count index : Word) (k : Nat) (ws : List Nat), len.toNat ≤ 32 → k < len.toNat →
    a = start + BitVec.ofNat 32 (32 * k) → fetchWords s a = some ws →
    (me t).loops = [{ start := start, len := len, count := count, index := index, body := capturedBody s start len.toNat }] →
      fetchWords t a = some ws) ∧
  ∀ (s : State) (g : BitVec 4) (a : BitVec 6) (len cnt : BitVec 12) (short : BitVec 8) (lv : BitVec 3) (pm : BitVec 4) (lev : LoopLevel),
    let start := bundleAddr s + 32
    let body := fun (k : BitVec 12) => capturedBody s start k.toNat
    let pushed := fun (n : Word) (k : BitVec 12) =>
      let sq := { me s with loops := (me s).loops ++ [{ start := start, len := k, count := n, index := 0, body := body k }] }
      setMe s (if ∃ b, (me s).stage = some b ∧ b.level = (me s).loops.length ∧ b.pending = true then
        { sq with stage := (me s).stage.map (fun b => { b with pending := false }), stageDue := true } else sq)
    let passed := fun (k : BitVec 12) => start + BitVec.ofNat 32 (32 * k.toNat)
    let opens := fun (i : Instr) (n : Word) (k : BitVec 12) =>
      if n = 0 then actsAtEnd i s s (.loopSkip (passed k)) (setMe s { me s with pc := passed k })
      else actsAtEnd i s s (.loopPush start k n (body k)) (pushed n k)
    let count : Word := (match extOf s 2 with
      | none => BitVec.ofNat 32 cnt.toNat
      | some e => BitVec.ofNat 32 (e.toNat * 2 ^ 12 + cnt.toNat))
    let after := lev.start + BitVec.ofNat 32 (32 * lev.len.toNat)
    let at_ := settle (me s)
    (slotReady (.loop g a len) s = true → opens (.loop g a len) (src s a) len) ∧
    (slotReady (.loopi g cnt short) s = true → opens (.loopi g cnt short) count (BitVec.ofNat 12 short.toNat)) ∧
    ((me s).loops.getLast? = some lev → slotReady (.lbrk g) s = true → ∃ u, does (.lbrk g) s u ∧
      ((me s).issue = none → u = transferred (setMe s (popLevel (me s))) after ∧ (me u).loops = (me s).loops.dropLast) ∧
      (∀ c, (me s).issue = some c → u = setMe s { me s with issue := some { c with ends := c.ends ++ [.loopPop, .transfer after] } })) ∧
    (slotReady (.lstg g lv pm) s = true → actsAtEnd (.lstg g lv pm) s s (.stageBind lv.toNat pm)
      (setMe s { at_ with preds := (if at_.stageDue then stagePreds at_ else at_.preds), stage := (if pm = 0 then none else some { level := lv.toNat, mask := pm, pending := decide (lv.toNat = at_.loops.length) }),
                          stageDue := false }))

/-- For every state in which TRAP is ready on its own: with CTRAPVEC nonzero and CECODE.INTRAP 0, CEPC and CEDLY receive the position after what
the last bundle left due, CECODE the mark and the code, and the next bundle is the one at CTRAPVEC with the delay count cleared; every other
part of the strand's state stands. Otherwise the strand stops with the cause SW_TRAP (0x40), the code in AUX1, a full completion mask, and
SLOT 2 (the model's choice, log 145). In a bundle, the trap waits for the end of the tick. (R88, R48, R66) -/
def Obligations.SoftwareTrapEntersItsHandler : Prop :=
  ∀ (s : State) (g : BitVec 4) (code : BitVec 8),
    let at_ := settle (me s)
    slotReady (.trap g code) s = true →
      (((me s).issue = none → at_.trapVec ≠ 0 → at_.inTrap = false → does (.trap g code) s (setMe s
          { at_ with epc := at_.pc, edly := (at_.delayTarget &&& 0xFFFFFFE0) ||| BitVec.ofNat 32 at_.delayCount, inTrap := true,
                     trapCode := code, pc := at_.trapVec, delayCount := 0 })) ∧
      ((me s).issue = none → (at_.trapVec = 0 ∨ at_.inTrap = true) → does (.trap g code) s (stopStrand (setMe s at_) s.cur
          { kind := 3, cause := 0x40, slot := 2, engine := 0, cqn := 0, aux0 := 0, aux1 := BitVec.ofNat 32 code.toNat, cmask := 0xFF,
            baddr := (me s).pc, idx := [], op := none })) ∧
      ∀ c, (me s).issue = some c → does (.trap g code) s (setMe s { me s with issue := some { c with ends := c.ends ++ [.trapTo code] } }))

/-- For every state in which ERET is ready: on its own the next position becomes CEPC, with the target and count of CEDLY as the delay state and
no delay bundles of its own, and INTRAP is cleared; what the bundle before left due (a level that pops, R50) is done, and the loop stack
stands; in a bundle this is an effect of the end of the tick. Its issue traps are ERET_STRAY when INTRAP is 0 and DELAY_CONFLICT when the
delay count is nonzero. (R89) -/
def Obligations.ReturnFromSoftwareTrap : Prop :=
  ∀ (s : State) (g : BitVec 4),
    (slotReady (.eret g) s = true → actsAtEnd (.eret g) s s (.trapReturn (me s).epc (me s).edly)
      (setMe s { settle (me s) with
        pc := (me s).epc, delayTarget := (me s).edly &&& 0xFFFFFFE0, delayCount := (me s).edly.toNat % 4, inTrap := false,
        due := none })) ∧
    (∀ addr, ((trapsOf s addr (.eret g)).any (fun t => t.cause == 0x0E) = !(me s).inTrap) ∧
      ((trapsOf s addr (.eret g)).any (fun t => t.cause == 3) = decide ((me s).delayCount ≠ 0)))

/-- For every state in which the instruction is ready: WAITGT has no effect but its pops, and forgets the time that it waited for; FENCE marks
the place between the operations issued before it and those issued after; CONTAIN pushes a region with its handler's address and the
snapshot of its issue; CONTAINEND pops the innermost region, and what was opened and retired inside it counts in the next one outward. EXIT
in a bundle waits for the end of the tick, and then, while an operation of the strand is in flight (one of EXIT's own bundle), its queue,
views and mappings stand; on its own a running strand with no report and no event owed ends: its queue has landed, its mappings are gone,
and no view is open; with no view open before, the sequencer is idle, unless every other strand of its task has ended: then it stays until
the task's event is posted (R295; that it keeps its sequencer meanwhile is log 52). (R86, R90, R172, R198, R199, R60, R167, R295) -/
def Obligations.RegionsFencesAndStrandEnd : Prop :=
  ∀ (s : State) (g : BitVec 4) (a b : BitVec 6) (sc : BitVec 3) (mask : BitVec 16) (disp : BitVec 20),
    (slotReady (.waitgt g a b) s = true → does (.waitgt g a b) s (setMe s { me s with waitGt := none })) ∧
    (slotReady (.fence g sc mask) s = true → does (.fence g sc mask) s
      (setMe s { me s with fences := (me s).fences ++ [{ at_ := s.nextOp, scope := sc, mask := mask }] })) ∧
    (slotReady (.contain g disp) s = true → does (.contain g disp) s (setMe s { me s with regions :=
      { handler := BitVec.ofInt 32 ((bundleAddr s).toInt + 32 * disp.toInt), tick := (me s).ticks, regs := (me s).regs, preds := (me s).preds,
        loops := (me s).loops, stage := (me s).stage, opened := [], retired := [], mapped30 := (me s).map30.isSome,
        mapped31 := (me s).map31.isSome } :: (me s).regions })) ∧
    (∀ (r o : Region) (rest : List Region), slotReady (.containend g) s = true →
      ((me s).regions = [r] → does (.containend g) s (setMe s { me s with regions := [] })) ∧
      ((me s).regions = r :: o :: rest → does (.containend g) s
        (setMe s { me s with regions := { o with opened := o.opened ++ r.opened, retired := o.retired ++ r.retired } :: rest }))) ∧
    (∀ c, slotReady (.exit g) s = true → (me s).issue = some c →
      does (.exit g) s (setMe s { me s with issue := some { c with ends := c.ends ++ [.strandEnd] } })) ∧
    (slotReady (.exit g) s = true → (me s).issue = none → (me s).status = .running → (me s).reports = [] →
      (me s).faultDue = none → (∀ p ∈ (me s).queue, p.cnt ≤ 32) → ∃ u, does (.exit g) s u ∧ (me u).queue = [] ∧
        (me u).map30 = none ∧ (me u).map31 = none ∧ (bankQueue s s.cur = [] → (me u).bank = none) ∧ (∀ v < 16, (viewAt (me u) v).isOpen = false) ∧
        ((∀ v < 16, (viewAt (me (landQueue s s.cur)) v).isOpen = false) → (me u).status = (if lastStrand s s.cur then .running else .idle))) ∧
    ∀ q, (seqAt s q).status = .running → (seqAt s q).reports = [] → (∃ o ∈ s.ops, o.seq = q ∧ o.phase ≠ .drained) →
      let t := seqAt (endStrand s q) q
      t.endPending = true ∧ t.status = .running ∧ t.queue = (seqAt s q).queue ∧ t.views = (seqAt s q).views ∧ t.map30 = (seqAt s q).map30 ∧
        t.map31 = (seqAt s q).map31

/-- For every state in which LAUNCH is ready and its handle and record pass the checks: at a die whose firmware has not written GO, and whose
boot has not failed, the launch waits with the die (R358; that it is kept and not lost is log 39); at a die that accepts launches, with a
record that R284 does not refuse, the task stands under its address space and identifier with the record, the issuing die as home, the
strand's start when timed and 0 otherwise, parked exactly when it has edge entries, with as many teams as the record says, none of them
placed or ended; the task counts in launch order. With a refused record no task is added, and a LAUNCH_FAIL event (kind 7) with the cause
goes to the die's queue; its TEAM, STRAND and QUAD fields are 0, which for QUAD is the model's choice (log 40). (R283, R281, R284, R294,
R358) -/
def Obligations.LaunchOfATask : Prop :=
  ∀ (s : State) (g : BitVec 4) (a : BitVec 6) (timed : Bool), slotReady (.launch g a timed) s = true → checkLaunch s (src s a) = .ok →
    let l := launchBytes s (src s a)
    let r := recordOf l
    let key := taskKey (me s).asid r.taskId
    let accepts := (dieAt s (myDie s)).go = true ∨ (dieAt s (myDie s)).boot = .failed
    (¬accepts → does (.launch g a timed) s (setDie (passRecord s (src s a)) (myDie s) { dieAt s (myDie s) with asked := (dieAt s (myDie s)).asked ++
      [{ asid := (me s).asid, record := l, start := (if timed then (me s).ts else 0), host := none }] })) ∧
    (∀ c, accepts → refusal s (myDie s) (me s).asid l = some c → does (.launch g a timed) s
      (postEvent (passRecord s (src s a)) (myDie s) (eventRecord 7 (BitVec.ofNat 64 c) r.taskId 0 0 0))) ∧
    (accepts → refusal s (myDie s) (me s).asid l = none → ∃ u t, does (.launch g a timed) s u ∧ tfind u.tasks key = some t ∧ t.info = r ∧
      t.home = myDie s ∧ t.asid = (me s).asid ∧ t.start = (if timed then (me s).ts else 0) ∧ (t.parked = true ↔ r.edges ≠ []) ∧
      t.killed = false ∧ t.tokens = r.tokens ∧ t.teams.length = r.teams ∧ (∀ x ∈ t.teams, x.phase = .waiting) ∧ t.order = s.launches ∧
      u.launches = s.launches + 1 ∧ ∀ k, k ≠ key → tfind u.tasks k = tfind s.tasks k)

/-- For every state in which the instruction is ready: BARARV records the strand's arrival with the barrier's generation, and counts it: at
core, quad and die scope the last participant's arrival sets the count to 0 and the generation one higher, an earlier one counts up. At
package and pod scope an arrival at the task's home die counts there, and elsewhere leaves as a message to it; the last one of the package
completes the phase on every die, at the home die at once and at the others by a message, and at pod scope, with a group entry, it is an
arrival at the group's master (R357), under the number 8 times the group entry and the barrier's identifier (the model's choice, log 83).
BAR does the same, and leaves the wait that holds the next bundle as an effect of the end of the tick. BARWT clears the strand's arrival
mark. A strand of no task, which is the steward's, takes part alone in a barrier wider than its core (R297; the model's reading, log 37).
(R308, R309, R310, R128, R233, R328, R357) -/
def Obligations.BarrierArrivalsAndWaits : Prop :=
  ∀ (s : State) (g : BitVec 4) (sc id : BitVec 3) (rl aq : Bool),
    let k := barrierOf s s.cur sc.toNat id.toNat
    let b := barrierAt s k
    let arrived := setBarrier (setMe s (setArm (me s) sc.toNat id.toNat { arr := true, gen := b.gen })) k
      (if participants s s.cur sc.toNat ≤ b.count + 1 then { count := 0, gen := b.gen + 1 } else { count := b.count + 1, gen := b.gen })
    let arrives := fun (u : State) => (slotReady (.bararv g sc id rl) s = true → does (.bararv g sc id rl) s u) ∧
      (slotReady (.bar g sc id rl aq) s = true →
        actsAtEnd (.bar g sc id rl aq) s u (.barrierWait k (bundleAddr s)) (setMe u { me u with barWait := some (k, bundleAddr s) }))
    (sc.toNat ≤ 2 ∨ taskAt s s.cur = none → arrives arrived) ∧
    (∀ t, 3 ≤ sc.toNat → taskAt s s.cur = some t →
      let key := taskOf (me s)
      let h := barrierKey key sc.toNat homeInst id.toNat
      let marked := setMe s (setArm (me s) sc.toNat id.toNat { arr := true, gen := b.gen })
      let home := barrierAt marked h
      let all := t.info.teams * (t.info.spt + 1)
      let whole := setBarrier marked h { home with count := 0 }
      (t.home ≠ myDie s → arrives { marked with
        barMsgs := s.barMsgs ++ [{ id := s.nextOp, key := h, die := t.home, arrival := true, src := myDie s }], nextOp := s.nextOp + 1 }) ∧
      (t.home = myDie s → home.count + 1 < all → arrives (setBarrier marked h { home with count := home.count + 1 })) ∧
      (t.home = myDie s → all ≤ home.count + 1 →
        (sc ≠ 4 ∨ groupOf s t.info.taskId = none → arrives (completeEverywhere whole key sc.toNat id.toNat t.home)) ∧
        ∀ n x, sc = 4 → groupOf s t.info.taskId = some (n, x) →
          (x.master = s.pod.id.toNat → arrives (groupArrival whole n x.master id.toNat)) ∧
          (x.master ≠ s.pod.id.toNat → arrives { whole with pod := { s.pod with outbox := s.pod.outbox ++ [.arrival x.master (n * 8 + id.toNat)] } }))) ∧
    (∀ (key home : Nat), home < 16 →
      let u := completeEverywhere s key sc.toNat id.toNat home
      let at_ := fun (d : Nat) => barrierKey key sc.toNat d id.toNat
      barrierAt u (at_ home) = { count := 0, gen := (barrierAt s (at_ home)).gen + 1 } ∧ (∀ n, n ≠ at_ home → barrierAt u n = barrierAt s n) ∧
        (∃ l, u.barMsgs = s.barMsgs ++ l ∧ l.map (fun m => (m.key, m.die, m.arrival, m.src)) =
          ((List.range 16).filter (fun d => d != home)).map (fun d => (at_ d, d, false, home))) ∧ u.seqs = s.seqs ∧ u.mem = s.mem ∧ u.ops = s.ops) ∧
    (slotReady (.barwt g sc id aq) s = true → does (.barwt g sc id aq) s
      (setMe s (setArm (me s) sc.toNat id.toNat { arr := false, gen := (armOf (me s) sc.toNat id.toNat).gen })))

/-- For every state in which the instruction is ready, every lane, format, tiles and row selector: the operation completes with one result row
for the destination row, due after its ticks, whose element j is, for floating formats, the exact result of the elements of the source rows
rounded once in the strand's mode, and for integer formats the exact result clamped; VMIN and VMAX choose; the flags are the union of the
elements'. VADDS, VMULS and VFMAS take the code of the scalar register 16 + tb for every element. (R129, R132, R134, R150, R55) -/
def Obligations.RowArithmeticResults : Prop :=
  ∀ (s : State) (l : Bool) (g fmt td ta tb rs : BitVec 4), fmt.toNat < 13 →
    let f := fmt.toNat
    let r := vRows s rs
    let A := elemAt f (tileRow (myCore s) ta.toNat r.2.1)
    let B := elemAt f (tileRow (myCore s) tb.toNat r.2.2)
    let C := elemAt f (tileRow (myCore s) td.toNat r.1)
    let S := (src s (BitVec.ofNat 6 (16 + tb.toNat))).toNat % 2 ^ fmtWidth f
    let m := (me s).rmode
    let V := decodeFloat f
    let N := decodeInt f
    let w := fun (i : Instr) (k : Nat) (res : Nat → Nat × Flags) => slotReady i s = true → rowResult i s (if l then 4 else 3) td r.1 f k res
    let sum := fun (x y : Nat) => if isFloat f then roundTo f m (addVal m (V x) (V y)) else satInt f (N x + N y)
    let mul := fun (x y : Nat) => if isFloat f then roundTo f m (mulVal (V x) (V y)) else satInt f (N x * N y)
    let fma := fun (x y z : Nat) => if isFloat f then roundTo f m (fmaVal m (V x) (V y) (V z)) else satInt f (N x * N y + N z)
    let pick := fun (big : Bool) (x y : Nat) => if isFloat f then pickFloat f big x y else (if decide (N x < N y) = big then (y, 0) else (x, 0))
    w (.vadd l g fmt td ta tb rs) 2 (fun j => sum (A j) (B j)) ∧
    w (.vsub l g fmt td ta tb rs) 2 (fun j => if isFloat f then roundTo f m (addVal m (V (A j)) (negVal (V (B j)))) else satInt f (N (A j) - N (B j))) ∧
    w (.vmul l g fmt td ta tb rs) 4 (fun j => mul (A j) (B j)) ∧
    w (.vfma l g fmt td ta tb rs) 4 (fun j => fma (A j) (B j) (C j)) ∧
    w (.vmin l g fmt td ta tb rs) 2 (fun j => pick false (A j) (B j)) ∧
    w (.vmax l g fmt td ta tb rs) 2 (fun j => pick true (A j) (B j)) ∧
    w (.vadds l g fmt td ta tb rs) 2 (fun j => sum (A j) S) ∧
    w (.vmuls l g fmt td ta tb rs) 4 (fun j => mul (A j) S) ∧
    w (.vfmas l g fmt td ta tb rs) 4 (fun j => fma (A j) S (C j))

/-- For every state in which the instruction is ready: the element of the result is, for VABS and VNEG, the code with its sign bit cleared or
inverted (floating) or the clamped value (integer); for VMOV the code; for VAND, VOR and VXOR the bitwise result of the codes; for the
shifts the code shifted by the other row's code, a count of the width or more giving zeros, or copies of the top bit for VSRA; for the
compares the all-ones or all-zero code, a NaN making every condition false, with NV as R137 says; for VSEL the element of ta where the old
destination's element is not zero, else that of tb. All take 2 ticks. (R129, R135, R136, R137, R138) -/
def Obligations.RowLogicAndCompareResults : Prop :=
  ∀ (s : State) (l : Bool) (g fmt td ta tb rs : BitVec 4), fmt.toNat < 13 →
    let f := fmt.toNat
    let r := vRows s rs
    let W := fmtWidth f
    let A := elemAt f (tileRow (myCore s) ta.toNat r.2.1)
    let B := elemAt f (tileRow (myCore s) tb.toNat r.2.2)
    let C := elemAt f (tileRow (myCore s) td.toNat r.1)
    let V := decodeFloat f
    let N := decodeInt f
    let w := fun (i : Instr) (res : Nat → Nat × Flags) => slotReady i s = true → rowResult i s (if l then 4 else 3) td r.1 f 2 res
    let top := fun (x : Nat) => decide (2 ^ (W - 1) ≤ x)
    let mask := fun (b : Bool) => if b then 2 ^ W - 1 else 0
    let nans := fun (j : Nat) => isNan (V (A j)) || isNan (V (B j))
    let sig := fun (j : Nat) => isSig (V (A j)) || isSig (V (B j))
    let cmp := fun (any : Bool) (fl : Val → Val → Bool) (it : Int → Int → Bool) (j : Nat) =>
      if isFloat f then (mask (!nans j && fl (V (A j)) (V (B j))), if nans j && (any || sig j) then flagNV else 0)
      else (mask (it (N (A j)) (N (B j))), 0)
    w (.vabs l g fmt td ta rs) (fun j => if isFloat f then ((if top (A j) then A j - 2 ^ (W - 1) else A j), 0) else satInt f ((N (A j)).natAbs : Int)) ∧
    w (.vneg l g fmt td ta rs) (fun j =>
      if isFloat f then ((if top (A j) then A j - 2 ^ (W - 1) else A j + 2 ^ (W - 1)), 0) else satInt f (-(N (A j)))) ∧
    w (.vmov l g fmt td ta rs) (fun j => (A j, 0)) ∧
    w (.vand l g fmt td ta tb rs) (fun j => (A j &&& B j, 0)) ∧
    w (.vor l g fmt td ta tb rs) (fun j => (A j ||| B j, 0)) ∧
    w (.vxor l g fmt td ta tb rs) (fun j => (A j ^^^ B j, 0)) ∧
    w (.vshl l g fmt td ta tb rs) (fun j => (if B j < W then A j * 2 ^ B j else 0, 0)) ∧
    w (.vshr l g fmt td ta tb rs) (fun j => (if B j < W then A j / 2 ^ B j else 0, 0)) ∧
    w (.vsra l g fmt td ta tb rs) (fun j => (A j / 2 ^ min (B j) W + (if top (A j) then 2 ^ W - 2 ^ (W - min (B j) W) else 0), 0)) ∧
    w (.vcmpeq l g fmt td ta tb rs) (cmp false eqVal (fun x y => decide (x = y))) ∧
    w (.vcmplt l g fmt td ta tb rs) (cmp true ltVal (fun x y => decide (x < y))) ∧
    w (.vcmple l g fmt td ta tb rs) (cmp true (fun x y => ltVal x y || eqVal x y) (fun x y => decide (x ≤ y))) ∧
    w (.vsel l g fmt td ta tb rs) (fun j => (if C j ≠ 0 then A j else B j, 0))

/-- For every state in which the instruction is ready: VCVT converts the low elements and fills with the zero code, after 3 ticks; VSCL
multiplies by the block scale that the element's place along K selects and rounds once, after 4; VCLMP limits to the view's bounds rounded
into the format, or copies with BEN 0, after 2; VEXP2, VRCP and VRSQ give their function of each element, after 8; VRSUM, VRMAX and VRMIN
put the reduction of the row into every element, after 6. A conversion to the source's own format gives back every code but a signalling
NaN. The special functions give the table of R142 for NaNs, zeros, infinities and negatives; VEXP2 of an integer is that power of two
rounded once; VRCP and VRSQ of a finite operand round once a value that is exact, or odd in a last place below 95 kept bits and within one
unit of it of 1/x or 1/sqrt(x). The value of VEXP2 at a finite operand that is no integer is only named here. An integer VRSUM is the exact
sum clamped once; a floating one is the pairwise tree of FP32 sums over the elements, each node rounded once, its root rounded into the
format, with the flags of every node. (R97, R100, R107, R112, R113, R129, R139, R140, R141, R142, R143) -/
def Obligations.RowConversionResults : Prop :=
  (∀ (f c : Nat) (m : RMode), f < 13 → c < 2 ^ fmtWidth f → decodeFloat f c ≠ .nan true → convert f f m c = (c, 0)) ∧
  (∀ (f : Nat) (m : RMode) (a : Row), f < 13 → isFloat f = false →
    rowSum f m a = satInt f (((List.range (fmtCount f)).map (fun k => decodeInt f (elemAt f a k))).sum)) ∧
  (∀ (f : Nat) (m : RMode) (a : Row), f < 13 → isFloat f = true →
    ∃ N : Nat → Nat → Nat × Flags, (∀ j, N 0 j = ((convert f 0 m (elemAt f a j)).1, 0)) ∧
      (∀ k j, let sum := roundTo 0 m (addVal m (decodeFloat 0 (N k (2 * j)).1) (decodeFloat 0 (N k (2 * j + 1)).1))
        N (k + 1) j = (sum.1, (N k (2 * j)).2 ||| (N k (2 * j + 1)).2 ||| sum.2)) ∧
      let root := N (Nat.log2 (fmtCount f)) 0
      let out := roundTo f m (decodeFloat 0 root.1)
      let nv := (List.range (fmtCount f)).any (fun j => isSig (decodeFloat f (elemAt f a j)))
      rowSum f m a = (out.1, out.2 ||| root.2 ||| if nv then flagNV else 0)) ∧
  (∀ (f c : Nat) (m : RMode), f < 13 → isFloat f = true →
    (∀ sig, decodeFloat f c = .nan sig → exp2Code f m c = nanResult f sig ∧ recipCode f m c = nanResult f sig ∧ rsqrtCode f m c = nanResult f sig) ∧
    (∀ neg e, decodeFloat f c = .fin neg 0 e → exp2Code f m c = roundTo f m (.fin false 1 0) ∧
      recipCode f m c = ((infOut f neg).1, flagDZ) ∧ rsqrtCode f m c = ((infOut f neg).1, flagDZ)) ∧
    (decodeFloat f c = .inf false → exp2Code f m c = infOut f false ∧ recipCode f m c = (0, 0) ∧ rsqrtCode f m c = (0, 0)) ∧
    (decodeFloat f c = .inf true → exp2Code f m c = (0, 0) ∧ recipCode f m c = (signBit f true, 0) ∧ rsqrtCode f m c = nanResult f true) ∧
    (∀ neg k e n, decodeFloat f c = .fin neg k e → k * 2 ^ e.toNat = n * 2 ^ (-e).toNat → n < 1024 →
      exp2Code f m c = roundTo f m (.fin false 1 (if neg then -(n : Int) else n))) ∧
    (∀ neg k e, decodeFloat f c = .fin neg k e → 0 < k →
      (∃ M j : Nat, recipCode f m c = roundTo f m (.fin neg M (-(j : Int) - e)) ∧
        (M * k = 2 ^ j ∨ (M % 2 = 1 ∧ 2 ^ 95 ≤ M ∧ (M - 1) * k < 2 ^ j ∧ 2 ^ j < (M + 1) * k))) ∧
      (neg = true → rsqrtCode f m c = nanResult f true) ∧
      (neg = false → ∃ M j : Nat, rsqrtCode f m c = roundTo f m (.fin false M (-(j : Int) - e / 2)) ∧
        (M * M * (k * 2 ^ (e % 2).toNat) = 2 ^ (2 * j) ∨ (M % 2 = 1 ∧ 2 ^ 95 ≤ M ∧
          (M - 1) * (M - 1) * (k * 2 ^ (e % 2).toNat) < 2 ^ (2 * j) ∧ 2 ^ (2 * j) < (M + 1) * (M + 1) * (k * 2 ^ (e % 2).toNat)))))) ∧
  ∀ (s : State) (l : Bool) (g fmt td ta v fs rs : BitVec 4) (q : BitVec 3), fmt.toNat < 13 → fs.toNat < 13 →
    let f := fmt.toNat
    let e := fs.toNat
    let r := vRows s rs
    let row := tileRow (myCore s) ta.toNat r.2.1
    let A := elemAt f row
    let m := (me s).rmode
    let w := fun (i : Instr) (k : Nat) (res : Nat → Nat × Flags) => slotReady i s = true → rowResult i s (if l then 4 else 3) td r.1 f k res
    let x := viewAt (me s) v.toNat
    let lo := if isFloat f then convert 0 f 3 x.blo.toNat else ((satInt f x.blo.toInt).1, 0)
    let hi := if isFloat f then convert 0 f 2 x.bhi.toNat else ((satInt f x.bhi.toInt).1, 0)
    let scale := fun (j : Nat) => decodeFloat 2 (vget 0 (scaleAt (me s) q.toNat) ((r.2.1 * fmtCount f + j) / 128 % 64)).toNat
    w (.vcvt l g fmt td ta fs rs) 3 (fun j => if j < fmtCount e then convert e f m (elemAt e row j) else (0, 0)) ∧
    w (.vscl l g fmt td ta q rs) 4 (fun j => roundTo f m (mulVal (decodeFloat f (A j)) (scale j))) ∧
    w (.vclmp l g fmt td ta v rs) 2 (fun j =>
      if x.ben = false then (A j, 0)
      else ((elemClamp f lo.1 hi.1 x.blo x.bhi (A j)).1, (elemClamp f lo.1 hi.1 x.blo x.bhi (A j)).2 ||| lo.2 ||| hi.2)) ∧
    w (.vexp2 l g fmt td ta rs) 8 (fun j => exp2Code f m (A j)) ∧
    w (.vrcp l g fmt td ta rs) 8 (fun j => recipCode f m (A j)) ∧
    w (.vrsq l g fmt td ta rs) 8 (fun j => rsqrtCode f m (A j)) ∧
    w (.vrsum l g fmt td ta rs) 6 (fun _ => rowSum f m row) ∧
    w (.vrmax l g fmt td ta rs) 6 (fun _ => rowPick f true row) ∧
    w (.vrmin l g fmt td ta rs) 6 (fun _ => rowPick f false row)

/-- For every state in which the instruction is ready: VBCS puts the scalar's code into every element; VINS replaces the element that the scalar
selects; VEXT writes the selected element, sign-extended for INT formats, to register 16 + td after 3 ticks; VPERM gathers within its
groups; VLSH moves elements by a signed count; VPACK joins the low halves of two rows and VUNPK takes one half. No flag is raised. (R144,
R145, R146, R147, R148, R149) -/
def Obligations.RowMovementResults : Prop :=
  ∀ (s : State) (l : Bool) (g fmt td ta tb rs : BitVec 4) (half : Bool), fmt.toNat < 13 →
    let f := fmt.toNat
    let n := fmtCount f
    let r := vRows s rs
    let A := elemAt f (tileRow (myCore s) ta.toNat r.2.1)
    let B := elemAt f (tileRow (myCore s) tb.toNat r.2.2)
    let C := elemAt f (tileRow (myCore s) td.toNat r.1)
    let S := fun (x : BitVec 4) => src s (BitVec.ofNat 6 (16 + x.toNat))
    let code := fun (x : BitVec 4) => (S x).toNat % 2 ^ fmtWidth f
    let w := fun (i : Instr) (k : Nat) (res : Nat → Nat) =>
      slotReady i s = true → rowResult i s (if l then 4 else 3) td r.1 f k (fun j => (res j, 0))
    let G := min n (2 ^ fmtWidth f)
    let E := A ((S tb).toNat % n)
    w (.vbcs l g fmt td tb rs) 2 (fun _ => code tb) ∧
    w (.vins l g fmt td ta tb rs) 2 (fun j => if j = (S tb).toNat % n then code ta else C j) ∧
    (slotReady (.vext l g fmt td ta tb rs) s = true → does (.vext l g fmt td ta tb rs) s (withScalar s (if l then 4 else 3) (BitVec.ofNat 6 (16 + td.toNat))
      (if isInt f then BitVec.ofInt 32 (if 2 ^ (fmtWidth f - 1) ≤ E then (E : Int) - (2 ^ fmtWidth f : Nat) else E) else BitVec.ofNat 32 E) 3)) ∧
    w (.vperm l g fmt td ta tb rs) 3 (fun j => A (j - j % G + B j % G)) ∧
    w (.vlsh l g fmt td ta tb rs) 3 (fun j =>
      if 0 ≤ (j : Int) - (S tb).toInt ∧ (j : Int) - (S tb).toInt < n then A ((j : Int) - (S tb).toInt).toNat else 0) ∧
    w (.vpack l g fmt td ta tb rs) 3 (fun j => if j < n / 2 then A j else B (j - n / 2)) ∧
    w (.vunpk l g fmt td ta half rs) 3 (fun j => if j < n / 2 then A (j + if half then n / 2 else 0) else 0)

/-- For every state in which the instruction is ready: each of these but VROW and XIMM completes with one entry of slot 7: SHPSET the shadow
field with its unsigned immediate, which no XIMM extends in a bundle that decodes (R25), SHPCPY the shadow plane with the active one, QSET
one scale with the low half of Src(a), QZERO all zeros, VFSET and VFSETI a view field, due after one tick, and QLD scales 0 to n with the
halfwords of the scratchpad, due after 4. VROW and XIMM complete with no effect of their own but VROW's pops (R133; outside a bundle the
guard of its V slot counts as true, log 99). An entry that lands writes its field, and no other of the shape register. (R23, R25, R117,
R119, R120, R121, R133, R159) -/
def Obligations.ConfigurationResults : Prop :=
  (∀ (s : State) (g v fld : BitVec 4) (sg : BitVec 2) (imm : BitVec 14) (q : BitVec 3) (a n : BitVec 6) (k : BitVec 12) (sl : Bool) (rd ra rb : BitVec 6)
      (t : BitVec 3) (e : BitVec 20),
    let w := fun (i : Instr) (d : Dest) (x k : Nat) (row : Row) => slotReady i s = true → does i s (withEntry s { pendOf s 7 d x k with payload := row })
    (extOf s 7 = none → w (.shpset g sg fld imm) (.shapeField sg fld) imm.toNat 1 0) ∧
    w (.shpcpy g sg) (.shapePlane sg) 0 1 (planeRow (shapeAt (me s) sg.toNat).active) ∧
    w (.qset g q a n) (.scale q n) ((src s a).toNat % 2 ^ 16) 1 0 ∧
    w (.qzero g q) (.scalesZero q) 0 1 0 ∧
    w (.vfset g v fld a) (.viewField v fld) (src s a).toNat 1 0 ∧
    (extOf s 7 = none → w (.vfseti g v fld k) (.viewField v fld) (BitVec.ofInt 32 k.toInt).toNat 1 0) ∧
    (slotReady (.qld g q a n) s = true → ∃ row, does (.qld g q a n) s (withEntry s { pendOf s 7 (.scales q n) 0 4 with payload := row }) ∧
      ∀ j, j ≤ n.toNat → row.toNat / 2 ^ (16 * j) % 2 ^ 16 =
        (spad8 (myCore s) ((src s a).toNat + 2 * j)).toNat + 256 * (spad8 (myCore s) ((src s a).toNat + 2 * j + 1)).toNat) ∧
    (slotReady (.vrow sl rd ra rb) s = true → does (.vrow sl rd ra rb) s s) ∧
    (slotReady (.ximm t e) s = true → does (.ximm t e) s s)) ∧
  ∀ (sq : Seq) (p : Pend) (sg : BitVec 2) (fld : BitVec 4), p.dest = .shapeField sg fld → p.flags = 0 → sq.regions = [] →
    landSeq sq p = putShape sq sg.toNat
      { shapeAt sq sg.toNat with shadow := putPlaneField (shapeAt sq sg.toNat).shadow fld.toNat (p.value.toNat % 2 ^ 32) }

/-- For every state in which the instruction is ready: BNDSET completes with an entry, due after one tick, that lands BLO = Src(a), BHI = Src(b)
and BEN = 1 on its view; BNDOFF with one that lands BEN = 0 and leaves both bounds. A landing changes no other field of the view and no
other view. The word of R123's example decodes to BNDSET v3, s6, s7. (R122, R123, R155) -/
def Obligations.BoundRegisters : Prop :=
  (∀ (s : State) (g v : BitVec 4) (a b : BitVec 6),
    (slotReady (.bndset g v a b) s = true → does (.bndset g v a b) s
      (withEntry s (pendOf s 7 (.bounds v) ((src s b).toNat * 2 ^ 32 + (src s a).toNat) 1))) ∧
    (slotReady (.bndoff g v) s = true → does (.bndoff g v) s (withEntry s (pendOf s 7 (.boundOff v) 0 1)))) ∧
  (∀ (sq : Seq) (p : Pend) (v : BitVec 4) (n : Nat), n < 16 →
    (p.dest = .bounds v → viewAt (landSeq sq p) n = (if n = v.toNat then
      { viewAt sq n with blo := BitVec.ofNat 32 p.value.toNat, bhi := BitVec.ofNat 32 (p.value.toNat / 2 ^ 32), ben := true } else viewAt sq n)) ∧
    (p.dest = .boundOff v → viewAt (landSeq sq p) n = (if n = v.toNat then { viewAt sq n with ben := false } else viewAt sq n))) ∧
  decodeSlot .k 0x00C31870 = some (.bndset 0 3 6 7)

/-- For every state in which the instruction is ready and, for the four view transfers, the rows pass the checks: one operation of slot 5
enters, with the class of the instruction's selector, the tile it marks, the handle it pins, the view register it goes through, the rows
that Src(a) and the index words name, and for a store the tile as it stands at issue; nothing else changes but the pops. PREF changes
nothing. TMOVT of a tile to itself changes nothing (log 18, the model's reading). (R158, R169, R173, R174, R175, R176, R177, R124) -/
def Obligations.TileTransfersEnterTheEngines : Prop :=
  ∀ (s : State) (g t ts v : BitVec 4) (a : BitVec 6) (cx : Bool) (cls : BitVec 4),
    let V := viewAt (me s) v.toNat
    let c := if cx then cls else V.cls
    let rows : RowList := (List.range 64).map (fun r => some ((src s a).toNat + r))
    let named : RowList := (List.range 64).map (fun r =>
      let w := spad32 (myCore s) ((src s a).toNat + 4 * r)
      if w = 0xFFFFFFFF then none else some w.toNat)
    let tile := fun (x : BitVec 4) => (List.range 64).map (tileRow (myCore s) x.toNat)
    let w := fun (i : Instr) (r w : Option (BitVec 4)) (tiles : List Nat) (pins : List Word) (k : OpKind) =>
      slotReady i s = true → does i s (withOp s (opOf s 5 r w tiles pins k (if pins = [] then [] else [v.toNat])))
    (checkRows s V rows false = .ok → w (.tld g t v a cx cls) (some c) none [t.toNat] [V.handle] (.load t.toNat rows V)) ∧
    (checkRows s V rows true = .ok → w (.tst g t v a cx cls) none (some c) [] [V.handle] (.store (tile t) rows V)) ∧
    (checkRows s V named false = .ok → w (.tgath g t v a cx cls) (some c) none [t.toNat] [V.handle] (.load t.toNat named V)) ∧
    (checkRows s V named true = .ok → w (.tscat g t v a cx cls) none (some c) [] [V.handle] (.store (tile t) named V)) ∧
    (slotReady (.pref g v a) s = true → does (.pref g v a) s s) ∧
    w (.tspld g t a) none none [t.toNat] [] (.spadLoad t.toNat (src s a).toNat) ∧
    w (.tspst g t a) none none [] [] (.spadStore (tile t) (src s a).toNat) ∧
    w (.tzero g t) none none [t.toNat] [] (.tileSet t.toNat (List.replicate 64 0)) ∧
    (t ≠ ts → w (.tmovt g t ts) none none [t.toNat] [] (.tileSet t.toNat (tile ts))) ∧
    (t = ts → slotReady (.tmovt g t ts) s = true → does (.tmovt g t ts) s s)

/-- For every state in which the instruction is ready and passes its checks: VOPEN, which no other agent's view holds, opens its view with the
mode, scope and class, registered with every directory of its scope (a tile view with none), poisoned over a poison record; VRETIRE closes
the view, marks it retiring and enters its retire; HFREE makes the entry invalid under the next generation, so that the handle is no longer
current; TCOPY enters its queue; ARED enters with the words in view; WAITM has no effect but its pops, and its read's pass through the
forwarding buffer of an uncached slice (R257), once its word carries no status, and a word with nonzero status is STAMP_POISON (0x28).
(R154, R164, R165, R179, R182, R184, R201, R269) -/
def Obligations.ViewsHandlesAndCopies : Prop :=
  ∀ (s : State) (g v vs t : BitVec 4) (a d : BitVec 6) (mode : BitVec 2) (sc : BitVec 3) (cls : BitVec 4) (cx ord ev : Bool) (cq sw : BitVec 2),
    let V := viewAt (me s) v.toNat
    let X := viewAt (me s) vs.toNat
    let H := handleEntry s (me s).asid (src s a)
    let O := { V with mode := mode, scope := sc, cls := cls }
    let first := (src s a).toNat
    let left := (List.range 4096).filter (fun k => decide ((first + k / 64) * 256 + 4 * (k % 64) < viewSize V))
    (checkOpen s v.toNat O = .ok → openHeld s v.toNat O = false →
      (∀ n, ∀ e ∈ flockAt s n, e.seq = some s.cur → e.reg = v.toNat → e.asid = (me s).asid ∧ e.view = O) → slotReady (.vopen g v mode sc cls) s = true → ∃ u, does (.vopen g v mode sc cls) s u ∧
      (∀ n < 16, n ≠ v.toNat → viewAt (me u) n = viewAt (me s) n) ∧
      viewAt (me u) v.toNat = { O with isOpen := true, poison := V.handle != 0 && opensPoisoned s O } ∧ (V.handle = 0 → u.flock = s.flock) ∧
      (V.handle ≠ 0 → ∀ n ∈ flockDies O (myDie s), ∃ e ∈ flockAt u n, e.seq = some s.cur ∧ e.reg = v.toNat ∧ e.asid = (me s).asid ∧ e.view = O)) ∧
    (slotReady (.vretire g v) s = true → ∃ u, does (.vretire g v) s u ∧ u.ops = s.ops ++ [opOf s 5 none none [] [] (.retire v.toNat V false)] ∧
      viewAt (me u) v.toNat = { V with isOpen := false, retiring := true } ∧ ∀ n < 16, n ≠ v.toNat → viewAt (me u) n = viewAt (me s) n) ∧
    (checkCurrent s (me s).asid (src s a) = .ok → slotReady (.hfree g a) s = true → ∃ u, does (.hfree g a) s u ∧
      handleEntry u (me s).asid (src s a) = { H with valid := false, gen := H.gen + 1 } ∧ handleCurrent u (me s).asid (src s a) = false ∧
      ∀ b h, handleKey b h ≠ handleKey (me s).asid (src s a) → handleEntry u b h = handleEntry s b h) ∧
    (checkCopy s V X = .ok → slotReady (.tcopy g v vs a cq ev) s = true → does (.tcopy g v vs a cq ev) s
      (withOp s (opOf s 5 (some X.cls) (some V.cls) [] [X.handle, V.handle] (.copy V X v.toNat vs.toNat (src s a) cq.toNat ev false 0)
        [v.toNat, vs.toNat]))) ∧
    (checkAred s V first = .ok →
      slotReady (.ared g t v a cx cls) s = true → does (.ared g t v a cx cls) s (withOp s (opOf s 5 none (some (if cx then cls else V.cls)) []
        [V.handle] (.ared ((List.range 64).map (tileRow (myCore s) t.toNat)) first V (me s).rmode left) [v.toNat]))) ∧
    (checkStamp s V (src s a) = .ok → slotReady (.waitm g d v a ord sw) s = true →
      (stampVerdict s V (src s a) (sw.toNat + 1) = .ok → does (.waitm g d v a ord sw) s
        (passUncached (dropRequests s (stampTag s.cur)) (placesOf s (myDie s) (me s).asid false (stampAddrs s V (src s a))))) ∧
      (stampDamaged s V (src s a) = false → anyPoison s (stampTag s.cur) = false → 2 ^ 32 ≤ stampWord s V (src s a) (sw.toNat + 1) →
        exec (.waitm g d v a ord sw) s = .next (slotFault s 5 { slot := 5, cause := 0x28, aux0 := 0, aux1 := 0 })))

/-- For every state in which the instruction is ready and its word passes the checks: an operation of slot 5 enters with the atomic's code, its
operands as they stand at issue (the register that d names; for ACAS a register pair; for ALD no register), the word, the view, the order
and scope, and the strand's rounding mode; the destination register, or the latch b5 with the suppress bit, is busy until the result
arrives; AST marks nothing. Nothing else changes but the pops. (R266, R267, R268, R58, R352, R29) -/
def Obligations.AtomicsEnterTheEngines : Prop :=
  ∀ (s : State) (g : BitVec 4) (d : BitVec 6) (d5 : BitVec 5) (v : BitVec 4) (a : BitVec 6) (ord sc : BitVec 2),
    let V := viewAt (me s) v.toNat
    let X := src s (BitVec.ofNat 6 (d.toNat % 32))
    let op := fun (k : AtomicOp) (d : BitVec 6) (x y : Word) =>
      withOp s (opOf s 5 none (some V.cls) [] [V.handle] (.atomic k d x y (src s a).toNat V ord sc (me s).rmode) [v.toNat])
    let marked := fun (u : State) (d : BitVec 6) =>
      setMe u { me u with busy := (me u).busy ||| BitVec.ofNat 33 (2 ^ (if d.toNat < 32 then d.toNat else 32)) }
    let w := fun (i : Instr) (k : AtomicOp) (x : Word) =>
      slotReady i s = true → checkAtomic s V k (src s a) = .ok → does i s (marked (op k d x x) d)
    w (.aadd g d v a ord sc) .add X ∧ w (.amin g d v a ord sc) .smin X ∧ w (.amax g d v a ord sc) .smax X ∧
    w (.aminu g d v a ord sc) .umin X ∧ w (.amaxu g d v a ord sc) .umax X ∧ w (.aand g d v a ord sc) .and X ∧
    w (.aor g d v a ord sc) .or X ∧ w (.axor g d v a ord sc) .xor X ∧ w (.axchg g d v a ord sc) .xchg X ∧
    w (.aincb g d v a ord sc) .incb X ∧ w (.afadd g d v a ord sc) .fadd X ∧ w (.afaddh g d v a ord sc) .faddh X ∧
    w (.ald g d v a ord sc) .load 0 ∧
    (slotReady (.acas g d5 v a ord sc) s = true → checkAtomic s V .cas (src s a) = .ok → does (.acas g d5 v a ord sc) s
      (marked (op .cas (BitVec.ofNat 6 (2 * d5.toNat)) (src s (BitVec.ofNat 6 (2 * (d5.toNat % 16)))) (src s (BitVec.ofNat 6 (2 * (d5.toNat % 16) + 1))))
        (BitVec.ofNat 6 (2 * d5.toNat)))) ∧
    (slotReady (.ast g d v a ord sc) s = true → checkAtomic s V .store (src s a) = .ok → does (.ast g d v a ord sc) s (op .store d X X))

/-- For every state in which SEND is ready: with a slot of its ring granted, the operation enters with the row that tile t and Src(b) name, as
it stands at issue; the wait it counted is over. When it has found no slot within the ring's time (FULL), no message leaves, and its own
guard's predicate becomes false at the end of the tick, unless the guard is p0 or a bound stage predicate. (R271, R80, R69) -/
def Obligations.MessagesLeave : Prop :=
  ∀ (s : State) (g : BitVec 4) (a : BitVec 6) (t : BitVec 4) (b : BitVec 6) (timed : Bool), slotReady (.send g a t b timed) s = true →
    let s1 := dropRequests (setMe s { me s with sendWait := 0, sendFull := false }) (sendTag s.cur)
    let p := g.toNat % 8
    ((me s).sendFull = false → sendState s s.cur (src s a) = .granted → does (.send g a t b timed) s
      (withOp s1 (opOf s 5 none none [] [] (.send (tileRow (myCore s) t.toNat ((src s b).toNat % 64)) (src s a))))) ∧
    ((me s).sendFull = true → (p = 0 ∨ ∃ x, (me s).stage = some x ∧ 4 ≤ p ∧ x.mask.getLsbD (p - 4) = true) → does (.send g a t b timed) s s1) ∧
    ((me s).sendFull = true → p ≠ 0 → (∀ x, (me s).stage = some x → 4 ≤ p → x.mask.getLsbD (p - 4) = false) → ∃ u, does (.send g a t b timed) s u ∧
      ((me s).issue = none → guardTrue (me u).preds g = false ∧ ∀ k < 8, k ≠ p → (me u).preds.getLsbD k = (me s).preds.getLsbD k) ∧
      (∀ c, (me s).issue = some c → (me u).issue = some { c with ends := c.ends ++ [.predWrite (BitVec.ofNat 3 p) (g.getLsbD 3)] }))

/-- For every state in which the instruction is ready (and, for MSTAT from a handle, the handle passes its check): one operation of slot 6
enters with the tile, plane, format, scales, scalar and parameters as they stand at issue, the plane being the one that is active after the
swap; with the swap bit the two planes of the shape register change places. ACCDRAIN marks its tile; MSTAT from a handle pins it. Nothing
else changes but the pops. (R30, R117, R120, R212, R213, R215, R217, R220) -/
def Obligations.ArrayCommandsEnterTheQueue : Prop :=
  ∀ (s : State) (g : BitVec 4) (acc : BitVec 3) (t : BitVec 4) (sg : BitVec 2) (sw : Bool) (fmt : BitVec 4) (q x t3 : BitVec 3) (scl hi : Bool) (a : BitVec 6),
    let F := shapeAt (me s) sg.toNat
    let P := if sw then F.shadow else F.active
    let base := if sw then setMe s (putShape (me s) sg.toNat { active := F.shadow, shadow := F.active }) else s
    let tile := fun (k : Nat) => (List.range 64).map (tileRow (myCore s) k)
    let T := tile t.toNat
    let R := src s (BitVec.ofNat 6 (16 + t.toNat))
    let f := fmt.toNat
    let n := acc.toNat
    let w := fun (i : Instr) (u : State) (tiles : List Nat) (pins : List Word) (c : ArrayCmd) =>
      slotReady i s = true → does i s (withOp u (opOf s 6 none none tiles pins (.array c)))
    w (.mm g acc t sg sw fmt q scl) base [] [] (.mm n T P f (if scl then some (scaleAt (me s) q.toNat).toList else none)) ∧
    w (.mmcmp g acc t sg sw fmt) base [] [] (.mmcmp n T P f) ∧
    w (.mstatTile g t3 sg sw fmt) base [] [] (.mstat (tile (2 * t3.toNat) ++ tile (2 * t3.toNat + 1)) P f) ∧
    (checkFetch s (src s a) = .ok → w (.mstatHandle g a sg sw fmt) base [] [src s a]
      (.mstatFetch (src s a) (handleEntry s (me s).asid (src s a)).base P f)) ∧
    w (.mswap g) s [] [] .mswap ∧ w (.lease g) s [] [] .lease ∧ w (.lrel g) s [] [] .lrel ∧
    w (.acczeroFp g acc t) s [] [] (.acczeroFp n (BitVec.ofNat 16 R.toNat)) ∧
    w (.acczeroInt g acc) s [] [] (.acczeroInt n) ∧
    w (.accld g acc t sg sw fmt hi) base [] [] (.accld n T P f hi) ∧
    w (.accnorm g acc t sg sw) base [] [] (.accnorm n (R.toNat % 64) P) ∧
    w (.accchk g acc) s [] [] (.accchk n) ∧
    w (.accdrain g acc t sg sw fmt q x) base [t.toNat] [] (.accdrain n t.toNat P f (if x.getLsbD 0 then some (tile (8 + q.toNat)) else none) (x.getLsbD 1) (x.getLsbD 2) (me s).rmode) ∧
    w (.fold g acc sg sw) base [] [] (.fold n P)

/-- For every state in which the instruction is ready: a placed operation that passes its checks, with no poison in what it has read, completes
with one operation of slot 6 that holds its views, its inputs as read, and its home, marks the tiles of a tile-view result and pins the
handle of another, swaps the planes where it says so, forgets its read requests, and passes the forwarding buffers of the slices that it
reads (R257, R265). PABM, PBCAST, PMAC, PREAD and PEXIT complete with one operation of slot 6 that holds Src(a) and the selected row, PREAD
marking its tile. (R117, R235, R243, R247, R129, R274) -/
def Obligations.PlacedAndBankCommandsEnter : Prop :=
  ∀ (s : State) (g vd va vb fmt t rs : BitVec 4) (sg : BitVec 2) (sw : Bool) (a : BitVec 6),
    let F := shapeAt (me s) sg.toNat
    let base := if sw then setMe s (putShape (me s) sg.toNat { active := F.shadow, shadow := F.active }) else s
    let D := viewAt (me s) vd.toNat
    let row := tileRow (myCore s) t.toNat (vRows s rs).2.1
    let placed := fun (i : Instr) (op : PlacedOp) (b : Option (BitVec 4)) =>
      let c : PlacedCall := { op := op, vd := vd, va := va, vb := b, fmt := fmt, sg := sg, sw := sw }
      slotReady i s = true → checkPlaced s s.cur c = .ok → anyPoison s (readTag s.cur) = false →
        does i s (withOp (passInputs (dropRequests base (readTag s.cur)) s.cur c (decideHome s s.cur c).1) { opOf s 6 (placedReadClass (me s) c)
          (if D.handle = 0 then none else some D.cls) (viewTiles D) (if D.handle = 0 then [] else [D.handle]) (placedKind s s.cur c)
          (vd.toNat :: va.toNat :: b.toList.map BitVec.toNat) with slice := homeSlice (decideHome s s.cur c).1 })
    let bank := fun (i : Instr) (tiles : List Nat) (c : BankCmd) =>
      slotReady i s = true → does i s (withOp s (opOf s 6 none none tiles [] (.bank c)))
    placed (.tadd g vd va vb fmt sg sw) .add (some vb) ∧ placed (.tsub g vd va vb fmt sg sw) .sub (some vb) ∧
    placed (.tmul g vd va vb fmt sg sw) .mul (some vb) ∧ placed (.tmax g vd va vb fmt sg sw) .max (some vb) ∧
    placed (.tred g vd va fmt sg sw) .red none ∧ placed (.tmv g vd va vb fmt sg sw) .mv (some vb) ∧ placed (.tmm g vd va vb fmt sg sw) .mm (some vb) ∧
    bank (.pabm g a t rs) [] (.pabm (src s a) row) ∧ bank (.pbcast g a t rs) [] (.pbcast (src s a) row) ∧
    bank (.pmac g a t rs) [] (.pmac (src s a) row (me s).rmode) ∧
    bank (.pread g a t rs) [t.toNat] (.pread (src s a) t.toNat (vRows s rs).2.1) ∧ bank (.pexit g a) [] (.pexit (src s a))

/-- For every slot instruction on its own: with a false guard the state stands; while a hold of R64 applies, a cycle passes in which no
register, queue entry, operation in flight, byte of memory or tick count changes, and no other sequencer; and otherwise, with an issue trap,
the strand is faulted, with KIND 0, the cause that is first in order, the instruction's slot, its address and an empty completion mask in
its stop, its registers as they were and its queue as it was, but for the model's own marks, for the resume, of the bits that later M and E
writes have put into its rows (R59, R195, log 115). (Trace off for the traps, whose record the trace unit would follow.) Each cause of R67,
R78, R79 and of R91, R126, R183 and R202 at the slot instructions, with its order, applies exactly under its condition: the targets, the
delay positions and boundaries, the loop stack, a bound stage predicate, the full queue of pending writes, the tables, selectors and
addresses, those of QLD, TGATH, TSCAT, TSPLD and TSPST too (R121, R174, R176), a full strict copy queue, and VIEW_CLOSED, VIEW_MODE and
VIEW_BUSY, for the placed operations' views as well. Each hold of R64 that an instruction can meet applies exactly under its condition; an
access that an issue trap stops meets none of its own. A hold is named by its place in R208's table. (R59, R64, R66, R67, R78, R91, R121,
R126, R174, R176, R183, R186) -/
def Obligations.GuardsHoldsAndTraps : Prop :=
  (∀ (i : Instr) (s : State), (slotOf i).isSome = true → (me s).issue = none →
    (guardTrue (me s).preds (guardOf i) = false → exec i s = .next s) ∧
    (guardTrue (me s).preds (guardOf i) = true → (∃ h, firstHold (holdsOf s i) = some h) → ∃ t, exec i s = .next t ∧
      sameRegisters (me s) (me t) ∧ (me t).queue = (me s).queue ∧ (me t).ticks = (me s).ticks ∧ t.ops = s.ops ∧ t.mem = s.mem ∧ sameOthers s.cur s t) ∧
    (∀ x, guardTrue (me s).preds (guardOf i) = true → firstHold (holdsOf s i) = none → firstTrap (trapsOf s (me s).pc i) = some x →
      (x ∈ trapsOf s (me s).pc i ∧ ∀ y ∈ trapsOf s (me s).pc i, x.order ≤ y.order) ∧
      ((dieAt s (dieOf s.cur)).trace.en = false → ∃ t, exec i s = .next t ∧ (me t).status = .faulted ∧
        (∃ st, (me t).stop = some st ∧ st.kind = 0 ∧ st.cause = x.cause ∧ st.slot = slotNo i ∧ st.baddr = (me s).pc ∧ st.cmask = 0) ∧
        (me t).regs = (me s).regs ∧ (me t).queue = (me s).queue.map (fun p => { p with cover := 0 }) ∧ (me t).views = (me s).views ∧ t.ops = s.ops ∧
        sameOthers s.cur s t))) ∧
  (∀ (s : State) (at_ : Word) (l reg : Bool) (g cq4 k pm v : BitVec 4) (d a : BitVec 6) (off : BitVec 8) (len cnt : BitVec 12) (boff : BitVec 20)
      (lv : BitVec 3) (cq : BitVec 2) (ev : Bool),
    let sq := me s
    let traps := fun (i : Instr) (order cause : Nat) (p : Prop) => (({ order := order, cause := cause } : TrapAt) ∈ trapsOf s at_ i ↔ p)
    let taken := sq.delayCount ≠ 0 ∨ atBoundary sq at_ = true
    let x := src s a
    (∀ i, traps i 4 5 (∃ p b, predDest i = some p ∧ sq.stage = some b ∧ 4 ≤ p.toNat ∧ b.mask.getLsbD (p.toNat - 4) = true)) ∧
    (∀ i ∈ [Instr.br g boff, .call g boff, .jr g a, .callr g a, .bktj g a k], traps i 2 3 taken) ∧
    (∀ i ∈ [Instr.jr g a, .callr g a], traps i 1 2 (x.toNat % 32 ≠ 0)) ∧
    (∀ i c m, (i, c, m) ∈ [(Instr.loop g a len, x, len.toNat), (.loopi g cnt off, immUnsigned 12 cnt (extOf s 2), off.toNat)] →
      traps i 2 3 (sq.delayCount ≠ 0) ∧ traps i 3 4 (c ≠ 0 ∧ sq.loops.length = 6) ∧
      traps i 6 7 (∃ o, sq.loops.getLast? = some o ∧ (at_.toNat + 32 < o.start.toNat ∨
        o.start.toNat + 32 * (o.len.toNat - 1) < at_.toNat + 32 + 32 * (m - 1)))) ∧
    traps (.lbrk g) 2 3 (sq.delayCount ≠ 0 ∨ atBoundary (popLevel sq) at_ = true) ∧ traps (.lbrk g) 7 8 (sq.loops = []) ∧
    traps (.lstg g lv pm) 8 9 (depthAfter sq at_ < lv.toNat) ∧ traps (.bktj g a k) 9 0x0A ((bucketOf s k.toNat).caps = []) ∧
    traps (.qmap l g reg a) 10 0x0B ((x.toNat < 64 ∧ (tget Ring.reset (myCore s).rings x.toNat).valid = false) ∨ (64 ≤ x.toNat ∧ x ≠ 0xFFFFFFFF) ∨
      (x = 0xFFFFFFFF ∧ isSteward (coreOf s.cur) = false) ∨ ∃ m, mapOf sq (!reg) = some m ∧ m.ring = (if x = 0xFFFFFFFF then 64 else x.toNat)) ∧
    (∀ i ∈ [Instr.sld l g d a off, .sst l g d a off],
      let y := x + 4 * immSigned 8 off (extOf s (if l then 1 else 0))
      traps i 11 0x0C (0x40000 ≤ y.toNat) ∧ traps i 12 0x0D (y.toNat % 4 ≠ 0)) ∧
    traps (.eret g) 2 3 (sq.delayCount ≠ 0) ∧ traps (.eret g) 13 0x0E (sq.inTrap = false) ∧
    traps (.tcopy g v cq4 a cq ev) 14 0x0F ((myCore s).lenient = false ∧ 16 ≤ (copiesIn s (coreOf s.cur) cq.toNat).length) ∧
    traps (.contain g boff) 18 0x13 (sq.regions.length = 4) ∧ traps (.containend g) 19 0x14 (sq.regions = []) ∧
    (∀ (bs : List (Nat × Instr × State)), (∃ m, ({ order := 5, cause := 6 }, m) ∈ bundleTraps s at_ bs) ↔
      bs.any (fun y => takesEntry y.2.1) = true ∧ 32 < sq.queue.length + (bs.filter (fun y => takesEntry y.2.1)).length) ∧
    (sq.delayCount ≠ 0 → atBoundary sq at_ = true → ∀ bs, ({ order := 2, cause := 3 }, 2) ∈ bundleTraps s at_ bs)) ∧
  (∀ (s : State) (at_ : Word) (rl cx ev : Bool) (g t v vs fld : BitVec 4) (d a n : BitVec 6) (q sc : BitVec 3) (cq ord ws mode : BitVec 2) (cls : BitVec 4)
      (d5 : BitVec 5) (k : BitVec 12),
    let sq := me s
    let traps := fun (i : Instr) (order cause : Nat) (p : Prop) => (({ order := order, cause := cause } : TrapAt) ∈ trapsOf s at_ i ↔ p)
    let x := (src s a).toNat
    let closed := fun (w : BitVec 4) => (viewAt sq w.toNat).isOpen = false
    let unwritable := fun (w : BitVec 4) => (viewAt sq w.toNat).mode ≠ 1
    let views := fun (i : Instr) (p r : Prop) => traps i 15 0x10 p ∧ traps i 16 0x11 r
    let pads := fun (i : Instr) (bytes align : Nat) => traps i 11 0x0C (0x40000 < x + bytes) ∧ traps i 12 0x0D (x % align ≠ 0)
    (∀ i ∈ [Instr.tld g t v a cx cls, .tgath g t v a cx cls, .waitm g d v a rl ws], views i (closed v) False) ∧
    (∀ i ∈ [Instr.tst g t v a cx cls, .tscat g t v a cx cls], views i (closed v) (unwritable v)) ∧
    (∀ i ∈ [Instr.ared g t v a cx cls, .aadd g d v a ord ws, .amin g d v a ord ws, .amax g d v a ord ws, .aminu g d v a ord ws, .amaxu g d v a ord ws,
        .aand g d v a ord ws, .aor g d v a ord ws, .axor g d v a ord ws, .axchg g d v a ord ws, .aincb g d v a ord ws, .afadd g d v a ord ws,
        .afaddh g d v a ord ws, .ald g d v a ord ws, .ast g d v a ord ws, .acas g d5 v a ord ws],
      views i (closed v) (unwritable v ∧ (viewAt sq v.toNat).mode ≠ 2)) ∧
    views (.tcopy g v vs a cq ev) (closed v ∨ closed vs) (unwritable v) ∧ views (.vretire g v) (closed v) False ∧
    (∀ i c, placedCall i = some c → views i (closed c.vd ∨ closed c.va ∨ ∃ b, c.vb = some b ∧ closed b) (unwritable c.vd)) ∧
    traps (.vopen g v mode sc cls) 17 0x12 ((viewAt sq v.toNat).isOpen = true ∨ ∃ p ∈ sq.queue, ∃ f, p.dest = .viewField v f) ∧
    (∀ i ∈ [Instr.vfset g v fld a, .vfseti g v fld k], traps i 17 0x12 ((viewAt sq v.toNat).isOpen = true ∨ (viewAt sq v.toNat).retiring = true ∨
      ∃ c h m e l, sq.issue = some c ∧ slotAt c.slots 5 = some (.vopen h v m e l) ∧ guardTrue sq.preds h = true)) ∧
    (∀ i ∈ [Instr.tgath g t v a cx cls, .tscat g t v a cx cls], pads i 256 4) ∧ pads (.qld g q a n) (2 * (n.toNat + 1)) 2 ∧
    ∀ i ∈ [Instr.tspld g t a, .tspst g t a], pads i 16384 256) ∧
  ∀ (s : State) (l rl aq timed : Bool) (g t v vs : BitVec 4) (d a b n : BitVec 6) (off : BitVec 8) (q sc id : BitVec 3) (cq ord ws : BitVec 2) (ev cx : Bool)
      (cls : BitVec 4) (d5 : BitVec 5) (mode sg : BitVec 2) (fmt : BitVec 4) (sw : Bool),
    let sq := me s
    let V := viewAt sq v.toNat
    let x := src s a
    let held := fun (i : Instr) (rank : Nat) (p : Prop) => ((∃ h ∈ holdsOf s i, h.rank = rank) ↔ p)
    let accesses := fun (i : Instr) (rank : Nat) (p : Prop) => trapsOf s (bundleAddr s) i = [] → held i rank p
    let waits := fun (i : Instr) (c : Check) => accesses i 5 (∃ w, c = .wait w)
    let touched := fun (y m : Nat) => ∃ o ∈ s.ops, o.seq = s.cur ∧ ∃ z, ((∃ k, o.kind = .spadLoad k z) ∨ ∃ r, o.kind = .spadStore r z) ∧ y < z + 16384 ∧ z < y + m
    let open_ := fun (k : Nat) => ∃ o ∈ s.ops, o.seq = s.cur ∧ isComplete o = false ∧ k ≤ o.region
    (∀ i, held i 2 ((∃ f ∈ readsOf sq i, (f.toNat < 32 ∧ sq.busy.getLsbD f.toNat = true) ∨ (f = 37 ∧ sq.busy.getLsbD 32 = true)) ∨
        ∃ e, scalarDest i = some e ∧ e.toNat < 32 ∧ sq.busy.getLsbD e.toNat = true) ∧
      held i 3 (∃ o ∈ s.ops, coreOf o.seq = coreOf s.cur ∧ ∃ k ∈ tilesTouched sq i, k ∈ o.wtiles) ∧
      held i 8 (∃ hi m, mapOf sq hi = some m ∧ queueHead s s.cur m = none ∧ (if hi then 31 else 30) ∈ readsOf sq i) ∧
      (isArrayCommand i = true → held i 6 (32 ≤ (arrayQueue s (coreOf s.cur)).length)) ∧ (isBankCommand i = true → held i 6 (16 ≤ (bankQueue s s.cur).length))) ∧
    (∀ i ∈ [Instr.sld l g d a off, .sst l g d a off], held i 4 (touched (x + 4 * immSigned 8 off (extOf s (if l then 1 else 0))).toNat 4)) ∧
    held (.qld g q a n) 4 (touched x.toNat (2 * (n.toNat + 1))) ∧
    (∀ i ∈ [Instr.tgath g t v a cx cls, .tscat g t v a cx cls], accesses i 4 (touched x.toNat 256)) ∧
    held (.tcopy g v vs a cq ev) 7 ((myCore s).lenient = true ∧ 16 ≤ (copiesIn s (coreOf s.cur) cq.toNat).length) ∧
    (sq.waitGt = none → held (.waitgt g a b) 9 ((gtAt s (myDie s)).toNat < (src s b).toNat * 2 ^ 32 + x.toNat)) ∧
    (∀ w, sq.waitGt = some w → held (.waitgt g a b) 9 (gtAt s (myDie s) < w)) ∧
    (∀ i ∈ [Instr.bar g sc id rl aq, .bararv g sc id rl], held i 9 ((rl = true ∧ allPerformed s s.cur sc.toNat = false) ∨ phaseOpen s s.cur sc.toNat id.toNat = true)) ∧
    held (.barwt g sc id aq) 9 (phaseOpen s s.cur sc.toNat id.toNat = true) ∧
    held (.launch g a timed) 9 ((∃ w, checkLaunch s x = .wait w) ∨ launchWaits s = true ∨ recordHeld s x = true) ∧
    held (.containend g) 9 (sq.regions ≠ [] ∧ open_ sq.regions.length) ∧ held (.exit g) 9 (open_ 0) ∧
    held (.send g a t b timed) 7 ((timed = true ∧ gtAt s (myDie s) < sq.ts) ∨
      (sq.sendFull = false ∧ (sendState s s.cur x = .full ∨ sendState s s.cur x = .asking))) ∧
    (checkStamp s V x = .ok → accesses (.waitm g d v a timed ws) 7 (stampRead s V x (ws.toNat + 1) = false ∨ (anyPoison s (stampTag s.cur) = false ∧
      stampDamaged s V x = false ∧ stampReached (stampWord s V x (ws.toNat + 1) % 2 ^ 32) (src s d) = false))) ∧
    waits (.waitm g d v a timed ws) (checkStamp s V x) ∧
    (let w := { V with mode := mode, scope := sc, cls := cls };
      checkFirst s v.toNat w = .ok → accesses (.vopen g v mode sc cls) 7 (openHeld s v.toNat w = true)) ∧
    waits (.tld g t v a cx cls) (checkRows s V (seqRows x) false) ∧ waits (.tst g t v a cx cls) (checkRows s V (seqRows x) true) ∧
    waits (.tgath g t v a cx cls) (checkRows s V (indexRows (myCore s) x.toNat) false) ∧
    waits (.tscat g t v a cx cls) (checkRows s V (indexRows (myCore s) x.toNat) true) ∧
    waits (.ared g t v a cx cls) (checkAred s V x.toNat) ∧ waits (.mstatHandle g a sg sw fmt) (checkFetch s x) ∧
    (∀ op i, (op, i) ∈ [(AtomicOp.add, Instr.aadd g d v a ord ws), (.smin, .amin g d v a ord ws), (.smax, .amax g d v a ord ws),
        (.umin, .aminu g d v a ord ws), (.umax, .amaxu g d v a ord ws), (.and, .aand g d v a ord ws), (.or, .aor g d v a ord ws),
        (.xor, .axor g d v a ord ws), (.xchg, .axchg g d v a ord ws), (.incb, .aincb g d v a ord ws), (.fadd, .afadd g d v a ord ws),
        (.faddh, .afaddh g d v a ord ws), (.load, .ald g d v a ord ws), (.store, .ast g d v a ord ws), (.cas, .acas g d5 v a ord ws)] →
      waits i (checkAtomic s V op x)) ∧
    ∀ i c, placedCall i = some c → accesses i 6 ((∃ w, checkPlaced s s.cur c = .wait w) ∨ (checkPlaced s s.cur c = .ok ∧
      (readDone s s.cur c = false ∨ ((decideHome s s.cur c).1 = .array ∧ 32 ≤ (arrayQueue s (coreOf s.cur)).length))))

/-- For every sequencer with at most 32 pending entries, every cause, with the trace unit of its die off: after the stop STATE is faulted with
the stop kept, the 8,960 bytes at SQFRA in the die's HBM begin with the header of R189 (the cause, slot, kind, engine, completion mask,
addresses and position), a byte whose pseudo-channel a strand holds waits for its PEXIT (R275), no byte outside them has changed, no other
sequencer has changed, and with room in the die's event queue, and no write of the strand still to perform but those that its engines keep,
its FAULT event stands there: the count is one higher and the tail one slot further; otherwise the strand keeps the event until both hold
(R295; the model's reading, log 146). SQFRA as an address of the die's HBM is the model's reading (log 7). (R186, R187, R188, R189, R275,
R294, R295) -/
def Obligations.StopsWriteTheFaultRecord : Prop :=
  ∀ (s : State) (q : Nat) (i : StopInfo),
    let sq := settle (seqAt s q)
    let d := dieOf q
    let t := stopStrand s q i
    let a := location d sq.sqfra.toNat
    let writes := fun (o : Op) => o.seq = q ∧ ∃ x ∈ accessesOf o, x.2.2 = true
    sq.queue.length ≤ 32 → (dieAt s d).trace.en = false →
      (seqAt t q).status = .faulted ∧ (seqAt t q).stop = some i ∧ (seqAt t q).queue = sq.queue.map (fun p => { p with cover := 0 }) ∧ (seqAt t q).pc = sq.pc ∧
      (∀ n < 64, channelHeld s (a + n) = false → memByte t.mem (a + n) = BitVec.ofNat 8 (headerWord sq i / 256 ^ n)) ∧
      (∀ n < 64, channelHeld s (a + n) = true → a + n < location 48 0 →
        ∃ f ∈ t.forwards, f.die = noDie ∧ (a + n, BitVec.ofNat 8 (headerWord sq i / 256 ^ n)) ∈ f.cells) ∧
      (∀ x, (x < a ∨ a + 8960 ≤ x ∨ channelHeld s x = true) → memByte t.mem x = memByte s.mem x) ∧ sameOthers q s t ∧
      ((∀ o ∈ s.ops, writes o → orderDone s o 2 = true ∨ (isKept s o = true ∧ opAt s o.id = some o)) → eventRoom s d = true →
        (eventsAt t d).count = (eventsAt s d).count + 1 ∧ (eventsAt t d).tail = ((eventsAt s d).tail + 1) % 512 ∧ (seqAt t q).faultDue = none) ∧
      ((∃ o ∈ s.ops, writes o ∧ orderDone s o 2 = false ∧ isKept s o = false ∧ opAt s o.id = some o) ∨ eventRoom s d = false →
        eventsAt t d = eventsAt s d ∧ ∃ e, (seqAt t q).faultDue = some e ∧ e.record = eventRecord 2 sq.sqfra sq.task sq.team.toNat sq.strand.toNat
          (if isSteward (coreOf q) then 0 else quadOf q % 16))

/-- For every state: in a bundle a faulting slot adds its fault to the bundle's list and changes nothing else. On its own, with no region open,
or a cause that is not contained, the strand is faulted with KIND 1, the fault's cause, slot and details, and a completion mask that lacks
the slot's bit. With a region open and a contained cause, the strand unwinds instead: the innermost region and the enclosing ones stand, the
entries issued before the region stay in the queue, later ones are gone, and the handler's cause word holds the cause, slot, kind and depth.
(R186, R193, R198, R200) -/
def Obligations.SlotFaultsAndContainment : Prop :=
  (∀ (s : State) (n : Nat) (f : SlotFault) (c : IssueCtx), (me s).issue = some c →
    slotFault s n f = setMe s { me s with issue := some { c with undone := c.undone ++ [f] } }) ∧
  (∀ (s : State) (n : Nat) (f : SlotFault), (me s).issue = none → n < 8 → ((me s).regions = [] ∨ isContained f.cause = false) →
    ∃ st, (me (slotFault s n f)).status = .faulted ∧ (me (slotFault s n f)).stop = some st ∧ st.kind = 1 ∧ st.cause = f.cause ∧ st.slot = f.slot ∧
      st.aux0 = f.aux0 ∧ st.aux1 = f.aux1 ∧ st.cmask = BitVec.ofNat 8 (255 - 2 ^ n) ∧ st.baddr = (me s).pc) ∧
  (∀ (s : State) (n : Nat) (f : SlotFault) (r : Region) (rest : List Region), (me s).issue = none → (me s).regions = r :: rest → isContained f.cause = true →
    let t := slotFault s n f
    (me t).status = .unwinding ∧ (me t).regions = r :: rest ∧ (∀ p ∈ (me t).queue, p.tick < r.tick) ∧
      (me t).queue.length = ((me s).queue.filter (fun p => decide (p.tick < r.tick))).length ∧ (me t).regs = (me s).regs ∧ t.mem = s.mem ∧
      ∃ u, (me t).unwind = some u ∧ u.depth = rest.length + 1 ∧ u.detail = BitVec.ofNat 32 f.aux0.toNat ∧
        u.causeWord = BitVec.ofNat 32 (f.cause + 256 * f.slot + 2048 + 16384 * (rest.length + 1))) ∧
  ∀ c, isContained c = true ↔ c ∈ [0x28, 0x29, 0x2A, 0x2B, 0x2C, 0x31, 0x33, 0x34]

/-- For every state in which the instruction is ready: TLD, TST, TGATH and TSCAT whose rows fail their check, HFREE and VOPEN whose handle or
view fails, TCOPY whose views fail, each of the fifteen atomics and WAITM whose word fails, ARED whose words fail, and LAUNCH whose record
fails, end in the slot fault with that cause and detail, in slot 5, for LAUNCH in slot 2, and in slot 6 for MSTAT whose handle fails and for
each placed operation whose read phase fails, with no operation entered and no pop taken. MSTAT fails with HANDLE_STALE, then with
HANDLE_RANGE for an allocation smaller than 32 KiB. A placed operation fails with PLACE_SIZE for the first of result, first and second
source that is no tensor, then with PLACE_SHAPE for the first whose shape its entry does not allow, then, for the result, the first and the
second source in turn, with HANDLE_STALE, and its details name the operand. A handle that is not current, and that the held bundle has not
pinned for the slot, is cause 0x20, HANDLE_STALE, before every other. (R184, R153, R178, R182, R193, R266, R269, R283, R215, R237, R244,
R191) -/
def Obligations.FailingChecksAreSlotFaults : Prop :=
  (∀ (s : State) (g t v vs : BitVec 4) (a d : BitVec 6) (cx ev timed : Bool) (cls : BitVec 4) (ord sc mode cq : BitVec 2) (sc3 : BitVec 3) (d5 : BitVec 5) (x : Nat) (aux : BitVec 64),
    let V := viewAt (me s) v.toNat
    let ends := fun (i : Instr) (n : Nat) => slotReady i s = true → exec i s = .next (slotFault s n { slot := n, cause := x, aux0 := aux, aux1 := 0 })
    let rows : RowList := (List.range 64).map (fun r => some ((src s a).toNat + r))
    (checkRows s V rows false = .fail x aux → ends (.tld g t v a cx cls) 5) ∧ (checkRows s V rows true = .fail x aux → ends (.tst g t v a cx cls) 5) ∧
    (checkRows s V (indexRows (myCore s) (src s a).toNat) false = .fail x aux → ends (.tgath g t v a cx cls) 5) ∧
    (checkRows s V (indexRows (myCore s) (src s a).toNat) true = .fail x aux → ends (.tscat g t v a cx cls) 5) ∧
    (checkCurrent s (me s).asid (src s a) = .fail x aux → ends (.hfree g a) 5) ∧
    (checkOpen s v.toNat { V with mode := mode, scope := sc3, cls := cls } = .fail x aux → ends (.vopen g v mode sc3 cls) 5) ∧
    (checkCopy s V (viewAt (me s) vs.toNat) = .fail x aux → ends (.tcopy g v vs a cq ev) 5) ∧
    (∀ op i, (op, i) ∈ [(AtomicOp.add, Instr.aadd g d v a ord sc), (.smin, .amin g d v a ord sc), (.smax, .amax g d v a ord sc),
        (.umin, .aminu g d v a ord sc), (.umax, .amaxu g d v a ord sc), (.and, .aand g d v a ord sc), (.or, .aor g d v a ord sc),
        (.xor, .axor g d v a ord sc), (.xchg, .axchg g d v a ord sc), (.incb, .aincb g d v a ord sc), (.fadd, .afadd g d v a ord sc),
        (.faddh, .afaddh g d v a ord sc), (.load, .ald g d v a ord sc), (.store, .ast g d v a ord sc), (.cas, .acas g d5 v a ord sc)] →
      checkAtomic s V op (src s a) = .fail x aux → ends i 5) ∧
    (checkStamp s V (src s a) = .fail x aux → ends (.waitm g d v a timed sc) 5) ∧
    (checkAred s V (src s a).toNat = .fail x aux → ends (.ared g t v a cx cls) 5) ∧
    (checkLaunch s (src s a) = .fail x aux → ends (.launch g a timed) 2)) ∧
  (∀ (s : State) (v : View) (rows : RowList) (wr : Bool), handleCurrent s (me s).asid v.handle = false → (5, v.handle) ∉ (me s).pinned →
    ∃ aux, checkRows s v rows wr = .fail 0x20 aux) ∧
  (∀ (s : State) (g fmt : BitVec 4) (a : BitVec 6) (sg : BitVec 2) (sw : Bool),
    let h := src s a
    let e := handleEntry s (me s).asid h
    let current := handleCurrent s (me s).asid h = true ∨ (6, h) ∈ (me s).pinned
    (∀ x aux, checkFetch s h = .fail x aux → slotReady (.mstatHandle g a sg sw fmt) s = true →
      exec (.mstatHandle g a sg sw fmt) s = .next (slotFault s 6 { slot := 6, cause := x, aux0 := aux, aux1 := 0 })) ∧
    (¬ current → checkFetch s h = .fail 0x20 (h.setWidth 64)) ∧
    (current → e.size < 32768 → checkFetch s h = .fail 0x24 (BitVec.ofNat 64 (e.base + e.size)))) ∧
  ∀ (s : State) (i : Instr) (c : PlacedCall), placedCall i = some c → slotReady i s = true →
    let q := me s
    let D := viewAt q c.vd.toNat
    let A := viewAt q c.va.toNat
    let B := match c.vb with
      | some b => viewAt q b.toNat
      | none => A
    let trb := (activeAfter q c.sg c.sw).trb = 1
    let sized := fun (v : View) => viewSize v ≠ 0 ∧ (vget 0 v.xt 0).toNat ≠ 0 ∧ (vget 0 v.xt 0).toNat % 2 = 0 ∧ viewSize v ≤ 65536
    let is := fun (v : View) (r k : Nat) => tensorRows v = r ∧ tensorCols v = k
    let nr := tensorRows A
    let nc := tensorCols A
    let result := match c.op with
      | .red => is D nr 1
      | .mv => is D nr 1
      | .mm => is D nr (if trb then tensorRows B else tensorCols B)
      | _ => is D nr nc
    let second := match c.op with
      | .red => True
      | .mv => is B 1 nc
      | .mm => if trb then tensorCols B = nc else tensorRows B = nc
      | _ => is B nr nc ∨ is B 1 nc
    let stale := fun (v : View) => v.handle ≠ 0 ∧ handleCurrent s q.asid v.handle = false ∧ (6, v.handle) ∉ q.pinned
    let ends := fun (x : Nat) (aux0 : BitVec 64) (aux1 : Word) => exec i s = .next (slotFault s 6 { slot := 6, cause := x, aux0 := aux0, aux1 := aux1 })
    let agree := sized D ∧ sized A ∧ sized B ∧ result ∧ second
    (∀ x y z, checkPlaced s s.cur c = .fail x y z → ends x y z) ∧
    (¬ sized D → ends 0x2F 0 0) ∧ (sized D → ¬ sized A → ends 0x2F 0 16) ∧ (sized D → sized A → ¬ sized B → ends 0x2F 0 32) ∧
    (sized D → sized A → sized B → ¬ result → ends 0x2E 0 0) ∧ (sized D → sized A → sized B → result → ¬ second → ends 0x2E 0 32) ∧
    (agree → stale D → ends 0x20 (D.handle.setWidth 64) 5) ∧
    (agree → checkOperand s s.cur 0 D = .ok → stale A → ends 0x20 (A.handle.setWidth 64) 0x15) ∧
    (∀ b, c.vb = some b → agree → checkOperand s s.cur 0 D = .ok → checkOperand s s.cur 1 A = .ok → stale B → ends 0x20 (B.handle.setWidth 64) 0x25)

/-- For every strand state: the entries with one tick left land and leave the queue, and every other stays with one tick less, in its place. The
last due scalar entry for a register, the register unmapped and the entry not superseded, gives the register its value; a due entry with the
suppress bit writes its latch alone; the last one of a slot gives the latch its value. A register for which no entry is due keeps its value.
CSTAT gathers the flags of what landed. (R18, R19, R53, R54, R56, R58, R106) -/
def Obligations.PendingWritesLandInOrder : Prop :=
  ∀ (sq : Seq) (c : CoreState),
    let r := (tickStart sq c).1
    let due := sq.queue.filter (fun p => decide (p.cnt ≤ 1))
    r.queue = (sq.queue.filter (fun p => decide (2 ≤ p.cnt))).map (fun p => { p with cnt := p.cnt - 1 }) ∧
    (∀ (d : BitVec 5) (l m : List Pend) (p : Pend), due = l ++ p :: m → p.dest = .scalar d → p.superseded = none → isMapped sq d.toNat = false →
      (∀ x ∈ m, x.dest ≠ .scalar d) → vget 0 r.regs d.toNat = BitVec.ofNat 32 p.value.toNat) ∧
    (∀ (l m : List Pend) (p : Pend), due = l ++ p :: m → p.slot < 8 → (p.dest = .latch ∨ ∃ d, p.dest = .scalar d) →
      (∀ x ∈ m, x.slot = p.slot → x.dest ≠ .latch ∧ ∀ d, x.dest ≠ .scalar d) → vget 0 r.latches p.slot = BitVec.ofNat 32 p.value.toNat) ∧
    (∀ d : BitVec 5, (∀ x ∈ due, x.dest ≠ .scalar d) → vget 0 r.regs d.toNat = vget 0 sq.regs d.toNat) ∧
    r.cstat = due.foldl (fun a p => a ||| p.flags) sq.cstat ∧ r.pc = sq.pc ∧ r.loops = sq.loops ∧ r.rmode = sq.rmode

/-- For every state: an unmapped register reads its value; s31 mapped to a ring with an entry reads the scratchpad address of the oldest one,
latch codes 32 to 39 the latches, and codes 40 to 47 the constants of R17. The pops of an instruction change, with mappings to rings, only
the mappings and the rings of the core: memory, operations, the other sequencers, the strand's registers and its queue stand. Without a
mapped source nothing is popped. (R79, R80, R17) -/
def Obligations.PopsAndTheirFrame : Prop :=
  (∀ (s : State) (f : BitVec 6),
    (f.toNat < 30 → src s f = vget 0 (me s).regs f.toNat) ∧ ((me s).map30 = none → f = 30 → src s f = vget 0 (me s).regs 30) ∧
    ((me s).map31 = none → f = 31 → src s f = vget 0 (me s).regs 31) ∧ (32 ≤ f.toNat → f.toNat < 40 → src s f = vget 0 (me s).latches (f.toNat - 32)) ∧
    (src s 40 = 0 ∧ src s 41 = 1 ∧ src s 42 = 2 ∧ src s 43 = 4 ∧ src s 44 = 8 ∧ src s 45 = 16 ∧ src s 46 = 0xFFFFFFFF ∧ src s 47 = 0xFFFFFFFE) ∧
    ∀ (m : QueueMap) (a : Word), (me s).map31 = some m → queueHead s s.cur m = some a → src s 31 = a) ∧
  (∀ (fs : List (BitVec 6)) (s : State), (30 ∉ fs ∨ (me s).map30 = none) → (31 ∉ fs ∨ (me s).map31 = none) → takePops fs s = s) ∧
  ∀ (fs : List (BitVec 6)) (s : State), ringsOnly s →
    let t := takePops fs s
    t.mem = s.mem ∧ t.ops = s.ops ∧ t.tasks = s.tasks ∧ t.events = s.events ∧ sameOthers s.cur s t ∧ sameRegisters (me s) (me t) ∧ (me t).queue = (me s).queue ∧
      (∀ k, k ≠ coreOf s.cur → coreAt t k = coreAt s k) ∧ (myCore t).tiles = (myCore s).tiles ∧ (myCore t).spad = (myCore s).spad ∧
      ∀ (m : QueueMap) (a : Word), (me s).map31 = some m → queueHead s s.cur m = some a → 31 ∈ fs → 30 ∉ fs →
        (me t).map31 = some { m with held := some a } ∧
        (tget Ring.reset (myCore t).rings m.ring).head =
          ((tget Ring.reset (myCore s).rings m.ring).head + 1) % ((tget Ring.reset (myCore s).rings m.ring).nslot.toNat + 1)

/-- For every state with a bundle in issue and mappings to rings alone, every instruction of the S, V, M, E and K slots, in every form (a false
guard and a slot fault included): every byte of memory reads as before, every other sequencer stands, the strand's scalar registers,
latches, predicates, position and delay state, loop stack, stage binding, scales, flags, rounding mode, CEST, CTS, the software-trap
registers (CTRAPVEC, CEPC, CEDLY, CECODE) and its place, team and task stand, and the pending-write queue has at most one more entry at its
end. CGTSNAP stands but for GTLO; a view register but for VOPEN and VRETIRE of it; the shape registers but for the swap of the two planes of
one by an E-slot command (R117); and the busy marks but for one that an M-slot atomic sets (R58). Results reach the registers by landing
(R53), the end of the tick (R69) or an engine. (R53, R54, R69, R92, R193, R73, R164, R165, R117, R58) -/
def Obligations.FrameInABundle : Prop :=
  ∀ (i : Instr) (s t : State) (cl : SlotClass) (c : IssueCtx), slotOf i = some cl → cl ≠ .c → (me s).issue = some c → ringsOnly s → exec i s = .next t →
    sameMemory s t ∧ sameOthers s.cur s t ∧ (me t).regs = (me s).regs ∧ (me t).latches = (me s).latches ∧ (me t).preds = (me s).preds ∧
      (me t).pc = (me s).pc ∧ (me t).delayCount = (me s).delayCount ∧ (me t).loops = (me s).loops ∧ (me t).scales = (me s).scales ∧
      (me t).cstat = (me s).cstat ∧ (me t).rmode = (me s).rmode ∧ (me t).est = (me s).est ∧ (me t).ts = (me s).ts ∧ (me t).trapVec = (me s).trapVec ∧
      (me t).epc = (me s).epc ∧ (me t).edly = (me s).edly ∧ (me t).inTrap = (me s).inTrap ∧ (me t).trapCode = (me s).trapCode ∧
      (me t).delayTarget = (me s).delayTarget ∧ (me t).stage = (me s).stage ∧ (me t).team = (me s).team ∧ (me t).task = (me s).task ∧
      (me t).strand = (me s).strand ∧ (me t).asid = (me s).asid ∧
      ((∀ l g d, i ≠ .gtlo l g d) → (me t).gtSnap = (me s).gtSnap) ∧
      (∀ n : BitVec 4, (∀ g m sc k, i ≠ .vopen g n m sc k) → (∀ g, i ≠ .vretire g n) → viewAt (me t) n.toNat = viewAt (me s) n.toNat) ∧
      ((me t).shapes = (me s).shapes ∨ cl = .e ∧ ∃ n : BitVec 2, (me t).shapes =
        (putShape (me s) n.toNat { active := (shapeAt (me s) n.toNat).shadow, shadow := (shapeAt (me s) n.toNat).active }).shapes) ∧
      ((me t).busy = (me s).busy ∨ cl = .m ∧ ∃ n ≤ 32, (me t).busy = (me s).busy ||| BitVec.ofNat 33 (2 ^ n)) ∧
      ∃ l, (me t).queue = (me s).queue ++ l ∧ l.length ≤ 1

/-- For every state in which a sequencer's core is not frozen and its next bundle, its position settled, is judged to issue: for the primary,
the cycle before closed and the guard not due, the step is the tick of that bundle, with its occupied slots as the core's mask of the cycle;
for the secondary beside a primary that has issued in the cycle, it is the tick of its bundle when no occupied slot meets the mask, and a
held cycle for the lowest slot that does otherwise. A bundle with no instruction, outside delay positions and boundaries, with sampling off
and no landing asked, is a tick that takes the landings and moves the position to the next bundle. (R53, R62, R64, R127, R48) -/
def Obligations.BundleIssueIsATick : Prop :=
  (∀ (s : State) (q : Nat) (b : Slots) (m mask own : BitVec 8), coreFrozen s (coreOf q) = false → (seqAt s q).resumeAsked = none →
      (seqAt s q).faultDue = none →
    let k := coreOf q
    let p := prepared { closeCycle s k with cur := q }
    let t := prepared (setCore p k { coreAt p k with primaryMask := some (occMask b) })
    let x := { setCore s k { coreAt s k with primaryMask := none, wait := 0 } with cur := q }
    let y := prepared x
    (q % 2 = 0 → guardDue (closeCycle s k) k = false → judge p = .issue b m → (me p).reissue = none → judge t = .issue b m → (me t).reissue = none →
      (me p).status = .running → exec (.bundleIssue q) s = .next { issueTick t b m with cur := s.cur }) ∧
    (q % 2 = 1 → q = 2 * k + 1 → readyMask s q = some own → (coreAt s k).primaryMask = some mask →
      (mask &&& own = 0 → judge y = .issue b m → (me y).reissue = none → (me x).status = .running →
        exec (.bundleIssue q) s = .next { issueTick y b m with cur := s.cur }) ∧
      (∀ n < 8, (mask &&& own).getLsbD n = true → (∀ j < n, (mask &&& own).getLsbD j = false) →
        exec (.bundleIssue q) s = .next (secondaryCollides s k n) ∧ (seqAt (secondaryCollides s k n) q).ticks = (seqAt s q).ticks ∧
          (coreAt (secondaryCollides s k n) k).wait = min 64 ((coreAt s k).wait + 1)))) ∧
  ∀ s : State, (me s).delayCount = 0 → atBoundary (me s) (me s).pc = false → (dieAt s (myDie s)).trace.sen = false →
    (me s).landing = .none_ → (me s).tickOpen = false → (me s).due = none →
    let t := issueTick s (List.replicate 8 none) 0
    (me t).pc = (me s).pc + 32 ∧ (me t).ticks = (me s).ticks + 1 ∧ (me t).queue = (tickStart (me s) (myCore s)).1.queue ∧
      (me t).regs = (tickStart (me s) (myCore s)).1.regs ∧ t.mem = s.mem ∧ t.ops = s.ops ∧ sameOthers s.cur s t

/-- For every state that enables the step: the landings of the coming tick are taken once, in the cycle in which its bundle would issue; a
bundle that the nullifier skips moves the position and issues no tick; LOOP_EXIT leaves a level whose last bundle has been passed, to the
bundle after it where no outer level ends there; DELAY_EXPIRE makes the transfer's target the position; STARVATION_GUARD holds the primary
for a cycle, also one that is held already, whose own hold goes on in that cycle (R126), or has slots to be reissued, and gives the cycle to
the secondary, the count back at 0, also where the secondary meets an issue trap (the model's reading, log 133); TIMED_START lets a waiting
strand run once the die's GT has reached its start. (R50, R53, R62, R66, R126, R127, R208, R283) -/
def Obligations.PartsOfACycle : Prop :=
  (∀ (s : State) (q : Nat) (b : Slots) (m : BitVec 8), coreFrozen s (coreOf q) = false →
    let w := { s with cur := q }
    let t := prepared (if q % 2 = 0 then closeCycle w (coreOf q) else w)
    let x := prepared w
    ((me t).reissue = none → (me t).tickOpen = false → judge t = .issue b m → issuesNow t (occMask b) = true →
      exec (.pendingWriteLanding q) s = .next { setMe (landed t) { me (landed t) with tickOpen := true } with cur := s.cur }) ∧
    ((me x).reissue = none → judge x = .skip → exec (.bundleSkip q) s = .next { skipBundle x with cur := s.cur })) ∧
  (∀ s : State, (me s).landing = .none_ → (me (skipBundle s)).ticks = (me s).ticks ∧
    (me (skipBundle s)).queue = (me s).queue ∧ (me (skipBundle s)).regs = (me s).regs ∧
    ((me s).delayCount = 0 → atBoundary (me s) (me s).pc = false → (me (skipBundle s)).pc = (me s).pc + 32)) ∧
  (∀ (s : State) (q : Nat) (a : Word) (l : LoopLevel) (rest : List LoopLevel), (seqAt s q).due = some (.exit a) → (seqAt s q).loops = rest ++ [l] →
    lastOf l = a → l.count.toNat ≤ l.index.toNat + 1 → l.index.toNat + 1 < 2 ^ 32 → (∀ o, rest.getLast? = some o → lastOf o ≠ a) →
    ∃ x, exec (.loopExit q) s = .next (setSeq s q x) ∧ x.loops = rest ∧ x.pc = a + 32 ∧ x.due = none ∧ x.regs = (seqAt s q).regs) ∧
  (∀ (s : State) (q : Nat), (seqAt s q).due = some .expire →
    exec (.delayExpire q) s = .next (setSeq s q { seqAt s q with pc := (seqAt s q).delayTarget, due := none })) ∧
  (∀ (s : State) (k : Nat), guardDue s k = true → coreFrozen s k = false →
    let s1 := { setCore s k { coreAt s k with primaryMask := none } with cur := 2 * k }
    let p := prepared s1
    let guard := fun (l : List Nat) => ({ rank := 0, cls := 1, vpns := l } : Hold)
    let gives := fun (x : State) =>
      let v := setCore { x with cur := s.cur } k { coreAt x k with primaryMask := none, wait := 0 }
      exec (.starvationGuard k) s = .next { streamCycle { v with cur := 2 * k + 1 } with cur := s.cur }
    ((me p).reissue = none → isReady s1 (2 * k) = true → gives (heldCycle p (guard []))) ∧
    ((me p).reissue = none → ∀ h, judge p = .held h → gives (holdBundle p (guard h.vpns))) ∧
    ((me p).reissue = none → (∀ h, judge p ≠ .held h) → isReady s1 (2 * k) = false → gives s1) ∧
    (∀ a cm, (me p).reissue = some (a, cm) →
      gives (if mayReissue p = true then heldCycle (askSlots p (reissuedSlots p a cm)) (guard []) else s1))) ∧
  ∀ (s : State) (q : Nat) (x : BitVec 64), (seqAt s q).status = .waiting x →
    (x ≤ gtAt s (dieOf q) → exec (.timedStart q) s = .next (setSeq s q { seqAt s q with status := .running })) ∧
    (gtAt s (dieOf q) < x → exec (.timedStart q) s = .next s)

/-- For every state that enables the step: on a core that is not frozen, or by a report that a step of a frozen core has raised (R205), a
running strand with an engine's report stops with KIND 2 and the report's cause, engine, queue, slot, address and details, or unwinds its
region when the report is of one and contained, and in a frozen core a report that no step has raised waits; on a core that is not frozen,
an unwind whose region has no operation left and nothing opened or retired enters the handler, with the registers, predicates, loop stack
and binding of CONTAIN, the cause word in s26 and the detail in s27, latches zero, no delay, and the region gone; a SEND that has waited for
the die's limit without a slot is given FULL. (R196, R198, R200, R201, R204, R205, R271) -/
def Obligations.EngineFaultsAndUnwinds : Prop :=
  (∀ (s : State) (q : Nat), coreFrozen s (coreOf q) = true → (∀ r ∈ (seqAt s q).reports, r.stepped = false) → exec (.engineFault q) s = .next s) ∧
  (∀ (s : State) (q : Nat) (r : EngineReport) (rest : List EngineReport), coreFrozen s (coreOf q) = false ∨ r.stepped = true → (seqAt s q).reports = r :: rest → (seqAt s q).status = .running →
    (seqAt s q).reissue = none →
    (r.region = 0 ∨ isContained r.cause = false → ∃ t st, exec (.engineFault q) s = .next t ∧ (seqAt t q).status = .faulted ∧ (seqAt t q).reports = rest ∧
      (seqAt t q).stop = some st ∧ st.kind = 2 ∧ st.cause = r.cause ∧ st.engine = r.engine ∧ st.cqn = r.cqn ∧ st.slot = r.slot ∧ st.baddr = r.baddr ∧
      st.aux0 = r.aux0 ∧ st.aux1 = r.aux1 ∧ st.cmask = 0xFF ∧ st.idx = r.idx ∧ st.op = some r.op) ∧
    (0 < r.region → r.region ≤ (seqAt s q).regions.length → isContained r.cause = true → ∃ t u, exec (.engineFault q) s = .next t ∧
      (seqAt t q).status = .unwinding ∧ (seqAt t q).unwind = some u ∧ u.depth = r.region ∧ (seqAt t q).regions.length = r.region ∧ t.mem = s.mem)) ∧
  (∀ (s : State) (q : Nat) (u : Unwind) (r : Region) (rest : List Region), coreFrozen s (coreOf q) = false → (seqAt s q).unwind = some u → (seqAt s q).regions = r :: rest →
    r.opened = [] → r.retired = [] → (seqAt s q).queue = [] → regionBusy s q u.depth = false → ∃ t, exec (.containedUnwind q) s = .next t ∧
      (seqAt t q).status = .running ∧ (seqAt t q).unwind = none ∧ (seqAt t q).pc = r.handler ∧ (seqAt t q).regions = rest ∧ (seqAt t q).delayCount = 0 ∧
      (seqAt t q).preds = r.preds ∧ (seqAt t q).loops = r.loops ∧ (seqAt t q).stage = r.stage ∧ (seqAt t q).latches = Vector.replicate 8 0 ∧
      vget 0 (seqAt t q).regs 26 = u.causeWord ∧ vget 0 (seqAt t q).regs 27 = u.detail ∧
      (∀ n < 32, n ≠ 26 → n ≠ 27 → vget 0 (seqAt t q).regs n = vget 0 r.regs n) ∧ t.mem = s.mem) ∧
  ∀ (s : State) (q : Nat), (dieAt s (dieOf q)).ringWait.toNat ≤ (seqAt s q).sendWait → waitingSend { s with cur := q } = true →
    exec (.sendFull q) s = .next (setSeq s q { seqAt s q with sendFull := true })

/-- For the sequencer that the register bus names: FREEZE sets its freeze, so that its core is frozen, and its registers stand; UNFREEZE clears
it. A resume of a faulted strand that has issued no EXIT and whose record reads back well leaves it running from what the record says:
queue, loop stack and latches; after an issue trap at BADDR, after a slot fault with the incomplete slots of the bundle to be reissued, and
after an engine fault with the command queued again, or, with SKIP, gone; the result of an atomic that arrived during the stop lands (R195).
A resume waits until the FAULT event of the stop is posted (log 146). A record that fails its checks leaves the strand faulted with RESFAIL.
While a strand holds a pseudo-channel of the record, the resume is asked for and waits (R275), and the strand's BUNDLE_ISSUE steps carry it
out (log 143); its read passes the forwarding buffers of uncached slices (R257). STEP acts only on a frozen sequencer, and grants the
operations then in flight on the core (one move for each of them is log 59); a sequencer whose next bundle is judged to issue issues that
one bundle as a tick, and one whose bundle is held passes one held cycle, without a tick, and sets STEPHELD; the core stays frozen. That the
record stands at the physical address SQFRA of the die's HBM is log 7. (R58, R194, R195, R196, R203, R204, R205, R257, R275, R295) -/
def Obligations.DebugBlock : Prop :=
  ∀ (s : State),
    let q := s.bus.unit
    let sq := seqAt s q
    let at_ := location (dieOf q) sq.sqfra.toNat
    let l := homeBytes s at_ 8960
    let s0 := passHome s at_ 8960
    (∃ t, exec .sqctlFreeze s = .next t ∧ (seqAt t q).freeze = true ∧ coreFrozen t (coreOf q) = true ∧ sameRegisters sq (seqAt t q) ∧ sameOthers q s t ∧
      t.mem = s.mem ∧ (coreAt t (coreOf q)).primaryMask = none) ∧
    (∃ t, exec .sqctlUnfreeze s = .next t ∧ (seqAt t q).freeze = false ∧ sameRegisters sq (seqAt t q) ∧ sameOthers q s t ∧ t.mem = s.mem) ∧
    (seqState s q ≠ 3 → exec .sqctlStep s = .next s) ∧
    (seqState s q = 3 → ∃ t, exec .sqctlStep s = .next t ∧
      (coreAt t (coreOf q)).granted = (s.ops.filter (fun o => coreOf o.seq == coreOf q)).map (fun o => o.id) ∧ t.cur = s.cur ∧
      let v := prepared { s with cur := q }
      (sq.status = .running → sq.unwind = none → sq.reports = [] → sq.reissue = none →
        (∀ b m, judge v = .issue b m →
          ∃ held, seqAt t q = { me (issueTick v b m) with stepHeld := held } ∧ t.mem = (issueTick v b m).mem ∧ t.ops = (issueTick v b m).ops ∧
            ((me (issueTick v b m)).ticks = sq.ticks + 1 → held = false)) ∧
        (∀ h, judge v = .held h → (seqAt t q).stepHeld = true ∧ (seqAt t q).ticks = sq.ticks ∧ sameRegisters (me v) (seqAt t q) ∧
          (seqAt t q).freeze = sq.freeze ∧ t.mem = s.mem ∧ t.ops = s.ops))) ∧
    ∀ (i : StopInfo) (skip : Bool), sq.status = .faulted → sq.stop = some i → sq.endPending = false →
      let go := exec (if skip then .sqctlResumeSkip else .sqctlResume) s
      (∀ e, sq.faultDue = some e →
        (eventReady s e = false ∨ eventRoom s (dieOf q) = false → go = .next (setSeq s q { sq with resumeAsked := some skip })) ∧
        (eventReady s e = true → eventRoom s (dieOf q) = true → (eventsAt (postFault s q e) (dieOf q)).count = (eventsAt s (dieOf q)).count + 1 ∧
          (seqAt (postFault s q e) q).faultDue = none ∧ go = exec (if skip then .sqctlResumeSkip else .sqctlResume) (postFault s q e))) ∧
      (sq.faultDue = none →
      (sq.resumeAsked = some skip → exec (.bundleIssue q) s = go) ∧
      ((∃ n < 8960, channelHeld s (at_ + n) = true) → go = .next (setSeq s q { sq with resumeAsked := some skip })) ∧
      ((∀ n < 8960, channelHeld s (at_ + n) = false) → readRecord l sq.queue sq.ticks = none →
        go = .next (setSeq s0 q { sq with resFail := true, resumeAsked := none })) ∧
      ∀ r, (∀ n < 8960, channelHeld s (at_ + n) = false) → readRecord l sq.queue sq.ticks = some r →
        let a := BitVec.ofNat 32 (headField r.header 352 32) &&& 0xFFFFFFE0
        let cm := BitVec.ofNat 8 (headField r.header 240 8)
        (i.kind = 1 → badMask s q a cm = true → go = .next (setSeq s0 q { sq with resFail := true, resumeAsked := none })) ∧
        ((i.kind = 1 → badMask s q a cm = false) → (i.kind = 2 → i.op = none) → ∃ t, go = .next t ∧ (seqAt t q).status = .running ∧ (seqAt t q).stop = none ∧ (seqAt t q).resumeAsked = none ∧
          (sq.arrived = [] → (seqAt t q).queue = r.queue) ∧ (seqAt t q).loops.length = headField r.header 220 3 ∧ (i.kind = 0 → (seqAt t q).pc = a) ∧
          (i.kind = 1 → (seqAt t q).reissue = some (a, cm)) ∧ t.mem = s.mem ∧ sameOthers q s t) ∧
        (∀ n o op d x y k v ord sc mode, sq.arrived = [n] → opAt s n = some o → o.seq = q → o.kind = .atomic op d x y k v ord sc mode → sq.unwind = none →
          (∀ f ∈ s.forwards, f.op ≠ n) → (i.kind = 1 → badMask s q a cm = false) → (i.kind = 2 → i.op = none) →
          let w : Word := (o.result.headD 0).setWidth 32
          ∃ t, go = .next t ∧ (seqAt t q).status = .running ∧ (seqAt t q).arrived = [] ∧ opAt t n = none ∧ vget 0 (seqAt t q).latches 5 = w ∧
            (d.toNat < 32 → isMapped sq d.toNat = false → vget 0 (seqAt t q).regs d.toNat = w) ∧
            (seqAt t q).busy.getLsbD (if d.toNat < 32 then d.toNat else 32) = false) ∧
        (∀ n o, i.kind = 2 → i.op = some n → opAt s n = some o → sq.arrived = [] → (skip = true → ∃ t, go = .next t ∧ opAt t n = none ∧ t.mem = s.mem) ∧
          (skip = false → (∃ c, o.kind = .array c) → ∃ t, go = .next t ∧ opAt t n = some { o with phase := .queued })))

/-- For every operation that its engine may move, with its accesses translated and on this package: a load's rows have, at each byte in view,
the byte that the package reads at its address, and zero elsewhere; when it completes, and with a scratchpad load and a tile write, exactly
the 64 rows of its tile are set. A store writes its bytes in view to their places: those homed on its die at once, the others forwarded to
their homes; no other byte of memory changes. A scratchpad store sets its rows of the scratchpad alone. (R173, R174, R158, R124, R176, R59,
R318, R320) -/
def Obligations.TileAccessesPerform : Prop :=
  ∀ (s : State) (o : Op), mayAct s o → mayPerform s o = true → requestsOf s o.id = [] → (∀ f ∈ s.forwards, f.op ≠ o.id) →
    let die := dieOf o.seq
    let k := coreOf o.seq
    let goes := fun (wr : Bool) (vas : List Nat) =>
      reach s o.id die o.asid wr vas = .ok ∧ bankHeld s die o.asid vas = false ∧ remoteDests s die o.asid wr vas = []
    let sets := fun (i : Instr) (t : Nat) (l : Nat → Row) => ∃ u, exec i s = .next u ∧ completes s u o o.flags ∧ u.mem = s.mem ∧
      (seqAt u o.seq).regs = (seqAt s o.seq).regs ∧ (∀ r < 64, tileRow (coreAt u k) t r = l r) ∧
      ∀ t' r, t' ≠ t → r < 64 → tileRow (coreAt u k) t' r = tileRow (coreAt s k) t' r
    (∀ (t : Nat) (rows : RowList) (v : View), o.phase = .queued → o.kind = .load t rows v → goes false (addrsOf s o.asid v (rowPositions v rows)) →
      readsWait s die o.asid v.scope.toNat (addrsOf s o.asid v (rowPositions v rows)) = false →
      ∃ u d, exec (.viewAccessPerform o.id) s = .next u ∧ opAt u o.id = some { o with phase := .performed, result := d, pins := [] } ∧
        u.mem = s.mem ∧ u.seqs = s.seqs ∧ u.cores = s.cores ∧ d.length = rows.length ∧ (∀ i : Nat, rows[i]? = some none → d[i]? = some 0) ∧
        ∀ i p j : Nat, rows[i]? = some (some p) → j < 256 → ∃ r, d[i]? = some r ∧ rowByte r j =
          if p * 256 + j < viewSize v then readVa s o.id die o.asid v.scope.toNat (posAddr s o.asid v (p * 256 + j)).toNat else 0) ∧
    (∀ (t : Nat) (rows : RowList) (v : View), o.phase = .performed → o.kind = .load t rows v → o.result.length = 64 →
      sets (.tileWriteComplete o.id) t (fun r => o.result.getD r 0)) ∧
    (∀ t a : Nat, o.phase = .queued → o.kind = .spadLoad t a → spadBehind s o = false →
      sets (.tileWriteComplete o.id) t (fun r => spadRow (coreAt s k) (a / 256 + r))) ∧
    (∀ (t : Nat) (tile : List Row), o.phase = .queued → o.kind = .tileSet t tile → tile.length = 64 →
      sets (.tileWriteComplete o.id) t (fun r => tile.getD r 0)) ∧
    (∀ (tile : List Row) (a : Nat), o.phase = .queued → o.kind = .spadStore tile a → spadBehind s o = false →
      ∃ u, exec (.viewAccessPerform o.id) s = .next u ∧ completes s u o o.flags ∧ u.mem = s.mem ∧ (seqAt u o.seq).regs = (seqAt s o.seq).regs ∧
        (coreAt u k).tiles = (coreAt s k).tiles ∧ (∀ r, r < tile.length → spadRow (coreAt u k) (a / 256 + r) = tile.getD r 0) ∧
        ∀ r, r < a / 256 ∨ a / 256 + tile.length ≤ r → spadRow (coreAt u k) r = spadRow (coreAt s k) r) ∧
    ∀ (tile : List Row) (rows : RowList) (v : View), o.phase = .queued → o.kind = .store tile rows v →
      let l := storeBytes s o tile rows v
      let cs := localCells s die o.asid l
      let away := forwardsOf o.id die s.nextOp cs
      goes true (l.map Prod.fst) → ∃ u, exec (.viewAccessPerform o.id) s = .next u ∧
        wrote (cs.filter (fun c => homeDie c.1 == some die)) s u ∧ u.forwards = s.forwards ++ away ∧ sameOthers o.seq s u ∧
        (seqAt u o.seq).regs = (seqAt s o.seq).regs ∧ (seqAt u o.seq).cstat = (seqAt s o.seq).cstat ||| o.flags ∧ u.cores = s.cores ∧
        (away = [] → opAt u o.id = none) ∧ ∀ p, opAt u o.id = some p → p.phase = .drained

/-- For every operation that its engine may move: COPY_START starts the copy at the head of its queue; the payload writes min(size) bytes, each
the byte of its source as it stood where no place is both source and destination, and no other byte; COPY_COMPLETE, once its writes and the
earlier ones have performed, and what R171 and R172 order before the copy has, writes the stamp's eight bytes (sequence number and status)
and nothing else, posts the event where EV asks, and reports a failed copy with the cause of its status and its queue, its stamp holding the
nonzero status that a WAITM of it faults on (STAMP_POISON). A copy from a poisoned view, of zero extent too, ends with status 4.
RETIRE_COMPLETE clears RETIRING and the directories' entry of the register and keeps every other view. (R125, R153, R165, R171, R172, R179,
R180, R181, R182, R201) -/
def Obligations.CopiesAndRetires : Prop :=
  ∀ (s : State) (o : Op), mayAct s o → requestsOf s o.id = [] → (∀ f ∈ s.forwards, f.op ≠ o.id) →
    let die := dieOf o.seq
    let goes := fun (wr : Bool) (vas : List Nat) => reach s o.id die o.asid wr vas = .ok ∧ remoteDests s die o.asid wr vas = []
    let stampPins := fun (vd : View) => if vd.stamp = 0xFFFFFFFF then [] else [vd.handle]
    (∀ (vd vs : View) (dr sr st : Nat) (n : Word) (c cq k : Nat) (ev : Bool), copyHead s k cq = some o → o.kind = .copy vd vs dr sr n c ev false st →
      o.phase = .queued → meetsScratch s o vd vs = false →
      exec (.copyStart k cq) s = .next (setOp s { o with kind := .copy vd vs dr sr n c ev true st })) ∧
    (∀ (vd vs : View) (dr sr st : Nat) (n : Word) (cq : Nat) (ev : Bool), o.kind = .copy vd vs dr sr n cq ev true st → o.phase = .queued →
      mayPerform s o = true → vs.poison = false →
      let m := min (viewSize vd) (viewSize vs)
      let sv := addrsOf s o.asid vs (List.range m)
      let dv := addrsOf s o.asid vd (List.range m)
      let place := fun (v : View) (wr : Bool) (l : Nat) => placeKey (xlateLate s die o.asid (posAddr s o.asid v l).toNat wr)
      0 < m → goes false sv → goes true dv → bankHeld s die o.asid (sv ++ dv) = false → readsWait s die o.asid vs.scope.toNat sv = false →
      (∃ u, exec (.viewAccessPerform o.id) s = .next u ∧
        opAt u o.id = some { o with kind := .copy vd vs dr sr n cq ev true 0, phase := .performed, pins := stampPins vd } ∧
        wrote ((localCells s die o.asid (copyBytes s o vd vs (List.range m))).filter (fun c => homeDie c.1 == some die)) s u ∧ u.seqs = s.seqs ∧ u.cores = s.cores) ∧
      ((∀ i j, i < m → j < m → place vs false i ≠ place vd true j) →
        ∀ l < m, (copyBytes s o vd vs (List.range m))[l]? = some ((posAddr s o.asid vd l).toNat, opRead s o vs l))) ∧
    (∀ (vd vs : View) (dr sr st : Nat) (n : Word) (cq : Nat) (ev : Bool), o.kind = .copy vd vs dr sr n cq ev true st → o.phase = .queued →
      mayPerform s o = true → vs.poison = true → ∃ u, exec (.viewAccessPerform o.id) s = .next u ∧
        opAt u o.id = some { o with kind := .copy vd vs dr sr n cq ev true 4, phase := .performed, pins := stampPins vd }) ∧
    (∀ (vd vs : View) (dr sr st : Nat) (n : Word) (cq : Nat) (started : Bool), o.phase = .performed → o.result = [] → performedAt s o vd.scope.toNat = true →
      writesBefore s o vd.scope.toNat = true → mayPerform s o = true →
      let a := (handleEntry s o.asid vd.handle).base + vd.stamp.toNat
      let bytes := (List.range 8).map (fun j => (a + j, (leBytes 8 (st * 2 ^ 32 + n.toNat)).getD j 0))
      let cs := localCells s die o.asid bytes
      (o.kind = .copy vd vs dr sr n cq false started 0 → vd.stamp = 0xFFFFFFFF → ∃ u, exec (.copyComplete o.id) s = .next u ∧ completes s u o o.flags ∧
        u.mem = s.mem) ∧
      (o.kind = .copy vd vs dr sr n cq false started 0 → st = 0 → vd.stamp ≠ 0xFFFFFFFF → goes true (bytes.map Prod.fst) →
        bankHeld s die o.asid (bytes.map Prod.fst) = false → ∃ u, exec (.copyComplete o.id) s = .next u ∧
          wrote (cs.filter (fun c => homeDie c.1 == some die)) s u ∧ (seqAt u o.seq).regs = (seqAt s o.seq).regs ∧ sameOthers o.seq s u ∧
          ∀ p, opAt u o.id = some p → p.phase = .drained) ∧
      (o.kind = .copy vd vs dr sr n cq true started 0 → vd.stamp = 0xFFFFFFFF → (eventsAt s die).count < 512 → (eventsAt s die).waiting = [] →
        ∃ u, exec (.copyComplete o.id) s = .next u ∧ completes s u o o.flags ∧ (eventsAt u die).count = (eventsAt s die).count + 1) ∧
      (o.kind = .copy vd vs dr sr n cq false started st → 0 < st → vd.stamp = 0xFFFFFFFF → (seqAt s o.seq).unwind = none →
        ∃ u, exec (.copyComplete o.id) s = .next u ∧ reported s u { o with pins := [], result := [0] } (copyCause st) 1 cq 0 ∧ u.mem = s.mem) ∧
      (o.kind = .copy vd vs dr sr n cq false started st → 0 < st → st < 2 ^ 32 → vd.stamp ≠ 0xFFFFFFFF → (seqAt s o.seq).unwind = none →
        goes true (bytes.map Prod.fst) → bankHeld s die o.asid (bytes.map Prod.fst) = false →
        natOfBytes (bytes.map Prod.snd) / 2 ^ 32 = st ∧ ∃ u, exec (.copyComplete o.id) s = .next u ∧
          reported s u { o with pins := [], result := [0] } (copyCause st) 1 cq 0 ∧ wrote (cs.filter (fun c => homeDie c.1 == some die)) s u)) ∧
    ∀ (reg : Nat) (v : View) (poison : Bool), o.kind = .retire reg v poison → o.phase = .queued → retireWaits s o reg v.scope.toNat = false → reg < 16 →
      ∃ u, exec (.retireComplete o.id) s = .next u ∧ completes s u o o.flags ∧ u.mem = s.mem ∧ (seqAt u o.seq).regs = (seqAt s o.seq).regs ∧
        viewAt (seqAt u o.seq) reg = { viewAt (seqAt s o.seq) reg with retiring := false, poison := (viewAt (seqAt s o.seq) reg).poison || poison } ∧
        (∀ r, r ≠ reg → viewAt (seqAt u o.seq) r = viewAt (seqAt s o.seq) r) ∧ ∀ d e, e ∈ flockAt u d → e.seq = some o.seq → e.reg ≠ reg

/-- For every operation that its engine may move: an atomic on a local word leaves there what R268 gives of the old word and its operands, keeps
the old word as its result with the flags (those of its rounding, of both halves for AFADDH, none for the others), and changes no other
byte; ALD and AST read and write the word; an element of an ARED adds its own. The result lands in its register and in b5 and clears the
mark; one that arrives during a stop is held for the resume (R195). A SEND whose operand has a reserved bit is reported with SEND_DENIED
(R271), also when it is performed again. One with a free slot fills the slot at TAIL; one whose ring is no longer its own is reported with
SEND_DENIED (R280; that a delivery may still find this is log 54), and one whose ring is suspended with the consumer's team waits (R307).
LINE_INVALIDATE performs a write of a proxy at its home, once none of the same proxy to the same home is before it and no strand holds its
pseudo-channel; until then nothing happens. An ALD of a mapped register reads it when it performs (R361, log 43). (R58, R195, R264, R265,
R268, R269, R271, R272, R275, R307, R320, R361) -/
def Obligations.AtomicsResultsAndMessages : Prop :=
  (∀ (a b c : Word) (m : BitVec 2),
    (atomicNew .add a b c m).1 = a + b ∧ (atomicNew .smin a b c m).1.toInt = min a.toInt b.toInt ∧ (atomicNew .smax a b c m).1.toInt = max a.toInt b.toInt ∧
    (atomicNew .umin a b c m).1.toNat = min a.toNat b.toNat ∧ (atomicNew .umax a b c m).1.toNat = max a.toNat b.toNat ∧
    (atomicNew .and a b c m).1 = a &&& b ∧ (atomicNew .or a b c m).1 = a ||| b ∧ (atomicNew .xor a b c m).1 = a ^^^ b ∧ (atomicNew .xchg a b c m).1 = b ∧
    (atomicNew .cas a b c m).1 = (if a = b then c else a) ∧ (atomicNew .incb a b c m).1 = (if a.toNat < b.toNat then a + 1 else a) ∧
    (∀ op, op ≠ .fadd → op ≠ .faddh → (atomicNew op a b c m).2 = 0) ∧
    (let sum := fun (k : Nat) => roundTo 2 m (addVal m (decodeFloat 2 (a.toNat / 2 ^ (16 * k) % 2 ^ 16)) (decodeFloat 2 (b.toNat / 2 ^ (16 * k) % 2 ^ 16)));
      (atomicNew .faddh a b c m).2 = (sum 0).2 ||| (sum 1).2) ∧
    atomicNew .fadd a b c m = (let r := roundTo 0 m (addVal m (decodeFloat 0 a.toNat) (decodeFloat 0 b.toNat)); (BitVec.ofNat 32 r.1, r.2)) ∧
    ∀ k < 2, (atomicNew .faddh a b c m).1.toNat / 2 ^ (16 * k) % 2 ^ 16 =
      (roundTo 2 m (addVal m (decodeFloat 2 (a.toNat / 2 ^ (16 * k) % 2 ^ 16)) (decodeFloat 2 (b.toNat / 2 ^ (16 * k) % 2 ^ 16)))).1) ∧
  (∀ (s : State) (o : Op), mayAct s o → o.phase = .queued → mayPerform s o = true →
    let die := dieOf o.seq
    let reaches := fun (vas : List Nat) (loc : Nat) => reach s o.id die o.asid true vas = .ok ∧ bankHeld s die o.asid vas = false ∧
      xlateLate s die o.asid (vas.headD 0) true = .at_ loc ∧ forwardsAhead s die loc = false
    (∀ (op : AtomicOp) (d : BitVec 6) (x y : Word) (i e loc : Nat) (v : View) (ord sc mode : BitVec 2), o.kind = .atomic op d x y i v ord sc mode →
      registerPlace s o i v = none → reaches (addrsOf s o.asid v ((List.range 4).map (fun j => 4 * i + j))) loc →
      (op ≠ .load → op ≠ .store → ∃ u, exec (.atomicBankOperation o.id e) s = .next u ∧
        u.mem = memPutBytes s.mem loc (leBytes 4 (atomicNew op (wordAtLoc s loc) x y mode).1.toNat) ∧ u.seqs = s.seqs ∧ u.cores = s.cores ∧
        opAt u o.id = some { o with
          phase := .performed, flags := (atomicNew op (wordAtLoc s loc) x y mode).2, result := [(wordAtLoc s loc).setWidth 2048], pins := [] }) ∧
      (op = .load → homeDie loc = some die → homeDie (loc + 3) = some die → ∃ u, exec (.atomicBankOperation o.id e) s = .next u ∧ u.mem = s.mem ∧ u.seqs = s.seqs ∧
        opAt u o.id = some { o with phase := .performed, flags := 0, result := [(wordAtLoc s loc).setWidth 2048], pins := [] }) ∧
      (op = .store → homeDie loc = some die → homeDie (loc + 3) = some die → (∀ f ∈ s.forwards, f.op ≠ o.id) →
        ∃ u, exec (.atomicBankOperation o.id e) s = .next u ∧ completes s u o 0 ∧
          (∀ j < 4, memByte u.mem (loc + j) = BitVec.ofNat 8 (x.toNat / 256 ^ j)) ∧ ∀ a, a < loc ∨ loc + 4 ≤ a → memByte u.mem a = memByte s.mem a)) ∧
    (∀ (d : BitVec 6) (x y : Word) (i e r a : Nat) (v : View) (ord sc mode : BitVec 2), o.kind = .atomic .load d x y i v ord sc mode →
      registerPlace s o i v = some (r, a) → ∃ u, exec (.atomicBankOperation o.id e) s = .next u ∧ u.mem = s.mem ∧
        opAt u o.id = some { o with
          phase := .performed, flags := 0, result := [(BitVec.ofNat 32 (readRegister s r (a / 8 * 8) / 2 ^ (a % 8 * 8))).setWidth 2048], pins := [] }) ∧
    (∀ (tile : List Row) (first k loc : Nat) (v : View) (mode : BitVec 2) (left : List Nat), o.kind = .ared tile first v mode left → k ∈ left →
      reaches (addrsOf s o.asid v ((List.range 4).map (fun j => (first + k / 64) * 256 + 4 * (k % 64) + j))) loc →
      let x : Word := BitVec.ofNat 32 (elemAt 0 (tile.getD (k / 64) 0) (k % 64))
      ∃ u, exec (.atomicBankOperation o.id k) s = .next u ∧
        u.mem = memPutBytes s.mem loc (leBytes 4 (atomicNew .fadd (wordAtLoc s loc) x 0 mode).1.toNat) ∧ sameOthers o.seq s u ∧
        ∀ p, opAt u o.id = some p → p.phase = .queued → p.kind = .ared tile first v mode (left.filter (fun j => j != k))) ∧
    ∀ (row : Row) (a : Word), o.kind = .send row a → sendBehind s o a = false → meshBehind s o a = false → writesBefore s o (meetScope o.seq a (sendsHere s a)) = true →
      sendsHere s a = true → (∀ f ∈ s.forwards, f.op ≠ o.id) →
      let x := sendTarget a
      let r := tget Ring.reset (coreAt s x.1).rings x.2
      let plain := a.toNat / 2 ^ 26 % 32 = 0
      (¬ plain → (seqAt s o.seq).unwind = none → ∃ u, exec (.messageDelivery o.id) s = .next u ∧ reported s u o 0x3F 0 0 0 ∧ u.cores = s.cores ∧ u.mem = s.mem) ∧
      (plain → ringMine s o.seq r = true → r.count ≤ r.nslot.toNat → ∃ u, exec (.messageDelivery o.id) s = .next u ∧ completes s u o o.flags ∧ u.mem = s.mem ∧
        tget Ring.reset (coreAt u x.1).rings x.2 = { r with tail := (r.tail + 1) % (r.nslot.toNat + 1), count := r.count + 1 } ∧
        spadRow (coreAt u x.1) ((ringSlot r r.tail).toNat / 256) = row ∧ (coreAt u x.1).tiles = (coreAt s x.1).tiles ∧
        ∀ n, n ≠ (ringSlot r r.tail).toNat / 256 → spadRow (coreAt u x.1) n = spadRow (coreAt s x.1) n) ∧
      (plain → ringMine s o.seq r = false → ringSuspended s o.seq a = true → exec (.messageDelivery o.id) s = .next s) ∧
      (plain → ringMine s o.seq r = false → ringSuspended s o.seq a = false → (seqAt s o.seq).unwind = none → ∃ u, exec (.messageDelivery o.id) s = .next u ∧ reported s u o 0x3F 0 0 0 ∧
        u.cores = s.cores ∧ u.mem = s.mem)) ∧
  (∀ (s : State) (o : Op) (op : AtomicOp) (d : BitVec 6) (x y : Word) (i : Nat) (v : View) (ord sc mode : BitVec 2), mayAct s o → o.phase = .performed →
    o.kind = .atomic op d x y i v ord sc mode → (seqAt s o.seq).status ≠ .faulted → (seqAt s o.seq).unwind = none → (∀ f ∈ s.forwards, f.op ≠ o.id) →
    let w : Word := (o.result.headD 0).setWidth 32
    let n := d.toNat % 32
    ∃ u, exec (.variableResultArrival o.id) s = .next u ∧ completes s u o o.flags ∧ u.mem = s.mem ∧ vget 0 (seqAt u o.seq).latches 5 = w ∧
      (d.toNat < 32 → isMapped (seqAt s o.seq) n = false → vget 0 (seqAt u o.seq).regs n = w) ∧
      (∀ k, k ≠ n ∨ 32 ≤ d.toNat → vget 0 (seqAt u o.seq).regs k = vget 0 (seqAt s o.seq).regs k) ∧
      (seqAt u o.seq).busy.getLsbD (if d.toNat < 32 then n else 32) = false) ∧
  (∀ (s : State) (o : Op) (op : AtomicOp) (d : BitVec 6) (x y : Word) (i : Nat) (v : View) (ord sc mode : BitVec 2), mayAct s o → o.phase = .performed →
    o.kind = .atomic op d x y i v ord sc mode → (seqAt s o.seq).status = .faulted → o.id ∉ (seqAt s o.seq).arrived →
    exec (.variableResultArrival o.id) s = .next (setSeq s o.seq { seqAt s o.seq with arrived := (seqAt s o.seq).arrived ++ [o.id] })) ∧
  ∀ (s : State) (f : Forward), f ∈ s.forwards → (∀ g ∈ s.forwards, g.id = f.id → g = f) →
    (forwardBehind s f = true ∨ forwardHeld s f = true → exec (.lineInvalidate f.id) s = .next s) ∧
    (forwardBehind s f = false → forwardHeld s f = false → (∀ o, opAt s f.op = some o → o.phase ≠ .drained) →
      ∃ u, exec (.lineInvalidate f.id) s = .next u ∧ u.mem = memPutCells s.mem f.cells ∧
        u.forwards = s.forwards.filter (fun g => g.id != f.id) ∧ u.seqs = s.seqs ∧ u.ops = s.ops ∧ u.cores = s.cores)

/-- For every quad: a waiting core is granted a free lease with fresh bounds, and a held lease is granted to nobody, nor a free one while a
strand holds a pseudo-channel of the array state that the handover reads (R275); at its bound the lease passes to the next waiting core, or
stays with fresh bounds, but never inside a command. A command of the core that holds the lease, within its bounds and free to perform,
leaves the array that its effect gives, writes the elements of its tile, counts, and completes with its flags; one that fails is reported
with its cause, the array as it was (a shape with row and column 0 and its lowest detail: the model's reading, logs 103 and 104), and so is
every command but MSWAP and ACCZERO, with ENG_UNCORR, while the array's storage holds an uncorrectable error (log 73). LEASE and LREL take
and give up the lease; LREL at a core without it changes nothing of the quad. MSWAP swaps the planes, ACCZERO leaves zero words that pass
their check. Residue words of the range hold their integers and add exactly. MM adds to each word of its windows, for an integer format the
exact sum of products of its codes, for a floating one the sum of its cells' floored products, clamped where AMODE says so, with NX, OF and
NV; a cell that is wide, infinite or NaN and not clamped is ACC_WIDE, and a row without headroom ACC_HEADROOM. MMCMP adds the ranks. MSTAT
writes the shadow plane, transposed with TRB. ACCLD enters the values of its tile, ACCNORM rounds the words to nearest even, FOLD brings
them into INT32, and ACCDRAIN gives the elements of its tile: the word scaled, biased and rounded once into the format. Each sets or keeps
the checksums as its rule says; where a row's CK disagrees with its words, ACCLD, ACCNORM, ACCDRAIN, FOLD and ACCCHK name the first such row
with ACC_CHECK, and ACCCHK has no other effect. Rows outside the window, columns outside the column window and the other accumulators stand.
(R109, R211, R212, R213, R215, R220, R222, R223, R226, R232, R275, 09_quad_array) -/
def Obligations.LeasesAndArrayCommands : Prop :=
  (∀ a b : Int, (-274877902848 ≤ a → a < 274877902848 → fromResidue (toResidue a) = a) ∧ residueAdd (toResidue a) (toResidue b) = toResidue (a + b)) ∧
  (∀ (x : ArrayState) (f : List Row) (k r c : Nat), runArray x f .mswap = .ok ({ x with active := x.shadow, shadow := x.active }, 0, []) ∧
    (k < 8 → r < 64 → ∃ y, runArray x f (.acczeroInt k) = .ok (y, 0, []) ∧ (accAt y k).integer = true ∧ accWord (accAt y k) r c = 0 ∧
      checkOk (accAt y k) r = true ∧ accHead (accAt y k) r = 65536 ∧ y.active = x.active ∧ ∀ j, j ≠ k → accAt y j = accAt x j) ∧
    ∀ e, k < 8 → r < 64 → ∃ y, runArray x f (.acczeroFp k e) = .ok (y, 0, []) ∧ (accAt y k).integer = false ∧ accWord (accAt y k) r c = 0 ∧
      checkOk (accAt y k) r = true ∧ accHead (accAt y k) r = 512 ∧ accExp (accAt y k) r = e ∧ y.active = x.active ∧ ∀ j, j ≠ k → accAt y j = accAt x j) ∧
  (∀ (a : Acc) (r : Nat),
    (a.integer = false → (checkOk a r = true ↔ (tget 0 a.ck r).toNat = ((List.range 128).map (fun c => (accWord a r c).toNat)).sum % 2 ^ 32)) ∧
    (a.integer = true → (checkOk a r = true ↔ residues ((tget 0 a.ck r).setWidth 64) = (((List.range 128).map (fun c => (residues (accWord a r c)).1)).sum % 8191,
      ((List.range 128).map (fun c => (residues (accWord a r c)).2.1)).sum % 8192, ((List.range 128).map (fun c => (residues (accWord a r c)).2.2)).sum % 8193)))) ∧
  (∀ (m : RMode) (n sh : Int),
    let q := scaleInt m n sh
    let d : Int := 2 ^ sh.toNat
    let off := n - q * d
    (sh ≤ 0 → q = n * 2 ^ (-sh).toNat) ∧ (0 < sh → -d < off ∧ off < d ∧ (m = 2 → 0 ≤ off) ∧ (m = 3 → off ≤ 0) ∧
      (m = 1 → (0 ≤ n → 0 ≤ off ∧ 0 ≤ q) ∧ (n ≤ 0 → off ≤ 0 ∧ q ≤ 0)) ∧
      (m = 0 → -d ≤ 2 * off ∧ 2 * off ≤ d ∧ (2 * off = d ∨ 2 * off = -d → q % 2 = 0)))) ∧
  (∀ (x : ArrayState) (k : Nat) (p : Plane) (tile : List Row), k < 8 →
    let A := accAt x k
    let win := fun (r : Nat) => p.row0 ≤ r ∧ r < p.row0 + p.mrows
    let col := fun (c : Nat) => p.col0 ≤ c ∧ c < p.col0 + p.ncols
    let fails := fun (cmd : ArrayCmd) (cause detail row c : Nat) => runArray x [] cmd = .error { cause := cause, detail := detail, row := row, col := c }
    let first := fun (P : Nat → Prop) (r : Nat) => win r ∧ P r ∧ ∀ q, win q → q < r → ¬ P q
    let only := fun (y : ArrayState) => y.active = x.active ∧ y.shadow = x.shadow ∧ (∀ j < 8, j ≠ k → accAt y j = accAt x j) ∧
      (accAt y k).integer = A.integer ∧ ∀ r < 64, ¬ win r → (∀ c < 128, accWord (accAt y k) r c = accWord A r c) ∧
        accHead (accAt y k) r = accHead A r ∧ accExp (accAt y k) r = accExp A r ∧ tget 0 (accAt y k).ck r = tget 0 A.ck r
    let adds := fun (y : ArrayState) (cost : Nat) (add : BitVec 64 → Nat → Nat → BitVec 64) => only y ∧ ∀ r, win r →
      accHead (accAt y k) r = accHead A r - cost ∧ accExp (accAt y k) r = accExp A r ∧ (checkOk A r = true → checkOk (accAt y k) r = true) ∧
      (∀ j < p.ncols, accWord (accAt y k) r (p.col0 + j) = add (accWord A r (p.col0 + j)) r j) ∧
      ∀ c < 128, ¬ col c → accWord (accAt y k) r c = accWord A r c
    let floor := fun (g : Int) (v : Val) => (match v with
      | .fin n m e => let z : Int := if n then -(m : Int) else m; if g ≤ e then z * 2 ^ (e - g).toNat else z / 2 ^ (g - e).toNat
      | _ => 0 : Int)
    let lost := fun (g : Int) (v : Val) => ∃ n m e, v = .fin n m e ∧ e < g ∧ m % 2 ^ (g - e).toNat ≠ 0
    let clamp := fun (z : Int) => min (2 ^ 47 - 1) (max (-(2 ^ 47)) z)
    let wide := fun (z : Int) => z < -(2 ^ 47) ∨ 2 ^ 47 - 1 < z
    let clamps := p.amode / 2 % 2 = 1
    let int32 := fun (z : Int) => if p.amode % 2 = 1 then min (2 ^ 31 - 1) (max (-(2 ^ 31)) z) else (z + 2 ^ 31) % 2 ^ 32 - 2 ^ 31
    let cut := fun (z : Int) => p.amode % 2 = 1 ∧ int32 z ≠ z
    (64 < p.row0 + p.mrows → ∀ fmt sc hi n t ps clr mode, ∀ cmd ∈ [ArrayCmd.mm k tile p fmt sc, .mmcmp k tile p fmt, .accld k tile p fmt hi, .accnorm k n p,
      .accdrain k t p fmt ps hi clr mode, .fold k p], fails cmd 0x3B 1 0 0) ∧
    (p.row0 + p.mrows ≤ 64 → 128 < p.col0 + p.ncols → ∀ fmt sc hi t ps clr mode, ∀ cmd ∈ [ArrayCmd.mm k tile p fmt sc, .mmcmp k tile p fmt, .accld k tile p fmt hi,
      .accdrain k t p fmt ps hi clr mode], fails cmd 0x3B 2 0 0) ∧
    ((∀ r < 64, checkOk A r = true) → runArray x [] (.accchk k) = .ok (x, 0, [])) ∧
    (∀ r < 64, checkOk A r = false → (∀ q < r, checkOk A q = true) → fails (.accchk k) 0x3A 0 r 0) ∧
    (∀ (fmt : Nat) (rows : List Row),
      (p.trb = 1 → fmt ≠ 1 → fmt ≠ 2 → fails (.mstat rows p fmt) 0x3B 6 0 0) ∧
      (p.trb ≠ 1 ∨ fmt = 1 ∨ fmt = 2 → ∃ y, runArray x [] (.mstat rows p fmt) = .ok (y, 0, []) ∧ y.active = x.active ∧ y.accs = x.accs ∧ y.shadow.fmt = fmt ∧
        (p.trb ≠ 1 → ∀ n < 128, n < rows.length → tget 0 y.shadow.rows n = rows.getD n 0) ∧
        (p.trb = 1 → ∀ n i, n < 128 → i < 128 → elemAt fmt (tget 0 y.shadow.rows n) i = elemAt fmt (rows.getD i 0) n))) ∧
    (p.row0 + p.mrows ≤ 64 → p.col0 + p.ncols ≤ 128 →
      (∀ (fmt : Nat) (sc : Option (List (BitVec 16))),
        let run := runArray x [] (.mm k tile p fmt sc)
        let A_ := fun (r i : Nat) => elemAt fmt (tile.getD r 0) i
        let B_ := fun (j i : Nat) => elemAt fmt (tget 0 x.active.rows j) i
        let w := fmtWidth fmt
        let limit := if fmt = 1 ∨ fmt = 2 then 128 else if fmt = 7 then 512 else 256
        let fits := if fmt < 8 then x.active.fmt = fmt else fmtWidth x.active.fmt = w
        (limit < p.kdep → fails (.mm k tile p fmt sc) 0x3B 3 0 0) ∧ (p.kdep ≤ limit → ¬ fits → fails (.mm k tile p fmt sc) 0x3B 4 0 0) ∧
        (p.kdep ≤ limit → fits → A.integer = decide (fmt < 8) → fails (.mm k tile p fmt sc) 0x3B 5 0 0) ∧
        (p.kdep ≤ limit → fits → 8 ≤ fmt → A.integer = true →
          let el := fun (signed : Nat) (c : Nat) => (if signed % 2 = 1 ∧ 2 ^ (w - 1) ≤ c then (c : Int) - 2 ^ w else c : Int)
          let cost := if w = 4 then 1 else if p.sgn = 3 then 1 else if p.sgn = 0 then 4 else 2
          let dot := fun (r j : Nat) => ((List.range p.kdep).map (fun i => el p.sgn (A_ r i) * el (p.sgn / 2) (B_ j i))).sum
          (∀ r, first (fun q => accHead A q ≤ cost) r → fails (.mm k tile p fmt sc) 0x38 0 r 0) ∧
          ((∀ r, win r → cost < accHead A r) → ∃ y, run = .ok (y, 0, []) ∧ adds y cost (fun old r j => residueAdd old (toResidue (dot r j))))) ∧
        (p.kdep ≤ limit → fits → fmt < 8 → A.integer = false →
          let prod := fun (r j u : Nat) =>
            let v := mulVal (decodeFloat fmt (A_ r u)) (decodeFloat fmt (B_ j u))
            match sc with
            | none => v
            | some l => mulVal v (decodeFloat 2 (l.getD (u / 128) 0).toNat)
          let g := fun (r : Nat) => (accExp A r).toInt
          let n := if fmt = 1 ∨ fmt = 2 then 1 else if fmt = 7 then 4 else 2
          let cells := (p.kdep + n - 1) / n
          let cell := fun (i : Nat) => ((List.range n).map (fun u => n * i + u)).filter (fun u => decide (u < p.kdep))
          let count := fun (r j i : Nat) (v : Val) => (((cell i).filter (fun u => decide (prod r j u = v))).length : Int)
          let total := fun (r j i : Nat) => ((cell i).map (fun u => floor (g r) (prod r j u))).sum + 2 ^ 47 * (count r j i (.inf false) - count r j i (.inf true))
          let nan := fun (r j i : Nat) => ∃ u ∈ cell i, ∃ s, prod r j u = .nan s
          let plain := fun (r j i : Nat) => ¬ wide (total r j i) ∧ ∀ u ∈ cell i, ∃ s m e, prod r j u = .fin s m e
          let inside := fun (r j i : Nat) => win r ∧ j < p.ncols ∧ i < cells
          (∀ r, first (fun q => accHead A q = 0) r → fails (.mm k tile p fmt sc) 0x38 0 r 0) ∧
          ((∀ r, win r → accHead A r ≠ 0) →
            (¬ clamps → (∃ r j i, inside r j i ∧ ¬ plain r j i) → ∃ r c, win r ∧ col c ∧ fails (.mm k tile p fmt sc) 0x39 0 r c) ∧
            (clamps ∨ (∀ r j i, inside r j i → plain r j i) → ∃ y fl, run = .ok (y, fl, []) ∧
              adds y 1 (fun old r j => old + BitVec.ofInt 64 ((List.range cells).map (fun i => clamp (total r j i))).sum) ∧
              (fl &&& flagNX ≠ 0 ↔ ∃ r j u, win r ∧ j < p.ncols ∧ u < p.kdep ∧ lost (g r) (prod r j u)) ∧
              (fl &&& flagOF ≠ 0 ↔ ∃ r j i, inside r j i ∧ wide (total r j i)) ∧
              (fl &&& flagNV ≠ 0 ↔ ∃ r j i, inside r j i ∧ (nan r j i ∨ 0 < count r j i (.inf false) ∧ 0 < count r j i (.inf true))) ∧
              fl &&& ~~~(flagNX ||| flagOF ||| flagNV) = 0)))) ∧
      (∀ (fmt : Nat), A.integer = true → p.kdep ≤ 128 → p.ncols ≤ p.kdep →
        let el := fun (r i : Nat) => elemAt fmt (tile.getD r 0) i
        let rank := fun (r j : Nat) => ((List.range p.kdep).filter (fun i => scoreGt fmt (el r i) (el r j) || (scoreEq fmt (el r i) (el r j) && decide (i < j)))).length
        (∀ r, first (fun q => accHead A q ≤ 1) r → fails (.mmcmp k tile p fmt) 0x38 0 r 0) ∧
        ((∀ r, win r → 1 < accHead A r) → ∃ y, runArray x [] (.mmcmp k tile p fmt) = .ok (y, 0, []) ∧
          adds y 1 (fun old r j => residueAdd old (toResidue (rank r j)))) ∧
        ∀ a b, (8 ≤ fmt → scoreGt fmt a b = decide (decodeInt fmt b < decodeInt fmt a) ∧ scoreEq fmt a b = decide (decodeInt fmt a = decodeInt fmt b)) ∧
          (fmt < 8 → let u := decodeFloat fmt a; let v := decodeFloat fmt b
            (isNan u = true → scoreGt fmt a b = false ∧ scoreEq fmt a b = isNan v) ∧ (isNan u = false → isNan v = true → scoreGt fmt a b = true ∧ scoreEq fmt a b = false) ∧
            (isNan u = false → isNan v = false → scoreGt fmt a b = ltVal v u ∧ scoreEq fmt a b = eqVal u v))) ∧
      (∀ (fmt : Nat) (hi : Bool), fmt = 0 ∨ fmt = 8 → A.integer = decide (fmt = 8) →
        let v := fun (r c : Nat) => elemAt fmt (tile.getD r 0) (c % 64)
        let enters := fun (c : Nat) => col c ∧ (c / 64 = 1 ↔ hi = true)
        let value := fun (r c : Nat) => match decodeFloat 0 (v r c) with
          | .inf s => if s then -(2 ^ 47) else 2 ^ 47
          | z => floor (accExp A r).toInt z
        let plain := fun (r c : Nat) => ¬ wide (value r c) ∧ ∃ s m e, decodeFloat 0 (v r c) = .fin s m e
        (∀ r, first (fun q => checkOk A q = false) r → fails (.accld k tile p fmt hi) 0x3A 0 r 0) ∧
        ((∀ r, win r → checkOk A r = true) →
          (fmt = 0 → ¬ clamps → (∃ r c, win r ∧ enters c ∧ ¬ plain r c) → ∃ r c, win r ∧ enters c ∧ fails (.accld k tile p fmt hi) 0x39 0 r c) ∧
          (fmt = 8 ∨ clamps ∨ (∀ r c, win r → enters c → plain r c) → ∃ y fl, runArray x [] (.accld k tile p fmt hi) = .ok (y, fl, []) ∧ only y ∧
            (∀ r, win r → accHead (accAt y k) r = min (accHead A r) (if fmt = 8 then 65024 else 511) ∧ checkOk (accAt y k) r = true ∧
              accExp (accAt y k) r = accExp A r ∧ (∀ c < 128, ¬ enters c → accWord (accAt y k) r c = accWord A r c) ∧
              ∀ c < 128, enters c → accWord (accAt y k) r c = if fmt = 8 then toResidue (decodeInt 8 (v r c)) else BitVec.ofInt 64 (clamp (value r c))) ∧
            (fmt = 8 → fl = 0) ∧ (fmt = 0 → (fl &&& flagNX ≠ 0 ↔ ∃ r c, win r ∧ c < 128 ∧ enters c ∧ lost (accExp A r).toInt (decodeFloat 0 (v r c))) ∧
              (fl &&& flagOF ≠ 0 ↔ ∃ r c, win r ∧ c < 128 ∧ enters c ∧ wide (value r c)) ∧
              (fl &&& flagNV ≠ 0 ↔ ∃ r c, win r ∧ c < 128 ∧ enters c ∧ isNan (decodeFloat 0 (v r c)) = true))))) ∧
      (∀ (t fmt : Nat) (ps : Option (List Row)) (hi clr : Bool) (mode : BitVec 2),
        let param := fun (row place : Nat) (plain : Nat) => match ps with
          | none => plain
          | some l => elemAt 8 (l.getD row 0) place
        let MUL := fun (c : Nat) => param (c / 64) (c % 64) (if A.integer then 1 else 0x3F800000)
        let BIAS := fun (c : Nat) => param (3 + c / 64) (c % 64) 0
        let SH := fun (c : Nat) => (match ps with
          | none => 0
          | some l => decodeInt 9 (elemAt 9 (l.getD 2 0) c) : Int)
        let code := fun (r c : Nat) =>
          if A.integer then
            let s := fromResidue (accWord A r c)
            let y := scaleInt mode (int32 s * decodeInt 8 (MUL c)) (SH c) + decodeInt 8 (BIAS c)
            if fmt < 8 then roundTo fmt mode (valOfInt y) else satInt fmt y
          else
            let m := (accWord A r c).toInt
            let y := fmaVal mode (.fin (decide (m < 0)) m.natAbs ((accExp A r).toInt - SH c)) (decodeFloat 0 (MUL c)) (decodeFloat 0 (BIAS c))
            if fmt < 8 then roundTo fmt mode y else roundToInt fmt mode y
        let drained := fun (c : Nat) => col c ∧ (fmtWidth fmt = 32 → (c / 64 = 1 ↔ hi = true))
        (∀ r, first (fun q => checkOk A q = false) r → fails (.accdrain k t p fmt ps hi clr mode) 0x3A 0 r 0) ∧
        ((∀ r, win r → checkOk A r = true) → ∃ y fl l, runArray x [] (.accdrain k t p fmt ps hi clr mode) = .ok (y, fl, l) ∧ only y ∧
          l.map Prod.fst = (List.range p.mrows).map (fun j => p.row0 + j) ∧
          (∀ (r : Nat) (cs : List (Nat × Nat)) (row : Row) (e : Nat), (r, cs) ∈ l → e < fmtCount fmt →
            let c := if fmtWidth fmt = 32 ∧ hi = true then 64 + e else e
            (drained c → elemAt fmt (putCodes fmt cs row) e = (code r c).1 % 2 ^ fmtWidth fmt) ∧ (¬ drained c → elemAt fmt (putCodes fmt cs row) e = elemAt fmt row e)) ∧
          (∀ i < 5, fl.getLsbD i = true ↔ ∃ r c, win r ∧ drained c ∧ ((code r c).2.getLsbD i = true ∨
            (i = 2 ∧ A.integer = true ∧ cut (fromResidue (accWord A r c))))) ∧
          ∀ r, win r → accExp (accAt y k) r = accExp A r ∧ checkOk (accAt y k) r = true ∧
            accHead (accAt y k) r = (if clr then (if A.integer then 65536 else 512) else accHead A r) ∧
            ∀ c < 128, accWord (accAt y k) r c = if clr then 0 else accWord A r c))) ∧
    (p.row0 + p.mrows ≤ 64 →
      (A.integer = false → ∀ n < 64,
        let m := fun (r c : Nat) => (accWord A r c).toInt
        (∀ r, first (fun q => checkOk A q = false) r → fails (.accnorm k n p) 0x3A 0 r 0) ∧
        ((∀ r, win r → checkOk A r = true) →
          (∀ r, first (fun q => 32767 < (accExp A q).toInt + n) r → fails (.accnorm k n p) 0x3B 7 r 0) ∧
          ((∀ r, win r → (accExp A r).toInt + n ≤ 32767) → ∃ y fl, runArray x [] (.accnorm k n p) = .ok (y, fl, []) ∧ only y ∧
            (fl = 0 ∨ fl = flagNX) ∧ (fl = flagNX ↔ ∃ r c, win r ∧ c < 128 ∧ m r c % 2 ^ n ≠ 0) ∧
            ∀ r, win r → (accExp (accAt y k) r).toInt = (accExp A r).toInt + n ∧ checkOk (accAt y k) r = true ∧
              (∀ c < 128, let q := (accWord (accAt y k) r c).toInt
                2 * (m r c - q * 2 ^ n) ≤ 2 ^ n ∧ -(2 ^ n) ≤ 2 * (m r c - q * 2 ^ n) ∧ (q % 2 = 0 ∨ 2 * (m r c - q * 2 ^ n) < 2 ^ n ∧ -(2 ^ n) < 2 * (m r c - q * 2 ^ n))) ∧
              ∃ c < 128, (∀ d < 128, (accWord (accAt y k) r d).toInt.natAbs ≤ (accWord (accAt y k) r c).toInt.natAbs) ∧
                accHead (accAt y k) r = min 512 ((2 ^ 63 - (accWord (accAt y k) r c).toInt.natAbs) / 2 ^ 54)))) ∧
      (A.integer = true →
        (∀ r, first (fun q => checkOk A q = false) r → fails (.fold k p) 0x3A 0 r 0) ∧
        ((∀ r, win r → checkOk A r = true) → ∃ y fl, runArray x [] (.fold k p) = .ok (y, fl, []) ∧ only y ∧
          (fl = 0 ∨ fl = flagOF) ∧ (fl = flagOF ↔ ∃ r c, win r ∧ c < 128 ∧ cut (fromResidue (accWord A r c))) ∧
          ∀ r, win r → accHead (accAt y k) r = 65024 ∧ accExp (accAt y k) r = accExp A r ∧ checkOk (accAt y k) r = true ∧
            ∀ c < 128, accWord (accAt y k) r c = toResidue (int32 (fromResidue (accWord A r c))))))) ∧
  ∀ (s : State) (quad c : Nat),
    let x := quadAt s quad
    let fresh := fun (u : State) (d : Nat) => (quadAt u quad).holder = some d ∧ (quadAt u quad).commands = 0 ∧ (quadAt u quad).cycles = 0 ∧
      u.seqs = s.seqs ∧ u.cores = s.cores ∧ u.ops = s.ops
    (c < 4 → x.holder = none → leaseWaits s quad c = true → handoverHeld s quad c = false → ∃ u, exec (.leaseGrant quad c) s = .next u ∧ fresh u c) ∧
    (x.holder ≠ none ∨ handoverHeld s quad c = true → exec (.leaseGrant quad c) s = .next s) ∧
    (x.holder = some c → commandUnderWay s quad c = true → exec (.leaseBoundExpiry quad) s = .next s) ∧
    (x.holder = some c → boundReached x = true → commandUnderWay s quad c = false → arrayStuck s quad c = false → coreFrozen s (quad * 4 + c) = false →
      (∀ d, nextWaiting s quad c = some d → (handoverHeld s quad d = false → ∃ u, exec (.leaseBoundExpiry quad) s = .next u ∧ fresh u d) ∧
        (handoverHeld s quad d = true → exec (.leaseBoundExpiry quad) s = .next s)) ∧
      (nextWaiting s quad c = none → exec (.leaseBoundExpiry quad) s = .next (setQuad s quad { x with commands := 0, cycles := 0 }))) ∧
    ∀ o, (arrayQueue s (quad * 4 + c)).head? = some o → mayAct s o → o.phase = .queued → (∀ f ∈ s.forwards, f.op ≠ o.id) → c < 4 →
      let run := exec (.arrayCommandRun quad c) s
      let k := coreOf o.seq
      (o.kind = .array .lrel → ∃ u, run = .next u ∧ opAt u o.id = none ∧ u.cores = s.cores ∧ (quadAt u quad).holder ≠ some c ∧
        (x.holder = some c → vget false (quadAt u quad).explicit c = false) ∧ (x.holder ≠ some c → quadAt u quad = x)) ∧
      (x.holder = some c → boundReached x = false → mayPerform s o = true →
        (o.kind = .array .lease → ∃ u, run = .next u ∧ completes s u o o.flags ∧ vget false (quadAt u quad).explicit c = true ∧
          (quadAt u quad).holder = some c ∧ u.cores = s.cores ∧ u.mem = s.mem) ∧
        ∀ cmd, o.kind = .array cmd → cmd ≠ .lease → cmd ≠ .lrel → (∀ h b p f, cmd ≠ .mstatFetch h b p f) →
          let broken := s.damaged.contains (arrayStorage quad) && (match cmd with
            | .mswap => false
            | .acczeroFp _ _ => false
            | .acczeroInt _ => false
            | _ => true)
          (broken = false → ∀ y fl l, runArray x.array [] cmd = .ok (y, fl, l) → ∃ u, run = .next u ∧ completes s u o fl ∧ (quadAt u quad).array = y ∧
            (quadAt u quad).commands = x.commands + 1 ∧ u.mem = s.mem ∧ (seqAt u o.seq).regs = (seqAt s o.seq).regs ∧ (l = [] → u.cores = s.cores) ∧
            ∀ r cs, l = [(r, cs)] → tileRow (coreAt u k) (drainTile cmd).1 r = putCodes (drainTile cmd).2 cs (tileRow (coreAt s k) (drainTile cmd).1 r)) ∧
          ∀ e, (broken = false ∧ runArray x.array [] cmd = .error e ∨ broken = true ∧ e = fetchFail 0x31) → (seqAt s o.seq).unwind = none →
            ∃ u, run = .next u ∧ reported s u o e.cause 2 0 0 ∧ (quadAt u quad).array = x.array ∧ u.cores = s.cores ∧ u.mem = s.mem)

/-- The elements of a placed result are those of the element-wise operations, and for TRED, TMV and TMM the sum of a row's elements or of the
products of a row and a column, exact for finite terms, rounded once. For every operation that its engine may move: a placed operation whose
result is in bounds completes with the union of its elements' flags and counts at its home, a result of a view of memory written to its
places and nothing else; the first element out of bounds is reported with BOUND and its number, under the ENGINE of its home (R245, log 70),
and an uncorrectable error during compute with ENG_UNCORR (log 73); one of the array's home does so as a command of its core's queue that
counts toward the lease and leaves the array as it was; its AUX0 has its opcode and no detail (R232; log 144). PABM enters the mode with
nothing loaded, PBCAST loads BX, PMAC applies its steps in order, each step rounding once the sum of a partial sum and a product in every
bank and lane of its BACC entry and changing no other, and a bad list, a granule beyond the allocation, one whose translation fails or that
another package holds (log 105), or one with an uncorrectable error is reported with the mode as it was, while a missing walk is asked for;
PREAD writes the partial sums into its row, and PEXIT leaves, what waited for it being written (R275); a second PABM, one on a page of
another package, and a command of another handle or outside the mode, each of PBCAST, PMAC, PREAD and PEXIT, are reported with BANK_MODE. A
walk that a die has asked for ends with the page of the address, with none, or with the uncorrectable error of its table (R184). (R184,
R232, R243, R245, R246, R249, R250, R251, R252, R262, R274, R277) -/
def Obligations.PlacedBankAndWalks : Prop :=
  (∀ (fmt nr nc i : Nat) (m : RMode) (a b : List Nat) (trb : Bool), a.length = nr * nc → b.length = nr * nc → i < nr * nc →
    (placedResult .add fmt m a b nr nc nr trb)[i]? = some (elemAdd fmt m (a.getD i 0) (b.getD i 0)) ∧
    (placedResult .sub fmt m a b nr nc nr trb)[i]? = some (elemSub fmt m (a.getD i 0) (b.getD i 0)) ∧
    (placedResult .mul fmt m a b nr nc nr trb)[i]? = some (elemMul fmt m (a.getD i 0) (b.getD i 0)) ∧
    (placedResult .max fmt m a b nr nc nr trb)[i]? = some (elemPick fmt true (a.getD i 0) (b.getD i 0))) ∧
  (∀ (fmt nr nc n i j : Nat) (m : RMode) (a b : List Nat) (trb : Bool), a.length = nr * nc → i < nr →
    let A := fun (k : Nat) => decodeFloat fmt (a.getD (i * nc + k) 0)
    let B := fun (k : Nat) => decodeFloat fmt (b.getD k 0)
    let total := fun (t : Nat → Val) => roundTo fmt m (termSum m ((List.range nc).map t))
    (placedResult .red fmt m a b nr nc n trb)[i]? = some (total A) ∧
    (b.length = nc → (placedResult .mv fmt m a b nr nc n trb)[i]? = some (total (fun k => mulVal (A k) (B k)))) ∧
    (b.length = nc * n → j < n →
      (placedResult .mm fmt m a b nr nc n trb)[i * n + j]? = some (total (fun k => mulVal (A k) (B (if trb then j * nc + k else k * n + j)))))) ∧
  (∀ (m : RMode) (g : Int) (l : List Val), g ≤ 0 → (∀ x ∈ l, ∃ neg k e, x = .fin neg k e ∧ g ≤ e) →
    let inUnits := fun (g : Int) (x : Val) => match x with
      | .fin neg k e => (if neg then -1 else 1) * ((k * 2 ^ (e - g).toNat : Nat) : Int)
      | _ => 0
    (∃ neg k e, termSum m l = .fin neg k e ∧ g ≤ e) ∧ inUnits g (termSum m l) = (l.map (inUnits g)).sum ∧
      ∀ p q k e a d h, g ≤ e → h ≤ d → inUnits (g + h) (mulVal (.fin p k e) (.fin q a d)) = inUnits g (.fin p k e) * inUnits h (.fin q a d)) ∧
  (∀ (s : State) (o : Op), mayAct s o → o.phase = .queued → mayPerform s o = true → requestsOf s o.id = [] → (∀ f ∈ s.forwards, f.op ≠ o.id) →
    let die := dieOf o.seq
    let k := coreOf o.seq
    ∀ (op : PlacedOp) (vd va vb : View) (fmt nr nc n home shipped : Nat) (a b : List Nat) (trb : Bool) (mode : BitVec 2),
      o.kind = .placed op vd va vb fmt a b nr nc n trb mode home shipped → home ≠ 3 → home < 5 →
      let l := placedResult op fmt mode a b nr nc n trb
      let fl := l.foldl (fun f x => f ||| x.2) 0
      let bytes := ((resultBytes l).zip (List.range (2 * l.length))).map (fun x => ((posAddr s o.asid vd x.2).toNat, x.1))
      let counts := fun (u : State) => (vget 0 (coreAt u k).placed (placedCounter home)).toNat / 2 ^ 40 =
        ((vget 0 (coreAt s k).placed (placedCounter home)).toNat / 2 ^ 40 + 1) % 2 ^ 24
      (computeFails s o home = false → firstOut fmt vd l = none → vd.handle = 0 → ∃ u, exec (.placedWriteback o.id) s = .next u ∧ completes s u o fl ∧ counts u ∧
        u.mem = s.mem) ∧
      (computeFails s o home = false → firstOut fmt vd l = none → vd.handle ≠ 0 → reach s o.id die o.asid true (bytes.map Prod.fst) = .ok → bankHeld s die o.asid (bytes.map Prod.fst) = false →
        remoteDests s die o.asid true (bytes.map Prod.fst) = [] → ∃ u, exec (.placedWriteback o.id) s = .next u ∧ counts u ∧
          wrote ((localCells s die o.asid bytes).filter (fun c => homeDie c.1 == some die)) s u ∧ (coreAt u k).tiles = (coreAt s k).tiles ∧
          (seqAt u o.seq).cstat = (seqAt s o.seq).cstat ||| fl ∧ ∀ p, opAt u o.id = some p → p.phase = .drained) ∧
      (computeFails s o home = true → (seqAt s o.seq).unwind = none → ∃ u, exec (.placedWriteback o.id) s = .next u ∧
        reported s u o 0x31 (placedEngine home) 0 0 ∧ u.mem = s.mem ∧ u.cores = s.cores) ∧
      ∀ i, computeFails s o home = false → firstOut fmt vd l = some i → (seqAt s o.seq).unwind = none → ∃ u, exec (.placedWriteback o.id) s = .next u ∧
        reported s u o 0x29 (placedEngine home) 0 (BitVec.ofNat 32 i) ∧ u.mem = s.mem ∧ u.cores = s.cores) ∧
  (∀ (s : State) (quad c : Nat) (o : Op), c < 4 → (arrayQueue s (quad * 4 + c)).head? = some o → mayAct s o → o.phase = .queued → mayPerform s o = true →
    requestsOf s o.id = [] → (∀ f ∈ s.forwards, f.op ≠ o.id) →
    let die := dieOf o.seq
    let k := coreOf o.seq
    let x := quadAt s quad
    let run := exec (.arrayCommandRun quad c) s
    ∀ (op : PlacedOp) (vd va vb : View) (fmt nr nc n shipped : Nat) (a b : List Nat) (trb : Bool) (mode : BitVec 2),
      o.kind = .placed op vd va vb fmt a b nr nc n trb mode 3 shipped →
      let l := placedResult op fmt mode a b nr nc n trb
      let fl := l.foldl (fun f x => f ||| x.2) 0
      let bytes := ((resultBytes l).zip (List.range (2 * l.length))).map (fun x => ((posAddr s o.asid vd x.2).toNat, x.1))
      let counts := fun (u : State) => (quadAt u quad).array = x.array ∧ (quadAt u quad).commands = x.commands + 1 ∧
        (vget 0 (coreAt u k).placed (placedCounter 3)).toNat / 2 ^ 40 = ((vget 0 (coreAt s k).placed (placedCounter 3)).toNat / 2 ^ 40 + 1) % 2 ^ 24
      let worded := fun (u : State) => ∃ r, (seqAt u o.seq).reports = (seqAt s o.seq).reports ++ [r] ∧
        r.aux0 &&& 0xFFFFFFFFFF0000F8 = BitVec.ofNat 64 (placedOpcode op * 2 ^ 32)
      (x.holder ≠ some c ∨ boundReached x = true → ∃ u, run = .next u ∧ u.ops = s.ops ∧ u.mem = s.mem ∧ quadAt u quad = x) ∧
      (x.holder = some c → boundReached x = false →
        (computeFails s o 3 = false → firstOut fmt vd l = none → vd.handle = 0 → ∃ u, run = .next u ∧ completes s u o fl ∧ counts u ∧ u.mem = s.mem) ∧
        (computeFails s o 3 = false → firstOut fmt vd l = none → vd.handle ≠ 0 → reach s o.id die o.asid true (bytes.map Prod.fst) = .ok →
          bankHeld s die o.asid (bytes.map Prod.fst) = false → remoteDests s die o.asid true (bytes.map Prod.fst) = [] → ∃ u, run = .next u ∧ counts u ∧
            wrote ((localCells s die o.asid bytes).filter (fun c => homeDie c.1 == some die)) s u ∧ (coreAt u k).tiles = (coreAt s k).tiles ∧
            (seqAt u o.seq).cstat = (seqAt s o.seq).cstat ||| fl ∧ ∀ p, opAt u o.id = some p → p.phase = .drained) ∧
        (computeFails s o 3 = true → (seqAt s o.seq).unwind = none → ∃ u, run = .next u ∧ reported s u o 0x31 2 0 0 ∧ worded u ∧ u.mem = s.mem ∧ u.cores = s.cores ∧
          (quadAt u quad).array = x.array) ∧
        ∀ i, computeFails s o 3 = false → firstOut fmt vd l = some i → (seqAt s o.seq).unwind = none → ∃ u, run = .next u ∧
          reported s u o 0x29 2 0 (BitVec.ofNat 32 i) ∧ worded u ∧ u.mem = s.mem ∧ u.cores = s.cores ∧ (quadAt u quad).array = x.array)) ∧
  (∀ (s : State) (o : Op) (base w : Nat) (mode : BitVec 2) (b : BankMode) (fl : Flags),
    let g := w / 2 ^ 16 % 2 ^ 16
    let burst := w / 2 ^ 5 % 8
    let entry := w / 2 ^ 2 % 8
    let n := w % 4
    let u := macStep s o base mode (b, fl) w
    let key := fun (bank n lane : Nat) => (bank * 4 + n) * 16 + lane
    let word := fun (bank lane : Nat) =>
      let a := base + b.off.toNat + 262144 * g + 256 * bank + 32 * burst + 2 * lane
      let byte := fun (i : Nat) => (readVa s o.id (dieOf o.seq) o.asid 2 (a + i)).toNat
      byte 0 + 256 * byte 1
    let result := fun (bank lane : Nat) => roundTo 0 mode (fmaVal mode (decodeFloat 1 (word bank lane)) (decodeFloat 1 (tget 0 b.bx (16 * entry + lane)).toNat)
      (decodeFloat 0 (tget 0 b.bacc (key bank n lane)).toNat))
    u.1 = { b with bacc := u.1.bacc } ∧
    (∀ bank lane, bank < 16 → lane < 16 → tget 0 u.1.bacc (key bank n lane) = BitVec.ofNat 32 (result bank lane).1 ∧
      ∀ m < 4, m ≠ n → tget 0 u.1.bacc (key bank m lane) = tget 0 b.bacc (key bank m lane)) ∧
    ∀ i, u.2.getLsbD i = true ↔ fl.getLsbD i = true ∨ ∃ bank lane, bank < 16 ∧ lane < 16 ∧ (result bank lane).2.getLsbD i = true) ∧
  (∀ (s : State) (o : Op), (bankQueue s o.seq).head? = some o → mayAct s o → o.phase = .queued → mayPerform s o = true → (∀ f ∈ s.forwards, f.op ≠ o.id) →
    let run := exec (.bankCommandRun o.seq) s
    let sq := seqAt s o.seq
    let leaves := fun (fl : Flags) (m : Option BankMode) => ∃ u, run = .next u ∧ completes s u o fl ∧ (seqAt u o.seq).bank = m ∧ u.mem = s.mem ∧
      (seqAt u o.seq).regs = sq.regs ∧ u.cores = s.cores
    let fails := fun (cause : Nat) => sq.unwind = none → ∃ u, run = .next u ∧ reported s u o cause 6 0 0 ∧ (seqAt u o.seq).bank = sq.bank ∧ u.mem = s.mem
    (∀ (h : Word) (row : Row), o.kind = .bank (.pabm h row) →
      let e := handleEntry s o.asid h
      let off := (rowField row 0 64).toNat
      (sq.bank.isSome = true ∨ remotePage s o.asid (e.base + off) = true → fails 0x3C) ∧
      (sq.bank = none → remotePage s o.asid (e.base + off) = false → handleCurrent s o.asid h = true → e.tier = 0 → e.die = dieOf o.seq → off % 4096 = 0 → off + 4096 ≤ e.size →
        channelBusy s o (dieOf o.seq) (channelOf (e.base + off)) = false → leaves o.flags
          (some { die := dieOf o.seq, channel := channelOf (e.base + off), handle := h, off := BitVec.ofNat 64 off, bx := [], bacc := [] }))) ∧
    (∀ (h : Word), (∀ b, sq.bank = some b → b.handle ≠ h) →
      (o.kind = .bank (.pexit h) → fails 0x3C) ∧ (∀ row, o.kind = .bank (.pbcast h row) → fails 0x3C) ∧
      (∀ row mode, o.kind = .bank (.pmac h row mode) → fails 0x3C) ∧ ∀ t r, o.kind = .bank (.pread h t r) → fails 0x3C) ∧
    ∀ (b : BankMode) (h : Word), sq.bank = some b →
      (b.handle = h → o.kind = .bank (.pexit h) → (∀ d ∈ s.dies, d.2.trace.due = []) →
        let left := setSeq s o.seq { sq with bank := none }
        ∃ u, run = .next u ∧ completes s u o o.flags ∧ (seqAt u o.seq).bank = none ∧ (seqAt u o.seq).regs = sq.regs ∧ u.cores = s.cores ∧
          u.mem = (s.forwards.filter (fun f => f.die == noDie && !forwardHeld left f)).foldl (fun m f => memPutCells m f.cells) s.mem) ∧
      (∀ row, b.handle = h → o.kind = .bank (.pbcast h row) → leaves o.flags (some (loadBx b row)) ∧
        ∀ j < 128, tget 0 (loadBx b row).bx j = BitVec.ofNat 16 (elemAt 1 row j)) ∧
      (∀ t r, b.handle = h → o.kind = .bank (.pread h t r) → ∃ u, run = .next u ∧ completes s u o o.flags ∧ u.mem = s.mem ∧
        ∀ j < 64, elemAt 0 (tileRow (coreAt u (coreOf o.seq)) t r) j = (tget 0 b.bacc ((r % 16 * 4 + j / 16) * 16 + j % 16)).toNat) ∧
      ∀ row mode, b.handle = h → o.kind = .bank (.pmac h row mode) →
        let e := handleEntry s o.asid h
        let r := (stepWords row).foldl (macStep s o e.base mode) (b, 0)
        let w0 := (rowField row 0 32).toNat
        let step := fun (i : Nat) => (rowField row (32 * (i + 1)) 32).toNat
        let reserved := fun (i : Nat) => step i / 2 ^ 8 % 2 ^ 8 ≠ 0
        let beyond := fun (i : Nat) => e.size < b.off.toNat + 262144 * (step i / 2 ^ 16) + 4096
        let place := fun (i : Nat) => reachPages s (dieOf o.seq) o.asid false (granuleAddrs e.base b.off.toNat (step i))
        let away := fun (i : Nat) => remoteDests s (dieOf o.seq) o.asid false (granuleAddrs e.base b.off.toNat (step i)) ≠ []
        let good := 0 < w0 ∧ w0 < 64 ∧ ∀ i < w0, ¬ reserved i ∧ ¬ beyond i
        (w0 = 0 ∨ 64 ≤ w0 → fails 0x3E) ∧
        (∀ i < w0, w0 < 64 → (∀ j < i, ¬ reserved j ∧ ¬ beyond j) → (reserved i → fails 0x3E) ∧ (¬ reserved i → beyond i → fails 0x3D)) ∧
        (good → (∀ i < w0, away i ∨ ∀ v, place i ≠ .wait v) → (∃ i < w0, away i ∨ place i = .lost ∨ place i = .fenced) → fails 0x30) ∧
        (good → (∀ i < w0, ¬ away i ∧ (place i = .ok ∨ place i = .damaged)) → (∃ i < w0, place i = .damaged) → fails 0x31) ∧
        (∀ i v, good → i < w0 → ¬ away i → place i = .wait v → v ≠ [] → ∃ u, run = .next u ∧ u.ops = s.ops ∧ u.mem = s.mem ∧ u.seqs = s.seqs ∧
          ∀ n ∈ v, (o.asid, n) ∈ tget [] u.walks (dieOf o.seq)) ∧
        (listRefusal b.off.toNat e.size row = none →
          (∀ w ∈ stepWords row, reachPages s (dieOf o.seq) o.asid false (granuleAddrs e.base b.off.toNat w) = .ok ∧
            remoteDests s (dieOf o.seq) o.asid false (granuleAddrs e.base b.off.toNat w) = []) → leaves r.2 (some r.1))) ∧
  ∀ (s : State) (die asid vpn : Nat), (asid, vpn) ∈ tget [] s.walks die →
    ((asid, vpn) ∈ s.badTables → ∃ u, exec (.translationWalkComplete die asid vpn) s = .next u ∧
      tlbFind u die asid (vpn * 65536) = some .uncorr ∧ (asid, vpn) ∉ tget [] u.walks die ∧ u.mem = s.mem ∧ u.seqs = s.seqs ∧ u.ops = s.ops) ∧
    ((asid, vpn) ∉ s.badTables → (∀ p, pageFor s.pages asid (vpn * 65536) = some p → (∀ d l b, p.target ≠ .remote d l b) → ∃ u, exec (.translationWalkComplete die asid vpn) s = .next u ∧
      tlbFind u die asid (vpn * 65536) = some (.page p) ∧ (asid, vpn) ∉ tget [] u.walks die ∧ u.mem = s.mem ∧ u.seqs = s.seqs ∧ u.ops = s.ops) ∧
    (pageFor s.pages asid (vpn * 65536) = none → ∃ u, exec (.translationWalkComplete die asid vpn) s = .next u ∧
      tlbFind u die asid (vpn * 65536) = some .unmapped ∧ (asid, vpn) ∉ tget [] u.walks die ∧ u.mem = s.mem ∧ u.seqs = s.seqs ∧ u.ops = s.ops))

/-- For the unit, register and value on the register bus: SLICE_WAYMASK takes the mask with BUSY, unless one is in progress; its completion
loses the contents of the ways that left scratch and of those that entered it, every offset of which then reads zero (what was stored there
since the write is lost too, log 135), and no other byte, and clears BUSY. REMOTE_WAYS takes a number up to 8 with BUSY and keeps its value
for a greater one. XLINV with GO starts the invalidation that its fields name; its completion takes every matching entry out of the die's
caches and keeps the others. RINGD registers a ring with its pointers at 0 (that the write zeroes them is the model's choice, log 63); a
registered ring changes only to be unregistered. (R258, R259, R260, R263, R270) -/
def Obligations.DieRegistersChange : Prop :=
  (∀ s : State,
    let d := s.bus.unit
    let k := s.bus.reg
    let v := s.bus.val
    let x := sliceAt s d k
    let m := BitVec.ofNat 16 v
    (x.scratchBusy = true → exec .sliceWaymaskWrite s = .next s) ∧
    (x.scratchBusy = false → exec .sliceWaymaskWrite s =
      .next (setSlice s d k { x with scratch := m, scratchBusy := true, old := x.scratch &&& ~~~m, entering := m &&& ~~~x.scratch })) ∧
    (8 < v % 16 → exec .remoteWaysWrite s = .next s) ∧
    (v % 16 ≤ 8 → exec .remoteWaysWrite s = .next (setSlice s d k { x with remoteWays := v % 16, remoteBusy := true })) ∧
    (v % 2 = 0 ∨ (dieAt s d).xlinv.isSome = true → exec .xlinvGo s = .next s) ∧
    (v % 2 = 1 → (dieAt s d).xlinv = none → ∃ u, exec .xlinvGo s = .next u ∧ u.mem = s.mem ∧ u.tlb = s.tlb ∧ u.seqs = s.seqs ∧
      (dieAt u d).xlinv = some { dest := none, asid := v / 16 % 4096, size := v / 4 % 4, vpn := v / 2 ^ 16 }) ∧
    let c := coreAt s d
    let n := k % 64
    let r := tget Ring.reset c.rings n
    let base := v / 2 ^ 32 % 2 ^ 10
    let slots := v / 2 ^ 24 % 2 ^ 7
    (r.valid = true → v.testBit 63 = true → exec .ringdWrite s = .next s) ∧
    (r.valid = false ∨ v.testBit 63 = false → ∃ u, exec .ringdWrite s = .next u ∧ u.mem = s.mem ∧ u.seqs = s.seqs ∧ (coreAt u d).spad = c.spad ∧
      (tget Ring.reset (coreAt u d).rings n).valid = (v.testBit 63 && decide (base * 256 + 256 * (slots + 1) ≤ 0x40000)) ∧
      (tget Ring.reset (coreAt u d).rings n).ppkg.toNat = v / 2 ^ 53 % 2 ^ 10 ∧ (tget Ring.reset (coreAt u d).rings n).pseq.toNat = v / 2 ^ 42 % 2 ^ 11 ∧
      (tget Ring.reset (coreAt u d).rings n).base.toNat = base ∧ (tget Ring.reset (coreAt u d).rings n).nslot.toNat = slots ∧
      (tget Ring.reset (coreAt u d).rings n).count = 0 ∧ (tget Ring.reset (coreAt u d).rings n).head = 0 ∧
      (tget Ring.reset (coreAt u d).rings n).tail = 0 ∧ ∀ j, j ≠ n → tget Ring.reset (coreAt u d).rings j = tget Ring.reset c.rings j)) ∧
  (∀ (s : State) (d k : Nat), (sliceAt s d k).scratchBusy = true → (∀ o ∈ s.ops, touchesWays s d k (sliceAt s d k).old o = false) →
    (∀ f ∈ s.forwards, ∀ c ∈ f.cells, inWays d k (sliceAt s d k).old c.1 = false) → ∃ u, exec (.waymaskChangeComplete d k) s = .next u ∧
      sliceAt u d k = { sliceAt s d k with scratchBusy := false, old := 0, entering := 0 } ∧
      (∀ a, memByte u.mem a = if inWays d k ((sliceAt s d k).old ||| (sliceAt s d k).entering) a then 0 else memByte s.mem a) ∧
      (∀ way off, way < 16 → off < 2 ^ 22 → off / 256 % 32 = k → (sliceAt s d k).entering.getLsbD way = true →
        memByte u.mem ((16 + d) * 2 ^ 48 + way * 2 ^ 22 + off) = 0) ∧ u.seqs = s.seqs ∧ u.cores = s.cores) ∧
  (∀ (s : State) (d k : Nat), exec (.remoteWaysChangeComplete d k) s = .next (setSlice s d k { sliceAt s d k with remoteBusy := false })) ∧
  ∀ (s : State) (d : Nat) (x : Invalidation), (dieAt s d).xlinv = some x → s.pod.waits.any (fun w => w.2.1 == d && !(destAt s w.1).fenced) = false →
    heldRead s d = false → (∀ o ∈ s.ops, usesEntry s d x o = false) → ∃ u, exec (.xlinvComplete d) s = .next u ∧ (dieAt u d).xlinv = none ∧
      tget [] u.tlb d = (tget [] s.tlb d).filter (fun e => !entryMatches x e) ∧ (∀ j, j ≠ d → tget [] u.tlb j = tget [] s.tlb j) ∧
      u.mem = s.mem ∧ u.seqs = s.seqs ∧ u.ops = s.ops

/-- For every state that enables the step: the head of a die's order, a team of that die with its launch views ready and a free quad, goes on
the best quad's lowest free cores; each strand starts at the entry with its argument, team and strand numbers in s0 to s3, the other
registers zero, the position, views, estimate and GT start of the record; each core is fresh and belongs to the team. A cohort is placed
whole or not at all. The launch views of a task register in turn (log 100) with the directories of the die that is about to place it; only
when every one has is the die ready, and a view that meets a conflict, or a directory without room, registers nowhere there and leaves the
placement waiting. A launch that a held pseudo-channel kept waiting is taken by TEAM_PLACE first (R275; the model's reading, logs 39 and
53). A barrier's message completes the phase of a die, or counts an arrival at the home die, where the last one of a package barrier
completes the phase on every die; one that left after another of the same two dies waits for it. (R114, R162, R275, R283, R285, R286, R289,
R290, R291, R308, R316, R328) -/
def Obligations.PlacementAndLaunchViews : Prop :=
  (∀ (s : State) (die quad : Nat) (e : OrderEntry) (t : Task), orderHead s die = some e → e.cohort = false → e.restore = false → taskNo s e.key = some t →
    (teamAt t e.team).die = some die → (dieAt s die).go = true → viewsReady t die = true → bestQuad s (freeQuads s die t.info) = some quad → (dieAt s die).asked = [] →
    e.team < t.teams.length → ∃ u m, exec (.teamPlace die) s = .next u ∧ freeMask s quad (coresNeeded t.info) = some m ∧ u.mem = s.mem ∧ u.ops = s.ops ∧
      (∃ v, taskNo u e.key = some v ∧ (teamAt v e.team).phase = .placed ∧ (teamAt v e.team).quad = quad ∧ (teamAt v e.team).mask = m ∧
        ∀ k, k ≠ e.team → teamAt v k = teamAt t k) ∧
      (∀ c, c ∈ maskCores quad m → (coreAt u c).team = some (teamKey e.key e.team) ∧ (coreAt u c).tiles = [] ∧ (coreAt u c).spad = [] ∧
        (coreAt u c).lenient = t.info.lenient) ∧
      ∀ k, k ≤ t.info.spt →
        let sq := seqAt u (strandSeq quad m k)
        sq.pc = t.info.entry ∧ sq.task = t.info.taskId ∧ sq.asid = t.asid ∧ sq.team = BitVec.ofNat 32 e.team ∧ sq.strand = BitVec.ofNat 3 k ∧
          sq.est = t.info.est ∧ vget 0 sq.regs 0 = t.info.arg.setWidth 32 ∧ vget 0 sq.regs 1 = (t.info.arg >>> 32).setWidth 32 ∧
          vget 0 sq.regs 2 = BitVec.ofNat 32 e.team ∧ vget 0 sq.regs 3 = BitVec.ofNat 32 k ∧ (∀ n, 4 ≤ n → vget 0 sq.regs n = 0) ∧
          sq.status = (if t.start = 0 then .running else .waiting t.start) ∧ sq.queue = [] ∧ sq.loops = [] ∧
          ∀ n < 16, t.info.vmask.getLsbD n = true → viewAt sq n = { vget View.reset t.info.views n with isOpen := true, poison := t.poisoned.getLsbD n }) ∧
  (∀ (s : State) (die : Nat) (a : AskedLaunch), (dieAt s die).asked = [a] → accepting s die = true → askedHeld (setDie s die { dieAt s die with asked := [] }) die a = false →
    let u := acceptLaunch (setDie s die { dieAt s die with asked := [] }) die a
    (orderHead u die = none → exec (.teamPlace die) s = .next u) ∧ ((dieAt u die).asked = [] → exec (.teamPlace die) s = exec (.teamPlace die) u)) ∧
  (∀ (s : State) (die : Nat) (e : OrderEntry) (t : Task), orderHead s die = some e → e.cohort = true → taskNo s e.key = some t →
    (∀ u, placeCohort t.teams.length 0 s e.key = some u → exec (.cohortPlace die) s = .next u ∧
      ∀ k < t.teams.length, ∃ v, taskNo u e.key = some v ∧ (teamAt v k).phase = .placed) ∧
    (placeCohort t.teams.length 0 s e.key = none → exec (.cohortPlace die) s = .next s)) ∧
  (∀ (s : State) (die key : Nat) (t : Task), taskNo s key = some t → wantsViews s die key t = true → die ∉ t.dies → t.parked = false → t.killed = false →
    let run := exec (.launchViewRegister die key) s
    let r := registerLaunch s key t die (launchViews t.info)
    (∃ u, run = .next u ∧ u.mem = s.mem ∧ u.seqs = s.seqs ∧ (r.2 = false → u.tasks = s.tasks) ∧
      (r.2 = true → taskNo u key = some { t with dies := t.dies ++ [die] } ∧
        ∀ v ∈ launchViews t.info, ∀ d ∈ flockDies v.2 die, ∃ x ∈ flockAt u d, x.task = some key ∧ x.reg = v.1 ∧ die ∈ x.dies)) ∧
    ∀ v, launchViews t.info = [v] → flockDies v.2 die = [die] → (flockAt s die).find? (isLaunchEntry key v) = none →
      (flockRoom (flockAt s die) t.asid v.2 = none → run = .next s) ∧
      ∀ w, flockRoom (flockAt s die) t.asid v.2 = some w →
        let e := { launchEntry key t die v with wide := w }
        ((∃ x ∈ flockAt s die, flockConflict s x e = true) → run = .next s) ∧
        ((∀ x ∈ flockAt s die, flockConflict s x e = false) → ∃ u, run = .next u ∧ flockAt u die = flockAt s die ++ [e] ∧
          (∀ d, d ≠ die → flockAt u d = flockAt s d) ∧ taskNo u key = some { t with dies := t.dies ++ [die] })) ∧
  ∀ (s : State) (m : BarrierMsg), s.barMsgs.find? (fun x => x.id == m.id) = some m →
    (messageBehind s m = true → exec (.pkgBarrierMessage m.id) s = .next s) ∧
    (m.arrival = false → messageBehind s m = false → ∃ u, exec (.pkgBarrierMessage m.id) s = .next u ∧ barrierAt u m.key = { count := 0, gen := (barrierAt s m.key).gen + 1 } ∧
      (∀ k, k ≠ m.key → barrierAt u k = barrierAt s k) ∧ u.barMsgs = s.barMsgs.filter (fun x => x.id != m.id) ∧ u.seqs = s.seqs ∧ u.mem = s.mem) ∧
    (∀ t, m.arrival = true → messageBehind s m = false → tfind s.tasks (m.key / 2 ^ 26) = some t →
      let h := barrierKey (m.key / 2 ^ 26) (keyScope m.key) homeInst (keyId m.key)
      (barrierAt s h).count + 1 < t.info.teams * (t.info.spt + 1) → ∃ u, exec (.pkgBarrierMessage m.id) s = .next u ∧
        barrierAt u h = { barrierAt s h with count := (barrierAt s h).count + 1 } ∧ u.barMsgs = s.barMsgs.filter (fun x => x.id != m.id) ∧ u.seqs = s.seqs) ∧
    ∀ t, m.arrival = true → messageBehind s m = false → tfind s.tasks (m.key / 2 ^ 26) = some t → keyScope m.key ≠ 4 ∨ groupOf s t.info.taskId = none →
      let h := barrierKey (m.key / 2 ^ 26) (keyScope m.key) homeInst (keyId m.key)
      t.info.teams * (t.info.spt + 1) ≤ (barrierAt s h).count + 1 → exec (.pkgBarrierMessage m.id) s =
        .next (completeEverywhere (setBarrier { s with barMsgs := s.barMsgs.filter (fun x => x.id != m.id) } h { barrierAt s h with count := 0 })
          (m.key / 2 ^ 26) (keyScope m.key) (keyId m.key) t.home)

/-- For every state that enables the step: a decision is taken only for a newcomer with a victim; below DRAINLIMIT it lets the victim run out,
and where neither checkpoint nor kill is allowed it waits, noting GT; a wait is decided afresh, with the same outcomes, when PPERIOD has
passed or the victim set has changed. A checkpoint spends its tokens and asks the strands to land; CHECKPOINT_WRITE of a landed team leaves
it out, its cores and sequencers free, with CHECKPOINTED posted; TEAM_RESTORE puts the head of the order back on its cores, once its event
and a FAULT for each of its blocks that fails find slots and no strand holds its checkpoint's pseudo-channels (R275, R295, R306); until then
nothing happens. A kill spends its tokens and ends the victim: every strand of its teams on cores has ended, or is ending with its queue
discarded and no report, and its other teams have ended. RELEASE ends the parking, by performing the writes on their way, but for those to a
held pseudo-channel (log 60), and by noting the operations of the producers that the placement awaits (log 61); a view of an edge whose
producer was killed opens poisoned. KILL marks any task and ends it in the same way. A task is named by its identifier (log 9). (R275, R292,
R293, R295, R298, R299, R300, R301, R302, R303, R306, R307) -/
def Obligations.DecisionsCheckpointsAndCommands : Prop :=
  let killed := fun (u : State) (key : Nat) (t : Task) => ∃ x, taskNo u key = some x ∧ x.killed = true ∧ x.parked = false ∧
    (∀ k < t.teams.length, (teamAt t k).phase = .placed ∨ (teamAt t k).phase = .landing → ∀ j ∈ liveStrands (teamAt t k),
      let q := strandSeq (teamAt t k).quad (teamAt t k).mask j
      (seqAt u q).status = .idle ∨
        (seqAt u q).status = .running ∧ (seqAt u q).endPending = true ∧ (seqAt u q).queue = [] ∧ (seqAt u q).reports = [] ∧ (seqAt u q).landing = .none_) ∧
    ∀ k < t.teams.length, (teamAt t k).phase = .waiting ∨ (teamAt t k).phase = .out → (teamAt x k).phase = .ended ∧ (teamAt x k).live = 0
  let decides := fun (s : State) (die : Nat) (i : Instr) =>
    (newcomer s die = none → exec i s = .next (setDie s die { dieAt s die with decision := none })) ∧
    ∀ e n, newcomer s die = some (e, n) → (victim s die e n = none → exec i s = .next (setDie s die { dieAt s die with decision := none })) ∧
      ∀ key v teams, victim s die e n = some (key, v, teams) →
        let noted := fun (code : Nat) (u : State) => ∃ d, (dieAt u die).decision = some d ∧ d.code = code ∧ d.newTask = e.key ∧ d.newTeam = e.team ∧
          d.victim = key ∧ d.teams = teams ∧ d.since = gtAt s die
        let early := (largestEst s die v).toNat < (dieAt s die).drainLimit.toNat
        (early → ∃ u, exec i s = .next u ∧ noted 1 u ∧ u.seqs = s.seqs ∧ u.tasks = s.tasks) ∧
        (¬ early → mayCheckpoint s die n v teams = true → ∃ u, exec i s = .next u ∧ noted 2 u ∧ u.mem = s.mem ∧
          (e.key ≠ key → ∃ x, taskNo u e.key = some x ∧ x.tokens = n.tokens - teams.length * (dieAt s die).ckptCost.toNat) ∧
          (∃ x, taskNo u key = some x ∧ x.ckPinned = true ∧ ∀ k ∈ teams, k < v.teams.length → (teamAt x k).phase = .landing) ∧
          ∀ k ∈ teams, ∀ j ∈ liveStrands (teamAt v k), (seqAt u (strandSeq (teamAt v k).quad (teamAt v k).mask j)).landing = .asked) ∧
        (¬ early → mayCheckpoint s die n v teams = false → (v.info.kill = false ∨ n.tokens < teams.length * (dieAt s die).killCost.toNat) →
          ∃ u, exec i s = .next u ∧ noted 4 u ∧ u.seqs = s.seqs ∧ u.tasks = s.tasks) ∧
        (¬ early → mayCheckpoint s die n v teams = false → v.info.kill = true → teams.length * (dieAt s die).killCost.toNat ≤ n.tokens →
          e.key ≠ key → taskNo s key = some v → v.killed = false → ∃ u, exec i s = .next u ∧ noted 3 u ∧ killed u key v ∧
            ∃ x, taskNo u e.key = some x ∧ x.tokens = n.tokens - teams.length * (dieAt s die).killCost.toNat)
  (∀ (s : State) (die : Nat), (dieAt s die).decision = none → decides s die (.preemptDecision die)) ∧
  (∀ (s : State) (die : Nat), ((dieAt s die).decision = none → exec (.preemptReevaluate die) s = .next s) ∧
    ∀ d, (dieAt s die).decision = some d → (d.code ≠ 4 ∨ waitOver s die d = false → exec (.preemptReevaluate die) s = .next s) ∧
      (d.code = 4 → waitOver s die d = true → decides s die (.preemptReevaluate die)) ∧
      ((dieAt s die).pperiod.toNat ≤ (gtAt s die - d.since).toNat → waitOver s die d = true)) ∧
  (∀ (s : State) (key k : Nat) (t : Task), taskNo s key = some t → k < t.teams.length → (teamAt t k).phase = .landing → teamLanded s (teamAt t k) = true →
    eventRoom s ((teamAt t k).quad / 16) = true → t.killed = false → ∃ u x, exec (.checkpointWrite key k) s = .next u ∧ taskNo u key = some x ∧
      (teamAt x k).phase = .out ∧ (teamAt x k).quad = (teamAt t k).quad ∧ (teamAt x k).mask = (teamAt t k).mask ∧ (teamAt x k).live = (teamAt t k).live ∧
      (∀ c ∈ maskCores (teamAt t k).quad (teamAt t k).mask, (coreAt u c).team = none ∧ (coreAt u c).suspended = some (coreAt s c).rings) ∧
      (∀ j ∈ liveStrands (teamAt t k), (seqAt u (strandSeq (teamAt t k).quad (teamAt t k).mask j)).status = .idle) ∧
      (eventsAt u ((teamAt t k).quad / 16)).count = (eventsAt s ((teamAt t k).quad / 16)).count + 1) ∧
  (∀ (s : State) (key k : Nat) (t : Task), taskNo s key = some t → k < t.teams.length → (teamAt t k).phase = .out →
    (orderHead s ((teamAt t k).quad / 16)).any (fun e => e.restore && e.key == key && e.team == k) = true → coresFree s t (teamAt t k) = true →
    (dieAt s ((teamAt t k).quad / 16)).go = true →
    let e := eventsAt s ((teamAt t k).quad / 16)
    let failing := (teamAt t k).saved.strands.filter (fun y => (readRecord (virtualBytes s t.asid (strandBlock t k y.strand) 16384) [] 0).isNone)
    (e.waiting ≠ [] ∨ 512 ≤ e.count + failing.length ∨ virtualHeld s t.asid (t.ckBase + 0x2B8000 * k) 0x2B8000 = true → exec (.teamRestore key k) s = .next s) ∧
    (e.waiting = [] → e.count + failing.length < 512 → virtualHeld s t.asid (t.ckBase + 0x2B8000 * k) 0x2B8000 = false → ∃ u x, exec (.teamRestore key k) s = .next u ∧ taskNo u key = some x ∧ (teamAt x k).phase = .placed ∧
      (teamAt x k).quad = (teamAt t k).quad ∧ (teamAt x k).mask = (teamAt t k).mask ∧
      (∀ y ∈ (teamAt t k).saved.cores, (coreAt u ((teamAt t k).quad * 4 + y.core)).team = some (teamKey key k)) ∧
      ∀ y ∈ (teamAt t k).saved.strands, (seqAt u (strandSeq (teamAt t k).quad (teamAt t k).mask y.strand)).status = .running ∨
        (seqAt u (strandSeq (teamAt t k).quad (teamAt t k).mask y.strand)).status = .faulted)) ∧
  ∀ (s : State) (key : Nat) (t : Task), findTask s (BitVec.ofNat 32 s.bus.val) = some (key, t) → taskNo s key = some t →
    (t.parked = true → ∃ u x, exec .taskcmdRelease s = .next u ∧ taskNo u key = some x ∧ x.parked = false ∧ x.teams = t.teams ∧
      u.forwards = s.forwards.filter (forwardHeld s) ∧
      u.mem = (s.forwards.filter (fun f => !forwardHeld s f)).foldl (fun m f => memPutCells m f.cells) s.mem ∧ u.seqs = s.seqs ∧
      x.awaits = (s.ops.filter (producerWrite s t)).map (fun o => o.id) ∧
      ∀ e ∈ t.info.edges, producerKilled s t.asid e.ptask = true → ∀ n < 16, e.evmask.getLsbD n = true → x.poisoned.getLsbD n = true) ∧
    (t.parked = false → exec .taskcmdRelease s = .next s) ∧
    (t.killed = false → ∃ u, exec .taskcmdKill s = .next u ∧ killed u key t) ∧
    (t.killed = true → exec .taskcmdKill s = .next s)

/-- For every state that enables the step: a task whose teams have all ended leaves the package with COMPLETE or KILLED posted at its home,
every write on its way at its home (log 60); while the event queue is full, or such a write, or the digest's read, goes to a held
pseudo-channel (R275), it stays. A cohort's teams, resident until then (R290), leave their cores with it. The next ready queue after the
last admitted, one for all slots (the model's choice, log 139), gets a free slot. An entry at HEAD of a queue in its slot is read by the
step of its kind, unless a strand holds it or what its launch reads, HEAD moves, and it waits for completion with STATUS 0, or 1 for an
invalid one; a FENCE may be read at once and completes after the earlier entries (log 76). A LAUNCH of an acceptable record launches the
task, a refused one gets STATUS 2 and the cause, one before the die's GO, or behind launches that wait, waits in the die's order of asked
launches (log 39), and one whose REC names no readable record completes with a STATUS that is open (log 15). HQ_ENTRY_COMPLETE writes the
four bytes at the entry's offset 4, STATUS with the cause above it, and DONE passes it. HQCTL and NOTIFY set their fields, HQCTL not on an
enabled queue; an enable clears the entries, and no launch of an earlier use completes one (log 76); a TAIL too far ahead sets ERR. (R275,
R290, R295, R301, R323, R324, R325, R326) -/
def Obligations.TasksEndAndHostQueuesRun : Prop :=
  (∀ (s : State) (key : Nat) (t : Task), taskNo s key = some t → (∀ x ∈ t.teams, x.phase = .ended) →
    (eventRoom s t.home = false ∨ forwardsFree s = false ∨ digestHeld s t = true → exec (.taskComplete key) s = .next s) ∧
    (eventRoom s t.home = true → forwardsFree s = true → digestHeld s t = false → ∃ u, exec (.taskComplete key) s = .next u ∧ thas u.tasks key = false ∧ u.forwards = [] ∧ (t.killed = true → key ∈ u.killed) ∧
      (eventsAt u t.home).count = (eventsAt s t.home).count + 1 ∧ (∀ j, j ≠ key → tfind u.tasks j = tfind s.tasks j) ∧ u.seqs = s.seqs ∧
      ((dieAt s t.home).replay.mode = 0 → t.replay = none → (dieAt s t.home).trace.en = false →
        u.mem = s.forwards.foldl (fun m f => memPutCells m f.cells) s.mem))) ∧
  (∀ (s : State) (key : Nat) (t : Task), taskNo s key = some t → t.info.cohort = true → (∀ x ∈ t.teams, x.phase = .placed ∧ x.live = 0) →
    eventRoom s t.home = true → forwardsFree s = true → digestHeld s t = false → ∃ u, exec (.taskComplete key) s = .next u ∧ thas u.tasks key = false ∧
      ∀ x ∈ t.teams, ∀ c ∈ maskCores x.quad x.mask, (coreAt u c).team = none) ∧
  (∀ (s : State) (m : Nat), let s1 := freeSlots s
    (s1.hqs.filter (fun x => x.2.slot.isSome)).length < 32 → nextReady s1 s1.admitted 1024 = some m →
      exec .queueSlotAdmit s = .next { setHq s1 m { hqAt s1 m with slot := some 0 } with admitted := m }) ∧
  (∀ (s : State) (n : Nat),
    let x := hqAt s n
    let l := entryBytes s x x.head.toNat
    let read := fun (u : State) (kind : Nat) (st : Option Nat) => (hqAt u n).head = x.head + 1 ∧ (hqAt u n).done = x.done ∧ (hqAt u n).tail = x.tail ∧
      (hqAt u n).entries = x.entries ++ [{ index := x.head.toNat, kind := kind, status := st, written := false }]
    let plain := fun (i : Instr) (kind st : Nat) => entryKind l = kind → ∃ u, exec i s = .next u ∧ read u kind (some st) ∧ u.mem = s.mem ∧ u.tasks = s.tasks
    let timed := fun (k : Nat) => if k = 2 then BitVec.ofNat 64 (natAt l 0x10 8) else 0
    let launches := fun (i : Instr) (k : Nat) => entryKind l = k → (∀ a ∈ x.entries, a.index ≠ x.head.toNat) →
      let bytes := virtualBytes s x.asid (handleEntry s x.asid (wordAt l 8)).base 2816
      (recordReadable s x (wordAt l 8) = false → ∃ u st, exec i s = .next u ∧ st < 2 ^ 16 ∧ read u k (some st) ∧ u.tasks = s.tasks) ∧
      (recordReadable s x (wordAt l 8) = true → accepting s x.die = false ∨ (dieAt s x.die).asked ≠ [] → ∃ u, exec i s = .next u ∧ read u k none ∧ u.tasks = s.tasks ∧
        (dieAt u x.die).asked =
          (dieAt s x.die).asked ++ [{ asid := x.asid, record := bytes, start := timed k, host := some (n, x.head.toNat) }]) ∧
      (recordReadable s x (wordAt l 8) = true → accepting s x.die = true → (dieAt s x.die).asked = [] → ∀ c, refusal s x.die x.asid bytes = some c → ∃ u, exec i s = .next u ∧ read u k (some (2 + 256 * c)) ∧ u.tasks = s.tasks) ∧
      (recordReadable s x (wordAt l 8) = true → accepting s x.die = true → (dieAt s x.die).asked = [] → refusal s x.die x.asid bytes = none → ∃ u t, exec i s = .next u ∧ read u k none ∧
        taskNo u (taskKey x.asid (recordOf bytes).taskId) = some t ∧ t.home = x.die ∧ t.start = timed k ∧ t.killed = false ∧
        t.info = recordOf bytes ∧ t.teams.length = (recordOf bytes).teams ∧ t.host = some (n, x.head.toNat) ∧
        t.parked = !(recordOf bytes).edges.isEmpty)
    (mayRead s x = true → entryHeld s x l = true → ∀ i ∈ [Instr.hqNop n, .hqFence n, .hqInvalid n, .hqLaunch n, .hqTimedLaunch n], exec i s = .next s) ∧
    (mayRead s x = true → entryHeld s x l = false → plain (.hqNop n) 0 0 ∧ plain (.hqFence n) 3 0 ∧ plain (.hqInvalid n) 4 1 ∧ launches (.hqLaunch n) 1 ∧ launches (.hqTimedLaunch n) 2)) ∧
  (∀ (s : State) (n : Nat) (e : HostEntry) (rest : List HostEntry), (hqAt s n).entries = e :: rest → mayComplete (hqAt s n) e = true → forwardsFree s = true →
    (∀ a ∈ rest, a.index ≠ e.index ∧ a.written = false) → ∃ u, exec (.hqEntryComplete n e.index) s = .next u ∧ (hqAt u n).done = (hqAt s n).done + 1 ∧
      (hqAt u n).entries = rest ∧ (hqAt u n).head = (hqAt s n).head ∧ u.seqs = s.seqs ∧ u.tasks = s.tasks ∧
      let a := (hqAt s n).base.toNat + 64 * (e.index % 2 ^ (hqAt s n).logn) + 4
      ((∀ l, channelHeld s l = false) → u.forwards = [] ∧
        ∀ loc, (∀ j < 4, (pageFor s.pages (hqAt s n).asid (a + j)).map (fun p => pagePlace s true p (a + j)) = some (.at_ (loc + j))) →
          ∀ j < 4, memByte u.mem (loc + j) = BitVec.ofNat 8 (e.status.getD 0 / 256 ^ j))) ∧
  ∀ s : State,
    let n := s.bus.unit
    let v := s.bus.val
    let x := hqAt s n
    let logn := v / 2 ^ 32 % 16
    (logn < 4 ∨ 12 < logn ∨ (x.valid = true ∧ v.testBit 63 = true) → exec .hqctlWrite s = .next s) ∧
    (4 ≤ logn → logn ≤ 12 → x.valid = false ∨ v.testBit 63 = false → ∃ u, exec .hqctlWrite s = .next u ∧ u.mem = s.mem ∧ (hqAt u n).valid = v.testBit 63 ∧
      (hqAt u n).asid = v / 2 ^ 40 % 4096 ∧ (hqAt u n).die = v / 2 ^ 36 % 16 ∧ (hqAt u n).logn = logn ∧ (hqAt u n).base = x.base ∧
      (v.testBit 63 = true → (hqAt u n).head = 0 ∧ (hqAt u n).done = 0 ∧ (hqAt u n).entries = [] ∧
        (∀ k t, taskNo u k = some t → ∀ h, t.host = some h → h.1 ≠ n) ∧ (∀ d, ∀ a ∈ (dieAt u d).asked, ∀ h, a.host = some h → h.1 ≠ n) ∧
        ((dieAt s (v / 2 ^ 36 % 16)).boot ≠ .failed → (hqAt u n).err = false)) ∧ ∀ j, j ≠ n → hqAt u j = hqAt s j) ∧
    exec .notify s = .next (setHq s n { x with tail := BitVec.ofNat 32 v, err := x.err || decide (2 ^ x.logn < (BitVec.ofNat 32 v - x.done).toNat) })

/-- For every zone: SENSOR_SAMPLE takes the four sensors. A low flow or dryness that has held for a millisecond, and an overtemperature at once,
set their flag and post their event, the overtemperature with the throttle at THR_HOT at least and STATE 1 from 0; dryness starts the
evacuation, but leaves one in progress (log 77). EVAC, from STATE 0 or 1, throttles to 7 in STATE 2; every task that holds units there has
its turn, in order: its teams there, or all of a cohort, land for a checkpoint, or go on landing, if the task may leave so, else the task is
killed (log 77); with no units held the valves close. After DRAIN_MS every task with a team in the zone is killed and the valves close. The
steps then follow in order, each after its time: valves, purge, decay and verification to STATE 3 or 4, by the pressure's fall. RETURN opens
the valves in STATE 5, and ten milliseconds of good flow make the zone ready. That events 12 to 14 go to the zone's die is the model's
reading (log 78). ZCTL sets VALVE in STATE 0 and 1, also where THR is refused (log 77), and THR, not below THR_HOT while hot. (R300, R301,
R330, R332, R333, R335, R336) -/
def Obligations.CoolingZonesRun : Prop :=
  let throttle := fun (p : State) (z : Nat) => putZone p z { zoneAt p z with mode := 2, step := 2, thr := 7, stepFor := 0 }
  let throttled := fun (z : Nat) (p s : State) => p.tasks = s.tasks ∧ p.seqs = s.seqs ∧ p.ops = s.ops ∧ p.handles = s.handles ∧ p.cores = s.cores ∧
    (zoneAt p z).catq = (zoneAt s z).catq ∧ zoneTasks p z = zoneTasks s z
  let turns := fun (z : Nat) (p u : State) => u.tasks = (if z < 64 then ((zoneTasks p z).foldl (evacuateTask z) p).tasks else p.tasks)
  (∀ (p : State) (z key : Nat) (t : Task), taskNo p key = some t →
    let a := affectedTeams p z key t
    let l := leavingTeams p z key t
    (∀ k, k ∈ a ↔ k < t.teams.length ∧ ((teamAt t k).phase = .placed ∨ (teamAt t k).phase = .landing) ∧
      (t.info.cohort = true ∨ ∃ e ∈ zoneTeams p z, teamTask e = key ∧ teamIndex e = k)) ∧
    (∀ k, k ∈ l ↔ k ∈ a ∧ (teamAt t k).phase = .placed) ∧
    (t.killed = true ∨ a = [] → evacuateTask z p key = p) ∧
    (t.killed = false → mayEvacuate p t a = true → l = [] → evacuateTask z p key = p) ∧
    (t.killed = false → mayEvacuate p t a = true → l ≠ [] → ∃ w, taskNo (evacuateTask z p key) key = some w ∧ w.ckPinned = true ∧ w.killed = false ∧
      w.ckBase = (handleEntry p t.asid t.info.ckh).base ∧ ∀ k ∈ l, (teamAt w k).phase = .landing) ∧
    (t.killed = false → a ≠ [] → mayEvacuate p t a = false → ∃ w, taskNo (evacuateTask z p key) key = some w ∧ w.killed = true) ∧
    (mayEvacuate p t a = true ↔ t.info.ckpt = true ∧ t.info.ckh ≠ 0 ∧ (handleCurrent p t.asid t.info.ckh = true ∨ ∀ k ∈ a, (teamAt t k).phase = .landing) ∧
      (∀ q ∈ placedStrands t, (seqAt p q).status ≠ .faulted) ∧
      ∀ k ∈ a, ∀ c ∈ maskCores (teamAt t k).quad (teamAt t k).mask, (coreAt p c).suspended = none)) ∧
  (∀ s : State,
    let z := s.bus.unit
    let v := s.bus.val
    let x := zoneAt s z
    (∃ u, exec .sensorSample s = .next u ∧ (zoneAt u z).press = v / 2 ^ 48 % 2 ^ 16 ∧ (zoneAt u z).flow = v / 2 ^ 32 % 2 ^ 16 ∧
      (zoneAt u z).tout = v / 2 ^ 16 % 2 ^ 16 ∧ (zoneAt u z).tin = v % 2 ^ 16 ∧ (zoneAt u z).mode = x.mode ∧ (zoneAt u z).thr = x.thr ∧
      (zoneAt u z).valve = x.valve ∧ (zoneAt u z).catq = x.catq ∧ u.mem = s.mem ∧ ∀ j, j ≠ z → zoneAt u j = zoneAt s j) ∧
    (2 ≤ x.mode → exec .zctlEvac s = .next s) ∧
    (x.mode ≤ 1 → x.catq = [] → ∃ u, exec .zctlEvac s = .next u ∧ (zoneAt u z).mode = 2 ∧ (zoneAt u z).thr = 7 ∧ (zoneAt u z).step = 3 ∧
      (zoneAt u z).valve = 0 ∧ ∀ j, j ≠ z → zoneAt u j = zoneAt s j) ∧
    (x.mode ≤ 1 → z < 64 → ∀ key t, zoneTasks s z = [key] → taskNo s key = some t → t.killed = false → leavingTeams s z key t ≠ [] →
      ∃ u w, exec .zctlEvac s = .next u ∧ taskNo u key = some w ∧ (zoneAt u z).mode = 2 ∧ (zoneAt u z).thr = 7 ∧
        (mayEvacuate s t (affectedTeams s z key t) = true → w.ckPinned = true ∧ ∀ k ∈ leavingTeams s z key t, (teamAt w k).phase = .landing) ∧
        (mayEvacuate s t (affectedTeams s z key t) = false → w.killed = true)) ∧
    (x.mode ≤ 1 → throttled z (throttle s z) s ∧ ∃ u, exec .zctlEvac s = .next u ∧ (zoneAt u z).mode = 2 ∧ (zoneAt u z).thr = 7 ∧ turns z (throttle s z) u) ∧
    (x.mode ≠ 3 → x.mode ≠ 4 → exec .zctlReturn s = .next s) ∧
    (x.mode = 3 ∨ x.mode = 4 → ∃ u, exec .zctlReturn s = .next u ∧ (zoneAt u z).mode = 5 ∧ (zoneAt u z).valve = 0x80 ∧ (zoneAt u z).thr = 0) ∧
    ∃ u, exec .zctlWrite s = .next u ∧ (zoneAt u z).valve = (if x.mode ≤ 1 then v % 256 else x.valve) ∧
      (v / 256 % 8 < x.thrHot → overTemp x = true → (zoneAt u z).thr = x.thr ∧ (zoneAt u z).mode = x.mode) ∧
      (x.thrHot ≤ v / 256 % 8 ∨ overTemp x = false → (zoneAt u z).thr = v / 256 % 8 ∧
        (zoneAt u z).mode = if x.mode = 1 ∧ v / 256 % 8 < x.thrHot then 0 else x.mode)) ∧
  ∀ (s : State) (z : Nat),
    let x := zoneAt s z
    let die := if z < 64 then z / 4 else if z < 68 then 4 * (z - 64) else 0
    let posts := fun (u : State) => (eventsAt s die).count < 512 → (eventsAt s die).waiting = [] → (eventsAt u die).count = (eventsAt s die).count + 1
    let off := fun (i : Instr) (c : Prop) => c → exec i s = .next s
    (x.lf = false → x.flow < x.flowMin → x.valve ≠ 0 → 1000000 ≤ x.lowFor → ∃ u, exec (.coolLowflow z) s = .next u ∧ (zoneAt u z).lf = true ∧
      (zoneAt u z).mode = x.mode ∧ posts u) ∧
    off (.coolLowflow z) (x.lf = true ∨ x.flowMin ≤ x.flow ∨ x.valve = 0 ∨ x.lowFor < 1000000) ∧
    (x.ot = false → x.toutMax < x.tout → ∃ u, exec (.coolOvertemp z) s = .next u ∧ (zoneAt u z).ot = true ∧ (zoneAt u z).thr = max x.thr x.thrHot ∧
      (zoneAt u z).mode = (if x.mode = 0 then 1 else x.mode) ∧ posts u) ∧
    off (.coolOvertemp z) (x.ot = true ∨ x.tout ≤ x.toutMax) ∧
    (x.dr = false → x.press < x.dryP → x.valve ≠ 0 → 1000000 ≤ x.dryFor → x.mode = 2 → ∃ u, exec (.coolDry z) s = .next u ∧ (zoneAt u z).dr = true ∧
      (zoneAt u z).mode = 2 ∧ (zoneAt u z).step = x.step ∧ posts u) ∧
    (x.dr = false → x.press < x.dryP → x.valve ≠ 0 → 1000000 ≤ x.dryFor → x.mode ≠ 2 → x.catq = [] → ∃ u, exec (.coolDry z) s = .next u ∧
      (zoneAt u z).dr = true ∧ (zoneAt u z).mode = 2 ∧ (zoneAt u z).thr = 7 ∧ (zoneAt u z).valve = 0 ∧ posts u) ∧
    (x.dr = false → x.press < x.dryP → x.valve ≠ 0 → 1000000 ≤ x.dryFor → x.mode ≠ 2 →
      let p := throttle (zoneEvent (putZone s z { x with dr := true }) z 11 (zoneSens x)) z
      throttled z p s ∧ ∃ u, exec (.coolDry z) s = .next u ∧ (zoneAt u z).dr = true ∧ (zoneAt u z).mode = 2 ∧ (zoneAt u z).thr = 7 ∧ turns z p u) ∧
    off (.coolDry z) (x.dr = true ∨ x.dryP ≤ x.press ∨ x.valve = 0 ∨ x.dryFor < 1000000) ∧
    (x.mode = 2 → x.step = 2 → x.drainMs * 1000000 ≤ x.stepFor → ∃ u, exec (.evacDrainTimeout z) s = .next u ∧ (zoneAt u z).step = 3 ∧
      (zoneAt u z).valve = 0 ∧ (zoneAt u z).mode = 2 ∧
      (z < 64 → ∀ key ∈ zoneTasks s z, ∀ t, taskNo s key = some t → ∃ w, taskNo u key = some w ∧ w.killed = true)) ∧
    off (.evacDrainTimeout z) (x.mode ≠ 2 ∨ x.step ≠ 2 ∨ x.stepFor < x.drainMs * 1000000) ∧
    (x.mode = 2 → x.step = 3 → ∃ u, exec (.evacValveClosed z) s = .next u ∧ (zoneAt u z).step = 4 ∧ (zoneAt u z).stepFor = 0) ∧
    (x.mode = 2 → x.step = 4 → x.purgeMs * 1000000 ≤ x.stepFor → ∃ u, exec (.evacPurgeDone z) s = .next u ∧ (zoneAt u z).step = 5 ∧
      (zoneAt u z).pressAt = x.press) ∧
    (x.mode = 2 → x.step = 5 → x.decayMs * 1000000 ≤ x.stepFor → ∃ u, exec (.evacVerifyDone z) s = .next u ∧ (zoneAt u z).step = 0 ∧
      (zoneAt u z).mode = (if x.pressAt - x.press ≤ x.decayMax then 3 else 4) ∧ posts u) ∧
    (x.mode = 5 → x.flowMin ≤ x.flow → x.dryP ≤ x.press → 10000000 ≤ x.goodFor → ∃ u, exec (.zoneReady z) s = .next u ∧ (zoneAt u z).mode = 0 ∧ posts u) ∧
    off (.zoneReady z) (x.mode ≠ 5 ∨ x.goodFor < 10000000)

/-- For the register bus: PODID sets LINKEN, GTMASTER and, with every station down, ID; a destination's settings change only while it is not
valid or becomes so, and FENCED is cleared by a 1. A station comes up while links are enabled, and goes down. A request whose stream is free
is sent and counted; its response answers it, or ends one that its operation has given up. One to a fenced destination fails before it is
sent, and an access to one that is not valid is not sent. One unanswered for RTIMEOUT, by die 0's GT (log 16), fences its destination: each
of its requests completes with poison and none is pending. A served read, write or atomic reaches exactly its bytes of memory and owes its
answer, a message its ring, and a question for a slot is answered with the byte 1, 0 or 2, the model's encoding (log 10). An access that may
not reach this package, that names no memory, or that is of another kind is owed an error (log 81 says which). One to a held pseudo-channel
waits. A response owed too long is dropped. (R271, R275, R307, R346, R347, R350, R351, R352, R353) -/
def Obligations.PodStreamsAndFences : Prop :=
  (∀ s : State,
    let n := s.bus.unit
    let v := s.bus.val
    let x := destAt s n
    let id : BitVec 10 := if s.pod.up = 0 then BitVec.ofNat 10 v else s.pod.id
    let up : BitVec 16 := if v.testBit 11 then s.pod.up else 0
    exec .podidWrite s = .next (setPod s { s.pod with linkEn := v.testBit 11, gtMaster := v.testBit 10, id := id, up := up }) ∧
    exec .destFencedClear s = .next (setDest s n { x with fenced := false }) ∧
    (x.valid = true → v.testBit 63 = true → x.lasid ≠ v / 2 ^ 40 % 4096 ∨ x.rasid ≠ v / 2 ^ 28 % 4096 ∨ x.stav ≠ v.testBit 61 ∨
      x.atom ≠ BitVec.ofNat 8 (v / 2 ^ 20 % 128) → exec .destWrite s = .next s) ∧
    let y := { x with valid := v.testBit 63, stav := v.testBit 61, lasid := v / 2 ^ 40 % 4096, rasid := v / 2 ^ 28 % 4096 }
    let atom := BitVec.ofNat 8 (v / 2 ^ 20 % 128)
    (x.valid = false ∨ v.testBit 63 = false →
      exec .destWrite s = .next (setDest s n { y with atom := atom, fenced := x.fenced && !v.testBit 62 }))) ∧
  (∀ (s : State) (k : Nat), (s.pod.linkEn = true → k < 16 → ∃ u, exec (.stationUp k) s = .next u ∧ u.pod.up = s.pod.up ||| (1#16 <<< k) ∧ u.mem = s.mem) ∧
    (s.pod.linkEn = false → exec (.stationUp k) s = .next s) ∧
    ∃ u, exec (.stationDown k) s = .next u ∧ u.pod.up = s.pod.up &&& ~~~(1#16 <<< k) ∧ u.mem = s.mem ∧ u.pod.requests = s.pod.requests) ∧
  (∀ (s : State) (r : Request), requestNo s r.id = some r →
    let d := destAt s r.dest
    (r.sent = none → r.answered = false → d.fenced = false → (stationOf s r.dest r.cls.toNat).isSome = true → requestBehind s r = false → d.pend < 1023 →
      d.valid = true →
      ∃ u, exec (.remoteRequestSend r.id) s = .next u ∧ requestNo u r.id = some { r with sent := some (gtAt s 0) } ∧
        destAt u r.dest = { d with pend := d.pend + 1 } ∧ u.mem = s.mem) ∧
    (r.sent = none → r.answered = false → d.fenced = true → ∃ u, exec (.remoteRequestSend r.id) s = .next u ∧
      requestNo u r.id = some { r with answered := true, poison := true } ∧ u.pod.dests = s.pod.dests ∧ u.mem = s.mem) ∧
    (r.sent = none → d.fenced = false → d.valid = false → exec (.remoteRequestSend r.id) s = .next s) ∧
    (r.sent.isSome = true → r.answered = false → ∃ u, exec (.remoteResponse r.id) s = .next u ∧
      requestNo u r.id = (if isOrphan r then none else some { r with answered := true }) ∧
      destAt u r.dest = { d with pend := d.pend - 1 } ∧ u.mem = s.mem) ∧
    (r.sent = none ∨ r.answered = true → exec (.remoteResponse r.id) s = .next s) ∧
    ∀ t, r.sent = some t → r.answered = false → s.pod.rtimeout.toNat ≤ (gtAt s 0 - t).toNat → ∃ u, exec (.remoteFence r.id) s = .next u ∧
      destAt u r.dest = { d with fenced := true, pend := 0 } ∧ u.mem = s.mem ∧ u.ops = s.ops ∧
      ∀ q ∈ u.pod.requests, q.dest = r.dest → q.answered = true ∧ (q ∈ s.pod.requests ∨ q.poison = true)) ∧
  (∀ (s : State) (r : Incoming), s.pod.incoming.find? (fun x => x.id == r.id) = some r →
    s.pod.incoming.find? (fun x => x.dest == r.dest && x.cls == r.cls) = some r →
    let d := destAt s r.dest
    let run := exec (.incomingRemoteRequest r.id) s
    let owes := fun (u : State) (error : Bool) (l : List Byte) => u.pod.owed = s.pod.owed ++ [{ id := r.id, dest := r.dest, since := gtAt s 0, error := error, bytes := l }] ∧
      u.pod.incoming = s.pod.incoming.filter (fun x => x.id != r.id) ∧ u.seqs = s.seqs
    (d.valid = false → ∃ u, run = .next u ∧ owes u true [] ∧ u.mem = s.mem) ∧
    (d.valid = true →
      (∀ (va n : Nat) (l : List Nat), r.kind = .read va n → incomingPlaces s d.lasid false va n = some l → placesHeld s l = false →
        ∃ u, run = .next u ∧ owes u false (l.map (memByte s.mem)) ∧ u.mem = s.mem) ∧
      (∀ (va : Nat) (b : List Byte) (l : List Nat), r.kind = .write va b → incomingPlaces s d.lasid true va b.length = some l → placesHeld s l = false →
        ∃ u, run = .next u ∧ owes u false [] ∧ wrote (l.zip b) s u) ∧
      (∀ (op : AtomicOp) (va : Nat) (x y : Word) (m : BitVec 2) (l : List Nat), r.kind = .atomic op va x y m → va % 4 = 0 →
        incomingPlaces s d.lasid true va 4 = some l → placesHeld s l = false →
        let old := wordAtLoc s (l.headD 0)
        ∃ u, run = .next u ∧ owes u false (leBytes 4 old.toNat) ∧ u.mem = memPutBytes s.mem (l.headD 0) (leBytes 4 (atomicNew op old x y m).1.toNat)) ∧
      (r.kind = .other ∨ (∃ va n, r.kind = .read va n ∧ incomingPlaces s d.lasid false va n = none) ∨
        (∃ va b, r.kind = .write va b ∧ incomingPlaces s d.lasid true va b.length = none) ∨
        (∃ op va x y m, r.kind = .atomic op va x y m ∧ (va % 4 ≠ 0 ∨ incomingPlaces s d.lasid true va 4 = none)) →
        ∃ u, run = .next u ∧ owes u true [] ∧ u.mem = s.mem) ∧
      (∀ (va n : Nat) (b : List Byte) (l : List Nat), placesHeld s l = true → (r.kind = .read va n ∧ incomingPlaces s d.lasid false va n = some l) ∨
        (r.kind = .write va b ∧ incomingPlaces s d.lasid true va b.length = some l) → run = .next s) ∧
      (∀ (ring : Word) (row : Row) (p : Nat), r.kind = .message ring row p →
        (incomingRing s r ring p = none → incomingSuspended s r ring p = true → run = .next s) ∧
        (incomingRing s r ring p = none → incomingSuspended s r ring p = false → ∃ u, run = .next u ∧ owes u true [] ∧ u.cores = s.cores) ∧
        ∀ x, incomingRing s r ring p = some x → (x.nslot.toNat + 1 ≤ x.count → run = .next s) ∧
          (x.count < x.nslot.toNat + 1 → ∃ u, run = .next u ∧ owes u false [] ∧ u.mem = s.mem ∧
            u.cores = (deliverRow s (sendTarget ring).1 (sendTarget ring).2 row).cores)) ∧
      ∀ (ring : Word) (p : Nat), r.kind = .slot ring p →
        (incomingRing s r ring p = none → ∃ u, run = .next u ∧ owes u false [if incomingSuspended s r ring p then 0 else 2] ∧ u.cores = s.cores) ∧
        ∀ x, incomingRing s r ring p = some x → ∃ u, run = .next u ∧ owes u false [if x.nslot.toNat + 1 ≤ x.count then 0 else 1] ∧ u.cores = s.cores)) ∧
  ∀ (s : State) (n : Nat), ∃ u, exec (.owedResponseTimeout n) s = .next u ∧ u.mem = s.mem ∧
    ∀ o, o ∈ u.pod.owed ↔ o ∈ s.pod.owed ∧ (o.id ≠ n ∨ (gtAt s 0 - o.since).toNat < s.pod.rtimeout.toNat)

/-- For every state: a valid destination's translation request is answered from its address space, and noted as served when a page is found; a
response ends every walk that asked for its page, by a value whose encoding is the model's (log 82); an invalidation reaches every die at
once, when none is busy, and an answer ends the oldest wait for that destination (log 110). The time master sends die 0's GT (log 16) to
every valid destination, when a millisecond has passed since it last did (log 123); another package that is behind advances every die's GT
to the message at once (their skew is always 0: the model's choice, log 153), one that is ahead keeps its GT and the excess to lose (log
80), and the third small correction in a row locks. An arrival at the master counts for its barrier, and the last completes the phase: on
the master's own dies, and by a completion to every other member; a completion reaches the dies of the task, found by its identifier (log
9); a group with a fenced member or master (log 38 says which are known) ends its waits with ENG_TIMEOUT. The number that names a group and
its barrier is the model's (log 83). (R349, R355, R356, R357, R327) -/
def Obligations.TranslationsTimeAndPodBarriers : Prop :=
  (∀ (s : State) (n va : Nat),
    let d := destAt s n
    let p := (pageFor s.pages d.lasid va).filter (fun p => match p.target with
      | .local_ _ _ _ => true
      | _ => false)
    (d.valid = false → exec (.atsTranslationRequest n va) s = .next s) ∧
    (d.valid = true → ∃ u, exec (.atsTranslationRequest n va) s = .next u ∧ u.mem = s.mem ∧
      u.pod.outbox = s.pod.outbox ++ [.translation n (va / 65536) p.isSome (p.any (fun p => p.writable))] ∧
      (p.isSome = true → (n, d.lasid, va / 65536) ∈ u.pod.served) ∧ (p.isSome = false → u.pod.served = s.pod.served))) ∧
  (∀ (s : State) (n vpn v : Nat),
    let asks := fun (r : Request) (die asid w : Nat) => r ∈ s.pod.requests ∧ r.dest = n ∧ r.sent.isSome = true ∧
      ∃ va, r.kind = .translation die asid w va ∧ va / 65536 = vpn
    ((∀ r die asid w, ¬ asks r die asid w) → exec (.atsTranslationResponse n vpn v) s = .next s) ∧
    ((∃ r die asid w, asks r die asid w) → ∃ u, exec (.atsTranslationResponse n vpn v) s = .next u ∧ u.mem = s.mem ∧ u.ops = s.ops ∧
      (∀ r, r ∈ u.pod.requests ↔ r ∈ s.pod.requests ∧ ∀ die asid w, ¬ asks r die asid w) ∧
      (destAt u n).pend = (destAt s n).pend - (s.pod.requests.length - u.pod.requests.length) ∧
      ∀ r die asid w, asks r die asid w → (asid, w) ∉ tget [] u.walks die ∧
        (v % 4 = 0 → tlbFind u die asid (w * 65536) = some .unmapped) ∧ (v % 4 = 2 → tlbFind u die asid (w * 65536) = some .denied) ∧
        ∀ p, v % 2 = 1 → pageFor s.pages asid (w * 65536) = some p →
          tlbFind u die asid (w * 65536) = some (.page { p with writable := p.writable && v.testBit 1 }))) ∧
  (∀ (s : State) (n vpn size : Nat),
    ((∀ d < 16, (dieAt s d).xlinv = none) → ∃ u, exec (.atsInvalidation n vpn size) s = .next u ∧ u.pod.answers = s.pod.answers ++ [n] ∧ u.mem = s.mem ∧
      ∀ d < 16, (dieAt u d).xlinv = some { dest := some n, asid := 0, size := size % 4, vpn := vpn }) ∧
    ((∃ d, d < 16 ∧ (dieAt s d).xlinv.isSome = true) → exec (.atsInvalidation n vpn size) s = .next s) ∧
    ((∀ w ∈ s.pod.waits, w.1 ≠ n) → exec (.atsInvalidationAnswer n) s = .next s) ∧
    ∀ x w y, s.pod.waits = x ++ w :: y → w.1 = n → (∀ a ∈ x, a.1 ≠ n) → exec (.atsInvalidationAnswer n) s = .next (setPod s { s.pod with waits := x ++ y })) ∧
  (∀ s : State,
    let due := s.pod.timeSent = none ∨ ∃ t, s.pod.timeSent = some t ∧ 1000000 ≤ (gtAt s 0 - t).toNat
    (s.pod.gtMaster = false ∨ ¬due → exec .gtTimeMessageSend s = .next s) ∧
    (s.pod.gtMaster = true → due → ∃ u, exec .gtTimeMessageSend s = .next u ∧ u.gt = s.gt ∧ u.pod.timeSent = some (gtAt s 0) ∧
      u.pod.outbox = s.pod.outbox ++ (s.pod.dests.filter (fun d => d.2.valid)).map (fun d => PodMsg.time d.1 (gtAt s 0)))) ∧
  (∀ (s : State) (n gt : Nat),
    let own := (gtAt s 0).toNat
    (s.pod.gtMaster = true ∨ (destAt s n).valid = false ∨ (destAt s n).fenced = true → exec (.gtTimeMessage n gt) s = .next s) ∧
    (s.pod.gtMaster = false → (destAt s n).valid = true → (destAt s n).fenced = false → ∃ u, exec (.gtTimeMessage n gt) s = .next u ∧ u.mem = s.mem ∧
      (own ≤ gt → u.pod.slow = 0 ∧ ∀ d < 16, gtAt u d = gtAt s d + BitVec.ofNat 64 (gt - own)) ∧ (gt < own → u.pod.slow = own - gt ∧ u.gt = s.gt) ∧
      (100 ≤ gt - own + (own - gt) → u.pod.small = 0 ∧ u.pod.locked = s.pod.locked) ∧
      (gt - own + (own - gt) < 100 → u.pod.small = min 3 (s.pod.small + 1) ∧ (2 ≤ s.pod.small → u.pod.locked = true)))) ∧
  ∀ (s : State) (x : Nat),
    let g := groupAt s (x / 8)
    (∀ n, g.valid = true → g.master = s.pod.id.toNat → (destAt s n).valid = true →
      (g.arrived.filter (fun y => y.1 == x % 8)).length + 1 < groupSize g → ∃ u, exec (.podBarrierArrival x n) s = .next u ∧
        groupAt u (x / 8) = { g with arrived := g.arrived ++ [(x % 8, n)] } ∧ u.seqs = s.seqs ∧ u.mem = s.mem) ∧
    (∀ n, g.valid = true → g.master = s.pod.id.toNat → (destAt s n).valid = true → groupSize g ≤ (g.arrived.filter (fun y => y.1 == x % 8)).length + 1 →
      let others := ((g.arrived ++ [(x % 8, n)]).filter (fun y => y.1 == x % 8 && y.2 != s.pod.id.toNat)).map Prod.snd
      ∃ u, exec (.podBarrierArrival x n) s = .next u ∧ u.pod.outbox = s.pod.outbox ++ others.map (fun y => .completion y x) ∧
        groupAt u (x / 8) = { g with arrived := g.arrived.filter (fun y => y.1 != x % 8) } ∧ u.seqs = s.seqs ∧ u.mem = s.mem ∧
        ∀ k t, findTask s g.task = some (k, t) →
          let at_ := fun (d : Nat) => barrierKey k 4 d (x % 8)
          barrierAt u (at_ t.home) = { count := 0, gen := (barrierAt s (at_ t.home)).gen + 1 } ∧
            ∃ l, u.barMsgs = s.barMsgs ++ l ∧ l.map (fun m => (m.key, m.die, m.arrival)) =
              ((List.range 16).filter (fun d => d != t.home)).map (fun d => (at_ d, d, false))) ∧
    (∀ k t, g.valid = true → findTask s g.task = some (k, t) → ∃ u, exec (.podBarrierCompletion x) s = .next u ∧
      barrierAt u (barrierKey k 4 t.home (x % 8)) =
        { count := 0, gen := (barrierAt s (barrierKey k 4 t.home (x % 8))).gen + 1 } ∧ u.seqs = s.seqs ∧
      u.barMsgs.length = s.barMsgs.length + ((List.range 16).filter (fun d => d != t.home)).length) ∧
    (g.valid = false ∨ groupFenced s (x / 8) g = false → exec (.podBarrierTimeout x) s = .next s) ∧
    (∀ k t, g.valid = true → groupFenced s (x / 8) g = true → findTask s g.task = some (k, t) → ∃ u, exec (.podBarrierTimeout x) s = .next u ∧
      u.mem = s.mem ∧ ∀ q b a, (q, seqAt s q) ∈ s.seqs → taskOf (seqAt s q) = k → (seqAt s q).status = .running → (seqAt s q).endPending = false →
        phaseOpen s q 4 (x % 8) = true → (seqAt s q).barWait = some (b, a) → keyScope b = 4 → keyId b = x % 8 → (seqAt s q).reports = [] →
        ∃ r, (seqAt u q).reports = [r] ∧ r.cause = 0x34 ∧ r.engine = 5 ∧ r.slot = 2 ∧ r.baddr = a ∧ (seqAt u q).regs = (seqAt s q).regs) ∧
    ∀ k t q a, g.valid = true → groupFenced s (x / 8) g = true → findTask s g.task = some (k, t) → s.seqs = [(q, seqAt s q)] → taskOf (seqAt s q) = k →
      podWait s q (x % 8) = some a → (seqAt s q).reports = [] → ∃ u r, exec (.podBarrierTimeout x) s = .next u ∧ (seqAt u q).reports = [r] ∧ r.cause = 0x34 ∧
        r.engine = 5 ∧ r.slot = 2 ∧ r.baddr = a ∧ (seqAt u q).regs = (seqAt s q).regs ∧ u.mem = s.mem

/-- A package that is off comes up, and one that is on resets, with no strand but the stewards of the dies whose image passes, which start at
its entry; the others have failed with their code. HBM reads zero after it but for the stewards' code; a reset keeps the second tier, and
power keeps only the host's memory (log 85). An image passes when its magic, its length, the digest of its key, the signature of its digest
and its SVN do; its layout is log 17's and the order of the checks log 84's. GO takes the launches that waited for it (log 39), up to one
that reads a held pseudo-channel (R275), and changes nothing on a die whose boot has failed; SVNSET raises the fuses. An attestation is
refused with ERR where its 8 KiB do not lie in die 0's HBM (log 86), else writes them there, nothing else, once no strand holds a
pseudo-channel there. TRCTL keeps LOGSZ while enabled and clears the pointers at an enable; LOST writes its record with the count of what
was dropped, behind an ABS after a gap, and RESYNC its record; CAPSTART opens the capture of the task that has the identifier then (logs 9
and 142) that CAPSTOP closes with its 256-byte block, its record written once the block has performed (R343); the areas are physical in the
die's HBM (log 7), and what a unit writes to a held pseudo-channel waits for its PEXIT (R275). RPCTL keeps MODE for 3. A register write is
the write of the register at its offset. (R9, R296, R337, R340, R341, R343, R344, R358, R359, R360, R362, R363) -/
def Obligations.PowerTraceAndRegisterWrites : Prop :=
  (∀ s : State,
    let boots := fun (u : State) => u.ops = [] ∧ u.tasks = [] ∧ u.powered = true ∧ u.fuse = s.fuse ∧ u.flash = s.flash ∧
      (∀ q, q < 2048 → seqAt u q = Seq.reset) ∧ ∀ d < 16,
        let l := if Config.bootSource then s.hostImage else s.flash
        (dieAt u d).code = verdict s.fuse l ∧
        (verdict s.fuse l = 0 → (dieAt u d).boot = .started ∧ (dieAt u d).svn = imageSvn l ∧ (seqAt u (2048 + 2 * d)).status = .running ∧
          (seqAt u (2048 + 2 * d)).pc = imageEntry l) ∧
        (verdict s.fuse l ≠ 0 → (dieAt u d).boot = .failed ∧ (dieAt u d).fail = true ∧ seqAt u (2048 + 2 * d) = Seq.reset)
    let scrubbed := fun (u : State) (k : Nat) => ∀ a, a < location k 0 → (∀ d < 16,
      let l := if Config.bootSource then s.hostImage else s.flash
      verdict s.fuse l = 0 → a < location d 0 ∨ location d 0 + imageLength l ≤ a) → memByte u.mem a = 0
    let keeps := fun (u : State) (k : Nat) => Memory.wf s.mem → ∀ a, location k 0 ≤ a → a < location 48 0 → memByte u.mem a = memByte s.mem a
    (s.powered = false → (∃ u, exec .powerUp s = .next u ∧ boots u ∧ scrubbed u 38 ∧ keeps u 38) ∧ exec .packageReset s = .next s) ∧
    (s.powered = true → (∃ u, exec .packageReset s = .next u ∧ boots u ∧ scrubbed u 32 ∧ keeps u 32) ∧ exec .powerUp s = .next s) ∧
    ∃ u, exec .powerOff s = .next u ∧ u.powered = false ∧ (∀ a, a < location 38 0 → memByte u.mem a = 0) ∧ keeps u 38 ∧ u.seqs = [] ∧ u.fuse = s.fuse ∧ u.flash = s.flash) ∧
  (∀ (f : Nat) (l : List Byte), verdict f l = 0 ↔ 64 ≤ l.length ∧ natAt l 0 4 = 0x53545646 ∧ 64 + imageLength l + 3309 ≤ l.length ∧
    shake256 64 (Config.publicKey l) = Config.fusedKey ∧
    Config.mldsaVerify (Config.publicKey l) (shake256 64 (l.take (64 + imageLength l))) ((l.drop (64 + imageLength l)).take 3309) = true ∧
    max Config.fusedSvn f ≤ (imageSvn l).toNat) ∧
  (∀ s : State,
    let d := s.bus.unit
    let v := s.bus.val
    let x := dieAt s d
    let t := x.trace
    let p := x.replay
    let c := x.capture
    let logsz := v / 2 ^ 12 % 32
    let mode := if v % 4 = 3 then p.mode else v % 4
    (v % 2 = 0 → exec .bootstatGo s = .next s) ∧
    (x.boot = .failed → exec .bootstatGo s = .next s) ∧
    (v % 2 = 1 → x.boot ≠ .failed → ∃ u, exec .bootstatGo s = .next u ∧ (dieAt u d).go = true ∧ u.seqs = s.seqs ∧
      (x.asked = [] → u.tasks = s.tasks ∧ u.mem = s.mem ∧ ∀ j, j ≠ d → dieAt u j = dieAt s j) ∧
      (∀ a l, x.asked = a :: l → launchHeld s d a.asid a.record = true → (dieAt u d).asked = x.asked ∧ u.tasks = s.tasks ∧ u.mem = s.mem) ∧
      ∀ a, x.asked = [a] → launchHeld s d a.asid a.record = false → refusal s d a.asid a.record = none → (dieAt u d).asked = [] ∧ ∃ y, taskNo u (taskKey a.asid (recordOf a.record).taskId) = some y ∧
        y.home = d ∧ y.info = recordOf a.record ∧ y.start = a.start ∧ y.host = a.host) ∧
    exec .bootstatSvnset s = .next { s with fuse := max s.fuse x.svn.toNat } ∧
    (s.attest.busy = true → exec .attctlGo s = .next s) ∧
    (s.attest.busy = false → s.attest.dest.toNat + 8192 ≤ 64 * 10 ^ 9 →
      exec .attctlGo s = .next { s with attest := { s.attest with err := false, busy := true } }) ∧
    (s.attest.busy = false → 64 * 10 ^ 9 < s.attest.dest.toNat + 8192 → exec .attctlGo s = .next { s with attest := { s.attest with err := true } }) ∧
    (s.attest.busy = false → exec .attestationComplete s = .next s) ∧
    let area := fun (a : Nat) => s.attest.dest.toNat ≤ a ∧ a < s.attest.dest.toNat + 8192
    ((∃ a, area a ∧ channelHeld s a = true) → exec .attestationComplete s = .next s) ∧
    (s.attest.busy = true → (∀ a, area a → channelHeld s a = false) → ∃ u, exec .attestationComplete s = .next u ∧
      u.attest = { s.attest with busy := false } ∧ u.seqs = s.seqs ∧ (∀ a, ¬ area a → memByte u.mem a = memByte s.mem a) ∧
      ∀ j < 16, memByte u.mem (s.attest.dest.toNat + j) = BitVec.ofNat 8 (Config.serialNumber.toNat / 256 ^ j)) ∧
    (logsz < 12 ∨ 30 < logsz → exec .trctlWrite s = .next s) ∧
    (12 ≤ logsz → logsz ≤ 30 → ∃ u, exec .trctlWrite s = .next u ∧ (dieAt u d).trace.en = v.testBit 0 ∧ (dieAt u d).trace.sen = v.testBit 37 ∧
      (dieAt u d).trace.slog = v / 2 ^ 32 % 32 ∧ (dieAt u d).trace.logsz = (if t.en then t.logsz else logsz) ∧ u.mem = s.mem ∧
      (dieAt u d).trace.rd = (if v.testBit 0 && !t.en then 0 else t.rd) ∧ (dieAt u d).trace.wr = (if v.testBit 0 && !t.en then 0 else t.wr)) ∧
    let next := if p.mode = 0 ∧ mode = 1 then 0 else p.next
    exec .rpctlWrite s = .next (setDie s d { x with replay := { p with asid := v / 2 ^ 40 % 4096, log := v / 2 ^ 32 % 32, mode := mode, next := next } }) ∧
    (c.task.isSome = true → exec .capstart s = .next s) ∧
    let w : Word := BitVec.ofNat 32 v
    let opened := fun (k : Option Nat) (l : Sums) => { c with task := some w, key := k, start := l, ended := Sums.zero, preempt := 0, begun := gtAt s d }
    (c.task = none → t.en = false → ∃ u, exec .capstart s = .next u ∧ u.mem = s.mem ∧
      (∀ k y, findTask s w = some (k, y) → taskNo s k = some y → (dieAt u d).capture = opened (some k) (taskSums s d y)) ∧
      (findTask s w = none → (dieAt u d).capture = opened none Sums.zero)) ∧
    (c.task ≠ some w → exec .capstop s = .next s) ∧
    (c.task = some w → t.en = false → ∃ u, exec .capstop s = .next u ∧ (dieAt u d).capture = { c with task := none, key := none } ∧
      ∀ k l, c.key = some k → (taskNo s k = none → l = Sums.zero) → (∀ y, taskNo s k = some y → l = taskSums s d y) →
        noChannelHeld s = true → u.mem = memPutBytes s.mem (location d c.addr.toNat) (captureBlock c (l.add c.ended) (gtAt s d))) ∧
    (∀ n < 256, location d c.addr.toNat + n < location 48 0 → channelHeld s (location d c.addr.toNat + n) = true → c.task = some w →
      ∃ u e, exec .capstop s = .next u ∧ (dieAt u d).trace = { t with due := t.due ++ [e] } ∧ e.kind = 0x11 ∧
        e.load = BitVec.ofNat 64 (w.toNat * 2 ^ 32 + c.preempt % 2 ^ 32)) ∧
    (t.due = [] → writeDue s d = setDie s d x) ∧
    (∀ e, t.due = [e] → (s.forwards.any (fun f => f.op == e.op) = true → (dieAt (writeDue s d) d).trace = t) ∧
      (s.forwards.any (fun f => f.op == e.op) = false →
        writeDue s d = traceRecord (setDie s d { x with trace := { t with due := [] } }) d e.kind e.load 0 none)) ∧
    exec .registerWrite s = .next (if d = 16 then writeHostReg s (s.bus.reg / 8 * 8) (v % 2 ^ 64) else writeRegister s d (s.bus.reg / 8 * 8) (v % 2 ^ 64))) ∧
  (∀ (s : State) (d v : Nat), d < 16 → writeRegister s d 0x00 v = setDie s d { dieAt s d with drainLimit := BitVec.ofNat 64 v } ∧
    readRegister (writeRegister s d 0x00 v) d 0x00 = v % 2 ^ 64 ∧ readRegister s d 0x08 = (dieAt s d).killCost.toNat * 2 ^ 32 + (dieAt s d).ckptCost.toNat) ∧
  (∀ (s : State) (d : Nat),
    let t := (dieAt s d).trace
    let gap := (gtAt s d - t.last).toNat
    let put := fun (m : List Host.Cell) (n : Word) (w : Nat) => memPutBytes m (location d (t.base.toNat + 16 * (n.toNat % traceCapacity t))) (leBytes 16 w)
    let count := BitVec.ofNat 64 t.dropped
    t.en = true → (0 < t.dropped → 3 ≤ traceFree t → t.resync = false → ∃ u, exec (.lost d) s = .next u ∧ (dieAt u d).trace.dropped = 0 ∧
      (dieAt u d).trace.last = gtAt s d ∧ u.seqs = s.seqs ∧
      (t.fresh = false → gap ≤ 65535 → (dieAt u d).trace.wr = t.wr + 1 ∧ (noChannelHeld s = true → u.mem = put s.mem t.wr (traceWord 0x0B gap count 0 none))) ∧
      (t.fresh = true ∨ 65535 < gap → (dieAt u d).trace.wr = t.wr + 2 ∧
        (noChannelHeld s = true → u.mem = put (put s.mem t.wr (traceWord 0x08 0 (gtAt s d) 0 none)) (t.wr + 1) (traceWord 0x0B 0 count 0 none)))) ∧
      (t.resync = true → gtLocked s = true → 0 < traceFree t → ∃ u, exec (.resync d) s = .next u ∧ (dieAt u d).trace.resync = false ∧
        (dieAt u d).trace.wr = t.wr + 1 ∧ (dieAt u d).trace.last = gtAt s d ∧
        (noChannelHeld s = true →
          u.mem = memPutBytes s.mem (location d (t.base.toNat + 16 * (t.wr.toNat % traceCapacity t))) (leBytes 16 (traceWord 0x0A 0 (gtAt s d) 0 none))))) ∧
  ∀ (s : State) (l : List Host.Cell),
    let t := writeHome s l
    (∀ a, (∀ c ∈ l, c.1 ≠ a) ∨ channelHeld s a = true → memByte t.mem a = memByte s.mem a) ∧ t.seqs = s.seqs ∧ t.ops = s.ops ∧
      (∀ a b, channelHeld s a = false → l.reverse.find? (fun c => c.1 == a) = some (a, b) → memByte t.mem a = b) ∧
      ∀ c ∈ l, channelHeld s c.1 = true → c.1 < location 48 0 → ∃ f ∈ t.forwards, f.die = noDie ∧ c ∈ f.cells
end

