-- ==== Sys2Proof/Laws/Sparse.lean ====
section
/-! SUPPORT. Sys2Proof/Laws/Sparse.lean: what a table reads after a write, the canonical form of a sparse map under its operations, and vectors. -/

namespace Sys2Proof.Machine

/-! Reads of a table. -/

theorem tget_tput {α : Type} (d : α) (t : Sparse α) (j k : Nat) (v : α) : tget d (tput t k v) j = if j = k then v else tget d t j := by
  induction t with
  | nil => simp [tput, tget]
  | cons p rest ih =>
    obtain ⟨k', v'⟩ := p
    simp only [tput]
    split
    · simp only [tget]
    · split
      · rename_i h
        subst h
        simp only [tget]
        split <;> rfl
      · simp only [tget, ih]
        split
        · rename_i h1 h2
          subst h2
          rw [if_neg (Ne.symm h1)]
        · rfl

@[simp] theorem tget_tput_same {α : Type} (d : α) (t : Sparse α) (k : Nat) (v : α) : tget d (tput t k v) k = v := by simp [tget_tput]

theorem tget_tput_ne {α : Type} (d : α) (t : Sparse α) {j k : Nat} (v : α) (h : j ≠ k) : tget d (tput t k v) j = tget d t j := by
  simp [tget_tput, h]

theorem tget_tdel {α : Type} (d : α) (t : Sparse α) (j k : Nat) : tget d (tdel t k) j = if j = k then d else tget d t j := by
  induction t with
  | nil => simp [tdel, tget]
  | cons p rest ih =>
    obtain ⟨k', v'⟩ := p
    simp only [tdel]
    split
    · rename_i h
      subst h
      simp only [ih, tget]
      split <;> rfl
    · simp only [tget, ih]
      split
      · rename_i h1 h2
        subst h2
        rw [if_neg (Ne.symm h1)]
      · rfl

theorem tget_sput {α : Type} [DecidableEq α] (d : α) (t : Sparse α) (j k : Nat) (v : α) :
    tget d (sput d t k v) j = if j = k then v else tget d t j := by
  unfold sput
  split
  · rename_i h
    rw [tget_tdel, h]
  · rw [tget_tput]

theorem tfind_tput {α : Type} (t : Sparse α) (j k : Nat) (v : α) : tfind (tput t k v) j = if j = k then some v else tfind t j := by
  induction t with
  | nil => simp [tput, tfind]
  | cons p rest ih =>
    obtain ⟨k', v'⟩ := p
    simp only [tput]
    split
    · simp only [tfind]
    · split
      · rename_i h
        subst h
        simp only [tfind]
        split <;> rfl
      · simp only [tfind, ih]
        split
        · rename_i h1 h2
          subst h2
          rw [if_neg (Ne.symm h1)]
        · rfl

/-! The canonical form. -/

/-- A bound that lies below another bound. -/
def boundLe (a b : Option Nat) : Bool :=
  match a, b with
  | none, _ => true
  | some _, none => false
  | some x, some y => decide (x ≤ y)

theorem risesFrom_weaken {α : Type} {a b : Option Nat} (t : Sparse α) (hab : boundLe a b = true) (h : risesFrom b t = true) :
    risesFrom a t = true := by
  cases t with
  | nil => rfl
  | cons p rest =>
    obtain ⟨k, v⟩ := p
    simp only [risesFrom, Bool.and_eq_true] at h ⊢
    refine ⟨?_, h.2⟩
    cases a with
    | none => rfl
    | some x =>
      cases b with
      | none => simp [boundLe] at hab
      | some y =>
        have h1 : x ≤ y := by simpa [boundLe] using hab
        have h2 : y < k := by simpa using h.1
        simp only [decide_eq_true_eq]
        omega

/-- The key lies above the bound. -/
def aboveBound (b : Option Nat) (k : Nat) : Bool :=
  match b with
  | none => true
  | some x => decide (x < k)

theorem risesFrom_cons {α : Type} (b : Option Nat) (k : Nat) (v : α) (t : Sparse α) :
    risesFrom b ((k, v) :: t) = (aboveBound b k && risesFrom (some k) t) := by
  cases b <;> rfl

theorem risesFrom_tput {α : Type} (t : Sparse α) (b : Option Nat) (k : Nat) (v : α) (hb : aboveBound b k = true)
    (h : risesFrom b t = true) : risesFrom b (tput t k v) = true := by
  induction t generalizing b with
  | nil => simp [tput, risesFrom_cons, hb, risesFrom]
  | cons p rest ih =>
    obtain ⟨k', v'⟩ := p
    rw [risesFrom_cons, Bool.and_eq_true] at h
    simp only [tput]
    split
    · rename_i hk
      rw [risesFrom_cons, risesFrom_cons, hb, h.2]
      simp [aboveBound, hk]
    · split
      · rename_i hk
        subst hk
        simp [risesFrom_cons, hb, h.2]
      · rename_i h1 h2
        rw [risesFrom_cons, h.1, Bool.true_and]
        exact ih _ (by simp only [aboveBound, decide_eq_true_eq]; omega) h.2

theorem risesFrom_filter {α : Type} (t : Sparse α) (b : Option Nat) (f : Nat × α → Bool) (h : risesFrom b t = true) :
    risesFrom b (t.filter f) = true := by
  induction t generalizing b with
  | nil => rfl
  | cons p rest ih =>
    obtain ⟨k, v⟩ := p
    rw [risesFrom_cons, Bool.and_eq_true] at h
    rw [List.filter_cons]
    split
    · rw [risesFrom_cons, h.1, Bool.true_and]
      exact ih _ h.2
    · refine risesFrom_weaken _ ?_ (ih _ h.2)
      cases b with
      | none => rfl
      | some x =>
        have h1 : x < k := by simpa [aboveBound] using h.1
        simp only [boundLe, decide_eq_true_eq]
        omega

theorem tdel_eq_filter {α : Type} (t : Sparse α) (k : Nat) : tdel t k = t.filter (fun p => decide (k ≠ p.1)) := by
  induction t with
  | nil => rfl
  | cons p rest ih =>
    obtain ⟨k', v⟩ := p
    by_cases h : k = k'
    · subst h; simp [tdel, ih]
    · simp [tdel, h, ih]

theorem mem_tput {α : Type} (t : Sparse α) (k : Nat) (v : α) (p : Nat × α) (h : p ∈ tput t k v) : p = (k, v) ∨ p ∈ t := by
  induction t with
  | nil => simp only [tput, List.mem_singleton] at h; exact .inl h
  | cons q rest ih =>
    obtain ⟨k', v'⟩ := q
    simp only [tput] at h
    split at h
    · simpa using h
    · split at h
      · simp only [List.mem_cons] at h ⊢
        rcases h with h | h
        · exact .inl h
        · exact .inr (.inr h)
      · simp only [List.mem_cons] at h ⊢
        rcases h with h | h
        · exact .inr (.inl h)
        · rcases ih h with h | h
          · exact .inl h
          · exact .inr (.inr h)

theorem sparseOk_filter {α : Type} [DecidableEq α] (d : α) (t : Sparse α) (f : Nat × α → Bool) (h : sparseOk d t = true) :
    sparseOk d (t.filter f) = true := by
  simp only [sparseOk, Bool.and_eq_true, List.all_eq_true] at h ⊢
  exact ⟨risesFrom_filter _ _ _ h.1, fun p hp => h.2 p (List.mem_filter.mp hp).1⟩

theorem sparseOk_sput {α : Type} [DecidableEq α] (d : α) (t : Sparse α) (k : Nat) (v : α) (h : sparseOk d t = true) :
    sparseOk d (sput d t k v) = true := by
  unfold sput
  split
  · rw [tdel_eq_filter]
    exact sparseOk_filter _ _ _ h
  · rename_i hv
    simp only [sparseOk, Bool.and_eq_true, List.all_eq_true] at h ⊢
    refine ⟨risesFrom_tput _ _ _ _ rfl h.1, fun p hp => ?_⟩
    rcases mem_tput _ _ _ _ hp with hp | hp
    · subst hp
      simpa using hv
    · exact h.2 p hp

theorem sparseOk_nil {α : Type} [DecidableEq α] (d : α) : sparseOk d ([] : Sparse α) = true := rfl

/-! Vectors. -/

theorem vget_vput {α : Type} {n : Nat} (d : α) (v : Vector α n) (i j : Nat) (x : α) (h : i < n) :
    vget d (vput v i x) j = if j = i then x else vget d v j := by
  unfold vget vput
  rw [Vector.getElem?_setIfInBounds]
  by_cases hj : i = j
  · subst hj; simp [h]
  · simp [hj, Ne.symm hj]

@[simp] theorem vget_vput_same {α : Type} {n : Nat} (d : α) (v : Vector α n) (i : Nat) (x : α) (h : i < n) : vget d (vput v i x) i = x := by
  simp [vget_vput _ _ _ _ _ h]

theorem vget_vput_ne {α : Type} {n : Nat} (d : α) (v : Vector α n) {i j : Nat} (x : α) (h : j ≠ i) : vget d (vput v i x) j = vget d v j := by
  unfold vget vput
  rw [Vector.getElem?_setIfInBounds]
  simp [Ne.symm h]

end Sys2Proof.Machine
end

