-- ==== Sys2Proof/Laws/State.lean ====
section
/-! SUPPORT. Sys2Proof/Laws/State.lean: one lemma for each field of the state under each named update, and what a record reads after it. -/

namespace Sys2Proof.Machine

@[simp] theorem setSeq_seqs (s : State) (q : Nat) (x : Seq) : (setSeq s q x).seqs = tput s.seqs q x := rfl
@[simp] theorem setSeq_cores (s : State) (q : Nat) (x : Seq) : (setSeq s q x).cores = s.cores := rfl
@[simp] theorem setSeq_quads (s : State) (q : Nat) (x : Seq) : (setSeq s q x).quads = s.quads := rfl
@[simp] theorem setSeq_mem (s : State) (q : Nat) (x : Seq) : (setSeq s q x).mem = s.mem := rfl
@[simp] theorem setSeq_pages (s : State) (q : Nat) (x : Seq) : (setSeq s q x).pages = s.pages := rfl
@[simp] theorem setSeq_handles (s : State) (q : Nat) (x : Seq) : (setSeq s q x).handles = s.handles := rfl
@[simp] theorem setSeq_htlog (s : State) (q : Nat) (x : Seq) : (setSeq s q x).htlog = s.htlog := rfl
@[simp] theorem setSeq_damaged (s : State) (q : Nat) (x : Seq) : (setSeq s q x).damaged = s.damaged := rfl
@[simp] theorem setSeq_badTables (s : State) (q : Nat) (x : Seq) : (setSeq s q x).badTables = s.badTables := rfl
@[simp] theorem setSeq_forwards (s : State) (q : Nat) (x : Seq) : (setSeq s q x).forwards = s.forwards := rfl
@[simp] theorem setSeq_flock (s : State) (q : Nat) (x : Seq) : (setSeq s q x).flock = s.flock := rfl
@[simp] theorem setSeq_poison (s : State) (q : Nat) (x : Seq) : (setSeq s q x).poison = s.poison := rfl
@[simp] theorem setSeq_tlb (s : State) (q : Nat) (x : Seq) : (setSeq s q x).tlb = s.tlb := rfl
@[simp] theorem setSeq_walks (s : State) (q : Nat) (x : Seq) : (setSeq s q x).walks = s.walks := rfl
@[simp] theorem setSeq_slices (s : State) (q : Nat) (x : Seq) : (setSeq s q x).slices = s.slices := rfl
@[simp] theorem setSeq_ops (s : State) (q : Nat) (x : Seq) : (setSeq s q x).ops = s.ops := rfl
@[simp] theorem setSeq_nextOp (s : State) (q : Nat) (x : Seq) : (setSeq s q x).nextOp = s.nextOp := rfl
@[simp] theorem setSeq_events (s : State) (q : Nat) (x : Seq) : (setSeq s q x).events = s.events := rfl
@[simp] theorem setSeq_gt (s : State) (q : Nat) (x : Seq) : (setSeq s q x).gt = s.gt := rfl
@[simp] theorem setSeq_tasks (s : State) (q : Nat) (x : Seq) : (setSeq s q x).tasks = s.tasks := rfl
@[simp] theorem setSeq_killed (s : State) (q : Nat) (x : Seq) : (setSeq s q x).killed = s.killed := rfl
@[simp] theorem setSeq_launches (s : State) (q : Nat) (x : Seq) : (setSeq s q x).launches = s.launches := rfl
@[simp] theorem setSeq_dies (s : State) (q : Nat) (x : Seq) : (setSeq s q x).dies = s.dies := rfl
@[simp] theorem setSeq_zones (s : State) (q : Nat) (x : Seq) : (setSeq s q x).zones = s.zones := rfl
@[simp] theorem setSeq_bars (s : State) (q : Nat) (x : Seq) : (setSeq s q x).bars = s.bars := rfl
@[simp] theorem setSeq_barMsgs (s : State) (q : Nat) (x : Seq) : (setSeq s q x).barMsgs = s.barMsgs := rfl
@[simp] theorem setSeq_hqs (s : State) (q : Nat) (x : Seq) : (setSeq s q x).hqs = s.hqs := rfl
@[simp] theorem setSeq_admitted (s : State) (q : Nat) (x : Seq) : (setSeq s q x).admitted = s.admitted := rfl
@[simp] theorem setSeq_pod (s : State) (q : Nat) (x : Seq) : (setSeq s q x).pod = s.pod := rfl
@[simp] theorem setSeq_attest (s : State) (q : Nat) (x : Seq) : (setSeq s q x).attest = s.attest := rfl
@[simp] theorem setSeq_flash (s : State) (q : Nat) (x : Seq) : (setSeq s q x).flash = s.flash := rfl
@[simp] theorem setSeq_hostImage (s : State) (q : Nat) (x : Seq) : (setSeq s q x).hostImage = s.hostImage := rfl
@[simp] theorem setSeq_fuse (s : State) (q : Nat) (x : Seq) : (setSeq s q x).fuse = s.fuse := rfl
@[simp] theorem setSeq_powered (s : State) (q : Nat) (x : Seq) : (setSeq s q x).powered = s.powered := rfl
@[simp] theorem setSeq_bus (s : State) (q : Nat) (x : Seq) : (setSeq s q x).bus = s.bus := rfl
@[simp] theorem setSeq_agenda (s : State) (q : Nat) (x : Seq) : (setSeq s q x).agenda = s.agenda := rfl
@[simp] theorem setSeq_cur (s : State) (q : Nat) (x : Seq) : (setSeq s q x).cur = s.cur := rfl
@[simp] theorem setSeq_free (s : State) (q : Nat) (x : Seq) : (setSeq s q x).free = s.free := rfl

@[simp] theorem setMe_seqs (s : State) (x : Seq) : (setMe s x).seqs = tput s.seqs s.cur x := rfl
@[simp] theorem setMe_cores (s : State) (x : Seq) : (setMe s x).cores = s.cores := rfl
@[simp] theorem setMe_quads (s : State) (x : Seq) : (setMe s x).quads = s.quads := rfl
@[simp] theorem setMe_mem (s : State) (x : Seq) : (setMe s x).mem = s.mem := rfl
@[simp] theorem setMe_pages (s : State) (x : Seq) : (setMe s x).pages = s.pages := rfl
@[simp] theorem setMe_handles (s : State) (x : Seq) : (setMe s x).handles = s.handles := rfl
@[simp] theorem setMe_htlog (s : State) (x : Seq) : (setMe s x).htlog = s.htlog := rfl
@[simp] theorem setMe_damaged (s : State) (x : Seq) : (setMe s x).damaged = s.damaged := rfl
@[simp] theorem setMe_badTables (s : State) (x : Seq) : (setMe s x).badTables = s.badTables := rfl
@[simp] theorem setMe_forwards (s : State) (x : Seq) : (setMe s x).forwards = s.forwards := rfl
@[simp] theorem setMe_flock (s : State) (x : Seq) : (setMe s x).flock = s.flock := rfl
@[simp] theorem setMe_poison (s : State) (x : Seq) : (setMe s x).poison = s.poison := rfl
@[simp] theorem setMe_tlb (s : State) (x : Seq) : (setMe s x).tlb = s.tlb := rfl
@[simp] theorem setMe_walks (s : State) (x : Seq) : (setMe s x).walks = s.walks := rfl
@[simp] theorem setMe_slices (s : State) (x : Seq) : (setMe s x).slices = s.slices := rfl
@[simp] theorem setMe_ops (s : State) (x : Seq) : (setMe s x).ops = s.ops := rfl
@[simp] theorem setMe_nextOp (s : State) (x : Seq) : (setMe s x).nextOp = s.nextOp := rfl
@[simp] theorem setMe_events (s : State) (x : Seq) : (setMe s x).events = s.events := rfl
@[simp] theorem setMe_gt (s : State) (x : Seq) : (setMe s x).gt = s.gt := rfl
@[simp] theorem setMe_tasks (s : State) (x : Seq) : (setMe s x).tasks = s.tasks := rfl
@[simp] theorem setMe_killed (s : State) (x : Seq) : (setMe s x).killed = s.killed := rfl
@[simp] theorem setMe_launches (s : State) (x : Seq) : (setMe s x).launches = s.launches := rfl
@[simp] theorem setMe_dies (s : State) (x : Seq) : (setMe s x).dies = s.dies := rfl
@[simp] theorem setMe_zones (s : State) (x : Seq) : (setMe s x).zones = s.zones := rfl
@[simp] theorem setMe_bars (s : State) (x : Seq) : (setMe s x).bars = s.bars := rfl
@[simp] theorem setMe_barMsgs (s : State) (x : Seq) : (setMe s x).barMsgs = s.barMsgs := rfl
@[simp] theorem setMe_hqs (s : State) (x : Seq) : (setMe s x).hqs = s.hqs := rfl
@[simp] theorem setMe_admitted (s : State) (x : Seq) : (setMe s x).admitted = s.admitted := rfl
@[simp] theorem setMe_pod (s : State) (x : Seq) : (setMe s x).pod = s.pod := rfl
@[simp] theorem setMe_attest (s : State) (x : Seq) : (setMe s x).attest = s.attest := rfl
@[simp] theorem setMe_flash (s : State) (x : Seq) : (setMe s x).flash = s.flash := rfl
@[simp] theorem setMe_hostImage (s : State) (x : Seq) : (setMe s x).hostImage = s.hostImage := rfl
@[simp] theorem setMe_fuse (s : State) (x : Seq) : (setMe s x).fuse = s.fuse := rfl
@[simp] theorem setMe_powered (s : State) (x : Seq) : (setMe s x).powered = s.powered := rfl
@[simp] theorem setMe_bus (s : State) (x : Seq) : (setMe s x).bus = s.bus := rfl
@[simp] theorem setMe_agenda (s : State) (x : Seq) : (setMe s x).agenda = s.agenda := rfl
@[simp] theorem setMe_cur (s : State) (x : Seq) : (setMe s x).cur = s.cur := rfl
@[simp] theorem setMe_free (s : State) (x : Seq) : (setMe s x).free = s.free := rfl

@[simp] theorem setCore_seqs (s : State) (k : Nat) (x : CoreState) : (setCore s k x).seqs = s.seqs := rfl
@[simp] theorem setCore_cores (s : State) (k : Nat) (x : CoreState) : (setCore s k x).cores = tput s.cores k x := rfl
@[simp] theorem setCore_quads (s : State) (k : Nat) (x : CoreState) : (setCore s k x).quads = s.quads := rfl
@[simp] theorem setCore_mem (s : State) (k : Nat) (x : CoreState) : (setCore s k x).mem = s.mem := rfl
@[simp] theorem setCore_pages (s : State) (k : Nat) (x : CoreState) : (setCore s k x).pages = s.pages := rfl
@[simp] theorem setCore_handles (s : State) (k : Nat) (x : CoreState) : (setCore s k x).handles = s.handles := rfl
@[simp] theorem setCore_htlog (s : State) (k : Nat) (x : CoreState) : (setCore s k x).htlog = s.htlog := rfl
@[simp] theorem setCore_damaged (s : State) (k : Nat) (x : CoreState) : (setCore s k x).damaged = s.damaged := rfl
@[simp] theorem setCore_badTables (s : State) (k : Nat) (x : CoreState) : (setCore s k x).badTables = s.badTables := rfl
@[simp] theorem setCore_forwards (s : State) (k : Nat) (x : CoreState) : (setCore s k x).forwards = s.forwards := rfl
@[simp] theorem setCore_flock (s : State) (k : Nat) (x : CoreState) : (setCore s k x).flock = s.flock := rfl
@[simp] theorem setCore_poison (s : State) (k : Nat) (x : CoreState) : (setCore s k x).poison = s.poison := rfl
@[simp] theorem setCore_tlb (s : State) (k : Nat) (x : CoreState) : (setCore s k x).tlb = s.tlb := rfl
@[simp] theorem setCore_walks (s : State) (k : Nat) (x : CoreState) : (setCore s k x).walks = s.walks := rfl
@[simp] theorem setCore_slices (s : State) (k : Nat) (x : CoreState) : (setCore s k x).slices = s.slices := rfl
@[simp] theorem setCore_ops (s : State) (k : Nat) (x : CoreState) : (setCore s k x).ops = s.ops := rfl
@[simp] theorem setCore_nextOp (s : State) (k : Nat) (x : CoreState) : (setCore s k x).nextOp = s.nextOp := rfl
@[simp] theorem setCore_events (s : State) (k : Nat) (x : CoreState) : (setCore s k x).events = s.events := rfl
@[simp] theorem setCore_gt (s : State) (k : Nat) (x : CoreState) : (setCore s k x).gt = s.gt := rfl
@[simp] theorem setCore_tasks (s : State) (k : Nat) (x : CoreState) : (setCore s k x).tasks = s.tasks := rfl
@[simp] theorem setCore_killed (s : State) (k : Nat) (x : CoreState) : (setCore s k x).killed = s.killed := rfl
@[simp] theorem setCore_launches (s : State) (k : Nat) (x : CoreState) : (setCore s k x).launches = s.launches := rfl
@[simp] theorem setCore_dies (s : State) (k : Nat) (x : CoreState) : (setCore s k x).dies = s.dies := rfl
@[simp] theorem setCore_zones (s : State) (k : Nat) (x : CoreState) : (setCore s k x).zones = s.zones := rfl
@[simp] theorem setCore_bars (s : State) (k : Nat) (x : CoreState) : (setCore s k x).bars = s.bars := rfl
@[simp] theorem setCore_barMsgs (s : State) (k : Nat) (x : CoreState) : (setCore s k x).barMsgs = s.barMsgs := rfl
@[simp] theorem setCore_hqs (s : State) (k : Nat) (x : CoreState) : (setCore s k x).hqs = s.hqs := rfl
@[simp] theorem setCore_admitted (s : State) (k : Nat) (x : CoreState) : (setCore s k x).admitted = s.admitted := rfl
@[simp] theorem setCore_pod (s : State) (k : Nat) (x : CoreState) : (setCore s k x).pod = s.pod := rfl
@[simp] theorem setCore_attest (s : State) (k : Nat) (x : CoreState) : (setCore s k x).attest = s.attest := rfl
@[simp] theorem setCore_flash (s : State) (k : Nat) (x : CoreState) : (setCore s k x).flash = s.flash := rfl
@[simp] theorem setCore_hostImage (s : State) (k : Nat) (x : CoreState) : (setCore s k x).hostImage = s.hostImage := rfl
@[simp] theorem setCore_fuse (s : State) (k : Nat) (x : CoreState) : (setCore s k x).fuse = s.fuse := rfl
@[simp] theorem setCore_powered (s : State) (k : Nat) (x : CoreState) : (setCore s k x).powered = s.powered := rfl
@[simp] theorem setCore_bus (s : State) (k : Nat) (x : CoreState) : (setCore s k x).bus = s.bus := rfl
@[simp] theorem setCore_agenda (s : State) (k : Nat) (x : CoreState) : (setCore s k x).agenda = s.agenda := rfl
@[simp] theorem setCore_cur (s : State) (k : Nat) (x : CoreState) : (setCore s k x).cur = s.cur := rfl
@[simp] theorem setCore_free (s : State) (k : Nat) (x : CoreState) : (setCore s k x).free = s.free := rfl

@[simp] theorem setMyCore_seqs (s : State) (x : CoreState) : (setMyCore s x).seqs = s.seqs := rfl
@[simp] theorem setMyCore_cores (s : State) (x : CoreState) : (setMyCore s x).cores = tput s.cores (coreOf s.cur) x := rfl
@[simp] theorem setMyCore_quads (s : State) (x : CoreState) : (setMyCore s x).quads = s.quads := rfl
@[simp] theorem setMyCore_mem (s : State) (x : CoreState) : (setMyCore s x).mem = s.mem := rfl
@[simp] theorem setMyCore_pages (s : State) (x : CoreState) : (setMyCore s x).pages = s.pages := rfl
@[simp] theorem setMyCore_handles (s : State) (x : CoreState) : (setMyCore s x).handles = s.handles := rfl
@[simp] theorem setMyCore_htlog (s : State) (x : CoreState) : (setMyCore s x).htlog = s.htlog := rfl
@[simp] theorem setMyCore_damaged (s : State) (x : CoreState) : (setMyCore s x).damaged = s.damaged := rfl
@[simp] theorem setMyCore_badTables (s : State) (x : CoreState) : (setMyCore s x).badTables = s.badTables := rfl
@[simp] theorem setMyCore_forwards (s : State) (x : CoreState) : (setMyCore s x).forwards = s.forwards := rfl
@[simp] theorem setMyCore_flock (s : State) (x : CoreState) : (setMyCore s x).flock = s.flock := rfl
@[simp] theorem setMyCore_poison (s : State) (x : CoreState) : (setMyCore s x).poison = s.poison := rfl
@[simp] theorem setMyCore_tlb (s : State) (x : CoreState) : (setMyCore s x).tlb = s.tlb := rfl
@[simp] theorem setMyCore_walks (s : State) (x : CoreState) : (setMyCore s x).walks = s.walks := rfl
@[simp] theorem setMyCore_slices (s : State) (x : CoreState) : (setMyCore s x).slices = s.slices := rfl
@[simp] theorem setMyCore_ops (s : State) (x : CoreState) : (setMyCore s x).ops = s.ops := rfl
@[simp] theorem setMyCore_nextOp (s : State) (x : CoreState) : (setMyCore s x).nextOp = s.nextOp := rfl
@[simp] theorem setMyCore_events (s : State) (x : CoreState) : (setMyCore s x).events = s.events := rfl
@[simp] theorem setMyCore_gt (s : State) (x : CoreState) : (setMyCore s x).gt = s.gt := rfl
@[simp] theorem setMyCore_tasks (s : State) (x : CoreState) : (setMyCore s x).tasks = s.tasks := rfl
@[simp] theorem setMyCore_killed (s : State) (x : CoreState) : (setMyCore s x).killed = s.killed := rfl
@[simp] theorem setMyCore_launches (s : State) (x : CoreState) : (setMyCore s x).launches = s.launches := rfl
@[simp] theorem setMyCore_dies (s : State) (x : CoreState) : (setMyCore s x).dies = s.dies := rfl
@[simp] theorem setMyCore_zones (s : State) (x : CoreState) : (setMyCore s x).zones = s.zones := rfl
@[simp] theorem setMyCore_bars (s : State) (x : CoreState) : (setMyCore s x).bars = s.bars := rfl
@[simp] theorem setMyCore_barMsgs (s : State) (x : CoreState) : (setMyCore s x).barMsgs = s.barMsgs := rfl
@[simp] theorem setMyCore_hqs (s : State) (x : CoreState) : (setMyCore s x).hqs = s.hqs := rfl
@[simp] theorem setMyCore_admitted (s : State) (x : CoreState) : (setMyCore s x).admitted = s.admitted := rfl
@[simp] theorem setMyCore_pod (s : State) (x : CoreState) : (setMyCore s x).pod = s.pod := rfl
@[simp] theorem setMyCore_attest (s : State) (x : CoreState) : (setMyCore s x).attest = s.attest := rfl
@[simp] theorem setMyCore_flash (s : State) (x : CoreState) : (setMyCore s x).flash = s.flash := rfl
@[simp] theorem setMyCore_hostImage (s : State) (x : CoreState) : (setMyCore s x).hostImage = s.hostImage := rfl
@[simp] theorem setMyCore_fuse (s : State) (x : CoreState) : (setMyCore s x).fuse = s.fuse := rfl
@[simp] theorem setMyCore_powered (s : State) (x : CoreState) : (setMyCore s x).powered = s.powered := rfl
@[simp] theorem setMyCore_bus (s : State) (x : CoreState) : (setMyCore s x).bus = s.bus := rfl
@[simp] theorem setMyCore_agenda (s : State) (x : CoreState) : (setMyCore s x).agenda = s.agenda := rfl
@[simp] theorem setMyCore_cur (s : State) (x : CoreState) : (setMyCore s x).cur = s.cur := rfl
@[simp] theorem setMyCore_free (s : State) (x : CoreState) : (setMyCore s x).free = s.free := rfl

@[simp] theorem setQuad_seqs (s : State) (k : Nat) (x : Quad) : (setQuad s k x).seqs = s.seqs := rfl
@[simp] theorem setQuad_cores (s : State) (k : Nat) (x : Quad) : (setQuad s k x).cores = s.cores := rfl
@[simp] theorem setQuad_quads (s : State) (k : Nat) (x : Quad) : (setQuad s k x).quads = tput s.quads k x := rfl
@[simp] theorem setQuad_mem (s : State) (k : Nat) (x : Quad) : (setQuad s k x).mem = s.mem := rfl
@[simp] theorem setQuad_pages (s : State) (k : Nat) (x : Quad) : (setQuad s k x).pages = s.pages := rfl
@[simp] theorem setQuad_handles (s : State) (k : Nat) (x : Quad) : (setQuad s k x).handles = s.handles := rfl
@[simp] theorem setQuad_htlog (s : State) (k : Nat) (x : Quad) : (setQuad s k x).htlog = s.htlog := rfl
@[simp] theorem setQuad_damaged (s : State) (k : Nat) (x : Quad) : (setQuad s k x).damaged = s.damaged := rfl
@[simp] theorem setQuad_badTables (s : State) (k : Nat) (x : Quad) : (setQuad s k x).badTables = s.badTables := rfl
@[simp] theorem setQuad_forwards (s : State) (k : Nat) (x : Quad) : (setQuad s k x).forwards = s.forwards := rfl
@[simp] theorem setQuad_flock (s : State) (k : Nat) (x : Quad) : (setQuad s k x).flock = s.flock := rfl
@[simp] theorem setQuad_poison (s : State) (k : Nat) (x : Quad) : (setQuad s k x).poison = s.poison := rfl
@[simp] theorem setQuad_tlb (s : State) (k : Nat) (x : Quad) : (setQuad s k x).tlb = s.tlb := rfl
@[simp] theorem setQuad_walks (s : State) (k : Nat) (x : Quad) : (setQuad s k x).walks = s.walks := rfl
@[simp] theorem setQuad_slices (s : State) (k : Nat) (x : Quad) : (setQuad s k x).slices = s.slices := rfl
@[simp] theorem setQuad_ops (s : State) (k : Nat) (x : Quad) : (setQuad s k x).ops = s.ops := rfl
@[simp] theorem setQuad_nextOp (s : State) (k : Nat) (x : Quad) : (setQuad s k x).nextOp = s.nextOp := rfl
@[simp] theorem setQuad_events (s : State) (k : Nat) (x : Quad) : (setQuad s k x).events = s.events := rfl
@[simp] theorem setQuad_gt (s : State) (k : Nat) (x : Quad) : (setQuad s k x).gt = s.gt := rfl
@[simp] theorem setQuad_tasks (s : State) (k : Nat) (x : Quad) : (setQuad s k x).tasks = s.tasks := rfl
@[simp] theorem setQuad_killed (s : State) (k : Nat) (x : Quad) : (setQuad s k x).killed = s.killed := rfl
@[simp] theorem setQuad_launches (s : State) (k : Nat) (x : Quad) : (setQuad s k x).launches = s.launches := rfl
@[simp] theorem setQuad_dies (s : State) (k : Nat) (x : Quad) : (setQuad s k x).dies = s.dies := rfl
@[simp] theorem setQuad_zones (s : State) (k : Nat) (x : Quad) : (setQuad s k x).zones = s.zones := rfl
@[simp] theorem setQuad_bars (s : State) (k : Nat) (x : Quad) : (setQuad s k x).bars = s.bars := rfl
@[simp] theorem setQuad_barMsgs (s : State) (k : Nat) (x : Quad) : (setQuad s k x).barMsgs = s.barMsgs := rfl
@[simp] theorem setQuad_hqs (s : State) (k : Nat) (x : Quad) : (setQuad s k x).hqs = s.hqs := rfl
@[simp] theorem setQuad_admitted (s : State) (k : Nat) (x : Quad) : (setQuad s k x).admitted = s.admitted := rfl
@[simp] theorem setQuad_pod (s : State) (k : Nat) (x : Quad) : (setQuad s k x).pod = s.pod := rfl
@[simp] theorem setQuad_attest (s : State) (k : Nat) (x : Quad) : (setQuad s k x).attest = s.attest := rfl
@[simp] theorem setQuad_flash (s : State) (k : Nat) (x : Quad) : (setQuad s k x).flash = s.flash := rfl
@[simp] theorem setQuad_hostImage (s : State) (k : Nat) (x : Quad) : (setQuad s k x).hostImage = s.hostImage := rfl
@[simp] theorem setQuad_fuse (s : State) (k : Nat) (x : Quad) : (setQuad s k x).fuse = s.fuse := rfl
@[simp] theorem setQuad_powered (s : State) (k : Nat) (x : Quad) : (setQuad s k x).powered = s.powered := rfl
@[simp] theorem setQuad_bus (s : State) (k : Nat) (x : Quad) : (setQuad s k x).bus = s.bus := rfl
@[simp] theorem setQuad_agenda (s : State) (k : Nat) (x : Quad) : (setQuad s k x).agenda = s.agenda := rfl
@[simp] theorem setQuad_cur (s : State) (k : Nat) (x : Quad) : (setQuad s k x).cur = s.cur := rfl
@[simp] theorem setQuad_free (s : State) (k : Nat) (x : Quad) : (setQuad s k x).free = s.free := rfl

@[simp] theorem setDie_seqs (s : State) (d : Nat) (x : Die) : (setDie s d x).seqs = s.seqs := rfl
@[simp] theorem setDie_cores (s : State) (d : Nat) (x : Die) : (setDie s d x).cores = s.cores := rfl
@[simp] theorem setDie_quads (s : State) (d : Nat) (x : Die) : (setDie s d x).quads = s.quads := rfl
@[simp] theorem setDie_mem (s : State) (d : Nat) (x : Die) : (setDie s d x).mem = s.mem := rfl
@[simp] theorem setDie_pages (s : State) (d : Nat) (x : Die) : (setDie s d x).pages = s.pages := rfl
@[simp] theorem setDie_handles (s : State) (d : Nat) (x : Die) : (setDie s d x).handles = s.handles := rfl
@[simp] theorem setDie_htlog (s : State) (d : Nat) (x : Die) : (setDie s d x).htlog = s.htlog := rfl
@[simp] theorem setDie_damaged (s : State) (d : Nat) (x : Die) : (setDie s d x).damaged = s.damaged := rfl
@[simp] theorem setDie_badTables (s : State) (d : Nat) (x : Die) : (setDie s d x).badTables = s.badTables := rfl
@[simp] theorem setDie_forwards (s : State) (d : Nat) (x : Die) : (setDie s d x).forwards = s.forwards := rfl
@[simp] theorem setDie_flock (s : State) (d : Nat) (x : Die) : (setDie s d x).flock = s.flock := rfl
@[simp] theorem setDie_poison (s : State) (d : Nat) (x : Die) : (setDie s d x).poison = s.poison := rfl
@[simp] theorem setDie_tlb (s : State) (d : Nat) (x : Die) : (setDie s d x).tlb = s.tlb := rfl
@[simp] theorem setDie_walks (s : State) (d : Nat) (x : Die) : (setDie s d x).walks = s.walks := rfl
@[simp] theorem setDie_slices (s : State) (d : Nat) (x : Die) : (setDie s d x).slices = s.slices := rfl
@[simp] theorem setDie_ops (s : State) (d : Nat) (x : Die) : (setDie s d x).ops = s.ops := rfl
@[simp] theorem setDie_nextOp (s : State) (d : Nat) (x : Die) : (setDie s d x).nextOp = s.nextOp := rfl
@[simp] theorem setDie_events (s : State) (d : Nat) (x : Die) : (setDie s d x).events = s.events := rfl
@[simp] theorem setDie_gt (s : State) (d : Nat) (x : Die) : (setDie s d x).gt = s.gt := rfl
@[simp] theorem setDie_tasks (s : State) (d : Nat) (x : Die) : (setDie s d x).tasks = s.tasks := rfl
@[simp] theorem setDie_killed (s : State) (d : Nat) (x : Die) : (setDie s d x).killed = s.killed := rfl
@[simp] theorem setDie_launches (s : State) (d : Nat) (x : Die) : (setDie s d x).launches = s.launches := rfl
@[simp] theorem setDie_dies (s : State) (d : Nat) (x : Die) : (setDie s d x).dies = tput s.dies d x := rfl
@[simp] theorem setDie_zones (s : State) (d : Nat) (x : Die) : (setDie s d x).zones = s.zones := rfl
@[simp] theorem setDie_bars (s : State) (d : Nat) (x : Die) : (setDie s d x).bars = s.bars := rfl
@[simp] theorem setDie_barMsgs (s : State) (d : Nat) (x : Die) : (setDie s d x).barMsgs = s.barMsgs := rfl
@[simp] theorem setDie_hqs (s : State) (d : Nat) (x : Die) : (setDie s d x).hqs = s.hqs := rfl
@[simp] theorem setDie_admitted (s : State) (d : Nat) (x : Die) : (setDie s d x).admitted = s.admitted := rfl
@[simp] theorem setDie_pod (s : State) (d : Nat) (x : Die) : (setDie s d x).pod = s.pod := rfl
@[simp] theorem setDie_attest (s : State) (d : Nat) (x : Die) : (setDie s d x).attest = s.attest := rfl
@[simp] theorem setDie_flash (s : State) (d : Nat) (x : Die) : (setDie s d x).flash = s.flash := rfl
@[simp] theorem setDie_hostImage (s : State) (d : Nat) (x : Die) : (setDie s d x).hostImage = s.hostImage := rfl
@[simp] theorem setDie_fuse (s : State) (d : Nat) (x : Die) : (setDie s d x).fuse = s.fuse := rfl
@[simp] theorem setDie_powered (s : State) (d : Nat) (x : Die) : (setDie s d x).powered = s.powered := rfl
@[simp] theorem setDie_bus (s : State) (d : Nat) (x : Die) : (setDie s d x).bus = s.bus := rfl
@[simp] theorem setDie_agenda (s : State) (d : Nat) (x : Die) : (setDie s d x).agenda = s.agenda := rfl
@[simp] theorem setDie_cur (s : State) (d : Nat) (x : Die) : (setDie s d x).cur = s.cur := rfl
@[simp] theorem setDie_free (s : State) (d : Nat) (x : Die) : (setDie s d x).free = s.free := rfl

@[simp] theorem setSlice_seqs (s : State) (die k : Nat) (x : Slice) : (setSlice s die k x).seqs = s.seqs := rfl
@[simp] theorem setSlice_cores (s : State) (die k : Nat) (x : Slice) : (setSlice s die k x).cores = s.cores := rfl
@[simp] theorem setSlice_quads (s : State) (die k : Nat) (x : Slice) : (setSlice s die k x).quads = s.quads := rfl
@[simp] theorem setSlice_mem (s : State) (die k : Nat) (x : Slice) : (setSlice s die k x).mem = s.mem := rfl
@[simp] theorem setSlice_pages (s : State) (die k : Nat) (x : Slice) : (setSlice s die k x).pages = s.pages := rfl
@[simp] theorem setSlice_handles (s : State) (die k : Nat) (x : Slice) : (setSlice s die k x).handles = s.handles := rfl
@[simp] theorem setSlice_htlog (s : State) (die k : Nat) (x : Slice) : (setSlice s die k x).htlog = s.htlog := rfl
@[simp] theorem setSlice_damaged (s : State) (die k : Nat) (x : Slice) : (setSlice s die k x).damaged = s.damaged := rfl
@[simp] theorem setSlice_badTables (s : State) (die k : Nat) (x : Slice) : (setSlice s die k x).badTables = s.badTables := rfl
@[simp] theorem setSlice_forwards (s : State) (die k : Nat) (x : Slice) : (setSlice s die k x).forwards = s.forwards := rfl
@[simp] theorem setSlice_flock (s : State) (die k : Nat) (x : Slice) : (setSlice s die k x).flock = s.flock := rfl
@[simp] theorem setSlice_poison (s : State) (die k : Nat) (x : Slice) : (setSlice s die k x).poison = s.poison := rfl
@[simp] theorem setSlice_tlb (s : State) (die k : Nat) (x : Slice) : (setSlice s die k x).tlb = s.tlb := rfl
@[simp] theorem setSlice_walks (s : State) (die k : Nat) (x : Slice) : (setSlice s die k x).walks = s.walks := rfl
@[simp] theorem setSlice_slices (s : State) (die k : Nat) (x : Slice) : (setSlice s die k x).slices = tput s.slices (die * 32 + k) x := rfl
@[simp] theorem setSlice_ops (s : State) (die k : Nat) (x : Slice) : (setSlice s die k x).ops = s.ops := rfl
@[simp] theorem setSlice_nextOp (s : State) (die k : Nat) (x : Slice) : (setSlice s die k x).nextOp = s.nextOp := rfl
@[simp] theorem setSlice_events (s : State) (die k : Nat) (x : Slice) : (setSlice s die k x).events = s.events := rfl
@[simp] theorem setSlice_gt (s : State) (die k : Nat) (x : Slice) : (setSlice s die k x).gt = s.gt := rfl
@[simp] theorem setSlice_tasks (s : State) (die k : Nat) (x : Slice) : (setSlice s die k x).tasks = s.tasks := rfl
@[simp] theorem setSlice_killed (s : State) (die k : Nat) (x : Slice) : (setSlice s die k x).killed = s.killed := rfl
@[simp] theorem setSlice_launches (s : State) (die k : Nat) (x : Slice) : (setSlice s die k x).launches = s.launches := rfl
@[simp] theorem setSlice_dies (s : State) (die k : Nat) (x : Slice) : (setSlice s die k x).dies = s.dies := rfl
@[simp] theorem setSlice_zones (s : State) (die k : Nat) (x : Slice) : (setSlice s die k x).zones = s.zones := rfl
@[simp] theorem setSlice_bars (s : State) (die k : Nat) (x : Slice) : (setSlice s die k x).bars = s.bars := rfl
@[simp] theorem setSlice_barMsgs (s : State) (die k : Nat) (x : Slice) : (setSlice s die k x).barMsgs = s.barMsgs := rfl
@[simp] theorem setSlice_hqs (s : State) (die k : Nat) (x : Slice) : (setSlice s die k x).hqs = s.hqs := rfl
@[simp] theorem setSlice_admitted (s : State) (die k : Nat) (x : Slice) : (setSlice s die k x).admitted = s.admitted := rfl
@[simp] theorem setSlice_pod (s : State) (die k : Nat) (x : Slice) : (setSlice s die k x).pod = s.pod := rfl
@[simp] theorem setSlice_attest (s : State) (die k : Nat) (x : Slice) : (setSlice s die k x).attest = s.attest := rfl
@[simp] theorem setSlice_flash (s : State) (die k : Nat) (x : Slice) : (setSlice s die k x).flash = s.flash := rfl
@[simp] theorem setSlice_hostImage (s : State) (die k : Nat) (x : Slice) : (setSlice s die k x).hostImage = s.hostImage := rfl
@[simp] theorem setSlice_fuse (s : State) (die k : Nat) (x : Slice) : (setSlice s die k x).fuse = s.fuse := rfl
@[simp] theorem setSlice_powered (s : State) (die k : Nat) (x : Slice) : (setSlice s die k x).powered = s.powered := rfl
@[simp] theorem setSlice_bus (s : State) (die k : Nat) (x : Slice) : (setSlice s die k x).bus = s.bus := rfl
@[simp] theorem setSlice_agenda (s : State) (die k : Nat) (x : Slice) : (setSlice s die k x).agenda = s.agenda := rfl
@[simp] theorem setSlice_cur (s : State) (die k : Nat) (x : Slice) : (setSlice s die k x).cur = s.cur := rfl
@[simp] theorem setSlice_free (s : State) (die k : Nat) (x : Slice) : (setSlice s die k x).free = s.free := rfl

@[simp] theorem setTask_seqs (s : State) (k : Nat) (t : Task) : (setTask s k t).seqs = s.seqs := rfl
@[simp] theorem setTask_cores (s : State) (k : Nat) (t : Task) : (setTask s k t).cores = s.cores := rfl
@[simp] theorem setTask_quads (s : State) (k : Nat) (t : Task) : (setTask s k t).quads = s.quads := rfl
@[simp] theorem setTask_mem (s : State) (k : Nat) (t : Task) : (setTask s k t).mem = s.mem := rfl
@[simp] theorem setTask_pages (s : State) (k : Nat) (t : Task) : (setTask s k t).pages = s.pages := rfl
@[simp] theorem setTask_handles (s : State) (k : Nat) (t : Task) : (setTask s k t).handles = s.handles := rfl
@[simp] theorem setTask_htlog (s : State) (k : Nat) (t : Task) : (setTask s k t).htlog = s.htlog := rfl
@[simp] theorem setTask_damaged (s : State) (k : Nat) (t : Task) : (setTask s k t).damaged = s.damaged := rfl
@[simp] theorem setTask_badTables (s : State) (k : Nat) (t : Task) : (setTask s k t).badTables = s.badTables := rfl
@[simp] theorem setTask_forwards (s : State) (k : Nat) (t : Task) : (setTask s k t).forwards = s.forwards := rfl
@[simp] theorem setTask_flock (s : State) (k : Nat) (t : Task) : (setTask s k t).flock = s.flock := rfl
@[simp] theorem setTask_poison (s : State) (k : Nat) (t : Task) : (setTask s k t).poison = s.poison := rfl
@[simp] theorem setTask_tlb (s : State) (k : Nat) (t : Task) : (setTask s k t).tlb = s.tlb := rfl
@[simp] theorem setTask_walks (s : State) (k : Nat) (t : Task) : (setTask s k t).walks = s.walks := rfl
@[simp] theorem setTask_slices (s : State) (k : Nat) (t : Task) : (setTask s k t).slices = s.slices := rfl
@[simp] theorem setTask_ops (s : State) (k : Nat) (t : Task) : (setTask s k t).ops = s.ops := rfl
@[simp] theorem setTask_nextOp (s : State) (k : Nat) (t : Task) : (setTask s k t).nextOp = s.nextOp := rfl
@[simp] theorem setTask_events (s : State) (k : Nat) (t : Task) : (setTask s k t).events = s.events := rfl
@[simp] theorem setTask_gt (s : State) (k : Nat) (t : Task) : (setTask s k t).gt = s.gt := rfl
@[simp] theorem setTask_tasks (s : State) (k : Nat) (t : Task) : (setTask s k t).tasks = tput s.tasks k t := rfl
@[simp] theorem setTask_killed (s : State) (k : Nat) (t : Task) : (setTask s k t).killed = s.killed := rfl
@[simp] theorem setTask_launches (s : State) (k : Nat) (t : Task) : (setTask s k t).launches = s.launches := rfl
@[simp] theorem setTask_dies (s : State) (k : Nat) (t : Task) : (setTask s k t).dies = s.dies := rfl
@[simp] theorem setTask_zones (s : State) (k : Nat) (t : Task) : (setTask s k t).zones = s.zones := rfl
@[simp] theorem setTask_bars (s : State) (k : Nat) (t : Task) : (setTask s k t).bars = s.bars := rfl
@[simp] theorem setTask_barMsgs (s : State) (k : Nat) (t : Task) : (setTask s k t).barMsgs = s.barMsgs := rfl
@[simp] theorem setTask_hqs (s : State) (k : Nat) (t : Task) : (setTask s k t).hqs = s.hqs := rfl
@[simp] theorem setTask_admitted (s : State) (k : Nat) (t : Task) : (setTask s k t).admitted = s.admitted := rfl
@[simp] theorem setTask_pod (s : State) (k : Nat) (t : Task) : (setTask s k t).pod = s.pod := rfl
@[simp] theorem setTask_attest (s : State) (k : Nat) (t : Task) : (setTask s k t).attest = s.attest := rfl
@[simp] theorem setTask_flash (s : State) (k : Nat) (t : Task) : (setTask s k t).flash = s.flash := rfl
@[simp] theorem setTask_hostImage (s : State) (k : Nat) (t : Task) : (setTask s k t).hostImage = s.hostImage := rfl
@[simp] theorem setTask_fuse (s : State) (k : Nat) (t : Task) : (setTask s k t).fuse = s.fuse := rfl
@[simp] theorem setTask_powered (s : State) (k : Nat) (t : Task) : (setTask s k t).powered = s.powered := rfl
@[simp] theorem setTask_bus (s : State) (k : Nat) (t : Task) : (setTask s k t).bus = s.bus := rfl
@[simp] theorem setTask_agenda (s : State) (k : Nat) (t : Task) : (setTask s k t).agenda = s.agenda := rfl
@[simp] theorem setTask_cur (s : State) (k : Nat) (t : Task) : (setTask s k t).cur = s.cur := rfl
@[simp] theorem setTask_free (s : State) (k : Nat) (t : Task) : (setTask s k t).free = s.free := rfl

@[simp] theorem setZone_seqs (s : State) (z : Nat) (x : Zone) : (setZone s z x).seqs = s.seqs := rfl
@[simp] theorem setZone_cores (s : State) (z : Nat) (x : Zone) : (setZone s z x).cores = s.cores := rfl
@[simp] theorem setZone_quads (s : State) (z : Nat) (x : Zone) : (setZone s z x).quads = s.quads := rfl
@[simp] theorem setZone_mem (s : State) (z : Nat) (x : Zone) : (setZone s z x).mem = s.mem := rfl
@[simp] theorem setZone_pages (s : State) (z : Nat) (x : Zone) : (setZone s z x).pages = s.pages := rfl
@[simp] theorem setZone_handles (s : State) (z : Nat) (x : Zone) : (setZone s z x).handles = s.handles := rfl
@[simp] theorem setZone_htlog (s : State) (z : Nat) (x : Zone) : (setZone s z x).htlog = s.htlog := rfl
@[simp] theorem setZone_damaged (s : State) (z : Nat) (x : Zone) : (setZone s z x).damaged = s.damaged := rfl
@[simp] theorem setZone_badTables (s : State) (z : Nat) (x : Zone) : (setZone s z x).badTables = s.badTables := rfl
@[simp] theorem setZone_forwards (s : State) (z : Nat) (x : Zone) : (setZone s z x).forwards = s.forwards := rfl
@[simp] theorem setZone_flock (s : State) (z : Nat) (x : Zone) : (setZone s z x).flock = s.flock := rfl
@[simp] theorem setZone_poison (s : State) (z : Nat) (x : Zone) : (setZone s z x).poison = s.poison := rfl
@[simp] theorem setZone_tlb (s : State) (z : Nat) (x : Zone) : (setZone s z x).tlb = s.tlb := rfl
@[simp] theorem setZone_walks (s : State) (z : Nat) (x : Zone) : (setZone s z x).walks = s.walks := rfl
@[simp] theorem setZone_slices (s : State) (z : Nat) (x : Zone) : (setZone s z x).slices = s.slices := rfl
@[simp] theorem setZone_ops (s : State) (z : Nat) (x : Zone) : (setZone s z x).ops = s.ops := rfl
@[simp] theorem setZone_nextOp (s : State) (z : Nat) (x : Zone) : (setZone s z x).nextOp = s.nextOp := rfl
@[simp] theorem setZone_events (s : State) (z : Nat) (x : Zone) : (setZone s z x).events = s.events := rfl
@[simp] theorem setZone_gt (s : State) (z : Nat) (x : Zone) : (setZone s z x).gt = s.gt := rfl
@[simp] theorem setZone_tasks (s : State) (z : Nat) (x : Zone) : (setZone s z x).tasks = s.tasks := rfl
@[simp] theorem setZone_killed (s : State) (z : Nat) (x : Zone) : (setZone s z x).killed = s.killed := rfl
@[simp] theorem setZone_launches (s : State) (z : Nat) (x : Zone) : (setZone s z x).launches = s.launches := rfl
@[simp] theorem setZone_dies (s : State) (z : Nat) (x : Zone) : (setZone s z x).dies = s.dies := rfl
@[simp] theorem setZone_zones (s : State) (z : Nat) (x : Zone) : (setZone s z x).zones = tput s.zones z x := rfl
@[simp] theorem setZone_bars (s : State) (z : Nat) (x : Zone) : (setZone s z x).bars = s.bars := rfl
@[simp] theorem setZone_barMsgs (s : State) (z : Nat) (x : Zone) : (setZone s z x).barMsgs = s.barMsgs := rfl
@[simp] theorem setZone_hqs (s : State) (z : Nat) (x : Zone) : (setZone s z x).hqs = s.hqs := rfl
@[simp] theorem setZone_admitted (s : State) (z : Nat) (x : Zone) : (setZone s z x).admitted = s.admitted := rfl
@[simp] theorem setZone_pod (s : State) (z : Nat) (x : Zone) : (setZone s z x).pod = s.pod := rfl
@[simp] theorem setZone_attest (s : State) (z : Nat) (x : Zone) : (setZone s z x).attest = s.attest := rfl
@[simp] theorem setZone_flash (s : State) (z : Nat) (x : Zone) : (setZone s z x).flash = s.flash := rfl
@[simp] theorem setZone_hostImage (s : State) (z : Nat) (x : Zone) : (setZone s z x).hostImage = s.hostImage := rfl
@[simp] theorem setZone_fuse (s : State) (z : Nat) (x : Zone) : (setZone s z x).fuse = s.fuse := rfl
@[simp] theorem setZone_powered (s : State) (z : Nat) (x : Zone) : (setZone s z x).powered = s.powered := rfl
@[simp] theorem setZone_bus (s : State) (z : Nat) (x : Zone) : (setZone s z x).bus = s.bus := rfl
@[simp] theorem setZone_agenda (s : State) (z : Nat) (x : Zone) : (setZone s z x).agenda = s.agenda := rfl
@[simp] theorem setZone_cur (s : State) (z : Nat) (x : Zone) : (setZone s z x).cur = s.cur := rfl
@[simp] theorem setZone_free (s : State) (z : Nat) (x : Zone) : (setZone s z x).free = s.free := rfl

@[simp] theorem setBarrier_seqs (s : State) (k : Nat) (b : Barrier) : (setBarrier s k b).seqs = s.seqs := rfl
@[simp] theorem setBarrier_cores (s : State) (k : Nat) (b : Barrier) : (setBarrier s k b).cores = s.cores := rfl
@[simp] theorem setBarrier_quads (s : State) (k : Nat) (b : Barrier) : (setBarrier s k b).quads = s.quads := rfl
@[simp] theorem setBarrier_mem (s : State) (k : Nat) (b : Barrier) : (setBarrier s k b).mem = s.mem := rfl
@[simp] theorem setBarrier_pages (s : State) (k : Nat) (b : Barrier) : (setBarrier s k b).pages = s.pages := rfl
@[simp] theorem setBarrier_handles (s : State) (k : Nat) (b : Barrier) : (setBarrier s k b).handles = s.handles := rfl
@[simp] theorem setBarrier_htlog (s : State) (k : Nat) (b : Barrier) : (setBarrier s k b).htlog = s.htlog := rfl
@[simp] theorem setBarrier_damaged (s : State) (k : Nat) (b : Barrier) : (setBarrier s k b).damaged = s.damaged := rfl
@[simp] theorem setBarrier_badTables (s : State) (k : Nat) (b : Barrier) : (setBarrier s k b).badTables = s.badTables := rfl
@[simp] theorem setBarrier_forwards (s : State) (k : Nat) (b : Barrier) : (setBarrier s k b).forwards = s.forwards := rfl
@[simp] theorem setBarrier_flock (s : State) (k : Nat) (b : Barrier) : (setBarrier s k b).flock = s.flock := rfl
@[simp] theorem setBarrier_poison (s : State) (k : Nat) (b : Barrier) : (setBarrier s k b).poison = s.poison := rfl
@[simp] theorem setBarrier_tlb (s : State) (k : Nat) (b : Barrier) : (setBarrier s k b).tlb = s.tlb := rfl
@[simp] theorem setBarrier_walks (s : State) (k : Nat) (b : Barrier) : (setBarrier s k b).walks = s.walks := rfl
@[simp] theorem setBarrier_slices (s : State) (k : Nat) (b : Barrier) : (setBarrier s k b).slices = s.slices := rfl
@[simp] theorem setBarrier_ops (s : State) (k : Nat) (b : Barrier) : (setBarrier s k b).ops = s.ops := rfl
@[simp] theorem setBarrier_nextOp (s : State) (k : Nat) (b : Barrier) : (setBarrier s k b).nextOp = s.nextOp := rfl
@[simp] theorem setBarrier_events (s : State) (k : Nat) (b : Barrier) : (setBarrier s k b).events = s.events := rfl
@[simp] theorem setBarrier_gt (s : State) (k : Nat) (b : Barrier) : (setBarrier s k b).gt = s.gt := rfl
@[simp] theorem setBarrier_tasks (s : State) (k : Nat) (b : Barrier) : (setBarrier s k b).tasks = s.tasks := rfl
@[simp] theorem setBarrier_killed (s : State) (k : Nat) (b : Barrier) : (setBarrier s k b).killed = s.killed := rfl
@[simp] theorem setBarrier_launches (s : State) (k : Nat) (b : Barrier) : (setBarrier s k b).launches = s.launches := rfl
@[simp] theorem setBarrier_dies (s : State) (k : Nat) (b : Barrier) : (setBarrier s k b).dies = s.dies := rfl
@[simp] theorem setBarrier_zones (s : State) (k : Nat) (b : Barrier) : (setBarrier s k b).zones = s.zones := rfl
@[simp] theorem setBarrier_bars (s : State) (k : Nat) (b : Barrier) : (setBarrier s k b).bars = tput s.bars k b := rfl
@[simp] theorem setBarrier_barMsgs (s : State) (k : Nat) (b : Barrier) : (setBarrier s k b).barMsgs = s.barMsgs := rfl
@[simp] theorem setBarrier_hqs (s : State) (k : Nat) (b : Barrier) : (setBarrier s k b).hqs = s.hqs := rfl
@[simp] theorem setBarrier_admitted (s : State) (k : Nat) (b : Barrier) : (setBarrier s k b).admitted = s.admitted := rfl
@[simp] theorem setBarrier_pod (s : State) (k : Nat) (b : Barrier) : (setBarrier s k b).pod = s.pod := rfl
@[simp] theorem setBarrier_attest (s : State) (k : Nat) (b : Barrier) : (setBarrier s k b).attest = s.attest := rfl
@[simp] theorem setBarrier_flash (s : State) (k : Nat) (b : Barrier) : (setBarrier s k b).flash = s.flash := rfl
@[simp] theorem setBarrier_hostImage (s : State) (k : Nat) (b : Barrier) : (setBarrier s k b).hostImage = s.hostImage := rfl
@[simp] theorem setBarrier_fuse (s : State) (k : Nat) (b : Barrier) : (setBarrier s k b).fuse = s.fuse := rfl
@[simp] theorem setBarrier_powered (s : State) (k : Nat) (b : Barrier) : (setBarrier s k b).powered = s.powered := rfl
@[simp] theorem setBarrier_bus (s : State) (k : Nat) (b : Barrier) : (setBarrier s k b).bus = s.bus := rfl
@[simp] theorem setBarrier_agenda (s : State) (k : Nat) (b : Barrier) : (setBarrier s k b).agenda = s.agenda := rfl
@[simp] theorem setBarrier_cur (s : State) (k : Nat) (b : Barrier) : (setBarrier s k b).cur = s.cur := rfl
@[simp] theorem setBarrier_free (s : State) (k : Nat) (b : Barrier) : (setBarrier s k b).free = s.free := rfl

@[simp] theorem setHq_seqs (s : State) (n : Nat) (x : HostQueue) : (setHq s n x).seqs = s.seqs := rfl
@[simp] theorem setHq_cores (s : State) (n : Nat) (x : HostQueue) : (setHq s n x).cores = s.cores := rfl
@[simp] theorem setHq_quads (s : State) (n : Nat) (x : HostQueue) : (setHq s n x).quads = s.quads := rfl
@[simp] theorem setHq_mem (s : State) (n : Nat) (x : HostQueue) : (setHq s n x).mem = s.mem := rfl
@[simp] theorem setHq_pages (s : State) (n : Nat) (x : HostQueue) : (setHq s n x).pages = s.pages := rfl
@[simp] theorem setHq_handles (s : State) (n : Nat) (x : HostQueue) : (setHq s n x).handles = s.handles := rfl
@[simp] theorem setHq_htlog (s : State) (n : Nat) (x : HostQueue) : (setHq s n x).htlog = s.htlog := rfl
@[simp] theorem setHq_damaged (s : State) (n : Nat) (x : HostQueue) : (setHq s n x).damaged = s.damaged := rfl
@[simp] theorem setHq_badTables (s : State) (n : Nat) (x : HostQueue) : (setHq s n x).badTables = s.badTables := rfl
@[simp] theorem setHq_forwards (s : State) (n : Nat) (x : HostQueue) : (setHq s n x).forwards = s.forwards := rfl
@[simp] theorem setHq_flock (s : State) (n : Nat) (x : HostQueue) : (setHq s n x).flock = s.flock := rfl
@[simp] theorem setHq_poison (s : State) (n : Nat) (x : HostQueue) : (setHq s n x).poison = s.poison := rfl
@[simp] theorem setHq_tlb (s : State) (n : Nat) (x : HostQueue) : (setHq s n x).tlb = s.tlb := rfl
@[simp] theorem setHq_walks (s : State) (n : Nat) (x : HostQueue) : (setHq s n x).walks = s.walks := rfl
@[simp] theorem setHq_slices (s : State) (n : Nat) (x : HostQueue) : (setHq s n x).slices = s.slices := rfl
@[simp] theorem setHq_ops (s : State) (n : Nat) (x : HostQueue) : (setHq s n x).ops = s.ops := rfl
@[simp] theorem setHq_nextOp (s : State) (n : Nat) (x : HostQueue) : (setHq s n x).nextOp = s.nextOp := rfl
@[simp] theorem setHq_events (s : State) (n : Nat) (x : HostQueue) : (setHq s n x).events = s.events := rfl
@[simp] theorem setHq_gt (s : State) (n : Nat) (x : HostQueue) : (setHq s n x).gt = s.gt := rfl
@[simp] theorem setHq_tasks (s : State) (n : Nat) (x : HostQueue) : (setHq s n x).tasks = s.tasks := rfl
@[simp] theorem setHq_killed (s : State) (n : Nat) (x : HostQueue) : (setHq s n x).killed = s.killed := rfl
@[simp] theorem setHq_launches (s : State) (n : Nat) (x : HostQueue) : (setHq s n x).launches = s.launches := rfl
@[simp] theorem setHq_dies (s : State) (n : Nat) (x : HostQueue) : (setHq s n x).dies = s.dies := rfl
@[simp] theorem setHq_zones (s : State) (n : Nat) (x : HostQueue) : (setHq s n x).zones = s.zones := rfl
@[simp] theorem setHq_bars (s : State) (n : Nat) (x : HostQueue) : (setHq s n x).bars = s.bars := rfl
@[simp] theorem setHq_barMsgs (s : State) (n : Nat) (x : HostQueue) : (setHq s n x).barMsgs = s.barMsgs := rfl
@[simp] theorem setHq_hqs (s : State) (n : Nat) (x : HostQueue) : (setHq s n x).hqs = tput s.hqs n x := rfl
@[simp] theorem setHq_admitted (s : State) (n : Nat) (x : HostQueue) : (setHq s n x).admitted = s.admitted := rfl
@[simp] theorem setHq_pod (s : State) (n : Nat) (x : HostQueue) : (setHq s n x).pod = s.pod := rfl
@[simp] theorem setHq_attest (s : State) (n : Nat) (x : HostQueue) : (setHq s n x).attest = s.attest := rfl
@[simp] theorem setHq_flash (s : State) (n : Nat) (x : HostQueue) : (setHq s n x).flash = s.flash := rfl
@[simp] theorem setHq_hostImage (s : State) (n : Nat) (x : HostQueue) : (setHq s n x).hostImage = s.hostImage := rfl
@[simp] theorem setHq_fuse (s : State) (n : Nat) (x : HostQueue) : (setHq s n x).fuse = s.fuse := rfl
@[simp] theorem setHq_powered (s : State) (n : Nat) (x : HostQueue) : (setHq s n x).powered = s.powered := rfl
@[simp] theorem setHq_bus (s : State) (n : Nat) (x : HostQueue) : (setHq s n x).bus = s.bus := rfl
@[simp] theorem setHq_agenda (s : State) (n : Nat) (x : HostQueue) : (setHq s n x).agenda = s.agenda := rfl
@[simp] theorem setHq_cur (s : State) (n : Nat) (x : HostQueue) : (setHq s n x).cur = s.cur := rfl
@[simp] theorem setHq_free (s : State) (n : Nat) (x : HostQueue) : (setHq s n x).free = s.free := rfl

@[simp] theorem setPod_seqs (s : State) (p : Pod) : (setPod s p).seqs = s.seqs := rfl
@[simp] theorem setPod_cores (s : State) (p : Pod) : (setPod s p).cores = s.cores := rfl
@[simp] theorem setPod_quads (s : State) (p : Pod) : (setPod s p).quads = s.quads := rfl
@[simp] theorem setPod_mem (s : State) (p : Pod) : (setPod s p).mem = s.mem := rfl
@[simp] theorem setPod_pages (s : State) (p : Pod) : (setPod s p).pages = s.pages := rfl
@[simp] theorem setPod_handles (s : State) (p : Pod) : (setPod s p).handles = s.handles := rfl
@[simp] theorem setPod_htlog (s : State) (p : Pod) : (setPod s p).htlog = s.htlog := rfl
@[simp] theorem setPod_damaged (s : State) (p : Pod) : (setPod s p).damaged = s.damaged := rfl
@[simp] theorem setPod_badTables (s : State) (p : Pod) : (setPod s p).badTables = s.badTables := rfl
@[simp] theorem setPod_forwards (s : State) (p : Pod) : (setPod s p).forwards = s.forwards := rfl
@[simp] theorem setPod_flock (s : State) (p : Pod) : (setPod s p).flock = s.flock := rfl
@[simp] theorem setPod_poison (s : State) (p : Pod) : (setPod s p).poison = s.poison := rfl
@[simp] theorem setPod_tlb (s : State) (p : Pod) : (setPod s p).tlb = s.tlb := rfl
@[simp] theorem setPod_walks (s : State) (p : Pod) : (setPod s p).walks = s.walks := rfl
@[simp] theorem setPod_slices (s : State) (p : Pod) : (setPod s p).slices = s.slices := rfl
@[simp] theorem setPod_ops (s : State) (p : Pod) : (setPod s p).ops = s.ops := rfl
@[simp] theorem setPod_nextOp (s : State) (p : Pod) : (setPod s p).nextOp = s.nextOp := rfl
@[simp] theorem setPod_events (s : State) (p : Pod) : (setPod s p).events = s.events := rfl
@[simp] theorem setPod_gt (s : State) (p : Pod) : (setPod s p).gt = s.gt := rfl
@[simp] theorem setPod_tasks (s : State) (p : Pod) : (setPod s p).tasks = s.tasks := rfl
@[simp] theorem setPod_killed (s : State) (p : Pod) : (setPod s p).killed = s.killed := rfl
@[simp] theorem setPod_launches (s : State) (p : Pod) : (setPod s p).launches = s.launches := rfl
@[simp] theorem setPod_dies (s : State) (p : Pod) : (setPod s p).dies = s.dies := rfl
@[simp] theorem setPod_zones (s : State) (p : Pod) : (setPod s p).zones = s.zones := rfl
@[simp] theorem setPod_bars (s : State) (p : Pod) : (setPod s p).bars = s.bars := rfl
@[simp] theorem setPod_barMsgs (s : State) (p : Pod) : (setPod s p).barMsgs = s.barMsgs := rfl
@[simp] theorem setPod_hqs (s : State) (p : Pod) : (setPod s p).hqs = s.hqs := rfl
@[simp] theorem setPod_admitted (s : State) (p : Pod) : (setPod s p).admitted = s.admitted := rfl
@[simp] theorem setPod_pod (s : State) (p : Pod) : (setPod s p).pod = p := rfl
@[simp] theorem setPod_attest (s : State) (p : Pod) : (setPod s p).attest = s.attest := rfl
@[simp] theorem setPod_flash (s : State) (p : Pod) : (setPod s p).flash = s.flash := rfl
@[simp] theorem setPod_hostImage (s : State) (p : Pod) : (setPod s p).hostImage = s.hostImage := rfl
@[simp] theorem setPod_fuse (s : State) (p : Pod) : (setPod s p).fuse = s.fuse := rfl
@[simp] theorem setPod_powered (s : State) (p : Pod) : (setPod s p).powered = s.powered := rfl
@[simp] theorem setPod_bus (s : State) (p : Pod) : (setPod s p).bus = s.bus := rfl
@[simp] theorem setPod_agenda (s : State) (p : Pod) : (setPod s p).agenda = s.agenda := rfl
@[simp] theorem setPod_cur (s : State) (p : Pod) : (setPod s p).cur = s.cur := rfl
@[simp] theorem setPod_free (s : State) (p : Pod) : (setPod s p).free = s.free := rfl

@[simp] theorem seqAt_setSeq_same (s : State) (q : Nat) (x : Seq) : seqAt (setSeq s q x) q = x := tget_tput_same _ _ _ _
theorem seqAt_setSeq_ne (s : State) {q j : Nat} (x : Seq) (h : j ≠ q) : seqAt (setSeq s q x) j = seqAt s j := tget_tput_ne _ _ _ h

@[simp] theorem coreAt_setCore_same (s : State) (k : Nat) (x : CoreState) : coreAt (setCore s k x) k = x := tget_tput_same _ _ _ _
theorem coreAt_setCore_ne (s : State) {k j : Nat} (x : CoreState) (h : j ≠ k) : coreAt (setCore s k x) j = coreAt s j := tget_tput_ne _ _ _ h

@[simp] theorem quadAt_setQuad_same (s : State) (k : Nat) (x : Quad) : quadAt (setQuad s k x) k = x := tget_tput_same _ _ _ _
theorem quadAt_setQuad_ne (s : State) {k j : Nat} (x : Quad) (h : j ≠ k) : quadAt (setQuad s k x) j = quadAt s j := tget_tput_ne _ _ _ h

@[simp] theorem dieAt_setDie_same (s : State) (d : Nat) (x : Die) : dieAt (setDie s d x) d = x := tget_tput_same _ _ _ _
theorem dieAt_setDie_ne (s : State) {d j : Nat} (x : Die) (h : j ≠ d) : dieAt (setDie s d x) j = dieAt s j := tget_tput_ne _ _ _ h

@[simp] theorem zoneAt_setZone_same (s : State) (z : Nat) (x : Zone) : zoneAt (setZone s z x) z = x := tget_tput_same _ _ _ _
theorem zoneAt_setZone_ne (s : State) {z j : Nat} (x : Zone) (h : j ≠ z) : zoneAt (setZone s z x) j = zoneAt s j := tget_tput_ne _ _ _ h

@[simp] theorem barrierAt_setBarrier_same (s : State) (k : Nat) (x : Barrier) : barrierAt (setBarrier s k x) k = x := tget_tput_same _ _ _ _
theorem barrierAt_setBarrier_ne (s : State) {k j : Nat} (x : Barrier) (h : j ≠ k) : barrierAt (setBarrier s k x) j = barrierAt s j := tget_tput_ne _ _ _ h

@[simp] theorem hqAt_setHq_same (s : State) (n : Nat) (x : HostQueue) : hqAt (setHq s n x) n = x := tget_tput_same _ _ _ _
theorem hqAt_setHq_ne (s : State) {n j : Nat} (x : HostQueue) (h : j ≠ n) : hqAt (setHq s n x) j = hqAt s j := tget_tput_ne _ _ _ h

@[simp] theorem me_setMe (s : State) (x : Seq) : me (setMe s x) = x := tget_tput_same _ _ _ _
@[simp] theorem me_setCore (s : State) (k : Nat) (x : CoreState) : me (setCore s k x) = me s := rfl
@[simp] theorem myCore_setMe (s : State) (x : Seq) : myCore (setMe s x) = myCore s := rfl
@[simp] theorem myCore_setMyCore (s : State) (x : CoreState) : myCore (setMyCore s x) = x := tget_tput_same _ _ _ _
theorem seqAt_setMe_ne (s : State) {q : Nat} (x : Seq) (h : q ≠ s.cur) : seqAt (setMe s x) q = seqAt s q := tget_tput_ne _ _ _ h
@[simp] theorem seqAt_setMe_cur (s : State) (x : Seq) : seqAt (setMe s x) s.cur = x := tget_tput_same _ _ _ _
@[simp] theorem taskNo_setTask_same (s : State) (k : Nat) (t : Task) : taskNo (setTask s k t) k = some t := by simp [taskNo, setTask, tfind_tput]
theorem taskNo_setTask_ne (s : State) {k j : Nat} (t : Task) (h : j ≠ k) : taskNo (setTask s k t) j = taskNo s j := by simp [taskNo, setTask, tfind_tput, h]

end Sys2Proof.Machine
end

