-- ==== Sys2Proof/Laws/Events.lean ====
section
/-! SUPPORT. Sys2Proof/Laws/Events.lean: what the posting of a FAULT event, the resume that waits for it, the guard's cycle and the records that wait for a write
can do. -/

namespace Sys2Proof.Machine

/-- R295: the event is posted, or the strand keeps it, and nothing else happens. -/
theorem postFault_cases (s : State) (q : Nat) (e : DueEvent) :
    (eventReady s e = true ∧ eventRoom s (dieOf q) = true ∧
      postFault s q e = postEvent (setSeq s q { seqAt s q with faultDue := none }) (dieOf q) e.record) ∨
    ((eventReady s e = false ∨ eventRoom s (dieOf q) = false) ∧ postFault s q e = setSeq s q { seqAt s q with faultDue := some e }) := by
  unfold postFault
  cases hr : eventReady s e <;> cases hm : eventRoom s (dieOf q) <;> simp

/-- A strand with no event due posts none. -/
theorem postDue_none {s : State} {q : Nat} (h : (seqAt s q).faultDue = none) : postDue s q = s := by simp [postDue, h]

/-- R194, R275, R295: a resume of a faulted strand waits, or is carried out, behind its event. -/
theorem resumeStrand_cases {s : State} {q : Nat} {i : StopInfo} (skip : Bool) (hs : (seqAt s q).status = .faulted) (hi : (seqAt s q).stop = some i) :
    (resumeWaits (postDue s q) q = true ∧
      resumeStrand s q skip = setSeq (postDue s q) q { seqAt (postDue s q) q with resumeAsked := some skip }) ∨
    (resumeWaits (postDue s q) q = false ∧ resumeStrand s q skip = resumeNow (postDue s q) q i skip) := by
  unfold resumeStrand
  rw [hs, hi]
  cases h : resumeWaits (postDue s q) q <;> simp [h]

/-- R195: with no result held during the stop, none lands. -/
theorem landArrived_none {s : State} {q : Nat} (h : (seqAt s q).arrived = []) : landArrived s q = setSeq s q { seqAt s q with arrived := [] } := by
  simp [landArrived, h]

/-- R343, R344: the record is written, or stands among those that wait. -/
theorem traceAfter_cases (s : State) (d n kind : Nat) (load : BitVec 64) :
    (s.forwards.any (fun f => f.op == n) = false ∧ traceAfter s d n kind load = traceRecord s d kind load 0 none) ∨
    (s.forwards.any (fun f => f.op == n) = true ∧ traceAfter s d n kind load =
      setDie s d { dieAt s d with trace := { (dieAt s d).trace with due := (dieAt s d).trace.due ++ [{ op := n, kind := kind, load := load }] } }) := by
  unfold traceAfter
  cases s.forwards.any (fun f => f.op == n) <;> simp

/-- R127, R208: the guard's hold of a stream that is ready. -/
theorem guardHolds_ready {s : State} (hr : (me (prepared s)).reissue = none) (hh : ∀ h, judge (prepared s) ≠ .held h)
    (hm : (mergeMask (prepared s)).isSome = true) : guardHolds s = heldCycle (prepared s) guardHold := by
  unfold guardHolds
  simp only [hr, hm, if_true]

/-- R126, R127: the guard's hold of a stream that is held already. -/
theorem guardHolds_held {s : State} {h : Hold} (hr : (me (prepared s)).reissue = none) (hh : judge (prepared s) = .held h) :
    guardHolds s = holdBundle (prepared s) { guardHold with vpns := h.vpns } := by
  simp [guardHolds, hr, hh]

end Sys2Proof.Machine
end

