-- ==== Sys2Proof/Laws/Memory.lean ====
section
/-! SUPPORT. Sys2Proof/Laws/Memory.lean: memory reads after writes, and every memory operation keeps the canonical form. -/

namespace Sys2Proof.Machine

theorem memByte_memPut (m : List Host.Cell) (a loc : Nat) (b : Byte) : memByte (memPut m loc b) a = if a = loc then b else memByte m a :=
  tget_sput _ _ _ _ _

theorem memPut_wf {m : List Host.Cell} (loc : Nat) (b : Byte) (h : Memory.wf m = true) : Memory.wf (memPut m loc b) = true :=
  sparseOk_sput _ _ _ _ h

theorem memPutBytes_wf {m : List Host.Cell} (loc : Nat) (l : List Byte) (h : Memory.wf m = true) : Memory.wf (memPutBytes m loc l) = true := by
  induction l generalizing m loc with
  | nil => exact h
  | cons b rest ih => exact ih _ (memPut_wf _ _ h)

theorem memPutCells_wf {m : List Host.Cell} (l : List Host.Cell) (h : Memory.wf m = true) : Memory.wf (memPutCells m l) = true := by
  induction l generalizing m with
  | nil => exact h
  | cons c rest ih => exact ih (memPut_wf _ _ h)

theorem memFilter_wf {m : List Host.Cell} (f : Host.Cell → Bool) (h : Memory.wf m = true) : Memory.wf (m.filter f) = true :=
  sparseOk_filter _ _ _ h

theorem memFold_wf {α : Type} {m : List Host.Cell} (l : List α) (f : α → List Host.Cell) (h : Memory.wf m = true) :
    Memory.wf (l.foldl (fun m x => memPutCells m (f x)) m) = true := by
  induction l generalizing m with
  | nil => exact h
  | cons x rest ih => exact ih (memPutCells_wf _ h)

/-- Bytes written from a location on: the byte of the list inside it, the old byte outside. -/
theorem memByte_memPutBytes (m : List Host.Cell) (loc a : Nat) (l : List Byte) :
    memByte (memPutBytes m loc l) a = if loc ≤ a ∧ a < loc + l.length then l.getD (a - loc) 0 else memByte m a := by
  induction l generalizing m loc with
  | nil =>
    rw [if_neg (by simp)]
    rfl
  | cons b rest ih =>
    simp only [memPutBytes, ih, memByte_memPut, List.length_cons]
    by_cases h1 : a = loc
    · subst h1
      rw [if_neg (by omega), if_pos rfl, if_pos (by omega), Nat.sub_self]
      rfl
    · by_cases h2 : loc + 1 ≤ a ∧ a < loc + 1 + rest.length
      · rw [if_pos h2, if_pos (by omega)]
        obtain ⟨n, rfl⟩ : ∃ n, a = loc + 1 + n := ⟨a - (loc + 1), by omega⟩
        rw [show loc + 1 + n - (loc + 1) = n by omega, show loc + 1 + n - loc = n + 1 by omega]
        rfl
      · rw [if_neg h2, if_neg h1, if_neg (by omega)]

/-- Cells written in order leave every other location. -/
theorem memByte_memPutCells (m : List Host.Cell) (a : Nat) (l : List Host.Cell) (h : ∀ c ∈ l, c.1 ≠ a) :
    memByte (memPutCells m l) a = memByte m a := by
  induction l generalizing m with
  | nil => rfl
  | cons c rest ih =>
    have h1 := h c (List.mem_cons_self ..)
    simp only [memPutCells, ih _ (fun x hx => h x (List.mem_cons_of_mem _ hx)), memByte_memPut]
    rw [if_neg (Ne.symm h1)]

end Sys2Proof.Machine
end

