-- ==== Sys2Proof/Laws/Flight.lean ====
section
/-! SUPPORT. Sys2Proof/Laws/Flight.lean: what the shared operations on an operation in flight do: a step of it, its completion, its report, and the
writes that it makes. -/

namespace Sys2Proof.Machine

/-- A strand that has not ended is left as it is. -/
theorem finishStrand_goes {s : State} {q : Nat} (h : (seqAt s q).endPending = false) : finishStrand s q = s := by
  simp [finishStrand, strandEnding, h]

/-- A core that is not frozen spends no debug step. -/
theorem spend_moves {s : State} {o : Op} (h : coreFrozen s (coreOf o.seq) = false) : spend s o = s := by
  unfold spend
  simp [h]

/-- An operation that may act takes the step of its engine, whose effect leaves its strand unended. -/
theorem onOp_acts {s : State} {o : Op} {may : Op → Bool} {f : State → Op → State} (h : mayAct s o) (hm : may o = true)
    (he : (seqAt (f s o) o.seq).endPending = false) : onOp s o.id may f = f s o := by
  unfold onOp
  rw [h.1]
  simp only [hm, if_true]
  rw [spend_moves h.2.1, finishStrand_goes he]

theorem mayMove_acts {s : State} {o : Op} (h : mayAct s o) (hq : o.phase = .queued) (hp : mayPerform s o = true) : mayMove s o = true := by
  simp [mayMove, engineMoves, hq, hp, h.2.1]

/-- The operation of a number after it has been replaced. -/
theorem opAt_setOp {s : State} {o p : Op} (h : opAt s o.id = some o) (hi : p.id = o.id) : opAt (setOp s p) o.id = some p := by
  unfold opAt setOp at *
  generalize s.ops = l at *
  induction l with
  | nil => simp at h
  | cons a l ih =>
    by_cases e : a.id = o.id
    · simp [e, hi]
    · rw [List.find?_cons_of_neg (by simpa using e)] at h
      rw [List.map_cons, List.find?_cons_of_neg (by simp [hi, e])]
      exact ih h

@[simp] theorem opAt_dropOp (s : State) (n : Nat) : opAt (dropOp s n) n = none := by simp [opAt, dropOp]

/-- FENCEs forgotten change nothing but the strand's list of them. -/
theorem pruneFences_eq (s : State) (q : Nat) : ∃ l, pruneFences s q = s ∨ pruneFences s q = setSeq s q { seqAt s q with fences := l } := by
  unfold pruneFences
  simp only []
  split
  · exact ⟨[], .inl rfl⟩
  · exact ⟨_, .inr rfl⟩

/-- An operation with no write on its way to a home leaves flight when it completes. -/
theorem completeOp_completes {s : State} {o : Op} (hf : ∀ f ∈ s.forwards, f.op ≠ o.id) : completes s (completeOp s o) o o.flags := by
  have h : (setSeq s o.seq { seqAt s o.seq with cstat := (seqAt s o.seq).cstat ||| o.flags }).forwards.any (fun f => f.op == o.id) = false := by
    simpa using hf
  unfold completeOp
  simp only [h, Bool.false_eq_true, if_false]
  obtain ⟨l, e | e⟩ := pruneFences_eq (dropOp (setSeq s o.seq { seqAt s o.seq with cstat := (seqAt s o.seq).cstat ||| o.flags }) o.id) o.seq <;> rw [e]
  · refine ⟨opAt_dropOp .., ?_⟩
    simp only [dropOp, seqAt, setSeq, tget_tput_same, true_and]
    exact fun p hp => tget_tput_ne _ _ _ hp
  · refine ⟨opAt_dropOp (setSeq s o.seq _) o.id, ?_⟩
    simp only [dropOp, seqAt, setSeq, tget_tput_same, true_and]
    exact fun p hp => (tget_tput_ne _ _ _ hp).trans (tget_tput_ne _ _ _ hp)

/-- A completion changes no byte, no core and no forwarded write, and of its strand only CSTAT and the fences. -/
theorem completeOp_keeps (s : State) (o : Op) :
    (completeOp s o).mem = s.mem ∧ (completeOp s o).cores = s.cores ∧ (completeOp s o).forwards = s.forwards ∧
      (seqAt (completeOp s o) o.seq).regs = (seqAt s o.seq).regs ∧ (seqAt (completeOp s o) o.seq).endPending = (seqAt s o.seq).endPending := by
  unfold completeOp pruneFences
  simp only []
  split <;> split <;> simp [seqAt, setSeq, setOp, dropOp]

/-- A completion gathers the flags and leaves every other sequencer. -/
theorem completeOp_others (s : State) (o : Op) :
    sameOthers o.seq s (completeOp s o) ∧ (seqAt (completeOp s o) o.seq).cstat = (seqAt s o.seq).cstat ||| o.flags := by
  unfold completeOp pruneFences
  simp only []
  split <;> split <;> refine ⟨fun p hp => ?_, ?_⟩ <;> simp [seqAt, setSeq, setOp, dropOp, tget_tput_ne, *]

/-- An operation that has completed is in flight only while a home has yet to perform a write of it. The operation may have changed since it was
listed under its number. -/
theorem completeOp_drained {s : State} {o q p : Op} (h : opAt s o.id = some q) (hi : q.id = o.id) (hp : opAt (completeOp s o) o.id = some p) :
    p.phase = .drained := by
  have ops : ∀ (u : State) (q n : Nat), opAt (pruneFences u q) n = opAt u n := by
    intro u q n
    obtain ⟨l, e | e⟩ := pruneFences_eq u q <;> rw [e]
    rfl
  have put : ∀ (u : State) (x : Op), opAt u o.id = some q → x.id = o.id → opAt (setOp u x) o.id = some x := by
    intro u x hu hx
    rw [← hi] at hu ⊢
    exact opAt_setOp hu (hx.trans hi.symm)
  unfold completeOp at hp
  simp only [ops] at hp
  split at hp
  · rw [put (setSeq s o.seq _) { o with phase := .drained, flags := 0, wtiles := [], pins := [] } h rfl] at hp
    cases hp
    rfl
  · rw [opAt_dropOp] at hp
    cases hp

/-- The completion of an operation of a strand that goes on. -/
theorem opDone_goes {s : State} {o : Op} (h : (seqAt s o.seq).endPending = false) : opDone s o = completeOp s o := by
  unfold opDone
  exact finishStrand_goes ((completeOp_keeps s o).2.2.2.2.trans h)

/-- Cells written in order: the last write of a place stands, and no other byte changes. -/
theorem wrote_memPutCells (cs : List Host.Cell) (s : State) : wrote cs s { s with mem := memPutCells s.mem cs } := by
  refine ⟨fun a h => memByte_memPutCells s.mem a cs h, ?_⟩
  intro x y a b e h
  subst e
  have app : ∀ (x y : List Host.Cell) (m : List Host.Cell), memPutCells m (x ++ y) = memPutCells (memPutCells m x) y := by
    intro x
    induction x with
    | nil => intros; rfl
    | cons c x ih => intro y m; exact ih y (memPut m c.1 c.2)
  show memByte (memPutCells s.mem (x ++ (a, b) :: y)) a = b
  rw [app]
  show memByte (memPutCells (memPut (memPutCells s.mem x) a b) y) a = b
  rw [memByte_memPutCells _ a y h, memByte_memPut]
  simp

end Sys2Proof.Machine
end

