-- ==== Sys2Proof/Laws/Kept.lean ====
section
/-! SUPPORT. Sys2Proof/Laws/Kept.lean: the relation that every operation of the package keeps between the memory and the fuses of two states. -/

namespace Sys2Proof.Machine

/-- From memory m0 and fuses f0 to m and f: memory stays canonical, and the fuses are not lowered (R360). -/
structure K (m0 : List Host.Cell) (f0 : Nat) (m : List Host.Cell) (f : Nat) : Prop where
  wf : Memory.wf m0 = true → Memory.wf m = true
  fuse : f0 ≤ f

theorem K.refl (m : List Host.Cell) (f : Nat) : K m f m f := ⟨id, Nat.le_refl f⟩

theorem K.bytes {m0 m : List Host.Cell} {f0 f : Nat} {loc : Nat} {l : List Byte} (h : K m0 f0 m f) : K m0 f0 (memPutBytes m loc l) f :=
  ⟨fun w => memPutBytes_wf _ _ (h.wf w), h.fuse⟩

theorem K.cells {m0 m : List Host.Cell} {f0 f : Nat} {l : List Host.Cell} (h : K m0 f0 m f) : K m0 f0 (memPutCells m l) f :=
  ⟨fun w => memPutCells_wf _ (h.wf w), h.fuse⟩

theorem K.filter {m0 m : List Host.Cell} {f0 f : Nat} {p : Host.Cell → Bool} (h : K m0 f0 m f) : K m0 f0 (m.filter p) f :=
  ⟨fun w => memFilter_wf _ (h.wf w), h.fuse⟩

theorem K.fold {α : Type} {m0 m : List Host.Cell} {f0 f : Nat} {l : List α} {g : α → List Host.Cell} (h : K m0 f0 m f) :
    K m0 f0 (l.foldl (fun m x => memPutCells m (g x)) m) f := ⟨fun w => memFold_wf _ _ (h.wf w), h.fuse⟩

theorem foldl_kept {α : Type} {m0 : List Host.Cell} {f0 : Nat} {f : State → α → State} {l : List α} {s : State}
    (hf : ∀ s x, K m0 f0 s.mem s.fuse → K m0 f0 (f s x).mem (f s x).fuse) (h : K m0 f0 s.mem s.fuse) :
    K m0 f0 (l.foldl f s).mem (l.foldl f s).fuse := by
  induction l generalizing s with
  | nil => exact h
  | cons x rest ih => exact ih (hf _ _ h)

/-- The next state of an outcome, if it has one, keeps the relation. -/
def K.out (m0 : List Host.Cell) (f0 : Nat) (o : Host.Outcome State Fault Refusal) : Prop := ∀ t, o = .next t → K m0 f0 t.mem t.fuse

/-- The state that a slot's own effect answers, if it does not fault, keeps the relation. -/
def K.body (m0 : List Host.Cell) (f0 : Nat) (r : Except SlotFault State) : Prop := ∀ t, r = .ok t → K m0 f0 t.mem t.fuse

theorem K.out_next {m0 : List Host.Cell} {f0 : Nat} {t : State} (h : K m0 f0 t.mem t.fuse) : K.out m0 f0 (.next t) :=
  fun _ e => by injection e with e; exact e ▸ h

theorem K.out_fault {m0 : List Host.Cell} {f0 : Nat} {x : Fault} : K.out m0 f0 (.fault x) := fun _ e => by injection e

theorem K.out_refused {m0 : List Host.Cell} {f0 : Nat} {x : Refusal} : K.out m0 f0 (.refused x) := fun _ e => by injection e

theorem K.body_ok {m0 : List Host.Cell} {f0 : Nat} {t : State} (h : K m0 f0 t.mem t.fuse) : K.body m0 f0 (.ok t) :=
  fun _ e => by injection e with e; exact e ▸ h

theorem K.body_error {m0 : List Host.Cell} {f0 : Nat} {x : SlotFault} : K.body m0 f0 (.error x) := fun _ e => by injection e

theorem K.of_out {m0 : List Host.Cell} {f0 : Nat} {o : Host.Outcome State Fault Refusal} {t : State} (e : o = .next t) (h : K.out m0 f0 o) :
    K m0 f0 t.mem t.fuse := h t e

theorem K.of_body {m0 : List Host.Cell} {f0 : Nat} {r : Except SlotFault State} {t : State} (e : r = .ok t) (h : K.body m0 f0 r) :
    K m0 f0 t.mem t.fuse := h t e

end Sys2Proof.Machine
end

