-- ==== Sys2Proof/Laws/KeptOps.lean ====
section
/-! SUPPORT. Sys2Proof/Laws/KeptOps.lean: the operations of Machine/Ops.lean keep memory canonical and never lower the fuses. -/

namespace Sys2Proof.Machine

theorem setSeq_kept {m0 : List Host.Cell} {f0 : Nat} (s : State) (q : Nat) (x : Seq) (hs : K m0 f0 s.mem s.fuse) :
    K m0 f0 (setSeq s q x).mem (setSeq s q x).fuse := by
  unfold setSeq
  repeat' (first | with_reducible assumption | with_reducible intro _ | dsimp only | split)

theorem setMe_kept {m0 : List Host.Cell} {f0 : Nat} (s : State) (x : Seq) (hs : K m0 f0 s.mem s.fuse) :
    K m0 f0 (setMe s x).mem (setMe s x).fuse := by
  unfold setMe
  repeat' (first | with_reducible assumption | with_reducible apply setSeq_kept | with_reducible intro _ | dsimp only | split)

theorem setCore_kept {m0 : List Host.Cell} {f0 : Nat} (s : State) (k : Nat) (x : CoreState) (hs : K m0 f0 s.mem s.fuse) :
    K m0 f0 (setCore s k x).mem (setCore s k x).fuse := by
  unfold setCore
  repeat' (first | with_reducible assumption | with_reducible intro _ | dsimp only | split)

theorem setQuad_kept {m0 : List Host.Cell} {f0 : Nat} (s : State) (k : Nat) (x : Quad) (hs : K m0 f0 s.mem s.fuse) :
    K m0 f0 (setQuad s k x).mem (setQuad s k x).fuse := by
  unfold setQuad
  repeat' (first | with_reducible assumption | with_reducible intro _ | dsimp only | split)

theorem setMyCore_kept {m0 : List Host.Cell} {f0 : Nat} (s : State) (x : CoreState) (hs : K m0 f0 s.mem s.fuse) :
    K m0 f0 (setMyCore s x).mem (setMyCore s x).fuse := by
  unfold setMyCore
  repeat' (first | with_reducible assumption | with_reducible apply setCore_kept | with_reducible intro _ | dsimp only | split)

theorem setDie_kept {m0 : List Host.Cell} {f0 : Nat} (s : State) (d : Nat) (x : Die) (hs : K m0 f0 s.mem s.fuse) :
    K m0 f0 (setDie s d x).mem (setDie s d x).fuse := by
  unfold setDie
  repeat' (first | with_reducible assumption | with_reducible intro _ | dsimp only | split)

theorem setSlice_kept {m0 : List Host.Cell} {f0 : Nat} (s : State) (die k : Nat) (x : Slice) (hs : K m0 f0 s.mem s.fuse) :
    K m0 f0 (setSlice s die k x).mem (setSlice s die k x).fuse := by
  unfold setSlice
  repeat' (first | with_reducible assumption | with_reducible intro _ | dsimp only | split)

theorem passLine_kept {m0 : List Host.Cell} {f0 : Nat} (s : State) (loc : Nat) (keeps : Bool) (hs : K m0 f0 s.mem s.fuse) :
    K m0 f0 (passLine s loc keeps).mem (passLine s loc keeps).fuse := by
  unfold passLine
  repeat' (first | with_reducible assumption | with_reducible intro _ | dsimp only | split)

theorem forwardLine_kept {m0 : List Host.Cell} {f0 : Nat} (s : State) (loc : Nat) (hs : K m0 f0 s.mem s.fuse) :
    K m0 f0 (forwardLine s loc).mem (forwardLine s loc).fuse := by
  unfold forwardLine
  repeat' (first | with_reducible assumption | with_reducible apply passLine_kept | with_reducible intro _ | dsimp only | split)

theorem passUncached_kept {m0 : List Host.Cell} {f0 : Nat} (s : State) (locs : List Nat) (hs : K m0 f0 s.mem s.fuse) :
    K m0 f0 (passUncached s locs).mem (passUncached s locs).fuse := by
  unfold passUncached
  repeat' (first | with_reducible assumption | with_reducible intro _ | dsimp only | split)

theorem writeHome_kept {m0 : List Host.Cell} {f0 : Nat} (s : State) (l : List Host.Cell) (hs : K m0 f0 s.mem s.fuse) :
    K m0 f0 (writeHome s l).mem (writeHome s l).fuse := by
  unfold writeHome
  repeat' (first | with_reducible assumption | with_reducible apply K.cells | with_reducible intro _ | dsimp only | split)

theorem passHome_kept {m0 : List Host.Cell} {f0 : Nat} (s : State) (loc n : Nat) (hs : K m0 f0 s.mem s.fuse) :
    K m0 f0 (passHome s loc n).mem (passHome s loc n).fuse := by
  unfold passHome
  repeat' (first | with_reducible assumption | with_reducible apply passUncached_kept | with_reducible intro _ | dsimp only | split)

theorem traceRaw_kept {m0 : List Host.Cell} {f0 : Nat} (s : State) (d kind delta : Nat) (payload : BitVec 64) (place : Word) (slot : Option (Nat × Bool)) (hs : K m0 f0 s.mem s.fuse) :
    K m0 f0 (traceRaw s d kind delta payload place slot).mem (traceRaw s d kind delta payload place slot).fuse := by
  unfold traceRaw
  repeat' (first | with_reducible assumption | with_reducible apply setDie_kept | with_reducible apply writeHome_kept | with_reducible intro _ | dsimp only | split)

theorem traceStamped_kept {m0 : List Host.Cell} {f0 : Nat} (s : State) (d kind : Nat) (payload : BitVec 64) (place : Word) (slot : Option (Nat × Bool)) (hs : K m0 f0 s.mem s.fuse) :
    K m0 f0 (traceStamped s d kind payload place slot).mem (traceStamped s d kind payload place slot).fuse := by
  unfold traceStamped
  repeat' (first | with_reducible assumption | with_reducible apply traceRaw_kept | with_reducible intro _ | dsimp only | split)

theorem traceResync_kept {m0 : List Host.Cell} {f0 : Nat} (s : State) (d : Nat) (hs : K m0 f0 s.mem s.fuse) :
    K m0 f0 (traceResync s d).mem (traceResync s d).fuse := by
  unfold traceResync
  repeat' (first | with_reducible assumption | with_reducible apply traceRaw_kept | with_reducible apply setDie_kept | with_reducible intro _ | dsimp only | split)

theorem traceLost_kept {m0 : List Host.Cell} {f0 : Nat} (s : State) (d : Nat) (hs : K m0 f0 s.mem s.fuse) :
    K m0 f0 (traceLost s d).mem (traceLost s d).fuse := by
  unfold traceLost
  repeat' (first | with_reducible assumption | with_reducible apply traceStamped_kept | with_reducible apply setDie_kept | with_reducible intro _ | dsimp only | split)

theorem traceRecord_kept {m0 : List Host.Cell} {f0 : Nat} (s : State) (d kind : Nat) (payload : BitVec 64) (place : Word) (slot : Option (Nat × Bool)) (hs : K m0 f0 s.mem s.fuse) :
    K m0 f0 (traceRecord s d kind payload place slot).mem (traceRecord s d kind payload place slot).fuse := by
  unfold traceRecord
  repeat' (first | with_reducible assumption | with_reducible apply traceLost_kept | with_reducible apply traceResync_kept | with_reducible apply setDie_kept | with_reducible apply traceStamped_kept | with_reducible intro _ | dsimp only | split)

theorem traceAfter_kept {m0 : List Host.Cell} {f0 : Nat} (s : State) (d n kind : Nat) (payload : BitVec 64) (hs : K m0 f0 s.mem s.fuse) :
    K m0 f0 (traceAfter s d n kind payload).mem (traceAfter s d n kind payload).fuse := by
  unfold traceAfter
  repeat' (first | with_reducible assumption | with_reducible apply setDie_kept | with_reducible apply traceRecord_kept | with_reducible intro _ | dsimp only | split)

theorem writeDue_kept {m0 : List Host.Cell} {f0 : Nat} (s : State) (d : Nat) (hs : K m0 f0 s.mem s.fuse) :
    K m0 f0 (writeDue s d).mem (writeDue s d).fuse := by
  unfold writeDue
  repeat' (first | with_reducible assumption | with_reducible apply traceRecord_kept | with_reducible apply setDie_kept | with_reducible apply foldl_kept | with_reducible intro _ | dsimp only | split)

theorem pushEvent_kept {m0 : List Host.Cell} {f0 : Nat} (s : State) (die : Nat) (rec : BitVec 512) (hs : K m0 f0 s.mem s.fuse) :
    K m0 f0 (pushEvent s die rec).mem (pushEvent s die rec).fuse := by
  unfold pushEvent
  repeat' (first | with_reducible assumption | with_reducible apply setCore_kept | with_reducible apply traceRecord_kept | with_reducible intro _ | dsimp only | split)

theorem postEvent_kept {m0 : List Host.Cell} {f0 : Nat} (s : State) (die : Nat) (rec : BitVec 512) (hs : K m0 f0 s.mem s.fuse) :
    K m0 f0 (postEvent s die rec).mem (postEvent s die rec).fuse := by
  unfold postEvent
  repeat' (first | with_reducible assumption | with_reducible apply pushEvent_kept | with_reducible intro _ | dsimp only | split)

theorem drainEvents_kept {m0 : List Host.Cell} {f0 : Nat} (s : State) (die : Nat) (hs : K m0 f0 s.mem s.fuse) :
    K m0 f0 (drainEvents s die).mem (drainEvents s die).fuse := by
  unfold drainEvents
  repeat' (first | with_reducible assumption | with_reducible apply pushEvent_kept | with_reducible intro _ | dsimp only | split)

theorem returnHeld_kept {m0 : List Host.Cell} {f0 : Nat} (s : State) (q : Nat) (m : QueueMap) (hs : K m0 f0 s.mem s.fuse) :
    K m0 f0 (returnHeld s q m).mem (returnHeld s q m).fuse := by
  unfold returnHeld
  repeat' (first | with_reducible assumption | with_reducible apply setCore_kept | with_reducible apply drainEvents_kept | with_reducible intro _ | dsimp only | split)

theorem popQueue_kept {m0 : List Host.Cell} {f0 : Nat} (s : State) (hi : Bool) (hs : K m0 f0 s.mem s.fuse) :
    K m0 f0 (popQueue s hi).mem (popQueue s hi).fuse := by
  unfold popQueue
  repeat' (first | with_reducible assumption | with_reducible apply returnHeld_kept | with_reducible apply setCore_kept | with_reducible apply setMe_kept | with_reducible intro _ | dsimp only | split)

theorem takePops_kept {m0 : List Host.Cell} {f0 : Nat} (fs : List (BitVec 6)) (s : State) (hs : K m0 f0 s.mem s.fuse) :
    K m0 f0 (takePops fs s).mem (takePops fs s).fuse := by
  unfold takePops
  repeat' (first | with_reducible assumption | with_reducible apply popQueue_kept | with_reducible intro _ | dsimp only | split)

theorem enqueue_kept {m0 : List Host.Cell} {f0 : Nat} (s : State) (n : Nat) (d : Dest) (v : BitVec 64) (fl : Flags) (k : Nat) (payload : Row) (hs : K m0 f0 s.mem s.fuse) :
    K m0 f0 (enqueue s n d v fl k payload).mem (enqueue s n d v fl k payload).fuse := by
  unfold enqueue
  repeat' (first | with_reducible assumption | with_reducible apply setMe_kept | with_reducible intro _ | dsimp only | split)

theorem writeScalar_kept {m0 : List Host.Cell} {f0 : Nat} (s : State) (n : Nat) (d : BitVec 6) (x : Word) (k : Nat) (hs : K m0 f0 s.mem s.fuse) :
    K m0 f0 (writeScalar s n d x k).mem (writeScalar s n d x k).fuse := by
  unfold writeScalar
  repeat' (first | with_reducible assumption | with_reducible apply enqueue_kept | with_reducible intro _ | dsimp only | split)

theorem writePred_kept {m0 : List Host.Cell} {f0 : Nat} (s : State) (n : Nat) (p : BitVec 3) (x : Bool) (k : Nat) (hs : K m0 f0 s.mem s.fuse) :
    K m0 f0 (writePred s n p x k).mem (writePred s n p x k).fuse := by
  unfold writePred
  repeat' (first | with_reducible assumption | with_reducible apply enqueue_kept | with_reducible intro _ | dsimp only | split)

theorem writeRow_kept {m0 : List Host.Cell} {f0 : Nat} (s : State) (n : Nat) (t : BitVec 4) (r : Nat) (x : Row × Flags) (k : Nat) (hs : K m0 f0 s.mem s.fuse) :
    K m0 f0 (writeRow s n t r x k).mem (writeRow s n t r x k).fuse := by
  unfold writeRow
  repeat' (first | with_reducible assumption | with_reducible apply enqueue_kept | with_reducible intro _ | dsimp only | split)

theorem landed_kept {m0 : List Host.Cell} {f0 : Nat} (s : State) (hs : K m0 f0 s.mem s.fuse) :
    K m0 f0 (landed s).mem (landed s).fuse := by
  unfold landed
  repeat' (first | with_reducible assumption | with_reducible apply setMe_kept | with_reducible apply setMyCore_kept | with_reducible intro _ | dsimp only | split)

theorem landQueue_kept {m0 : List Host.Cell} {f0 : Nat} (s : State) (q : Nat) (hs : K m0 f0 s.mem s.fuse) :
    K m0 f0 (landQueue s q).mem (landQueue s q).fuse := by
  unfold landQueue
  repeat' (first | with_reducible assumption | with_reducible apply setSeq_kept | with_reducible apply setCore_kept | with_reducible intro _ | dsimp only | split)

theorem countHeld_kept {m0 : List Host.Cell} {f0 : Nat} (s : State) (cls : Nat) (hs : K m0 f0 s.mem s.fuse) :
    K m0 f0 (countHeld s cls).mem (countHeld s cls).fuse := by
  unfold countHeld
  repeat' (first | with_reducible assumption | with_reducible apply setMe_kept | with_reducible intro _ | dsimp only | split)

theorem dropRequests_kept {m0 : List Host.Cell} {f0 : Nat} (s : State) (op : Nat) (hs : K m0 f0 s.mem s.fuse) :
    K m0 f0 (dropRequests s op).mem (dropRequests s op).fuse := by
  unfold dropRequests
  repeat' (first | with_reducible assumption | with_reducible intro _ | dsimp only | split)

theorem dropPoisoned_kept {m0 : List Host.Cell} {f0 : Nat} (s : State) (op : Nat) (hs : K m0 f0 s.mem s.fuse) :
    K m0 f0 (dropPoisoned s op).mem (dropPoisoned s op).fuse := by
  unfold dropPoisoned
  repeat' (first | with_reducible assumption | with_reducible intro _ | dsimp only | split)

theorem dropWaiting_kept {m0 : List Host.Cell} {f0 : Nat} (s : State) (q : Nat) (hs : K m0 f0 s.mem s.fuse) :
    K m0 f0 (dropWaiting s q).mem (dropWaiting s q).fuse := by
  unfold dropWaiting
  repeat' (first | with_reducible assumption | with_reducible intro _ | dsimp only | split)

theorem dropReads_kept {m0 : List Host.Cell} {f0 : Nat} (s : State) (q : Nat) (hs : K m0 f0 s.mem s.fuse) :
    K m0 f0 (dropReads s q).mem (dropReads s q).fuse := by
  unfold dropReads
  repeat' (first | with_reducible assumption | with_reducible apply dropWaiting_kept | with_reducible apply dropRequests_kept | with_reducible intro _ | dsimp only | split)

theorem postFault_kept {m0 : List Host.Cell} {f0 : Nat} (s : State) (q : Nat) (e : DueEvent) (hs : K m0 f0 s.mem s.fuse) :
    K m0 f0 (postFault s q e).mem (postFault s q e).fuse := by
  unfold postFault
  repeat' (first | with_reducible assumption | with_reducible apply postEvent_kept | with_reducible apply setSeq_kept | with_reducible intro _ | dsimp only | split)

theorem stopStrand_kept {m0 : List Host.Cell} {f0 : Nat} (s : State) (q : Nat) (i : StopInfo) (hs : K m0 f0 s.mem s.fuse) :
    K m0 f0 (stopStrand s q i).mem (stopStrand s q i).fuse := by
  unfold stopStrand
  repeat' (first | with_reducible assumption | with_reducible apply setSeq_kept | with_reducible apply dropReads_kept | with_reducible apply writeHome_kept | with_reducible apply traceRecord_kept | with_reducible apply postFault_kept | with_reducible intro _ | dsimp only | split)

theorem endImplicit_kept {m0 : List Host.Cell} {f0 : Nat} (s : State) (quad c : Nat) (hs : K m0 f0 s.mem s.fuse) :
    K m0 f0 (endImplicit s quad c).mem (endImplicit s quad c).fuse := by
  unfold endImplicit
  repeat' (first | with_reducible assumption | with_reducible apply setQuad_kept | with_reducible intro _ | dsimp only | split)

theorem dropStuck_kept {m0 : List Host.Cell} {f0 : Nat} (s : State) (q d : Nat) (hs : K m0 f0 s.mem s.fuse) :
    K m0 f0 (dropStuck s q d).mem (dropStuck s q d).fuse := by
  unfold dropStuck
  repeat' (first | with_reducible assumption | with_reducible apply dropRequests_kept | with_reducible apply setSeq_kept | with_reducible apply endImplicit_kept | with_reducible apply foldl_kept | with_reducible intro _ | dsimp only | split)

theorem beginUnwind_kept {m0 : List Host.Cell} {f0 : Nat} (s : State) (q d : Nat) (i : StopInfo) (hs : K m0 f0 s.mem s.fuse) :
    K m0 f0 (beginUnwind s q d i).mem (beginUnwind s q d i).fuse := by
  unfold beginUnwind
  repeat' (first | with_reducible assumption | with_reducible apply stopStrand_kept | with_reducible apply dropReads_kept | with_reducible apply dropStuck_kept | with_reducible apply setSeq_kept | with_reducible intro _ | dsimp only | split)

theorem takeFault_kept {m0 : List Host.Cell} {f0 : Nat} (s : State) (q d : Nat) (i : StopInfo) (hs : K m0 f0 s.mem s.fuse) :
    K m0 f0 (takeFault s q d i).mem (takeFault s q d i).fuse := by
  unfold takeFault
  repeat' (first | with_reducible assumption | with_reducible apply beginUnwind_kept | with_reducible apply stopStrand_kept | with_reducible intro _ | dsimp only | split)

theorem issueTrap_kept {m0 : List Host.Cell} {f0 : Nat} (s : State) (addr : Word) (cause slot : Nat) (hs : K m0 f0 s.mem s.fuse) :
    K m0 f0 (issueTrap s addr cause slot).mem (issueTrap s addr cause slot).fuse := by
  unfold issueTrap
  repeat' (first | with_reducible assumption | with_reducible apply stopStrand_kept | with_reducible intro _ | dsimp only | split)

theorem slotStop_kept {m0 : List Host.Cell} {f0 : Nat} (s : State) (addr : Word) (f : SlotFault) (cm : BitVec 8) (hs : K m0 f0 s.mem s.fuse) :
    K m0 f0 (slotStop s addr f cm).mem (slotStop s addr f cm).fuse := by
  unfold slotStop
  repeat' (first | with_reducible assumption | with_reducible apply takeFault_kept | with_reducible intro _ | dsimp only | split)

theorem endMap_kept {m0 : List Host.Cell} {f0 : Nat} (s : State) (q : Nat) (hi : Bool) (hs : K m0 f0 s.mem s.fuse) :
    K m0 f0 (endMap s q hi).mem (endMap s q hi).fuse := by
  unfold endMap
  repeat' (first | with_reducible assumption | with_reducible apply returnHeld_kept | with_reducible apply setSeq_kept | with_reducible intro _ | dsimp only | split)

theorem softTrap_kept {m0 : List Host.Cell} {f0 : Nat} (s : State) (addr : Word) (code : BitVec 8) (hs : K m0 f0 s.mem s.fuse) :
    K m0 f0 (softTrap s addr code).mem (softTrap s addr code).fuse := by
  unfold softTrap
  repeat' (first | with_reducible assumption | with_reducible apply setMe_kept | with_reducible apply stopStrand_kept | with_reducible intro _ | dsimp only | split)

theorem applyEnd_kept {m0 : List Host.Cell} {f0 : Nat} (s : State) (e : EndEffect) (hs : K m0 f0 s.mem s.fuse) :
    K m0 f0 (applyEnd s e).mem (applyEnd s e).fuse := by
  unfold applyEnd
  repeat' (first | with_reducible assumption | with_reducible apply setMe_kept | with_reducible apply endMap_kept | with_reducible apply setMyCore_kept | with_reducible apply softTrap_kept | with_reducible intro _ | dsimp only | split)

theorem atEnd_kept {m0 : List Host.Cell} {f0 : Nat} (e : EndEffect) (s : State) (hs : K m0 f0 s.mem s.fuse) :
    K m0 f0 (atEnd e s).mem (atEnd e s).fuse := by
  unfold atEnd
  repeat' (first | with_reducible assumption | with_reducible apply applyEnd_kept | with_reducible apply setMe_kept | with_reducible intro _ | dsimp only | split)

end Sys2Proof.Machine
end

