-- ==== Sys2Proof/Laws/KeptMemory.lean ====
section
/-! SUPPORT. Sys2Proof/Laws/KeptMemory.lean: the operations of Machine/Memory.lean keep memory canonical and never lower the fuses. -/

namespace Sys2Proof.Machine

theorem passFetch_kept {m0 : List Host.Cell} {f0 : Nat} (s : State) (a : Word) (hs : K m0 f0 s.mem s.fuse) :
    K m0 f0 (passFetch s a).mem (passFetch s a).fuse := by
  unfold passFetch
  repeat' (first | with_reducible assumption | with_reducible apply passUncached_kept | with_reducible intro _ | dsimp only | split)

theorem writeCells_kept {m0 : List Host.Cell} {f0 : Nat} (s : State) (die op : Nat) (l : List Host.Cell) (hs : K m0 f0 s.mem s.fuse) :
    K m0 f0 (writeCells s die op l).mem (writeCells s die op l).fuse := by
  unfold writeCells
  repeat' (first | with_reducible assumption | with_reducible apply K.cells | with_reducible intro _ | dsimp only | split)

theorem passVirtual_kept {m0 : List Host.Cell} {f0 : Nat} (s : State) (asid va n : Nat) (hs : K m0 f0 s.mem s.fuse) :
    K m0 f0 (passVirtual s asid va n).mem (passVirtual s asid va n).fuse := by
  unfold passVirtual
  repeat' (first | with_reducible assumption | with_reducible apply passUncached_kept | with_reducible intro _ | dsimp only | split)

theorem writeVirtual_kept {m0 : List Host.Cell} {f0 : Nat} (s : State) (asid va : Nat) (l : List Byte) (hs : K m0 f0 s.mem s.fuse) :
    K m0 f0 (writeVirtual s asid va l).mem (writeVirtual s asid va l).fuse := by
  unfold writeVirtual
  repeat' (first | with_reducible assumption | with_reducible apply writeHome_kept | with_reducible intro _ | dsimp only | split)

theorem setOp_kept {m0 : List Host.Cell} {f0 : Nat} (s : State) (o : Op) (hs : K m0 f0 s.mem s.fuse) :
    K m0 f0 (setOp s o).mem (setOp s o).fuse := by
  unfold setOp
  repeat' (first | with_reducible assumption | with_reducible intro _ | dsimp only | split)

theorem dropOp_kept {m0 : List Host.Cell} {f0 : Nat} (s : State) (n : Nat) (hs : K m0 f0 s.mem s.fuse) :
    K m0 f0 (dropOp s n).mem (dropOp s n).fuse := by
  unfold dropOp
  repeat' (first | with_reducible assumption | with_reducible intro _ | dsimp only | split)

theorem performForward_kept {m0 : List Host.Cell} {f0 : Nat} (s : State) (f : Forward) (hs : K m0 f0 s.mem s.fuse) :
    K m0 f0 (performForward s f).mem (performForward s f).fuse := by
  unfold performForward
  repeat' (first | with_reducible assumption | with_reducible apply forwardLine_kept | with_reducible apply K.cells | with_reducible intro _ | dsimp only | split)

theorem landWaiting_kept {m0 : List Host.Cell} {f0 : Nat} (s : State) (hs : K m0 f0 s.mem s.fuse) :
    K m0 f0 (landWaiting s).mem (landWaiting s).fuse := by
  unfold landWaiting
  repeat' (first | with_reducible assumption | with_reducible apply performForward_kept | with_reducible apply writeDue_kept | with_reducible apply foldl_kept | with_reducible intro _ | dsimp only | split)

theorem dropFailed_kept {m0 : List Host.Cell} {f0 : Nat} (s : State) (o : Op) (hs : K m0 f0 s.mem s.fuse) :
    K m0 f0 (dropFailed s o).mem (dropFailed s o).fuse := by
  unfold dropFailed
  repeat' (first | with_reducible assumption | with_reducible apply dropOp_kept | with_reducible apply dropRequests_kept | with_reducible apply setSeq_kept | with_reducible apply endImplicit_kept | with_reducible intro _ | dsimp only | split)

theorem pruneFences_kept {m0 : List Host.Cell} {f0 : Nat} (s : State) (q : Nat) (hs : K m0 f0 s.mem s.fuse) :
    K m0 f0 (pruneFences s q).mem (pruneFences s q).fuse := by
  unfold pruneFences
  repeat' (first | with_reducible assumption | with_reducible apply setSeq_kept | with_reducible intro _ | dsimp only | split)

theorem completeOp_kept {m0 : List Host.Cell} {f0 : Nat} (s : State) (o : Op) (hs : K m0 f0 s.mem s.fuse) :
    K m0 f0 (completeOp s o).mem (completeOp s o).fuse := by
  unfold completeOp
  repeat' (first | with_reducible assumption | with_reducible apply setSeq_kept | with_reducible apply setOp_kept | with_reducible apply dropOp_kept | with_reducible apply pruneFences_kept | with_reducible intro _ | dsimp only | split)

theorem freeStatus_kept {m0 : List Host.Cell} {f0 : Nat} (s : State) (hs : K m0 f0 s.mem s.fuse) :
    K m0 f0 (freeStatus s).1.mem (freeStatus s).1.fuse := by
  unfold freeStatus
  repeat' (first | with_reducible assumption | with_reducible intro _ | dsimp only | split)

theorem dropFailures_kept {m0 : List Host.Cell} {f0 : Nat} (s : State) (die asid : Nat) (hs : K m0 f0 s.mem s.fuse) :
    K m0 f0 (dropFailures s die asid).mem (dropFailures s die asid).fuse := by
  unfold dropFailures
  repeat' (first | with_reducible assumption | with_reducible intro _ | dsimp only | split)

theorem failOp_kept {m0 : List Host.Cell} {f0 : Nat} (s : State) (o : Op) (cause engine cqn : Nat) (aux0 : BitVec 64) (aux1 : Word) (hs : K m0 f0 s.mem s.fuse) :
    K m0 f0 (failOp s o cause engine cqn aux0 aux1).mem (failOp s o cause engine cqn aux0 aux1).fuse := by
  unfold failOp
  repeat' (first | with_reducible assumption | with_reducible apply dropFailures_kept | with_reducible apply dropFailed_kept | with_reducible apply setOp_kept | with_reducible apply setSeq_kept | with_reducible intro _ | dsimp only | split)

theorem failOpFree_kept {m0 : List Host.Cell} {f0 : Nat} (s : State) (o : Op) (cause engine cqn : Nat) (aux1 : Word) (hs : K m0 f0 s.mem s.fuse) :
    K m0 f0 (failOpFree s o cause engine cqn aux1).mem (failOpFree s o cause engine cqn aux1).fuse := by
  unfold failOpFree
  repeat' (first | with_reducible assumption | with_reducible apply freeStatus_kept | with_reducible apply failOp_kept | with_reducible intro _ | dsimp only | split)

theorem newOpFor_kept {m0 : List Host.Cell} {f0 : Nat} (s : State) (q : Nat) (addr : Word) (slot : Nat) (r w : Option (BitVec 4)) (tiles : List Nat) (pins : List Word) (k : OpKind) (via : List Nat) (slice : Option Nat) (hs : K m0 f0 s.mem s.fuse) :
    K m0 f0 (newOpFor s q addr slot r w tiles pins k via slice).mem (newOpFor s q addr slot r w tiles pins k via slice).fuse := by
  unfold newOpFor
  repeat' (first | with_reducible assumption | with_reducible intro _ | dsimp only | split)

theorem newOp_kept {m0 : List Host.Cell} {f0 : Nat} (s : State) (slot : Nat) (r w : Option (BitVec 4)) (tiles : List Nat) (pins : List Word) (k : OpKind) (via : List Nat) (slice : Option Nat) (hs : K m0 f0 s.mem s.fuse) :
    K m0 f0 (newOp s slot r w tiles pins k via slice).mem (newOp s slot r w tiles pins k via slice).fuse := by
  unfold newOp
  repeat' (first | with_reducible assumption | with_reducible apply newOpFor_kept | with_reducible intro _ | dsimp only | split)

theorem requestWalks_kept {m0 : List Host.Cell} {f0 : Nat} (s : State) (die asid : Nat) (vpns : List Nat) (hs : K m0 f0 s.mem s.fuse) :
    K m0 f0 (requestWalks s die asid vpns).mem (requestWalks s die asid vpns).fuse := by
  unfold requestWalks
  repeat' (first | with_reducible assumption | with_reducible intro _ | dsimp only | split)

end Sys2Proof.Machine
end

