-- ==== Sys2Proof/Laws/KeptBarrier.lean ====
section
/-! SUPPORT. Sys2Proof/Laws/KeptBarrier.lean: the operations of Machine/Barrier.lean keep memory canonical and never lower the fuses. -/

namespace Sys2Proof.Machine

theorem setBarrier_kept {m0 : List Host.Cell} {f0 : Nat} (s : State) (k : Nat) (b : Barrier) (hs : K m0 f0 s.mem s.fuse) :
    K m0 f0 (setBarrier s k b).mem (setBarrier s k b).fuse := by
  unfold setBarrier
  repeat' (first | with_reducible assumption | with_reducible intro _ | dsimp only | split)

theorem completePhase_kept {m0 : List Host.Cell} {f0 : Nat} (s : State) (k : Nat) (hs : K m0 f0 s.mem s.fuse) :
    K m0 f0 (completePhase s k).mem (completePhase s k).fuse := by
  unfold completePhase
  repeat' (first | with_reducible assumption | with_reducible apply setBarrier_kept | with_reducible intro _ | dsimp only | split)

theorem countArrival_kept {m0 : List Host.Cell} {f0 : Nat} (s : State) (k n : Nat) (hs : K m0 f0 s.mem s.fuse) :
    K m0 f0 (countArrival s k n).mem (countArrival s k n).fuse := by
  unfold countArrival
  repeat' (first | with_reducible assumption | with_reducible apply completePhase_kept | with_reducible apply setBarrier_kept | with_reducible intro _ | dsimp only | split)

theorem recountDie_kept {m0 : List Host.Cell} {f0 : Nat} (s : State) (key : Nat) (t : Task) (hs : K m0 f0 s.mem s.fuse) :
    K m0 f0 (recountDie s key t).mem (recountDie s key t).fuse := by
  unfold recountDie
  repeat' (first | with_reducible assumption | with_reducible intro _ | dsimp only | split)

theorem completeEverywhere_kept {m0 : List Host.Cell} {f0 : Nat} (s : State) (task sc id home : Nat) (hs : K m0 f0 s.mem s.fuse) :
    K m0 f0 (completeEverywhere s task sc id home).mem (completeEverywhere s task sc id home).fuse := by
  unfold completeEverywhere
  repeat' (first | with_reducible assumption | with_reducible apply completePhase_kept | with_reducible intro _ | dsimp only | split)

theorem masterComplete_kept {m0 : List Host.Cell} {f0 : Nat} (s : State) (g : Nat) (x : Group) (id : Nat) (hs : K m0 f0 s.mem s.fuse) :
    K m0 f0 (masterComplete s g x id).mem (masterComplete s g x id).fuse := by
  unfold masterComplete
  repeat' (first | with_reducible assumption | with_reducible apply completeEverywhere_kept | with_reducible intro _ | dsimp only | split)

theorem groupArrival_kept {m0 : List Host.Cell} {f0 : Nat} (s : State) (g n id : Nat) (hs : K m0 f0 s.mem s.fuse) :
    K m0 f0 (groupArrival s g n id).mem (groupArrival s g n id).fuse := by
  unfold groupArrival
  repeat' (first | with_reducible assumption | with_reducible apply masterComplete_kept | with_reducible intro _ | dsimp only | split)

theorem packageArrived_kept {m0 : List Host.Cell} {f0 : Nat} (s : State) (k : Nat) (t : Task) (sc id : Nat) (hs : K m0 f0 s.mem s.fuse) :
    K m0 f0 (packageArrived s k t sc id).mem (packageArrived s k t sc id).fuse := by
  unfold packageArrived
  repeat' (first | with_reducible assumption | with_reducible apply completeEverywhere_kept | with_reducible apply groupArrival_kept | with_reducible intro _ | dsimp only | split)

theorem homeArrival_kept {m0 : List Host.Cell} {f0 : Nat} (s : State) (k : Nat) (t : Task) (sc id : Nat) (hs : K m0 f0 s.mem s.fuse) :
    K m0 f0 (homeArrival s k t sc id).mem (homeArrival s k t sc id).fuse := by
  unfold homeArrival
  repeat' (first | with_reducible assumption | with_reducible apply packageArrived_kept | with_reducible apply setBarrier_kept | with_reducible intro _ | dsimp only | split)

theorem arrive_kept {m0 : List Host.Cell} {f0 : Nat} (s : State) (q sc id : Nat) (hs : K m0 f0 s.mem s.fuse) :
    K m0 f0 (arrive s q sc id).mem (arrive s q sc id).fuse := by
  unfold arrive
  repeat' (first | with_reducible assumption | with_reducible apply setSeq_kept | with_reducible apply countArrival_kept | with_reducible apply homeArrival_kept | with_reducible intro _ | dsimp only | split)

theorem clearArm_kept {m0 : List Host.Cell} {f0 : Nat} (s : State) (q sc id : Nat) (hs : K m0 f0 s.mem s.fuse) :
    K m0 f0 (clearArm s q sc id).mem (clearArm s q sc id).fuse := by
  unfold clearArm
  repeat' (first | with_reducible assumption | with_reducible apply setSeq_kept | with_reducible intro _ | dsimp only | split)

theorem endBarWait_kept {m0 : List Host.Cell} {f0 : Nat} (s : State) (q : Nat) (hs : K m0 f0 s.mem s.fuse) :
    K m0 f0 (endBarWait s q).mem (endBarWait s q).fuse := by
  unfold endBarWait
  repeat' (first | with_reducible assumption | with_reducible apply clearArm_kept | with_reducible apply setSeq_kept | with_reducible intro _ | dsimp only | split)

theorem deliverBarrier_kept {m0 : List Host.Cell} {f0 : Nat} (s : State) (n : Nat) (hs : K m0 f0 s.mem s.fuse) :
    K m0 f0 (deliverBarrier s n).mem (deliverBarrier s n).fuse := by
  unfold deliverBarrier
  repeat' (first | with_reducible assumption | with_reducible apply homeArrival_kept | with_reducible apply completePhase_kept | with_reducible intro _ | dsimp only | split)

end Sys2Proof.Machine
end

