-- ==== Sys2Proof/Laws/KeptAccess.lean ====
section
/-! SUPPORT. Sys2Proof/Laws/KeptAccess.lean: the operations of Machine/Access.lean keep memory canonical and never lower the fuses. -/

namespace Sys2Proof.Machine

theorem addEntry_kept {m0 : List Host.Cell} {f0 : Nat} (s : State) (d : Nat) (e : FlockEntry) (wide : Bool) (hs : K m0 f0 s.mem s.fuse) :
    K m0 f0 (addEntry s d e wide).mem (addEntry s d e wide).fuse := by
  unfold addEntry
  repeat' (first | with_reducible assumption | with_reducible intro _ | dsimp only | split)

theorem registerView_kept {m0 : List Host.Cell} {f0 : Nat} (s : State) (reg : Nat) (v : View) (ds : List Nat) (hs : K m0 f0 s.mem s.fuse) :
    K m0 f0 (registerView s reg v ds).1.mem (registerView s reg v ds).1.fuse := by
  induction ds generalizing s reg v with
  | nil =>
    unfold registerView
    repeat' (first | with_reducible assumption | with_reducible apply addEntry_kept | with_reducible intro _ | dsimp only | split)
  | cons x rest ih =>
    unfold registerView
    repeat' (first | with_reducible assumption | with_reducible apply ih | with_reducible apply addEntry_kept | with_reducible intro _ | dsimp only | split)

theorem registerHeld_kept {m0 : List Host.Cell} {f0 : Nat} (s : State) (reg : Nat) (v : View) (hs : K m0 f0 s.mem s.fuse) :
    K m0 f0 (registerHeld s reg v).mem (registerHeld s reg v).fuse := by
  unfold registerHeld
  repeat' (first | with_reducible assumption | with_reducible apply registerView_kept | with_reducible intro _ | dsimp only | split)

theorem registered_kept {m0 : List Host.Cell} {f0 : Nat} (s : State) (reg : Nat) (v : View) (hs : K m0 f0 s.mem s.fuse) :
    K m0 f0 (registered s reg v).mem (registered s reg v).fuse := by
  unfold registered
  repeat' (first | with_reducible assumption | with_reducible apply registerView_kept | with_reducible intro _ | dsimp only | split)

theorem unregisterView_kept {m0 : List Host.Cell} {f0 : Nat} (s : State) (q reg : Nat) (hs : K m0 f0 s.mem s.fuse) :
    K m0 f0 (unregisterView s q reg).mem (unregisterView s q reg).fuse := by
  unfold unregisterView
  repeat' (first | with_reducible assumption | with_reducible intro _ | dsimp only | split)

theorem recordPoison_kept {m0 : List Host.Cell} {f0 : Nat} (s : State) (q task asid : Nat) (v : View) (poison : Bool) (ds : List Nat) (hs : K m0 f0 s.mem s.fuse) :
    K m0 f0 (recordPoison s q task asid v poison ds).mem (recordPoison s q task asid v poison ds).fuse := by
  induction ds generalizing s q task asid v poison with
  | nil =>
    unfold recordPoison
    repeat' (first | with_reducible assumption | with_reducible intro _ | dsimp only | split)
  | cons x rest ih =>
    unfold recordPoison
    repeat' (first | with_reducible assumption | with_reducible apply ih | with_reducible intro _ | dsimp only | split)

end Sys2Proof.Machine
end

