-- ==== Sys2Proof/Laws/KeptRemote.lean ====
section
/-! SUPPORT. Sys2Proof/Laws/KeptRemote.lean: the operations of Machine/Remote.lean keep memory canonical and never lower the fuses. -/

namespace Sys2Proof.Machine

theorem addRequest_kept {m0 : List Host.Cell} {f0 : Nat} (s : State) (op dest : Nat) (cls : BitVec 4) (k : RequestKind) (hs : K m0 f0 s.mem s.fuse) :
    K m0 f0 (addRequest s op dest cls k).mem (addRequest s op dest cls k).fuse := by
  unfold addRequest
  repeat' (first | with_reducible assumption | with_reducible intro _ | dsimp only | split)

theorem removeRequest_kept {m0 : List Host.Cell} {f0 : Nat} (s : State) (n : Nat) (hs : K m0 f0 s.mem s.fuse) :
    K m0 f0 (removeRequest s n).mem (removeRequest s n).fuse := by
  unfold removeRequest
  repeat' (first | with_reducible assumption | with_reducible intro _ | dsimp only | split)

theorem askReads_kept {m0 : List Host.Cell} {f0 : Nat} (s : State) (op die asid : Nat) (cls : BitVec 4) (vas : List Nat) (ds : List Nat) (hs : K m0 f0 s.mem s.fuse) :
    K m0 f0 (askReads s op die asid cls vas ds).mem (askReads s op die asid cls vas ds).fuse := by
  induction ds generalizing s op die asid cls vas with
  | nil =>
    unfold askReads
    repeat' (first | with_reducible assumption | with_reducible apply addRequest_kept | with_reducible intro _ | dsimp only | split)
  | cons x rest ih =>
    unfold askReads
    repeat' (first | with_reducible assumption | with_reducible apply ih | with_reducible apply addRequest_kept | with_reducible intro _ | dsimp only | split)

theorem askWrites_kept {m0 : List Host.Cell} {f0 : Nat} (s : State) (op die asid : Nat) (cls : BitVec 4) (l : List (Nat × Byte)) (ds : List Nat) (hs : K m0 f0 s.mem s.fuse) :
    K m0 f0 (askWrites s op die asid cls l ds).mem (askWrites s op die asid cls l ds).fuse := by
  induction ds generalizing s op die asid cls l with
  | nil =>
    unfold askWrites
    repeat' (first | with_reducible assumption | with_reducible apply addRequest_kept | with_reducible intro _ | dsimp only | split)
  | cons x rest ih =>
    unfold askWrites
    repeat' (first | with_reducible assumption | with_reducible apply ih | with_reducible apply addRequest_kept | with_reducible intro _ | dsimp only | split)

end Sys2Proof.Machine
end

