-- ==== Sys2Proof/Laws/KeptTasks.lean ====
section
/-! SUPPORT. Sys2Proof/Laws/KeptTasks.lean: the operations of Machine/Tasks.lean keep memory canonical and never lower the fuses. -/

namespace Sys2Proof.Machine

theorem passView_kept {m0 : List Host.Cell} {f0 : Nat} (s : State) (asid : Nat) (v : View) (hs : K m0 f0 s.mem s.fuse) :
    K m0 f0 (passView s asid v).mem (passView s asid v).fuse := by
  unfold passView
  repeat' (first | with_reducible assumption | with_reducible apply passUncached_kept | with_reducible intro _ | dsimp only | split)

theorem captureLaunch_kept {m0 : List Host.Cell} {f0 : Nat} (s : State) (die asid : Nat) (r : LaunchRec) (hs : K m0 f0 s.mem s.fuse) :
    K m0 f0 (captureLaunch s die asid r).1.mem (captureLaunch s die asid r).1.fuse := by
  unfold captureLaunch
  repeat' (first | with_reducible assumption | with_reducible apply setDie_kept | with_reducible apply passView_kept | with_reducible apply writeHome_kept | with_reducible apply traceAfter_kept | with_reducible apply foldl_kept | with_reducible intro _ | dsimp only | split)

theorem setHq_kept {m0 : List Host.Cell} {f0 : Nat} (s : State) (n : Nat) (x : HostQueue) (hs : K m0 f0 s.mem s.fuse) :
    K m0 f0 (setHq s n x).mem (setHq s n x).fuse := by
  unfold setHq
  repeat' (first | with_reducible assumption | with_reducible intro _ | dsimp only | split)

theorem hostDone_kept {m0 : List Host.Cell} {f0 : Nat} (s : State) (host : Option (Nat × Nat)) (st : Nat) (hs : K m0 f0 s.mem s.fuse) :
    K m0 f0 (hostDone s host st).mem (hostDone s host st).fuse := by
  unfold hostDone
  repeat' (first | with_reducible assumption | with_reducible apply setHq_kept | with_reducible intro _ | dsimp only | split)

theorem passMap_kept {m0 : List Host.Cell} {f0 : Nat} (s : State) (asid : Nat) (r : LaunchRec) (hs : K m0 f0 s.mem s.fuse) :
    K m0 f0 (passMap s asid r).mem (passMap s asid r).fuse := by
  unfold passMap
  repeat' (first | with_reducible assumption | with_reducible apply passVirtual_kept | with_reducible intro _ | dsimp only | split)

theorem acceptLaunch_kept {m0 : List Host.Cell} {f0 : Nat} (s : State) (die : Nat) (a : AskedLaunch) (hs : K m0 f0 s.mem s.fuse) :
    K m0 f0 (acceptLaunch s die a).mem (acceptLaunch s die a).fuse := by
  unfold acceptLaunch
  repeat' (first | with_reducible assumption | with_reducible apply hostDone_kept | with_reducible apply postEvent_kept | with_reducible apply captureLaunch_kept | with_reducible apply passMap_kept | with_reducible intro _ | dsimp only | split)

theorem launchTask_kept {m0 : List Host.Cell} {f0 : Nat} (s : State) (die asid : Nat) (l : List Byte) (start : BitVec 64) (host : Option (Nat × Nat)) (hs : K m0 f0 s.mem s.fuse) :
    K m0 f0 (launchTask s die asid l start host).mem (launchTask s die asid l start host).fuse := by
  unfold launchTask
  repeat' (first | with_reducible assumption | with_reducible apply acceptLaunch_kept | with_reducible apply setDie_kept | with_reducible intro _ | dsimp only | split)

theorem takeLaunches_kept {m0 : List Host.Cell} {f0 : Nat} (s : State) (die : Nat) (l : List AskedLaunch) (hs : K m0 f0 s.mem s.fuse) :
    K m0 f0 (takeLaunches s die l).mem (takeLaunches s die l).fuse := by
  induction l generalizing s die with
  | nil =>
    unfold takeLaunches
    repeat' (first | with_reducible assumption | with_reducible apply setDie_kept | with_reducible apply acceptLaunch_kept | with_reducible intro _ | dsimp only | split)
  | cons x rest ih =>
    unfold takeLaunches
    repeat' (first | with_reducible assumption | with_reducible apply ih | with_reducible apply setDie_kept | with_reducible apply acceptLaunch_kept | with_reducible intro _ | dsimp only | split)

theorem takeAsked_kept {m0 : List Host.Cell} {f0 : Nat} (s : State) (die : Nat) (hs : K m0 f0 s.mem s.fuse) :
    K m0 f0 (takeAsked s die).mem (takeAsked s die).fuse := by
  unfold takeAsked
  repeat' (first | with_reducible assumption | with_reducible apply takeLaunches_kept | with_reducible apply setDie_kept | with_reducible intro _ | dsimp only | split)

theorem setZone_kept {m0 : List Host.Cell} {f0 : Nat} (s : State) (z : Nat) (x : Zone) (hs : K m0 f0 s.mem s.fuse) :
    K m0 f0 (setZone s z x).mem (setZone s z x).fuse := by
  unfold setZone
  repeat' (first | with_reducible assumption | with_reducible intro _ | dsimp only | split)

theorem takeCool_kept {m0 : List Host.Cell} {f0 : Nat} (s : State) (quad : Nat) (mask : BitVec 4) (task : Word) (n : Nat) (hs : K m0 f0 s.mem s.fuse) :
    K m0 f0 (takeCool s quad mask task n).mem (takeCool s quad mask task n).fuse := by
  unfold takeCool
  repeat' (first | with_reducible assumption | with_reducible apply setZone_kept | with_reducible intro _ | dsimp only | split)

theorem returnCool_kept {m0 : List Host.Cell} {f0 : Nat} (s : State) (quad : Nat) (mask : BitVec 4) (hs : K m0 f0 s.mem s.fuse) :
    K m0 f0 (returnCool s quad mask).mem (returnCool s quad mask).fuse := by
  unfold returnCool
  repeat' (first | with_reducible assumption | with_reducible apply setZone_kept | with_reducible intro _ | dsimp only | split)

theorem startStrands_kept {m0 : List Host.Cell} {f0 : Nat} (s : State) (t : Task) (team quad : Nat) (m : BitVec 4) (k : Nat) (hs : K m0 f0 s.mem s.fuse) :
    K m0 f0 (startStrands s t team quad m k).mem (startStrands s t team quad m k).fuse := by
  induction k generalizing s t team quad m with
  | zero =>
    unfold startStrands
    repeat' (first | with_reducible assumption | with_reducible apply setSeq_kept | with_reducible intro _ | dsimp only | split)
  | succ n ih =>
    unfold startStrands
    repeat' (first | with_reducible assumption | with_reducible apply ih | with_reducible apply setSeq_kept | with_reducible intro _ | dsimp only | split)

theorem placeCores_kept {m0 : List Host.Cell} {f0 : Nat} (s : State) (t : Task) (key quad : Nat) (m : BitVec 4) (l : List Nat) (j : Nat) (hs : K m0 f0 s.mem s.fuse) :
    K m0 f0 (placeCores s t key quad m l j).mem (placeCores s t key quad m l j).fuse := by
  induction l generalizing s t key quad m j with
  | nil =>
    unfold placeCores
    repeat' (first | with_reducible assumption | with_reducible apply setCore_kept | with_reducible intro _ | dsimp only | split)
  | cons x rest ih =>
    unfold placeCores
    repeat' (first | with_reducible assumption | with_reducible apply ih | with_reducible apply setCore_kept | with_reducible intro _ | dsimp only | split)

theorem setTask_kept {m0 : List Host.Cell} {f0 : Nat} (s : State) (k : Nat) (t : Task) (hs : K m0 f0 s.mem s.fuse) :
    K m0 f0 (setTask s k t).mem (setTask s k t).fuse := by
  unfold setTask
  repeat' (first | with_reducible assumption | with_reducible intro _ | dsimp only | split)

theorem placeTeam_kept {m0 : List Host.Cell} {f0 : Nat} (s : State) (key : Nat) (t : Task) (k quad : Nat) (hs : K m0 f0 s.mem s.fuse) :
    K m0 f0 (placeTeam s key t k quad).mem (placeTeam s key t k quad).fuse := by
  unfold placeTeam
  repeat' (first | with_reducible assumption | with_reducible apply recountDie_kept | with_reducible apply setTask_kept | with_reducible apply placeCores_kept | with_reducible apply startStrands_kept | with_reducible apply takeCool_kept | with_reducible intro _ | dsimp only | split)

theorem placeOn_kept {m0 : List Host.Cell} {f0 : Nat} (s : State) (die key : Nat) (t : Task) (k : Nat) (hs : K m0 f0 s.mem s.fuse) :
    K m0 f0 (placeOn s die key t k).mem (placeOn s die key t k).fuse := by
  unfold placeOn
  repeat' (first | with_reducible assumption | with_reducible apply placeTeam_kept | with_reducible intro _ | dsimp only | split)

theorem placeNext_kept {m0 : List Host.Cell} {f0 : Nat} (s : State) (die : Nat) (hs : K m0 f0 s.mem s.fuse) :
    K m0 f0 (placeNext s die).mem (placeNext s die).fuse := by
  unfold placeNext
  repeat' (first | with_reducible assumption | with_reducible apply placeOn_kept | with_reducible apply recountDie_kept | with_reducible apply setTask_kept | with_reducible intro _ | dsimp only | split)

theorem placeHead_kept {m0 : List Host.Cell} {f0 : Nat} (s : State) (die : Nat) (hs : K m0 f0 s.mem s.fuse) :
    K m0 f0 (placeHead s die).mem (placeHead s die).fuse := by
  unfold placeHead
  repeat' (first | with_reducible assumption | with_reducible apply placeNext_kept | with_reducible apply takeAsked_kept | with_reducible intro _ | dsimp only | split)

theorem placeCohort_kept {m0 : List Host.Cell} {f0 : Nat} (n k : Nat) (s : State) (key : Nat) (hs : K m0 f0 s.mem s.fuse) :
    K m0 f0 ((placeCohort n k s key).getD s).mem ((placeCohort n k s key).getD s).fuse := by
  suffices h : ∀ t, placeCohort n k s key = some t → K m0 f0 t.mem t.fuse by
    cases e : placeCohort n k s key with
    | none => exact hs
    | some t => exact h t e
  induction n generalizing k s with
  | zero =>
    intro t e
    injection e with e
    exact e ▸ hs
  | succ n ih =>
    intro t e
    unfold placeCohort at e
    split at e
    · simp at e
    · split at e
      · simp at e
      · split at e
        · simp at e
        · split at e
          · simp at e
          · exact ih _ _ (placeTeam_kept _ _ _ _ _ hs) t e

theorem placeCohortHead_kept {m0 : List Host.Cell} {f0 : Nat} (s : State) (die : Nat) (hs : K m0 f0 s.mem s.fuse) :
    K m0 f0 (placeCohortHead s die).mem (placeCohortHead s die).fuse := by
  unfold placeCohortHead
  repeat' (first | with_reducible assumption | with_reducible apply placeCohort_kept | with_reducible intro _ | dsimp only | split)

theorem registerLaunchView_kept {m0 : List Host.Cell} {f0 : Nat} (s : State) (key : Nat) (t : Task) (die : Nat) (v : Nat × View) (ds : List Nat) (hs : K m0 f0 s.mem s.fuse) :
    K m0 f0 (registerLaunchView s key t die v ds).1.mem (registerLaunchView s key t die v ds).1.fuse := by
  induction ds generalizing s key t die v with
  | nil =>
    unfold registerLaunchView
    repeat' (first | with_reducible assumption | with_reducible apply addEntry_kept | with_reducible intro _ | dsimp only | split)
  | cons x rest ih =>
    unfold registerLaunchView
    repeat' (first | with_reducible assumption | with_reducible apply ih | with_reducible apply addEntry_kept | with_reducible intro _ | dsimp only | split)

theorem registerLaunch_kept {m0 : List Host.Cell} {f0 : Nat} (s : State) (key : Nat) (t : Task) (die : Nat) (l : List (Nat × View)) (hs : K m0 f0 s.mem s.fuse) :
    K m0 f0 (registerLaunch s key t die l).1.mem (registerLaunch s key t die l).1.fuse := by
  induction l generalizing s key t die with
  | nil =>
    unfold registerLaunch
    repeat' (first | with_reducible assumption | with_reducible apply registerLaunchView_kept | with_reducible intro _ | dsimp only | split)
  | cons x rest ih =>
    unfold registerLaunch
    repeat' (first | with_reducible assumption | with_reducible apply ih | with_reducible apply registerLaunchView_kept | with_reducible intro _ | dsimp only | split)

theorem registerViews_kept {m0 : List Host.Cell} {f0 : Nat} (s : State) (die key : Nat) (hs : K m0 f0 s.mem s.fuse) :
    K m0 f0 (registerViews s die key).mem (registerViews s die key).fuse := by
  unfold registerViews
  repeat' (first | with_reducible assumption | with_reducible apply registerLaunch_kept | with_reducible apply setTask_kept | with_reducible intro _ | dsimp only | split)

theorem timedStart_kept {m0 : List Host.Cell} {f0 : Nat} (s : State) (q : Nat) (hs : K m0 f0 s.mem s.fuse) :
    K m0 f0 (timedStart s q).mem (timedStart s q).fuse := by
  unfold timedStart
  repeat' (first | with_reducible assumption | with_reducible apply setSeq_kept | with_reducible intro _ | dsimp only | split)

theorem captureEnded_kept {m0 : List Host.Cell} {f0 : Nat} (s : State) (die key : Nat) (x : Sums) (hs : K m0 f0 s.mem s.fuse) :
    K m0 f0 (captureEnded s die key x).mem (captureEnded s die key x).fuse := by
  unfold captureEnded
  repeat' (first | with_reducible assumption | with_reducible apply setDie_kept | with_reducible intro _ | dsimp only | split)

theorem dropLease_kept {m0 : List Host.Cell} {f0 : Nat} (s : State) (quad : Nat) (m : BitVec 4) (hs : K m0 f0 s.mem s.fuse) :
    K m0 f0 (dropLease s quad m).mem (dropLease s quad m).fuse := by
  unfold dropLease
  repeat' (first | with_reducible assumption | with_reducible apply setQuad_kept | with_reducible intro _ | dsimp only | split)

theorem endCores_kept {m0 : List Host.Cell} {f0 : Nat} (s : State) (key : Nat) (l : List Nat) (hs : K m0 f0 s.mem s.fuse) :
    K m0 f0 (endCores s key l).mem (endCores s key l).fuse := by
  induction l generalizing s key with
  | nil =>
    unfold endCores
    repeat' (first | with_reducible assumption | with_reducible apply captureEnded_kept | with_reducible apply setCore_kept | with_reducible intro _ | dsimp only | split)
  | cons x rest ih =>
    unfold endCores
    repeat' (first | with_reducible assumption | with_reducible apply ih | with_reducible apply captureEnded_kept | with_reducible apply setCore_kept | with_reducible intro _ | dsimp only | split)

theorem leaveQuad_kept {m0 : List Host.Cell} {f0 : Nat} (s : State) (x : Team) (hs : K m0 f0 s.mem s.fuse) :
    K m0 f0 (leaveQuad s x).mem (leaveQuad s x).fuse := by
  unfold leaveQuad
  repeat' (first | with_reducible assumption | with_reducible apply returnCool_kept | with_reducible apply dropLease_kept | with_reducible intro _ | dsimp only | split)

theorem endTeam_kept {m0 : List Host.Cell} {f0 : Nat} (s : State) (key k : Nat) (hs : K m0 f0 s.mem s.fuse) :
    K m0 f0 (endTeam s key k).mem (endTeam s key k).fuse := by
  unfold endTeam
  repeat' (first | with_reducible assumption | with_reducible apply leaveQuad_kept | with_reducible apply endCores_kept | with_reducible apply setTask_kept | with_reducible intro _ | dsimp only | split)

theorem retireView_kept {m0 : List Host.Cell} {f0 : Nat} (s : State) (q : Nat) (addr : Word) (slot reg : Nat) (poison : Bool) (hs : K m0 f0 s.mem s.fuse) :
    K m0 f0 (retireView s q addr slot reg poison).mem (retireView s q addr slot reg poison).fuse := by
  unfold retireView
  repeat' (first | with_reducible assumption | with_reducible apply setSeq_kept | with_reducible apply newOpFor_kept | with_reducible intro _ | dsimp only | split)

theorem retireViews_kept {m0 : List Host.Cell} {f0 : Nat} (s : State) (q : Nat) (addr : Word) (poison : Bool) (l : List Nat) (hs : K m0 f0 s.mem s.fuse) :
    K m0 f0 (retireViews s q addr poison l).mem (retireViews s q addr poison l).fuse := by
  induction l generalizing s q addr poison with
  | nil =>
    unfold retireViews
    repeat' (first | with_reducible assumption | with_reducible apply retireView_kept | with_reducible intro _ | dsimp only | split)
  | cons x rest ih =>
    unfold retireViews
    repeat' (first | with_reducible assumption | with_reducible apply ih | with_reducible apply retireView_kept | with_reducible intro _ | dsimp only | split)

theorem leaveBank_kept {m0 : List Host.Cell} {f0 : Nat} (s : State) (q : Nat) (hs : K m0 f0 s.mem s.fuse) :
    K m0 f0 (leaveBank s q).mem (leaveBank s q).fuse := by
  unfold leaveBank
  repeat' (first | with_reducible assumption | with_reducible apply landWaiting_kept | with_reducible apply setSeq_kept | with_reducible intro _ | dsimp only | split)

theorem releaseStrand_kept {m0 : List Host.Cell} {f0 : Nat} (s : State) (q : Nat) (hs : K m0 f0 s.mem s.fuse) :
    K m0 f0 (releaseStrand s q).mem (releaseStrand s q).fuse := by
  unfold releaseStrand
  repeat' (first | with_reducible assumption | with_reducible apply captureEnded_kept | with_reducible apply setSeq_kept | with_reducible apply setTask_kept | with_reducible apply endTeam_kept | with_reducible intro _ | dsimp only | split)

theorem closeStrand_kept {m0 : List Host.Cell} {f0 : Nat} (s : State) (q : Nat) (hs : K m0 f0 s.mem s.fuse) :
    K m0 f0 (closeStrand s q).mem (closeStrand s q).fuse := by
  unfold closeStrand
  repeat' (first | with_reducible assumption | with_reducible apply retireViews_kept | with_reducible apply endMap_kept | with_reducible apply landQueue_kept | with_reducible intro _ | dsimp only | split)

theorem finishStrand_kept {m0 : List Host.Cell} {f0 : Nat} (s : State) (q : Nat) (hs : K m0 f0 s.mem s.fuse) :
    K m0 f0 (finishStrand s q).mem (finishStrand s q).fuse := by
  unfold finishStrand
  repeat' (first | with_reducible assumption | with_reducible apply leaveBank_kept | with_reducible apply closeStrand_kept | with_reducible apply releaseStrand_kept | with_reducible intro _ | dsimp only | split)

theorem endStrand_kept {m0 : List Host.Cell} {f0 : Nat} (s : State) (q : Nat) (hs : K m0 f0 s.mem s.fuse) :
    K m0 f0 (endStrand s q).mem (endStrand s q).fuse := by
  unfold endStrand
  repeat' (first | with_reducible assumption | with_reducible apply finishStrand_kept | with_reducible apply setSeq_kept | with_reducible intro _ | dsimp only | split)

theorem killStrand_kept {m0 : List Host.Cell} {f0 : Nat} (s : State) (q : Nat) (hs : K m0 f0 s.mem s.fuse) :
    K m0 f0 (killStrand s q).mem (killStrand s q).fuse := by
  unfold killStrand
  repeat' (first | with_reducible assumption | with_reducible apply setSeq_kept | with_reducible apply dropReads_kept | with_reducible apply endMap_kept | with_reducible apply dropStuck_kept | with_reducible apply finishStrand_kept | with_reducible apply retireViews_kept | with_reducible intro _ | dsimp only | split)

theorem killStrands_kept {m0 : List Host.Cell} {f0 : Nat} (s : State) (x : Team) (k : Nat) (hs : K m0 f0 s.mem s.fuse) :
    K m0 f0 (killStrands s x k).mem (killStrands s x k).fuse := by
  induction k generalizing s x with
  | zero =>
    unfold killStrands
    repeat' (first | with_reducible assumption | with_reducible apply killStrand_kept | with_reducible intro _ | dsimp only | split)
  | succ n ih =>
    unfold killStrands
    repeat' (first | with_reducible assumption | with_reducible apply ih | with_reducible apply killStrand_kept | with_reducible intro _ | dsimp only | split)

theorem dropSuspended_kept {m0 : List Host.Cell} {f0 : Nat} (s : State) (x : Team) (hs : K m0 f0 s.mem s.fuse) :
    K m0 f0 (dropSuspended s x).mem (dropSuspended s x).fuse := by
  unfold dropSuspended
  repeat' (first | with_reducible assumption | with_reducible intro _ | dsimp only | split)

theorem killOutStrand_kept {m0 : List Host.Cell} {f0 : Nat} (s : State) (key k : Nat) (t : Task) (x : Team) (y : SavedStrand) (hs : K m0 f0 s.mem s.fuse) :
    K m0 f0 (killOutStrand s key k t x y).mem (killOutStrand s key k t x y).fuse := by
  unfold killOutStrand
  repeat' (first | with_reducible assumption | with_reducible apply recordPoison_kept | with_reducible apply foldl_kept | with_reducible intro _ | dsimp only | split)

theorem killOut_kept {m0 : List Host.Cell} {f0 : Nat} (s : State) (key k : Nat) (t : Task) (x : Team) (hs : K m0 f0 s.mem s.fuse) :
    K m0 f0 (killOut s key k t x).mem (killOut s key k t x).fuse := by
  unfold killOut
  repeat' (first | with_reducible assumption | with_reducible apply captureEnded_kept | with_reducible apply dropSuspended_kept | with_reducible apply killOutStrand_kept | with_reducible apply foldl_kept | with_reducible intro _ | dsimp only | split)

theorem endWaiting_kept {m0 : List Host.Cell} {f0 : Nat} (s : State) (key k : Nat) (hs : K m0 f0 s.mem s.fuse) :
    K m0 f0 (endWaiting s key k).mem (endWaiting s key k).fuse := by
  unfold endWaiting
  repeat' (first | with_reducible assumption | with_reducible apply setTask_kept | with_reducible intro _ | dsimp only | split)

theorem killTeams_kept {m0 : List Host.Cell} {f0 : Nat} (s : State) (key : Nat) (t : Task) (k : Nat) (hs : K m0 f0 s.mem s.fuse) :
    K m0 f0 (killTeams s key t k).mem (killTeams s key t k).fuse := by
  induction k generalizing s key t with
  | zero =>
    unfold killTeams
    repeat' (first | with_reducible assumption | with_reducible apply killStrands_kept | with_reducible apply endWaiting_kept | with_reducible apply killOut_kept | with_reducible intro _ | dsimp only | split)
  | succ n ih =>
    unfold killTeams
    repeat' (first | with_reducible assumption | with_reducible apply ih | with_reducible apply killStrands_kept | with_reducible apply endWaiting_kept | with_reducible apply killOut_kept | with_reducible intro _ | dsimp only | split)

theorem killTask_kept {m0 : List Host.Cell} {f0 : Nat} (s : State) (key : Nat) (hs : K m0 f0 s.mem s.fuse) :
    K m0 f0 (killTask s key).mem (killTask s key).fuse := by
  unfold killTask
  repeat' (first | with_reducible assumption | with_reducible apply killTeams_kept | with_reducible apply setTask_kept | with_reducible intro _ | dsimp only | split)

end Sys2Proof.Machine
end

