-- ==== Sys2Proof/Laws/KeptPlaced.lean ====
section
/-! SUPPORT. Sys2Proof/Laws/KeptPlaced.lean: the operations of Machine/Placed.lean keep memory canonical and never lower the fuses. -/

namespace Sys2Proof.Machine

theorem askInputs_kept {m0 : List Host.Cell} {f0 : Nat} (s : State) (q : Nat) (l : List View) (hs : K m0 f0 s.mem s.fuse) :
    K m0 f0 (askInputs s q l).mem (askInputs s q l).fuse := by
  unfold askInputs
  repeat' (first | with_reducible assumption | with_reducible apply askReads_kept | with_reducible apply foldl_kept | with_reducible intro _ | dsimp only | split)

end Sys2Proof.Machine
end

