-- ==== Sys2Proof/Laws/KeptSlot.lean ====
section
/-! SUPPORT. Sys2Proof/Laws/KeptSlot.lean: the operations of Machine/Slot.lean keep memory canonical and never lower the fuses. -/

namespace Sys2Proof.Machine

theorem beginWait_kept {m0 : List Host.Cell} {f0 : Nat} (s : State) (a b : BitVec 6) (hs : K m0 f0 s.mem s.fuse) :
    K m0 f0 (beginWait s a b).mem (beginWait s a b).fuse := by
  unfold beginWait
  repeat' (first | with_reducible assumption | with_reducible apply setMe_kept | with_reducible intro _ | dsimp only | split)

theorem askHeld_kept {m0 : List Host.Cell} {f0 : Nat} (s : State) (i : Instr) (hs : K m0 f0 s.mem s.fuse) :
    K m0 f0 (askHeld s i).mem (askHeld s i).fuse := by
  unfold askHeld
  repeat' (first | with_reducible assumption | with_reducible apply beginWait_kept | with_reducible apply registerHeld_kept | with_reducible apply askReads_kept | with_reducible apply dropRequests_kept | with_reducible apply setMe_kept | with_reducible apply addRequest_kept | with_reducible apply askInputs_kept | with_reducible intro _ | dsimp only | split)

theorem stallHeld_kept {m0 : List Host.Cell} {f0 : Nat} (s : State) (i : Instr) (hs : K m0 f0 s.mem s.fuse) :
    K m0 f0 (stallHeld s i).mem (stallHeld s i).fuse := by
  unfold stallHeld
  repeat' (first | with_reducible assumption | with_reducible apply setMyCore_kept | with_reducible intro _ | dsimp only | split)

theorem pollHeld_kept {m0 : List Host.Cell} {f0 : Nat} (s : State) (i : Instr) (hs : K m0 f0 s.mem s.fuse) :
    K m0 f0 (pollHeld s i).mem (pollHeld s i).fuse := by
  unfold pollHeld
  repeat' (first | with_reducible assumption | with_reducible apply passUncached_kept | with_reducible intro _ | dsimp only | split)

theorem heldCycle_kept {m0 : List Host.Cell} {f0 : Nat} (s : State) (h : Hold) (hs : K m0 f0 s.mem s.fuse) :
    K m0 f0 (heldCycle s h).mem (heldCycle s h).fuse := by
  unfold heldCycle
  repeat' (first | with_reducible assumption | with_reducible apply countHeld_kept | with_reducible apply requestWalks_kept | with_reducible intro _ | dsimp only | split)

theorem slotFault_kept {m0 : List Host.Cell} {f0 : Nat} (s : State) (n : Nat) (f : SlotFault) (hs : K m0 f0 s.mem s.fuse) :
    K m0 f0 (slotFault s n f).mem (slotFault s n f).fuse := by
  unfold slotFault
  repeat' (first | with_reducible assumption | with_reducible apply setMe_kept | with_reducible apply slotStop_kept | with_reducible apply dropFailures_kept | with_reducible intro _ | dsimp only | split)

theorem slotStep_kept {m0 : List Host.Cell} {f0 : Nat} (i : Instr) (s : State) (body : State → Except SlotFault State) (hs : K m0 f0 s.mem s.fuse)
    (hb : K.body m0 f0 (body s)) : K.out m0 f0 (slotStep i s body) := by
  have hrun : ∀ t, t = (match body s with
      | .ok t => takePops (readsOf (me s) i) t
      | .error f => slotFault s (slotNo i) f) → K m0 f0 t.mem t.fuse := by
    intro t e
    subst e
    cases h : body s with
    | ok t => exact takePops_kept _ _ (hb t h)
    | error f => exact slotFault_kept _ _ _ hs
  unfold slotStep
  repeat' (first | with_reducible assumption | with_reducible apply K.out_next | exact hrun _ rfl | with_reducible apply heldCycle_kept | with_reducible apply pollHeld_kept | with_reducible apply stallHeld_kept | with_reducible apply askHeld_kept | with_reducible apply issueTrap_kept | dsimp only | split)

theorem afterCheck_kept {m0 : List Host.Cell} {f0 : Nat} (c : Check) (n : Nat) (t : State) (h : K m0 f0 t.mem t.fuse) :
    K.body m0 f0 (afterCheck c n t) := by
  unfold afterCheck
  split
  · exact K.body_error
  · exact K.body_ok h

end Sys2Proof.Machine
end

