-- ==== Sys2Proof/Laws/KeptScalar.lean ====
section
/-! SUPPORT. Sys2Proof/Laws/KeptScalar.lean: the operations of Machine/Scalar.lean keep memory canonical and never lower the fuses. -/

namespace Sys2Proof.Machine

theorem scalar2_kept {m0 : List Host.Cell} {f0 : Nat} (i : Instr) (l : Bool) (d a b : BitVec 6) (k : Nat) (f : Word → Word → Word) (s : State) (hs : K m0 f0 s.mem s.fuse) :
    K.out m0 f0 (scalar2 i l d a b k f s) := by
  unfold scalar2
  repeat' (first | with_reducible assumption | with_reducible refine K.of_out ‹_› ?_ | with_reducible refine K.of_body ‹_› ?_ | with_reducible apply slotStep_kept | with_reducible apply writeScalar_kept | with_reducible apply K.out_next | with_reducible apply K.out_fault | with_reducible apply K.out_refused | with_reducible apply K.body_ok | with_reducible apply K.body_error | with_reducible intro _ | dsimp only | split)

theorem scalar1_kept {m0 : List Host.Cell} {f0 : Nat} (i : Instr) (l : Bool) (d a : BitVec 6) (f : Word → Word) (s : State) (hs : K m0 f0 s.mem s.fuse) :
    K.out m0 f0 (scalar1 i l d a f s) := by
  unfold scalar1
  repeat' (first | with_reducible assumption | with_reducible refine K.of_out ‹_› ?_ | with_reducible refine K.of_body ‹_› ?_ | with_reducible apply slotStep_kept | with_reducible apply writeScalar_kept | with_reducible apply K.out_next | with_reducible apply K.out_fault | with_reducible apply K.out_refused | with_reducible apply K.body_ok | with_reducible apply K.body_error | with_reducible intro _ | dsimp only | split)

theorem scalarImm_kept {m0 : List Host.Cell} {f0 : Nat} (i : Instr) (l : Bool) (d : BitVec 6) (f : Word → Word) (s : State) (hs : K m0 f0 s.mem s.fuse) :
    K.out m0 f0 (scalarImm i l d f s) := by
  unfold scalarImm
  repeat' (first | with_reducible assumption | with_reducible refine K.of_out ‹_› ?_ | with_reducible refine K.of_body ‹_› ?_ | with_reducible apply slotStep_kept | with_reducible apply writeScalar_kept | with_reducible apply K.out_next | with_reducible apply K.out_fault | with_reducible apply K.out_refused | with_reducible apply K.body_ok | with_reducible apply K.body_error | with_reducible intro _ | dsimp only | split)

theorem execAdd_kept {m0 : List Host.Cell} {f0 : Nat} (l : Bool) (g : BitVec 4) (d a b : BitVec 6) (s : State) (hs : K m0 f0 s.mem s.fuse) :
    K.out m0 f0 (execAdd l g d a b s) := by
  unfold execAdd
  repeat' (first | with_reducible assumption | with_reducible refine K.of_out ‹_› ?_ | with_reducible refine K.of_body ‹_› ?_ | with_reducible apply scalar2_kept | with_reducible apply K.out_next | with_reducible apply K.out_fault | with_reducible apply K.out_refused | with_reducible apply K.body_ok | with_reducible apply K.body_error | with_reducible intro _ | dsimp only | split)

theorem execSub_kept {m0 : List Host.Cell} {f0 : Nat} (l : Bool) (g : BitVec 4) (d a b : BitVec 6) (s : State) (hs : K m0 f0 s.mem s.fuse) :
    K.out m0 f0 (execSub l g d a b s) := by
  unfold execSub
  repeat' (first | with_reducible assumption | with_reducible refine K.of_out ‹_› ?_ | with_reducible refine K.of_body ‹_› ?_ | with_reducible apply scalar2_kept | with_reducible apply K.out_next | with_reducible apply K.out_fault | with_reducible apply K.out_refused | with_reducible apply K.body_ok | with_reducible apply K.body_error | with_reducible intro _ | dsimp only | split)

theorem execAnd_kept {m0 : List Host.Cell} {f0 : Nat} (l : Bool) (g : BitVec 4) (d a b : BitVec 6) (s : State) (hs : K m0 f0 s.mem s.fuse) :
    K.out m0 f0 (execAnd l g d a b s) := by
  unfold execAnd
  repeat' (first | with_reducible assumption | with_reducible refine K.of_out ‹_› ?_ | with_reducible refine K.of_body ‹_› ?_ | with_reducible apply scalar2_kept | with_reducible apply K.out_next | with_reducible apply K.out_fault | with_reducible apply K.out_refused | with_reducible apply K.body_ok | with_reducible apply K.body_error | with_reducible intro _ | dsimp only | split)

theorem execOr_kept {m0 : List Host.Cell} {f0 : Nat} (l : Bool) (g : BitVec 4) (d a b : BitVec 6) (s : State) (hs : K m0 f0 s.mem s.fuse) :
    K.out m0 f0 (execOr l g d a b s) := by
  unfold execOr
  repeat' (first | with_reducible assumption | with_reducible refine K.of_out ‹_› ?_ | with_reducible refine K.of_body ‹_› ?_ | with_reducible apply scalar2_kept | with_reducible apply K.out_next | with_reducible apply K.out_fault | with_reducible apply K.out_refused | with_reducible apply K.body_ok | with_reducible apply K.body_error | with_reducible intro _ | dsimp only | split)

theorem execXor_kept {m0 : List Host.Cell} {f0 : Nat} (l : Bool) (g : BitVec 4) (d a b : BitVec 6) (s : State) (hs : K m0 f0 s.mem s.fuse) :
    K.out m0 f0 (execXor l g d a b s) := by
  unfold execXor
  repeat' (first | with_reducible assumption | with_reducible refine K.of_out ‹_› ?_ | with_reducible refine K.of_body ‹_› ?_ | with_reducible apply scalar2_kept | with_reducible apply K.out_next | with_reducible apply K.out_fault | with_reducible apply K.out_refused | with_reducible apply K.body_ok | with_reducible apply K.body_error | with_reducible intro _ | dsimp only | split)

theorem execShl_kept {m0 : List Host.Cell} {f0 : Nat} (l : Bool) (g : BitVec 4) (d a b : BitVec 6) (s : State) (hs : K m0 f0 s.mem s.fuse) :
    K.out m0 f0 (execShl l g d a b s) := by
  unfold execShl
  repeat' (first | with_reducible assumption | with_reducible refine K.of_out ‹_› ?_ | with_reducible refine K.of_body ‹_› ?_ | with_reducible apply scalar2_kept | with_reducible apply K.out_next | with_reducible apply K.out_fault | with_reducible apply K.out_refused | with_reducible apply K.body_ok | with_reducible apply K.body_error | with_reducible intro _ | dsimp only | split)

theorem execShr_kept {m0 : List Host.Cell} {f0 : Nat} (l : Bool) (g : BitVec 4) (d a b : BitVec 6) (s : State) (hs : K m0 f0 s.mem s.fuse) :
    K.out m0 f0 (execShr l g d a b s) := by
  unfold execShr
  repeat' (first | with_reducible assumption | with_reducible refine K.of_out ‹_› ?_ | with_reducible refine K.of_body ‹_› ?_ | with_reducible apply scalar2_kept | with_reducible apply K.out_next | with_reducible apply K.out_fault | with_reducible apply K.out_refused | with_reducible apply K.body_ok | with_reducible apply K.body_error | with_reducible intro _ | dsimp only | split)

theorem execSra_kept {m0 : List Host.Cell} {f0 : Nat} (l : Bool) (g : BitVec 4) (d a b : BitVec 6) (s : State) (hs : K m0 f0 s.mem s.fuse) :
    K.out m0 f0 (execSra l g d a b s) := by
  unfold execSra
  repeat' (first | with_reducible assumption | with_reducible refine K.of_out ‹_› ?_ | with_reducible refine K.of_body ‹_› ?_ | with_reducible apply scalar2_kept | with_reducible apply K.out_next | with_reducible apply K.out_fault | with_reducible apply K.out_refused | with_reducible apply K.body_ok | with_reducible apply K.body_error | with_reducible intro _ | dsimp only | split)

theorem execMin_kept {m0 : List Host.Cell} {f0 : Nat} (l : Bool) (g : BitVec 4) (d a b : BitVec 6) (s : State) (hs : K m0 f0 s.mem s.fuse) :
    K.out m0 f0 (execMin l g d a b s) := by
  unfold execMin
  repeat' (first | with_reducible assumption | with_reducible refine K.of_out ‹_› ?_ | with_reducible refine K.of_body ‹_› ?_ | with_reducible apply scalar2_kept | with_reducible apply K.out_next | with_reducible apply K.out_fault | with_reducible apply K.out_refused | with_reducible apply K.body_ok | with_reducible apply K.body_error | with_reducible intro _ | dsimp only | split)

theorem execMax_kept {m0 : List Host.Cell} {f0 : Nat} (l : Bool) (g : BitVec 4) (d a b : BitVec 6) (s : State) (hs : K m0 f0 s.mem s.fuse) :
    K.out m0 f0 (execMax l g d a b s) := by
  unfold execMax
  repeat' (first | with_reducible assumption | with_reducible refine K.of_out ‹_› ?_ | with_reducible refine K.of_body ‹_› ?_ | with_reducible apply scalar2_kept | with_reducible apply K.out_next | with_reducible apply K.out_fault | with_reducible apply K.out_refused | with_reducible apply K.body_ok | with_reducible apply K.body_error | with_reducible intro _ | dsimp only | split)

theorem execMinu_kept {m0 : List Host.Cell} {f0 : Nat} (l : Bool) (g : BitVec 4) (d a b : BitVec 6) (s : State) (hs : K m0 f0 s.mem s.fuse) :
    K.out m0 f0 (execMinu l g d a b s) := by
  unfold execMinu
  repeat' (first | with_reducible assumption | with_reducible refine K.of_out ‹_› ?_ | with_reducible refine K.of_body ‹_› ?_ | with_reducible apply scalar2_kept | with_reducible apply K.out_next | with_reducible apply K.out_fault | with_reducible apply K.out_refused | with_reducible apply K.body_ok | with_reducible apply K.body_error | with_reducible intro _ | dsimp only | split)

theorem execMaxu_kept {m0 : List Host.Cell} {f0 : Nat} (l : Bool) (g : BitVec 4) (d a b : BitVec 6) (s : State) (hs : K m0 f0 s.mem s.fuse) :
    K.out m0 f0 (execMaxu l g d a b s) := by
  unfold execMaxu
  repeat' (first | with_reducible assumption | with_reducible refine K.of_out ‹_› ?_ | with_reducible refine K.of_body ‹_› ?_ | with_reducible apply scalar2_kept | with_reducible apply K.out_next | with_reducible apply K.out_fault | with_reducible apply K.out_refused | with_reducible apply K.body_ok | with_reducible apply K.body_error | with_reducible intro _ | dsimp only | split)

theorem execMov_kept {m0 : List Host.Cell} {f0 : Nat} (l : Bool) (g : BitVec 4) (d a : BitVec 6) (s : State) (hs : K m0 f0 s.mem s.fuse) :
    K.out m0 f0 (execMov l g d a s) := by
  unfold execMov
  repeat' (first | with_reducible assumption | with_reducible refine K.of_out ‹_› ?_ | with_reducible refine K.of_body ‹_› ?_ | with_reducible apply scalar1_kept | with_reducible apply K.out_next | with_reducible apply K.out_fault | with_reducible apply K.out_refused | with_reducible apply K.body_ok | with_reducible apply K.body_error | with_reducible intro _ | dsimp only | split)

theorem execAddsh_kept {m0 : List Host.Cell} {f0 : Nat} (l : Bool) (g : BitVec 4) (d a b : BitVec 6) (sh : BitVec 2) (s : State) (hs : K m0 f0 s.mem s.fuse) :
    K.out m0 f0 (execAddsh l g d a b sh s) := by
  unfold execAddsh
  repeat' (first | with_reducible assumption | with_reducible refine K.of_out ‹_› ?_ | with_reducible refine K.of_body ‹_› ?_ | with_reducible apply scalar2_kept | with_reducible apply K.out_next | with_reducible apply K.out_fault | with_reducible apply K.out_refused | with_reducible apply K.body_ok | with_reducible apply K.body_error | with_reducible intro _ | dsimp only | split)

theorem execClz_kept {m0 : List Host.Cell} {f0 : Nat} (l : Bool) (g : BitVec 4) (d a : BitVec 6) (s : State) (hs : K m0 f0 s.mem s.fuse) :
    K.out m0 f0 (execClz l g d a s) := by
  unfold execClz
  repeat' (first | with_reducible assumption | with_reducible refine K.of_out ‹_› ?_ | with_reducible refine K.of_body ‹_› ?_ | with_reducible apply scalar1_kept | with_reducible apply K.out_next | with_reducible apply K.out_fault | with_reducible apply K.out_refused | with_reducible apply K.body_ok | with_reducible apply K.body_error | with_reducible intro _ | dsimp only | split)

theorem execMul_kept {m0 : List Host.Cell} {f0 : Nat} (l : Bool) (g : BitVec 4) (d a b : BitVec 6) (s : State) (hs : K m0 f0 s.mem s.fuse) :
    K.out m0 f0 (execMul l g d a b s) := by
  unfold execMul
  repeat' (first | with_reducible assumption | with_reducible refine K.of_out ‹_› ?_ | with_reducible refine K.of_body ‹_› ?_ | with_reducible apply scalar2_kept | with_reducible apply K.out_next | with_reducible apply K.out_fault | with_reducible apply K.out_refused | with_reducible apply K.body_ok | with_reducible apply K.body_error | with_reducible intro _ | dsimp only | split)

theorem execMulh_kept {m0 : List Host.Cell} {f0 : Nat} (l : Bool) (g : BitVec 4) (d a b : BitVec 6) (s : State) (hs : K m0 f0 s.mem s.fuse) :
    K.out m0 f0 (execMulh l g d a b s) := by
  unfold execMulh
  repeat' (first | with_reducible assumption | with_reducible refine K.of_out ‹_› ?_ | with_reducible refine K.of_body ‹_› ?_ | with_reducible apply scalar2_kept | with_reducible apply K.out_next | with_reducible apply K.out_fault | with_reducible apply K.out_refused | with_reducible apply K.body_ok | with_reducible apply K.body_error | with_reducible intro _ | dsimp only | split)

theorem execMulhu_kept {m0 : List Host.Cell} {f0 : Nat} (l : Bool) (g : BitVec 4) (d a b : BitVec 6) (s : State) (hs : K m0 f0 s.mem s.fuse) :
    K.out m0 f0 (execMulhu l g d a b s) := by
  unfold execMulhu
  repeat' (first | with_reducible assumption | with_reducible refine K.of_out ‹_› ?_ | with_reducible refine K.of_body ‹_› ?_ | with_reducible apply scalar2_kept | with_reducible apply K.out_next | with_reducible apply K.out_fault | with_reducible apply K.out_refused | with_reducible apply K.body_ok | with_reducible apply K.body_error | with_reducible intro _ | dsimp only | split)

theorem execDivu_kept {m0 : List Host.Cell} {f0 : Nat} (l : Bool) (g : BitVec 4) (d a b : BitVec 6) (s : State) (hs : K m0 f0 s.mem s.fuse) :
    K.out m0 f0 (execDivu l g d a b s) := by
  unfold execDivu
  repeat' (first | with_reducible assumption | with_reducible refine K.of_out ‹_› ?_ | with_reducible refine K.of_body ‹_› ?_ | with_reducible apply scalar2_kept | with_reducible apply K.out_next | with_reducible apply K.out_fault | with_reducible apply K.out_refused | with_reducible apply K.body_ok | with_reducible apply K.body_error | with_reducible intro _ | dsimp only | split)

theorem execRemu_kept {m0 : List Host.Cell} {f0 : Nat} (l : Bool) (g : BitVec 4) (d a b : BitVec 6) (s : State) (hs : K m0 f0 s.mem s.fuse) :
    K.out m0 f0 (execRemu l g d a b s) := by
  unfold execRemu
  repeat' (first | with_reducible assumption | with_reducible refine K.of_out ‹_› ?_ | with_reducible refine K.of_body ‹_› ?_ | with_reducible apply scalar2_kept | with_reducible apply K.out_next | with_reducible apply K.out_fault | with_reducible apply K.out_refused | with_reducible apply K.body_ok | with_reducible apply K.body_error | with_reducible intro _ | dsimp only | split)

theorem execMovi_kept {m0 : List Host.Cell} {f0 : Nat} (l : Bool) (g : BitVec 4) (d : BitVec 6) (imm : BitVec 12) (s : State) (hs : K m0 f0 s.mem s.fuse) :
    K.out m0 f0 (execMovi l g d imm s) := by
  unfold execMovi
  repeat' (first | with_reducible assumption | with_reducible refine K.of_out ‹_› ?_ | with_reducible refine K.of_body ‹_› ?_ | with_reducible apply slotStep_kept | with_reducible apply writeScalar_kept | with_reducible apply K.out_next | with_reducible apply K.out_fault | with_reducible apply K.out_refused | with_reducible apply K.body_ok | with_reducible apply K.body_error | with_reducible intro _ | dsimp only | split)

theorem execAddi_kept {m0 : List Host.Cell} {f0 : Nat} (l : Bool) (g : BitVec 4) (d : BitVec 6) (imm : BitVec 12) (s : State) (hs : K m0 f0 s.mem s.fuse) :
    K.out m0 f0 (execAddi l g d imm s) := by
  unfold execAddi
  repeat' (first | with_reducible assumption | with_reducible refine K.of_out ‹_› ?_ | with_reducible refine K.of_body ‹_› ?_ | with_reducible apply scalarImm_kept | with_reducible apply K.out_next | with_reducible apply K.out_fault | with_reducible apply K.out_refused | with_reducible apply K.body_ok | with_reducible apply K.body_error | with_reducible intro _ | dsimp only | split)

theorem execAndi_kept {m0 : List Host.Cell} {f0 : Nat} (l : Bool) (g : BitVec 4) (d : BitVec 6) (imm : BitVec 12) (s : State) (hs : K m0 f0 s.mem s.fuse) :
    K.out m0 f0 (execAndi l g d imm s) := by
  unfold execAndi
  repeat' (first | with_reducible assumption | with_reducible refine K.of_out ‹_› ?_ | with_reducible refine K.of_body ‹_› ?_ | with_reducible apply scalarImm_kept | with_reducible apply K.out_next | with_reducible apply K.out_fault | with_reducible apply K.out_refused | with_reducible apply K.body_ok | with_reducible apply K.body_error | with_reducible intro _ | dsimp only | split)

theorem execOri_kept {m0 : List Host.Cell} {f0 : Nat} (l : Bool) (g : BitVec 4) (d : BitVec 6) (imm : BitVec 12) (s : State) (hs : K m0 f0 s.mem s.fuse) :
    K.out m0 f0 (execOri l g d imm s) := by
  unfold execOri
  repeat' (first | with_reducible assumption | with_reducible refine K.of_out ‹_› ?_ | with_reducible refine K.of_body ‹_› ?_ | with_reducible apply scalarImm_kept | with_reducible apply K.out_next | with_reducible apply K.out_fault | with_reducible apply K.out_refused | with_reducible apply K.body_ok | with_reducible apply K.body_error | with_reducible intro _ | dsimp only | split)

theorem execXori_kept {m0 : List Host.Cell} {f0 : Nat} (l : Bool) (g : BitVec 4) (d : BitVec 6) (imm : BitVec 12) (s : State) (hs : K m0 f0 s.mem s.fuse) :
    K.out m0 f0 (execXori l g d imm s) := by
  unfold execXori
  repeat' (first | with_reducible assumption | with_reducible refine K.of_out ‹_› ?_ | with_reducible refine K.of_body ‹_› ?_ | with_reducible apply scalarImm_kept | with_reducible apply K.out_next | with_reducible apply K.out_fault | with_reducible apply K.out_refused | with_reducible apply K.body_ok | with_reducible apply K.body_error | with_reducible intro _ | dsimp only | split)

theorem execShli_kept {m0 : List Host.Cell} {f0 : Nat} (l : Bool) (g : BitVec 4) (d : BitVec 6) (imm : BitVec 12) (s : State) (hs : K m0 f0 s.mem s.fuse) :
    K.out m0 f0 (execShli l g d imm s) := by
  unfold execShli
  repeat' (first | with_reducible assumption | with_reducible refine K.of_out ‹_› ?_ | with_reducible refine K.of_body ‹_› ?_ | with_reducible apply scalarImm_kept | with_reducible apply K.out_next | with_reducible apply K.out_fault | with_reducible apply K.out_refused | with_reducible apply K.body_ok | with_reducible apply K.body_error | with_reducible intro _ | dsimp only | split)

theorem execShri_kept {m0 : List Host.Cell} {f0 : Nat} (l : Bool) (g : BitVec 4) (d : BitVec 6) (imm : BitVec 12) (s : State) (hs : K m0 f0 s.mem s.fuse) :
    K.out m0 f0 (execShri l g d imm s) := by
  unfold execShri
  repeat' (first | with_reducible assumption | with_reducible refine K.of_out ‹_› ?_ | with_reducible refine K.of_body ‹_› ?_ | with_reducible apply scalarImm_kept | with_reducible apply K.out_next | with_reducible apply K.out_fault | with_reducible apply K.out_refused | with_reducible apply K.body_ok | with_reducible apply K.body_error | with_reducible intro _ | dsimp only | split)

theorem execSrai_kept {m0 : List Host.Cell} {f0 : Nat} (l : Bool) (g : BitVec 4) (d : BitVec 6) (imm : BitVec 12) (s : State) (hs : K m0 f0 s.mem s.fuse) :
    K.out m0 f0 (execSrai l g d imm s) := by
  unfold execSrai
  repeat' (first | with_reducible assumption | with_reducible refine K.of_out ‹_› ?_ | with_reducible refine K.of_body ‹_› ?_ | with_reducible apply scalarImm_kept | with_reducible apply K.out_next | with_reducible apply K.out_fault | with_reducible apply K.out_refused | with_reducible apply K.body_ok | with_reducible apply K.body_error | with_reducible intro _ | dsimp only | split)

theorem execMovh_kept {m0 : List Host.Cell} {f0 : Nat} (l : Bool) (g : BitVec 4) (d : BitVec 6) (imm : BitVec 12) (s : State) (hs : K m0 f0 s.mem s.fuse) :
    K.out m0 f0 (execMovh l g d imm s) := by
  unfold execMovh
  repeat' (first | with_reducible assumption | with_reducible refine K.of_out ‹_› ?_ | with_reducible refine K.of_body ‹_› ?_ | with_reducible apply scalarImm_kept | with_reducible apply K.out_next | with_reducible apply K.out_fault | with_reducible apply K.out_refused | with_reducible apply K.body_ok | with_reducible apply K.body_error | with_reducible intro _ | dsimp only | split)

theorem execLidx_kept {m0 : List Host.Cell} {f0 : Nat} (l : Bool) (g : BitVec 4) (d : BitVec 6) (lvl : BitVec 12) (s : State) (hs : K m0 f0 s.mem s.fuse) :
    K.out m0 f0 (execLidx l g d lvl s) := by
  unfold execLidx
  repeat' (first | with_reducible assumption | with_reducible refine K.of_out ‹_› ?_ | with_reducible refine K.of_body ‹_› ?_ | with_reducible apply slotStep_kept | with_reducible apply writeScalar_kept | with_reducible apply K.out_next | with_reducible apply K.out_fault | with_reducible apply K.out_refused | with_reducible apply K.body_ok | with_reducible apply K.body_error | with_reducible intro _ | dsimp only | split)

theorem execCtlrd_kept {m0 : List Host.Cell} {f0 : Nat} (l : Bool) (g : BitVec 4) (d : BitVec 6) (ctl : BitVec 12) (s : State) (hs : K m0 f0 s.mem s.fuse) :
    K.out m0 f0 (execCtlrd l g d ctl s) := by
  unfold execCtlrd
  repeat' (first | with_reducible assumption | with_reducible refine K.of_out ‹_› ?_ | with_reducible refine K.of_body ‹_› ?_ | with_reducible apply slotStep_kept | with_reducible apply writeScalar_kept | with_reducible apply K.out_next | with_reducible apply K.out_fault | with_reducible apply K.out_refused | with_reducible apply K.body_ok | with_reducible apply K.body_error | with_reducible intro _ | dsimp only | split)

theorem execCtlwr_kept {m0 : List Host.Cell} {f0 : Nat} (l : Bool) (g : BitVec 4) (src' : BitVec 6) (ctl : BitVec 12) (s : State) (hs : K m0 f0 s.mem s.fuse) :
    K.out m0 f0 (execCtlwr l g src' ctl s) := by
  unfold execCtlwr
  repeat' (first | with_reducible assumption | with_reducible refine K.of_out ‹_› ?_ | with_reducible refine K.of_body ‹_› ?_ | with_reducible apply slotStep_kept | with_reducible apply atEnd_kept | with_reducible apply K.out_next | with_reducible apply K.out_fault | with_reducible apply K.out_refused | with_reducible apply K.body_ok | with_reducible apply K.body_error | with_reducible intro _ | dsimp only | split)

theorem execGtlo_kept {m0 : List Host.Cell} {f0 : Nat} (l : Bool) (g : BitVec 4) (d : BitVec 6) (s : State) (hs : K m0 f0 s.mem s.fuse) :
    K.out m0 f0 (execGtlo l g d s) := by
  unfold execGtlo
  repeat' (first | with_reducible assumption | with_reducible refine K.of_out ‹_› ?_ | with_reducible refine K.of_body ‹_› ?_ | with_reducible apply slotStep_kept | with_reducible apply setMe_kept | with_reducible apply writeScalar_kept | with_reducible apply K.out_next | with_reducible apply K.out_fault | with_reducible apply K.out_refused | with_reducible apply K.body_ok | with_reducible apply K.body_error | with_reducible intro _ | dsimp only | split)

theorem execGthi_kept {m0 : List Host.Cell} {f0 : Nat} (l : Bool) (g : BitVec 4) (d : BitVec 6) (s : State) (hs : K m0 f0 s.mem s.fuse) :
    K.out m0 f0 (execGthi l g d s) := by
  unfold execGthi
  repeat' (first | with_reducible assumption | with_reducible refine K.of_out ‹_› ?_ | with_reducible refine K.of_body ‹_› ?_ | with_reducible apply slotStep_kept | with_reducible apply writeScalar_kept | with_reducible apply K.out_next | with_reducible apply K.out_fault | with_reducible apply K.out_refused | with_reducible apply K.body_ok | with_reducible apply K.body_error | with_reducible intro _ | dsimp only | split)

theorem execCmp_kept {m0 : List Host.Cell} {f0 : Nat} (l : Bool) (g : BitVec 4) (pd cc : BitVec 3) (a b : BitVec 6) (s : State) (hs : K m0 f0 s.mem s.fuse) :
    K.out m0 f0 (execCmp l g pd cc a b s) := by
  unfold execCmp
  repeat' (first | with_reducible assumption | with_reducible refine K.of_out ‹_› ?_ | with_reducible refine K.of_body ‹_› ?_ | with_reducible apply slotStep_kept | with_reducible apply writePred_kept | with_reducible apply K.out_next | with_reducible apply K.out_fault | with_reducible apply K.out_refused | with_reducible apply K.body_ok | with_reducible apply K.body_error | with_reducible intro _ | dsimp only | split)

theorem execCmpi_kept {m0 : List Host.Cell} {f0 : Nat} (l : Bool) (g : BitVec 4) (pd cc : BitVec 3) (a : BitVec 6) (imm : BitVec 8) (s : State) (hs : K m0 f0 s.mem s.fuse) :
    K.out m0 f0 (execCmpi l g pd cc a imm s) := by
  unfold execCmpi
  repeat' (first | with_reducible assumption | with_reducible refine K.of_out ‹_› ?_ | with_reducible refine K.of_body ‹_› ?_ | with_reducible apply slotStep_kept | with_reducible apply writePred_kept | with_reducible apply K.out_next | with_reducible apply K.out_fault | with_reducible apply K.out_refused | with_reducible apply K.body_ok | with_reducible apply K.body_error | with_reducible intro _ | dsimp only | split)

theorem execSld_kept {m0 : List Host.Cell} {f0 : Nat} (l : Bool) (g : BitVec 4) (d a : BitVec 6) (off : BitVec 8) (s : State) (hs : K m0 f0 s.mem s.fuse) :
    K.out m0 f0 (execSld l g d a off s) := by
  unfold execSld
  repeat' (first | with_reducible assumption | with_reducible refine K.of_out ‹_› ?_ | with_reducible refine K.of_body ‹_› ?_ | with_reducible apply slotStep_kept | with_reducible apply writeScalar_kept | with_reducible apply K.out_next | with_reducible apply K.out_fault | with_reducible apply K.out_refused | with_reducible apply K.body_ok | with_reducible apply K.body_error | with_reducible intro _ | dsimp only | split)

theorem execSst_kept {m0 : List Host.Cell} {f0 : Nat} (l : Bool) (g : BitVec 4) (src' a : BitVec 6) (off : BitVec 8) (s : State) (hs : K m0 f0 s.mem s.fuse) :
    K.out m0 f0 (execSst l g src' a off s) := by
  unfold execSst
  repeat' (first | with_reducible assumption | with_reducible refine K.of_out ‹_› ?_ | with_reducible refine K.of_body ‹_› ?_ | with_reducible apply slotStep_kept | with_reducible apply atEnd_kept | with_reducible apply K.out_next | with_reducible apply K.out_fault | with_reducible apply K.out_refused | with_reducible apply K.body_ok | with_reducible apply K.body_error | with_reducible intro _ | dsimp only | split)

theorem execQmap_kept {m0 : List Host.Cell} {f0 : Nat} (l : Bool) (g : BitVec 4) (reg : Bool) (a : BitVec 6) (s : State) (hs : K m0 f0 s.mem s.fuse) :
    K.out m0 f0 (execQmap l g reg a s) := by
  unfold execQmap
  repeat' (first | with_reducible assumption | with_reducible refine K.of_out ‹_› ?_ | with_reducible refine K.of_body ‹_› ?_ | with_reducible apply slotStep_kept | with_reducible apply atEnd_kept | with_reducible apply K.out_next | with_reducible apply K.out_fault | with_reducible apply K.out_refused | with_reducible apply K.body_ok | with_reducible apply K.body_error | with_reducible intro _ | dsimp only | split)

theorem execQunmap_kept {m0 : List Host.Cell} {f0 : Nat} (l : Bool) (g : BitVec 4) (reg : Bool) (s : State) (hs : K m0 f0 s.mem s.fuse) :
    K.out m0 f0 (execQunmap l g reg s) := by
  unfold execQunmap
  repeat' (first | with_reducible assumption | with_reducible refine K.of_out ‹_› ?_ | with_reducible refine K.of_body ‹_› ?_ | with_reducible apply slotStep_kept | with_reducible apply atEnd_kept | with_reducible apply K.out_next | with_reducible apply K.out_fault | with_reducible apply K.out_refused | with_reducible apply K.body_ok | with_reducible apply K.body_error | with_reducible intro _ | dsimp only | split)

end Sys2Proof.Machine
end

