-- ==== Sys2Proof/Laws/KeptVector.lean ====
section
/-! SUPPORT. Sys2Proof/Laws/KeptVector.lean: the operations of Machine/Vector.lean keep memory canonical and never lower the fuses. -/

namespace Sys2Proof.Machine

theorem rowOp_kept {m0 : List Host.Cell} {f0 : Nat} (i : Instr) (l : Bool) (td ta tb rs : BitVec 4) (k : Nat) (f : State → (old a b : Row) → (ra : Nat) → Row × Flags) (s : State) (hs : K m0 f0 s.mem s.fuse) :
    K.out m0 f0 (rowOp i l td ta tb rs k f s) := by
  unfold rowOp
  repeat' (first | with_reducible assumption | with_reducible refine K.of_out ‹_› ?_ | with_reducible apply slotStep_kept | with_reducible apply writeRow_kept | with_reducible apply K.out_next | with_reducible apply K.out_fault | with_reducible apply K.out_refused | with_reducible apply K.body_ok | with_reducible apply K.body_error | with_reducible intro _ | dsimp only | split)

theorem execVadd_kept {m0 : List Host.Cell} {f0 : Nat} (l : Bool) (g fmt td ta tb rs : BitVec 4) (s : State) (hs : K m0 f0 s.mem s.fuse) :
    K.out m0 f0 (execVadd l g fmt td ta tb rs s) := by
  unfold execVadd
  repeat' (first | with_reducible assumption | with_reducible refine K.of_out ‹_› ?_ | with_reducible refine K.of_body ‹_› ?_ | with_reducible apply rowOp_kept | with_reducible apply K.out_next | with_reducible apply K.out_fault | with_reducible apply K.out_refused | with_reducible apply K.body_ok | with_reducible apply K.body_error | with_reducible intro _ | dsimp only | split)

theorem execVsub_kept {m0 : List Host.Cell} {f0 : Nat} (l : Bool) (g fmt td ta tb rs : BitVec 4) (s : State) (hs : K m0 f0 s.mem s.fuse) :
    K.out m0 f0 (execVsub l g fmt td ta tb rs s) := by
  unfold execVsub
  repeat' (first | with_reducible assumption | with_reducible refine K.of_out ‹_› ?_ | with_reducible refine K.of_body ‹_› ?_ | with_reducible apply rowOp_kept | with_reducible apply K.out_next | with_reducible apply K.out_fault | with_reducible apply K.out_refused | with_reducible apply K.body_ok | with_reducible apply K.body_error | with_reducible intro _ | dsimp only | split)

theorem execVmul_kept {m0 : List Host.Cell} {f0 : Nat} (l : Bool) (g fmt td ta tb rs : BitVec 4) (s : State) (hs : K m0 f0 s.mem s.fuse) :
    K.out m0 f0 (execVmul l g fmt td ta tb rs s) := by
  unfold execVmul
  repeat' (first | with_reducible assumption | with_reducible refine K.of_out ‹_› ?_ | with_reducible refine K.of_body ‹_› ?_ | with_reducible apply rowOp_kept | with_reducible apply K.out_next | with_reducible apply K.out_fault | with_reducible apply K.out_refused | with_reducible apply K.body_ok | with_reducible apply K.body_error | with_reducible intro _ | dsimp only | split)

theorem execVfma_kept {m0 : List Host.Cell} {f0 : Nat} (l : Bool) (g fmt td ta tb rs : BitVec 4) (s : State) (hs : K m0 f0 s.mem s.fuse) :
    K.out m0 f0 (execVfma l g fmt td ta tb rs s) := by
  unfold execVfma
  repeat' (first | with_reducible assumption | with_reducible refine K.of_out ‹_› ?_ | with_reducible refine K.of_body ‹_› ?_ | with_reducible apply rowOp_kept | with_reducible apply K.out_next | with_reducible apply K.out_fault | with_reducible apply K.out_refused | with_reducible apply K.body_ok | with_reducible apply K.body_error | with_reducible intro _ | dsimp only | split)

theorem execVmin_kept {m0 : List Host.Cell} {f0 : Nat} (l : Bool) (g fmt td ta tb rs : BitVec 4) (s : State) (hs : K m0 f0 s.mem s.fuse) :
    K.out m0 f0 (execVmin l g fmt td ta tb rs s) := by
  unfold execVmin
  repeat' (first | with_reducible assumption | with_reducible refine K.of_out ‹_› ?_ | with_reducible refine K.of_body ‹_› ?_ | with_reducible apply rowOp_kept | with_reducible apply K.out_next | with_reducible apply K.out_fault | with_reducible apply K.out_refused | with_reducible apply K.body_ok | with_reducible apply K.body_error | with_reducible intro _ | dsimp only | split)

theorem execVmax_kept {m0 : List Host.Cell} {f0 : Nat} (l : Bool) (g fmt td ta tb rs : BitVec 4) (s : State) (hs : K m0 f0 s.mem s.fuse) :
    K.out m0 f0 (execVmax l g fmt td ta tb rs s) := by
  unfold execVmax
  repeat' (first | with_reducible assumption | with_reducible refine K.of_out ‹_› ?_ | with_reducible refine K.of_body ‹_› ?_ | with_reducible apply rowOp_kept | with_reducible apply K.out_next | with_reducible apply K.out_fault | with_reducible apply K.out_refused | with_reducible apply K.body_ok | with_reducible apply K.body_error | with_reducible intro _ | dsimp only | split)

theorem execVabs_kept {m0 : List Host.Cell} {f0 : Nat} (l : Bool) (g fmt td ta rs : BitVec 4) (s : State) (hs : K m0 f0 s.mem s.fuse) :
    K.out m0 f0 (execVabs l g fmt td ta rs s) := by
  unfold execVabs
  repeat' (first | with_reducible assumption | with_reducible refine K.of_out ‹_› ?_ | with_reducible refine K.of_body ‹_› ?_ | with_reducible apply rowOp_kept | with_reducible apply K.out_next | with_reducible apply K.out_fault | with_reducible apply K.out_refused | with_reducible apply K.body_ok | with_reducible apply K.body_error | with_reducible intro _ | dsimp only | split)

theorem execVneg_kept {m0 : List Host.Cell} {f0 : Nat} (l : Bool) (g fmt td ta rs : BitVec 4) (s : State) (hs : K m0 f0 s.mem s.fuse) :
    K.out m0 f0 (execVneg l g fmt td ta rs s) := by
  unfold execVneg
  repeat' (first | with_reducible assumption | with_reducible refine K.of_out ‹_› ?_ | with_reducible refine K.of_body ‹_› ?_ | with_reducible apply rowOp_kept | with_reducible apply K.out_next | with_reducible apply K.out_fault | with_reducible apply K.out_refused | with_reducible apply K.body_ok | with_reducible apply K.body_error | with_reducible intro _ | dsimp only | split)

theorem execVmov_kept {m0 : List Host.Cell} {f0 : Nat} (l : Bool) (g fmt td ta rs : BitVec 4) (s : State) (hs : K m0 f0 s.mem s.fuse) :
    K.out m0 f0 (execVmov l g fmt td ta rs s) := by
  unfold execVmov
  repeat' (first | with_reducible assumption | with_reducible refine K.of_out ‹_› ?_ | with_reducible refine K.of_body ‹_› ?_ | with_reducible apply rowOp_kept | with_reducible apply K.out_next | with_reducible apply K.out_fault | with_reducible apply K.out_refused | with_reducible apply K.body_ok | with_reducible apply K.body_error | with_reducible intro _ | dsimp only | split)

theorem execVand_kept {m0 : List Host.Cell} {f0 : Nat} (l : Bool) (g fmt td ta tb rs : BitVec 4) (s : State) (hs : K m0 f0 s.mem s.fuse) :
    K.out m0 f0 (execVand l g fmt td ta tb rs s) := by
  unfold execVand
  repeat' (first | with_reducible assumption | with_reducible refine K.of_out ‹_› ?_ | with_reducible refine K.of_body ‹_› ?_ | with_reducible apply rowOp_kept | with_reducible apply K.out_next | with_reducible apply K.out_fault | with_reducible apply K.out_refused | with_reducible apply K.body_ok | with_reducible apply K.body_error | with_reducible intro _ | dsimp only | split)

theorem execVor_kept {m0 : List Host.Cell} {f0 : Nat} (l : Bool) (g fmt td ta tb rs : BitVec 4) (s : State) (hs : K m0 f0 s.mem s.fuse) :
    K.out m0 f0 (execVor l g fmt td ta tb rs s) := by
  unfold execVor
  repeat' (first | with_reducible assumption | with_reducible refine K.of_out ‹_› ?_ | with_reducible refine K.of_body ‹_› ?_ | with_reducible apply rowOp_kept | with_reducible apply K.out_next | with_reducible apply K.out_fault | with_reducible apply K.out_refused | with_reducible apply K.body_ok | with_reducible apply K.body_error | with_reducible intro _ | dsimp only | split)

theorem execVxor_kept {m0 : List Host.Cell} {f0 : Nat} (l : Bool) (g fmt td ta tb rs : BitVec 4) (s : State) (hs : K m0 f0 s.mem s.fuse) :
    K.out m0 f0 (execVxor l g fmt td ta tb rs s) := by
  unfold execVxor
  repeat' (first | with_reducible assumption | with_reducible refine K.of_out ‹_› ?_ | with_reducible refine K.of_body ‹_› ?_ | with_reducible apply rowOp_kept | with_reducible apply K.out_next | with_reducible apply K.out_fault | with_reducible apply K.out_refused | with_reducible apply K.body_ok | with_reducible apply K.body_error | with_reducible intro _ | dsimp only | split)

theorem execVshl_kept {m0 : List Host.Cell} {f0 : Nat} (l : Bool) (g fmt td ta tb rs : BitVec 4) (s : State) (hs : K m0 f0 s.mem s.fuse) :
    K.out m0 f0 (execVshl l g fmt td ta tb rs s) := by
  unfold execVshl
  repeat' (first | with_reducible assumption | with_reducible refine K.of_out ‹_› ?_ | with_reducible refine K.of_body ‹_› ?_ | with_reducible apply rowOp_kept | with_reducible apply K.out_next | with_reducible apply K.out_fault | with_reducible apply K.out_refused | with_reducible apply K.body_ok | with_reducible apply K.body_error | with_reducible intro _ | dsimp only | split)

theorem execVshr_kept {m0 : List Host.Cell} {f0 : Nat} (l : Bool) (g fmt td ta tb rs : BitVec 4) (s : State) (hs : K m0 f0 s.mem s.fuse) :
    K.out m0 f0 (execVshr l g fmt td ta tb rs s) := by
  unfold execVshr
  repeat' (first | with_reducible assumption | with_reducible refine K.of_out ‹_› ?_ | with_reducible refine K.of_body ‹_› ?_ | with_reducible apply rowOp_kept | with_reducible apply K.out_next | with_reducible apply K.out_fault | with_reducible apply K.out_refused | with_reducible apply K.body_ok | with_reducible apply K.body_error | with_reducible intro _ | dsimp only | split)

theorem execVsra_kept {m0 : List Host.Cell} {f0 : Nat} (l : Bool) (g fmt td ta tb rs : BitVec 4) (s : State) (hs : K m0 f0 s.mem s.fuse) :
    K.out m0 f0 (execVsra l g fmt td ta tb rs s) := by
  unfold execVsra
  repeat' (first | with_reducible assumption | with_reducible refine K.of_out ‹_› ?_ | with_reducible refine K.of_body ‹_› ?_ | with_reducible apply rowOp_kept | with_reducible apply K.out_next | with_reducible apply K.out_fault | with_reducible apply K.out_refused | with_reducible apply K.body_ok | with_reducible apply K.body_error | with_reducible intro _ | dsimp only | split)

theorem execVcmpeq_kept {m0 : List Host.Cell} {f0 : Nat} (l : Bool) (g fmt td ta tb rs : BitVec 4) (s : State) (hs : K m0 f0 s.mem s.fuse) :
    K.out m0 f0 (execVcmpeq l g fmt td ta tb rs s) := by
  unfold execVcmpeq
  repeat' (first | with_reducible assumption | with_reducible refine K.of_out ‹_› ?_ | with_reducible refine K.of_body ‹_› ?_ | with_reducible apply rowOp_kept | with_reducible apply K.out_next | with_reducible apply K.out_fault | with_reducible apply K.out_refused | with_reducible apply K.body_ok | with_reducible apply K.body_error | with_reducible intro _ | dsimp only | split)

theorem execVcmplt_kept {m0 : List Host.Cell} {f0 : Nat} (l : Bool) (g fmt td ta tb rs : BitVec 4) (s : State) (hs : K m0 f0 s.mem s.fuse) :
    K.out m0 f0 (execVcmplt l g fmt td ta tb rs s) := by
  unfold execVcmplt
  repeat' (first | with_reducible assumption | with_reducible refine K.of_out ‹_› ?_ | with_reducible refine K.of_body ‹_› ?_ | with_reducible apply rowOp_kept | with_reducible apply K.out_next | with_reducible apply K.out_fault | with_reducible apply K.out_refused | with_reducible apply K.body_ok | with_reducible apply K.body_error | with_reducible intro _ | dsimp only | split)

theorem execVcmple_kept {m0 : List Host.Cell} {f0 : Nat} (l : Bool) (g fmt td ta tb rs : BitVec 4) (s : State) (hs : K m0 f0 s.mem s.fuse) :
    K.out m0 f0 (execVcmple l g fmt td ta tb rs s) := by
  unfold execVcmple
  repeat' (first | with_reducible assumption | with_reducible refine K.of_out ‹_› ?_ | with_reducible refine K.of_body ‹_› ?_ | with_reducible apply rowOp_kept | with_reducible apply K.out_next | with_reducible apply K.out_fault | with_reducible apply K.out_refused | with_reducible apply K.body_ok | with_reducible apply K.body_error | with_reducible intro _ | dsimp only | split)

theorem execVsel_kept {m0 : List Host.Cell} {f0 : Nat} (l : Bool) (g fmt td ta tb rs : BitVec 4) (s : State) (hs : K m0 f0 s.mem s.fuse) :
    K.out m0 f0 (execVsel l g fmt td ta tb rs s) := by
  unfold execVsel
  repeat' (first | with_reducible assumption | with_reducible refine K.of_out ‹_› ?_ | with_reducible refine K.of_body ‹_› ?_ | with_reducible apply rowOp_kept | with_reducible apply K.out_next | with_reducible apply K.out_fault | with_reducible apply K.out_refused | with_reducible apply K.body_ok | with_reducible apply K.body_error | with_reducible intro _ | dsimp only | split)

theorem execVcvt_kept {m0 : List Host.Cell} {f0 : Nat} (l : Bool) (g fmt td ta fsrc rs : BitVec 4) (s : State) (hs : K m0 f0 s.mem s.fuse) :
    K.out m0 f0 (execVcvt l g fmt td ta fsrc rs s) := by
  unfold execVcvt
  repeat' (first | with_reducible assumption | with_reducible refine K.of_out ‹_› ?_ | with_reducible refine K.of_body ‹_› ?_ | with_reducible apply rowOp_kept | with_reducible apply K.out_next | with_reducible apply K.out_fault | with_reducible apply K.out_refused | with_reducible apply K.body_ok | with_reducible apply K.body_error | with_reducible intro _ | dsimp only | split)

theorem execVscl_kept {m0 : List Host.Cell} {f0 : Nat} (l : Bool) (g fmt td ta : BitVec 4) (q : BitVec 3) (rs : BitVec 4) (s : State) (hs : K m0 f0 s.mem s.fuse) :
    K.out m0 f0 (execVscl l g fmt td ta q rs s) := by
  unfold execVscl
  repeat' (first | with_reducible assumption | with_reducible refine K.of_out ‹_› ?_ | with_reducible refine K.of_body ‹_› ?_ | with_reducible apply rowOp_kept | with_reducible apply K.out_next | with_reducible apply K.out_fault | with_reducible apply K.out_refused | with_reducible apply K.body_ok | with_reducible apply K.body_error | with_reducible intro _ | dsimp only | split)

theorem execVclmp_kept {m0 : List Host.Cell} {f0 : Nat} (l : Bool) (g fmt td ta v rs : BitVec 4) (s : State) (hs : K m0 f0 s.mem s.fuse) :
    K.out m0 f0 (execVclmp l g fmt td ta v rs s) := by
  unfold execVclmp
  repeat' (first | with_reducible assumption | with_reducible refine K.of_out ‹_› ?_ | with_reducible refine K.of_body ‹_› ?_ | with_reducible apply rowOp_kept | with_reducible apply K.out_next | with_reducible apply K.out_fault | with_reducible apply K.out_refused | with_reducible apply K.body_ok | with_reducible apply K.body_error | with_reducible intro _ | dsimp only | split)

theorem execVexp2_kept {m0 : List Host.Cell} {f0 : Nat} (l : Bool) (g fmt td ta rs : BitVec 4) (s : State) (hs : K m0 f0 s.mem s.fuse) :
    K.out m0 f0 (execVexp2 l g fmt td ta rs s) := by
  unfold execVexp2
  repeat' (first | with_reducible assumption | with_reducible refine K.of_out ‹_› ?_ | with_reducible refine K.of_body ‹_› ?_ | with_reducible apply rowOp_kept | with_reducible apply K.out_next | with_reducible apply K.out_fault | with_reducible apply K.out_refused | with_reducible apply K.body_ok | with_reducible apply K.body_error | with_reducible intro _ | dsimp only | split)

theorem execVrcp_kept {m0 : List Host.Cell} {f0 : Nat} (l : Bool) (g fmt td ta rs : BitVec 4) (s : State) (hs : K m0 f0 s.mem s.fuse) :
    K.out m0 f0 (execVrcp l g fmt td ta rs s) := by
  unfold execVrcp
  repeat' (first | with_reducible assumption | with_reducible refine K.of_out ‹_› ?_ | with_reducible refine K.of_body ‹_› ?_ | with_reducible apply rowOp_kept | with_reducible apply K.out_next | with_reducible apply K.out_fault | with_reducible apply K.out_refused | with_reducible apply K.body_ok | with_reducible apply K.body_error | with_reducible intro _ | dsimp only | split)

theorem execVrsq_kept {m0 : List Host.Cell} {f0 : Nat} (l : Bool) (g fmt td ta rs : BitVec 4) (s : State) (hs : K m0 f0 s.mem s.fuse) :
    K.out m0 f0 (execVrsq l g fmt td ta rs s) := by
  unfold execVrsq
  repeat' (first | with_reducible assumption | with_reducible refine K.of_out ‹_› ?_ | with_reducible refine K.of_body ‹_› ?_ | with_reducible apply rowOp_kept | with_reducible apply K.out_next | with_reducible apply K.out_fault | with_reducible apply K.out_refused | with_reducible apply K.body_ok | with_reducible apply K.body_error | with_reducible intro _ | dsimp only | split)

theorem execVrsum_kept {m0 : List Host.Cell} {f0 : Nat} (l : Bool) (g fmt td ta rs : BitVec 4) (s : State) (hs : K m0 f0 s.mem s.fuse) :
    K.out m0 f0 (execVrsum l g fmt td ta rs s) := by
  unfold execVrsum
  repeat' (first | with_reducible assumption | with_reducible refine K.of_out ‹_› ?_ | with_reducible refine K.of_body ‹_› ?_ | with_reducible apply rowOp_kept | with_reducible apply K.out_next | with_reducible apply K.out_fault | with_reducible apply K.out_refused | with_reducible apply K.body_ok | with_reducible apply K.body_error | with_reducible intro _ | dsimp only | split)

theorem execVrmax_kept {m0 : List Host.Cell} {f0 : Nat} (l : Bool) (g fmt td ta rs : BitVec 4) (s : State) (hs : K m0 f0 s.mem s.fuse) :
    K.out m0 f0 (execVrmax l g fmt td ta rs s) := by
  unfold execVrmax
  repeat' (first | with_reducible assumption | with_reducible refine K.of_out ‹_› ?_ | with_reducible refine K.of_body ‹_› ?_ | with_reducible apply rowOp_kept | with_reducible apply K.out_next | with_reducible apply K.out_fault | with_reducible apply K.out_refused | with_reducible apply K.body_ok | with_reducible apply K.body_error | with_reducible intro _ | dsimp only | split)

theorem execVrmin_kept {m0 : List Host.Cell} {f0 : Nat} (l : Bool) (g fmt td ta rs : BitVec 4) (s : State) (hs : K m0 f0 s.mem s.fuse) :
    K.out m0 f0 (execVrmin l g fmt td ta rs s) := by
  unfold execVrmin
  repeat' (first | with_reducible assumption | with_reducible refine K.of_out ‹_› ?_ | with_reducible refine K.of_body ‹_› ?_ | with_reducible apply rowOp_kept | with_reducible apply K.out_next | with_reducible apply K.out_fault | with_reducible apply K.out_refused | with_reducible apply K.body_ok | with_reducible apply K.body_error | with_reducible intro _ | dsimp only | split)

theorem execVbcs_kept {m0 : List Host.Cell} {f0 : Nat} (l : Bool) (g fmt td sn rs : BitVec 4) (s : State) (hs : K m0 f0 s.mem s.fuse) :
    K.out m0 f0 (execVbcs l g fmt td sn rs s) := by
  unfold execVbcs
  repeat' (first | with_reducible assumption | with_reducible refine K.of_out ‹_› ?_ | with_reducible refine K.of_body ‹_› ?_ | with_reducible apply rowOp_kept | with_reducible apply K.out_next | with_reducible apply K.out_fault | with_reducible apply K.out_refused | with_reducible apply K.body_ok | with_reducible apply K.body_error | with_reducible intro _ | dsimp only | split)

theorem execVext_kept {m0 : List Host.Cell} {f0 : Nat} (l : Bool) (g fmt sd ta sn rs : BitVec 4) (s : State) (hs : K m0 f0 s.mem s.fuse) :
    K.out m0 f0 (execVext l g fmt sd ta sn rs s) := by
  unfold execVext
  repeat' (first | with_reducible assumption | with_reducible refine K.of_out ‹_› ?_ | with_reducible refine K.of_body ‹_› ?_ | with_reducible apply slotStep_kept | with_reducible apply writeScalar_kept | with_reducible apply K.out_next | with_reducible apply K.out_fault | with_reducible apply K.out_refused | with_reducible apply K.body_ok | with_reducible apply K.body_error | with_reducible intro _ | dsimp only | split)

theorem execVins_kept {m0 : List Host.Cell} {f0 : Nat} (l : Bool) (g fmt td sv sn rs : BitVec 4) (s : State) (hs : K m0 f0 s.mem s.fuse) :
    K.out m0 f0 (execVins l g fmt td sv sn rs s) := by
  unfold execVins
  repeat' (first | with_reducible assumption | with_reducible refine K.of_out ‹_› ?_ | with_reducible refine K.of_body ‹_› ?_ | with_reducible apply rowOp_kept | with_reducible apply K.out_next | with_reducible apply K.out_fault | with_reducible apply K.out_refused | with_reducible apply K.body_ok | with_reducible apply K.body_error | with_reducible intro _ | dsimp only | split)

theorem execVperm_kept {m0 : List Host.Cell} {f0 : Nat} (l : Bool) (g fmt td ta tb rs : BitVec 4) (s : State) (hs : K m0 f0 s.mem s.fuse) :
    K.out m0 f0 (execVperm l g fmt td ta tb rs s) := by
  unfold execVperm
  repeat' (first | with_reducible assumption | with_reducible refine K.of_out ‹_› ?_ | with_reducible refine K.of_body ‹_› ?_ | with_reducible apply rowOp_kept | with_reducible apply K.out_next | with_reducible apply K.out_fault | with_reducible apply K.out_refused | with_reducible apply K.body_ok | with_reducible apply K.body_error | with_reducible intro _ | dsimp only | split)

theorem execVlsh_kept {m0 : List Host.Cell} {f0 : Nat} (l : Bool) (g fmt td ta sn rs : BitVec 4) (s : State) (hs : K m0 f0 s.mem s.fuse) :
    K.out m0 f0 (execVlsh l g fmt td ta sn rs s) := by
  unfold execVlsh
  repeat' (first | with_reducible assumption | with_reducible refine K.of_out ‹_› ?_ | with_reducible refine K.of_body ‹_› ?_ | with_reducible apply rowOp_kept | with_reducible apply K.out_next | with_reducible apply K.out_fault | with_reducible apply K.out_refused | with_reducible apply K.body_ok | with_reducible apply K.body_error | with_reducible intro _ | dsimp only | split)

theorem execVpack_kept {m0 : List Host.Cell} {f0 : Nat} (l : Bool) (g fmt td ta tb rs : BitVec 4) (s : State) (hs : K m0 f0 s.mem s.fuse) :
    K.out m0 f0 (execVpack l g fmt td ta tb rs s) := by
  unfold execVpack
  repeat' (first | with_reducible assumption | with_reducible refine K.of_out ‹_› ?_ | with_reducible refine K.of_body ‹_› ?_ | with_reducible apply rowOp_kept | with_reducible apply K.out_next | with_reducible apply K.out_fault | with_reducible apply K.out_refused | with_reducible apply K.body_ok | with_reducible apply K.body_error | with_reducible intro _ | dsimp only | split)

theorem execVunpk_kept {m0 : List Host.Cell} {f0 : Nat} (l : Bool) (g fmt td ta : BitVec 4) (half : Bool) (rs : BitVec 4) (s : State) (hs : K m0 f0 s.mem s.fuse) :
    K.out m0 f0 (execVunpk l g fmt td ta half rs s) := by
  unfold execVunpk
  repeat' (first | with_reducible assumption | with_reducible refine K.of_out ‹_› ?_ | with_reducible refine K.of_body ‹_› ?_ | with_reducible apply rowOp_kept | with_reducible apply K.out_next | with_reducible apply K.out_fault | with_reducible apply K.out_refused | with_reducible apply K.body_ok | with_reducible apply K.body_error | with_reducible intro _ | dsimp only | split)

theorem execVadds_kept {m0 : List Host.Cell} {f0 : Nat} (l : Bool) (g fmt td ta sn rs : BitVec 4) (s : State) (hs : K m0 f0 s.mem s.fuse) :
    K.out m0 f0 (execVadds l g fmt td ta sn rs s) := by
  unfold execVadds
  repeat' (first | with_reducible assumption | with_reducible refine K.of_out ‹_› ?_ | with_reducible refine K.of_body ‹_› ?_ | with_reducible apply rowOp_kept | with_reducible apply K.out_next | with_reducible apply K.out_fault | with_reducible apply K.out_refused | with_reducible apply K.body_ok | with_reducible apply K.body_error | with_reducible intro _ | dsimp only | split)

theorem execVmuls_kept {m0 : List Host.Cell} {f0 : Nat} (l : Bool) (g fmt td ta sn rs : BitVec 4) (s : State) (hs : K m0 f0 s.mem s.fuse) :
    K.out m0 f0 (execVmuls l g fmt td ta sn rs s) := by
  unfold execVmuls
  repeat' (first | with_reducible assumption | with_reducible refine K.of_out ‹_› ?_ | with_reducible refine K.of_body ‹_› ?_ | with_reducible apply rowOp_kept | with_reducible apply K.out_next | with_reducible apply K.out_fault | with_reducible apply K.out_refused | with_reducible apply K.body_ok | with_reducible apply K.body_error | with_reducible intro _ | dsimp only | split)

theorem execVfmas_kept {m0 : List Host.Cell} {f0 : Nat} (l : Bool) (g fmt td ta sn rs : BitVec 4) (s : State) (hs : K m0 f0 s.mem s.fuse) :
    K.out m0 f0 (execVfmas l g fmt td ta sn rs s) := by
  unfold execVfmas
  repeat' (first | with_reducible assumption | with_reducible refine K.of_out ‹_› ?_ | with_reducible refine K.of_body ‹_› ?_ | with_reducible apply rowOp_kept | with_reducible apply K.out_next | with_reducible apply K.out_fault | with_reducible apply K.out_refused | with_reducible apply K.body_ok | with_reducible apply K.body_error | with_reducible intro _ | dsimp only | split)

end Sys2Proof.Machine
end

