-- ==== Sys2Proof/Laws/KeptControl.lean ====
section
/-! SUPPORT. Sys2Proof/Laws/KeptControl.lean: the operations of Machine/Control.lean keep memory canonical and never lower the fuses. -/

namespace Sys2Proof.Machine

theorem transferTo_kept {m0 : List Host.Cell} {f0 : Nat} (t : Word) (s : State) (hs : K m0 f0 s.mem s.fuse) :
    K m0 f0 (transferTo t s).mem (transferTo t s).fuse := by
  unfold transferTo
  repeat' (first | with_reducible assumption | with_reducible apply atEnd_kept | with_reducible intro _ | dsimp only | split)

theorem execBr_kept {m0 : List Host.Cell} {f0 : Nat} (g : BitVec 4) (disp : BitVec 20) (s : State) (hs : K m0 f0 s.mem s.fuse) :
    K.out m0 f0 (execBr g disp s) := by
  unfold execBr
  repeat' (first | with_reducible assumption | with_reducible refine K.of_out ‹_› ?_ | with_reducible refine K.of_body ‹_› ?_ | with_reducible apply slotStep_kept | with_reducible apply transferTo_kept | with_reducible apply K.out_next | with_reducible apply K.out_fault | with_reducible apply K.out_refused | with_reducible apply K.body_ok | with_reducible apply K.body_error | with_reducible intro _ | dsimp only | split)

theorem execCall_kept {m0 : List Host.Cell} {f0 : Nat} (g : BitVec 4) (disp : BitVec 20) (s : State) (hs : K m0 f0 s.mem s.fuse) :
    K.out m0 f0 (execCall g disp s) := by
  unfold execCall
  repeat' (first | with_reducible assumption | with_reducible refine K.of_out ‹_› ?_ | with_reducible refine K.of_body ‹_› ?_ | with_reducible apply slotStep_kept | with_reducible apply transferTo_kept | with_reducible apply writeScalar_kept | with_reducible apply K.out_next | with_reducible apply K.out_fault | with_reducible apply K.out_refused | with_reducible apply K.body_ok | with_reducible apply K.body_error | with_reducible intro _ | dsimp only | split)

theorem execJr_kept {m0 : List Host.Cell} {f0 : Nat} (g : BitVec 4) (a : BitVec 6) (s : State) (hs : K m0 f0 s.mem s.fuse) :
    K.out m0 f0 (execJr g a s) := by
  unfold execJr
  repeat' (first | with_reducible assumption | with_reducible refine K.of_out ‹_› ?_ | with_reducible refine K.of_body ‹_› ?_ | with_reducible apply slotStep_kept | with_reducible apply transferTo_kept | with_reducible apply K.out_next | with_reducible apply K.out_fault | with_reducible apply K.out_refused | with_reducible apply K.body_ok | with_reducible apply K.body_error | with_reducible intro _ | dsimp only | split)

theorem execCallr_kept {m0 : List Host.Cell} {f0 : Nat} (g : BitVec 4) (a : BitVec 6) (s : State) (hs : K m0 f0 s.mem s.fuse) :
    K.out m0 f0 (execCallr g a s) := by
  unfold execCallr
  repeat' (first | with_reducible assumption | with_reducible refine K.of_out ‹_› ?_ | with_reducible refine K.of_body ‹_› ?_ | with_reducible apply slotStep_kept | with_reducible apply transferTo_kept | with_reducible apply writeScalar_kept | with_reducible apply K.out_next | with_reducible apply K.out_fault | with_reducible apply K.out_refused | with_reducible apply K.body_ok | with_reducible apply K.body_error | with_reducible intro _ | dsimp only | split)

theorem loopFrom_kept {m0 : List Host.Cell} {f0 : Nat} (s : State) (n : Word) (len : BitVec 12) (hs : K m0 f0 s.mem s.fuse) :
    K m0 f0 (loopFrom s n len).mem (loopFrom s n len).fuse := by
  unfold loopFrom
  repeat' (first | with_reducible assumption | with_reducible apply atEnd_kept | with_reducible intro _ | dsimp only | split)

theorem execLoop_kept {m0 : List Host.Cell} {f0 : Nat} (g : BitVec 4) (a : BitVec 6) (len : BitVec 12) (s : State) (hs : K m0 f0 s.mem s.fuse) :
    K.out m0 f0 (execLoop g a len s) := by
  unfold execLoop
  repeat' (first | with_reducible assumption | with_reducible refine K.of_out ‹_› ?_ | with_reducible refine K.of_body ‹_› ?_ | with_reducible apply slotStep_kept | with_reducible apply loopFrom_kept | with_reducible apply K.out_next | with_reducible apply K.out_fault | with_reducible apply K.out_refused | with_reducible apply K.body_ok | with_reducible apply K.body_error | with_reducible intro _ | dsimp only | split)

theorem execLoopi_kept {m0 : List Host.Cell} {f0 : Nat} (g : BitVec 4) (cnt : BitVec 12) (len : BitVec 8) (s : State) (hs : K m0 f0 s.mem s.fuse) :
    K.out m0 f0 (execLoopi g cnt len s) := by
  unfold execLoopi
  repeat' (first | with_reducible assumption | with_reducible refine K.of_out ‹_› ?_ | with_reducible refine K.of_body ‹_› ?_ | with_reducible apply slotStep_kept | with_reducible apply loopFrom_kept | with_reducible apply K.out_next | with_reducible apply K.out_fault | with_reducible apply K.out_refused | with_reducible apply K.body_ok | with_reducible apply K.body_error | with_reducible intro _ | dsimp only | split)

theorem execLbrk_kept {m0 : List Host.Cell} {f0 : Nat} (g : BitVec 4) (s : State) (hs : K m0 f0 s.mem s.fuse) :
    K.out m0 f0 (execLbrk g s) := by
  unfold execLbrk
  repeat' (first | with_reducible assumption | with_reducible refine K.of_out ‹_› ?_ | with_reducible refine K.of_body ‹_› ?_ | with_reducible apply slotStep_kept | with_reducible apply transferTo_kept | with_reducible apply atEnd_kept | with_reducible apply K.out_next | with_reducible apply K.out_fault | with_reducible apply K.out_refused | with_reducible apply K.body_ok | with_reducible apply K.body_error | with_reducible intro _ | dsimp only | split)

theorem execLstg_kept {m0 : List Host.Cell} {f0 : Nat} (g : BitVec 4) (lv : BitVec 3) (pm : BitVec 4) (s : State) (hs : K m0 f0 s.mem s.fuse) :
    K.out m0 f0 (execLstg g lv pm s) := by
  unfold execLstg
  repeat' (first | with_reducible assumption | with_reducible refine K.of_out ‹_› ?_ | with_reducible refine K.of_body ‹_› ?_ | with_reducible apply slotStep_kept | with_reducible apply atEnd_kept | with_reducible apply K.out_next | with_reducible apply K.out_fault | with_reducible apply K.out_refused | with_reducible apply K.body_ok | with_reducible apply K.body_error | with_reducible intro _ | dsimp only | split)

theorem predOp_kept {m0 : List Host.Cell} {f0 : Nat} (i : Instr) (pd pa pb : BitVec 3) (na nb : Bool) (f : Bool → Bool → Bool) (s : State) (hs : K m0 f0 s.mem s.fuse) :
    K.out m0 f0 (predOp i pd pa pb na nb f s) := by
  unfold predOp
  repeat' (first | with_reducible assumption | with_reducible refine K.of_out ‹_› ?_ | with_reducible refine K.of_body ‹_› ?_ | with_reducible apply slotStep_kept | with_reducible apply writePred_kept | with_reducible apply K.out_next | with_reducible apply K.out_fault | with_reducible apply K.out_refused | with_reducible apply K.body_ok | with_reducible apply K.body_error | with_reducible intro _ | dsimp only | split)

theorem execPand_kept {m0 : List Host.Cell} {f0 : Nat} (g : BitVec 4) (pd pa pb : BitVec 3) (na nb : Bool) (s : State) (hs : K m0 f0 s.mem s.fuse) :
    K.out m0 f0 (execPand g pd pa pb na nb s) := by
  unfold execPand
  repeat' (first | with_reducible assumption | with_reducible refine K.of_out ‹_› ?_ | with_reducible refine K.of_body ‹_› ?_ | with_reducible apply predOp_kept | with_reducible apply K.out_next | with_reducible apply K.out_fault | with_reducible apply K.out_refused | with_reducible apply K.body_ok | with_reducible apply K.body_error | with_reducible intro _ | dsimp only | split)

theorem execPor_kept {m0 : List Host.Cell} {f0 : Nat} (g : BitVec 4) (pd pa pb : BitVec 3) (na nb : Bool) (s : State) (hs : K m0 f0 s.mem s.fuse) :
    K.out m0 f0 (execPor g pd pa pb na nb s) := by
  unfold execPor
  repeat' (first | with_reducible assumption | with_reducible refine K.of_out ‹_› ?_ | with_reducible refine K.of_body ‹_› ?_ | with_reducible apply predOp_kept | with_reducible apply K.out_next | with_reducible apply K.out_fault | with_reducible apply K.out_refused | with_reducible apply K.body_ok | with_reducible apply K.body_error | with_reducible intro _ | dsimp only | split)

theorem execPxor_kept {m0 : List Host.Cell} {f0 : Nat} (g : BitVec 4) (pd pa pb : BitVec 3) (na nb : Bool) (s : State) (hs : K m0 f0 s.mem s.fuse) :
    K.out m0 f0 (execPxor g pd pa pb na nb s) := by
  unfold execPxor
  repeat' (first | with_reducible assumption | with_reducible refine K.of_out ‹_› ?_ | with_reducible refine K.of_body ‹_› ?_ | with_reducible apply predOp_kept | with_reducible apply K.out_next | with_reducible apply K.out_fault | with_reducible apply K.out_refused | with_reducible apply K.body_ok | with_reducible apply K.body_error | with_reducible intro _ | dsimp only | split)

theorem execBktj_kept {m0 : List Host.Cell} {f0 : Nat} (g : BitVec 4) (a : BitVec 6) (tbl : BitVec 4) (s : State) (hs : K m0 f0 s.mem s.fuse) :
    K.out m0 f0 (execBktj g a tbl s) := by
  unfold execBktj
  repeat' (first | with_reducible assumption | with_reducible refine K.of_out ‹_› ?_ | with_reducible refine K.of_body ‹_› ?_ | with_reducible apply slotStep_kept | with_reducible apply transferTo_kept | with_reducible apply K.out_next | with_reducible apply K.out_fault | with_reducible apply K.out_refused | with_reducible apply K.body_ok | with_reducible apply K.body_error | with_reducible intro _ | dsimp only | split)

theorem execWaitgt_kept {m0 : List Host.Cell} {f0 : Nat} (g : BitVec 4) (a b : BitVec 6) (s : State) (hs : K m0 f0 s.mem s.fuse) :
    K.out m0 f0 (execWaitgt g a b s) := by
  unfold execWaitgt
  repeat' (first | with_reducible assumption | with_reducible refine K.of_out ‹_› ?_ | with_reducible refine K.of_body ‹_› ?_ | with_reducible apply slotStep_kept | with_reducible apply setMe_kept | with_reducible apply K.out_next | with_reducible apply K.out_fault | with_reducible apply K.out_refused | with_reducible apply K.body_ok | with_reducible apply K.body_error | with_reducible intro _ | dsimp only | split)

theorem execSetest_kept {m0 : List Host.Cell} {f0 : Nat} (g : BitVec 4) (a b : BitVec 6) (s : State) (hs : K m0 f0 s.mem s.fuse) :
    K.out m0 f0 (execSetest g a b s) := by
  unfold execSetest
  repeat' (first | with_reducible assumption | with_reducible refine K.of_out ‹_› ?_ | with_reducible refine K.of_body ‹_› ?_ | with_reducible apply slotStep_kept | with_reducible apply atEnd_kept | with_reducible apply K.out_next | with_reducible apply K.out_fault | with_reducible apply K.out_refused | with_reducible apply K.body_ok | with_reducible apply K.body_error | with_reducible intro _ | dsimp only | split)

theorem execSetts_kept {m0 : List Host.Cell} {f0 : Nat} (g : BitVec 4) (a b : BitVec 6) (s : State) (hs : K m0 f0 s.mem s.fuse) :
    K.out m0 f0 (execSetts g a b s) := by
  unfold execSetts
  repeat' (first | with_reducible assumption | with_reducible refine K.of_out ‹_› ?_ | with_reducible refine K.of_body ‹_› ?_ | with_reducible apply slotStep_kept | with_reducible apply atEnd_kept | with_reducible apply K.out_next | with_reducible apply K.out_fault | with_reducible apply K.out_refused | with_reducible apply K.body_ok | with_reducible apply K.body_error | with_reducible intro _ | dsimp only | split)

theorem execSetrm_kept {m0 : List Host.Cell} {f0 : Nat} (g : BitVec 4) (rm : BitVec 2) (s : State) (hs : K m0 f0 s.mem s.fuse) :
    K.out m0 f0 (execSetrm g rm s) := by
  unfold execSetrm
  repeat' (first | with_reducible assumption | with_reducible refine K.of_out ‹_› ?_ | with_reducible refine K.of_body ‹_› ?_ | with_reducible apply slotStep_kept | with_reducible apply atEnd_kept | with_reducible apply K.out_next | with_reducible apply K.out_fault | with_reducible apply K.out_refused | with_reducible apply K.body_ok | with_reducible apply K.body_error | with_reducible intro _ | dsimp only | split)

theorem passRecord_kept {m0 : List Host.Cell} {f0 : Nat} (s : State) (h : Word) (hs : K m0 f0 s.mem s.fuse) :
    K m0 f0 (passRecord s h).mem (passRecord s h).fuse := by
  unfold passRecord
  repeat' (first | with_reducible assumption | with_reducible apply passUncached_kept | with_reducible intro _ | dsimp only | split)

theorem execLaunch_kept {m0 : List Host.Cell} {f0 : Nat} (g : BitVec 4) (a : BitVec 6) (timed : Bool) (s : State) (hs : K m0 f0 s.mem s.fuse) :
    K.out m0 f0 (execLaunch g a timed s) := by
  unfold execLaunch
  repeat' (first | with_reducible assumption | with_reducible refine K.of_out ‹_› ?_ | with_reducible refine K.of_body ‹_› ?_ | with_reducible apply slotStep_kept | with_reducible apply afterCheck_kept | with_reducible apply launchTask_kept | with_reducible apply passRecord_kept | with_reducible apply K.out_next | with_reducible apply K.out_fault | with_reducible apply K.out_refused | with_reducible apply K.body_ok | with_reducible apply K.body_error | with_reducible intro _ | dsimp only | split)

theorem execBar_kept {m0 : List Host.Cell} {f0 : Nat} (g : BitVec 4) (sc id : BitVec 3) (rl aq : Bool) (s : State) (hs : K m0 f0 s.mem s.fuse) :
    K.out m0 f0 (execBar g sc id rl aq s) := by
  unfold execBar
  repeat' (first | with_reducible assumption | with_reducible refine K.of_out ‹_› ?_ | with_reducible refine K.of_body ‹_› ?_ | with_reducible apply slotStep_kept | with_reducible apply atEnd_kept | with_reducible apply arrive_kept | with_reducible apply K.out_next | with_reducible apply K.out_fault | with_reducible apply K.out_refused | with_reducible apply K.body_ok | with_reducible apply K.body_error | with_reducible intro _ | dsimp only | split)

theorem execBararv_kept {m0 : List Host.Cell} {f0 : Nat} (g : BitVec 4) (sc id : BitVec 3) (rl : Bool) (s : State) (hs : K m0 f0 s.mem s.fuse) :
    K.out m0 f0 (execBararv g sc id rl s) := by
  unfold execBararv
  repeat' (first | with_reducible assumption | with_reducible refine K.of_out ‹_› ?_ | with_reducible refine K.of_body ‹_› ?_ | with_reducible apply slotStep_kept | with_reducible apply arrive_kept | with_reducible apply K.out_next | with_reducible apply K.out_fault | with_reducible apply K.out_refused | with_reducible apply K.body_ok | with_reducible apply K.body_error | with_reducible intro _ | dsimp only | split)

theorem execBarwt_kept {m0 : List Host.Cell} {f0 : Nat} (g : BitVec 4) (sc id : BitVec 3) (aq : Bool) (s : State) (hs : K m0 f0 s.mem s.fuse) :
    K.out m0 f0 (execBarwt g sc id aq s) := by
  unfold execBarwt
  repeat' (first | with_reducible assumption | with_reducible refine K.of_out ‹_› ?_ | with_reducible refine K.of_body ‹_› ?_ | with_reducible apply slotStep_kept | with_reducible apply clearArm_kept | with_reducible apply K.out_next | with_reducible apply K.out_fault | with_reducible apply K.out_refused | with_reducible apply K.body_ok | with_reducible apply K.body_error | with_reducible intro _ | dsimp only | split)

theorem execFence_kept {m0 : List Host.Cell} {f0 : Nat} (g : BitVec 4) (sc : BitVec 3) (mask : BitVec 16) (s : State) (hs : K m0 f0 s.mem s.fuse) :
    K.out m0 f0 (execFence g sc mask s) := by
  unfold execFence
  repeat' (first | with_reducible assumption | with_reducible refine K.of_out ‹_› ?_ | with_reducible refine K.of_body ‹_› ?_ | with_reducible apply slotStep_kept | with_reducible apply setMe_kept | with_reducible apply K.out_next | with_reducible apply K.out_fault | with_reducible apply K.out_refused | with_reducible apply K.body_ok | with_reducible apply K.body_error | with_reducible intro _ | dsimp only | split)

theorem execTrap_kept {m0 : List Host.Cell} {f0 : Nat} (g : BitVec 4) (code : BitVec 8) (s : State) (hs : K m0 f0 s.mem s.fuse) :
    K.out m0 f0 (execTrap g code s) := by
  unfold execTrap
  repeat' (first | with_reducible assumption | with_reducible refine K.of_out ‹_› ?_ | with_reducible refine K.of_body ‹_› ?_ | with_reducible apply slotStep_kept | with_reducible apply atEnd_kept | with_reducible apply K.out_next | with_reducible apply K.out_fault | with_reducible apply K.out_refused | with_reducible apply K.body_ok | with_reducible apply K.body_error | with_reducible intro _ | dsimp only | split)

theorem execEret_kept {m0 : List Host.Cell} {f0 : Nat} (g : BitVec 4) (s : State) (hs : K m0 f0 s.mem s.fuse) :
    K.out m0 f0 (execEret g s) := by
  unfold execEret
  repeat' (first | with_reducible assumption | with_reducible refine K.of_out ‹_› ?_ | with_reducible refine K.of_body ‹_› ?_ | with_reducible apply slotStep_kept | with_reducible apply atEnd_kept | with_reducible apply K.out_next | with_reducible apply K.out_fault | with_reducible apply K.out_refused | with_reducible apply K.body_ok | with_reducible apply K.body_error | with_reducible intro _ | dsimp only | split)

theorem execExit_kept {m0 : List Host.Cell} {f0 : Nat} (g : BitVec 4) (s : State) (hs : K m0 f0 s.mem s.fuse) :
    K.out m0 f0 (execExit g s) := by
  unfold execExit
  repeat' (first | with_reducible assumption | with_reducible refine K.of_out ‹_› ?_ | with_reducible refine K.of_body ‹_› ?_ | with_reducible apply slotStep_kept | with_reducible apply endStrand_kept | with_reducible apply atEnd_kept | with_reducible apply K.out_next | with_reducible apply K.out_fault | with_reducible apply K.out_refused | with_reducible apply K.body_ok | with_reducible apply K.body_error | with_reducible intro _ | dsimp only | split)

theorem execContain_kept {m0 : List Host.Cell} {f0 : Nat} (g : BitVec 4) (disp : BitVec 20) (s : State) (hs : K m0 f0 s.mem s.fuse) :
    K.out m0 f0 (execContain g disp s) := by
  unfold execContain
  repeat' (first | with_reducible assumption | with_reducible refine K.of_out ‹_› ?_ | with_reducible refine K.of_body ‹_› ?_ | with_reducible apply slotStep_kept | with_reducible apply setMe_kept | with_reducible apply K.out_next | with_reducible apply K.out_fault | with_reducible apply K.out_refused | with_reducible apply K.body_ok | with_reducible apply K.body_error | with_reducible intro _ | dsimp only | split)

theorem execContainend_kept {m0 : List Host.Cell} {f0 : Nat} (g : BitVec 4) (s : State) (hs : K m0 f0 s.mem s.fuse) :
    K.out m0 f0 (execContainend g s) := by
  unfold execContainend
  repeat' (first | with_reducible assumption | with_reducible refine K.of_out ‹_› ?_ | with_reducible refine K.of_body ‹_› ?_ | with_reducible apply slotStep_kept | with_reducible apply setMe_kept | with_reducible apply K.out_next | with_reducible apply K.out_fault | with_reducible apply K.out_refused | with_reducible apply K.body_ok | with_reducible apply K.body_error | with_reducible intro _ | dsimp only | split)

end Sys2Proof.Machine
end

