-- ==== Sys2Proof/Laws/KeptKslot.lean ====
section
/-! SUPPORT. Sys2Proof/Laws/KeptKslot.lean: the operations of Machine/Kslot.lean keep memory canonical and never lower the fuses. -/

namespace Sys2Proof.Machine

theorem execShpset_kept {m0 : List Host.Cell} {f0 : Nat} (g : BitVec 4) (sg : BitVec 2) (fld : BitVec 4) (imm : BitVec 14) (s : State) (hs : K m0 f0 s.mem s.fuse) :
    K.out m0 f0 (execShpset g sg fld imm s) := by
  unfold execShpset
  repeat' (first | with_reducible assumption | with_reducible refine K.of_out ‹_› ?_ | with_reducible refine K.of_body ‹_› ?_ | with_reducible apply slotStep_kept | with_reducible apply enqueue_kept | with_reducible apply K.out_next | with_reducible apply K.out_fault | with_reducible apply K.out_refused | with_reducible apply K.body_ok | with_reducible apply K.body_error | with_reducible intro _ | dsimp only | split)

theorem execShpcpy_kept {m0 : List Host.Cell} {f0 : Nat} (g : BitVec 4) (sg : BitVec 2) (s : State) (hs : K m0 f0 s.mem s.fuse) :
    K.out m0 f0 (execShpcpy g sg s) := by
  unfold execShpcpy
  repeat' (first | with_reducible assumption | with_reducible refine K.of_out ‹_› ?_ | with_reducible refine K.of_body ‹_› ?_ | with_reducible apply slotStep_kept | with_reducible apply enqueue_kept | with_reducible apply K.out_next | with_reducible apply K.out_fault | with_reducible apply K.out_refused | with_reducible apply K.body_ok | with_reducible apply K.body_error | with_reducible intro _ | dsimp only | split)

theorem execQld_kept {m0 : List Host.Cell} {f0 : Nat} (g : BitVec 4) (q : BitVec 3) (a n : BitVec 6) (s : State) (hs : K m0 f0 s.mem s.fuse) :
    K.out m0 f0 (execQld g q a n s) := by
  unfold execQld
  repeat' (first | with_reducible assumption | with_reducible refine K.of_out ‹_› ?_ | with_reducible refine K.of_body ‹_› ?_ | with_reducible apply slotStep_kept | with_reducible apply enqueue_kept | with_reducible apply K.out_next | with_reducible apply K.out_fault | with_reducible apply K.out_refused | with_reducible apply K.body_ok | with_reducible apply K.body_error | with_reducible intro _ | dsimp only | split)

theorem execQset_kept {m0 : List Host.Cell} {f0 : Nat} (g : BitVec 4) (q : BitVec 3) (a n : BitVec 6) (s : State) (hs : K m0 f0 s.mem s.fuse) :
    K.out m0 f0 (execQset g q a n s) := by
  unfold execQset
  repeat' (first | with_reducible assumption | with_reducible refine K.of_out ‹_› ?_ | with_reducible refine K.of_body ‹_› ?_ | with_reducible apply slotStep_kept | with_reducible apply enqueue_kept | with_reducible apply K.out_next | with_reducible apply K.out_fault | with_reducible apply K.out_refused | with_reducible apply K.body_ok | with_reducible apply K.body_error | with_reducible intro _ | dsimp only | split)

theorem execQzero_kept {m0 : List Host.Cell} {f0 : Nat} (g : BitVec 4) (q : BitVec 3) (s : State) (hs : K m0 f0 s.mem s.fuse) :
    K.out m0 f0 (execQzero g q s) := by
  unfold execQzero
  repeat' (first | with_reducible assumption | with_reducible refine K.of_out ‹_› ?_ | with_reducible refine K.of_body ‹_› ?_ | with_reducible apply slotStep_kept | with_reducible apply enqueue_kept | with_reducible apply K.out_next | with_reducible apply K.out_fault | with_reducible apply K.out_refused | with_reducible apply K.body_ok | with_reducible apply K.body_error | with_reducible intro _ | dsimp only | split)

theorem execVfset_kept {m0 : List Host.Cell} {f0 : Nat} (g v fld : BitVec 4) (a : BitVec 6) (s : State) (hs : K m0 f0 s.mem s.fuse) :
    K.out m0 f0 (execVfset g v fld a s) := by
  unfold execVfset
  repeat' (first | with_reducible assumption | with_reducible refine K.of_out ‹_› ?_ | with_reducible refine K.of_body ‹_› ?_ | with_reducible apply slotStep_kept | with_reducible apply enqueue_kept | with_reducible apply K.out_next | with_reducible apply K.out_fault | with_reducible apply K.out_refused | with_reducible apply K.body_ok | with_reducible apply K.body_error | with_reducible intro _ | dsimp only | split)

theorem execVfseti_kept {m0 : List Host.Cell} {f0 : Nat} (g v fld : BitVec 4) (imm : BitVec 12) (s : State) (hs : K m0 f0 s.mem s.fuse) :
    K.out m0 f0 (execVfseti g v fld imm s) := by
  unfold execVfseti
  repeat' (first | with_reducible assumption | with_reducible refine K.of_out ‹_› ?_ | with_reducible refine K.of_body ‹_› ?_ | with_reducible apply slotStep_kept | with_reducible apply enqueue_kept | with_reducible apply K.out_next | with_reducible apply K.out_fault | with_reducible apply K.out_refused | with_reducible apply K.body_ok | with_reducible apply K.body_error | with_reducible intro _ | dsimp only | split)

theorem execBndset_kept {m0 : List Host.Cell} {f0 : Nat} (g v : BitVec 4) (a b : BitVec 6) (s : State) (hs : K m0 f0 s.mem s.fuse) :
    K.out m0 f0 (execBndset g v a b s) := by
  unfold execBndset
  repeat' (first | with_reducible assumption | with_reducible refine K.of_out ‹_› ?_ | with_reducible refine K.of_body ‹_› ?_ | with_reducible apply slotStep_kept | with_reducible apply enqueue_kept | with_reducible apply K.out_next | with_reducible apply K.out_fault | with_reducible apply K.out_refused | with_reducible apply K.body_ok | with_reducible apply K.body_error | with_reducible intro _ | dsimp only | split)

theorem execBndoff_kept {m0 : List Host.Cell} {f0 : Nat} (g v : BitVec 4) (s : State) (hs : K m0 f0 s.mem s.fuse) :
    K.out m0 f0 (execBndoff g v s) := by
  unfold execBndoff
  repeat' (first | with_reducible assumption | with_reducible refine K.of_out ‹_› ?_ | with_reducible refine K.of_body ‹_› ?_ | with_reducible apply slotStep_kept | with_reducible apply enqueue_kept | with_reducible apply K.out_next | with_reducible apply K.out_fault | with_reducible apply K.out_refused | with_reducible apply K.body_ok | with_reducible apply K.body_error | with_reducible intro _ | dsimp only | split)

theorem execVrow_kept {m0 : List Host.Cell} {f0 : Nat} (sl : Bool) (rd ra rb : BitVec 6) (s : State) (hs : K m0 f0 s.mem s.fuse) :
    K.out m0 f0 (execVrow sl rd ra rb s) := by
  unfold execVrow
  repeat' (first | with_reducible assumption | with_reducible refine K.of_out ‹_› ?_ | with_reducible refine K.of_body ‹_› ?_ | with_reducible apply slotStep_kept | with_reducible apply K.out_next | with_reducible apply K.out_fault | with_reducible apply K.out_refused | with_reducible apply K.body_ok | with_reducible apply K.body_error | with_reducible intro _ | dsimp only | split)

theorem execXimm_kept {m0 : List Host.Cell} {f0 : Nat} (tgt : BitVec 3) (e : BitVec 20) (s : State) (hs : K m0 f0 s.mem s.fuse) :
    K.out m0 f0 (execXimm tgt e s) := by
  unfold execXimm
  repeat' (first | with_reducible assumption | with_reducible refine K.of_out ‹_› ?_ | with_reducible refine K.of_body ‹_› ?_ | with_reducible apply slotStep_kept | with_reducible apply K.out_next | with_reducible apply K.out_fault | with_reducible apply K.out_refused | with_reducible apply K.body_ok | with_reducible apply K.body_error | with_reducible intro _ | dsimp only | split)

end Sys2Proof.Machine
end

