-- ==== Sys2Proof/Laws/KeptMem.lean ====
section
/-! SUPPORT. Sys2Proof/Laws/KeptMem.lean: the operations of Machine/Mem.lean keep memory canonical and never lower the fuses. -/

namespace Sys2Proof.Machine

theorem loadOp_kept {m0 : List Host.Cell} {f0 : Nat} (t v : BitVec 4) (cx : Bool) (cls : BitVec 4) (rows : RowList) (s : State) (hs : K m0 f0 s.mem s.fuse) :
    K.body m0 f0 (loadOp t v cx cls rows s) := by
  unfold loadOp
  repeat' (first | with_reducible assumption | with_reducible refine K.of_out ‹_› ?_ | with_reducible refine K.of_body ‹_› ?_ | with_reducible apply afterCheck_kept | with_reducible apply newOp_kept | with_reducible apply K.out_next | with_reducible apply K.out_fault | with_reducible apply K.out_refused | with_reducible apply K.body_ok | with_reducible apply K.body_error | with_reducible intro _ | dsimp only | split)

theorem storeOp_kept {m0 : List Host.Cell} {f0 : Nat} (t v : BitVec 4) (cx : Bool) (cls : BitVec 4) (rows : RowList) (s : State) (hs : K m0 f0 s.mem s.fuse) :
    K.body m0 f0 (storeOp t v cx cls rows s) := by
  unfold storeOp
  repeat' (first | with_reducible assumption | with_reducible refine K.of_out ‹_› ?_ | with_reducible refine K.of_body ‹_› ?_ | with_reducible apply afterCheck_kept | with_reducible apply newOp_kept | with_reducible apply K.out_next | with_reducible apply K.out_fault | with_reducible apply K.out_refused | with_reducible apply K.body_ok | with_reducible apply K.body_error | with_reducible intro _ | dsimp only | split)

theorem execTld_kept {m0 : List Host.Cell} {f0 : Nat} (g t v : BitVec 4) (a : BitVec 6) (cx : Bool) (cls : BitVec 4) (s : State) (hs : K m0 f0 s.mem s.fuse) :
    K.out m0 f0 (execTld g t v a cx cls s) := by
  unfold execTld
  repeat' (first | with_reducible assumption | with_reducible refine K.of_out ‹_› ?_ | with_reducible refine K.of_body ‹_› ?_ | with_reducible apply slotStep_kept | with_reducible apply loadOp_kept | with_reducible apply K.out_next | with_reducible apply K.out_fault | with_reducible apply K.out_refused | with_reducible apply K.body_ok | with_reducible apply K.body_error | with_reducible intro _ | dsimp only | split)

theorem execTst_kept {m0 : List Host.Cell} {f0 : Nat} (g t v : BitVec 4) (a : BitVec 6) (cx : Bool) (cls : BitVec 4) (s : State) (hs : K m0 f0 s.mem s.fuse) :
    K.out m0 f0 (execTst g t v a cx cls s) := by
  unfold execTst
  repeat' (first | with_reducible assumption | with_reducible refine K.of_out ‹_› ?_ | with_reducible refine K.of_body ‹_› ?_ | with_reducible apply slotStep_kept | with_reducible apply storeOp_kept | with_reducible apply K.out_next | with_reducible apply K.out_fault | with_reducible apply K.out_refused | with_reducible apply K.body_ok | with_reducible apply K.body_error | with_reducible intro _ | dsimp only | split)

theorem execTgath_kept {m0 : List Host.Cell} {f0 : Nat} (g t v : BitVec 4) (a : BitVec 6) (cx : Bool) (cls : BitVec 4) (s : State) (hs : K m0 f0 s.mem s.fuse) :
    K.out m0 f0 (execTgath g t v a cx cls s) := by
  unfold execTgath
  repeat' (first | with_reducible assumption | with_reducible refine K.of_out ‹_› ?_ | with_reducible refine K.of_body ‹_› ?_ | with_reducible apply slotStep_kept | with_reducible apply loadOp_kept | with_reducible apply K.out_next | with_reducible apply K.out_fault | with_reducible apply K.out_refused | with_reducible apply K.body_ok | with_reducible apply K.body_error | with_reducible intro _ | dsimp only | split)

theorem execTscat_kept {m0 : List Host.Cell} {f0 : Nat} (g t v : BitVec 4) (a : BitVec 6) (cx : Bool) (cls : BitVec 4) (s : State) (hs : K m0 f0 s.mem s.fuse) :
    K.out m0 f0 (execTscat g t v a cx cls s) := by
  unfold execTscat
  repeat' (first | with_reducible assumption | with_reducible refine K.of_out ‹_› ?_ | with_reducible refine K.of_body ‹_› ?_ | with_reducible apply slotStep_kept | with_reducible apply storeOp_kept | with_reducible apply K.out_next | with_reducible apply K.out_fault | with_reducible apply K.out_refused | with_reducible apply K.body_ok | with_reducible apply K.body_error | with_reducible intro _ | dsimp only | split)

theorem execPref_kept {m0 : List Host.Cell} {f0 : Nat} (g v : BitVec 4) (a : BitVec 6) (s : State) (hs : K m0 f0 s.mem s.fuse) :
    K.out m0 f0 (execPref g v a s) := by
  unfold execPref
  repeat' (first | with_reducible assumption | with_reducible refine K.of_out ‹_› ?_ | with_reducible refine K.of_body ‹_› ?_ | with_reducible apply slotStep_kept | with_reducible apply K.out_next | with_reducible apply K.out_fault | with_reducible apply K.out_refused | with_reducible apply K.body_ok | with_reducible apply K.body_error | with_reducible intro _ | dsimp only | split)

theorem execTspld_kept {m0 : List Host.Cell} {f0 : Nat} (g t : BitVec 4) (a : BitVec 6) (s : State) (hs : K m0 f0 s.mem s.fuse) :
    K.out m0 f0 (execTspld g t a s) := by
  unfold execTspld
  repeat' (first | with_reducible assumption | with_reducible refine K.of_out ‹_› ?_ | with_reducible refine K.of_body ‹_› ?_ | with_reducible apply slotStep_kept | with_reducible apply newOp_kept | with_reducible apply K.out_next | with_reducible apply K.out_fault | with_reducible apply K.out_refused | with_reducible apply K.body_ok | with_reducible apply K.body_error | with_reducible intro _ | dsimp only | split)

theorem execTspst_kept {m0 : List Host.Cell} {f0 : Nat} (g t : BitVec 4) (a : BitVec 6) (s : State) (hs : K m0 f0 s.mem s.fuse) :
    K.out m0 f0 (execTspst g t a s) := by
  unfold execTspst
  repeat' (first | with_reducible assumption | with_reducible refine K.of_out ‹_› ?_ | with_reducible refine K.of_body ‹_› ?_ | with_reducible apply slotStep_kept | with_reducible apply newOp_kept | with_reducible apply K.out_next | with_reducible apply K.out_fault | with_reducible apply K.out_refused | with_reducible apply K.body_ok | with_reducible apply K.body_error | with_reducible intro _ | dsimp only | split)

theorem execTzero_kept {m0 : List Host.Cell} {f0 : Nat} (g t : BitVec 4) (s : State) (hs : K m0 f0 s.mem s.fuse) :
    K.out m0 f0 (execTzero g t s) := by
  unfold execTzero
  repeat' (first | with_reducible assumption | with_reducible refine K.of_out ‹_› ?_ | with_reducible refine K.of_body ‹_› ?_ | with_reducible apply slotStep_kept | with_reducible apply newOp_kept | with_reducible apply K.out_next | with_reducible apply K.out_fault | with_reducible apply K.out_refused | with_reducible apply K.body_ok | with_reducible apply K.body_error | with_reducible intro _ | dsimp only | split)

theorem execTmovt_kept {m0 : List Host.Cell} {f0 : Nat} (g t ts : BitVec 4) (s : State) (hs : K m0 f0 s.mem s.fuse) :
    K.out m0 f0 (execTmovt g t ts s) := by
  unfold execTmovt
  repeat' (first | with_reducible assumption | with_reducible refine K.of_out ‹_› ?_ | with_reducible refine K.of_body ‹_› ?_ | with_reducible apply slotStep_kept | with_reducible apply newOp_kept | with_reducible apply K.out_next | with_reducible apply K.out_fault | with_reducible apply K.out_refused | with_reducible apply K.body_ok | with_reducible apply K.body_error | with_reducible intro _ | dsimp only | split)

theorem execAred_kept {m0 : List Host.Cell} {f0 : Nat} (g t v : BitVec 4) (a : BitVec 6) (cx : Bool) (cls : BitVec 4) (s : State) (hs : K m0 f0 s.mem s.fuse) :
    K.out m0 f0 (execAred g t v a cx cls s) := by
  unfold execAred
  repeat' (first | with_reducible assumption | with_reducible refine K.of_out ‹_› ?_ | with_reducible refine K.of_body ‹_› ?_ | with_reducible apply slotStep_kept | with_reducible apply afterCheck_kept | with_reducible apply newOp_kept | with_reducible apply K.out_next | with_reducible apply K.out_fault | with_reducible apply K.out_refused | with_reducible apply K.body_ok | with_reducible apply K.body_error | with_reducible intro _ | dsimp only | split)

theorem execTcopy_kept {m0 : List Host.Cell} {f0 : Nat} (g vd vs : BitVec 4) (a : BitVec 6) (cq : BitVec 2) (ev : Bool) (s : State) (hs : K m0 f0 s.mem s.fuse) :
    K.out m0 f0 (execTcopy g vd vs a cq ev s) := by
  unfold execTcopy
  repeat' (first | with_reducible assumption | with_reducible refine K.of_out ‹_› ?_ | with_reducible refine K.of_body ‹_› ?_ | with_reducible apply slotStep_kept | with_reducible apply afterCheck_kept | with_reducible apply newOp_kept | with_reducible apply K.out_next | with_reducible apply K.out_fault | with_reducible apply K.out_refused | with_reducible apply K.body_ok | with_reducible apply K.body_error | with_reducible intro _ | dsimp only | split)

theorem execVopen_kept {m0 : List Host.Cell} {f0 : Nat} (g v : BitVec 4) (mode : BitVec 2) (sc : BitVec 3) (cls : BitVec 4) (s : State) (hs : K m0 f0 s.mem s.fuse) :
    K.out m0 f0 (execVopen g v mode sc cls s) := by
  unfold execVopen
  repeat' (first | with_reducible assumption | with_reducible refine K.of_out ‹_› ?_ | with_reducible refine K.of_body ‹_› ?_ | with_reducible apply slotStep_kept | with_reducible apply setMe_kept | with_reducible apply registered_kept | with_reducible apply afterCheck_kept | with_reducible apply K.out_next | with_reducible apply K.out_fault | with_reducible apply K.out_refused | with_reducible apply K.body_ok | with_reducible apply K.body_error | with_reducible intro _ | dsimp only | split)

theorem execVretire_kept {m0 : List Host.Cell} {f0 : Nat} (g v : BitVec 4) (s : State) (hs : K m0 f0 s.mem s.fuse) :
    K.out m0 f0 (execVretire g v s) := by
  unfold execVretire
  repeat' (first | with_reducible assumption | with_reducible refine K.of_out ‹_› ?_ | with_reducible refine K.of_body ‹_› ?_ | with_reducible apply slotStep_kept | with_reducible apply retireView_kept | with_reducible apply K.out_next | with_reducible apply K.out_fault | with_reducible apply K.out_refused | with_reducible apply K.body_ok | with_reducible apply K.body_error | with_reducible intro _ | dsimp only | split)

theorem freeHandle_kept {m0 : List Host.Cell} {f0 : Nat} (s : State) (asid : Nat) (h : Word) (hs : K m0 f0 s.mem s.fuse) :
    K m0 f0 (freeHandle s asid h).mem (freeHandle s asid h).fuse := by
  unfold freeHandle
  repeat' (first | with_reducible assumption | with_reducible intro _ | dsimp only | split)

theorem dropPoison_kept {m0 : List Host.Cell} {f0 : Nat} (s : State) (asid : Nat) (h : Word) (hs : K m0 f0 s.mem s.fuse) :
    K m0 f0 (dropPoison s asid h).mem (dropPoison s asid h).fuse := by
  unfold dropPoison
  repeat' (first | with_reducible assumption | with_reducible intro _ | dsimp only | split)

theorem execHfree_kept {m0 : List Host.Cell} {f0 : Nat} (g : BitVec 4) (a : BitVec 6) (s : State) (hs : K m0 f0 s.mem s.fuse) :
    K.out m0 f0 (execHfree g a s) := by
  unfold execHfree
  repeat' (first | with_reducible assumption | with_reducible refine K.of_out ‹_› ?_ | with_reducible refine K.of_body ‹_› ?_ | with_reducible apply slotStep_kept | with_reducible apply afterCheck_kept | with_reducible apply dropPoison_kept | with_reducible apply freeHandle_kept | with_reducible apply K.out_next | with_reducible apply K.out_fault | with_reducible apply K.out_refused | with_reducible apply K.body_ok | with_reducible apply K.body_error | with_reducible intro _ | dsimp only | split)

theorem execWaitm_kept {m0 : List Host.Cell} {f0 : Nat} (g : BitVec 4) (d : BitVec 6) (v : BitVec 4) (a : BitVec 6) (ord : Bool) (sc : BitVec 2) (s : State) (hs : K m0 f0 s.mem s.fuse) :
    K.out m0 f0 (execWaitm g d v a ord sc s) := by
  unfold execWaitm
  repeat' (first | with_reducible assumption | with_reducible refine K.of_out ‹_› ?_ | with_reducible refine K.of_body ‹_› ?_ | with_reducible apply slotStep_kept | with_reducible apply afterCheck_kept | with_reducible apply passUncached_kept | with_reducible apply dropRequests_kept | with_reducible apply K.out_next | with_reducible apply K.out_fault | with_reducible apply K.out_refused | with_reducible apply K.body_ok | with_reducible apply K.body_error | with_reducible intro _ | dsimp only | split)

theorem atomicOp_kept {m0 : List Host.Cell} {f0 : Nat} (i : Instr) (op : AtomicOp) (d : BitVec 6) (x y : BitVec 6) (v : BitVec 4) (a : BitVec 6) (ord sc : BitVec 2) (s : State) (hs : K m0 f0 s.mem s.fuse) :
    K.out m0 f0 (atomicOp i op d x y v a ord sc s) := by
  unfold atomicOp
  repeat' (first | with_reducible assumption | with_reducible refine K.of_out ‹_› ?_ | with_reducible refine K.of_body ‹_› ?_ | with_reducible apply slotStep_kept | with_reducible apply newOp_kept | with_reducible apply afterCheck_kept | with_reducible apply setMe_kept | with_reducible apply K.out_next | with_reducible apply K.out_fault | with_reducible apply K.out_refused | with_reducible apply K.body_ok | with_reducible apply K.body_error | with_reducible intro _ | dsimp only | split)

theorem atomicX_kept {m0 : List Host.Cell} {f0 : Nat} (i : Instr) (op : AtomicOp) (d : BitVec 6) (v : BitVec 4) (a : BitVec 6) (ord sc : BitVec 2) (s : State) (hs : K m0 f0 s.mem s.fuse) :
    K.out m0 f0 (atomicX i op d v a ord sc s) := by
  unfold atomicX
  repeat' (first | with_reducible assumption | with_reducible refine K.of_out ‹_› ?_ | with_reducible refine K.of_body ‹_› ?_ | with_reducible apply atomicOp_kept | with_reducible apply K.out_next | with_reducible apply K.out_fault | with_reducible apply K.out_refused | with_reducible apply K.body_ok | with_reducible apply K.body_error | with_reducible intro _ | dsimp only | split)

theorem execAadd_kept {m0 : List Host.Cell} {f0 : Nat} (g : BitVec 4) (d : BitVec 6) (v : BitVec 4) (a : BitVec 6) (ord sc : BitVec 2) (s : State) (hs : K m0 f0 s.mem s.fuse) :
    K.out m0 f0 (execAadd g d v a ord sc s) := by
  unfold execAadd
  repeat' (first | with_reducible assumption | with_reducible refine K.of_out ‹_› ?_ | with_reducible refine K.of_body ‹_› ?_ | with_reducible apply atomicX_kept | with_reducible apply K.out_next | with_reducible apply K.out_fault | with_reducible apply K.out_refused | with_reducible apply K.body_ok | with_reducible apply K.body_error | with_reducible intro _ | dsimp only | split)

theorem execAmin_kept {m0 : List Host.Cell} {f0 : Nat} (g : BitVec 4) (d : BitVec 6) (v : BitVec 4) (a : BitVec 6) (ord sc : BitVec 2) (s : State) (hs : K m0 f0 s.mem s.fuse) :
    K.out m0 f0 (execAmin g d v a ord sc s) := by
  unfold execAmin
  repeat' (first | with_reducible assumption | with_reducible refine K.of_out ‹_› ?_ | with_reducible refine K.of_body ‹_› ?_ | with_reducible apply atomicX_kept | with_reducible apply K.out_next | with_reducible apply K.out_fault | with_reducible apply K.out_refused | with_reducible apply K.body_ok | with_reducible apply K.body_error | with_reducible intro _ | dsimp only | split)

theorem execAmax_kept {m0 : List Host.Cell} {f0 : Nat} (g : BitVec 4) (d : BitVec 6) (v : BitVec 4) (a : BitVec 6) (ord sc : BitVec 2) (s : State) (hs : K m0 f0 s.mem s.fuse) :
    K.out m0 f0 (execAmax g d v a ord sc s) := by
  unfold execAmax
  repeat' (first | with_reducible assumption | with_reducible refine K.of_out ‹_› ?_ | with_reducible refine K.of_body ‹_› ?_ | with_reducible apply atomicX_kept | with_reducible apply K.out_next | with_reducible apply K.out_fault | with_reducible apply K.out_refused | with_reducible apply K.body_ok | with_reducible apply K.body_error | with_reducible intro _ | dsimp only | split)

theorem execAminu_kept {m0 : List Host.Cell} {f0 : Nat} (g : BitVec 4) (d : BitVec 6) (v : BitVec 4) (a : BitVec 6) (ord sc : BitVec 2) (s : State) (hs : K m0 f0 s.mem s.fuse) :
    K.out m0 f0 (execAminu g d v a ord sc s) := by
  unfold execAminu
  repeat' (first | with_reducible assumption | with_reducible refine K.of_out ‹_› ?_ | with_reducible refine K.of_body ‹_› ?_ | with_reducible apply atomicX_kept | with_reducible apply K.out_next | with_reducible apply K.out_fault | with_reducible apply K.out_refused | with_reducible apply K.body_ok | with_reducible apply K.body_error | with_reducible intro _ | dsimp only | split)

theorem execAmaxu_kept {m0 : List Host.Cell} {f0 : Nat} (g : BitVec 4) (d : BitVec 6) (v : BitVec 4) (a : BitVec 6) (ord sc : BitVec 2) (s : State) (hs : K m0 f0 s.mem s.fuse) :
    K.out m0 f0 (execAmaxu g d v a ord sc s) := by
  unfold execAmaxu
  repeat' (first | with_reducible assumption | with_reducible refine K.of_out ‹_› ?_ | with_reducible refine K.of_body ‹_› ?_ | with_reducible apply atomicX_kept | with_reducible apply K.out_next | with_reducible apply K.out_fault | with_reducible apply K.out_refused | with_reducible apply K.body_ok | with_reducible apply K.body_error | with_reducible intro _ | dsimp only | split)

theorem execAand_kept {m0 : List Host.Cell} {f0 : Nat} (g : BitVec 4) (d : BitVec 6) (v : BitVec 4) (a : BitVec 6) (ord sc : BitVec 2) (s : State) (hs : K m0 f0 s.mem s.fuse) :
    K.out m0 f0 (execAand g d v a ord sc s) := by
  unfold execAand
  repeat' (first | with_reducible assumption | with_reducible refine K.of_out ‹_› ?_ | with_reducible refine K.of_body ‹_› ?_ | with_reducible apply atomicX_kept | with_reducible apply K.out_next | with_reducible apply K.out_fault | with_reducible apply K.out_refused | with_reducible apply K.body_ok | with_reducible apply K.body_error | with_reducible intro _ | dsimp only | split)

theorem execAor_kept {m0 : List Host.Cell} {f0 : Nat} (g : BitVec 4) (d : BitVec 6) (v : BitVec 4) (a : BitVec 6) (ord sc : BitVec 2) (s : State) (hs : K m0 f0 s.mem s.fuse) :
    K.out m0 f0 (execAor g d v a ord sc s) := by
  unfold execAor
  repeat' (first | with_reducible assumption | with_reducible refine K.of_out ‹_› ?_ | with_reducible refine K.of_body ‹_› ?_ | with_reducible apply atomicX_kept | with_reducible apply K.out_next | with_reducible apply K.out_fault | with_reducible apply K.out_refused | with_reducible apply K.body_ok | with_reducible apply K.body_error | with_reducible intro _ | dsimp only | split)

theorem execAxor_kept {m0 : List Host.Cell} {f0 : Nat} (g : BitVec 4) (d : BitVec 6) (v : BitVec 4) (a : BitVec 6) (ord sc : BitVec 2) (s : State) (hs : K m0 f0 s.mem s.fuse) :
    K.out m0 f0 (execAxor g d v a ord sc s) := by
  unfold execAxor
  repeat' (first | with_reducible assumption | with_reducible refine K.of_out ‹_› ?_ | with_reducible refine K.of_body ‹_› ?_ | with_reducible apply atomicX_kept | with_reducible apply K.out_next | with_reducible apply K.out_fault | with_reducible apply K.out_refused | with_reducible apply K.body_ok | with_reducible apply K.body_error | with_reducible intro _ | dsimp only | split)

theorem execAxchg_kept {m0 : List Host.Cell} {f0 : Nat} (g : BitVec 4) (d : BitVec 6) (v : BitVec 4) (a : BitVec 6) (ord sc : BitVec 2) (s : State) (hs : K m0 f0 s.mem s.fuse) :
    K.out m0 f0 (execAxchg g d v a ord sc s) := by
  unfold execAxchg
  repeat' (first | with_reducible assumption | with_reducible refine K.of_out ‹_› ?_ | with_reducible refine K.of_body ‹_› ?_ | with_reducible apply atomicX_kept | with_reducible apply K.out_next | with_reducible apply K.out_fault | with_reducible apply K.out_refused | with_reducible apply K.body_ok | with_reducible apply K.body_error | with_reducible intro _ | dsimp only | split)

theorem execAcas_kept {m0 : List Host.Cell} {f0 : Nat} (g : BitVec 4) (d : BitVec 5) (v : BitVec 4) (a : BitVec 6) (ord sc : BitVec 2) (s : State) (hs : K m0 f0 s.mem s.fuse) :
    K.out m0 f0 (execAcas g d v a ord sc s) := by
  unfold execAcas
  repeat' (first | with_reducible assumption | with_reducible refine K.of_out ‹_› ?_ | with_reducible refine K.of_body ‹_› ?_ | with_reducible apply atomicOp_kept | with_reducible apply K.out_next | with_reducible apply K.out_fault | with_reducible apply K.out_refused | with_reducible apply K.body_ok | with_reducible apply K.body_error | with_reducible intro _ | dsimp only | split)

theorem execAincb_kept {m0 : List Host.Cell} {f0 : Nat} (g : BitVec 4) (d : BitVec 6) (v : BitVec 4) (a : BitVec 6) (ord sc : BitVec 2) (s : State) (hs : K m0 f0 s.mem s.fuse) :
    K.out m0 f0 (execAincb g d v a ord sc s) := by
  unfold execAincb
  repeat' (first | with_reducible assumption | with_reducible refine K.of_out ‹_› ?_ | with_reducible refine K.of_body ‹_› ?_ | with_reducible apply atomicX_kept | with_reducible apply K.out_next | with_reducible apply K.out_fault | with_reducible apply K.out_refused | with_reducible apply K.body_ok | with_reducible apply K.body_error | with_reducible intro _ | dsimp only | split)

theorem execAfadd_kept {m0 : List Host.Cell} {f0 : Nat} (g : BitVec 4) (d : BitVec 6) (v : BitVec 4) (a : BitVec 6) (ord sc : BitVec 2) (s : State) (hs : K m0 f0 s.mem s.fuse) :
    K.out m0 f0 (execAfadd g d v a ord sc s) := by
  unfold execAfadd
  repeat' (first | with_reducible assumption | with_reducible refine K.of_out ‹_› ?_ | with_reducible refine K.of_body ‹_› ?_ | with_reducible apply atomicX_kept | with_reducible apply K.out_next | with_reducible apply K.out_fault | with_reducible apply K.out_refused | with_reducible apply K.body_ok | with_reducible apply K.body_error | with_reducible intro _ | dsimp only | split)

theorem execAfaddh_kept {m0 : List Host.Cell} {f0 : Nat} (g : BitVec 4) (d : BitVec 6) (v : BitVec 4) (a : BitVec 6) (ord sc : BitVec 2) (s : State) (hs : K m0 f0 s.mem s.fuse) :
    K.out m0 f0 (execAfaddh g d v a ord sc s) := by
  unfold execAfaddh
  repeat' (first | with_reducible assumption | with_reducible refine K.of_out ‹_› ?_ | with_reducible refine K.of_body ‹_› ?_ | with_reducible apply atomicX_kept | with_reducible apply K.out_next | with_reducible apply K.out_fault | with_reducible apply K.out_refused | with_reducible apply K.body_ok | with_reducible apply K.body_error | with_reducible intro _ | dsimp only | split)

theorem execAld_kept {m0 : List Host.Cell} {f0 : Nat} (g : BitVec 4) (d : BitVec 6) (v : BitVec 4) (a : BitVec 6) (ord sc : BitVec 2) (s : State) (hs : K m0 f0 s.mem s.fuse) :
    K.out m0 f0 (execAld g d v a ord sc s) := by
  unfold execAld
  repeat' (first | with_reducible assumption | with_reducible refine K.of_out ‹_› ?_ | with_reducible refine K.of_body ‹_› ?_ | with_reducible apply atomicOp_kept | with_reducible apply K.out_next | with_reducible apply K.out_fault | with_reducible apply K.out_refused | with_reducible apply K.body_ok | with_reducible apply K.body_error | with_reducible intro _ | dsimp only | split)

theorem execAst_kept {m0 : List Host.Cell} {f0 : Nat} (g : BitVec 4) (d : BitVec 6) (v : BitVec 4) (a : BitVec 6) (ord sc : BitVec 2) (s : State) (hs : K m0 f0 s.mem s.fuse) :
    K.out m0 f0 (execAst g d v a ord sc s) := by
  unfold execAst
  repeat' (first | with_reducible assumption | with_reducible refine K.of_out ‹_› ?_ | with_reducible refine K.of_body ‹_› ?_ | with_reducible apply atomicX_kept | with_reducible apply K.out_next | with_reducible apply K.out_fault | with_reducible apply K.out_refused | with_reducible apply K.body_ok | with_reducible apply K.body_error | with_reducible intro _ | dsimp only | split)

theorem sendStatus_kept {m0 : List Host.Cell} {f0 : Nat} (g : BitVec 4) (s : State) (hs : K m0 f0 s.mem s.fuse) :
    K m0 f0 (sendStatus g s).mem (sendStatus g s).fuse := by
  unfold sendStatus
  repeat' (first | with_reducible assumption | with_reducible apply atEnd_kept | with_reducible intro _ | dsimp only | split)

theorem failLast_kept {m0 : List Host.Cell} {f0 : Nat} (s : State) (cause engine : Nat) (aux0 : BitVec 64) (hs : K m0 f0 s.mem s.fuse) :
    K m0 f0 (failLast s cause engine aux0).mem (failLast s cause engine aux0).fuse := by
  unfold failLast
  repeat' (first | with_reducible assumption | with_reducible apply failOp_kept | with_reducible intro _ | dsimp only | split)

theorem execSend_kept {m0 : List Host.Cell} {f0 : Nat} (g : BitVec 4) (a : BitVec 6) (t : BitVec 4) (b : BitVec 6) (timed : Bool) (s : State) (hs : K m0 f0 s.mem s.fuse) :
    K.out m0 f0 (execSend g a t b timed s) := by
  unfold execSend
  repeat' (first | with_reducible assumption | with_reducible refine K.of_out ‹_› ?_ | with_reducible refine K.of_body ‹_› ?_ | with_reducible apply slotStep_kept | with_reducible apply dropRequests_kept | with_reducible apply setMe_kept | with_reducible apply sendStatus_kept | with_reducible apply failLast_kept | with_reducible apply newOp_kept | with_reducible apply K.out_next | with_reducible apply K.out_fault | with_reducible apply K.out_refused | with_reducible apply K.body_ok | with_reducible apply K.body_error | with_reducible intro _ | dsimp only | split)

end Sys2Proof.Machine
end

