-- ==== Sys2Proof/Laws/KeptArray.lean ====
section
/-! SUPPORT. Sys2Proof/Laws/KeptArray.lean: the operations of Machine/Array.lean keep memory canonical and never lower the fuses. -/

namespace Sys2Proof.Machine

theorem swapped_kept {m0 : List Host.Cell} {f0 : Nat} (s : State) (g : BitVec 2) (sw : Bool) (hs : K m0 f0 s.mem s.fuse) :
    K m0 f0 (swapped s g sw).mem (swapped s g sw).fuse := by
  unfold swapped
  repeat' (first | with_reducible assumption | with_reducible apply setMe_kept | with_reducible intro _ | dsimp only | split)

theorem arrayOp_kept {m0 : List Host.Cell} {f0 : Nat} (tiles : List Nat) (pins : List Word) (c : ArrayCmd) (s : State) (hs : K m0 f0 s.mem s.fuse) :
    K m0 f0 (arrayOp tiles pins c s).mem (arrayOp tiles pins c s).fuse := by
  unfold arrayOp
  repeat' (first | with_reducible assumption | with_reducible apply newOp_kept | with_reducible intro _ | dsimp only | split)

theorem execMm_kept {m0 : List Host.Cell} {f0 : Nat} (g : BitVec 4) (acc : BitVec 3) (t : BitVec 4) (sg : BitVec 2) (sw : Bool) (fmt : BitVec 4) (q : BitVec 3) (scl : Bool) (s : State) (hs : K m0 f0 s.mem s.fuse) :
    K.out m0 f0 (execMm g acc t sg sw fmt q scl s) := by
  unfold execMm
  repeat' (first | with_reducible assumption | with_reducible refine K.of_out ‹_› ?_ | with_reducible refine K.of_body ‹_› ?_ | with_reducible apply slotStep_kept | with_reducible apply arrayOp_kept | with_reducible apply swapped_kept | with_reducible apply K.out_next | with_reducible apply K.out_fault | with_reducible apply K.out_refused | with_reducible apply K.body_ok | with_reducible apply K.body_error | with_reducible intro _ | dsimp only | split)

theorem execMmcmp_kept {m0 : List Host.Cell} {f0 : Nat} (g : BitVec 4) (acc : BitVec 3) (t : BitVec 4) (sg : BitVec 2) (sw : Bool) (fmt : BitVec 4) (s : State) (hs : K m0 f0 s.mem s.fuse) :
    K.out m0 f0 (execMmcmp g acc t sg sw fmt s) := by
  unfold execMmcmp
  repeat' (first | with_reducible assumption | with_reducible refine K.of_out ‹_› ?_ | with_reducible refine K.of_body ‹_› ?_ | with_reducible apply slotStep_kept | with_reducible apply arrayOp_kept | with_reducible apply swapped_kept | with_reducible apply K.out_next | with_reducible apply K.out_fault | with_reducible apply K.out_refused | with_reducible apply K.body_ok | with_reducible apply K.body_error | with_reducible intro _ | dsimp only | split)

theorem execMstatTile_kept {m0 : List Host.Cell} {f0 : Nat} (g : BitVec 4) (t : BitVec 3) (sg : BitVec 2) (sw : Bool) (fmt : BitVec 4) (s : State) (hs : K m0 f0 s.mem s.fuse) :
    K.out m0 f0 (execMstatTile g t sg sw fmt s) := by
  unfold execMstatTile
  repeat' (first | with_reducible assumption | with_reducible refine K.of_out ‹_› ?_ | with_reducible refine K.of_body ‹_› ?_ | with_reducible apply slotStep_kept | with_reducible apply arrayOp_kept | with_reducible apply swapped_kept | with_reducible apply K.out_next | with_reducible apply K.out_fault | with_reducible apply K.out_refused | with_reducible apply K.body_ok | with_reducible apply K.body_error | with_reducible intro _ | dsimp only | split)

theorem execMstatHandle_kept {m0 : List Host.Cell} {f0 : Nat} (g : BitVec 4) (a : BitVec 6) (sg : BitVec 2) (sw : Bool) (fmt : BitVec 4) (s : State) (hs : K m0 f0 s.mem s.fuse) :
    K.out m0 f0 (execMstatHandle g a sg sw fmt s) := by
  unfold execMstatHandle
  repeat' (first | with_reducible assumption | with_reducible refine K.of_out ‹_› ?_ | with_reducible refine K.of_body ‹_› ?_ | with_reducible apply slotStep_kept | with_reducible apply afterCheck_kept | with_reducible apply arrayOp_kept | with_reducible apply swapped_kept | with_reducible apply K.out_next | with_reducible apply K.out_fault | with_reducible apply K.out_refused | with_reducible apply K.body_ok | with_reducible apply K.body_error | with_reducible intro _ | dsimp only | split)

theorem execMswap_kept {m0 : List Host.Cell} {f0 : Nat} (g : BitVec 4) (s : State) (hs : K m0 f0 s.mem s.fuse) :
    K.out m0 f0 (execMswap g s) := by
  unfold execMswap
  repeat' (first | with_reducible assumption | with_reducible refine K.of_out ‹_› ?_ | with_reducible refine K.of_body ‹_› ?_ | with_reducible apply slotStep_kept | with_reducible apply arrayOp_kept | with_reducible apply K.out_next | with_reducible apply K.out_fault | with_reducible apply K.out_refused | with_reducible apply K.body_ok | with_reducible apply K.body_error | with_reducible intro _ | dsimp only | split)

theorem execLease_kept {m0 : List Host.Cell} {f0 : Nat} (g : BitVec 4) (s : State) (hs : K m0 f0 s.mem s.fuse) :
    K.out m0 f0 (execLease g s) := by
  unfold execLease
  repeat' (first | with_reducible assumption | with_reducible refine K.of_out ‹_› ?_ | with_reducible refine K.of_body ‹_› ?_ | with_reducible apply slotStep_kept | with_reducible apply arrayOp_kept | with_reducible apply K.out_next | with_reducible apply K.out_fault | with_reducible apply K.out_refused | with_reducible apply K.body_ok | with_reducible apply K.body_error | with_reducible intro _ | dsimp only | split)

theorem execLrel_kept {m0 : List Host.Cell} {f0 : Nat} (g : BitVec 4) (s : State) (hs : K m0 f0 s.mem s.fuse) :
    K.out m0 f0 (execLrel g s) := by
  unfold execLrel
  repeat' (first | with_reducible assumption | with_reducible refine K.of_out ‹_› ?_ | with_reducible refine K.of_body ‹_› ?_ | with_reducible apply slotStep_kept | with_reducible apply arrayOp_kept | with_reducible apply K.out_next | with_reducible apply K.out_fault | with_reducible apply K.out_refused | with_reducible apply K.body_ok | with_reducible apply K.body_error | with_reducible intro _ | dsimp only | split)

theorem execAcczeroFp_kept {m0 : List Host.Cell} {f0 : Nat} (g : BitVec 4) (acc : BitVec 3) (t : BitVec 4) (s : State) (hs : K m0 f0 s.mem s.fuse) :
    K.out m0 f0 (execAcczeroFp g acc t s) := by
  unfold execAcczeroFp
  repeat' (first | with_reducible assumption | with_reducible refine K.of_out ‹_› ?_ | with_reducible refine K.of_body ‹_› ?_ | with_reducible apply slotStep_kept | with_reducible apply arrayOp_kept | with_reducible apply K.out_next | with_reducible apply K.out_fault | with_reducible apply K.out_refused | with_reducible apply K.body_ok | with_reducible apply K.body_error | with_reducible intro _ | dsimp only | split)

theorem execAcczeroInt_kept {m0 : List Host.Cell} {f0 : Nat} (g : BitVec 4) (acc : BitVec 3) (s : State) (hs : K m0 f0 s.mem s.fuse) :
    K.out m0 f0 (execAcczeroInt g acc s) := by
  unfold execAcczeroInt
  repeat' (first | with_reducible assumption | with_reducible refine K.of_out ‹_› ?_ | with_reducible refine K.of_body ‹_› ?_ | with_reducible apply slotStep_kept | with_reducible apply arrayOp_kept | with_reducible apply K.out_next | with_reducible apply K.out_fault | with_reducible apply K.out_refused | with_reducible apply K.body_ok | with_reducible apply K.body_error | with_reducible intro _ | dsimp only | split)

theorem execAccld_kept {m0 : List Host.Cell} {f0 : Nat} (g : BitVec 4) (acc : BitVec 3) (t : BitVec 4) (sg : BitVec 2) (sw : Bool) (fmt : BitVec 4) (hi : Bool) (s : State) (hs : K m0 f0 s.mem s.fuse) :
    K.out m0 f0 (execAccld g acc t sg sw fmt hi s) := by
  unfold execAccld
  repeat' (first | with_reducible assumption | with_reducible refine K.of_out ‹_› ?_ | with_reducible refine K.of_body ‹_› ?_ | with_reducible apply slotStep_kept | with_reducible apply arrayOp_kept | with_reducible apply swapped_kept | with_reducible apply K.out_next | with_reducible apply K.out_fault | with_reducible apply K.out_refused | with_reducible apply K.body_ok | with_reducible apply K.body_error | with_reducible intro _ | dsimp only | split)

theorem execAccnorm_kept {m0 : List Host.Cell} {f0 : Nat} (g : BitVec 4) (acc : BitVec 3) (t : BitVec 4) (sg : BitVec 2) (sw : Bool) (s : State) (hs : K m0 f0 s.mem s.fuse) :
    K.out m0 f0 (execAccnorm g acc t sg sw s) := by
  unfold execAccnorm
  repeat' (first | with_reducible assumption | with_reducible refine K.of_out ‹_› ?_ | with_reducible refine K.of_body ‹_› ?_ | with_reducible apply slotStep_kept | with_reducible apply arrayOp_kept | with_reducible apply swapped_kept | with_reducible apply K.out_next | with_reducible apply K.out_fault | with_reducible apply K.out_refused | with_reducible apply K.body_ok | with_reducible apply K.body_error | with_reducible intro _ | dsimp only | split)

theorem execAccchk_kept {m0 : List Host.Cell} {f0 : Nat} (g : BitVec 4) (acc : BitVec 3) (s : State) (hs : K m0 f0 s.mem s.fuse) :
    K.out m0 f0 (execAccchk g acc s) := by
  unfold execAccchk
  repeat' (first | with_reducible assumption | with_reducible refine K.of_out ‹_› ?_ | with_reducible refine K.of_body ‹_› ?_ | with_reducible apply slotStep_kept | with_reducible apply arrayOp_kept | with_reducible apply K.out_next | with_reducible apply K.out_fault | with_reducible apply K.out_refused | with_reducible apply K.body_ok | with_reducible apply K.body_error | with_reducible intro _ | dsimp only | split)

theorem execAccdrain_kept {m0 : List Host.Cell} {f0 : Nat} (g : BitVec 4) (acc : BitVec 3) (t : BitVec 4) (sg : BitVec 2) (sw : Bool) (fmt : BitVec 4) (q x : BitVec 3) (s : State) (hs : K m0 f0 s.mem s.fuse) :
    K.out m0 f0 (execAccdrain g acc t sg sw fmt q x s) := by
  unfold execAccdrain
  repeat' (first | with_reducible assumption | with_reducible refine K.of_out ‹_› ?_ | with_reducible refine K.of_body ‹_› ?_ | with_reducible apply slotStep_kept | with_reducible apply arrayOp_kept | with_reducible apply swapped_kept | with_reducible apply K.out_next | with_reducible apply K.out_fault | with_reducible apply K.out_refused | with_reducible apply K.body_ok | with_reducible apply K.body_error | with_reducible intro _ | dsimp only | split)

theorem execFold_kept {m0 : List Host.Cell} {f0 : Nat} (g : BitVec 4) (acc : BitVec 3) (sg : BitVec 2) (sw : Bool) (s : State) (hs : K m0 f0 s.mem s.fuse) :
    K.out m0 f0 (execFold g acc sg sw s) := by
  unfold execFold
  repeat' (first | with_reducible assumption | with_reducible refine K.of_out ‹_› ?_ | with_reducible refine K.of_body ‹_› ?_ | with_reducible apply slotStep_kept | with_reducible apply arrayOp_kept | with_reducible apply swapped_kept | with_reducible apply K.out_next | with_reducible apply K.out_fault | with_reducible apply K.out_refused | with_reducible apply K.body_ok | with_reducible apply K.body_error | with_reducible intro _ | dsimp only | split)

theorem passInputs_kept {m0 : List Host.Cell} {f0 : Nat} (s : State) (q : Nat) (c : PlacedCall) (h : Home) (hs : K m0 f0 s.mem s.fuse) :
    K m0 f0 (passInputs s q c h).mem (passInputs s q c h).fuse := by
  unfold passInputs
  repeat' (first | with_reducible assumption | with_reducible apply passUncached_kept | with_reducible apply passLine_kept | with_reducible apply foldl_kept | with_reducible intro _ | dsimp only | split)

theorem placedBody_kept {m0 : List Host.Cell} {f0 : Nat} (c : PlacedCall) (s : State) (hs : K m0 f0 s.mem s.fuse) :
    K.body m0 f0 (placedBody c s) := by
  unfold placedBody
  repeat' (first | with_reducible assumption | with_reducible refine K.of_out ‹_› ?_ | with_reducible refine K.of_body ‹_› ?_ | with_reducible apply passInputs_kept | with_reducible apply dropRequests_kept | with_reducible apply swapped_kept | with_reducible apply newOp_kept | with_reducible apply K.out_next | with_reducible apply K.out_fault | with_reducible apply K.out_refused | with_reducible apply K.body_ok | with_reducible apply K.body_error | with_reducible intro _ | dsimp only | split)

theorem placedStep_kept {m0 : List Host.Cell} {f0 : Nat} (i : Instr) (s : State) (hs : K m0 f0 s.mem s.fuse) :
    K.out m0 f0 (placedStep i s) := by
  unfold placedStep
  repeat' (first | with_reducible assumption | with_reducible refine K.of_out ‹_› ?_ | with_reducible refine K.of_body ‹_› ?_ | with_reducible apply slotStep_kept | with_reducible apply placedBody_kept | with_reducible apply K.out_next | with_reducible apply K.out_fault | with_reducible apply K.out_refused | with_reducible apply K.body_ok | with_reducible apply K.body_error | with_reducible intro _ | dsimp only | split)

theorem execTadd_kept {m0 : List Host.Cell} {f0 : Nat} (g vd va vb fmt : BitVec 4) (sg : BitVec 2) (sw : Bool) (s : State) (hs : K m0 f0 s.mem s.fuse) :
    K.out m0 f0 (execTadd g vd va vb fmt sg sw s) := by
  unfold execTadd
  repeat' (first | with_reducible assumption | with_reducible refine K.of_out ‹_› ?_ | with_reducible refine K.of_body ‹_› ?_ | with_reducible apply placedStep_kept | with_reducible apply K.out_next | with_reducible apply K.out_fault | with_reducible apply K.out_refused | with_reducible apply K.body_ok | with_reducible apply K.body_error | with_reducible intro _ | dsimp only | split)

theorem execTsub_kept {m0 : List Host.Cell} {f0 : Nat} (g vd va vb fmt : BitVec 4) (sg : BitVec 2) (sw : Bool) (s : State) (hs : K m0 f0 s.mem s.fuse) :
    K.out m0 f0 (execTsub g vd va vb fmt sg sw s) := by
  unfold execTsub
  repeat' (first | with_reducible assumption | with_reducible refine K.of_out ‹_› ?_ | with_reducible refine K.of_body ‹_› ?_ | with_reducible apply placedStep_kept | with_reducible apply K.out_next | with_reducible apply K.out_fault | with_reducible apply K.out_refused | with_reducible apply K.body_ok | with_reducible apply K.body_error | with_reducible intro _ | dsimp only | split)

theorem execTmul_kept {m0 : List Host.Cell} {f0 : Nat} (g vd va vb fmt : BitVec 4) (sg : BitVec 2) (sw : Bool) (s : State) (hs : K m0 f0 s.mem s.fuse) :
    K.out m0 f0 (execTmul g vd va vb fmt sg sw s) := by
  unfold execTmul
  repeat' (first | with_reducible assumption | with_reducible refine K.of_out ‹_› ?_ | with_reducible refine K.of_body ‹_› ?_ | with_reducible apply placedStep_kept | with_reducible apply K.out_next | with_reducible apply K.out_fault | with_reducible apply K.out_refused | with_reducible apply K.body_ok | with_reducible apply K.body_error | with_reducible intro _ | dsimp only | split)

theorem execTmax_kept {m0 : List Host.Cell} {f0 : Nat} (g vd va vb fmt : BitVec 4) (sg : BitVec 2) (sw : Bool) (s : State) (hs : K m0 f0 s.mem s.fuse) :
    K.out m0 f0 (execTmax g vd va vb fmt sg sw s) := by
  unfold execTmax
  repeat' (first | with_reducible assumption | with_reducible refine K.of_out ‹_› ?_ | with_reducible refine K.of_body ‹_› ?_ | with_reducible apply placedStep_kept | with_reducible apply K.out_next | with_reducible apply K.out_fault | with_reducible apply K.out_refused | with_reducible apply K.body_ok | with_reducible apply K.body_error | with_reducible intro _ | dsimp only | split)

theorem execTred_kept {m0 : List Host.Cell} {f0 : Nat} (g vd va fmt : BitVec 4) (sg : BitVec 2) (sw : Bool) (s : State) (hs : K m0 f0 s.mem s.fuse) :
    K.out m0 f0 (execTred g vd va fmt sg sw s) := by
  unfold execTred
  repeat' (first | with_reducible assumption | with_reducible refine K.of_out ‹_› ?_ | with_reducible refine K.of_body ‹_› ?_ | with_reducible apply placedStep_kept | with_reducible apply K.out_next | with_reducible apply K.out_fault | with_reducible apply K.out_refused | with_reducible apply K.body_ok | with_reducible apply K.body_error | with_reducible intro _ | dsimp only | split)

theorem execTmv_kept {m0 : List Host.Cell} {f0 : Nat} (g vd va vb fmt : BitVec 4) (sg : BitVec 2) (sw : Bool) (s : State) (hs : K m0 f0 s.mem s.fuse) :
    K.out m0 f0 (execTmv g vd va vb fmt sg sw s) := by
  unfold execTmv
  repeat' (first | with_reducible assumption | with_reducible refine K.of_out ‹_› ?_ | with_reducible refine K.of_body ‹_› ?_ | with_reducible apply placedStep_kept | with_reducible apply K.out_next | with_reducible apply K.out_fault | with_reducible apply K.out_refused | with_reducible apply K.body_ok | with_reducible apply K.body_error | with_reducible intro _ | dsimp only | split)

theorem execTmm_kept {m0 : List Host.Cell} {f0 : Nat} (g vd va vb fmt : BitVec 4) (sg : BitVec 2) (sw : Bool) (s : State) (hs : K m0 f0 s.mem s.fuse) :
    K.out m0 f0 (execTmm g vd va vb fmt sg sw s) := by
  unfold execTmm
  repeat' (first | with_reducible assumption | with_reducible refine K.of_out ‹_› ?_ | with_reducible refine K.of_body ‹_› ?_ | with_reducible apply placedStep_kept | with_reducible apply K.out_next | with_reducible apply K.out_fault | with_reducible apply K.out_refused | with_reducible apply K.body_ok | with_reducible apply K.body_error | with_reducible intro _ | dsimp only | split)

theorem bankOp_kept {m0 : List Host.Cell} {f0 : Nat} (s : State) (tiles : List Nat) (c : BankCmd) (hs : K m0 f0 s.mem s.fuse) :
    K m0 f0 (bankOp s tiles c).mem (bankOp s tiles c).fuse := by
  unfold bankOp
  repeat' (first | with_reducible assumption | with_reducible apply newOp_kept | with_reducible intro _ | dsimp only | split)

theorem execPabm_kept {m0 : List Host.Cell} {f0 : Nat} (g : BitVec 4) (a : BitVec 6) (t rs : BitVec 4) (s : State) (hs : K m0 f0 s.mem s.fuse) :
    K.out m0 f0 (execPabm g a t rs s) := by
  unfold execPabm
  repeat' (first | with_reducible assumption | with_reducible refine K.of_out ‹_› ?_ | with_reducible refine K.of_body ‹_› ?_ | with_reducible apply slotStep_kept | with_reducible apply bankOp_kept | with_reducible apply K.out_next | with_reducible apply K.out_fault | with_reducible apply K.out_refused | with_reducible apply K.body_ok | with_reducible apply K.body_error | with_reducible intro _ | dsimp only | split)

theorem execPbcast_kept {m0 : List Host.Cell} {f0 : Nat} (g : BitVec 4) (a : BitVec 6) (t rs : BitVec 4) (s : State) (hs : K m0 f0 s.mem s.fuse) :
    K.out m0 f0 (execPbcast g a t rs s) := by
  unfold execPbcast
  repeat' (first | with_reducible assumption | with_reducible refine K.of_out ‹_› ?_ | with_reducible refine K.of_body ‹_› ?_ | with_reducible apply slotStep_kept | with_reducible apply bankOp_kept | with_reducible apply K.out_next | with_reducible apply K.out_fault | with_reducible apply K.out_refused | with_reducible apply K.body_ok | with_reducible apply K.body_error | with_reducible intro _ | dsimp only | split)

theorem execPmac_kept {m0 : List Host.Cell} {f0 : Nat} (g : BitVec 4) (a : BitVec 6) (t rs : BitVec 4) (s : State) (hs : K m0 f0 s.mem s.fuse) :
    K.out m0 f0 (execPmac g a t rs s) := by
  unfold execPmac
  repeat' (first | with_reducible assumption | with_reducible refine K.of_out ‹_› ?_ | with_reducible refine K.of_body ‹_› ?_ | with_reducible apply slotStep_kept | with_reducible apply bankOp_kept | with_reducible apply K.out_next | with_reducible apply K.out_fault | with_reducible apply K.out_refused | with_reducible apply K.body_ok | with_reducible apply K.body_error | with_reducible intro _ | dsimp only | split)

theorem execPread_kept {m0 : List Host.Cell} {f0 : Nat} (g : BitVec 4) (a : BitVec 6) (t rs : BitVec 4) (s : State) (hs : K m0 f0 s.mem s.fuse) :
    K.out m0 f0 (execPread g a t rs s) := by
  unfold execPread
  repeat' (first | with_reducible assumption | with_reducible refine K.of_out ‹_› ?_ | with_reducible refine K.of_body ‹_› ?_ | with_reducible apply slotStep_kept | with_reducible apply bankOp_kept | with_reducible apply K.out_next | with_reducible apply K.out_fault | with_reducible apply K.out_refused | with_reducible apply K.body_ok | with_reducible apply K.body_error | with_reducible intro _ | dsimp only | split)

theorem execPexit_kept {m0 : List Host.Cell} {f0 : Nat} (g : BitVec 4) (a : BitVec 6) (s : State) (hs : K m0 f0 s.mem s.fuse) :
    K.out m0 f0 (execPexit g a s) := by
  unfold execPexit
  repeat' (first | with_reducible assumption | with_reducible refine K.of_out ‹_› ?_ | with_reducible refine K.of_body ‹_› ?_ | with_reducible apply slotStep_kept | with_reducible apply bankOp_kept | with_reducible apply K.out_next | with_reducible apply K.out_fault | with_reducible apply K.out_refused | with_reducible apply K.body_ok | with_reducible apply K.body_error | with_reducible intro _ | dsimp only | split)

end Sys2Proof.Machine
end

