-- ==== Sys2Proof/Laws/KeptSlots.lean ====
section
/-! SUPPORT. Sys2Proof/Laws/KeptSlots.lean: the operations of Machine/Slots.lean keep memory canonical and never lower the fuses. -/

namespace Sys2Proof.Machine

theorem runSlot_kept {m0 : List Host.Cell} {f0 : Nat} (i : Instr) (s : State) (hs : K m0 f0 s.mem s.fuse) :
    K.out m0 f0 (runSlot i s) := by
  cases i with
  | bundleIssue q => exact K.out_next hs
  | pendingWriteLanding q => exact K.out_next hs
  | bundleSkip q => exact K.out_next hs
  | loopExit q => exact K.out_next hs
  | delayExpire q => exact K.out_next hs
  | starvationGuard core => exact K.out_next hs
  | variableResultArrival op => exact K.out_next hs
  | tileWriteComplete op => exact K.out_next hs
  | viewAccessPerform op => exact K.out_next hs
  | engineFault q => exact K.out_next hs
  | containedUnwind q => exact K.out_next hs
  | copyStart core cq => exact K.out_next hs
  | copyComplete op => exact K.out_next hs
  | retireComplete op => exact K.out_next hs
  | leaseGrant quad c => exact K.out_next hs
  | leaseBoundExpiry quad => exact K.out_next hs
  | arrayCommandRun quad c => exact K.out_next hs
  | placedWriteback op => exact K.out_next hs
  | bankCommandRun q => exact K.out_next hs
  | atomicBankOperation op elem => exact K.out_next hs
  | translationWalkComplete die asid vpn => exact K.out_next hs
  | sendFull q => exact K.out_next hs
  | waymaskChangeComplete die slice => exact K.out_next hs
  | remoteWaysChangeComplete die slice => exact K.out_next hs
  | xlinvComplete die => exact K.out_next hs
  | teamPlace die => exact K.out_next hs
  | cohortPlace die => exact K.out_next hs
  | launchViewRegister die task => exact K.out_next hs
  | timedStart q => exact K.out_next hs
  | preemptDecision die => exact K.out_next hs
  | preemptReevaluate die => exact K.out_next hs
  | checkpointWrite task team => exact K.out_next hs
  | teamRestore task team => exact K.out_next hs
  | taskComplete task => exact K.out_next hs
  | pkgBarrierMessage msg => exact K.out_next hs
  | lineInvalidate op => exact K.out_next hs
  | hqNop n => exact K.out_next hs
  | hqLaunch n => exact K.out_next hs
  | hqTimedLaunch n => exact K.out_next hs
  | hqFence n => exact K.out_next hs
  | hqInvalid n => exact K.out_next hs
  | hqEntryComplete n entry => exact K.out_next hs
  | coolLowflow zone => exact K.out_next hs
  | coolOvertemp zone => exact K.out_next hs
  | coolDry zone => exact K.out_next hs
  | evacDrainTimeout zone => exact K.out_next hs
  | evacValveClosed zone => exact K.out_next hs
  | evacPurgeDone zone => exact K.out_next hs
  | evacVerifyDone zone => exact K.out_next hs
  | zoneReady zone => exact K.out_next hs
  | lost die => exact K.out_next hs
  | resync die => exact K.out_next hs
  | stationUp station => exact K.out_next hs
  | stationDown station => exact K.out_next hs
  | remoteRequestSend req => exact K.out_next hs
  | remoteResponse req => exact K.out_next hs
  | remoteFence req => exact K.out_next hs
  | incomingRemoteRequest req => exact K.out_next hs
  | atsTranslationRequest dest va => exact K.out_next hs
  | atsTranslationResponse dest vpn val => exact K.out_next hs
  | atsInvalidation dest vpn size => exact K.out_next hs
  | gtTimeMessage dest gt => exact K.out_next hs
  | podBarrierArrival group dest => exact K.out_next hs
  | podBarrierCompletion group => exact K.out_next hs
  | podBarrierTimeout group => exact K.out_next hs
  | add l g d a b => exact execAdd_kept l g d a b s hs
  | sub l g d a b => exact execSub_kept l g d a b s hs
  | and l g d a b => exact execAnd_kept l g d a b s hs
  | or l g d a b => exact execOr_kept l g d a b s hs
  | xor l g d a b => exact execXor_kept l g d a b s hs
  | shl l g d a b => exact execShl_kept l g d a b s hs
  | shr l g d a b => exact execShr_kept l g d a b s hs
  | sra l g d a b => exact execSra_kept l g d a b s hs
  | min l g d a b => exact execMin_kept l g d a b s hs
  | max l g d a b => exact execMax_kept l g d a b s hs
  | minu l g d a b => exact execMinu_kept l g d a b s hs
  | maxu l g d a b => exact execMaxu_kept l g d a b s hs
  | mov l g d a => exact execMov_kept l g d a s hs
  | addsh l g d a b sh => exact execAddsh_kept l g d a b sh s hs
  | clz l g d a => exact execClz_kept l g d a s hs
  | mul l g d a b => exact execMul_kept l g d a b s hs
  | mulh l g d a b => exact execMulh_kept l g d a b s hs
  | mulhu l g d a b => exact execMulhu_kept l g d a b s hs
  | divu l g d a b => exact execDivu_kept l g d a b s hs
  | remu l g d a b => exact execRemu_kept l g d a b s hs
  | movi l g d imm => exact execMovi_kept l g d imm s hs
  | addi l g d imm => exact execAddi_kept l g d imm s hs
  | andi l g d imm => exact execAndi_kept l g d imm s hs
  | ori l g d imm => exact execOri_kept l g d imm s hs
  | xori l g d imm => exact execXori_kept l g d imm s hs
  | shli l g d imm => exact execShli_kept l g d imm s hs
  | shri l g d imm => exact execShri_kept l g d imm s hs
  | srai l g d imm => exact execSrai_kept l g d imm s hs
  | movh l g d imm => exact execMovh_kept l g d imm s hs
  | lidx l g d lvl => exact execLidx_kept l g d lvl s hs
  | ctlrd l g d ctl => exact execCtlrd_kept l g d ctl s hs
  | ctlwr l g src ctl => exact execCtlwr_kept l g src ctl s hs
  | gtlo l g d => exact execGtlo_kept l g d s hs
  | gthi l g d => exact execGthi_kept l g d s hs
  | cmp l g pd cc a b => exact execCmp_kept l g pd cc a b s hs
  | cmpi l g pd cc a imm => exact execCmpi_kept l g pd cc a imm s hs
  | sld l g d a off => exact execSld_kept l g d a off s hs
  | sst l g src a off => exact execSst_kept l g src a off s hs
  | qmap l g reg a => exact execQmap_kept l g reg a s hs
  | qunmap l g reg => exact execQunmap_kept l g reg s hs
  | br g disp => exact execBr_kept g disp s hs
  | call g disp => exact execCall_kept g disp s hs
  | contain g disp => exact execContain_kept g disp s hs
  | jr g a => exact execJr_kept g a s hs
  | callr g a => exact execCallr_kept g a s hs
  | loop g a len => exact execLoop_kept g a len s hs
  | loopi g cnt len => exact execLoopi_kept g cnt len s hs
  | lbrk g => exact execLbrk_kept g s hs
  | lstg g lv pm => exact execLstg_kept g lv pm s hs
  | pand g pd pa pb na nb => exact execPand_kept g pd pa pb na nb s hs
  | por g pd pa pb na nb => exact execPor_kept g pd pa pb na nb s hs
  | pxor g pd pa pb na nb => exact execPxor_kept g pd pa pb na nb s hs
  | bktj g a tbl => exact execBktj_kept g a tbl s hs
  | waitgt g a b => exact execWaitgt_kept g a b s hs
  | setest g a b => exact execSetest_kept g a b s hs
  | setts g a b => exact execSetts_kept g a b s hs
  | setrm g rm => exact execSetrm_kept g rm s hs
  | launch g a timed => exact execLaunch_kept g a timed s hs
  | bar g sc id rl aq => exact execBar_kept g sc id rl aq s hs
  | bararv g sc id rl => exact execBararv_kept g sc id rl s hs
  | barwt g sc id aq => exact execBarwt_kept g sc id aq s hs
  | fence g sc mask => exact execFence_kept g sc mask s hs
  | trap g code => exact execTrap_kept g code s hs
  | eret g => exact execEret_kept g s hs
  | exit g => exact execExit_kept g s hs
  | containend g => exact execContainend_kept g s hs
  | vadd l g fmt td ta tb rs => exact execVadd_kept l g fmt td ta tb rs s hs
  | vsub l g fmt td ta tb rs => exact execVsub_kept l g fmt td ta tb rs s hs
  | vmul l g fmt td ta tb rs => exact execVmul_kept l g fmt td ta tb rs s hs
  | vfma l g fmt td ta tb rs => exact execVfma_kept l g fmt td ta tb rs s hs
  | vmin l g fmt td ta tb rs => exact execVmin_kept l g fmt td ta tb rs s hs
  | vmax l g fmt td ta tb rs => exact execVmax_kept l g fmt td ta tb rs s hs
  | vabs l g fmt td ta rs => exact execVabs_kept l g fmt td ta rs s hs
  | vneg l g fmt td ta rs => exact execVneg_kept l g fmt td ta rs s hs
  | vmov l g fmt td ta rs => exact execVmov_kept l g fmt td ta rs s hs
  | vand l g fmt td ta tb rs => exact execVand_kept l g fmt td ta tb rs s hs
  | vor l g fmt td ta tb rs => exact execVor_kept l g fmt td ta tb rs s hs
  | vxor l g fmt td ta tb rs => exact execVxor_kept l g fmt td ta tb rs s hs
  | vshl l g fmt td ta tb rs => exact execVshl_kept l g fmt td ta tb rs s hs
  | vshr l g fmt td ta tb rs => exact execVshr_kept l g fmt td ta tb rs s hs
  | vsra l g fmt td ta tb rs => exact execVsra_kept l g fmt td ta tb rs s hs
  | vcmpeq l g fmt td ta tb rs => exact execVcmpeq_kept l g fmt td ta tb rs s hs
  | vcmplt l g fmt td ta tb rs => exact execVcmplt_kept l g fmt td ta tb rs s hs
  | vcmple l g fmt td ta tb rs => exact execVcmple_kept l g fmt td ta tb rs s hs
  | vsel l g fmt td ta tb rs => exact execVsel_kept l g fmt td ta tb rs s hs
  | vcvt l g fmt td ta fsrc rs => exact execVcvt_kept l g fmt td ta fsrc rs s hs
  | vscl l g fmt td ta q rs => exact execVscl_kept l g fmt td ta q rs s hs
  | vclmp l g fmt td ta v rs => exact execVclmp_kept l g fmt td ta v rs s hs
  | vexp2 l g fmt td ta rs => exact execVexp2_kept l g fmt td ta rs s hs
  | vrcp l g fmt td ta rs => exact execVrcp_kept l g fmt td ta rs s hs
  | vrsq l g fmt td ta rs => exact execVrsq_kept l g fmt td ta rs s hs
  | vrsum l g fmt td ta rs => exact execVrsum_kept l g fmt td ta rs s hs
  | vrmax l g fmt td ta rs => exact execVrmax_kept l g fmt td ta rs s hs
  | vrmin l g fmt td ta rs => exact execVrmin_kept l g fmt td ta rs s hs
  | vbcs l g fmt td sn rs => exact execVbcs_kept l g fmt td sn rs s hs
  | vext l g fmt sd ta sn rs => exact execVext_kept l g fmt sd ta sn rs s hs
  | vins l g fmt td sv sn rs => exact execVins_kept l g fmt td sv sn rs s hs
  | vperm l g fmt td ta tb rs => exact execVperm_kept l g fmt td ta tb rs s hs
  | vlsh l g fmt td ta sn rs => exact execVlsh_kept l g fmt td ta sn rs s hs
  | vpack l g fmt td ta tb rs => exact execVpack_kept l g fmt td ta tb rs s hs
  | vunpk l g fmt td ta half rs => exact execVunpk_kept l g fmt td ta half rs s hs
  | vadds l g fmt td ta sn rs => exact execVadds_kept l g fmt td ta sn rs s hs
  | vmuls l g fmt td ta sn rs => exact execVmuls_kept l g fmt td ta sn rs s hs
  | vfmas l g fmt td ta sn rs => exact execVfmas_kept l g fmt td ta sn rs s hs
  | tld g t v a cx cls => exact execTld_kept g t v a cx cls s hs
  | tst g t v a cx cls => exact execTst_kept g t v a cx cls s hs
  | tgath g t v a cx cls => exact execTgath_kept g t v a cx cls s hs
  | tscat g t v a cx cls => exact execTscat_kept g t v a cx cls s hs
  | pref g v a => exact execPref_kept g v a s hs
  | tspld g t a => exact execTspld_kept g t a s hs
  | tspst g t a => exact execTspst_kept g t a s hs
  | ared g t v a cx cls => exact execAred_kept g t v a cx cls s hs
  | tzero g t => exact execTzero_kept g t s hs
  | tmovt g t ts => exact execTmovt_kept g t ts s hs
  | tcopy g vd vs a cq ev => exact execTcopy_kept g vd vs a cq ev s hs
  | vopen g v mode sc cls => exact execVopen_kept g v mode sc cls s hs
  | vretire g v => exact execVretire_kept g v s hs
  | hfree g a => exact execHfree_kept g a s hs
  | waitm g d v a ord sc => exact execWaitm_kept g d v a ord sc s hs
  | aadd g d v a ord sc => exact execAadd_kept g d v a ord sc s hs
  | amin g d v a ord sc => exact execAmin_kept g d v a ord sc s hs
  | amax g d v a ord sc => exact execAmax_kept g d v a ord sc s hs
  | aminu g d v a ord sc => exact execAminu_kept g d v a ord sc s hs
  | amaxu g d v a ord sc => exact execAmaxu_kept g d v a ord sc s hs
  | aand g d v a ord sc => exact execAand_kept g d v a ord sc s hs
  | aor g d v a ord sc => exact execAor_kept g d v a ord sc s hs
  | axor g d v a ord sc => exact execAxor_kept g d v a ord sc s hs
  | axchg g d v a ord sc => exact execAxchg_kept g d v a ord sc s hs
  | acas g d v a ord sc => exact execAcas_kept g d v a ord sc s hs
  | aincb g d v a ord sc => exact execAincb_kept g d v a ord sc s hs
  | afadd g d v a ord sc => exact execAfadd_kept g d v a ord sc s hs
  | afaddh g d v a ord sc => exact execAfaddh_kept g d v a ord sc s hs
  | ald g d v a ord sc => exact execAld_kept g d v a ord sc s hs
  | ast g d v a ord sc => exact execAst_kept g d v a ord sc s hs
  | send g a t b timed => exact execSend_kept g a t b timed s hs
  | mm g acc t sg sw fmt q scl => exact execMm_kept g acc t sg sw fmt q scl s hs
  | mmcmp g acc t sg sw fmt => exact execMmcmp_kept g acc t sg sw fmt s hs
  | mstatTile g t sg sw fmt => exact execMstatTile_kept g t sg sw fmt s hs
  | mstatHandle g a sg sw fmt => exact execMstatHandle_kept g a sg sw fmt s hs
  | mswap g => exact execMswap_kept g s hs
  | lease g => exact execLease_kept g s hs
  | lrel g => exact execLrel_kept g s hs
  | acczeroFp g acc t => exact execAcczeroFp_kept g acc t s hs
  | acczeroInt g acc => exact execAcczeroInt_kept g acc s hs
  | accld g acc t sg sw fmt hi => exact execAccld_kept g acc t sg sw fmt hi s hs
  | accnorm g acc t sg sw => exact execAccnorm_kept g acc t sg sw s hs
  | accchk g acc => exact execAccchk_kept g acc s hs
  | accdrain g acc t sg sw fmt q x => exact execAccdrain_kept g acc t sg sw fmt q x s hs
  | fold g acc sg sw => exact execFold_kept g acc sg sw s hs
  | tadd g vd va vb fmt sg sw => exact execTadd_kept g vd va vb fmt sg sw s hs
  | tsub g vd va vb fmt sg sw => exact execTsub_kept g vd va vb fmt sg sw s hs
  | tmul g vd va vb fmt sg sw => exact execTmul_kept g vd va vb fmt sg sw s hs
  | tmax g vd va vb fmt sg sw => exact execTmax_kept g vd va vb fmt sg sw s hs
  | tred g vd va fmt sg sw => exact execTred_kept g vd va fmt sg sw s hs
  | tmv g vd va vb fmt sg sw => exact execTmv_kept g vd va vb fmt sg sw s hs
  | tmm g vd va vb fmt sg sw => exact execTmm_kept g vd va vb fmt sg sw s hs
  | pabm g a t rs => exact execPabm_kept g a t rs s hs
  | pbcast g a t rs => exact execPbcast_kept g a t rs s hs
  | pmac g a t rs => exact execPmac_kept g a t rs s hs
  | pread g a t rs => exact execPread_kept g a t rs s hs
  | pexit g a => exact execPexit_kept g a s hs
  | shpset g sg fld imm => exact execShpset_kept g sg fld imm s hs
  | shpcpy g sg => exact execShpcpy_kept g sg s hs
  | qld g q a n => exact execQld_kept g q a n s hs
  | qset g q a n => exact execQset_kept g q a n s hs
  | qzero g q => exact execQzero_kept g q s hs
  | vfset g v fld a => exact execVfset_kept g v fld a s hs
  | vfseti g v fld imm => exact execVfseti_kept g v fld imm s hs
  | bndset g v a b => exact execBndset_kept g v a b s hs
  | bndoff g v => exact execBndoff_kept g v s hs
  | vrow sl rd ra rb => exact execVrow_kept sl rd ra rb s hs
  | ximm tgt e => exact execXimm_kept tgt e s hs
  | messageDelivery op => exact K.out_next hs
  | owedResponseTimeout resp => exact K.out_next hs
  | atsInvalidationAnswer dest => exact K.out_next hs
  | sqctlFreeze => exact K.out_next hs
  | sqctlUnfreeze => exact K.out_next hs
  | sqctlStep => exact K.out_next hs
  | sqctlResume => exact K.out_next hs
  | sqctlResumeSkip => exact K.out_next hs
  | sliceWaymaskWrite => exact K.out_next hs
  | remoteWaysWrite => exact K.out_next hs
  | xlinvGo => exact K.out_next hs
  | ringdWrite => exact K.out_next hs
  | taskcmdRelease => exact K.out_next hs
  | taskcmdKill => exact K.out_next hs
  | hqctlWrite => exact K.out_next hs
  | notify => exact K.out_next hs
  | queueSlotAdmit => exact K.out_next hs
  | sensorSample => exact K.out_next hs
  | zctlEvac => exact K.out_next hs
  | zctlReturn => exact K.out_next hs
  | zctlWrite => exact K.out_next hs
  | trctlWrite => exact K.out_next hs
  | capstart => exact K.out_next hs
  | capstop => exact K.out_next hs
  | rpctlWrite => exact K.out_next hs
  | podidWrite => exact K.out_next hs
  | destWrite => exact K.out_next hs
  | destFencedClear => exact K.out_next hs
  | gtTimeMessageSend => exact K.out_next hs
  | powerUp => exact K.out_next hs
  | packageReset => exact K.out_next hs
  | powerOff => exact K.out_next hs
  | bootstatGo => exact K.out_next hs
  | bootstatSvnset => exact K.out_next hs
  | attctlGo => exact K.out_next hs
  | attestationComplete => exact K.out_next hs
  | registerWrite => exact K.out_next hs

end Sys2Proof.Machine
end

