-- ==== Sys2Proof/Laws/KeptBundle.lean ====
section
/-! SUPPORT. Sys2Proof/Laws/KeptBundle.lean: the operations of Machine/Bundle.lean keep memory canonical and never lower the fuses. -/

namespace Sys2Proof.Machine

theorem withCur_kept {m0 : List Host.Cell} {f0 : Nat} (s : State) (q : Nat) (f : State → State) (hs : K m0 f0 s.mem s.fuse) (hf : ∀ u, K m0 f0 u.mem u.fuse → K m0 f0 (f u).mem (f u).fuse) :
    K m0 f0 (withCur s q f).mem (withCur s q f).fuse := by
  unfold withCur
  repeat' (first | with_reducible assumption | with_reducible apply hf | with_reducible intro _ | dsimp only | split)

theorem withBundle_kept {m0 : List Host.Cell} {f0 : Nat} (v : State) (a : Word) (b : Slots) (m : BitVec 8) (hv : K m0 f0 v.mem v.fuse) :
    K m0 f0 (withBundle v a b m).mem (withBundle v a b m).fuse := by
  unfold withBundle
  repeat' (first | with_reducible assumption | with_reducible apply setMe_kept | with_reducible intro _ | dsimp only | split)

theorem released_kept {m0 : List Host.Cell} {f0 : Nat} (s : State) (hs : K m0 f0 s.mem s.fuse) :
    K m0 f0 (released s).mem (released s).fuse := by
  unfold released
  repeat' (first | with_reducible assumption | with_reducible apply endBarWait_kept | with_reducible intro _ | dsimp only | split)

theorem captureHere_kept {m0 : List Host.Cell} {f0 : Nat} (s : State) (hs : K m0 f0 s.mem s.fuse) :
    K m0 f0 (captureHere s).mem (captureHere s).fuse := by
  unfold captureHere
  repeat' (first | with_reducible assumption | with_reducible apply setMe_kept | with_reducible intro _ | dsimp only | split)

theorem prepared_kept {m0 : List Host.Cell} {f0 : Nat} (s : State) (hs : K m0 f0 s.mem s.fuse) :
    K m0 f0 (prepared s).mem (prepared s).fuse := by
  unfold prepared
  repeat' (first | with_reducible assumption | with_reducible apply captureHere_kept | with_reducible apply released_kept | with_reducible apply setMe_kept | with_reducible intro _ | dsimp only | split)

theorem countIssue_kept {m0 : List Host.Cell} {f0 : Nat} (s : State) (m : BitVec 8) (hs : K m0 f0 s.mem s.fuse) :
    K m0 f0 (countIssue s m).mem (countIssue s m).fuse := by
  unfold countIssue
  repeat' (first | with_reducible assumption | with_reducible apply setMe_kept | with_reducible intro _ | dsimp only | split)

theorem sampleTick_kept {m0 : List Host.Cell} {f0 : Nat} (s : State) (a : Word) (m : BitVec 8) (hs : K m0 f0 s.mem s.fuse) :
    K m0 f0 (sampleTick s a m).mem (sampleTick s a m).fuse := by
  unfold sampleTick
  repeat' (first | with_reducible assumption | with_reducible apply traceRecord_kept | with_reducible intro _ | dsimp only | split)

theorem runSlotAt_kept {m0 : List Host.Cell} {f0 : Nat} (s : State) (n : Nat) (hs : K m0 f0 s.mem s.fuse) :
    K m0 f0 (runSlotAt s n).mem (runSlotAt s n).fuse := by
  unfold runSlotAt
  repeat' (first | with_reducible assumption | with_reducible refine K.of_out ‹_› ?_ | with_reducible refine K.of_body ‹_› ?_ | with_reducible apply runSlot_kept | with_reducible intro _ | dsimp only | split)

theorem runSlots_kept {m0 : List Host.Cell} {f0 : Nat} (s : State) (hs : K m0 f0 s.mem s.fuse) :
    K m0 f0 (runSlots s).mem (runSlots s).fuse := by
  unfold runSlots
  repeat' (first | with_reducible assumption | with_reducible apply runSlotAt_kept | with_reducible apply foldl_kept | with_reducible intro _ | dsimp only | split)

theorem applyPositional_kept {m0 : List Host.Cell} {f0 : Nat} (a : Word) (s : State) (e : EndEffect) (hs : K m0 f0 s.mem s.fuse) :
    K m0 f0 (applyPositional a s e).mem (applyPositional a s e).fuse := by
  unfold applyPositional
  repeat' (first | with_reducible assumption | with_reducible apply softTrap_kept | with_reducible apply endStrand_kept | with_reducible apply applyEnd_kept | with_reducible intro _ | dsimp only | split)

theorem landHere_kept {m0 : List Host.Cell} {f0 : Nat} (s : State) (hs : K m0 f0 s.mem s.fuse) :
    K m0 f0 (landHere s).mem (landHere s).fuse := by
  unfold landHere
  repeat' (first | with_reducible assumption | with_reducible apply setMe_kept | with_reducible apply dropReads_kept | with_reducible apply landed_kept | with_reducible intro _ | dsimp only | split)

theorem finishBundle_kept {m0 : List Host.Cell} {f0 : Nat} (s : State) (whole : Bool) (hs : K m0 f0 s.mem s.fuse) :
    K m0 f0 (finishBundle s whole).mem (finishBundle s whole).fuse := by
  unfold finishBundle
  repeat' (first | with_reducible assumption | with_reducible apply applyEnd_kept | with_reducible apply setMe_kept | with_reducible apply applyPositional_kept | with_reducible apply slotStop_kept | with_reducible apply dropFailures_kept | with_reducible apply landHere_kept | with_reducible apply foldl_kept | with_reducible intro _ | dsimp only | split)

theorem issueTick_kept {m0 : List Host.Cell} {f0 : Nat} (s : State) (b : Slots) (m : BitVec 8) (hs : K m0 f0 s.mem s.fuse) :
    K m0 f0 (issueTick s b m).mem (issueTick s b m).fuse := by
  unfold issueTick
  repeat' (first | with_reducible assumption | with_reducible apply landed_kept | with_reducible apply passFetch_kept | with_reducible apply setMe_kept | with_reducible apply withBundle_kept | with_reducible apply sampleTick_kept | with_reducible apply countIssue_kept | with_reducible apply finishBundle_kept | with_reducible apply runSlots_kept | with_reducible intro _ | dsimp only | split)

theorem skipBundle_kept {m0 : List Host.Cell} {f0 : Nat} (s : State) (hs : K m0 f0 s.mem s.fuse) :
    K m0 f0 (skipBundle s).mem (skipBundle s).fuse := by
  unfold skipBundle
  repeat' (first | with_reducible assumption | with_reducible apply setMe_kept | with_reducible apply passFetch_kept | with_reducible apply landHere_kept | with_reducible intro _ | dsimp only | split)

theorem askSlots_kept {m0 : List Host.Cell} {f0 : Nat} (s : State) (l : List (Nat × Instr × State)) (hs : K m0 f0 s.mem s.fuse) :
    K m0 f0 (askSlots s l).mem (askSlots s l).fuse := by
  induction l generalizing s with
  | nil =>
    unfold askSlots
    repeat' (first | with_reducible assumption | with_reducible apply askHeld_kept | with_reducible apply pollHeld_kept | with_reducible apply stallHeld_kept | with_reducible apply setMe_kept | with_reducible intro _ | dsimp only | split)
  | cons x rest ih =>
    unfold askSlots
    repeat' (first | with_reducible assumption | with_reducible apply ih | with_reducible apply askHeld_kept | with_reducible apply pollHeld_kept | with_reducible apply stallHeld_kept | with_reducible apply setMe_kept | with_reducible intro _ | dsimp only | split)

theorem stallSlots_kept {m0 : List Host.Cell} {f0 : Nat} (s : State) (l : List (Nat × Instr × State)) (hs : K m0 f0 s.mem s.fuse) :
    K m0 f0 (stallSlots s l).mem (stallSlots s l).fuse := by
  unfold stallSlots
  repeat' (first | with_reducible assumption | with_reducible apply stallHeld_kept | with_reducible apply foldl_kept | with_reducible intro _ | dsimp only | split)

theorem holdBundle_kept {m0 : List Host.Cell} {f0 : Nat} (s : State) (h : Hold) (hs : K m0 f0 s.mem s.fuse) :
    K m0 f0 (holdBundle s h).mem (holdBundle s h).fuse := by
  unfold holdBundle
  repeat' (first | with_reducible assumption | with_reducible apply stallSlots_kept | with_reducible apply askSlots_kept | with_reducible apply heldCycle_kept | with_reducible apply landHere_kept | with_reducible intro _ | dsimp only | split)

theorem carryOut_kept {m0 : List Host.Cell} {f0 : Nat} (s : State) (v : Verdict) (hs : K m0 f0 s.mem s.fuse) :
    K m0 f0 (carryOut s v).mem (carryOut s v).fuse := by
  unfold carryOut
  repeat' (first | with_reducible assumption | with_reducible apply holdBundle_kept | with_reducible apply issueTrap_kept | with_reducible apply passFetch_kept | with_reducible apply skipBundle_kept | with_reducible apply issueTick_kept | with_reducible intro _ | dsimp only | split)

theorem reissueSlots_kept {m0 : List Host.Cell} {f0 : Nat} (s : State) (a : Word) (cm : BitVec 8) (hs : K m0 f0 s.mem s.fuse) :
    K m0 f0 (reissueSlots s a cm).mem (reissueSlots s a cm).fuse := by
  unfold reissueSlots
  repeat' (first | with_reducible assumption | with_reducible refine K.of_out ‹_› ?_ | with_reducible refine K.of_body ‹_› ?_ | with_reducible apply issueTrap_kept | with_reducible apply passFetch_kept | with_reducible apply setMe_kept | with_reducible apply withBundle_kept | with_reducible apply heldCycle_kept | with_reducible apply askSlots_kept | with_reducible apply finishBundle_kept | with_reducible apply runSlots_kept | with_reducible intro _ | dsimp only | split)

theorem streamCycle_kept {m0 : List Host.Cell} {f0 : Nat} (s : State) (hs : K m0 f0 s.mem s.fuse) :
    K m0 f0 (streamCycle s).mem (streamCycle s).fuse := by
  unfold streamCycle
  repeat' (first | with_reducible assumption | with_reducible apply prepared_kept | with_reducible apply reissueSlots_kept | with_reducible apply carryOut_kept | with_reducible intro _ | dsimp only | split)

theorem secondaryIssues_kept {m0 : List Host.Cell} {f0 : Nat} (s : State) (k : Nat) (hs : K m0 f0 s.mem s.fuse) :
    K m0 f0 (secondaryIssues s k).mem (secondaryIssues s k).fuse := by
  unfold secondaryIssues
  repeat' (first | with_reducible assumption | with_reducible apply withCur_kept | with_reducible apply setCore_kept | with_reducible apply streamCycle_kept | with_reducible intro _ | dsimp only | split)

theorem secondaryCollides_kept {m0 : List Host.Cell} {f0 : Nat} (s : State) (k n : Nat) (hs : K m0 f0 s.mem s.fuse) :
    K m0 f0 (secondaryCollides s k n).mem (secondaryCollides s k n).fuse := by
  unfold secondaryCollides
  repeat' (first | with_reducible assumption | with_reducible apply withCur_kept | with_reducible apply setCore_kept | with_reducible apply heldCycle_kept | with_reducible apply prepared_kept | with_reducible intro _ | dsimp only | split)

theorem guardHolds_kept {m0 : List Host.Cell} {f0 : Nat} (s : State) (hs : K m0 f0 s.mem s.fuse) :
    K m0 f0 (guardHolds s).mem (guardHolds s).fuse := by
  unfold guardHolds
  repeat' (first | with_reducible assumption | with_reducible apply prepared_kept | with_reducible apply heldCycle_kept | with_reducible apply askSlots_kept | with_reducible apply holdBundle_kept | with_reducible intro _ | dsimp only | split)

theorem starveCycle_kept {m0 : List Host.Cell} {f0 : Nat} (s : State) (k : Nat) (hs : K m0 f0 s.mem s.fuse) :
    K m0 f0 (starveCycle s k).mem (starveCycle s k).fuse := by
  unfold starveCycle
  repeat' (first | with_reducible assumption | with_reducible apply secondaryIssues_kept | with_reducible apply withCur_kept | with_reducible apply setCore_kept | with_reducible apply guardHolds_kept | with_reducible intro _ | dsimp only | split)

theorem secondaryJoins_kept {m0 : List Host.Cell} {f0 : Nat} (s : State) (k : Nat) (p m : BitVec 8) (hs : K m0 f0 s.mem s.fuse) :
    K m0 f0 (secondaryJoins s k p m).mem (secondaryJoins s k p m).fuse := by
  unfold secondaryJoins
  repeat' (first | with_reducible assumption | with_reducible apply secondaryCollides_kept | with_reducible apply secondaryIssues_kept | with_reducible intro _ | dsimp only | split)

theorem closeCycle_kept {m0 : List Host.Cell} {f0 : Nat} (s : State) (k : Nat) (hs : K m0 f0 s.mem s.fuse) :
    K m0 f0 (closeCycle s k).mem (closeCycle s k).fuse := by
  unfold closeCycle
  repeat' (first | with_reducible assumption | with_reducible apply secondaryJoins_kept | with_reducible apply starveCycle_kept | with_reducible apply secondaryIssues_kept | with_reducible apply setCore_kept | with_reducible intro _ | dsimp only | split)

theorem secondaryCycle_kept {m0 : List Host.Cell} {f0 : Nat} (s : State) (k : Nat) (hs : K m0 f0 s.mem s.fuse) :
    K m0 f0 (secondaryCycle s k).mem (secondaryCycle s k).fuse := by
  unfold secondaryCycle
  repeat' (first | with_reducible assumption | with_reducible apply secondaryJoins_kept | with_reducible apply starveCycle_kept | with_reducible apply secondaryIssues_kept | with_reducible apply withCur_kept | with_reducible apply streamCycle_kept | with_reducible intro _ | dsimp only | split)

theorem primaryCycle_kept {m0 : List Host.Cell} {f0 : Nat} (s : State) (hs : K m0 f0 s.mem s.fuse) :
    K m0 f0 (primaryCycle s).mem (primaryCycle s).fuse := by
  unfold primaryCycle
  repeat' (first | with_reducible assumption | with_reducible apply prepared_kept | with_reducible apply streamCycle_kept | with_reducible apply setCore_kept | with_reducible intro _ | dsimp only | split)

theorem bundleCycle_kept {m0 : List Host.Cell} {f0 : Nat} (s : State) (q : Nat) (hs : K m0 f0 s.mem s.fuse) :
    K m0 f0 (bundleCycle s q).mem (bundleCycle s q).fuse := by
  unfold bundleCycle
  repeat' (first | with_reducible assumption | with_reducible apply secondaryCycle_kept | with_reducible apply closeCycle_kept | with_reducible apply starveCycle_kept | with_reducible apply withCur_kept | with_reducible apply primaryCycle_kept | with_reducible intro _ | dsimp only | split)

end Sys2Proof.Machine
end

