-- ==== Sys2Proof/Laws/KeptEngines.lean ====
section
/-! SUPPORT. Sys2Proof/Laws/KeptEngines.lean: the operations of Machine/Engines.lean keep memory canonical and never lower the fuses. -/

namespace Sys2Proof.Machine

theorem spend_kept {m0 : List Host.Cell} {f0 : Nat} (s : State) (o : Op) (hs : K m0 f0 s.mem s.fuse) :
    K m0 f0 (spend s o).mem (spend s o).fuse := by
  unfold spend
  repeat' (first | with_reducible assumption | with_reducible apply setCore_kept | with_reducible intro _ | dsimp only | split)

theorem opDone_kept {m0 : List Host.Cell} {f0 : Nat} (s : State) (o : Op) (hs : K m0 f0 s.mem s.fuse) :
    K m0 f0 (opDone s o).mem (opDone s o).fuse := by
  unfold opDone
  repeat' (first | with_reducible assumption | with_reducible apply finishStrand_kept | with_reducible apply completeOp_kept | with_reducible intro _ | dsimp only | split)

theorem onOp_kept {m0 : List Host.Cell} {f0 : Nat} (s : State) (n : Nat) (may : Op → Bool) (f : State → Op → State) (hs : K m0 f0 s.mem s.fuse) (hf : ∀ u x0, K m0 f0 u.mem u.fuse → K m0 f0 (f u x0).mem (f u x0).fuse) :
    K m0 f0 (onOp s n may f).mem (onOp s n may f).fuse := by
  unfold onOp
  repeat' (first | with_reducible assumption | with_reducible apply hf | with_reducible apply finishStrand_kept | with_reducible apply spend_kept | with_reducible intro _ | dsimp only | split)

theorem tileWrite_kept {m0 : List Host.Cell} {f0 : Nat} (o : Op) (t : Nat) (s : State) (x : Nat × (Row → Row)) (hs : K m0 f0 s.mem s.fuse) :
    K m0 f0 (tileWrite o t s x).mem (tileWrite o t s x).fuse := by
  unfold tileWrite
  repeat' (first | with_reducible assumption | with_reducible apply setCore_kept | with_reducible apply setSeq_kept | with_reducible intro _ | dsimp only | split)

theorem tileWriteAll_kept {m0 : List Host.Cell} {f0 : Nat} (s : State) (o : Op) (t : Nat) (rows : List Row) (hs : K m0 f0 s.mem s.fuse) :
    K m0 f0 (tileWriteAll s o t rows).mem (tileWriteAll s o t rows).fuse := by
  unfold tileWriteAll
  repeat' (first | with_reducible assumption | with_reducible apply tileWrite_kept | with_reducible apply foldl_kept | with_reducible intro _ | dsimp only | split)

theorem performLoad_kept {m0 : List Host.Cell} {f0 : Nat} (s : State) (o : Op) (t : Nat) (rows : RowList) (v : View) (hs : K m0 f0 s.mem s.fuse) :
    K m0 f0 (performLoad s o t rows v).mem (performLoad s o t rows v).fuse := by
  unfold performLoad
  repeat' (first | with_reducible assumption | with_reducible apply requestWalks_kept | with_reducible apply failOpFree_kept | with_reducible apply askReads_kept | with_reducible apply passUncached_kept | with_reducible apply tileWriteAll_kept | with_reducible apply dropPoisoned_kept | with_reducible apply setOp_kept | with_reducible apply dropRequests_kept | with_reducible intro _ | dsimp only | split)

theorem performWrite_kept {m0 : List Host.Cell} {f0 : Nat} (s : State) (o : Op) (l : List (Nat × Byte)) (failed : State → Nat → Nat → State) (made : State → State) (hs : K m0 f0 s.mem s.fuse) (hfailed : ∀ u x0 x1, K m0 f0 u.mem u.fuse → K m0 f0 (failed u x0 x1).mem (failed u x0 x1).fuse) (hmade : ∀ u, K m0 f0 u.mem u.fuse → K m0 f0 (made u).mem (made u).fuse) :
    K m0 f0 (performWrite s o l failed made).mem (performWrite s o l failed made).fuse := by
  unfold performWrite
  repeat' (first | with_reducible assumption | with_reducible apply dropPoisoned_kept | with_reducible apply hfailed | with_reducible apply hmade | with_reducible apply writeCells_kept | with_reducible apply dropRequests_kept | with_reducible apply requestWalks_kept | with_reducible apply askWrites_kept | with_reducible intro _ | dsimp only | split)

theorem performStore_kept {m0 : List Host.Cell} {f0 : Nat} (s : State) (o : Op) (tile : List Row) (rows : RowList) (v : View) (hs : K m0 f0 s.mem s.fuse) :
    K m0 f0 (performStore s o tile rows v).mem (performStore s o tile rows v).fuse := by
  unfold performStore
  repeat' (first | with_reducible assumption | with_reducible apply performWrite_kept | with_reducible apply failOpFree_kept | with_reducible apply opDone_kept | with_reducible intro _ | dsimp only | split)

theorem endCopy_kept {m0 : List Host.Cell} {f0 : Nat} (s : State) (o : Op) (vd vs : View) (n status : Nat) (hs : K m0 f0 s.mem s.fuse) :
    K m0 f0 (endCopy s o vd vs n status).mem (endCopy s o vd vs n status).fuse := by
  unfold endCopy
  repeat' (first | with_reducible assumption | with_reducible apply passUncached_kept | with_reducible apply dropRequests_kept | with_reducible apply writeCells_kept | with_reducible apply setOp_kept | with_reducible intro _ | dsimp only | split)

theorem performCopy_kept {m0 : List Host.Cell} {f0 : Nat} (s : State) (o : Op) (vd vs : View) (hs : K m0 f0 s.mem s.fuse) :
    K m0 f0 (performCopy s o vd vs).mem (performCopy s o vd vs).fuse := by
  unfold performCopy
  repeat' (first | with_reducible assumption | with_reducible apply endCopy_kept | with_reducible apply setOp_kept | with_reducible apply requestWalks_kept | with_reducible apply askReads_kept | with_reducible apply askWrites_kept | with_reducible apply passUncached_kept | with_reducible apply dropRequests_kept | with_reducible apply writeCells_kept | with_reducible intro _ | dsimp only | split)

theorem startCopy_kept {m0 : List Host.Cell} {f0 : Nat} (s : State) (k cq : Nat) (hs : K m0 f0 s.mem s.fuse) :
    K m0 f0 (startCopy s k cq).mem (startCopy s k cq).fuse := by
  unfold startCopy
  repeat' (first | with_reducible assumption | with_reducible apply endCopy_kept | with_reducible apply spend_kept | with_reducible apply setOp_kept | with_reducible intro _ | dsimp only | split)

theorem copyEvent_kept {m0 : List Host.Cell} {f0 : Nat} (s : State) (o : Op) (status : Nat) (seqno : Word) (hs : K m0 f0 s.mem s.fuse) :
    K m0 f0 (copyEvent s o status seqno).mem (copyEvent s o status seqno).fuse := by
  unfold copyEvent
  repeat' (first | with_reducible assumption | with_reducible apply postEvent_kept | with_reducible intro _ | dsimp only | split)

theorem leaveCopy_kept {m0 : List Host.Cell} {f0 : Nat} (s : State) (o : Op) (status : Nat) (seqno : Word) (cq : Nat) (ev : Bool) (hs : K m0 f0 s.mem s.fuse) :
    K m0 f0 (leaveCopy s o status seqno cq ev).mem (leaveCopy s o status seqno cq ev).fuse := by
  unfold leaveCopy
  repeat' (first | with_reducible assumption | with_reducible apply copyEvent_kept | with_reducible apply opDone_kept | with_reducible apply finishStrand_kept | with_reducible apply failOpFree_kept | with_reducible intro _ | dsimp only | split)

theorem completeCopy_kept {m0 : List Host.Cell} {f0 : Nat} (s : State) (o : Op) (vd : View) (seqno : Word) (cq : Nat) (ev : Bool) (status : Nat) (hs : K m0 f0 s.mem s.fuse) :
    K m0 f0 (completeCopy s o vd seqno cq ev status).mem (completeCopy s o vd seqno cq ev status).fuse := by
  unfold completeCopy
  repeat' (first | with_reducible assumption | with_reducible apply leaveCopy_kept | with_reducible apply setOp_kept | with_reducible apply dropRequests_kept | with_reducible apply performWrite_kept | with_reducible intro _ | dsimp only | split)

theorem atomicAt_kept {m0 : List Host.Cell} {f0 : Nat} {s : State} {o : Op} {op : AtomicOp} {x y : Word} {sc : Nat} {mode : BitVec 2} {loc : Nat} {r : State × Word × Flags}
    (hr : atomicAt s o op x y sc mode loc = some r) (hs : K m0 f0 s.mem s.fuse) : K m0 f0 r.1.mem r.1.fuse := by
  unfold atomicAt at hr
  split at hr
  · injection hr with hr
    subst hr
    dsimp only
    apply writeCells_kept
    split
    · exact forwardLine_kept _ _ hs
    · exact hs
  · dsimp only at hr
    split at hr
    · simp at hr
    · injection hr with hr; subst hr; exact passLine_kept _ _ _ hs
  · dsimp only at hr
    split at hr
    · simp at hr
    · injection hr with hr; subst hr; exact ⟨fun w => memPutBytes_wf _ _ (hs.wf w), (forwardLine_kept s loc hs).fuse⟩

theorem atomicDone_kept {m0 : List Host.Cell} {f0 : Nat} (s : State) (o : Op) (op : AtomicOp) (old : Word) (fl : Flags) (hs : K m0 f0 s.mem s.fuse) :
    K m0 f0 (atomicDone s o op old fl).mem (atomicDone s o op old fl).fuse := by
  unfold atomicDone
  repeat' (first | with_reducible assumption | with_reducible apply opDone_kept | with_reducible apply setOp_kept | with_reducible intro _ | dsimp only | split)

theorem performAtomic_kept {m0 : List Host.Cell} {f0 : Nat} (s : State) (o : Op) (op : AtomicOp) (x y : Word) (index : Nat) (v : View) (sc mode : BitVec 2) (hs : K m0 f0 s.mem s.fuse) :
    K m0 f0 (performAtomic s o op x y index v sc mode).mem (performAtomic s o op x y index v sc mode).fuse := by
  unfold performAtomic
  repeat' (first | with_reducible assumption | with_reducible refine K.of_out ‹_› ?_ | with_reducible refine K.of_body ‹_› ?_ | with_reducible refine atomicAt_kept (r := (_, _, _)) ‹_› ?_ | with_reducible refine atomicAt_kept ‹_› ?_ | with_reducible apply requestWalks_kept | with_reducible apply failOpFree_kept | with_reducible apply addRequest_kept | with_reducible apply dropRequests_kept | with_reducible apply atomicDone_kept | with_reducible intro _ | dsimp only | split)

theorem aredDone_kept {m0 : List Host.Cell} {f0 : Nat} (s : State) (o : Op) (left : List Nat) (fl : Flags) (hs : K m0 f0 s.mem s.fuse) :
    K m0 f0 (aredDone s o left fl).mem (aredDone s o left fl).fuse := by
  unfold aredDone
  repeat' (first | with_reducible assumption | with_reducible apply opDone_kept | with_reducible apply dropRequests_kept | with_reducible apply setOp_kept | with_reducible intro _ | dsimp only | split)

theorem performAred_kept {m0 : List Host.Cell} {f0 : Nat} (s : State) (o : Op) (k : Nat) (tile : List Row) (first : Nat) (v : View) (mode : BitVec 2) (left : List Nat) (hs : K m0 f0 s.mem s.fuse) :
    K m0 f0 (performAred s o k tile first v mode left).mem (performAred s o k tile first v mode left).fuse := by
  unfold performAred
  repeat' (first | with_reducible assumption | with_reducible refine K.of_out ‹_› ?_ | with_reducible refine K.of_body ‹_› ?_ | with_reducible refine atomicAt_kept (r := (_, _, _)) ‹_› ?_ | with_reducible refine atomicAt_kept ‹_› ?_ | with_reducible apply opDone_kept | with_reducible apply requestWalks_kept | with_reducible apply failOpFree_kept | with_reducible apply addRequest_kept | with_reducible apply removeRequest_kept | with_reducible apply aredDone_kept | with_reducible intro _ | dsimp only | split)

theorem landAtomic_kept {m0 : List Host.Cell} {f0 : Nat} (s : State) (o : Op) (hs : K m0 f0 s.mem s.fuse) :
    K m0 f0 (landAtomic s o).mem (landAtomic s o).fuse := by
  unfold landAtomic
  repeat' (first | with_reducible assumption | with_reducible apply opDone_kept | with_reducible apply setSeq_kept | with_reducible intro _ | dsimp only | split)

theorem landArrived_kept {m0 : List Host.Cell} {f0 : Nat} (s : State) (q : Nat) (hs : K m0 f0 s.mem s.fuse) :
    K m0 f0 (landArrived s q).mem (landArrived s q).fuse := by
  unfold landArrived
  repeat' (first | with_reducible assumption | with_reducible apply landAtomic_kept | with_reducible apply setSeq_kept | with_reducible apply foldl_kept | with_reducible intro _ | dsimp only | split)

theorem resultArrives_kept {m0 : List Host.Cell} {f0 : Nat} (s : State) (n : Nat) (hs : K m0 f0 s.mem s.fuse) :
    K m0 f0 (resultArrives s n).mem (resultArrives s n).fuse := by
  unfold resultArrives
  repeat' (first | with_reducible assumption | with_reducible apply onOp_kept | with_reducible apply setSeq_kept | with_reducible apply landAtomic_kept | with_reducible intro _ | dsimp only | split)

theorem retireCompletes_kept {m0 : List Host.Cell} {f0 : Nat} (s : State) (n : Nat) (hs : K m0 f0 s.mem s.fuse) :
    K m0 f0 (retireCompletes s n).mem (retireCompletes s n).fuse := by
  unfold retireCompletes
  repeat' (first | with_reducible assumption | with_reducible apply onOp_kept | with_reducible apply setSeq_kept | with_reducible apply unregisterView_kept | with_reducible apply opDone_kept | with_reducible apply recordPoison_kept | with_reducible intro _ | dsimp only | split)

theorem deliverRow_kept {m0 : List Host.Cell} {f0 : Nat} (s : State) (k n : Nat) (row : Row) (hs : K m0 f0 s.mem s.fuse) :
    K m0 f0 (deliverRow s k n row).mem (deliverRow s k n row).fuse := by
  unfold deliverRow
  repeat' (first | with_reducible assumption | with_reducible apply setCore_kept | with_reducible intro _ | dsimp only | split)

theorem deliver_kept {m0 : List Host.Cell} {f0 : Nat} (s : State) (n : Nat) (hs : K m0 f0 s.mem s.fuse) :
    K m0 f0 (deliver s n).mem (deliver s n).fuse := by
  unfold deliver
  repeat' (first | with_reducible assumption | with_reducible apply onOp_kept | with_reducible apply failOp_kept | with_reducible apply opDone_kept | with_reducible apply deliverRow_kept | with_reducible apply failOpFree_kept | with_reducible apply addRequest_kept | with_reducible apply dropRequests_kept | with_reducible intro _ | dsimp only | split)

theorem accessPerforms_kept {m0 : List Host.Cell} {f0 : Nat} (s : State) (n : Nat) (hs : K m0 f0 s.mem s.fuse) :
    K m0 f0 (accessPerforms s n).mem (accessPerforms s n).fuse := by
  unfold accessPerforms
  repeat' (first | with_reducible assumption | with_reducible apply onOp_kept | with_reducible apply performLoad_kept | with_reducible apply performStore_kept | with_reducible apply opDone_kept | with_reducible apply setCore_kept | with_reducible apply performCopy_kept | with_reducible intro _ | dsimp only | split)

theorem tileCompletes_kept {m0 : List Host.Cell} {f0 : Nat} (s : State) (n : Nat) (hs : K m0 f0 s.mem s.fuse) :
    K m0 f0 (tileCompletes s n).mem (tileCompletes s n).fuse := by
  unfold tileCompletes
  repeat' (first | with_reducible assumption | with_reducible apply onOp_kept | with_reducible apply opDone_kept | with_reducible apply tileWriteAll_kept | with_reducible intro _ | dsimp only | split)

theorem copyCompletes_kept {m0 : List Host.Cell} {f0 : Nat} (s : State) (n : Nat) (hs : K m0 f0 s.mem s.fuse) :
    K m0 f0 (copyCompletes s n).mem (copyCompletes s n).fuse := by
  unfold copyCompletes
  repeat' (first | with_reducible assumption | with_reducible apply onOp_kept | with_reducible apply completeCopy_kept | with_reducible intro _ | dsimp only | split)

theorem bankOperates_kept {m0 : List Host.Cell} {f0 : Nat} (s : State) (n k : Nat) (hs : K m0 f0 s.mem s.fuse) :
    K m0 f0 (bankOperates s n k).mem (bankOperates s n k).fuse := by
  unfold bankOperates
  repeat' (first | with_reducible assumption | with_reducible apply onOp_kept | with_reducible apply performAtomic_kept | with_reducible apply performAred_kept | with_reducible intro _ | dsimp only | split)

theorem endDrained_kept {m0 : List Host.Cell} {f0 : Nat} (s : State) (n : Nat) (hs : K m0 f0 s.mem s.fuse) :
    K m0 f0 (endDrained s n).mem (endDrained s n).fuse := by
  unfold endDrained
  repeat' (first | with_reducible assumption | with_reducible apply finishStrand_kept | with_reducible apply pruneFences_kept | with_reducible apply dropOp_kept | with_reducible intro _ | dsimp only | split)

theorem lineInvalidates_kept {m0 : List Host.Cell} {f0 : Nat} (s : State) (n : Nat) (hs : K m0 f0 s.mem s.fuse) :
    K m0 f0 (lineInvalidates s n).mem (lineInvalidates s n).fuse := by
  unfold lineInvalidates
  repeat' (first | with_reducible assumption | with_reducible apply endDrained_kept | with_reducible apply performForward_kept | with_reducible intro _ | dsimp only | split)

theorem execTileWriteComplete_kept {m0 : List Host.Cell} {f0 : Nat} (op : Nat) (s : State) (hs : K m0 f0 s.mem s.fuse) :
    K.out m0 f0 (execTileWriteComplete op s) := by
  unfold execTileWriteComplete
  repeat' (first | with_reducible assumption | with_reducible refine K.of_out ‹_› ?_ | with_reducible refine K.of_body ‹_› ?_ | with_reducible apply tileCompletes_kept | with_reducible apply K.out_next | with_reducible apply K.out_fault | with_reducible apply K.out_refused | with_reducible apply K.body_ok | with_reducible apply K.body_error | with_reducible intro _ | dsimp only | split)

theorem execViewAccessPerform_kept {m0 : List Host.Cell} {f0 : Nat} (op : Nat) (s : State) (hs : K m0 f0 s.mem s.fuse) :
    K.out m0 f0 (execViewAccessPerform op s) := by
  unfold execViewAccessPerform
  repeat' (first | with_reducible assumption | with_reducible refine K.of_out ‹_› ?_ | with_reducible refine K.of_body ‹_› ?_ | with_reducible apply accessPerforms_kept | with_reducible apply K.out_next | with_reducible apply K.out_fault | with_reducible apply K.out_refused | with_reducible apply K.body_ok | with_reducible apply K.body_error | with_reducible intro _ | dsimp only | split)

theorem execCopyStart_kept {m0 : List Host.Cell} {f0 : Nat} (core cq : Nat) (s : State) (hs : K m0 f0 s.mem s.fuse) :
    K.out m0 f0 (execCopyStart core cq s) := by
  unfold execCopyStart
  repeat' (first | with_reducible assumption | with_reducible refine K.of_out ‹_› ?_ | with_reducible refine K.of_body ‹_› ?_ | with_reducible apply startCopy_kept | with_reducible apply K.out_next | with_reducible apply K.out_fault | with_reducible apply K.out_refused | with_reducible apply K.body_ok | with_reducible apply K.body_error | with_reducible intro _ | dsimp only | split)

theorem execCopyComplete_kept {m0 : List Host.Cell} {f0 : Nat} (op : Nat) (s : State) (hs : K m0 f0 s.mem s.fuse) :
    K.out m0 f0 (execCopyComplete op s) := by
  unfold execCopyComplete
  repeat' (first | with_reducible assumption | with_reducible refine K.of_out ‹_› ?_ | with_reducible refine K.of_body ‹_› ?_ | with_reducible apply copyCompletes_kept | with_reducible apply K.out_next | with_reducible apply K.out_fault | with_reducible apply K.out_refused | with_reducible apply K.body_ok | with_reducible apply K.body_error | with_reducible intro _ | dsimp only | split)

theorem execRetireComplete_kept {m0 : List Host.Cell} {f0 : Nat} (op : Nat) (s : State) (hs : K m0 f0 s.mem s.fuse) :
    K.out m0 f0 (execRetireComplete op s) := by
  unfold execRetireComplete
  repeat' (first | with_reducible assumption | with_reducible refine K.of_out ‹_› ?_ | with_reducible refine K.of_body ‹_› ?_ | with_reducible apply retireCompletes_kept | with_reducible apply K.out_next | with_reducible apply K.out_fault | with_reducible apply K.out_refused | with_reducible apply K.body_ok | with_reducible apply K.body_error | with_reducible intro _ | dsimp only | split)

theorem execVariableResultArrival_kept {m0 : List Host.Cell} {f0 : Nat} (op : Nat) (s : State) (hs : K m0 f0 s.mem s.fuse) :
    K.out m0 f0 (execVariableResultArrival op s) := by
  unfold execVariableResultArrival
  repeat' (first | with_reducible assumption | with_reducible refine K.of_out ‹_› ?_ | with_reducible refine K.of_body ‹_› ?_ | with_reducible apply resultArrives_kept | with_reducible apply K.out_next | with_reducible apply K.out_fault | with_reducible apply K.out_refused | with_reducible apply K.body_ok | with_reducible apply K.body_error | with_reducible intro _ | dsimp only | split)

theorem execMessageDelivery_kept {m0 : List Host.Cell} {f0 : Nat} (op : Nat) (s : State) (hs : K m0 f0 s.mem s.fuse) :
    K.out m0 f0 (execMessageDelivery op s) := by
  unfold execMessageDelivery
  repeat' (first | with_reducible assumption | with_reducible refine K.of_out ‹_› ?_ | with_reducible refine K.of_body ‹_› ?_ | with_reducible apply deliver_kept | with_reducible apply K.out_next | with_reducible apply K.out_fault | with_reducible apply K.out_refused | with_reducible apply K.body_ok | with_reducible apply K.body_error | with_reducible intro _ | dsimp only | split)

theorem execLineInvalidate_kept {m0 : List Host.Cell} {f0 : Nat} (write : Nat) (s : State) (hs : K m0 f0 s.mem s.fuse) :
    K.out m0 f0 (execLineInvalidate write s) := by
  unfold execLineInvalidate
  repeat' (first | with_reducible assumption | with_reducible refine K.of_out ‹_› ?_ | with_reducible refine K.of_body ‹_› ?_ | with_reducible apply lineInvalidates_kept | with_reducible apply K.out_next | with_reducible apply K.out_fault | with_reducible apply K.out_refused | with_reducible apply K.body_ok | with_reducible apply K.body_error | with_reducible intro _ | dsimp only | split)

end Sys2Proof.Machine
end

