-- ==== Sys2Proof/Laws/KeptCompute.lean ====
section
/-! SUPPORT. Sys2Proof/Laws/KeptCompute.lean: the operations of Machine/Compute.lean keep memory canonical and never lower the fuses. -/

namespace Sys2Proof.Machine

theorem countPlaced_kept {m0 : List Host.Cell} {f0 : Nat} (s : State) (k home shipped : Nat) (hs : K m0 f0 s.mem s.fuse) :
    K m0 f0 (countPlaced s k home shipped).mem (countPlaced s k home shipped).fuse := by
  unfold countPlaced
  repeat' (first | with_reducible assumption | with_reducible apply setCore_kept | with_reducible intro _ | dsimp only | split)

theorem writeTileBytes_kept {m0 : List Host.Cell} {f0 : Nat} (s : State) (o : Op) (l : List (Nat × Byte)) (hs : K m0 f0 s.mem s.fuse) :
    K m0 f0 (writeTileBytes s o l).mem (writeTileBytes s o l).fuse := by
  unfold writeTileBytes
  repeat' (first | with_reducible assumption | with_reducible apply tileWrite_kept | with_reducible apply foldl_kept | with_reducible intro _ | dsimp only | split)

theorem passSlices_kept {m0 : List Host.Cell} {f0 : Nat} (s : State) (home : Option Nat) (locs : List Nat) (hs : K m0 f0 s.mem s.fuse) :
    K m0 f0 (passSlices s home locs).mem (passSlices s home locs).fuse := by
  unfold passSlices
  repeat' (first | with_reducible assumption | with_reducible apply forwardLine_kept | with_reducible apply foldl_kept | with_reducible intro _ | dsimp only | split)

theorem placedStatus_kept {m0 : List Host.Cell} {f0 : Nat} (s : State) (op : PlacedOp) (home : Nat) (hs : K m0 f0 s.mem s.fuse) :
    K m0 f0 (placedStatus s op home).1.mem (placedStatus s op home).1.fuse := by
  unfold placedStatus
  repeat' (first | with_reducible assumption | with_reducible apply freeStatus_kept | with_reducible intro _ | dsimp only | split)

theorem failPlaced_kept {m0 : List Host.Cell} {f0 : Nat} (s : State) (o : Op) (op : PlacedOp) (home cause : Nat) (aux1 : Word) (hs : K m0 f0 s.mem s.fuse) :
    K m0 f0 (failPlaced s o op home cause aux1).mem (failPlaced s o op home cause aux1).fuse := by
  unfold failPlaced
  repeat' (first | with_reducible assumption | with_reducible apply placedStatus_kept | with_reducible apply failOp_kept | with_reducible intro _ | dsimp only | split)

theorem performPlaced_kept {m0 : List Host.Cell} {f0 : Nat} (s : State) (o : Op) (hs : K m0 f0 s.mem s.fuse) :
    K m0 f0 (performPlaced s o).mem (performPlaced s o).fuse := by
  unfold performPlaced
  repeat' (first | with_reducible assumption | with_reducible apply opDone_kept | with_reducible apply countPlaced_kept | with_reducible apply failPlaced_kept | with_reducible apply writeTileBytes_kept | with_reducible apply performWrite_kept | with_reducible apply passSlices_kept | with_reducible apply foldl_kept | with_reducible intro _ | dsimp only | split)

theorem saveArray_kept {m0 : List Host.Cell} {f0 : Nat} (s : State) (quad key : Nat) (hs : K m0 f0 s.mem s.fuse) :
    K m0 f0 (saveArray s quad key).mem (saveArray s quad key).fuse := by
  unfold saveArray
  repeat' (first | with_reducible assumption | with_reducible apply setQuad_kept | with_reducible apply writeVirtual_kept | with_reducible intro _ | dsimp only | split)

theorem passArray_kept {m0 : List Host.Cell} {f0 : Nat} (s : State) (key : Nat) (hs : K m0 f0 s.mem s.fuse) :
    K m0 f0 (passArray s key).mem (passArray s key).fuse := by
  unfold passArray
  repeat' (first | with_reducible assumption | with_reducible apply passVirtual_kept | with_reducible intro _ | dsimp only | split)

theorem markLeased_kept {m0 : List Host.Cell} {f0 : Nat} (s : State) (key : Nat) (hs : K m0 f0 s.mem s.fuse) :
    K m0 f0 (markLeased s key).mem (markLeased s key).fuse := by
  unfold markLeased
  repeat' (first | with_reducible assumption | with_reducible apply setTask_kept | with_reducible intro _ | dsimp only | split)

theorem handOver_kept {m0 : List Host.Cell} {f0 : Nat} (s : State) (quad c : Nat) (hs : K m0 f0 s.mem s.fuse) :
    K m0 f0 (handOver s quad c).mem (handOver s quad c).fuse := by
  unfold handOver
  repeat' (first | with_reducible assumption | with_reducible apply saveArray_kept | with_reducible apply markLeased_kept | with_reducible apply passArray_kept | with_reducible apply setQuad_kept | with_reducible intro _ | dsimp only | split)

theorem leaseTo_kept {m0 : List Host.Cell} {f0 : Nat} (s : State) (quad c : Nat) (hs : K m0 f0 s.mem s.fuse) :
    K m0 f0 (leaseTo s quad c).mem (leaseTo s quad c).fuse := by
  unfold leaseTo
  repeat' (first | with_reducible assumption | with_reducible apply handOver_kept | with_reducible apply setQuad_kept | with_reducible intro _ | dsimp only | split)

theorem grantLease_kept {m0 : List Host.Cell} {f0 : Nat} (s : State) (quad c : Nat) (hs : K m0 f0 s.mem s.fuse) :
    K m0 f0 (grantLease s quad c).mem (grantLease s quad c).fuse := by
  unfold grantLease
  repeat' (first | with_reducible assumption | with_reducible apply leaseTo_kept | with_reducible intro _ | dsimp only | split)

theorem expireLease_kept {m0 : List Host.Cell} {f0 : Nat} (s : State) (quad : Nat) (hs : K m0 f0 s.mem s.fuse) :
    K m0 f0 (expireLease s quad).mem (expireLease s quad).fuse := by
  unfold expireLease
  repeat' (first | with_reducible assumption | with_reducible apply leaseTo_kept | with_reducible apply setQuad_kept | with_reducible intro _ | dsimp only | split)

theorem releaseLease_kept {m0 : List Host.Cell} {f0 : Nat} (s : State) (quad c : Nat) (hs : K m0 f0 s.mem s.fuse) :
    K m0 f0 (releaseLease s quad c).mem (releaseLease s quad c).fuse := by
  unfold releaseLease
  repeat' (first | with_reducible assumption | with_reducible apply setQuad_kept | with_reducible apply leaseTo_kept | with_reducible intro _ | dsimp only | split)

theorem failArray_kept {m0 : List Host.Cell} {f0 : Nat} (s : State) (o : Op) (cmd : ArrayCmd) (e : ArrayFail) (hs : K m0 f0 s.mem s.fuse) :
    K m0 f0 (failArray s o cmd e).mem (failArray s o cmd e).fuse := by
  unfold failArray
  repeat' (first | with_reducible assumption | with_reducible apply failOp_kept | with_reducible intro _ | dsimp only | split)

theorem commandDone_kept {m0 : List Host.Cell} {f0 : Nat} (s : State) (quad c : Nat) (counted : Bool) (hs : K m0 f0 s.mem s.fuse) :
    K m0 f0 (commandDone s quad c counted).mem (commandDone s quad c counted).fuse := by
  unfold commandDone
  repeat' (first | with_reducible assumption | with_reducible apply endImplicit_kept | with_reducible apply setQuad_kept | with_reducible intro _ | dsimp only | split)

theorem applyCommand_kept {m0 : List Host.Cell} {f0 : Nat} (s : State) (quad c : Nat) (o : Op) (cmd : ArrayCmd) (fetched : List Row) (hs : K m0 f0 s.mem s.fuse) :
    K m0 f0 (applyCommand s quad c o cmd fetched).mem (applyCommand s quad c o cmd fetched).fuse := by
  unfold applyCommand
  repeat' (first | with_reducible assumption | with_reducible refine K.of_out ‹_› ?_ | with_reducible refine K.of_body ‹_› ?_ | with_reducible apply failArray_kept | with_reducible apply setQuad_kept | with_reducible apply tileWrite_kept | with_reducible apply commandDone_kept | with_reducible apply opDone_kept | with_reducible apply foldl_kept | with_reducible intro _ | dsimp only | split)

theorem fetchCommand_kept {m0 : List Host.Cell} {f0 : Nat} (s : State) (quad c : Nat) (o : Op) (cmd : ArrayCmd) (base : Nat) (hs : K m0 f0 s.mem s.fuse) :
    K m0 f0 (fetchCommand s quad c o cmd base).mem (fetchCommand s quad c o cmd base).fuse := by
  unfold fetchCommand
  repeat' (first | with_reducible assumption | with_reducible refine K.of_out ‹_› ?_ | with_reducible refine K.of_body ‹_› ?_ | with_reducible apply requestWalks_kept | with_reducible apply failArray_kept | with_reducible apply askReads_kept | with_reducible apply dropPoisoned_kept | with_reducible apply setQuad_kept | with_reducible apply failOp_kept | with_reducible apply applyCommand_kept | with_reducible apply passUncached_kept | with_reducible apply dropRequests_kept | with_reducible intro _ | dsimp only | split)

theorem heldCommand_kept {m0 : List Host.Cell} {f0 : Nat} (s : State) (quad c : Nat) (o : Op) (hs : K m0 f0 s.mem s.fuse) :
    K m0 f0 (heldCommand s quad c o).mem (heldCommand s quad c o).fuse := by
  unfold heldCommand
  repeat' (first | with_reducible assumption | with_reducible apply opDone_kept | with_reducible apply setQuad_kept | with_reducible apply fetchCommand_kept | with_reducible apply applyCommand_kept | with_reducible apply performPlaced_kept | with_reducible apply commandDone_kept | with_reducible intro _ | dsimp only | split)

theorem runCommand_kept {m0 : List Host.Cell} {f0 : Nat} (s : State) (quad c : Nat) (hs : K m0 f0 s.mem s.fuse) :
    K m0 f0 (runCommand s quad c).mem (runCommand s quad c).fuse := by
  unfold runCommand
  repeat' (first | with_reducible assumption | with_reducible apply spend_kept | with_reducible apply finishStrand_kept | with_reducible apply releaseLease_kept | with_reducible apply opDone_kept | with_reducible apply heldCommand_kept | with_reducible intro _ | dsimp only | split)

theorem writesBack_kept {m0 : List Host.Cell} {f0 : Nat} (s : State) (n : Nat) (hs : K m0 f0 s.mem s.fuse) :
    K m0 f0 (writesBack s n).mem (writesBack s n).fuse := by
  unfold writesBack
  repeat' (first | with_reducible assumption | with_reducible apply runCommand_kept | with_reducible apply onOp_kept | with_reducible apply performPlaced_kept | with_reducible intro _ | dsimp only | split)

theorem failBank_kept {m0 : List Host.Cell} {f0 : Nat} (s : State) (o : Op) (c : BankCmd) (cause word : Nat) (hs : K m0 f0 s.mem s.fuse) :
    K m0 f0 (failBank s o c cause word).mem (failBank s o c cause word).fuse := by
  unfold failBank
  repeat' (first | with_reducible assumption | with_reducible apply failOp_kept | with_reducible intro _ | dsimp only | split)

theorem runPabm_kept {m0 : List Host.Cell} {f0 : Nat} (s : State) (o : Op) (h : Word) (row : Row) (hs : K m0 f0 s.mem s.fuse) :
    K m0 f0 (runPabm s o h row).mem (runPabm s o h row).fuse := by
  unfold runPabm
  repeat' (first | with_reducible assumption | with_reducible apply failBank_kept | with_reducible apply opDone_kept | with_reducible apply setSeq_kept | with_reducible intro _ | dsimp only | split)

theorem runPmac_kept {m0 : List Host.Cell} {f0 : Nat} (s : State) (o : Op) (h : Word) (row : Row) (mode : RMode) (b : BankMode) (hs : K m0 f0 s.mem s.fuse) :
    K m0 f0 (runPmac s o h row mode b).mem (runPmac s o h row mode b).fuse := by
  unfold runPmac
  extract_lets e off die cmd l found ks vpns r
  split
  · exact failBank_kept _ _ _ _ _ hs
  · split
    · exact requestWalks_kept _ _ _ _ hs
    · split
      · exact failBank_kept _ _ _ _ _ hs
      · exact failBank_kept _ _ _ _ _ hs
      · exact opDone_kept _ _ (setSeq_kept _ _ _ hs)

theorem runNamed_kept {m0 : List Host.Cell} {f0 : Nat} (s : State) (o : Op) (c : BankCmd) (h : Word) (f : BankMode → State) (hs : K m0 f0 s.mem s.fuse)
    (hf : ∀ b, K m0 f0 (f b).mem (f b).fuse) : K m0 f0 (runNamed s o c h f).mem (runNamed s o c h f).fuse := by
  unfold runNamed
  split
  · exact failBank_kept _ _ _ _ _ hs
  · exact hf _

theorem runBank_kept {m0 : List Host.Cell} {f0 : Nat} (s : State) (o : Op) (c : BankCmd) (hs : K m0 f0 s.mem s.fuse) :
    K m0 f0 (runBank s o c).mem (runBank s o c).fuse := by
  unfold runBank
  repeat' (first | with_reducible assumption | with_reducible apply runPabm_kept | with_reducible apply runNamed_kept | with_reducible apply opDone_kept | with_reducible apply setSeq_kept | with_reducible apply runPmac_kept | with_reducible apply tileWrite_kept | with_reducible apply leaveBank_kept | with_reducible intro _ | dsimp only | split)

theorem runBankHead_kept {m0 : List Host.Cell} {f0 : Nat} (s : State) (q : Nat) (hs : K m0 f0 s.mem s.fuse) :
    K m0 f0 (runBankHead s q).mem (runBankHead s q).fuse := by
  unfold runBankHead
  repeat' (first | with_reducible assumption | with_reducible apply onOp_kept | with_reducible apply runBank_kept | with_reducible intro _ | dsimp only | split)

theorem walkAnswer_kept {m0 : List Host.Cell} {f0 : Nat} (s : State) (die asid vpn : Nat) (r : WalkResult) (hs : K m0 f0 s.mem s.fuse) :
    K m0 f0 (walkAnswer s die asid vpn r).mem (walkAnswer s die asid vpn r).fuse := by
  unfold walkAnswer
  repeat' (first | with_reducible assumption | with_reducible intro _ | dsimp only | split)

theorem dropWalkRequest_kept {m0 : List Host.Cell} {f0 : Nat} (s : State) (die asid vpn : Nat) (hs : K m0 f0 s.mem s.fuse) :
    K m0 f0 (dropWalkRequest s die asid vpn).mem (dropWalkRequest s die asid vpn).fuse := by
  unfold dropWalkRequest
  repeat' (first | with_reducible assumption | with_reducible intro _ | dsimp only | split)

theorem walkCompletes_kept {m0 : List Host.Cell} {f0 : Nat} (s : State) (die asid vpn : Nat) (hs : K m0 f0 s.mem s.fuse) :
    K m0 f0 (walkCompletes s die asid vpn).mem (walkCompletes s die asid vpn).fuse := by
  unfold walkCompletes
  repeat' (first | with_reducible assumption | with_reducible apply walkAnswer_kept | with_reducible apply dropWalkRequest_kept | with_reducible apply addRequest_kept | with_reducible intro _ | dsimp only | split)

theorem execLeaseGrant_kept {m0 : List Host.Cell} {f0 : Nat} (quad c : Nat) (s : State) (hs : K m0 f0 s.mem s.fuse) :
    K.out m0 f0 (execLeaseGrant quad c s) := by
  unfold execLeaseGrant
  repeat' (first | with_reducible assumption | with_reducible refine K.of_out ‹_› ?_ | with_reducible refine K.of_body ‹_› ?_ | with_reducible apply grantLease_kept | with_reducible apply K.out_next | with_reducible apply K.out_fault | with_reducible apply K.out_refused | with_reducible apply K.body_ok | with_reducible apply K.body_error | with_reducible intro _ | dsimp only | split)

theorem execLeaseBoundExpiry_kept {m0 : List Host.Cell} {f0 : Nat} (quad : Nat) (s : State) (hs : K m0 f0 s.mem s.fuse) :
    K.out m0 f0 (execLeaseBoundExpiry quad s) := by
  unfold execLeaseBoundExpiry
  repeat' (first | with_reducible assumption | with_reducible refine K.of_out ‹_› ?_ | with_reducible refine K.of_body ‹_› ?_ | with_reducible apply expireLease_kept | with_reducible apply K.out_next | with_reducible apply K.out_fault | with_reducible apply K.out_refused | with_reducible apply K.body_ok | with_reducible apply K.body_error | with_reducible intro _ | dsimp only | split)

theorem execArrayCommandRun_kept {m0 : List Host.Cell} {f0 : Nat} (quad c : Nat) (s : State) (hs : K m0 f0 s.mem s.fuse) :
    K.out m0 f0 (execArrayCommandRun quad c s) := by
  unfold execArrayCommandRun
  repeat' (first | with_reducible assumption | with_reducible refine K.of_out ‹_› ?_ | with_reducible refine K.of_body ‹_› ?_ | with_reducible apply runCommand_kept | with_reducible apply K.out_next | with_reducible apply K.out_fault | with_reducible apply K.out_refused | with_reducible apply K.body_ok | with_reducible apply K.body_error | with_reducible intro _ | dsimp only | split)

theorem execPlacedWriteback_kept {m0 : List Host.Cell} {f0 : Nat} (op : Nat) (s : State) (hs : K m0 f0 s.mem s.fuse) :
    K.out m0 f0 (execPlacedWriteback op s) := by
  unfold execPlacedWriteback
  repeat' (first | with_reducible assumption | with_reducible refine K.of_out ‹_› ?_ | with_reducible refine K.of_body ‹_› ?_ | with_reducible apply writesBack_kept | with_reducible apply K.out_next | with_reducible apply K.out_fault | with_reducible apply K.out_refused | with_reducible apply K.body_ok | with_reducible apply K.body_error | with_reducible intro _ | dsimp only | split)

theorem execBankCommandRun_kept {m0 : List Host.Cell} {f0 : Nat} (q : Nat) (s : State) (hs : K m0 f0 s.mem s.fuse) :
    K.out m0 f0 (execBankCommandRun q s) := by
  unfold execBankCommandRun
  repeat' (first | with_reducible assumption | with_reducible refine K.of_out ‹_› ?_ | with_reducible refine K.of_body ‹_› ?_ | with_reducible apply runBankHead_kept | with_reducible apply K.out_next | with_reducible apply K.out_fault | with_reducible apply K.out_refused | with_reducible apply K.body_ok | with_reducible apply K.body_error | with_reducible intro _ | dsimp only | split)

theorem execTranslationWalkComplete_kept {m0 : List Host.Cell} {f0 : Nat} (die asid vpn : Nat) (s : State) (hs : K m0 f0 s.mem s.fuse) :
    K.out m0 f0 (execTranslationWalkComplete die asid vpn s) := by
  unfold execTranslationWalkComplete
  repeat' (first | with_reducible assumption | with_reducible refine K.of_out ‹_› ?_ | with_reducible refine K.of_body ‹_› ?_ | with_reducible apply walkCompletes_kept | with_reducible apply K.out_next | with_reducible apply K.out_fault | with_reducible apply K.out_refused | with_reducible apply K.body_ok | with_reducible apply K.body_error | with_reducible intro _ | dsimp only | split)

end Sys2Proof.Machine
end

