-- ==== Sys2Proof/Laws/KeptSequencer.lean ====
section
/-! SUPPORT. Sys2Proof/Laws/KeptSequencer.lean: the operations of Machine/Sequencer.lean keep memory canonical and never lower the fuses. -/

namespace Sys2Proof.Machine

theorem takeLandings_kept {m0 : List Host.Cell} {f0 : Nat} (s : State) (hs : K m0 f0 s.mem s.fuse) :
    K m0 f0 (takeLandings s).mem (takeLandings s).fuse := by
  unfold takeLandings
  repeat' (first | with_reducible assumption | with_reducible apply prepared_kept | with_reducible apply closeCycle_kept | with_reducible apply landed_kept | with_reducible apply setMe_kept | with_reducible intro _ | dsimp only | split)

theorem takeSkip_kept {m0 : List Host.Cell} {f0 : Nat} (s : State) (hs : K m0 f0 s.mem s.fuse) :
    K m0 f0 (takeSkip s).mem (takeSkip s).fuse := by
  unfold takeSkip
  repeat' (first | with_reducible assumption | with_reducible apply prepared_kept | with_reducible apply skipBundle_kept | with_reducible intro _ | dsimp only | split)

theorem execPendingWriteLanding_kept {m0 : List Host.Cell} {f0 : Nat} (q : Nat) (s : State) (hs : K m0 f0 s.mem s.fuse) :
    K.out m0 f0 (execPendingWriteLanding q s) := by
  unfold execPendingWriteLanding
  repeat' (first | with_reducible assumption | with_reducible refine K.of_out ‹_› ?_ | with_reducible refine K.of_body ‹_› ?_ | with_reducible apply withCur_kept | with_reducible apply takeLandings_kept | with_reducible apply K.out_next | with_reducible apply K.out_fault | with_reducible apply K.out_refused | with_reducible apply K.body_ok | with_reducible apply K.body_error | with_reducible intro _ | dsimp only | split)

theorem execBundleSkip_kept {m0 : List Host.Cell} {f0 : Nat} (q : Nat) (s : State) (hs : K m0 f0 s.mem s.fuse) :
    K.out m0 f0 (execBundleSkip q s) := by
  unfold execBundleSkip
  repeat' (first | with_reducible assumption | with_reducible refine K.of_out ‹_› ?_ | with_reducible refine K.of_body ‹_› ?_ | with_reducible apply withCur_kept | with_reducible apply takeSkip_kept | with_reducible apply K.out_next | with_reducible apply K.out_fault | with_reducible apply K.out_refused | with_reducible apply K.body_ok | with_reducible apply K.body_error | with_reducible intro _ | dsimp only | split)

theorem execLoopExit_kept {m0 : List Host.Cell} {f0 : Nat} (q : Nat) (s : State) (hs : K m0 f0 s.mem s.fuse) :
    K.out m0 f0 (execLoopExit q s) := by
  unfold execLoopExit
  repeat' (first | with_reducible assumption | with_reducible refine K.of_out ‹_› ?_ | with_reducible refine K.of_body ‹_› ?_ | with_reducible apply setSeq_kept | with_reducible apply K.out_next | with_reducible apply K.out_fault | with_reducible apply K.out_refused | with_reducible apply K.body_ok | with_reducible apply K.body_error | with_reducible intro _ | dsimp only | split)

theorem execDelayExpire_kept {m0 : List Host.Cell} {f0 : Nat} (q : Nat) (s : State) (hs : K m0 f0 s.mem s.fuse) :
    K.out m0 f0 (execDelayExpire q s) := by
  unfold execDelayExpire
  repeat' (first | with_reducible assumption | with_reducible refine K.of_out ‹_› ?_ | with_reducible refine K.of_body ‹_› ?_ | with_reducible apply setSeq_kept | with_reducible apply K.out_next | with_reducible apply K.out_fault | with_reducible apply K.out_refused | with_reducible apply K.body_ok | with_reducible apply K.body_error | with_reducible intro _ | dsimp only | split)

theorem execStarvationGuard_kept {m0 : List Host.Cell} {f0 : Nat} (core : Nat) (s : State) (hs : K m0 f0 s.mem s.fuse) :
    K.out m0 f0 (execStarvationGuard core s) := by
  unfold execStarvationGuard
  repeat' (first | with_reducible assumption | with_reducible refine K.of_out ‹_› ?_ | with_reducible refine K.of_body ‹_› ?_ | with_reducible apply starveCycle_kept | with_reducible apply K.out_next | with_reducible apply K.out_fault | with_reducible apply K.out_refused | with_reducible apply K.body_ok | with_reducible apply K.body_error | with_reducible intro _ | dsimp only | split)

theorem engineStop_kept {m0 : List Host.Cell} {f0 : Nat} (s : State) (q : Nat) (hs : K m0 f0 s.mem s.fuse) :
    K m0 f0 (engineStop s q).mem (engineStop s q).fuse := by
  unfold engineStop
  repeat' (first | with_reducible assumption | with_reducible apply takeFault_kept | with_reducible apply setSeq_kept | with_reducible intro _ | dsimp only | split)

theorem faultArrives_kept {m0 : List Host.Cell} {f0 : Nat} (s : State) (q : Nat) (hs : K m0 f0 s.mem s.fuse) :
    K m0 f0 (faultArrives s q).mem (faultArrives s q).fuse := by
  unfold faultArrives
  repeat' (first | with_reducible assumption | with_reducible apply engineStop_kept | with_reducible intro _ | dsimp only | split)

theorem execEngineFault_kept {m0 : List Host.Cell} {f0 : Nat} (q : Nat) (s : State) (hs : K m0 f0 s.mem s.fuse) :
    K.out m0 f0 (execEngineFault q s) := by
  unfold execEngineFault
  repeat' (first | with_reducible assumption | with_reducible refine K.of_out ‹_› ?_ | with_reducible refine K.of_body ‹_› ?_ | with_reducible apply faultArrives_kept | with_reducible apply K.out_next | with_reducible apply K.out_fault | with_reducible apply K.out_refused | with_reducible apply K.body_ok | with_reducible apply K.body_error | with_reducible intro _ | dsimp only | split)

theorem poisonRetired_kept {m0 : List Host.Cell} {f0 : Nat} (s : State) (q : Nat) (x : Nat × View) (hs : K m0 f0 s.mem s.fuse) :
    K m0 f0 (poisonRetired s q x).mem (poisonRetired s q x).fuse := by
  unfold poisonRetired
  repeat' (first | with_reducible assumption | with_reducible apply setSeq_kept | with_reducible apply recordPoison_kept | with_reducible intro _ | dsimp only | split)

theorem poisonRegion_kept {m0 : List Host.Cell} {f0 : Nat} (s : State) (q : Nat) (hs : K m0 f0 s.mem s.fuse) :
    K m0 f0 (poisonRegion s q).mem (poisonRegion s q).fuse := by
  unfold poisonRegion
  repeat' (first | with_reducible assumption | with_reducible apply setSeq_kept | with_reducible apply poisonRetired_kept | with_reducible apply retireViews_kept | with_reducible apply foldl_kept | with_reducible intro _ | dsimp only | split)

theorem endUnwind_kept {m0 : List Host.Cell} {f0 : Nat} (s : State) (q : Nat) (u : Unwind) (hs : K m0 f0 s.mem s.fuse) :
    K m0 f0 (endUnwind s q u).mem (endUnwind s q u).fuse := by
  unfold endUnwind
  repeat' (first | with_reducible assumption | with_reducible apply landQueue_kept | with_reducible apply setSeq_kept | with_reducible intro _ | dsimp only | split)

theorem unwindMoves_kept {m0 : List Host.Cell} {f0 : Nat} (s : State) (q : Nat) (hs : K m0 f0 s.mem s.fuse) :
    K m0 f0 (unwindMoves s q).mem (unwindMoves s q).fuse := by
  unfold unwindMoves
  repeat' (first | with_reducible assumption | with_reducible apply poisonRegion_kept | with_reducible apply endUnwind_kept | with_reducible intro _ | dsimp only | split)

theorem unwindStep_kept {m0 : List Host.Cell} {f0 : Nat} (s : State) (q : Nat) (hs : K m0 f0 s.mem s.fuse) :
    K m0 f0 (unwindStep s q).mem (unwindStep s q).fuse := by
  unfold unwindStep
  repeat' (first | with_reducible assumption | with_reducible apply unwindMoves_kept | with_reducible intro _ | dsimp only | split)

theorem execContainedUnwind_kept {m0 : List Host.Cell} {f0 : Nat} (q : Nat) (s : State) (hs : K m0 f0 s.mem s.fuse) :
    K.out m0 f0 (execContainedUnwind q s) := by
  unfold execContainedUnwind
  repeat' (first | with_reducible assumption | with_reducible refine K.of_out ‹_› ?_ | with_reducible refine K.of_body ‹_› ?_ | with_reducible apply unwindStep_kept | with_reducible apply K.out_next | with_reducible apply K.out_fault | with_reducible apply K.out_refused | with_reducible apply K.body_ok | with_reducible apply K.body_error | with_reducible intro _ | dsimp only | split)

theorem sendGivesUp_kept {m0 : List Host.Cell} {f0 : Nat} (s : State) (q : Nat) (hs : K m0 f0 s.mem s.fuse) :
    K m0 f0 (sendGivesUp s q).mem (sendGivesUp s q).fuse := by
  unfold sendGivesUp
  repeat' (first | with_reducible assumption | with_reducible apply setSeq_kept | with_reducible intro _ | dsimp only | split)

theorem execSendFull_kept {m0 : List Host.Cell} {f0 : Nat} (q : Nat) (s : State) (hs : K m0 f0 s.mem s.fuse) :
    K.out m0 f0 (execSendFull q s) := by
  unfold execSendFull
  repeat' (first | with_reducible assumption | with_reducible refine K.of_out ‹_› ?_ | with_reducible refine K.of_body ‹_› ?_ | with_reducible apply sendGivesUp_kept | with_reducible apply K.out_next | with_reducible apply K.out_fault | with_reducible apply K.out_refused | with_reducible apply K.body_ok | with_reducible apply K.body_error | with_reducible intro _ | dsimp only | split)

theorem setFreeze_kept {m0 : List Host.Cell} {f0 : Nat} (s : State) (q : Nat) (on : Bool) (hs : K m0 f0 s.mem s.fuse) :
    K m0 f0 (setFreeze s q on).mem (setFreeze s q on).fuse := by
  unfold setFreeze
  repeat' (first | with_reducible assumption | with_reducible apply setSeq_kept | with_reducible apply setCore_kept | with_reducible intro _ | dsimp only | split)

theorem passSkips_kept {m0 : List Host.Cell} {f0 : Nat} (n : Nat) (s : State) (hs : K m0 f0 s.mem s.fuse) :
    K m0 f0 (passSkips n s).mem (passSkips n s).fuse := by
  induction n generalizing s with
  | zero =>
    unfold passSkips
    repeat' (first | with_reducible assumption | with_reducible apply prepared_kept | with_reducible apply skipBundle_kept | with_reducible intro _ | dsimp only | split)
  | succ n ih =>
    unfold passSkips
    repeat' (first | with_reducible assumption | with_reducible apply ih | with_reducible apply prepared_kept | with_reducible apply skipBundle_kept | with_reducible intro _ | dsimp only | split)

theorem stepStream_kept {m0 : List Host.Cell} {f0 : Nat} (s : State) (hs : K m0 f0 s.mem s.fuse) :
    K m0 f0 (stepStream s).mem (stepStream s).fuse := by
  unfold stepStream
  repeat' (first | with_reducible assumption | with_reducible apply unwindMoves_kept | with_reducible apply engineStop_kept | with_reducible apply streamCycle_kept | with_reducible apply passSkips_kept | with_reducible apply setMe_kept | with_reducible apply setMyCore_kept | with_reducible intro _ | dsimp only | split)

theorem stepCore_kept {m0 : List Host.Cell} {f0 : Nat} (s : State) (q : Nat) (hs : K m0 f0 s.mem s.fuse) :
    K m0 f0 (stepCore s q).mem (stepCore s q).fuse := by
  unfold stepCore
  repeat' (first | with_reducible assumption | with_reducible apply withCur_kept | with_reducible apply stepStream_kept | with_reducible apply setCore_kept | with_reducible intro _ | dsimp only | split)

theorem resumeCommand_kept {m0 : List Host.Cell} {f0 : Nat} (s : State) (i : StopInfo) (skip : Bool) (hs : K m0 f0 s.mem s.fuse) :
    K m0 f0 (resumeCommand s i skip).mem (resumeCommand s i skip).fuse := by
  unfold resumeCommand
  repeat' (first | with_reducible assumption | with_reducible apply dropFailed_kept | with_reducible apply setOp_kept | with_reducible apply dropPoisoned_kept | with_reducible intro _ | dsimp only | split)

theorem resumeNow_kept {m0 : List Host.Cell} {f0 : Nat} (s : State) (q : Nat) (i : StopInfo) (skip : Bool) (hs : K m0 f0 s.mem s.fuse) :
    K m0 f0 (resumeNow s q i skip).mem (resumeNow s q i skip).fuse := by
  unfold resumeNow
  repeat' (first | with_reducible assumption | with_reducible apply passHome_kept | with_reducible apply setSeq_kept | with_reducible apply finishStrand_kept | with_reducible apply landArrived_kept | with_reducible apply resumeCommand_kept | with_reducible intro _ | dsimp only | split)

theorem postDue_kept {m0 : List Host.Cell} {f0 : Nat} (s : State) (q : Nat) (hs : K m0 f0 s.mem s.fuse) :
    K m0 f0 (postDue s q).mem (postDue s q).fuse := by
  unfold postDue
  repeat' (first | with_reducible assumption | with_reducible apply finishStrand_kept | with_reducible apply postFault_kept | with_reducible intro _ | dsimp only | split)

theorem resumeStrand_kept {m0 : List Host.Cell} {f0 : Nat} (s : State) (q : Nat) (skip : Bool) (hs : K m0 f0 s.mem s.fuse) :
    K m0 f0 (resumeStrand s q skip).mem (resumeStrand s q skip).fuse := by
  unfold resumeStrand
  repeat' (first | with_reducible assumption | with_reducible apply postDue_kept | with_reducible apply setSeq_kept | with_reducible apply resumeNow_kept | with_reducible intro _ | dsimp only | split)

theorem takeResume_kept {m0 : List Host.Cell} {f0 : Nat} (s : State) (q : Nat) (hs : K m0 f0 s.mem s.fuse) :
    K m0 f0 (takeResume s q).mem (takeResume s q).fuse := by
  unfold takeResume
  repeat' (first | with_reducible assumption | with_reducible apply resumeStrand_kept | with_reducible intro _ | dsimp only | split)

theorem takeDue_kept {m0 : List Host.Cell} {f0 : Nat} (s : State) (q : Nat) (hs : K m0 f0 s.mem s.fuse) :
    K m0 f0 (takeDue s q).mem (takeDue s q).fuse := by
  unfold takeDue
  repeat' (first | with_reducible assumption | with_reducible apply takeResume_kept | with_reducible apply postDue_kept | with_reducible intro _ | dsimp only | split)

theorem execBundleIssue_kept {m0 : List Host.Cell} {f0 : Nat} (q : Nat) (s : State) (hs : K m0 f0 s.mem s.fuse) :
    K.out m0 f0 (execBundleIssue q s) := by
  unfold execBundleIssue
  repeat' (first | with_reducible assumption | with_reducible refine K.of_out ‹_› ?_ | with_reducible refine K.of_body ‹_› ?_ | with_reducible apply takeDue_kept | with_reducible apply bundleCycle_kept | with_reducible apply K.out_next | with_reducible apply K.out_fault | with_reducible apply K.out_refused | with_reducible apply K.body_ok | with_reducible apply K.body_error | with_reducible intro _ | dsimp only | split)

theorem writeSqctl_kept {m0 : List Host.Cell} {f0 : Nat} (s : State) (q : Nat) (v : Word) (hs : K m0 f0 s.mem s.fuse) :
    K m0 f0 (writeSqctl s q v).mem (writeSqctl s q v).fuse := by
  unfold writeSqctl
  repeat' (first | with_reducible assumption | with_reducible apply setFreeze_kept | with_reducible apply resumeStrand_kept | with_reducible apply stepCore_kept | with_reducible intro _ | dsimp only | split)

theorem execSqctlFreeze_kept {m0 : List Host.Cell} {f0 : Nat} (s : State) (hs : K m0 f0 s.mem s.fuse) :
    K.out m0 f0 (execSqctlFreeze s) := by
  unfold execSqctlFreeze
  repeat' (first | with_reducible assumption | with_reducible refine K.of_out ‹_› ?_ | with_reducible refine K.of_body ‹_› ?_ | with_reducible apply setFreeze_kept | with_reducible apply K.out_next | with_reducible apply K.out_fault | with_reducible apply K.out_refused | with_reducible apply K.body_ok | with_reducible apply K.body_error | with_reducible intro _ | dsimp only | split)

theorem execSqctlUnfreeze_kept {m0 : List Host.Cell} {f0 : Nat} (s : State) (hs : K m0 f0 s.mem s.fuse) :
    K.out m0 f0 (execSqctlUnfreeze s) := by
  unfold execSqctlUnfreeze
  repeat' (first | with_reducible assumption | with_reducible refine K.of_out ‹_› ?_ | with_reducible refine K.of_body ‹_› ?_ | with_reducible apply setFreeze_kept | with_reducible apply K.out_next | with_reducible apply K.out_fault | with_reducible apply K.out_refused | with_reducible apply K.body_ok | with_reducible apply K.body_error | with_reducible intro _ | dsimp only | split)

theorem execSqctlStep_kept {m0 : List Host.Cell} {f0 : Nat} (s : State) (hs : K m0 f0 s.mem s.fuse) :
    K.out m0 f0 (execSqctlStep s) := by
  unfold execSqctlStep
  repeat' (first | with_reducible assumption | with_reducible refine K.of_out ‹_› ?_ | with_reducible refine K.of_body ‹_› ?_ | with_reducible apply stepCore_kept | with_reducible apply K.out_next | with_reducible apply K.out_fault | with_reducible apply K.out_refused | with_reducible apply K.body_ok | with_reducible apply K.body_error | with_reducible intro _ | dsimp only | split)

theorem execSqctlResume_kept {m0 : List Host.Cell} {f0 : Nat} (s : State) (hs : K m0 f0 s.mem s.fuse) :
    K.out m0 f0 (execSqctlResume s) := by
  unfold execSqctlResume
  repeat' (first | with_reducible assumption | with_reducible refine K.of_out ‹_› ?_ | with_reducible refine K.of_body ‹_› ?_ | with_reducible apply resumeStrand_kept | with_reducible apply K.out_next | with_reducible apply K.out_fault | with_reducible apply K.out_refused | with_reducible apply K.body_ok | with_reducible apply K.body_error | with_reducible intro _ | dsimp only | split)

theorem execSqctlResumeSkip_kept {m0 : List Host.Cell} {f0 : Nat} (s : State) (hs : K m0 f0 s.mem s.fuse) :
    K.out m0 f0 (execSqctlResumeSkip s) := by
  unfold execSqctlResumeSkip
  repeat' (first | with_reducible assumption | with_reducible refine K.of_out ‹_› ?_ | with_reducible refine K.of_body ‹_› ?_ | with_reducible apply resumeStrand_kept | with_reducible apply K.out_next | with_reducible apply K.out_fault | with_reducible apply K.out_refused | with_reducible apply K.body_ok | with_reducible apply K.body_error | with_reducible intro _ | dsimp only | split)

end Sys2Proof.Machine
end

