-- ==== Sys2Proof/Laws/KeptDieRegs.lean ====
section
/-! SUPPORT. Sys2Proof/Laws/KeptDieRegs.lean: the operations of Machine/DieRegs.lean keep memory canonical and never lower the fuses. -/

namespace Sys2Proof.Machine

theorem writeWaymask_kept {m0 : List Host.Cell} {f0 : Nat} (s : State) (die k v : Nat) (hs : K m0 f0 s.mem s.fuse) :
    K m0 f0 (writeWaymask s die k v).mem (writeWaymask s die k v).fuse := by
  unfold writeWaymask
  repeat' (first | with_reducible assumption | with_reducible apply setSlice_kept | with_reducible intro _ | dsimp only | split)

theorem dropWays_kept {m0 : List Host.Cell} {f0 : Nat} (s : State) (die k : Nat) (m : BitVec 16) (hs : K m0 f0 s.mem s.fuse) :
    K m0 f0 (dropWays s die k m).mem (dropWays s die k m).fuse := by
  unfold dropWays
  repeat' (first | with_reducible assumption | with_reducible apply K.filter | with_reducible intro _ | dsimp only | split)

theorem endWaymask_kept {m0 : List Host.Cell} {f0 : Nat} (s : State) (die k : Nat) (hs : K m0 f0 s.mem s.fuse) :
    K m0 f0 (endWaymask s die k).mem (endWaymask s die k).fuse := by
  unfold endWaymask
  repeat' (first | with_reducible assumption | with_reducible apply setSlice_kept | with_reducible apply dropWays_kept | with_reducible intro _ | dsimp only | split)

theorem writeRemoteWays_kept {m0 : List Host.Cell} {f0 : Nat} (s : State) (die k v : Nat) (hs : K m0 f0 s.mem s.fuse) :
    K m0 f0 (writeRemoteWays s die k v).mem (writeRemoteWays s die k v).fuse := by
  unfold writeRemoteWays
  repeat' (first | with_reducible assumption | with_reducible apply setSlice_kept | with_reducible intro _ | dsimp only | split)

theorem endRemoteWays_kept {m0 : List Host.Cell} {f0 : Nat} (s : State) (die k : Nat) (hs : K m0 f0 s.mem s.fuse) :
    K m0 f0 (endRemoteWays s die k).mem (endRemoteWays s die k).fuse := by
  unfold endRemoteWays
  repeat' (first | with_reducible assumption | with_reducible apply setSlice_kept | with_reducible intro _ | dsimp only | split)

theorem execSliceWaymaskWrite_kept {m0 : List Host.Cell} {f0 : Nat} (s : State) (hs : K m0 f0 s.mem s.fuse) :
    K.out m0 f0 (execSliceWaymaskWrite s) := by
  unfold execSliceWaymaskWrite
  repeat' (first | with_reducible assumption | with_reducible refine K.of_out ‹_› ?_ | with_reducible refine K.of_body ‹_› ?_ | with_reducible apply writeWaymask_kept | with_reducible apply K.out_next | with_reducible apply K.out_fault | with_reducible apply K.out_refused | with_reducible apply K.body_ok | with_reducible apply K.body_error | with_reducible intro _ | dsimp only | split)

theorem execWaymaskChangeComplete_kept {m0 : List Host.Cell} {f0 : Nat} (die slice : Nat) (s : State) (hs : K m0 f0 s.mem s.fuse) :
    K.out m0 f0 (execWaymaskChangeComplete die slice s) := by
  unfold execWaymaskChangeComplete
  repeat' (first | with_reducible assumption | with_reducible refine K.of_out ‹_› ?_ | with_reducible refine K.of_body ‹_› ?_ | with_reducible apply endWaymask_kept | with_reducible apply K.out_next | with_reducible apply K.out_fault | with_reducible apply K.out_refused | with_reducible apply K.body_ok | with_reducible apply K.body_error | with_reducible intro _ | dsimp only | split)

theorem execRemoteWaysWrite_kept {m0 : List Host.Cell} {f0 : Nat} (s : State) (hs : K m0 f0 s.mem s.fuse) :
    K.out m0 f0 (execRemoteWaysWrite s) := by
  unfold execRemoteWaysWrite
  repeat' (first | with_reducible assumption | with_reducible refine K.of_out ‹_› ?_ | with_reducible refine K.of_body ‹_› ?_ | with_reducible apply writeRemoteWays_kept | with_reducible apply K.out_next | with_reducible apply K.out_fault | with_reducible apply K.out_refused | with_reducible apply K.body_ok | with_reducible apply K.body_error | with_reducible intro _ | dsimp only | split)

theorem execRemoteWaysChangeComplete_kept {m0 : List Host.Cell} {f0 : Nat} (die slice : Nat) (s : State) (hs : K m0 f0 s.mem s.fuse) :
    K.out m0 f0 (execRemoteWaysChangeComplete die slice s) := by
  unfold execRemoteWaysChangeComplete
  repeat' (first | with_reducible assumption | with_reducible refine K.of_out ‹_› ?_ | with_reducible refine K.of_body ‹_› ?_ | with_reducible apply endRemoteWays_kept | with_reducible apply K.out_next | with_reducible apply K.out_fault | with_reducible apply K.out_refused | with_reducible apply K.body_ok | with_reducible apply K.body_error | with_reducible intro _ | dsimp only | split)

theorem sendInvalidations_kept {m0 : List Host.Cell} {f0 : Nat} (s : State) (die : Nat) (x : Invalidation) (hs : K m0 f0 s.mem s.fuse) :
    K m0 f0 (sendInvalidations s die x).mem (sendInvalidations s die x).fuse := by
  unfold sendInvalidations
  repeat' (first | with_reducible assumption | with_reducible intro _ | dsimp only | split)

theorem startInval_kept {m0 : List Host.Cell} {f0 : Nat} (s : State) (die v : Nat) (hs : K m0 f0 s.mem s.fuse) :
    K m0 f0 (startInval s die v).mem (startInval s die v).fuse := by
  unfold startInval
  repeat' (first | with_reducible assumption | with_reducible apply sendInvalidations_kept | with_reducible apply setDie_kept | with_reducible intro _ | dsimp only | split)

theorem dropEntries_kept {m0 : List Host.Cell} {f0 : Nat} (s : State) (die : Nat) (x : Invalidation) (hs : K m0 f0 s.mem s.fuse) :
    K m0 f0 (dropEntries s die x).mem (dropEntries s die x).fuse := by
  unfold dropEntries
  repeat' (first | with_reducible assumption | with_reducible intro _ | dsimp only | split)

theorem answerInvalidations_kept {m0 : List Host.Cell} {f0 : Nat} (s : State) (hs : K m0 f0 s.mem s.fuse) :
    K m0 f0 (answerInvalidations s).mem (answerInvalidations s).fuse := by
  unfold answerInvalidations
  repeat' (first | with_reducible assumption | with_reducible intro _ | dsimp only | split)

theorem endInval_kept {m0 : List Host.Cell} {f0 : Nat} (s : State) (die : Nat) (hs : K m0 f0 s.mem s.fuse) :
    K m0 f0 (endInval s die).mem (endInval s die).fuse := by
  unfold endInval
  repeat' (first | with_reducible assumption | with_reducible apply dropEntries_kept | with_reducible apply setDie_kept | with_reducible apply answerInvalidations_kept | with_reducible intro _ | dsimp only | split)

theorem execXlinvGo_kept {m0 : List Host.Cell} {f0 : Nat} (s : State) (hs : K m0 f0 s.mem s.fuse) :
    K.out m0 f0 (execXlinvGo s) := by
  unfold execXlinvGo
  repeat' (first | with_reducible assumption | with_reducible refine K.of_out ‹_› ?_ | with_reducible refine K.of_body ‹_› ?_ | with_reducible apply startInval_kept | with_reducible apply K.out_next | with_reducible apply K.out_fault | with_reducible apply K.out_refused | with_reducible apply K.body_ok | with_reducible apply K.body_error | with_reducible intro _ | dsimp only | split)

theorem execXlinvComplete_kept {m0 : List Host.Cell} {f0 : Nat} (die : Nat) (s : State) (hs : K m0 f0 s.mem s.fuse) :
    K.out m0 f0 (execXlinvComplete die s) := by
  unfold execXlinvComplete
  repeat' (first | with_reducible assumption | with_reducible refine K.of_out ‹_› ?_ | with_reducible refine K.of_body ‹_› ?_ | with_reducible apply endInval_kept | with_reducible apply K.out_next | with_reducible apply K.out_fault | with_reducible apply K.out_refused | with_reducible apply K.body_ok | with_reducible apply K.body_error | with_reducible intro _ | dsimp only | split)

theorem writeRing_kept {m0 : List Host.Cell} {f0 : Nat} (s : State) (k n v : Nat) (hs : K m0 f0 s.mem s.fuse) :
    K m0 f0 (writeRing s k n v).mem (writeRing s k n v).fuse := by
  unfold writeRing
  repeat' (first | with_reducible assumption | with_reducible apply setCore_kept | with_reducible intro _ | dsimp only | split)

theorem execRingdWrite_kept {m0 : List Host.Cell} {f0 : Nat} (s : State) (hs : K m0 f0 s.mem s.fuse) :
    K.out m0 f0 (execRingdWrite s) := by
  unfold execRingdWrite
  repeat' (first | with_reducible assumption | with_reducible refine K.of_out ‹_› ?_ | with_reducible refine K.of_body ‹_› ?_ | with_reducible apply writeRing_kept | with_reducible apply K.out_next | with_reducible apply K.out_fault | with_reducible apply K.out_refused | with_reducible apply K.body_ok | with_reducible apply K.body_error | with_reducible intro _ | dsimp only | split)

end Sys2Proof.Machine
end

