-- ==== Sys2Proof/Laws/KeptSched.lean ====
section
/-! SUPPORT. Sys2Proof/Laws/KeptSched.lean: the operations of Machine/Sched.lean keep memory canonical and never lower the fuses. -/

namespace Sys2Proof.Machine

theorem execTeamPlace_kept {m0 : List Host.Cell} {f0 : Nat} (die : Nat) (s : State) (hs : K m0 f0 s.mem s.fuse) :
    K.out m0 f0 (execTeamPlace die s) := by
  unfold execTeamPlace
  repeat' (first | with_reducible assumption | with_reducible refine K.of_out ‹_› ?_ | with_reducible refine K.of_body ‹_› ?_ | with_reducible apply placeHead_kept | with_reducible apply K.out_next | with_reducible apply K.out_fault | with_reducible apply K.out_refused | with_reducible apply K.body_ok | with_reducible apply K.body_error | with_reducible intro _ | dsimp only | split)

theorem execCohortPlace_kept {m0 : List Host.Cell} {f0 : Nat} (die : Nat) (s : State) (hs : K m0 f0 s.mem s.fuse) :
    K.out m0 f0 (execCohortPlace die s) := by
  unfold execCohortPlace
  repeat' (first | with_reducible assumption | with_reducible refine K.of_out ‹_› ?_ | with_reducible refine K.of_body ‹_› ?_ | with_reducible apply placeCohortHead_kept | with_reducible apply K.out_next | with_reducible apply K.out_fault | with_reducible apply K.out_refused | with_reducible apply K.body_ok | with_reducible apply K.body_error | with_reducible intro _ | dsimp only | split)

theorem execLaunchViewRegister_kept {m0 : List Host.Cell} {f0 : Nat} (die task : Nat) (s : State) (hs : K m0 f0 s.mem s.fuse) :
    K.out m0 f0 (execLaunchViewRegister die task s) := by
  unfold execLaunchViewRegister
  repeat' (first | with_reducible assumption | with_reducible refine K.of_out ‹_› ?_ | with_reducible refine K.of_body ‹_› ?_ | with_reducible apply registerViews_kept | with_reducible apply K.out_next | with_reducible apply K.out_fault | with_reducible apply K.out_refused | with_reducible apply K.body_ok | with_reducible apply K.body_error | with_reducible intro _ | dsimp only | split)

theorem execTimedStart_kept {m0 : List Host.Cell} {f0 : Nat} (q : Nat) (s : State) (hs : K m0 f0 s.mem s.fuse) :
    K.out m0 f0 (execTimedStart q s) := by
  unfold execTimedStart
  repeat' (first | with_reducible assumption | with_reducible refine K.of_out ‹_› ?_ | with_reducible refine K.of_body ‹_› ?_ | with_reducible apply timedStart_kept | with_reducible apply K.out_next | with_reducible apply K.out_fault | with_reducible apply K.out_refused | with_reducible apply K.body_ok | with_reducible apply K.body_error | with_reducible intro _ | dsimp only | split)

theorem execPkgBarrierMessage_kept {m0 : List Host.Cell} {f0 : Nat} (msg : Nat) (s : State) (hs : K m0 f0 s.mem s.fuse) :
    K.out m0 f0 (execPkgBarrierMessage msg s) := by
  unfold execPkgBarrierMessage
  repeat' (first | with_reducible assumption | with_reducible refine K.of_out ‹_› ?_ | with_reducible refine K.of_body ‹_› ?_ | with_reducible apply deliverBarrier_kept | with_reducible apply K.out_next | with_reducible apply K.out_fault | with_reducible apply K.out_refused | with_reducible apply K.body_ok | with_reducible apply K.body_error | with_reducible intro _ | dsimp only | split)

theorem flushForwards_kept {m0 : List Host.Cell} {f0 : Nat} (s : State) (hs : K m0 f0 s.mem s.fuse) :
    K m0 f0 (flushForwards s).mem (flushForwards s).fuse := by
  unfold flushForwards
  repeat' (first | with_reducible assumption | with_reducible apply performForward_kept | with_reducible apply foldl_kept | with_reducible intro _ | dsimp only | split)

theorem addRecords_kept {m0 : List Host.Cell} {f0 : Nat} (s : State) (ds : List Nat) (l : List PoisonRecord) (hs : K m0 f0 s.mem s.fuse) :
    K m0 f0 (addRecords s ds l).mem (addRecords s ds l).fuse := by
  induction ds generalizing s l with
  | nil =>
    unfold addRecords
    repeat' (first | with_reducible assumption | with_reducible intro _ | dsimp only | split)
  | cons x rest ih =>
    unfold addRecords
    repeat' (first | with_reducible assumption | with_reducible apply ih | with_reducible intro _ | dsimp only | split)

theorem edgeView_kept {m0 : List Host.Cell} {f0 : Nat} (e : Edge) (x : State × Task) (n : Nat) (hx : K m0 f0 x.1.mem x.1.fuse) :
    K m0 f0 (edgeView e x n).1.mem (edgeView e x n).1.fuse := by
  unfold edgeView
  repeat' (first | with_reducible assumption | with_reducible apply addRecords_kept | dsimp only | split)

theorem edges_kept {m0 : List Host.Cell} {f0 : Nat} (es : List Edge) (x : State × Task) (hx : K m0 f0 x.1.mem x.1.fuse) :
    K m0 f0 (es.foldl (fun x e => (List.range 16).foldl (edgeView e) x) x).1.mem
      (es.foldl (fun x e => (List.range 16).foldl (edgeView e) x) x).1.fuse := by
  have hi : ∀ (e : Edge) (l : List Nat) (x : State × Task), K m0 f0 x.1.mem x.1.fuse →
      K m0 f0 (l.foldl (edgeView e) x).1.mem (l.foldl (edgeView e) x).1.fuse := by
    intro e l
    induction l with
    | nil => exact fun _ h => h
    | cons n rest ih => exact fun x h => ih _ (edgeView_kept e x n h)
  induction es generalizing x with
  | nil => exact hx
  | cons e rest ih => exact ih _ (hi e _ x hx)

theorem releaseTask_kept {m0 : List Host.Cell} {f0 : Nat} (s : State) (key : Nat) (hs : K m0 f0 s.mem s.fuse) :
    K m0 f0 (releaseTask s key).mem (releaseTask s key).fuse := by
  unfold releaseTask
  split
  · exact hs
  · split
    · exact hs
    · exact setTask_kept _ _ _ (edges_kept _ _ (flushForwards_kept _ hs))

theorem commandTask_kept {m0 : List Host.Cell} {f0 : Nat} (s : State) (id : Nat) (f : State → Nat → State) (hs : K m0 f0 s.mem s.fuse) (hf : ∀ u x0, K m0 f0 u.mem u.fuse → K m0 f0 (f u x0).mem (f u x0).fuse) :
    K m0 f0 (commandTask s id f).mem (commandTask s id f).fuse := by
  unfold commandTask
  repeat' (first | with_reducible assumption | with_reducible apply hf | with_reducible intro _ | dsimp only | split)

theorem writeTaskcmd_kept {m0 : List Host.Cell} {f0 : Nat} (s : State) (v : Nat) (hs : K m0 f0 s.mem s.fuse) :
    K m0 f0 (writeTaskcmd s v).mem (writeTaskcmd s v).fuse := by
  unfold writeTaskcmd
  repeat' (first | with_reducible assumption | with_reducible apply commandTask_kept | with_reducible apply releaseTask_kept | with_reducible apply killTask_kept | with_reducible intro _ | dsimp only | split)

theorem execTaskcmdRelease_kept {m0 : List Host.Cell} {f0 : Nat} (s : State) (hs : K m0 f0 s.mem s.fuse) :
    K.out m0 f0 (execTaskcmdRelease s) := by
  unfold execTaskcmdRelease
  repeat' (first | with_reducible assumption | with_reducible refine K.of_out ‹_› ?_ | with_reducible refine K.of_body ‹_› ?_ | with_reducible apply commandTask_kept | with_reducible apply releaseTask_kept | with_reducible apply K.out_next | with_reducible apply K.out_fault | with_reducible apply K.out_refused | with_reducible apply K.body_ok | with_reducible apply K.body_error | with_reducible intro _ | dsimp only | split)

theorem execTaskcmdKill_kept {m0 : List Host.Cell} {f0 : Nat} (s : State) (hs : K m0 f0 s.mem s.fuse) :
    K.out m0 f0 (execTaskcmdKill s) := by
  unfold execTaskcmdKill
  repeat' (first | with_reducible assumption | with_reducible refine K.of_out ‹_› ?_ | with_reducible refine K.of_body ‹_› ?_ | with_reducible apply commandTask_kept | with_reducible apply killTask_kept | with_reducible apply K.out_next | with_reducible apply K.out_fault | with_reducible apply K.out_refused | with_reducible apply K.body_ok | with_reducible apply K.body_error | with_reducible intro _ | dsimp only | split)

theorem saveStrand_kept {m0 : List Host.Cell} {f0 : Nat} (t : Task) (key k : Nat) (x : Team) (s : State) (j : Nat) (hs : K m0 f0 s.mem s.fuse) :
    K m0 f0 (saveStrand t key k x s j).mem (saveStrand t key k x s j).fuse := by
  unfold saveStrand
  repeat' (first | with_reducible assumption | with_reducible apply writeVirtual_kept | with_reducible apply setSeq_kept | with_reducible intro _ | dsimp only | split)

theorem saveCore_kept {m0 : List Host.Cell} {f0 : Nat} (t : Task) (k : Nat) (s : State) (c : Nat) (hs : K m0 f0 s.mem s.fuse) :
    K m0 f0 (saveCore t k s c).mem (saveCore t k s c).fuse := by
  unfold saveCore
  repeat' (first | with_reducible assumption | with_reducible apply writeVirtual_kept | with_reducible apply setCore_kept | with_reducible intro _ | dsimp only | split)

theorem saveTeamArray_kept {m0 : List Host.Cell} {f0 : Nat} (s : State) (key k : Nat) (x : Team) (hs : K m0 f0 s.mem s.fuse) :
    K m0 f0 (saveTeamArray s key k x).mem (saveTeamArray s key k x).fuse := by
  unfold saveTeamArray
  repeat' (first | with_reducible assumption | with_reducible apply saveArray_kept | with_reducible apply dropLease_kept | with_reducible apply setQuad_kept | with_reducible intro _ | dsimp only | split)

theorem capturePreempt_kept {m0 : List Host.Cell} {f0 : Nat} (s : State) (die key : Nat) (hs : K m0 f0 s.mem s.fuse) :
    K m0 f0 (capturePreempt s die key).mem (capturePreempt s die key).fuse := by
  unfold capturePreempt
  repeat' (first | with_reducible assumption | with_reducible apply setDie_kept | with_reducible intro _ | dsimp only | split)

theorem teamEvent_kept {m0 : List Host.Cell} {f0 : Nat} (s : State) (kind : Nat) (t : Task) (k : Nat) (x : Team) (hs : K m0 f0 s.mem s.fuse) :
    K m0 f0 (teamEvent s kind t k x).mem (teamEvent s kind t k x).fuse := by
  unfold teamEvent
  repeat' (first | with_reducible assumption | with_reducible apply postEvent_kept | with_reducible intro _ | dsimp only | split)

theorem checkpointTeam_kept {m0 : List Host.Cell} {f0 : Nat} (s : State) (key k : Nat) (hs : K m0 f0 s.mem s.fuse) :
    K m0 f0 (checkpointTeam s key k).mem (checkpointTeam s key k).fuse := by
  unfold checkpointTeam
  repeat' (first | with_reducible assumption | with_reducible apply writeVirtual_kept | with_reducible apply saveTeamArray_kept | with_reducible apply saveStrand_kept | with_reducible apply saveCore_kept | with_reducible apply returnCool_kept | with_reducible apply setTask_kept | with_reducible apply teamEvent_kept | with_reducible apply capturePreempt_kept | with_reducible apply foldl_kept | with_reducible intro _ | dsimp only | split)

theorem execCheckpointWrite_kept {m0 : List Host.Cell} {f0 : Nat} (task team : Nat) (s : State) (hs : K m0 f0 s.mem s.fuse) :
    K.out m0 f0 (execCheckpointWrite task team s) := by
  unfold execCheckpointWrite
  repeat' (first | with_reducible assumption | with_reducible refine K.of_out ‹_› ?_ | with_reducible refine K.of_body ‹_› ?_ | with_reducible apply checkpointTeam_kept | with_reducible apply K.out_next | with_reducible apply K.out_fault | with_reducible apply K.out_refused | with_reducible apply K.body_ok | with_reducible apply K.body_error | with_reducible intro _ | dsimp only | split)

theorem restoreStrand_kept {m0 : List Host.Cell} {f0 : Nat} (t : Task) (key k : Nat) (x : Team) (s : State) (y : SavedStrand) (hs : K m0 f0 s.mem s.fuse) :
    K m0 f0 (restoreStrand t key k x s y).mem (restoreStrand t key k x s y).fuse := by
  unfold restoreStrand
  repeat' (first | with_reducible assumption | with_reducible apply passVirtual_kept | with_reducible apply setSeq_kept | with_reducible apply postEvent_kept | with_reducible intro _ | dsimp only | split)

theorem restoreCore_kept {m0 : List Host.Cell} {f0 : Nat} (t : Task) (key k : Nat) (s : State) (y : SavedCore) (hs : K m0 f0 s.mem s.fuse) :
    K m0 f0 (restoreCore t key k s y).mem (restoreCore t key k s y).fuse := by
  unfold restoreCore
  repeat' (first | with_reducible assumption | with_reducible apply setCore_kept | with_reducible apply passVirtual_kept | with_reducible intro _ | dsimp only | split)

theorem restoreTeam_kept {m0 : List Host.Cell} {f0 : Nat} (s : State) (key k : Nat) (hs : K m0 f0 s.mem s.fuse) :
    K m0 f0 (restoreTeam s key k).mem (restoreTeam s key k).fuse := by
  unfold restoreTeam
  repeat' (first | with_reducible assumption | with_reducible apply restoreCore_kept | with_reducible apply passVirtual_kept | with_reducible apply restoreStrand_kept | with_reducible apply setTask_kept | with_reducible apply teamEvent_kept | with_reducible apply takeCool_kept | with_reducible apply foldl_kept | with_reducible intro _ | dsimp only | split)

theorem execTeamRestore_kept {m0 : List Host.Cell} {f0 : Nat} (task team : Nat) (s : State) (hs : K m0 f0 s.mem s.fuse) :
    K.out m0 f0 (execTeamRestore task team s) := by
  unfold execTeamRestore
  repeat' (first | with_reducible assumption | with_reducible refine K.of_out ‹_› ?_ | with_reducible refine K.of_body ‹_› ?_ | with_reducible apply restoreTeam_kept | with_reducible apply K.out_next | with_reducible apply K.out_fault | with_reducible apply K.out_refused | with_reducible apply K.body_ok | with_reducible apply K.body_error | with_reducible intro _ | dsimp only | split)

theorem askLanding_kept {m0 : List Host.Cell} {f0 : Nat} (x : Team) (s : State) (j : Nat) (hs : K m0 f0 s.mem s.fuse) :
    K m0 f0 (askLanding x s j).mem (askLanding x s j).fuse := by
  unfold askLanding
  repeat' (first | with_reducible assumption | with_reducible apply setSeq_kept | with_reducible intro _ | dsimp only | split)

theorem startCheckpoint_kept {m0 : List Host.Cell} {f0 : Nat} (s : State) (key : Nat) (v : Task) (teams : List Nat) (hs : K m0 f0 s.mem s.fuse) :
    K m0 f0 (startCheckpoint s key v teams).mem (startCheckpoint s key v teams).fuse := by
  unfold startCheckpoint
  repeat' (first | with_reducible assumption | with_reducible apply askLanding_kept | with_reducible apply setTask_kept | with_reducible apply foldl_kept | with_reducible intro _ | dsimp only | split)

theorem spendTokens_kept {m0 : List Host.Cell} {f0 : Nat} (s : State) (key n : Nat) (hs : K m0 f0 s.mem s.fuse) :
    K m0 f0 (spendTokens s key n).mem (spendTokens s key n).fuse := by
  unfold spendTokens
  repeat' (first | with_reducible assumption | with_reducible apply setTask_kept | with_reducible intro _ | dsimp only | split)

theorem decideFor_kept {m0 : List Host.Cell} {f0 : Nat} (s : State) (die : Nat) (e : OrderEntry) (n : Task) (key : Nat) (v : Task) (teams : List Nat) (hs : K m0 f0 s.mem s.fuse) :
    K m0 f0 (decideFor s die e n key v teams).mem (decideFor s die e n key v teams).fuse := by
  unfold decideFor
  repeat' (first | with_reducible assumption | with_reducible apply setDie_kept | with_reducible apply startCheckpoint_kept | with_reducible apply spendTokens_kept | with_reducible apply killTask_kept | with_reducible intro _ | dsimp only | split)

theorem decide__kept {m0 : List Host.Cell} {f0 : Nat} (s : State) (die : Nat) (hs : K m0 f0 s.mem s.fuse) :
    K m0 f0 (decide_ s die).mem (decide_ s die).fuse := by
  unfold decide_
  repeat' (first | with_reducible assumption | with_reducible apply setDie_kept | with_reducible apply decideFor_kept | with_reducible intro _ | dsimp only | split)

theorem preemptDecision_kept {m0 : List Host.Cell} {f0 : Nat} (s : State) (die : Nat) (hs : K m0 f0 s.mem s.fuse) :
    K m0 f0 (preemptDecision s die).mem (preemptDecision s die).fuse := by
  unfold preemptDecision
  repeat' (first | with_reducible assumption | with_reducible apply decide__kept | with_reducible intro _ | dsimp only | split)

theorem preemptAgain_kept {m0 : List Host.Cell} {f0 : Nat} (s : State) (die : Nat) (hs : K m0 f0 s.mem s.fuse) :
    K m0 f0 (preemptAgain s die).mem (preemptAgain s die).fuse := by
  unfold preemptAgain
  repeat' (first | with_reducible assumption | with_reducible apply decide__kept | with_reducible intro _ | dsimp only | split)

theorem execPreemptDecision_kept {m0 : List Host.Cell} {f0 : Nat} (die : Nat) (s : State) (hs : K m0 f0 s.mem s.fuse) :
    K.out m0 f0 (execPreemptDecision die s) := by
  unfold execPreemptDecision
  repeat' (first | with_reducible assumption | with_reducible refine K.of_out ‹_› ?_ | with_reducible refine K.of_body ‹_› ?_ | with_reducible apply preemptDecision_kept | with_reducible apply K.out_next | with_reducible apply K.out_fault | with_reducible apply K.out_refused | with_reducible apply K.body_ok | with_reducible apply K.body_error | with_reducible intro _ | dsimp only | split)

theorem execPreemptReevaluate_kept {m0 : List Host.Cell} {f0 : Nat} (die : Nat) (s : State) (hs : K m0 f0 s.mem s.fuse) :
    K.out m0 f0 (execPreemptReevaluate die s) := by
  unfold execPreemptReevaluate
  repeat' (first | with_reducible assumption | with_reducible refine K.of_out ‹_› ?_ | with_reducible refine K.of_body ‹_› ?_ | with_reducible apply preemptAgain_kept | with_reducible apply K.out_next | with_reducible apply K.out_fault | with_reducible apply K.out_refused | with_reducible apply K.body_ok | with_reducible apply K.body_error | with_reducible intro _ | dsimp only | split)

end Sys2Proof.Machine
end

