-- ==== Sys2Proof/Laws/KeptTaskEnd.lean ====
section
/-! SUPPORT. Sys2Proof/Laws/KeptTaskEnd.lean: the operations of Machine/TaskEnd.lean keep memory canonical and never lower the fuses. -/

namespace Sys2Proof.Machine

theorem passDigest_kept {m0 : List Host.Cell} {f0 : Nat} (s : State) (t : Task) (hs : K m0 f0 s.mem s.fuse) :
    K m0 f0 (passDigest s t).mem (passDigest s t).fuse := by
  unfold passDigest
  repeat' (first | with_reducible assumption | with_reducible apply passView_kept | with_reducible apply foldl_kept | with_reducible intro _ | dsimp only | split)

theorem digestRecord_kept {m0 : List Host.Cell} {f0 : Nat} (s : State) (t : Task) (off result : Nat) (hs : K m0 f0 s.mem s.fuse) :
    K m0 f0 (digestRecord s t off result).mem (digestRecord s t off result).fuse := by
  unfold digestRecord
  repeat' (first | with_reducible assumption | with_reducible apply traceRecord_kept | with_reducible intro _ | dsimp only | split)

theorem replayEnd_kept {m0 : List Host.Cell} {f0 : Nat} (s : State) (t : Task) (hs : K m0 f0 s.mem s.fuse) :
    K m0 f0 (replayEnd s t).mem (replayEnd s t).fuse := by
  unfold replayEnd
  repeat' (first | with_reducible assumption | with_reducible apply passDigest_kept | with_reducible apply digestRecord_kept | with_reducible apply passHome_kept | with_reducible apply writeHome_kept | with_reducible intro _ | dsimp only | split)

theorem dropTask_kept {m0 : List Host.Cell} {f0 : Nat} (s : State) (key : Nat) (t : Task) (hs : K m0 f0 s.mem s.fuse) :
    K m0 f0 (dropTask s key t).mem (dropTask s key t).fuse := by
  unfold dropTask
  repeat' (first | with_reducible assumption | with_reducible intro _ | dsimp only | split)

theorem endTask_kept {m0 : List Host.Cell} {f0 : Nat} (s : State) (key : Nat) (t : Task) (hs : K m0 f0 s.mem s.fuse) :
    K m0 f0 (endTask s key t).mem (endTask s key t).fuse := by
  unfold endTask
  repeat' (first | with_reducible assumption | with_reducible apply flushForwards_kept | with_reducible apply replayEnd_kept | with_reducible apply hostDone_kept | with_reducible apply postEvent_kept | with_reducible apply dropTask_kept | with_reducible intro _ | dsimp only | split)

theorem endTeams_kept {m0 : List Host.Cell} {f0 : Nat} (s : State) (key : Nat) (t : Task) (hs : K m0 f0 s.mem s.fuse) :
    K m0 f0 (endTeams s key t).mem (endTeams s key t).fuse := by
  unfold endTeams
  repeat' (first | with_reducible assumption | with_reducible apply endTeam_kept | with_reducible apply foldl_kept | with_reducible intro _ | dsimp only | split)

theorem releaseLast_kept {m0 : List Host.Cell} {f0 : Nat} (s : State) (key : Nat) (l : List Nat) (hs : K m0 f0 s.mem s.fuse) :
    K m0 f0 (releaseLast s key l).mem (releaseLast s key l).fuse := by
  unfold releaseLast
  repeat' (first | with_reducible assumption | with_reducible apply releaseStrand_kept | with_reducible apply endTeams_kept | with_reducible apply foldl_kept | with_reducible intro _ | dsimp only | split)

theorem completeTask_kept {m0 : List Host.Cell} {f0 : Nat} (s : State) (key : Nat) (hs : K m0 f0 s.mem s.fuse) :
    K m0 f0 (completeTask s key).mem (completeTask s key).fuse := by
  unfold completeTask
  repeat' (first | with_reducible assumption | with_reducible apply finishStrand_kept | with_reducible apply releaseLast_kept | with_reducible apply endTask_kept | with_reducible apply foldl_kept | with_reducible intro _ | dsimp only | split)

theorem execTaskComplete_kept {m0 : List Host.Cell} {f0 : Nat} (task : Nat) (s : State) (hs : K m0 f0 s.mem s.fuse) :
    K.out m0 f0 (execTaskComplete task s) := by
  unfold execTaskComplete
  repeat' (first | with_reducible assumption | with_reducible refine K.of_out ‹_› ?_ | with_reducible refine K.of_body ‹_› ?_ | with_reducible apply completeTask_kept | with_reducible apply K.out_next | with_reducible apply K.out_fault | with_reducible apply K.out_refused | with_reducible apply K.body_ok | with_reducible apply K.body_error | with_reducible intro _ | dsimp only | split)

theorem freeSlots_kept {m0 : List Host.Cell} {f0 : Nat} (s : State) (hs : K m0 f0 s.mem s.fuse) :
    K m0 f0 (freeSlots s).mem (freeSlots s).fuse := by
  unfold freeSlots
  repeat' (first | with_reducible assumption | with_reducible intro _ | dsimp only | split)

theorem admitQueue_kept {m0 : List Host.Cell} {f0 : Nat} (s : State) (hs : K m0 f0 s.mem s.fuse) :
    K m0 f0 (admitQueue s).mem (admitQueue s).fuse := by
  unfold admitQueue
  repeat' (first | with_reducible assumption | with_reducible apply freeSlots_kept | with_reducible apply setHq_kept | with_reducible intro _ | dsimp only | split)

theorem execQueueSlotAdmit_kept {m0 : List Host.Cell} {f0 : Nat} (s : State) (hs : K m0 f0 s.mem s.fuse) :
    K.out m0 f0 (execQueueSlotAdmit s) := by
  unfold execQueueSlotAdmit
  repeat' (first | with_reducible assumption | with_reducible refine K.of_out ‹_› ?_ | with_reducible refine K.of_body ‹_› ?_ | with_reducible apply admitQueue_kept | with_reducible apply K.out_next | with_reducible apply K.out_fault | with_reducible apply K.out_refused | with_reducible apply K.body_ok | with_reducible apply K.body_error | with_reducible intro _ | dsimp only | split)

theorem readEntry_kept {m0 : List Host.Cell} {f0 : Nat} (s : State) (n kind : Nat) (st : Option Nat) (hs : K m0 f0 s.mem s.fuse) :
    K m0 f0 (readEntry s n kind st).mem (readEntry s n kind st).fuse := by
  unfold readEntry
  repeat' (first | with_reducible assumption | with_reducible apply setHq_kept | with_reducible intro _ | dsimp only | split)

theorem onEntry_kept {m0 : List Host.Cell} {f0 : Nat} (s : State) (n kind : Nat) (f : State → List Byte → State) (hs : K m0 f0 s.mem s.fuse) (hf : ∀ u x0, K m0 f0 u.mem u.fuse → K m0 f0 (f u x0).mem (f u x0).fuse) :
    K m0 f0 (onEntry s n kind f).mem (onEntry s n kind f).fuse := by
  unfold onEntry
  repeat' (first | with_reducible assumption | with_reducible apply passUncached_kept | with_reducible apply hf | with_reducible intro _ | dsimp only | split)

theorem hostLaunch_kept {m0 : List Host.Cell} {f0 : Nat} (n : Nat) (timed : Bool) (s : State) (l : List Byte) (hs : K m0 f0 s.mem s.fuse) :
    K m0 f0 (hostLaunch n timed s l).mem (hostLaunch n timed s l).fuse := by
  unfold hostLaunch
  repeat' (first | with_reducible assumption | with_reducible apply readEntry_kept | with_reducible apply launchTask_kept | with_reducible apply passVirtual_kept | with_reducible intro _ | dsimp only | split)

theorem execHqNop_kept {m0 : List Host.Cell} {f0 : Nat} (n : Nat) (s : State) (hs : K m0 f0 s.mem s.fuse) :
    K.out m0 f0 (execHqNop n s) := by
  unfold execHqNop
  repeat' (first | with_reducible assumption | with_reducible refine K.of_out ‹_› ?_ | with_reducible refine K.of_body ‹_› ?_ | with_reducible apply onEntry_kept | with_reducible apply readEntry_kept | with_reducible apply K.out_next | with_reducible apply K.out_fault | with_reducible apply K.out_refused | with_reducible apply K.body_ok | with_reducible apply K.body_error | with_reducible intro _ | dsimp only | split)

theorem execHqLaunch_kept {m0 : List Host.Cell} {f0 : Nat} (n : Nat) (s : State) (hs : K m0 f0 s.mem s.fuse) :
    K.out m0 f0 (execHqLaunch n s) := by
  unfold execHqLaunch
  repeat' (first | with_reducible assumption | with_reducible refine K.of_out ‹_› ?_ | with_reducible refine K.of_body ‹_› ?_ | with_reducible apply onEntry_kept | with_reducible apply hostLaunch_kept | with_reducible apply K.out_next | with_reducible apply K.out_fault | with_reducible apply K.out_refused | with_reducible apply K.body_ok | with_reducible apply K.body_error | with_reducible intro _ | dsimp only | split)

theorem execHqTimedLaunch_kept {m0 : List Host.Cell} {f0 : Nat} (n : Nat) (s : State) (hs : K m0 f0 s.mem s.fuse) :
    K.out m0 f0 (execHqTimedLaunch n s) := by
  unfold execHqTimedLaunch
  repeat' (first | with_reducible assumption | with_reducible refine K.of_out ‹_› ?_ | with_reducible refine K.of_body ‹_› ?_ | with_reducible apply onEntry_kept | with_reducible apply hostLaunch_kept | with_reducible apply K.out_next | with_reducible apply K.out_fault | with_reducible apply K.out_refused | with_reducible apply K.body_ok | with_reducible apply K.body_error | with_reducible intro _ | dsimp only | split)

theorem execHqFence_kept {m0 : List Host.Cell} {f0 : Nat} (n : Nat) (s : State) (hs : K m0 f0 s.mem s.fuse) :
    K.out m0 f0 (execHqFence n s) := by
  unfold execHqFence
  repeat' (first | with_reducible assumption | with_reducible refine K.of_out ‹_› ?_ | with_reducible refine K.of_body ‹_› ?_ | with_reducible apply onEntry_kept | with_reducible apply readEntry_kept | with_reducible apply K.out_next | with_reducible apply K.out_fault | with_reducible apply K.out_refused | with_reducible apply K.body_ok | with_reducible apply K.body_error | with_reducible intro _ | dsimp only | split)

theorem execHqInvalid_kept {m0 : List Host.Cell} {f0 : Nat} (n : Nat) (s : State) (hs : K m0 f0 s.mem s.fuse) :
    K.out m0 f0 (execHqInvalid n s) := by
  unfold execHqInvalid
  repeat' (first | with_reducible assumption | with_reducible refine K.of_out ‹_› ?_ | with_reducible refine K.of_body ‹_› ?_ | with_reducible apply onEntry_kept | with_reducible apply readEntry_kept | with_reducible apply K.out_next | with_reducible apply K.out_fault | with_reducible apply K.out_refused | with_reducible apply K.body_ok | with_reducible apply K.body_error | with_reducible intro _ | dsimp only | split)

theorem completeEntry_kept {m0 : List Host.Cell} {f0 : Nat} (s : State) (n i : Nat) (hs : K m0 f0 s.mem s.fuse) :
    K m0 f0 (completeEntry s n i).mem (completeEntry s n i).fuse := by
  unfold completeEntry
  repeat' (first | with_reducible assumption | with_reducible apply writeVirtual_kept | with_reducible apply flushForwards_kept | with_reducible apply setHq_kept | with_reducible intro _ | dsimp only | split)

theorem execHqEntryComplete_kept {m0 : List Host.Cell} {f0 : Nat} (n entry : Nat) (s : State) (hs : K m0 f0 s.mem s.fuse) :
    K.out m0 f0 (execHqEntryComplete n entry s) := by
  unfold execHqEntryComplete
  repeat' (first | with_reducible assumption | with_reducible refine K.of_out ‹_› ?_ | with_reducible refine K.of_body ‹_› ?_ | with_reducible apply completeEntry_kept | with_reducible apply K.out_next | with_reducible apply K.out_fault | with_reducible apply K.out_refused | with_reducible apply K.body_ok | with_reducible apply K.body_error | with_reducible intro _ | dsimp only | split)

theorem writeHqbase_kept {m0 : List Host.Cell} {f0 : Nat} (s : State) (n v : Nat) (hs : K m0 f0 s.mem s.fuse) :
    K m0 f0 (writeHqbase s n v).mem (writeHqbase s n v).fuse := by
  unfold writeHqbase
  repeat' (first | with_reducible assumption | with_reducible apply setHq_kept | with_reducible intro _ | dsimp only | split)

theorem writeHqctl_kept {m0 : List Host.Cell} {f0 : Nat} (s : State) (n v : Nat) (hs : K m0 f0 s.mem s.fuse) :
    K m0 f0 (writeHqctl s n v).mem (writeHqctl s n v).fuse := by
  unfold writeHqctl
  repeat' (first | with_reducible assumption | with_reducible apply setHq_kept | with_reducible intro _ | dsimp only | split)

theorem writeNotify_kept {m0 : List Host.Cell} {f0 : Nat} (s : State) (n v : Nat) (hs : K m0 f0 s.mem s.fuse) :
    K m0 f0 (writeNotify s n v).mem (writeNotify s n v).fuse := by
  unfold writeNotify
  repeat' (first | with_reducible assumption | with_reducible apply setHq_kept | with_reducible intro _ | dsimp only | split)

theorem execHqctlWrite_kept {m0 : List Host.Cell} {f0 : Nat} (s : State) (hs : K m0 f0 s.mem s.fuse) :
    K.out m0 f0 (execHqctlWrite s) := by
  unfold execHqctlWrite
  repeat' (first | with_reducible assumption | with_reducible refine K.of_out ‹_› ?_ | with_reducible refine K.of_body ‹_› ?_ | with_reducible apply writeHqctl_kept | with_reducible apply K.out_next | with_reducible apply K.out_fault | with_reducible apply K.out_refused | with_reducible apply K.body_ok | with_reducible apply K.body_error | with_reducible intro _ | dsimp only | split)

theorem execNotify_kept {m0 : List Host.Cell} {f0 : Nat} (s : State) (hs : K m0 f0 s.mem s.fuse) :
    K.out m0 f0 (execNotify s) := by
  unfold execNotify
  repeat' (first | with_reducible assumption | with_reducible refine K.of_out ‹_› ?_ | with_reducible refine K.of_body ‹_› ?_ | with_reducible apply writeNotify_kept | with_reducible apply K.out_next | with_reducible apply K.out_fault | with_reducible apply K.out_refused | with_reducible apply K.body_ok | with_reducible apply K.body_error | with_reducible intro _ | dsimp only | split)

end Sys2Proof.Machine
end

