-- ==== Sys2Proof/Laws/KeptCooling.lean ====
section
/-! SUPPORT. Sys2Proof/Laws/KeptCooling.lean: the operations of Machine/Cooling.lean keep memory canonical and never lower the fuses. -/

namespace Sys2Proof.Machine

theorem putZone_kept {m0 : List Host.Cell} {f0 : Nat} (s : State) (z : Nat) (x : Zone) (hs : K m0 f0 s.mem s.fuse) :
    K m0 f0 (putZone s z x).mem (putZone s z x).fuse := by
  unfold putZone
  repeat' (first | with_reducible assumption | with_reducible apply setZone_kept | with_reducible apply traceRecord_kept | with_reducible intro _ | dsimp only | split)

theorem sampleZone_kept {m0 : List Host.Cell} {f0 : Nat} (s : State) (z v : Nat) (hs : K m0 f0 s.mem s.fuse) :
    K m0 f0 (sampleZone s z v).mem (sampleZone s z v).fuse := by
  unfold sampleZone
  repeat' (first | with_reducible assumption | with_reducible apply putZone_kept | with_reducible intro _ | dsimp only | split)

theorem zoneEvent_kept {m0 : List Host.Cell} {f0 : Nat} (s : State) (z kind detail : Nat) (hs : K m0 f0 s.mem s.fuse) :
    K m0 f0 (zoneEvent s z kind detail).mem (zoneEvent s z kind detail).fuse := by
  unfold zoneEvent
  repeat' (first | with_reducible assumption | with_reducible apply postEvent_kept | with_reducible intro _ | dsimp only | split)

theorem lowFlowTrap_kept {m0 : List Host.Cell} {f0 : Nat} (s : State) (z : Nat) (hs : K m0 f0 s.mem s.fuse) :
    K m0 f0 (lowFlowTrap s z).mem (lowFlowTrap s z).fuse := by
  unfold lowFlowTrap
  repeat' (first | with_reducible assumption | with_reducible apply zoneEvent_kept | with_reducible apply putZone_kept | with_reducible intro _ | dsimp only | split)

theorem overTempTrap_kept {m0 : List Host.Cell} {f0 : Nat} (s : State) (z : Nat) (hs : K m0 f0 s.mem s.fuse) :
    K m0 f0 (overTempTrap s z).mem (overTempTrap s z).fuse := by
  unfold overTempTrap
  repeat' (first | with_reducible assumption | with_reducible apply zoneEvent_kept | with_reducible apply putZone_kept | with_reducible intro _ | dsimp only | split)

theorem evacuateTask_kept {m0 : List Host.Cell} {f0 : Nat} (z : Nat) (s : State) (key : Nat) (hs : K m0 f0 s.mem s.fuse) :
    K m0 f0 (evacuateTask z s key).mem (evacuateTask z s key).fuse := by
  unfold evacuateTask
  repeat' (first | with_reducible assumption | with_reducible apply killTask_kept | with_reducible apply startCheckpoint_kept | with_reducible intro _ | dsimp only | split)

theorem startEvac_kept {m0 : List Host.Cell} {f0 : Nat} (s : State) (z : Nat) (hs : K m0 f0 s.mem s.fuse) :
    K m0 f0 (startEvac s z).mem (startEvac s z).fuse := by
  unfold startEvac
  repeat' (first | with_reducible assumption | with_reducible apply putZone_kept | with_reducible apply evacuateTask_kept | with_reducible apply foldl_kept | with_reducible intro _ | dsimp only | split)

theorem dryTrap_kept {m0 : List Host.Cell} {f0 : Nat} (s : State) (z : Nat) (hs : K m0 f0 s.mem s.fuse) :
    K m0 f0 (dryTrap s z).mem (dryTrap s z).fuse := by
  unfold dryTrap
  repeat' (first | with_reducible assumption | with_reducible apply zoneEvent_kept | with_reducible apply putZone_kept | with_reducible apply startEvac_kept | with_reducible intro _ | dsimp only | split)

theorem writeEvac_kept {m0 : List Host.Cell} {f0 : Nat} (s : State) (z : Nat) (hs : K m0 f0 s.mem s.fuse) :
    K m0 f0 (writeEvac s z).mem (writeEvac s z).fuse := by
  unfold writeEvac
  repeat' (first | with_reducible assumption | with_reducible apply startEvac_kept | with_reducible intro _ | dsimp only | split)

theorem drainTimeout_kept {m0 : List Host.Cell} {f0 : Nat} (s : State) (z : Nat) (hs : K m0 f0 s.mem s.fuse) :
    K m0 f0 (drainTimeout s z).mem (drainTimeout s z).fuse := by
  unfold drainTimeout
  repeat' (first | with_reducible assumption | with_reducible apply killTask_kept | with_reducible apply putZone_kept | with_reducible apply foldl_kept | with_reducible intro _ | dsimp only | split)

theorem valveClosed_kept {m0 : List Host.Cell} {f0 : Nat} (s : State) (z : Nat) (hs : K m0 f0 s.mem s.fuse) :
    K m0 f0 (valveClosed s z).mem (valveClosed s z).fuse := by
  unfold valveClosed
  repeat' (first | with_reducible assumption | with_reducible apply putZone_kept | with_reducible intro _ | dsimp only | split)

theorem purgeDone_kept {m0 : List Host.Cell} {f0 : Nat} (s : State) (z : Nat) (hs : K m0 f0 s.mem s.fuse) :
    K m0 f0 (purgeDone s z).mem (purgeDone s z).fuse := by
  unfold purgeDone
  repeat' (first | with_reducible assumption | with_reducible apply putZone_kept | with_reducible intro _ | dsimp only | split)

theorem verifyDone_kept {m0 : List Host.Cell} {f0 : Nat} (s : State) (z : Nat) (hs : K m0 f0 s.mem s.fuse) :
    K m0 f0 (verifyDone s z).mem (verifyDone s z).fuse := by
  unfold verifyDone
  repeat' (first | with_reducible assumption | with_reducible apply zoneEvent_kept | with_reducible apply putZone_kept | with_reducible intro _ | dsimp only | split)

theorem writeReturn_kept {m0 : List Host.Cell} {f0 : Nat} (s : State) (z : Nat) (hs : K m0 f0 s.mem s.fuse) :
    K m0 f0 (writeReturn s z).mem (writeReturn s z).fuse := by
  unfold writeReturn
  repeat' (first | with_reducible assumption | with_reducible apply putZone_kept | with_reducible intro _ | dsimp only | split)

theorem zoneReady_kept {m0 : List Host.Cell} {f0 : Nat} (s : State) (z : Nat) (hs : K m0 f0 s.mem s.fuse) :
    K m0 f0 (zoneReady s z).mem (zoneReady s z).fuse := by
  unfold zoneReady
  repeat' (first | with_reducible assumption | with_reducible apply zoneEvent_kept | with_reducible apply putZone_kept | with_reducible intro _ | dsimp only | split)

theorem writeValve_kept {m0 : List Host.Cell} {f0 : Nat} (s : State) (z v : Nat) (hs : K m0 f0 s.mem s.fuse) :
    K m0 f0 (writeValve s z v).mem (writeValve s z v).fuse := by
  unfold writeValve
  repeat' (first | with_reducible assumption | with_reducible apply putZone_kept | with_reducible intro _ | dsimp only | split)

theorem writeZctl_kept {m0 : List Host.Cell} {f0 : Nat} (s : State) (z v : Nat) (hs : K m0 f0 s.mem s.fuse) :
    K m0 f0 (writeZctl s z v).mem (writeZctl s z v).fuse := by
  unfold writeZctl
  repeat' (first | with_reducible assumption | with_reducible apply writeValve_kept | with_reducible apply writeEvac_kept | with_reducible apply writeReturn_kept | with_reducible intro _ | dsimp only | split)

theorem writeZone_kept {m0 : List Host.Cell} {f0 : Nat} (s : State) (z off v : Nat) (hs : K m0 f0 s.mem s.fuse) :
    K m0 f0 (writeZone s z off v).mem (writeZone s z off v).fuse := by
  unfold writeZone
  repeat' (first | with_reducible assumption | with_reducible apply writeZctl_kept | with_reducible apply putZone_kept | with_reducible intro _ | dsimp only | split)

theorem execSensorSample_kept {m0 : List Host.Cell} {f0 : Nat} (s : State) (hs : K m0 f0 s.mem s.fuse) :
    K.out m0 f0 (execSensorSample s) := by
  unfold execSensorSample
  repeat' (first | with_reducible assumption | with_reducible refine K.of_out ‹_› ?_ | with_reducible refine K.of_body ‹_› ?_ | with_reducible apply sampleZone_kept | with_reducible apply K.out_next | with_reducible apply K.out_fault | with_reducible apply K.out_refused | with_reducible apply K.body_ok | with_reducible apply K.body_error | with_reducible intro _ | dsimp only | split)

theorem execCoolLowflow_kept {m0 : List Host.Cell} {f0 : Nat} (zone : Nat) (s : State) (hs : K m0 f0 s.mem s.fuse) :
    K.out m0 f0 (execCoolLowflow zone s) := by
  unfold execCoolLowflow
  repeat' (first | with_reducible assumption | with_reducible refine K.of_out ‹_› ?_ | with_reducible refine K.of_body ‹_› ?_ | with_reducible apply lowFlowTrap_kept | with_reducible apply K.out_next | with_reducible apply K.out_fault | with_reducible apply K.out_refused | with_reducible apply K.body_ok | with_reducible apply K.body_error | with_reducible intro _ | dsimp only | split)

theorem execCoolOvertemp_kept {m0 : List Host.Cell} {f0 : Nat} (zone : Nat) (s : State) (hs : K m0 f0 s.mem s.fuse) :
    K.out m0 f0 (execCoolOvertemp zone s) := by
  unfold execCoolOvertemp
  repeat' (first | with_reducible assumption | with_reducible refine K.of_out ‹_› ?_ | with_reducible refine K.of_body ‹_› ?_ | with_reducible apply overTempTrap_kept | with_reducible apply K.out_next | with_reducible apply K.out_fault | with_reducible apply K.out_refused | with_reducible apply K.body_ok | with_reducible apply K.body_error | with_reducible intro _ | dsimp only | split)

theorem execCoolDry_kept {m0 : List Host.Cell} {f0 : Nat} (zone : Nat) (s : State) (hs : K m0 f0 s.mem s.fuse) :
    K.out m0 f0 (execCoolDry zone s) := by
  unfold execCoolDry
  repeat' (first | with_reducible assumption | with_reducible refine K.of_out ‹_› ?_ | with_reducible refine K.of_body ‹_› ?_ | with_reducible apply dryTrap_kept | with_reducible apply K.out_next | with_reducible apply K.out_fault | with_reducible apply K.out_refused | with_reducible apply K.body_ok | with_reducible apply K.body_error | with_reducible intro _ | dsimp only | split)

theorem execZctlEvac_kept {m0 : List Host.Cell} {f0 : Nat} (s : State) (hs : K m0 f0 s.mem s.fuse) :
    K.out m0 f0 (execZctlEvac s) := by
  unfold execZctlEvac
  repeat' (first | with_reducible assumption | with_reducible refine K.of_out ‹_› ?_ | with_reducible refine K.of_body ‹_› ?_ | with_reducible apply writeEvac_kept | with_reducible apply K.out_next | with_reducible apply K.out_fault | with_reducible apply K.out_refused | with_reducible apply K.body_ok | with_reducible apply K.body_error | with_reducible intro _ | dsimp only | split)

theorem execZctlReturn_kept {m0 : List Host.Cell} {f0 : Nat} (s : State) (hs : K m0 f0 s.mem s.fuse) :
    K.out m0 f0 (execZctlReturn s) := by
  unfold execZctlReturn
  repeat' (first | with_reducible assumption | with_reducible refine K.of_out ‹_› ?_ | with_reducible refine K.of_body ‹_› ?_ | with_reducible apply writeReturn_kept | with_reducible apply K.out_next | with_reducible apply K.out_fault | with_reducible apply K.out_refused | with_reducible apply K.body_ok | with_reducible apply K.body_error | with_reducible intro _ | dsimp only | split)

theorem execZctlWrite_kept {m0 : List Host.Cell} {f0 : Nat} (s : State) (hs : K m0 f0 s.mem s.fuse) :
    K.out m0 f0 (execZctlWrite s) := by
  unfold execZctlWrite
  repeat' (first | with_reducible assumption | with_reducible refine K.of_out ‹_› ?_ | with_reducible refine K.of_body ‹_› ?_ | with_reducible apply writeValve_kept | with_reducible apply K.out_next | with_reducible apply K.out_fault | with_reducible apply K.out_refused | with_reducible apply K.body_ok | with_reducible apply K.body_error | with_reducible intro _ | dsimp only | split)

theorem execEvacDrainTimeout_kept {m0 : List Host.Cell} {f0 : Nat} (zone : Nat) (s : State) (hs : K m0 f0 s.mem s.fuse) :
    K.out m0 f0 (execEvacDrainTimeout zone s) := by
  unfold execEvacDrainTimeout
  repeat' (first | with_reducible assumption | with_reducible refine K.of_out ‹_› ?_ | with_reducible refine K.of_body ‹_› ?_ | with_reducible apply drainTimeout_kept | with_reducible apply K.out_next | with_reducible apply K.out_fault | with_reducible apply K.out_refused | with_reducible apply K.body_ok | with_reducible apply K.body_error | with_reducible intro _ | dsimp only | split)

theorem execEvacValveClosed_kept {m0 : List Host.Cell} {f0 : Nat} (zone : Nat) (s : State) (hs : K m0 f0 s.mem s.fuse) :
    K.out m0 f0 (execEvacValveClosed zone s) := by
  unfold execEvacValveClosed
  repeat' (first | with_reducible assumption | with_reducible refine K.of_out ‹_› ?_ | with_reducible refine K.of_body ‹_› ?_ | with_reducible apply valveClosed_kept | with_reducible apply K.out_next | with_reducible apply K.out_fault | with_reducible apply K.out_refused | with_reducible apply K.body_ok | with_reducible apply K.body_error | with_reducible intro _ | dsimp only | split)

theorem execEvacPurgeDone_kept {m0 : List Host.Cell} {f0 : Nat} (zone : Nat) (s : State) (hs : K m0 f0 s.mem s.fuse) :
    K.out m0 f0 (execEvacPurgeDone zone s) := by
  unfold execEvacPurgeDone
  repeat' (first | with_reducible assumption | with_reducible refine K.of_out ‹_› ?_ | with_reducible refine K.of_body ‹_› ?_ | with_reducible apply purgeDone_kept | with_reducible apply K.out_next | with_reducible apply K.out_fault | with_reducible apply K.out_refused | with_reducible apply K.body_ok | with_reducible apply K.body_error | with_reducible intro _ | dsimp only | split)

theorem execEvacVerifyDone_kept {m0 : List Host.Cell} {f0 : Nat} (zone : Nat) (s : State) (hs : K m0 f0 s.mem s.fuse) :
    K.out m0 f0 (execEvacVerifyDone zone s) := by
  unfold execEvacVerifyDone
  repeat' (first | with_reducible assumption | with_reducible refine K.of_out ‹_› ?_ | with_reducible refine K.of_body ‹_› ?_ | with_reducible apply verifyDone_kept | with_reducible apply K.out_next | with_reducible apply K.out_fault | with_reducible apply K.out_refused | with_reducible apply K.body_ok | with_reducible apply K.body_error | with_reducible intro _ | dsimp only | split)

theorem execZoneReady_kept {m0 : List Host.Cell} {f0 : Nat} (zone : Nat) (s : State) (hs : K m0 f0 s.mem s.fuse) :
    K.out m0 f0 (execZoneReady zone s) := by
  unfold execZoneReady
  repeat' (first | with_reducible assumption | with_reducible refine K.of_out ‹_› ?_ | with_reducible refine K.of_body ‹_› ?_ | with_reducible apply zoneReady_kept | with_reducible apply K.out_next | with_reducible apply K.out_fault | with_reducible apply K.out_refused | with_reducible apply K.body_ok | with_reducible apply K.body_error | with_reducible intro _ | dsimp only | split)

end Sys2Proof.Machine
end

