-- ==== Sys2Proof/Laws/KeptTraceRegs.lean ====
section
/-! SUPPORT. Sys2Proof/Laws/KeptTraceRegs.lean: the operations of Machine/TraceRegs.lean keep memory canonical and never lower the fuses. -/

namespace Sys2Proof.Machine

theorem execLost_kept {m0 : List Host.Cell} {f0 : Nat} (die : Nat) (s : State) (hs : K m0 f0 s.mem s.fuse) :
    K.out m0 f0 (execLost die s) := by
  unfold execLost
  repeat' (first | with_reducible assumption | with_reducible refine K.of_out ‹_› ?_ | with_reducible refine K.of_body ‹_› ?_ | with_reducible apply traceLost_kept | with_reducible apply K.out_next | with_reducible apply K.out_fault | with_reducible apply K.out_refused | with_reducible apply K.body_ok | with_reducible apply K.body_error | with_reducible intro _ | dsimp only | split)

theorem execResync_kept {m0 : List Host.Cell} {f0 : Nat} (die : Nat) (s : State) (hs : K m0 f0 s.mem s.fuse) :
    K.out m0 f0 (execResync die s) := by
  unfold execResync
  repeat' (first | with_reducible assumption | with_reducible refine K.of_out ‹_› ?_ | with_reducible refine K.of_body ‹_› ?_ | with_reducible apply traceResync_kept | with_reducible apply K.out_next | with_reducible apply K.out_fault | with_reducible apply K.out_refused | with_reducible apply K.body_ok | with_reducible apply K.body_error | with_reducible intro _ | dsimp only | split)

theorem writeTrctl_kept {m0 : List Host.Cell} {f0 : Nat} (s : State) (d v : Nat) (hs : K m0 f0 s.mem s.fuse) :
    K m0 f0 (writeTrctl s d v).mem (writeTrctl s d v).fuse := by
  unfold writeTrctl
  repeat' (first | with_reducible assumption | with_reducible apply setDie_kept | with_reducible intro _ | dsimp only | split)

theorem writeTrbase_kept {m0 : List Host.Cell} {f0 : Nat} (s : State) (d v : Nat) (hs : K m0 f0 s.mem s.fuse) :
    K m0 f0 (writeTrbase s d v).mem (writeTrbase s d v).fuse := by
  unfold writeTrbase
  repeat' (first | with_reducible assumption | with_reducible apply setDie_kept | with_reducible intro _ | dsimp only | split)

theorem writeTrptr_kept {m0 : List Host.Cell} {f0 : Nat} (s : State) (d v : Nat) (hs : K m0 f0 s.mem s.fuse) :
    K m0 f0 (writeTrptr s d v).mem (writeTrptr s d v).fuse := by
  unfold writeTrptr
  repeat' (first | with_reducible assumption | with_reducible apply setDie_kept | with_reducible intro _ | dsimp only | split)

theorem execTrctlWrite_kept {m0 : List Host.Cell} {f0 : Nat} (s : State) (hs : K m0 f0 s.mem s.fuse) :
    K.out m0 f0 (execTrctlWrite s) := by
  unfold execTrctlWrite
  repeat' (first | with_reducible assumption | with_reducible refine K.of_out ‹_› ?_ | with_reducible refine K.of_body ‹_› ?_ | with_reducible apply writeTrctl_kept | with_reducible apply K.out_next | with_reducible apply K.out_fault | with_reducible apply K.out_refused | with_reducible apply K.body_ok | with_reducible apply K.body_error | with_reducible intro _ | dsimp only | split)

theorem startCapture_kept {m0 : List Host.Cell} {f0 : Nat} (s : State) (d id : Nat) (hs : K m0 f0 s.mem s.fuse) :
    K m0 f0 (startCapture s d id).mem (startCapture s d id).fuse := by
  unfold startCapture
  repeat' (first | with_reducible assumption | with_reducible apply traceRecord_kept | with_reducible apply setDie_kept | with_reducible intro _ | dsimp only | split)

theorem stopCapture_kept {m0 : List Host.Cell} {f0 : Nat} (s : State) (d id : Nat) (hs : K m0 f0 s.mem s.fuse) :
    K m0 f0 (stopCapture s d id).mem (stopCapture s d id).fuse := by
  unfold stopCapture
  repeat' (first | with_reducible assumption | with_reducible apply setDie_kept | with_reducible apply writeHome_kept | with_reducible apply traceAfter_kept | with_reducible intro _ | dsimp only | split)

theorem writeTrcap_kept {m0 : List Host.Cell} {f0 : Nat} (s : State) (d v : Nat) (hs : K m0 f0 s.mem s.fuse) :
    K m0 f0 (writeTrcap s d v).mem (writeTrcap s d v).fuse := by
  unfold writeTrcap
  repeat' (first | with_reducible assumption | with_reducible apply startCapture_kept | with_reducible apply stopCapture_kept | with_reducible intro _ | dsimp only | split)

theorem execCapstart_kept {m0 : List Host.Cell} {f0 : Nat} (s : State) (hs : K m0 f0 s.mem s.fuse) :
    K.out m0 f0 (execCapstart s) := by
  unfold execCapstart
  repeat' (first | with_reducible assumption | with_reducible refine K.of_out ‹_› ?_ | with_reducible refine K.of_body ‹_› ?_ | with_reducible apply startCapture_kept | with_reducible apply K.out_next | with_reducible apply K.out_fault | with_reducible apply K.out_refused | with_reducible apply K.body_ok | with_reducible apply K.body_error | with_reducible intro _ | dsimp only | split)

theorem execCapstop_kept {m0 : List Host.Cell} {f0 : Nat} (s : State) (hs : K m0 f0 s.mem s.fuse) :
    K.out m0 f0 (execCapstop s) := by
  unfold execCapstop
  repeat' (first | with_reducible assumption | with_reducible refine K.of_out ‹_› ?_ | with_reducible refine K.of_body ‹_› ?_ | with_reducible apply stopCapture_kept | with_reducible apply K.out_next | with_reducible apply K.out_fault | with_reducible apply K.out_refused | with_reducible apply K.body_ok | with_reducible apply K.body_error | with_reducible intro _ | dsimp only | split)

theorem writeRpctl_kept {m0 : List Host.Cell} {f0 : Nat} (s : State) (d v : Nat) (hs : K m0 f0 s.mem s.fuse) :
    K m0 f0 (writeRpctl s d v).mem (writeRpctl s d v).fuse := by
  unfold writeRpctl
  repeat' (first | with_reducible assumption | with_reducible apply setDie_kept | with_reducible intro _ | dsimp only | split)

theorem execRpctlWrite_kept {m0 : List Host.Cell} {f0 : Nat} (s : State) (hs : K m0 f0 s.mem s.fuse) :
    K.out m0 f0 (execRpctlWrite s) := by
  unfold execRpctlWrite
  repeat' (first | with_reducible assumption | with_reducible refine K.of_out ‹_› ?_ | with_reducible refine K.of_body ‹_› ?_ | with_reducible apply writeRpctl_kept | with_reducible apply K.out_next | with_reducible apply K.out_fault | with_reducible apply K.out_refused | with_reducible apply K.body_ok | with_reducible apply K.body_error | with_reducible intro _ | dsimp only | split)

theorem writeTrace_kept {m0 : List Host.Cell} {f0 : Nat} (s : State) (d off v : Nat) (hs : K m0 f0 s.mem s.fuse) :
    K m0 f0 (writeTrace s d off v).mem (writeTrace s d off v).fuse := by
  unfold writeTrace
  repeat' (first | with_reducible assumption | with_reducible apply writeTrctl_kept | with_reducible apply writeTrbase_kept | with_reducible apply writeTrptr_kept | with_reducible apply writeTrcap_kept | with_reducible apply setDie_kept | with_reducible apply writeRpctl_kept | with_reducible intro _ | dsimp only | split)

end Sys2Proof.Machine
end

