-- ==== Sys2Proof/Laws/KeptPod.lean ====
section
/-! SUPPORT. Sys2Proof/Laws/KeptPod.lean: the operations of Machine/Pod.lean keep memory canonical and never lower the fuses. -/

namespace Sys2Proof.Machine

theorem setPod_kept {m0 : List Host.Cell} {f0 : Nat} (s : State) (p : Pod) (hs : K m0 f0 s.mem s.fuse) :
    K m0 f0 (setPod s p).mem (setPod s p).fuse := by
  unfold setPod
  repeat' (first | with_reducible assumption | with_reducible intro _ | dsimp only | split)

theorem setDest_kept {m0 : List Host.Cell} {f0 : Nat} (s : State) (n : Nat) (x : PodDest) (hs : K m0 f0 s.mem s.fuse) :
    K m0 f0 (setDest s n x).mem (setDest s n x).fuse := by
  unfold setDest
  repeat' (first | with_reducible assumption | with_reducible apply setPod_kept | with_reducible intro _ | dsimp only | split)

theorem writePodid_kept {m0 : List Host.Cell} {f0 : Nat} (s : State) (v : Nat) (hs : K m0 f0 s.mem s.fuse) :
    K m0 f0 (writePodid s v).mem (writePodid s v).fuse := by
  unfold writePodid
  repeat' (first | with_reducible assumption | with_reducible apply setPod_kept | with_reducible intro _ | dsimp only | split)

theorem writeRtimeout_kept {m0 : List Host.Cell} {f0 : Nat} (s : State) (v : Nat) (hs : K m0 f0 s.mem s.fuse) :
    K m0 f0 (writeRtimeout s v).mem (writeRtimeout s v).fuse := by
  unfold writeRtimeout
  repeat' (first | with_reducible assumption | with_reducible apply setPod_kept | with_reducible intro _ | dsimp only | split)

theorem unfence_kept {m0 : List Host.Cell} {f0 : Nat} (s : State) (n : Nat) (hs : K m0 f0 s.mem s.fuse) :
    K m0 f0 (unfence s n).mem (unfence s n).fuse := by
  unfold unfence
  repeat' (first | with_reducible assumption | with_reducible apply setDest_kept | with_reducible intro _ | dsimp only | split)

theorem writeDest_kept {m0 : List Host.Cell} {f0 : Nat} (s : State) (n v : Nat) (hs : K m0 f0 s.mem s.fuse) :
    K m0 f0 (writeDest s n v).mem (writeDest s n v).fuse := by
  unfold writeDest
  repeat' (first | with_reducible assumption | with_reducible apply setDest_kept | with_reducible intro _ | dsimp only | split)

theorem writeGroup_kept {m0 : List Host.Cell} {f0 : Nat} (s : State) (g v : Nat) (hs : K m0 f0 s.mem s.fuse) :
    K m0 f0 (writeGroup s g v).mem (writeGroup s g v).fuse := by
  unfold writeGroup
  repeat' (first | with_reducible assumption | with_reducible apply setPod_kept | with_reducible intro _ | dsimp only | split)

theorem writePodReg_kept {m0 : List Host.Cell} {f0 : Nat} (s : State) (off v : Nat) (hs : K m0 f0 s.mem s.fuse) :
    K m0 f0 (writePodReg s off v).mem (writePodReg s off v).fuse := by
  unfold writePodReg
  repeat' (first | with_reducible assumption | with_reducible apply writePodid_kept | with_reducible apply writeRtimeout_kept | with_reducible apply writeDest_kept | with_reducible apply writeGroup_kept | with_reducible intro _ | dsimp only | split)

theorem execPodidWrite_kept {m0 : List Host.Cell} {f0 : Nat} (s : State) (hs : K m0 f0 s.mem s.fuse) :
    K.out m0 f0 (execPodidWrite s) := by
  unfold execPodidWrite
  repeat' (first | with_reducible assumption | with_reducible refine K.of_out ‹_› ?_ | with_reducible refine K.of_body ‹_› ?_ | with_reducible apply writePodid_kept | with_reducible apply K.out_next | with_reducible apply K.out_fault | with_reducible apply K.out_refused | with_reducible apply K.body_ok | with_reducible apply K.body_error | with_reducible intro _ | dsimp only | split)

theorem execDestWrite_kept {m0 : List Host.Cell} {f0 : Nat} (s : State) (hs : K m0 f0 s.mem s.fuse) :
    K.out m0 f0 (execDestWrite s) := by
  unfold execDestWrite
  repeat' (first | with_reducible assumption | with_reducible refine K.of_out ‹_› ?_ | with_reducible refine K.of_body ‹_› ?_ | with_reducible apply writeDest_kept | with_reducible apply K.out_next | with_reducible apply K.out_fault | with_reducible apply K.out_refused | with_reducible apply K.body_ok | with_reducible apply K.body_error | with_reducible intro _ | dsimp only | split)

theorem execDestFencedClear_kept {m0 : List Host.Cell} {f0 : Nat} (s : State) (hs : K m0 f0 s.mem s.fuse) :
    K.out m0 f0 (execDestFencedClear s) := by
  unfold execDestFencedClear
  repeat' (first | with_reducible assumption | with_reducible refine K.of_out ‹_› ?_ | with_reducible refine K.of_body ‹_› ?_ | with_reducible apply unfence_kept | with_reducible apply K.out_next | with_reducible apply K.out_fault | with_reducible apply K.out_refused | with_reducible apply K.body_ok | with_reducible apply K.body_error | with_reducible intro _ | dsimp only | split)

theorem stationUp_kept {m0 : List Host.Cell} {f0 : Nat} (s : State) (n : Nat) (hs : K m0 f0 s.mem s.fuse) :
    K m0 f0 (stationUp s n).mem (stationUp s n).fuse := by
  unfold stationUp
  repeat' (first | with_reducible assumption | with_reducible apply setPod_kept | with_reducible intro _ | dsimp only | split)

theorem stationDown_kept {m0 : List Host.Cell} {f0 : Nat} (s : State) (n : Nat) (hs : K m0 f0 s.mem s.fuse) :
    K m0 f0 (stationDown s n).mem (stationDown s n).fuse := by
  unfold stationDown
  repeat' (first | with_reducible assumption | with_reducible apply setPod_kept | with_reducible intro _ | dsimp only | split)

theorem execStationUp_kept {m0 : List Host.Cell} {f0 : Nat} (station : Nat) (s : State) (hs : K m0 f0 s.mem s.fuse) :
    K.out m0 f0 (execStationUp station s) := by
  unfold execStationUp
  repeat' (first | with_reducible assumption | with_reducible refine K.of_out ‹_› ?_ | with_reducible refine K.of_body ‹_› ?_ | with_reducible apply stationUp_kept | with_reducible apply K.out_next | with_reducible apply K.out_fault | with_reducible apply K.out_refused | with_reducible apply K.body_ok | with_reducible apply K.body_error | with_reducible intro _ | dsimp only | split)

theorem execStationDown_kept {m0 : List Host.Cell} {f0 : Nat} (station : Nat) (s : State) (hs : K m0 f0 s.mem s.fuse) :
    K.out m0 f0 (execStationDown station s) := by
  unfold execStationDown
  repeat' (first | with_reducible assumption | with_reducible refine K.of_out ‹_› ?_ | with_reducible refine K.of_body ‹_› ?_ | with_reducible apply stationDown_kept | with_reducible apply K.out_next | with_reducible apply K.out_fault | with_reducible apply K.out_refused | with_reducible apply K.body_ok | with_reducible apply K.body_error | with_reducible intro _ | dsimp only | split)

theorem putRequest_kept {m0 : List Host.Cell} {f0 : Nat} (s : State) (r : Request) (hs : K m0 f0 s.mem s.fuse) :
    K m0 f0 (putRequest s r).mem (putRequest s r).fuse := by
  unfold putRequest
  repeat' (first | with_reducible assumption | with_reducible apply setPod_kept | with_reducible intro _ | dsimp only | split)

theorem sendRequest_kept {m0 : List Host.Cell} {f0 : Nat} (s : State) (n : Nat) (hs : K m0 f0 s.mem s.fuse) :
    K m0 f0 (sendRequest s n).mem (sendRequest s n).fuse := by
  unfold sendRequest
  repeat' (first | with_reducible assumption | with_reducible apply putRequest_kept | with_reducible apply setDest_kept | with_reducible intro _ | dsimp only | split)

theorem takeResponse_kept {m0 : List Host.Cell} {f0 : Nat} (s : State) (n : Nat) (hs : K m0 f0 s.mem s.fuse) :
    K m0 f0 (takeResponse s n).mem (takeResponse s n).fuse := by
  unfold takeResponse
  repeat' (first | with_reducible assumption | with_reducible apply setDest_kept | with_reducible apply removeRequest_kept | with_reducible apply putRequest_kept | with_reducible intro _ | dsimp only | split)

theorem endWalks_kept {m0 : List Host.Cell} {f0 : Nat} (s : State) (l : List Request) (hs : K m0 f0 s.mem s.fuse) :
    K m0 f0 (endWalks s l).mem (endWalks s l).fuse := by
  induction l generalizing s with
  | nil =>
    unfold endWalks
    repeat' (first | with_reducible assumption | with_reducible apply walkAnswer_kept | with_reducible intro _ | dsimp only | split)
  | cons x rest ih =>
    unfold endWalks
    repeat' (first | with_reducible assumption | with_reducible apply ih | with_reducible apply walkAnswer_kept | with_reducible intro _ | dsimp only | split)

theorem fenceDest_kept {m0 : List Host.Cell} {f0 : Nat} (s : State) (n : Nat) (hs : K m0 f0 s.mem s.fuse) :
    K m0 f0 (fenceDest s n).mem (fenceDest s n).fuse := by
  unfold fenceDest
  repeat' (first | with_reducible assumption | with_reducible apply setDest_kept | with_reducible apply setPod_kept | with_reducible apply endWalks_kept | with_reducible intro _ | dsimp only | split)

theorem timeoutFence_kept {m0 : List Host.Cell} {f0 : Nat} (s : State) (n : Nat) (hs : K m0 f0 s.mem s.fuse) :
    K m0 f0 (timeoutFence s n).mem (timeoutFence s n).fuse := by
  unfold timeoutFence
  repeat' (first | with_reducible assumption | with_reducible apply fenceDest_kept | with_reducible intro _ | dsimp only | split)

theorem execRemoteRequestSend_kept {m0 : List Host.Cell} {f0 : Nat} (req : Nat) (s : State) (hs : K m0 f0 s.mem s.fuse) :
    K.out m0 f0 (execRemoteRequestSend req s) := by
  unfold execRemoteRequestSend
  repeat' (first | with_reducible assumption | with_reducible refine K.of_out ‹_› ?_ | with_reducible refine K.of_body ‹_› ?_ | with_reducible apply sendRequest_kept | with_reducible apply K.out_next | with_reducible apply K.out_fault | with_reducible apply K.out_refused | with_reducible apply K.body_ok | with_reducible apply K.body_error | with_reducible intro _ | dsimp only | split)

theorem execRemoteResponse_kept {m0 : List Host.Cell} {f0 : Nat} (req : Nat) (s : State) (hs : K m0 f0 s.mem s.fuse) :
    K.out m0 f0 (execRemoteResponse req s) := by
  unfold execRemoteResponse
  repeat' (first | with_reducible assumption | with_reducible refine K.of_out ‹_› ?_ | with_reducible refine K.of_body ‹_› ?_ | with_reducible apply takeResponse_kept | with_reducible apply K.out_next | with_reducible apply K.out_fault | with_reducible apply K.out_refused | with_reducible apply K.body_ok | with_reducible apply K.body_error | with_reducible intro _ | dsimp only | split)

theorem execRemoteFence_kept {m0 : List Host.Cell} {f0 : Nat} (req : Nat) (s : State) (hs : K m0 f0 s.mem s.fuse) :
    K.out m0 f0 (execRemoteFence req s) := by
  unfold execRemoteFence
  repeat' (first | with_reducible assumption | with_reducible refine K.of_out ‹_› ?_ | with_reducible refine K.of_body ‹_› ?_ | with_reducible apply timeoutFence_kept | with_reducible apply K.out_next | with_reducible apply K.out_fault | with_reducible apply K.out_refused | with_reducible apply K.body_ok | with_reducible apply K.body_error | with_reducible intro _ | dsimp only | split)

theorem owe_kept {m0 : List Host.Cell} {f0 : Nat} (s : State) (r : Incoming) (error : Bool) (bytes : List Byte) (hs : K m0 f0 s.mem s.fuse) :
    K m0 f0 (owe s r error bytes).mem (owe s r error bytes).fuse := by
  unfold owe
  repeat' (first | with_reducible assumption | with_reducible apply setPod_kept | with_reducible intro _ | dsimp only | split)

theorem incomingAccess_kept {m0 : List Host.Cell} {f0 : Nat} (s : State) (r : Incoming) (wr : Bool) (va n : Nat) (f : State → List Nat → State) (hs : K m0 f0 s.mem s.fuse) (hf : ∀ u x0, K m0 f0 u.mem u.fuse → K m0 f0 (f u x0).mem (f u x0).fuse) :
    K m0 f0 (incomingAccess s r wr va n f).mem (incomingAccess s r wr va n f).fuse := by
  unfold incomingAccess
  repeat' (first | with_reducible assumption | with_reducible apply hf | with_reducible apply owe_kept | with_reducible intro _ | dsimp only | split)

theorem performIncoming_kept {m0 : List Host.Cell} {f0 : Nat} (s : State) (r : Incoming) (hs : K m0 f0 s.mem s.fuse) :
    K m0 f0 (performIncoming s r).mem (performIncoming s r).fuse := by
  unfold performIncoming
  repeat' (first | with_reducible assumption | with_reducible apply incomingAccess_kept | with_reducible apply owe_kept | with_reducible apply passUncached_kept | with_reducible apply forwardLine_kept | with_reducible apply deliverRow_kept | with_reducible apply K.bytes | with_reducible apply K.cells | with_reducible intro _ | dsimp only | split)

theorem takeIncoming_kept {m0 : List Host.Cell} {f0 : Nat} (s : State) (n : Nat) (hs : K m0 f0 s.mem s.fuse) :
    K m0 f0 (takeIncoming s n).mem (takeIncoming s n).fuse := by
  unfold takeIncoming
  repeat' (first | with_reducible assumption | with_reducible apply owe_kept | with_reducible apply performIncoming_kept | with_reducible intro _ | dsimp only | split)

theorem dropOwed_kept {m0 : List Host.Cell} {f0 : Nat} (s : State) (n : Nat) (hs : K m0 f0 s.mem s.fuse) :
    K m0 f0 (dropOwed s n).mem (dropOwed s n).fuse := by
  unfold dropOwed
  repeat' (first | with_reducible assumption | with_reducible apply setPod_kept | with_reducible intro _ | dsimp only | split)

theorem execIncomingRemoteRequest_kept {m0 : List Host.Cell} {f0 : Nat} (req : Nat) (s : State) (hs : K m0 f0 s.mem s.fuse) :
    K.out m0 f0 (execIncomingRemoteRequest req s) := by
  unfold execIncomingRemoteRequest
  repeat' (first | with_reducible assumption | with_reducible refine K.of_out ‹_› ?_ | with_reducible refine K.of_body ‹_› ?_ | with_reducible apply takeIncoming_kept | with_reducible apply K.out_next | with_reducible apply K.out_fault | with_reducible apply K.out_refused | with_reducible apply K.body_ok | with_reducible apply K.body_error | with_reducible intro _ | dsimp only | split)

theorem execOwedResponseTimeout_kept {m0 : List Host.Cell} {f0 : Nat} (resp : Nat) (s : State) (hs : K m0 f0 s.mem s.fuse) :
    K.out m0 f0 (execOwedResponseTimeout resp s) := by
  unfold execOwedResponseTimeout
  repeat' (first | with_reducible assumption | with_reducible refine K.of_out ‹_› ?_ | with_reducible refine K.of_body ‹_› ?_ | with_reducible apply dropOwed_kept | with_reducible apply K.out_next | with_reducible apply K.out_fault | with_reducible apply K.out_refused | with_reducible apply K.body_ok | with_reducible apply K.body_error | with_reducible intro _ | dsimp only | split)

theorem serveTranslation_kept {m0 : List Host.Cell} {f0 : Nat} (s : State) (n va : Nat) (hs : K m0 f0 s.mem s.fuse) :
    K m0 f0 (serveTranslation s n va).mem (serveTranslation s n va).fuse := by
  unfold serveTranslation
  repeat' (first | with_reducible assumption | with_reducible apply setPod_kept | with_reducible intro _ | dsimp only | split)

theorem answerWalks_kept {m0 : List Host.Cell} {f0 : Nat} (s : State) (v : Nat) (l : List Request) (hs : K m0 f0 s.mem s.fuse) :
    K m0 f0 (answerWalks s v l).mem (answerWalks s v l).fuse := by
  induction l generalizing s v with
  | nil =>
    unfold answerWalks
    repeat' (first | with_reducible assumption | with_reducible apply walkAnswer_kept | with_reducible intro _ | dsimp only | split)
  | cons x rest ih =>
    unfold answerWalks
    repeat' (first | with_reducible assumption | with_reducible apply ih | with_reducible apply walkAnswer_kept | with_reducible intro _ | dsimp only | split)

theorem takeTranslation_kept {m0 : List Host.Cell} {f0 : Nat} (s : State) (n vpn v : Nat) (hs : K m0 f0 s.mem s.fuse) :
    K m0 f0 (takeTranslation s n vpn v).mem (takeTranslation s n vpn v).fuse := by
  unfold takeTranslation
  repeat' (first | with_reducible assumption | with_reducible apply setPod_kept | with_reducible apply answerWalks_kept | with_reducible apply setDest_kept | with_reducible intro _ | dsimp only | split)

theorem applyInvalidation_kept {m0 : List Host.Cell} {f0 : Nat} (s : State) (n vpn size : Nat) (hs : K m0 f0 s.mem s.fuse) :
    K m0 f0 (applyInvalidation s n vpn size).mem (applyInvalidation s n vpn size).fuse := by
  unfold applyInvalidation
  repeat' (first | with_reducible assumption | with_reducible apply setDie_kept | with_reducible apply setPod_kept | with_reducible apply foldl_kept | with_reducible intro _ | dsimp only | split)

theorem takeAnswer_kept {m0 : List Host.Cell} {f0 : Nat} (s : State) (n : Nat) (hs : K m0 f0 s.mem s.fuse) :
    K m0 f0 (takeAnswer s n).mem (takeAnswer s n).fuse := by
  unfold takeAnswer
  repeat' (first | with_reducible assumption | with_reducible apply setPod_kept | with_reducible intro _ | dsimp only | split)

theorem execAtsTranslationRequest_kept {m0 : List Host.Cell} {f0 : Nat} (dest va : Nat) (s : State) (hs : K m0 f0 s.mem s.fuse) :
    K.out m0 f0 (execAtsTranslationRequest dest va s) := by
  unfold execAtsTranslationRequest
  repeat' (first | with_reducible assumption | with_reducible refine K.of_out ‹_› ?_ | with_reducible refine K.of_body ‹_› ?_ | with_reducible apply serveTranslation_kept | with_reducible apply K.out_next | with_reducible apply K.out_fault | with_reducible apply K.out_refused | with_reducible apply K.body_ok | with_reducible apply K.body_error | with_reducible intro _ | dsimp only | split)

theorem execAtsTranslationResponse_kept {m0 : List Host.Cell} {f0 : Nat} (dest vpn val : Nat) (s : State) (hs : K m0 f0 s.mem s.fuse) :
    K.out m0 f0 (execAtsTranslationResponse dest vpn val s) := by
  unfold execAtsTranslationResponse
  repeat' (first | with_reducible assumption | with_reducible refine K.of_out ‹_› ?_ | with_reducible refine K.of_body ‹_› ?_ | with_reducible apply takeTranslation_kept | with_reducible apply K.out_next | with_reducible apply K.out_fault | with_reducible apply K.out_refused | with_reducible apply K.body_ok | with_reducible apply K.body_error | with_reducible intro _ | dsimp only | split)

theorem execAtsInvalidation_kept {m0 : List Host.Cell} {f0 : Nat} (dest vpn size : Nat) (s : State) (hs : K m0 f0 s.mem s.fuse) :
    K.out m0 f0 (execAtsInvalidation dest vpn size s) := by
  unfold execAtsInvalidation
  repeat' (first | with_reducible assumption | with_reducible refine K.of_out ‹_› ?_ | with_reducible refine K.of_body ‹_› ?_ | with_reducible apply applyInvalidation_kept | with_reducible apply K.out_next | with_reducible apply K.out_fault | with_reducible apply K.out_refused | with_reducible apply K.body_ok | with_reducible apply K.body_error | with_reducible intro _ | dsimp only | split)

theorem execAtsInvalidationAnswer_kept {m0 : List Host.Cell} {f0 : Nat} (dest : Nat) (s : State) (hs : K m0 f0 s.mem s.fuse) :
    K.out m0 f0 (execAtsInvalidationAnswer dest s) := by
  unfold execAtsInvalidationAnswer
  repeat' (first | with_reducible assumption | with_reducible refine K.of_out ‹_› ?_ | with_reducible refine K.of_body ‹_› ?_ | with_reducible apply takeAnswer_kept | with_reducible apply K.out_next | with_reducible apply K.out_fault | with_reducible apply K.out_refused | with_reducible apply K.body_ok | with_reducible apply K.body_error | with_reducible intro _ | dsimp only | split)

theorem sendTime_kept {m0 : List Host.Cell} {f0 : Nat} (s : State) (hs : K m0 f0 s.mem s.fuse) :
    K m0 f0 (sendTime s).mem (sendTime s).fuse := by
  unfold sendTime
  repeat' (first | with_reducible assumption | with_reducible apply setPod_kept | with_reducible intro _ | dsimp only | split)

theorem advanceGt_kept {m0 : List Host.Cell} {f0 : Nat} (s : State) (ns : Nat) (hs : K m0 f0 s.mem s.fuse) :
    K m0 f0 (advanceGt s ns).mem (advanceGt s ns).fuse := by
  unfold advanceGt
  repeat' (first | with_reducible assumption | with_reducible apply foldl_kept | with_reducible intro _ | dsimp only | split)

theorem takeTime_kept {m0 : List Host.Cell} {f0 : Nat} (s : State) (n gt : Nat) (hs : K m0 f0 s.mem s.fuse) :
    K m0 f0 (takeTime s n gt).mem (takeTime s n gt).fuse := by
  unfold takeTime
  repeat' (first | with_reducible assumption | with_reducible apply advanceGt_kept | with_reducible apply setPod_kept | with_reducible intro _ | dsimp only | split)

theorem elapseGt_kept {m0 : List Host.Cell} {f0 : Nat} (s : State) (ns : Nat) (hs : K m0 f0 s.mem s.fuse) :
    K m0 f0 (elapseGt s ns).mem (elapseGt s ns).fuse := by
  unfold elapseGt
  repeat' (first | with_reducible assumption | with_reducible apply advanceGt_kept | with_reducible apply setPod_kept | with_reducible intro _ | dsimp only | split)

theorem execGtTimeMessageSend_kept {m0 : List Host.Cell} {f0 : Nat} (s : State) (hs : K m0 f0 s.mem s.fuse) :
    K.out m0 f0 (execGtTimeMessageSend s) := by
  unfold execGtTimeMessageSend
  repeat' (first | with_reducible assumption | with_reducible refine K.of_out ‹_› ?_ | with_reducible refine K.of_body ‹_› ?_ | with_reducible apply sendTime_kept | with_reducible apply K.out_next | with_reducible apply K.out_fault | with_reducible apply K.out_refused | with_reducible apply K.body_ok | with_reducible apply K.body_error | with_reducible intro _ | dsimp only | split)

theorem execGtTimeMessage_kept {m0 : List Host.Cell} {f0 : Nat} (dest gt : Nat) (s : State) (hs : K m0 f0 s.mem s.fuse) :
    K.out m0 f0 (execGtTimeMessage dest gt s) := by
  unfold execGtTimeMessage
  repeat' (first | with_reducible assumption | with_reducible refine K.of_out ‹_› ?_ | with_reducible refine K.of_body ‹_› ?_ | with_reducible apply takeTime_kept | with_reducible apply K.out_next | with_reducible apply K.out_fault | with_reducible apply K.out_refused | with_reducible apply K.body_ok | with_reducible apply K.body_error | with_reducible intro _ | dsimp only | split)

theorem podArrival_kept {m0 : List Host.Cell} {f0 : Nat} (s : State) (x n : Nat) (hs : K m0 f0 s.mem s.fuse) :
    K m0 f0 (podArrival s x n).mem (podArrival s x n).fuse := by
  unfold podArrival
  repeat' (first | with_reducible assumption | with_reducible apply groupArrival_kept | with_reducible intro _ | dsimp only | split)

theorem podCompletion_kept {m0 : List Host.Cell} {f0 : Nat} (s : State) (x : Nat) (hs : K m0 f0 s.mem s.fuse) :
    K m0 f0 (podCompletion s x).mem (podCompletion s x).fuse := by
  unfold podCompletion
  repeat' (first | with_reducible assumption | with_reducible apply completeEverywhere_kept | with_reducible intro _ | dsimp only | split)

theorem timeoutWait_kept {m0 : List Host.Cell} {f0 : Nat} (id : Nat) (s : State) (q : Nat) (hs : K m0 f0 s.mem s.fuse) :
    K m0 f0 (timeoutWait id s q).mem (timeoutWait id s q).fuse := by
  unfold timeoutWait
  repeat' (first | with_reducible assumption | with_reducible apply freeStatus_kept | with_reducible apply setSeq_kept | with_reducible intro _ | dsimp only | split)

theorem podTimeout_kept {m0 : List Host.Cell} {f0 : Nat} (s : State) (x : Nat) (hs : K m0 f0 s.mem s.fuse) :
    K m0 f0 (podTimeout s x).mem (podTimeout s x).fuse := by
  unfold podTimeout
  repeat' (first | with_reducible assumption | with_reducible apply timeoutWait_kept | with_reducible apply foldl_kept | with_reducible intro _ | dsimp only | split)

theorem execPodBarrierArrival_kept {m0 : List Host.Cell} {f0 : Nat} (group dest : Nat) (s : State) (hs : K m0 f0 s.mem s.fuse) :
    K.out m0 f0 (execPodBarrierArrival group dest s) := by
  unfold execPodBarrierArrival
  repeat' (first | with_reducible assumption | with_reducible refine K.of_out ‹_› ?_ | with_reducible refine K.of_body ‹_› ?_ | with_reducible apply podArrival_kept | with_reducible apply K.out_next | with_reducible apply K.out_fault | with_reducible apply K.out_refused | with_reducible apply K.body_ok | with_reducible apply K.body_error | with_reducible intro _ | dsimp only | split)

theorem execPodBarrierCompletion_kept {m0 : List Host.Cell} {f0 : Nat} (group : Nat) (s : State) (hs : K m0 f0 s.mem s.fuse) :
    K.out m0 f0 (execPodBarrierCompletion group s) := by
  unfold execPodBarrierCompletion
  repeat' (first | with_reducible assumption | with_reducible refine K.of_out ‹_› ?_ | with_reducible refine K.of_body ‹_› ?_ | with_reducible apply podCompletion_kept | with_reducible apply K.out_next | with_reducible apply K.out_fault | with_reducible apply K.out_refused | with_reducible apply K.body_ok | with_reducible apply K.body_error | with_reducible intro _ | dsimp only | split)

theorem execPodBarrierTimeout_kept {m0 : List Host.Cell} {f0 : Nat} (group : Nat) (s : State) (hs : K m0 f0 s.mem s.fuse) :
    K.out m0 f0 (execPodBarrierTimeout group s) := by
  unfold execPodBarrierTimeout
  repeat' (first | with_reducible assumption | with_reducible refine K.of_out ‹_› ?_ | with_reducible refine K.of_body ‹_› ?_ | with_reducible apply podTimeout_kept | with_reducible apply K.out_next | with_reducible apply K.out_fault | with_reducible apply K.out_refused | with_reducible apply K.body_ok | with_reducible apply K.body_error | with_reducible intro _ | dsimp only | split)

end Sys2Proof.Machine
end

