-- ==== Sys2Proof/Laws/KeptBoot.lean ====
section
/-! SUPPORT. Sys2Proof/Laws/KeptBoot.lean: the operations of Machine/Boot.lean keep memory canonical and never lower the fuses. -/

namespace Sys2Proof.Machine

theorem startSteward_kept {m0 : List Host.Cell} {f0 : Nat} (s : State) (die : Nat) (l : List Byte) (hs : K m0 f0 s.mem s.fuse) :
    K m0 f0 (startSteward s die l).mem (startSteward s die l).fuse := by
  unfold startSteward
  repeat' (first | with_reducible assumption | with_reducible apply setSeq_kept | with_reducible apply K.bytes | with_reducible intro _ | dsimp only | split)

theorem bootDie_kept {m0 : List Host.Cell} {f0 : Nat} (s : State) (die : Nat) (hs : K m0 f0 s.mem s.fuse) :
    K m0 f0 (bootDie s die).mem (bootDie s die).fuse := by
  unfold bootDie
  repeat' (first | with_reducible assumption | with_reducible apply startSteward_kept | with_reducible apply setDie_kept | with_reducible apply takeAsked_kept | with_reducible intro _ | dsimp only | split)

theorem resetState_kept {m0 : List Host.Cell} {f0 : Nat} (s : State) (u : Nat) (hs : K m0 f0 s.mem s.fuse) :
    K m0 f0 (resetState s u).mem (resetState s u).fuse := by
  unfold resetState
  repeat' (first | with_reducible assumption | with_reducible apply K.filter | with_reducible intro _ | dsimp only | split)

theorem powerUp_kept {m0 : List Host.Cell} {f0 : Nat} (s : State) (hs : K m0 f0 s.mem s.fuse) :
    K m0 f0 (powerUp s).mem (powerUp s).fuse := by
  unfold powerUp
  repeat' (first | with_reducible assumption | with_reducible apply bootDie_kept | with_reducible apply resetState_kept | with_reducible apply foldl_kept | with_reducible intro _ | dsimp only | split)

theorem keepResync_kept {m0 : List Host.Cell} {f0 : Nat} (old s : State) (die : Nat) (hold : K m0 f0 old.mem old.fuse) (hs : K m0 f0 s.mem s.fuse) :
    K m0 f0 (keepResync old s die).mem (keepResync old s die).fuse := by
  unfold keepResync
  repeat' (first | with_reducible assumption | with_reducible apply setDie_kept | with_reducible intro _ | dsimp only | split)

theorem packageReset_kept {m0 : List Host.Cell} {f0 : Nat} (s : State) (hs : K m0 f0 s.mem s.fuse) :
    K m0 f0 (packageReset s).mem (packageReset s).fuse := by
  unfold packageReset
  repeat' (first | with_reducible assumption | with_reducible apply bootDie_kept | with_reducible apply keepResync_kept | with_reducible apply resetState_kept | with_reducible apply foldl_kept | with_reducible intro _ | dsimp only | split)

theorem powerOff_kept {m0 : List Host.Cell} {f0 : Nat} (s : State) (hs : K m0 f0 s.mem s.fuse) :
    K m0 f0 (powerOff s).mem (powerOff s).fuse := by
  unfold powerOff
  repeat' (first | with_reducible assumption | with_reducible apply resetState_kept | with_reducible intro _ | dsimp only | split)

theorem execPowerUp_kept {m0 : List Host.Cell} {f0 : Nat} (s : State) (hs : K m0 f0 s.mem s.fuse) :
    K.out m0 f0 (execPowerUp s) := by
  unfold execPowerUp
  repeat' (first | with_reducible assumption | with_reducible refine K.of_out ‹_› ?_ | with_reducible refine K.of_body ‹_› ?_ | with_reducible apply powerUp_kept | with_reducible apply K.out_next | with_reducible apply K.out_fault | with_reducible apply K.out_refused | with_reducible apply K.body_ok | with_reducible apply K.body_error | with_reducible intro _ | dsimp only | split)

theorem execPackageReset_kept {m0 : List Host.Cell} {f0 : Nat} (s : State) (hs : K m0 f0 s.mem s.fuse) :
    K.out m0 f0 (execPackageReset s) := by
  unfold execPackageReset
  repeat' (first | with_reducible assumption | with_reducible refine K.of_out ‹_› ?_ | with_reducible refine K.of_body ‹_› ?_ | with_reducible apply packageReset_kept | with_reducible apply K.out_next | with_reducible apply K.out_fault | with_reducible apply K.out_refused | with_reducible apply K.body_ok | with_reducible apply K.body_error | with_reducible intro _ | dsimp only | split)

theorem execPowerOff_kept {m0 : List Host.Cell} {f0 : Nat} (s : State) (hs : K m0 f0 s.mem s.fuse) :
    K.out m0 f0 (execPowerOff s) := by
  unfold execPowerOff
  repeat' (first | with_reducible assumption | with_reducible refine K.of_out ‹_› ?_ | with_reducible refine K.of_body ‹_› ?_ | with_reducible apply powerOff_kept | with_reducible apply K.out_next | with_reducible apply K.out_fault | with_reducible apply K.out_refused | with_reducible apply K.body_ok | with_reducible apply K.body_error | with_reducible intro _ | dsimp only | split)

theorem bootGo_kept {m0 : List Host.Cell} {f0 : Nat} (s : State) (die v : Nat) (hs : K m0 f0 s.mem s.fuse) :
    K m0 f0 (bootGo s die v).mem (bootGo s die v).fuse := by
  unfold bootGo
  repeat' (first | with_reducible assumption | with_reducible apply takeAsked_kept | with_reducible apply setDie_kept | with_reducible intro _ | dsimp only | split)

theorem bootSvn_kept {m0 : List Host.Cell} {f0 : Nat} (s : State) (die : Nat) (hs : K m0 f0 s.mem s.fuse) :
    K m0 f0 (bootSvn s die).mem (bootSvn s die).fuse := by
  exact ⟨hs.wf, Nat.le_trans hs.fuse (Nat.le_max_left _ _)⟩

theorem writeBootstat_kept {m0 : List Host.Cell} {f0 : Nat} (s : State) (die v : Nat) (hs : K m0 f0 s.mem s.fuse) :
    K m0 f0 (writeBootstat s die v).mem (writeBootstat s die v).fuse := by
  unfold writeBootstat
  repeat' (first | with_reducible assumption | with_reducible apply bootGo_kept | with_reducible apply bootSvn_kept | with_reducible intro _ | dsimp only | split)

theorem execBootstatGo_kept {m0 : List Host.Cell} {f0 : Nat} (s : State) (hs : K m0 f0 s.mem s.fuse) :
    K.out m0 f0 (execBootstatGo s) := by
  unfold execBootstatGo
  repeat' (first | with_reducible assumption | with_reducible refine K.of_out ‹_› ?_ | with_reducible refine K.of_body ‹_› ?_ | with_reducible apply bootGo_kept | with_reducible apply K.out_next | with_reducible apply K.out_fault | with_reducible apply K.out_refused | with_reducible apply K.body_ok | with_reducible apply K.body_error | with_reducible intro _ | dsimp only | split)

theorem execBootstatSvnset_kept {m0 : List Host.Cell} {f0 : Nat} (s : State) (hs : K m0 f0 s.mem s.fuse) :
    K.out m0 f0 (execBootstatSvnset s) := by
  unfold execBootstatSvnset
  repeat' (first | with_reducible assumption | with_reducible refine K.of_out ‹_› ?_ | with_reducible refine K.of_body ‹_› ?_ | with_reducible apply bootSvn_kept | with_reducible apply K.out_next | with_reducible apply K.out_fault | with_reducible apply K.out_refused | with_reducible apply K.body_ok | with_reducible apply K.body_error | with_reducible intro _ | dsimp only | split)

theorem attestGo_kept {m0 : List Host.Cell} {f0 : Nat} (s : State) (hs : K m0 f0 s.mem s.fuse) :
    K m0 f0 (attestGo s).mem (attestGo s).fuse := by
  unfold attestGo
  repeat' (first | with_reducible assumption | with_reducible intro _ | dsimp only | split)

theorem attestDone_kept {m0 : List Host.Cell} {f0 : Nat} (s : State) (hs : K m0 f0 s.mem s.fuse) :
    K m0 f0 (attestDone s).mem (attestDone s).fuse := by
  unfold attestDone
  repeat' (first | with_reducible assumption | with_reducible apply writeHome_kept | with_reducible intro _ | dsimp only | split)

theorem writeAttest_kept {m0 : List Host.Cell} {f0 : Nat} (s : State) (off v : Nat) (hs : K m0 f0 s.mem s.fuse) :
    K m0 f0 (writeAttest s off v).mem (writeAttest s off v).fuse := by
  unfold writeAttest
  repeat' (first | with_reducible assumption | with_reducible apply attestGo_kept | with_reducible intro _ | dsimp only | split)

theorem execAttctlGo_kept {m0 : List Host.Cell} {f0 : Nat} (s : State) (hs : K m0 f0 s.mem s.fuse) :
    K.out m0 f0 (execAttctlGo s) := by
  unfold execAttctlGo
  repeat' (first | with_reducible assumption | with_reducible refine K.of_out ‹_› ?_ | with_reducible refine K.of_body ‹_› ?_ | with_reducible apply attestGo_kept | with_reducible apply K.out_next | with_reducible apply K.out_fault | with_reducible apply K.out_refused | with_reducible apply K.body_ok | with_reducible apply K.body_error | with_reducible intro _ | dsimp only | split)

theorem execAttestationComplete_kept {m0 : List Host.Cell} {f0 : Nat} (s : State) (hs : K m0 f0 s.mem s.fuse) :
    K.out m0 f0 (execAttestationComplete s) := by
  unfold execAttestationComplete
  repeat' (first | with_reducible assumption | with_reducible refine K.of_out ‹_› ?_ | with_reducible refine K.of_body ‹_› ?_ | with_reducible apply attestDone_kept | with_reducible apply K.out_next | with_reducible apply K.out_fault | with_reducible apply K.out_refused | with_reducible apply K.body_ok | with_reducible apply K.body_error | with_reducible intro _ | dsimp only | split)

end Sys2Proof.Machine
end

