-- ==== Sys2Proof/Laws/KeptRegMap.lean ====
section
/-! SUPPORT. Sys2Proof/Laws/KeptRegMap.lean: the operations of Machine/RegMap.lean keep memory canonical and never lower the fuses. -/

namespace Sys2Proof.Machine

theorem writeSchedReg_kept {m0 : List Host.Cell} {f0 : Nat} (s : State) (d off v : Nat) (hs : K m0 f0 s.mem s.fuse) :
    K m0 f0 (writeSchedReg s d off v).mem (writeSchedReg s d off v).fuse := by
  unfold writeSchedReg
  repeat' (first | with_reducible assumption | with_reducible apply setDie_kept | with_reducible apply writeTaskcmd_kept | with_reducible intro _ | dsimp only | split)

theorem writeSliceReg_kept {m0 : List Host.Cell} {f0 : Nat} (s : State) (d k off v : Nat) (hs : K m0 f0 s.mem s.fuse) :
    K m0 f0 (writeSliceReg s d k off v).mem (writeSliceReg s d k off v).fuse := by
  unfold writeSliceReg
  repeat' (first | with_reducible assumption | with_reducible apply writeWaymask_kept | with_reducible apply writeRemoteWays_kept | with_reducible intro _ | dsimp only | split)

theorem writeNetReg_kept {m0 : List Host.Cell} {f0 : Nat} (s : State) (d off v : Nat) (hs : K m0 f0 s.mem s.fuse) :
    K m0 f0 (writeNetReg s d off v).mem (writeNetReg s d off v).fuse := by
  unfold writeNetReg
  repeat' (first | with_reducible assumption | with_reducible apply startInval_kept | with_reducible apply setDie_kept | with_reducible intro _ | dsimp only | split)

theorem writeDebug_kept {m0 : List Host.Cell} {f0 : Nat} (s : State) (q off v : Nat) (hs : K m0 f0 s.mem s.fuse) :
    K m0 f0 (writeDebug s q off v).mem (writeDebug s q off v).fuse := by
  unfold writeDebug
  repeat' (first | with_reducible assumption | with_reducible apply writeSqctl_kept | with_reducible apply setSeq_kept | with_reducible intro _ | dsimp only | split)

theorem writeRegister_kept {m0 : List Host.Cell} {f0 : Nat} (s : State) (d a v : Nat) (hs : K m0 f0 s.mem s.fuse) :
    K m0 f0 (writeRegister s d a v).mem (writeRegister s d a v).fuse := by
  unfold writeRegister
  repeat' (first | with_reducible assumption | with_reducible apply writeSchedReg_kept | with_reducible apply writeSliceReg_kept | with_reducible apply writeNetReg_kept | with_reducible apply writeZone_kept | with_reducible apply writeTrace_kept | with_reducible apply writeBootstat_kept | with_reducible apply writeAttest_kept | with_reducible apply writeDebug_kept | with_reducible apply writeRing_kept | with_reducible apply writePodReg_kept | with_reducible intro _ | dsimp only | split)

theorem writeHostReg_kept {m0 : List Host.Cell} {f0 : Nat} (s : State) (a v : Nat) (hs : K m0 f0 s.mem s.fuse) :
    K m0 f0 (writeHostReg s a v).mem (writeHostReg s a v).fuse := by
  unfold writeHostReg
  repeat' (first | with_reducible assumption | with_reducible apply writeHqbase_kept | with_reducible apply writeHqctl_kept | with_reducible apply writeNotify_kept | with_reducible intro _ | dsimp only | split)

theorem registerWrite_kept {m0 : List Host.Cell} {f0 : Nat} (s : State) (u a v : Nat) (hs : K m0 f0 s.mem s.fuse) :
    K m0 f0 (registerWrite s u a v).mem (registerWrite s u a v).fuse := by
  unfold registerWrite
  repeat' (first | with_reducible assumption | with_reducible apply writeHostReg_kept | with_reducible apply writeRegister_kept | with_reducible intro _ | dsimp only | split)

theorem execRegisterWrite_kept {m0 : List Host.Cell} {f0 : Nat} (s : State) (hs : K m0 f0 s.mem s.fuse) :
    K.out m0 f0 (execRegisterWrite s) := by
  unfold execRegisterWrite
  repeat' (first | with_reducible assumption | with_reducible refine K.of_out ‹_› ?_ | with_reducible refine K.of_body ‹_› ?_ | with_reducible apply registerWrite_kept | with_reducible apply K.out_next | with_reducible apply K.out_fault | with_reducible apply K.out_refused | with_reducible apply K.body_ok | with_reducible apply K.body_error | with_reducible intro _ | dsimp only | split)

theorem writeWord_kept {m0 : List Host.Cell} {f0 : Nat} (s : State) (d a : Nat) (x : Word) (hs : K m0 f0 s.mem s.fuse) :
    K m0 f0 (writeWord s d a x).mem (writeWord s d a x).fuse := by
  unfold writeWord
  repeat' (first | with_reducible assumption | with_reducible apply writeRegister_kept | with_reducible apply setDie_kept | with_reducible intro _ | dsimp only | split)

theorem registerAccess_kept {m0 : List Host.Cell} {f0 : Nat} (s : State) (o : Op) (op : AtomicOp) (x : Word) (d a : Nat) (hs : K m0 f0 s.mem s.fuse) :
    K m0 f0 (registerAccess s o op x d a).mem (registerAccess s o op x d a).fuse := by
  unfold registerAccess
  repeat' (first | with_reducible assumption | with_reducible apply atomicDone_kept | with_reducible apply writeWord_kept | with_reducible intro _ | dsimp only | split)

theorem atomicStep_kept {m0 : List Host.Cell} {f0 : Nat} (s : State) (n k : Nat) (hs : K m0 f0 s.mem s.fuse) :
    K m0 f0 (atomicStep s n k).mem (atomicStep s n k).fuse := by
  unfold atomicStep
  repeat' (first | with_reducible assumption | with_reducible apply onOp_kept | with_reducible apply registerAccess_kept | with_reducible apply bankOperates_kept | with_reducible intro _ | dsimp only | split)

theorem execAtomicBankOperation_kept {m0 : List Host.Cell} {f0 : Nat} (op elem : Nat) (s : State) (hs : K m0 f0 s.mem s.fuse) :
    K.out m0 f0 (execAtomicBankOperation op elem s) := by
  unfold execAtomicBankOperation
  repeat' (first | with_reducible assumption | with_reducible refine K.of_out ‹_› ?_ | with_reducible refine K.of_body ‹_› ?_ | with_reducible apply atomicStep_kept | with_reducible apply K.out_next | with_reducible apply K.out_fault | with_reducible apply K.out_refused | with_reducible apply K.body_ok | with_reducible apply K.body_error | with_reducible intro _ | dsimp only | split)

theorem elapseTime_kept {m0 : List Host.Cell} {f0 : Nat} (s : State) (ns cycles : Nat) (hs : K m0 f0 s.mem s.fuse) :
    K m0 f0 (elapseTime s ns cycles).mem (elapseTime s ns cycles).fuse := by
  unfold elapseTime
  repeat' (first | with_reducible assumption | with_reducible apply elapseGt_kept | with_reducible apply foldl_kept | with_reducible intro _ | dsimp only | split)

theorem putAnswer_kept {m0 : List Host.Cell} {f0 : Nat} (s : State) (n : Nat) (l : List Byte) (hs : K m0 f0 s.mem s.fuse) :
    K m0 f0 (putAnswer s n l).mem (putAnswer s n l).fuse := by
  unfold putAnswer
  repeat' (first | with_reducible assumption | with_reducible apply putRequest_kept | with_reducible intro _ | dsimp only | split)

theorem hostWrite_kept {m0 : List Host.Cell} {f0 : Nat} (s : State) (loc : Nat) (l : List Byte) (hs : K m0 f0 s.mem s.fuse) :
    K m0 f0 (hostWrite s loc l).mem (hostWrite s loc l).fuse := by
  unfold hostWrite
  repeat' (first | with_reducible assumption | with_reducible apply writeHome_kept | with_reducible intro _ | dsimp only | split)

theorem addPage_kept {m0 : List Host.Cell} {f0 : Nat} (s : State) (p : Page) (hs : K m0 f0 s.mem s.fuse) :
    K m0 f0 (addPage s p).mem (addPage s p).fuse := by
  unfold addPage
  repeat' (first | with_reducible assumption | with_reducible intro _ | dsimp only | split)

theorem allocateHandle_kept {m0 : List Host.Cell} {f0 : Nat} (s : State) (asid index base size tier die : Nat) (hs : K m0 f0 s.mem s.fuse) :
    K m0 f0 (allocateHandle s asid index base size tier die).mem (allocateHandle s asid index base size tier die).fuse := by
  unfold allocateHandle
  repeat' (first | with_reducible assumption | with_reducible intro _ | dsimp only | split)

theorem fixHtlog_kept {m0 : List Host.Cell} {f0 : Nat} (s : State) (asid log : Nat) (hs : K m0 f0 s.mem s.fuse) :
    K m0 f0 (fixHtlog s asid log).mem (fixHtlog s asid log).fuse := by
  unfold fixHtlog
  repeat' (first | with_reducible assumption | with_reducible intro _ | dsimp only | split)

theorem takeInput_kept {m0 : List Host.Cell} {f0 : Nat} (s : State) (i : Input) (hs : K m0 f0 s.mem s.fuse) :
    K m0 f0 (takeInput s i).mem (takeInput s i).fuse := by
  unfold takeInput
  repeat' (first | with_reducible assumption | with_reducible apply elapseTime_kept | with_reducible apply arrive_kept | with_reducible apply setPod_kept | with_reducible apply putAnswer_kept | with_reducible apply hostWrite_kept | with_reducible apply addPage_kept | with_reducible apply allocateHandle_kept | with_reducible apply fixHtlog_kept | with_reducible intro _ | dsimp only | split)

end Sys2Proof.Machine
end

