-- ==== Sys2Proof/Laws/KeptDue.lean ====
section
/-! SUPPORT. Sys2Proof/Laws/KeptDue.lean: the operations of Machine/Due.lean keep memory canonical and never lower the fuses. -/

namespace Sys2Proof.Machine

theorem afterMove_kept {m0 : List Host.Cell} {f0 : Nat} (s : State) (x : Host.Outcome State Fault Refusal) (hs : K m0 f0 s.mem s.fuse)
    (hx : K.out m0 f0 x) : K m0 f0 (afterMove s x).mem (afterMove s x).fuse := by
  unfold afterMove
  split
  · exact hx _ rfl
  · exact hs

theorem placeCode_kept {m0 : List Host.Cell} {f0 : Nat} (s : State) (q : Nat) (l : List Byte) (hs : K m0 f0 s.mem s.fuse) :
    K m0 f0 (placeCode s q l).mem (placeCode s q l).fuse := by
  unfold placeCode
  repeat' (first | with_reducible assumption | with_reducible apply setSeq_kept | with_reducible apply addPage_kept | with_reducible apply K.bytes | with_reducible intro _ | dsimp only | split)

end Sys2Proof.Machine
end

