-- ==== Sys2Proof/Laws/KeptDispatch.lean ====
section
/-! SUPPORT. Sys2Proof/Laws/KeptDispatch.lean: the operations of Machine/Dispatch.lean keep memory canonical and never lower the fuses. -/

namespace Sys2Proof.Machine

theorem exec_kept {m0 : List Host.Cell} {f0 : Nat} (i : Instr) (s : State) (hs : K m0 f0 s.mem s.fuse) :
    K.out m0 f0 (exec i s) := by
  cases i with
  | bundleIssue q => exact execBundleIssue_kept q s hs
  | pendingWriteLanding q => exact execPendingWriteLanding_kept q s hs
  | bundleSkip q => exact execBundleSkip_kept q s hs
  | loopExit q => exact execLoopExit_kept q s hs
  | delayExpire q => exact execDelayExpire_kept q s hs
  | starvationGuard core => exact execStarvationGuard_kept core s hs
  | variableResultArrival op => exact execVariableResultArrival_kept op s hs
  | tileWriteComplete op => exact execTileWriteComplete_kept op s hs
  | viewAccessPerform op => exact execViewAccessPerform_kept op s hs
  | engineFault q => exact execEngineFault_kept q s hs
  | containedUnwind q => exact execContainedUnwind_kept q s hs
  | copyStart core cq => exact execCopyStart_kept core cq s hs
  | copyComplete op => exact execCopyComplete_kept op s hs
  | retireComplete op => exact execRetireComplete_kept op s hs
  | leaseGrant quad c => exact execLeaseGrant_kept quad c s hs
  | leaseBoundExpiry quad => exact execLeaseBoundExpiry_kept quad s hs
  | arrayCommandRun quad c => exact execArrayCommandRun_kept quad c s hs
  | placedWriteback op => exact execPlacedWriteback_kept op s hs
  | bankCommandRun q => exact execBankCommandRun_kept q s hs
  | atomicBankOperation op elem => exact execAtomicBankOperation_kept op elem s hs
  | translationWalkComplete die asid vpn => exact execTranslationWalkComplete_kept die asid vpn s hs
  | sendFull q => exact execSendFull_kept q s hs
  | waymaskChangeComplete die slice => exact execWaymaskChangeComplete_kept die slice s hs
  | remoteWaysChangeComplete die slice => exact execRemoteWaysChangeComplete_kept die slice s hs
  | xlinvComplete die => exact execXlinvComplete_kept die s hs
  | teamPlace die => exact execTeamPlace_kept die s hs
  | cohortPlace die => exact execCohortPlace_kept die s hs
  | launchViewRegister die task => exact execLaunchViewRegister_kept die task s hs
  | timedStart q => exact execTimedStart_kept q s hs
  | preemptDecision die => exact execPreemptDecision_kept die s hs
  | preemptReevaluate die => exact execPreemptReevaluate_kept die s hs
  | checkpointWrite task team => exact execCheckpointWrite_kept task team s hs
  | teamRestore task team => exact execTeamRestore_kept task team s hs
  | taskComplete task => exact execTaskComplete_kept task s hs
  | pkgBarrierMessage msg => exact execPkgBarrierMessage_kept msg s hs
  | lineInvalidate op => exact execLineInvalidate_kept op s hs
  | hqNop n => exact execHqNop_kept n s hs
  | hqLaunch n => exact execHqLaunch_kept n s hs
  | hqTimedLaunch n => exact execHqTimedLaunch_kept n s hs
  | hqFence n => exact execHqFence_kept n s hs
  | hqInvalid n => exact execHqInvalid_kept n s hs
  | hqEntryComplete n entry => exact execHqEntryComplete_kept n entry s hs
  | coolLowflow zone => exact execCoolLowflow_kept zone s hs
  | coolOvertemp zone => exact execCoolOvertemp_kept zone s hs
  | coolDry zone => exact execCoolDry_kept zone s hs
  | evacDrainTimeout zone => exact execEvacDrainTimeout_kept zone s hs
  | evacValveClosed zone => exact execEvacValveClosed_kept zone s hs
  | evacPurgeDone zone => exact execEvacPurgeDone_kept zone s hs
  | evacVerifyDone zone => exact execEvacVerifyDone_kept zone s hs
  | zoneReady zone => exact execZoneReady_kept zone s hs
  | lost die => exact execLost_kept die s hs
  | resync die => exact execResync_kept die s hs
  | stationUp station => exact execStationUp_kept station s hs
  | stationDown station => exact execStationDown_kept station s hs
  | remoteRequestSend req => exact execRemoteRequestSend_kept req s hs
  | remoteResponse req => exact execRemoteResponse_kept req s hs
  | remoteFence req => exact execRemoteFence_kept req s hs
  | incomingRemoteRequest req => exact execIncomingRemoteRequest_kept req s hs
  | atsTranslationRequest dest va => exact execAtsTranslationRequest_kept dest va s hs
  | atsTranslationResponse dest vpn val => exact execAtsTranslationResponse_kept dest vpn val s hs
  | atsInvalidation dest vpn size => exact execAtsInvalidation_kept dest vpn size s hs
  | gtTimeMessage dest gt => exact execGtTimeMessage_kept dest gt s hs
  | podBarrierArrival group dest => exact execPodBarrierArrival_kept group dest s hs
  | podBarrierCompletion group => exact execPodBarrierCompletion_kept group s hs
  | podBarrierTimeout group => exact execPodBarrierTimeout_kept group s hs
  | add l g d a b => exact execAdd_kept l g d a b s hs
  | sub l g d a b => exact execSub_kept l g d a b s hs
  | and l g d a b => exact execAnd_kept l g d a b s hs
  | or l g d a b => exact execOr_kept l g d a b s hs
  | xor l g d a b => exact execXor_kept l g d a b s hs
  | shl l g d a b => exact execShl_kept l g d a b s hs
  | shr l g d a b => exact execShr_kept l g d a b s hs
  | sra l g d a b => exact execSra_kept l g d a b s hs
  | min l g d a b => exact execMin_kept l g d a b s hs
  | max l g d a b => exact execMax_kept l g d a b s hs
  | minu l g d a b => exact execMinu_kept l g d a b s hs
  | maxu l g d a b => exact execMaxu_kept l g d a b s hs
  | mov l g d a => exact execMov_kept l g d a s hs
  | addsh l g d a b sh => exact execAddsh_kept l g d a b sh s hs
  | clz l g d a => exact execClz_kept l g d a s hs
  | mul l g d a b => exact execMul_kept l g d a b s hs
  | mulh l g d a b => exact execMulh_kept l g d a b s hs
  | mulhu l g d a b => exact execMulhu_kept l g d a b s hs
  | divu l g d a b => exact execDivu_kept l g d a b s hs
  | remu l g d a b => exact execRemu_kept l g d a b s hs
  | movi l g d imm => exact execMovi_kept l g d imm s hs
  | addi l g d imm => exact execAddi_kept l g d imm s hs
  | andi l g d imm => exact execAndi_kept l g d imm s hs
  | ori l g d imm => exact execOri_kept l g d imm s hs
  | xori l g d imm => exact execXori_kept l g d imm s hs
  | shli l g d imm => exact execShli_kept l g d imm s hs
  | shri l g d imm => exact execShri_kept l g d imm s hs
  | srai l g d imm => exact execSrai_kept l g d imm s hs
  | movh l g d imm => exact execMovh_kept l g d imm s hs
  | lidx l g d lvl => exact execLidx_kept l g d lvl s hs
  | ctlrd l g d ctl => exact execCtlrd_kept l g d ctl s hs
  | ctlwr l g src ctl => exact execCtlwr_kept l g src ctl s hs
  | gtlo l g d => exact execGtlo_kept l g d s hs
  | gthi l g d => exact execGthi_kept l g d s hs
  | cmp l g pd cc a b => exact execCmp_kept l g pd cc a b s hs
  | cmpi l g pd cc a imm => exact execCmpi_kept l g pd cc a imm s hs
  | sld l g d a off => exact execSld_kept l g d a off s hs
  | sst l g src a off => exact execSst_kept l g src a off s hs
  | qmap l g reg a => exact execQmap_kept l g reg a s hs
  | qunmap l g reg => exact execQunmap_kept l g reg s hs
  | br g disp => exact execBr_kept g disp s hs
  | call g disp => exact execCall_kept g disp s hs
  | contain g disp => exact execContain_kept g disp s hs
  | jr g a => exact execJr_kept g a s hs
  | callr g a => exact execCallr_kept g a s hs
  | loop g a len => exact execLoop_kept g a len s hs
  | loopi g cnt len => exact execLoopi_kept g cnt len s hs
  | lbrk g => exact execLbrk_kept g s hs
  | lstg g lv pm => exact execLstg_kept g lv pm s hs
  | pand g pd pa pb na nb => exact execPand_kept g pd pa pb na nb s hs
  | por g pd pa pb na nb => exact execPor_kept g pd pa pb na nb s hs
  | pxor g pd pa pb na nb => exact execPxor_kept g pd pa pb na nb s hs
  | bktj g a tbl => exact execBktj_kept g a tbl s hs
  | waitgt g a b => exact execWaitgt_kept g a b s hs
  | setest g a b => exact execSetest_kept g a b s hs
  | setts g a b => exact execSetts_kept g a b s hs
  | setrm g rm => exact execSetrm_kept g rm s hs
  | launch g a timed => exact execLaunch_kept g a timed s hs
  | bar g sc id rl aq => exact execBar_kept g sc id rl aq s hs
  | bararv g sc id rl => exact execBararv_kept g sc id rl s hs
  | barwt g sc id aq => exact execBarwt_kept g sc id aq s hs
  | fence g sc mask => exact execFence_kept g sc mask s hs
  | trap g code => exact execTrap_kept g code s hs
  | eret g => exact execEret_kept g s hs
  | exit g => exact execExit_kept g s hs
  | containend g => exact execContainend_kept g s hs
  | vadd l g fmt td ta tb rs => exact execVadd_kept l g fmt td ta tb rs s hs
  | vsub l g fmt td ta tb rs => exact execVsub_kept l g fmt td ta tb rs s hs
  | vmul l g fmt td ta tb rs => exact execVmul_kept l g fmt td ta tb rs s hs
  | vfma l g fmt td ta tb rs => exact execVfma_kept l g fmt td ta tb rs s hs
  | vmin l g fmt td ta tb rs => exact execVmin_kept l g fmt td ta tb rs s hs
  | vmax l g fmt td ta tb rs => exact execVmax_kept l g fmt td ta tb rs s hs
  | vabs l g fmt td ta rs => exact execVabs_kept l g fmt td ta rs s hs
  | vneg l g fmt td ta rs => exact execVneg_kept l g fmt td ta rs s hs
  | vmov l g fmt td ta rs => exact execVmov_kept l g fmt td ta rs s hs
  | vand l g fmt td ta tb rs => exact execVand_kept l g fmt td ta tb rs s hs
  | vor l g fmt td ta tb rs => exact execVor_kept l g fmt td ta tb rs s hs
  | vxor l g fmt td ta tb rs => exact execVxor_kept l g fmt td ta tb rs s hs
  | vshl l g fmt td ta tb rs => exact execVshl_kept l g fmt td ta tb rs s hs
  | vshr l g fmt td ta tb rs => exact execVshr_kept l g fmt td ta tb rs s hs
  | vsra l g fmt td ta tb rs => exact execVsra_kept l g fmt td ta tb rs s hs
  | vcmpeq l g fmt td ta tb rs => exact execVcmpeq_kept l g fmt td ta tb rs s hs
  | vcmplt l g fmt td ta tb rs => exact execVcmplt_kept l g fmt td ta tb rs s hs
  | vcmple l g fmt td ta tb rs => exact execVcmple_kept l g fmt td ta tb rs s hs
  | vsel l g fmt td ta tb rs => exact execVsel_kept l g fmt td ta tb rs s hs
  | vcvt l g fmt td ta fsrc rs => exact execVcvt_kept l g fmt td ta fsrc rs s hs
  | vscl l g fmt td ta q rs => exact execVscl_kept l g fmt td ta q rs s hs
  | vclmp l g fmt td ta v rs => exact execVclmp_kept l g fmt td ta v rs s hs
  | vexp2 l g fmt td ta rs => exact execVexp2_kept l g fmt td ta rs s hs
  | vrcp l g fmt td ta rs => exact execVrcp_kept l g fmt td ta rs s hs
  | vrsq l g fmt td ta rs => exact execVrsq_kept l g fmt td ta rs s hs
  | vrsum l g fmt td ta rs => exact execVrsum_kept l g fmt td ta rs s hs
  | vrmax l g fmt td ta rs => exact execVrmax_kept l g fmt td ta rs s hs
  | vrmin l g fmt td ta rs => exact execVrmin_kept l g fmt td ta rs s hs
  | vbcs l g fmt td sn rs => exact execVbcs_kept l g fmt td sn rs s hs
  | vext l g fmt sd ta sn rs => exact execVext_kept l g fmt sd ta sn rs s hs
  | vins l g fmt td sv sn rs => exact execVins_kept l g fmt td sv sn rs s hs
  | vperm l g fmt td ta tb rs => exact execVperm_kept l g fmt td ta tb rs s hs
  | vlsh l g fmt td ta sn rs => exact execVlsh_kept l g fmt td ta sn rs s hs
  | vpack l g fmt td ta tb rs => exact execVpack_kept l g fmt td ta tb rs s hs
  | vunpk l g fmt td ta half rs => exact execVunpk_kept l g fmt td ta half rs s hs
  | vadds l g fmt td ta sn rs => exact execVadds_kept l g fmt td ta sn rs s hs
  | vmuls l g fmt td ta sn rs => exact execVmuls_kept l g fmt td ta sn rs s hs
  | vfmas l g fmt td ta sn rs => exact execVfmas_kept l g fmt td ta sn rs s hs
  | tld g t v a cx cls => exact execTld_kept g t v a cx cls s hs
  | tst g t v a cx cls => exact execTst_kept g t v a cx cls s hs
  | tgath g t v a cx cls => exact execTgath_kept g t v a cx cls s hs
  | tscat g t v a cx cls => exact execTscat_kept g t v a cx cls s hs
  | pref g v a => exact execPref_kept g v a s hs
  | tspld g t a => exact execTspld_kept g t a s hs
  | tspst g t a => exact execTspst_kept g t a s hs
  | ared g t v a cx cls => exact execAred_kept g t v a cx cls s hs
  | tzero g t => exact execTzero_kept g t s hs
  | tmovt g t ts => exact execTmovt_kept g t ts s hs
  | tcopy g vd vs a cq ev => exact execTcopy_kept g vd vs a cq ev s hs
  | vopen g v mode sc cls => exact execVopen_kept g v mode sc cls s hs
  | vretire g v => exact execVretire_kept g v s hs
  | hfree g a => exact execHfree_kept g a s hs
  | waitm g d v a ord sc => exact execWaitm_kept g d v a ord sc s hs
  | aadd g d v a ord sc => exact execAadd_kept g d v a ord sc s hs
  | amin g d v a ord sc => exact execAmin_kept g d v a ord sc s hs
  | amax g d v a ord sc => exact execAmax_kept g d v a ord sc s hs
  | aminu g d v a ord sc => exact execAminu_kept g d v a ord sc s hs
  | amaxu g d v a ord sc => exact execAmaxu_kept g d v a ord sc s hs
  | aand g d v a ord sc => exact execAand_kept g d v a ord sc s hs
  | aor g d v a ord sc => exact execAor_kept g d v a ord sc s hs
  | axor g d v a ord sc => exact execAxor_kept g d v a ord sc s hs
  | axchg g d v a ord sc => exact execAxchg_kept g d v a ord sc s hs
  | acas g d v a ord sc => exact execAcas_kept g d v a ord sc s hs
  | aincb g d v a ord sc => exact execAincb_kept g d v a ord sc s hs
  | afadd g d v a ord sc => exact execAfadd_kept g d v a ord sc s hs
  | afaddh g d v a ord sc => exact execAfaddh_kept g d v a ord sc s hs
  | ald g d v a ord sc => exact execAld_kept g d v a ord sc s hs
  | ast g d v a ord sc => exact execAst_kept g d v a ord sc s hs
  | send g a t b timed => exact execSend_kept g a t b timed s hs
  | mm g acc t sg sw fmt q scl => exact execMm_kept g acc t sg sw fmt q scl s hs
  | mmcmp g acc t sg sw fmt => exact execMmcmp_kept g acc t sg sw fmt s hs
  | mstatTile g t sg sw fmt => exact execMstatTile_kept g t sg sw fmt s hs
  | mstatHandle g a sg sw fmt => exact execMstatHandle_kept g a sg sw fmt s hs
  | mswap g => exact execMswap_kept g s hs
  | lease g => exact execLease_kept g s hs
  | lrel g => exact execLrel_kept g s hs
  | acczeroFp g acc t => exact execAcczeroFp_kept g acc t s hs
  | acczeroInt g acc => exact execAcczeroInt_kept g acc s hs
  | accld g acc t sg sw fmt hi => exact execAccld_kept g acc t sg sw fmt hi s hs
  | accnorm g acc t sg sw => exact execAccnorm_kept g acc t sg sw s hs
  | accchk g acc => exact execAccchk_kept g acc s hs
  | accdrain g acc t sg sw fmt q x => exact execAccdrain_kept g acc t sg sw fmt q x s hs
  | fold g acc sg sw => exact execFold_kept g acc sg sw s hs
  | tadd g vd va vb fmt sg sw => exact execTadd_kept g vd va vb fmt sg sw s hs
  | tsub g vd va vb fmt sg sw => exact execTsub_kept g vd va vb fmt sg sw s hs
  | tmul g vd va vb fmt sg sw => exact execTmul_kept g vd va vb fmt sg sw s hs
  | tmax g vd va vb fmt sg sw => exact execTmax_kept g vd va vb fmt sg sw s hs
  | tred g vd va fmt sg sw => exact execTred_kept g vd va fmt sg sw s hs
  | tmv g vd va vb fmt sg sw => exact execTmv_kept g vd va vb fmt sg sw s hs
  | tmm g vd va vb fmt sg sw => exact execTmm_kept g vd va vb fmt sg sw s hs
  | pabm g a t rs => exact execPabm_kept g a t rs s hs
  | pbcast g a t rs => exact execPbcast_kept g a t rs s hs
  | pmac g a t rs => exact execPmac_kept g a t rs s hs
  | pread g a t rs => exact execPread_kept g a t rs s hs
  | pexit g a => exact execPexit_kept g a s hs
  | shpset g sg fld imm => exact execShpset_kept g sg fld imm s hs
  | shpcpy g sg => exact execShpcpy_kept g sg s hs
  | qld g q a n => exact execQld_kept g q a n s hs
  | qset g q a n => exact execQset_kept g q a n s hs
  | qzero g q => exact execQzero_kept g q s hs
  | vfset g v fld a => exact execVfset_kept g v fld a s hs
  | vfseti g v fld imm => exact execVfseti_kept g v fld imm s hs
  | bndset g v a b => exact execBndset_kept g v a b s hs
  | bndoff g v => exact execBndoff_kept g v s hs
  | vrow sl rd ra rb => exact execVrow_kept sl rd ra rb s hs
  | ximm tgt e => exact execXimm_kept tgt e s hs
  | messageDelivery op => exact execMessageDelivery_kept op s hs
  | owedResponseTimeout resp => exact execOwedResponseTimeout_kept resp s hs
  | atsInvalidationAnswer dest => exact execAtsInvalidationAnswer_kept dest s hs
  | sqctlFreeze => exact execSqctlFreeze_kept s hs
  | sqctlUnfreeze => exact execSqctlUnfreeze_kept s hs
  | sqctlStep => exact execSqctlStep_kept s hs
  | sqctlResume => exact execSqctlResume_kept s hs
  | sqctlResumeSkip => exact execSqctlResumeSkip_kept s hs
  | sliceWaymaskWrite => exact execSliceWaymaskWrite_kept s hs
  | remoteWaysWrite => exact execRemoteWaysWrite_kept s hs
  | xlinvGo => exact execXlinvGo_kept s hs
  | ringdWrite => exact execRingdWrite_kept s hs
  | taskcmdRelease => exact execTaskcmdRelease_kept s hs
  | taskcmdKill => exact execTaskcmdKill_kept s hs
  | hqctlWrite => exact execHqctlWrite_kept s hs
  | notify => exact execNotify_kept s hs
  | queueSlotAdmit => exact execQueueSlotAdmit_kept s hs
  | sensorSample => exact execSensorSample_kept s hs
  | zctlEvac => exact execZctlEvac_kept s hs
  | zctlReturn => exact execZctlReturn_kept s hs
  | zctlWrite => exact execZctlWrite_kept s hs
  | trctlWrite => exact execTrctlWrite_kept s hs
  | capstart => exact execCapstart_kept s hs
  | capstop => exact execCapstop_kept s hs
  | rpctlWrite => exact execRpctlWrite_kept s hs
  | podidWrite => exact execPodidWrite_kept s hs
  | destWrite => exact execDestWrite_kept s hs
  | destFencedClear => exact execDestFencedClear_kept s hs
  | gtTimeMessageSend => exact execGtTimeMessageSend_kept s hs
  | powerUp => exact execPowerUp_kept s hs
  | packageReset => exact execPackageReset_kept s hs
  | powerOff => exact execPowerOff_kept s hs
  | bootstatGo => exact execBootstatGo_kept s hs
  | bootstatSvnset => exact execBootstatSvnset_kept s hs
  | attctlGo => exact execAttctlGo_kept s hs
  | attestationComplete => exact execAttestationComplete_kept s hs
  | registerWrite => exact execRegisterWrite_kept s hs

end Sys2Proof.Machine
end

