-- ==== Sys2Proof/Laws/PerInstr.lean ====
section
/-! SUPPORT. Sys2Proof/Laws/PerInstr.lean: the family Codec: a well-formed slot instruction's word fits in 32 bits and its class's decoder gives
the instruction back; a step of the package has no word. One lemma for each constructor of Instr. -/

namespace Sys2Proof.Laws.Codec

/-- The round trip of one instruction. -/
def Statement (i : Instr) : Prop :=
  match slotOf i with
  | none => encode i = []
  | some cl => i.wf = true → encode i = [encodeWord i] ∧ encodeWord i < 2 ^ 32 ∧ decodeSlot cl (encodeWord i) = some i

theorem codec_of {i : Instr} {cl : SlotClass} (hs : slotOf i = some cl)
    (h : ∀ w, w = encodeWord i → w < 2 ^ 32 ∧ decodeFields cl w = some i) : Statement i := by
  obtain ⟨hb, hd⟩ := h _ rfl
  unfold Statement
  rw [hs]
  refine fun hw => ⟨by simp [encode, hs], hb, ?_⟩
  simp [decodeSlot, hd, hw]

theorem field_eq {n : Nat} (w lo : Nat) (x : BitVec n) (h : w / 2 ^ lo % 2 ^ n = x.toNat) : fieldAt w lo n = x :=
  BitVec.eq_of_toNat_eq (by rw [fieldAt, BitVec.toNat_ofNat, h])

theorem bit_eq (w lo : Nat) (x : Bool) (h : w / 2 ^ lo % 2 = x.toNat) : bitAt w lo = x := by
  rw [bitAt, h]
  cases x <;> rfl

theorem bool_lt (x : Bool) : x.toNat < 2 := by cases x <;> decide

theorem bundleIssue (q : Nat) : Statement (.bundleIssue q) := rfl

theorem pendingWriteLanding (q : Nat) : Statement (.pendingWriteLanding q) := rfl

theorem bundleSkip (q : Nat) : Statement (.bundleSkip q) := rfl

theorem loopExit (q : Nat) : Statement (.loopExit q) := rfl

theorem delayExpire (q : Nat) : Statement (.delayExpire q) := rfl

theorem starvationGuard (core : Nat) : Statement (.starvationGuard core) := rfl

theorem variableResultArrival (op : Nat) : Statement (.variableResultArrival op) := rfl

theorem tileWriteComplete (op : Nat) : Statement (.tileWriteComplete op) := rfl

theorem viewAccessPerform (op : Nat) : Statement (.viewAccessPerform op) := rfl

theorem engineFault (q : Nat) : Statement (.engineFault q) := rfl

theorem containedUnwind (q : Nat) : Statement (.containedUnwind q) := rfl

theorem copyStart (core : Nat) (cq : Nat) : Statement (.copyStart core cq) := rfl

theorem copyComplete (op : Nat) : Statement (.copyComplete op) := rfl

theorem retireComplete (op : Nat) : Statement (.retireComplete op) := rfl

theorem leaseGrant (quad : Nat) (c : Nat) : Statement (.leaseGrant quad c) := rfl

theorem leaseBoundExpiry (quad : Nat) : Statement (.leaseBoundExpiry quad) := rfl

theorem arrayCommandRun (quad : Nat) (c : Nat) : Statement (.arrayCommandRun quad c) := rfl

theorem placedWriteback (op : Nat) : Statement (.placedWriteback op) := rfl

theorem bankCommandRun (q : Nat) : Statement (.bankCommandRun q) := rfl

theorem atomicBankOperation (op : Nat) (elem : Nat) : Statement (.atomicBankOperation op elem) := rfl

theorem translationWalkComplete (die : Nat) (asid : Nat) (vpn : Nat) : Statement (.translationWalkComplete die asid vpn) := rfl

theorem sendFull (q : Nat) : Statement (.sendFull q) := rfl

theorem waymaskChangeComplete (die : Nat) (slice : Nat) : Statement (.waymaskChangeComplete die slice) := rfl

theorem remoteWaysChangeComplete (die : Nat) (slice : Nat) : Statement (.remoteWaysChangeComplete die slice) := rfl

theorem xlinvComplete (die : Nat) : Statement (.xlinvComplete die) := rfl

theorem teamPlace (die : Nat) : Statement (.teamPlace die) := rfl

theorem cohortPlace (die : Nat) : Statement (.cohortPlace die) := rfl

theorem launchViewRegister (die : Nat) (task : Nat) : Statement (.launchViewRegister die task) := rfl

theorem timedStart (q : Nat) : Statement (.timedStart q) := rfl

theorem preemptDecision (die : Nat) : Statement (.preemptDecision die) := rfl

theorem preemptReevaluate (die : Nat) : Statement (.preemptReevaluate die) := rfl

theorem checkpointWrite (task : Nat) (team : Nat) : Statement (.checkpointWrite task team) := rfl

theorem teamRestore (task : Nat) (team : Nat) : Statement (.teamRestore task team) := rfl

theorem taskComplete (task : Nat) : Statement (.taskComplete task) := rfl

theorem pkgBarrierMessage (msg : Nat) : Statement (.pkgBarrierMessage msg) := rfl

theorem lineInvalidate (op : Nat) : Statement (.lineInvalidate op) := rfl

theorem hqNop (n : Nat) : Statement (.hqNop n) := rfl

theorem hqLaunch (n : Nat) : Statement (.hqLaunch n) := rfl

theorem hqTimedLaunch (n : Nat) : Statement (.hqTimedLaunch n) := rfl

theorem hqFence (n : Nat) : Statement (.hqFence n) := rfl

theorem hqInvalid (n : Nat) : Statement (.hqInvalid n) := rfl

theorem hqEntryComplete (n : Nat) (entry : Nat) : Statement (.hqEntryComplete n entry) := rfl

theorem coolLowflow (zone : Nat) : Statement (.coolLowflow zone) := rfl

theorem coolOvertemp (zone : Nat) : Statement (.coolOvertemp zone) := rfl

theorem coolDry (zone : Nat) : Statement (.coolDry zone) := rfl

theorem evacDrainTimeout (zone : Nat) : Statement (.evacDrainTimeout zone) := rfl

theorem evacValveClosed (zone : Nat) : Statement (.evacValveClosed zone) := rfl

theorem evacPurgeDone (zone : Nat) : Statement (.evacPurgeDone zone) := rfl

theorem evacVerifyDone (zone : Nat) : Statement (.evacVerifyDone zone) := rfl

theorem zoneReady (zone : Nat) : Statement (.zoneReady zone) := rfl

theorem lost (die : Nat) : Statement (.lost die) := rfl

theorem resync (die : Nat) : Statement (.resync die) := rfl

theorem stationUp (station : Nat) : Statement (.stationUp station) := rfl

theorem stationDown (station : Nat) : Statement (.stationDown station) := rfl

theorem remoteRequestSend (req : Nat) : Statement (.remoteRequestSend req) := rfl

theorem remoteResponse (req : Nat) : Statement (.remoteResponse req) := rfl

theorem remoteFence (req : Nat) : Statement (.remoteFence req) := rfl

theorem incomingRemoteRequest (req : Nat) : Statement (.incomingRemoteRequest req) := rfl

theorem atsTranslationRequest (dest : Nat) (va : Nat) : Statement (.atsTranslationRequest dest va) := rfl

theorem atsTranslationResponse (dest : Nat) (vpn : Nat) (val : Nat) : Statement (.atsTranslationResponse dest vpn val) := rfl

theorem atsInvalidation (dest : Nat) (vpn : Nat) (size : Nat) : Statement (.atsInvalidation dest vpn size) := rfl

theorem gtTimeMessage (dest : Nat) (gt : Nat) : Statement (.gtTimeMessage dest gt) := rfl

theorem podBarrierArrival (group : Nat) (dest : Nat) : Statement (.podBarrierArrival group dest) := rfl

theorem podBarrierCompletion (group : Nat) : Statement (.podBarrierCompletion group) := rfl

theorem podBarrierTimeout (group : Nat) : Statement (.podBarrierTimeout group) := rfl

theorem add (l : Bool) (g : BitVec 4) (d : BitVec 6) (a : BitVec 6) (b : BitVec 6) : Statement (.add l g d a b) := by
  refine codec_of rfl (fun w hw => ?_)
  change w = 0x00100000 + g.toNat * 0x10000000 + d.toNat * 0x4000 + a.toNat * 0x100 + b.toNat * 0x4 at hw
  have := g.isLt; have := d.isLt; have := a.isLt; have := b.isLt
  refine ⟨by omega, (congrArg (opcodeS l w) (show w / 0x100000 % 256 = 0x01 by omega)).trans ?_⟩
  show some (Instr.add l (fieldAt w 28 4) (fieldAt w 14 6) (fieldAt w 8 6) (fieldAt w 2 6)) = _
  rw [field_eq w 28 g (by omega), field_eq w 14 d (by omega), field_eq w 8 a (by omega), field_eq w 2 b (by omega)]

theorem sub (l : Bool) (g : BitVec 4) (d : BitVec 6) (a : BitVec 6) (b : BitVec 6) : Statement (.sub l g d a b) := by
  refine codec_of rfl (fun w hw => ?_)
  change w = 0x00200000 + g.toNat * 0x10000000 + d.toNat * 0x4000 + a.toNat * 0x100 + b.toNat * 0x4 at hw
  have := g.isLt; have := d.isLt; have := a.isLt; have := b.isLt
  refine ⟨by omega, (congrArg (opcodeS l w) (show w / 0x100000 % 256 = 0x02 by omega)).trans ?_⟩
  show some (Instr.sub l (fieldAt w 28 4) (fieldAt w 14 6) (fieldAt w 8 6) (fieldAt w 2 6)) = _
  rw [field_eq w 28 g (by omega), field_eq w 14 d (by omega), field_eq w 8 a (by omega), field_eq w 2 b (by omega)]

theorem and (l : Bool) (g : BitVec 4) (d : BitVec 6) (a : BitVec 6) (b : BitVec 6) : Statement (.and l g d a b) := by
  refine codec_of rfl (fun w hw => ?_)
  change w = 0x00300000 + g.toNat * 0x10000000 + d.toNat * 0x4000 + a.toNat * 0x100 + b.toNat * 0x4 at hw
  have := g.isLt; have := d.isLt; have := a.isLt; have := b.isLt
  refine ⟨by omega, (congrArg (opcodeS l w) (show w / 0x100000 % 256 = 0x03 by omega)).trans ?_⟩
  show some (Instr.and l (fieldAt w 28 4) (fieldAt w 14 6) (fieldAt w 8 6) (fieldAt w 2 6)) = _
  rw [field_eq w 28 g (by omega), field_eq w 14 d (by omega), field_eq w 8 a (by omega), field_eq w 2 b (by omega)]

theorem or (l : Bool) (g : BitVec 4) (d : BitVec 6) (a : BitVec 6) (b : BitVec 6) : Statement (.or l g d a b) := by
  refine codec_of rfl (fun w hw => ?_)
  change w = 0x00400000 + g.toNat * 0x10000000 + d.toNat * 0x4000 + a.toNat * 0x100 + b.toNat * 0x4 at hw
  have := g.isLt; have := d.isLt; have := a.isLt; have := b.isLt
  refine ⟨by omega, (congrArg (opcodeS l w) (show w / 0x100000 % 256 = 0x04 by omega)).trans ?_⟩
  show some (Instr.or l (fieldAt w 28 4) (fieldAt w 14 6) (fieldAt w 8 6) (fieldAt w 2 6)) = _
  rw [field_eq w 28 g (by omega), field_eq w 14 d (by omega), field_eq w 8 a (by omega), field_eq w 2 b (by omega)]

theorem xor (l : Bool) (g : BitVec 4) (d : BitVec 6) (a : BitVec 6) (b : BitVec 6) : Statement (.xor l g d a b) := by
  refine codec_of rfl (fun w hw => ?_)
  change w = 0x00500000 + g.toNat * 0x10000000 + d.toNat * 0x4000 + a.toNat * 0x100 + b.toNat * 0x4 at hw
  have := g.isLt; have := d.isLt; have := a.isLt; have := b.isLt
  refine ⟨by omega, (congrArg (opcodeS l w) (show w / 0x100000 % 256 = 0x05 by omega)).trans ?_⟩
  show some (Instr.xor l (fieldAt w 28 4) (fieldAt w 14 6) (fieldAt w 8 6) (fieldAt w 2 6)) = _
  rw [field_eq w 28 g (by omega), field_eq w 14 d (by omega), field_eq w 8 a (by omega), field_eq w 2 b (by omega)]

theorem shl (l : Bool) (g : BitVec 4) (d : BitVec 6) (a : BitVec 6) (b : BitVec 6) : Statement (.shl l g d a b) := by
  refine codec_of rfl (fun w hw => ?_)
  change w = 0x00600000 + g.toNat * 0x10000000 + d.toNat * 0x4000 + a.toNat * 0x100 + b.toNat * 0x4 at hw
  have := g.isLt; have := d.isLt; have := a.isLt; have := b.isLt
  refine ⟨by omega, (congrArg (opcodeS l w) (show w / 0x100000 % 256 = 0x06 by omega)).trans ?_⟩
  show some (Instr.shl l (fieldAt w 28 4) (fieldAt w 14 6) (fieldAt w 8 6) (fieldAt w 2 6)) = _
  rw [field_eq w 28 g (by omega), field_eq w 14 d (by omega), field_eq w 8 a (by omega), field_eq w 2 b (by omega)]

theorem shr (l : Bool) (g : BitVec 4) (d : BitVec 6) (a : BitVec 6) (b : BitVec 6) : Statement (.shr l g d a b) := by
  refine codec_of rfl (fun w hw => ?_)
  change w = 0x00700000 + g.toNat * 0x10000000 + d.toNat * 0x4000 + a.toNat * 0x100 + b.toNat * 0x4 at hw
  have := g.isLt; have := d.isLt; have := a.isLt; have := b.isLt
  refine ⟨by omega, (congrArg (opcodeS l w) (show w / 0x100000 % 256 = 0x07 by omega)).trans ?_⟩
  show some (Instr.shr l (fieldAt w 28 4) (fieldAt w 14 6) (fieldAt w 8 6) (fieldAt w 2 6)) = _
  rw [field_eq w 28 g (by omega), field_eq w 14 d (by omega), field_eq w 8 a (by omega), field_eq w 2 b (by omega)]

theorem sra (l : Bool) (g : BitVec 4) (d : BitVec 6) (a : BitVec 6) (b : BitVec 6) : Statement (.sra l g d a b) := by
  refine codec_of rfl (fun w hw => ?_)
  change w = 0x00800000 + g.toNat * 0x10000000 + d.toNat * 0x4000 + a.toNat * 0x100 + b.toNat * 0x4 at hw
  have := g.isLt; have := d.isLt; have := a.isLt; have := b.isLt
  refine ⟨by omega, (congrArg (opcodeS l w) (show w / 0x100000 % 256 = 0x08 by omega)).trans ?_⟩
  show some (Instr.sra l (fieldAt w 28 4) (fieldAt w 14 6) (fieldAt w 8 6) (fieldAt w 2 6)) = _
  rw [field_eq w 28 g (by omega), field_eq w 14 d (by omega), field_eq w 8 a (by omega), field_eq w 2 b (by omega)]

theorem min (l : Bool) (g : BitVec 4) (d : BitVec 6) (a : BitVec 6) (b : BitVec 6) : Statement (.min l g d a b) := by
  refine codec_of rfl (fun w hw => ?_)
  change w = 0x00900000 + g.toNat * 0x10000000 + d.toNat * 0x4000 + a.toNat * 0x100 + b.toNat * 0x4 at hw
  have := g.isLt; have := d.isLt; have := a.isLt; have := b.isLt
  refine ⟨by omega, (congrArg (opcodeS l w) (show w / 0x100000 % 256 = 0x09 by omega)).trans ?_⟩
  show some (Instr.min l (fieldAt w 28 4) (fieldAt w 14 6) (fieldAt w 8 6) (fieldAt w 2 6)) = _
  rw [field_eq w 28 g (by omega), field_eq w 14 d (by omega), field_eq w 8 a (by omega), field_eq w 2 b (by omega)]

theorem max (l : Bool) (g : BitVec 4) (d : BitVec 6) (a : BitVec 6) (b : BitVec 6) : Statement (.max l g d a b) := by
  refine codec_of rfl (fun w hw => ?_)
  change w = 0x00A00000 + g.toNat * 0x10000000 + d.toNat * 0x4000 + a.toNat * 0x100 + b.toNat * 0x4 at hw
  have := g.isLt; have := d.isLt; have := a.isLt; have := b.isLt
  refine ⟨by omega, (congrArg (opcodeS l w) (show w / 0x100000 % 256 = 0x0A by omega)).trans ?_⟩
  show some (Instr.max l (fieldAt w 28 4) (fieldAt w 14 6) (fieldAt w 8 6) (fieldAt w 2 6)) = _
  rw [field_eq w 28 g (by omega), field_eq w 14 d (by omega), field_eq w 8 a (by omega), field_eq w 2 b (by omega)]

theorem minu (l : Bool) (g : BitVec 4) (d : BitVec 6) (a : BitVec 6) (b : BitVec 6) : Statement (.minu l g d a b) := by
  refine codec_of rfl (fun w hw => ?_)
  change w = 0x00B00000 + g.toNat * 0x10000000 + d.toNat * 0x4000 + a.toNat * 0x100 + b.toNat * 0x4 at hw
  have := g.isLt; have := d.isLt; have := a.isLt; have := b.isLt
  refine ⟨by omega, (congrArg (opcodeS l w) (show w / 0x100000 % 256 = 0x0B by omega)).trans ?_⟩
  show some (Instr.minu l (fieldAt w 28 4) (fieldAt w 14 6) (fieldAt w 8 6) (fieldAt w 2 6)) = _
  rw [field_eq w 28 g (by omega), field_eq w 14 d (by omega), field_eq w 8 a (by omega), field_eq w 2 b (by omega)]

theorem maxu (l : Bool) (g : BitVec 4) (d : BitVec 6) (a : BitVec 6) (b : BitVec 6) : Statement (.maxu l g d a b) := by
  refine codec_of rfl (fun w hw => ?_)
  change w = 0x00C00000 + g.toNat * 0x10000000 + d.toNat * 0x4000 + a.toNat * 0x100 + b.toNat * 0x4 at hw
  have := g.isLt; have := d.isLt; have := a.isLt; have := b.isLt
  refine ⟨by omega, (congrArg (opcodeS l w) (show w / 0x100000 % 256 = 0x0C by omega)).trans ?_⟩
  show some (Instr.maxu l (fieldAt w 28 4) (fieldAt w 14 6) (fieldAt w 8 6) (fieldAt w 2 6)) = _
  rw [field_eq w 28 g (by omega), field_eq w 14 d (by omega), field_eq w 8 a (by omega), field_eq w 2 b (by omega)]

theorem mov (l : Bool) (g : BitVec 4) (d : BitVec 6) (a : BitVec 6) : Statement (.mov l g d a) := by
  refine codec_of rfl (fun w hw => ?_)
  change w = 0x00D00000 + g.toNat * 0x10000000 + d.toNat * 0x4000 + a.toNat * 0x100 at hw
  have := g.isLt; have := d.isLt; have := a.isLt
  refine ⟨by omega, (congrArg (opcodeS l w) (show w / 0x100000 % 256 = 0x0D by omega)).trans ?_⟩
  show some (Instr.mov l (fieldAt w 28 4) (fieldAt w 14 6) (fieldAt w 8 6)) = _
  rw [field_eq w 28 g (by omega), field_eq w 14 d (by omega), field_eq w 8 a (by omega)]

theorem addsh (l : Bool) (g : BitVec 4) (d : BitVec 6) (a : BitVec 6) (b : BitVec 6) (sh : BitVec 2) : Statement (.addsh l g d a b sh) := by
  refine codec_of rfl (fun w hw => ?_)
  change w = 0x00E00000 + g.toNat * 0x10000000 + d.toNat * 0x4000 + a.toNat * 0x100 + b.toNat * 0x4 + sh.toNat at hw
  have := g.isLt; have := d.isLt; have := a.isLt; have := b.isLt; have := sh.isLt
  refine ⟨by omega, (congrArg (opcodeS l w) (show w / 0x100000 % 256 = 0x0E by omega)).trans ?_⟩
  show some (Instr.addsh l (fieldAt w 28 4) (fieldAt w 14 6) (fieldAt w 8 6) (fieldAt w 2 6) (fieldAt w 0 2)) = _
  rw [field_eq w 28 g (by omega), field_eq w 14 d (by omega), field_eq w 8 a (by omega), field_eq w 2 b (by omega), field_eq w 0 sh (by omega)]

theorem clz (l : Bool) (g : BitVec 4) (d : BitVec 6) (a : BitVec 6) : Statement (.clz l g d a) := by
  refine codec_of rfl (fun w hw => ?_)
  change w = 0x00F00000 + g.toNat * 0x10000000 + d.toNat * 0x4000 + a.toNat * 0x100 at hw
  have := g.isLt; have := d.isLt; have := a.isLt
  refine ⟨by omega, (congrArg (opcodeS l w) (show w / 0x100000 % 256 = 0x0F by omega)).trans ?_⟩
  show some (Instr.clz l (fieldAt w 28 4) (fieldAt w 14 6) (fieldAt w 8 6)) = _
  rw [field_eq w 28 g (by omega), field_eq w 14 d (by omega), field_eq w 8 a (by omega)]

theorem mul (l : Bool) (g : BitVec 4) (d : BitVec 6) (a : BitVec 6) (b : BitVec 6) : Statement (.mul l g d a b) := by
  refine codec_of rfl (fun w hw => ?_)
  change w = 0x01000000 + g.toNat * 0x10000000 + d.toNat * 0x4000 + a.toNat * 0x100 + b.toNat * 0x4 at hw
  have := g.isLt; have := d.isLt; have := a.isLt; have := b.isLt
  refine ⟨by omega, (congrArg (opcodeS l w) (show w / 0x100000 % 256 = 0x10 by omega)).trans ?_⟩
  show some (Instr.mul l (fieldAt w 28 4) (fieldAt w 14 6) (fieldAt w 8 6) (fieldAt w 2 6)) = _
  rw [field_eq w 28 g (by omega), field_eq w 14 d (by omega), field_eq w 8 a (by omega), field_eq w 2 b (by omega)]

theorem mulh (l : Bool) (g : BitVec 4) (d : BitVec 6) (a : BitVec 6) (b : BitVec 6) : Statement (.mulh l g d a b) := by
  refine codec_of rfl (fun w hw => ?_)
  change w = 0x01100000 + g.toNat * 0x10000000 + d.toNat * 0x4000 + a.toNat * 0x100 + b.toNat * 0x4 at hw
  have := g.isLt; have := d.isLt; have := a.isLt; have := b.isLt
  refine ⟨by omega, (congrArg (opcodeS l w) (show w / 0x100000 % 256 = 0x11 by omega)).trans ?_⟩
  show some (Instr.mulh l (fieldAt w 28 4) (fieldAt w 14 6) (fieldAt w 8 6) (fieldAt w 2 6)) = _
  rw [field_eq w 28 g (by omega), field_eq w 14 d (by omega), field_eq w 8 a (by omega), field_eq w 2 b (by omega)]

theorem mulhu (l : Bool) (g : BitVec 4) (d : BitVec 6) (a : BitVec 6) (b : BitVec 6) : Statement (.mulhu l g d a b) := by
  refine codec_of rfl (fun w hw => ?_)
  change w = 0x01200000 + g.toNat * 0x10000000 + d.toNat * 0x4000 + a.toNat * 0x100 + b.toNat * 0x4 at hw
  have := g.isLt; have := d.isLt; have := a.isLt; have := b.isLt
  refine ⟨by omega, (congrArg (opcodeS l w) (show w / 0x100000 % 256 = 0x12 by omega)).trans ?_⟩
  show some (Instr.mulhu l (fieldAt w 28 4) (fieldAt w 14 6) (fieldAt w 8 6) (fieldAt w 2 6)) = _
  rw [field_eq w 28 g (by omega), field_eq w 14 d (by omega), field_eq w 8 a (by omega), field_eq w 2 b (by omega)]

theorem divu (l : Bool) (g : BitVec 4) (d : BitVec 6) (a : BitVec 6) (b : BitVec 6) : Statement (.divu l g d a b) := by
  refine codec_of rfl (fun w hw => ?_)
  change w = 0x01300000 + g.toNat * 0x10000000 + d.toNat * 0x4000 + a.toNat * 0x100 + b.toNat * 0x4 at hw
  have := g.isLt; have := d.isLt; have := a.isLt; have := b.isLt
  refine ⟨by omega, (congrArg (opcodeS l w) (show w / 0x100000 % 256 = 0x13 by omega)).trans ?_⟩
  show some (Instr.divu l (fieldAt w 28 4) (fieldAt w 14 6) (fieldAt w 8 6) (fieldAt w 2 6)) = _
  rw [field_eq w 28 g (by omega), field_eq w 14 d (by omega), field_eq w 8 a (by omega), field_eq w 2 b (by omega)]

theorem remu (l : Bool) (g : BitVec 4) (d : BitVec 6) (a : BitVec 6) (b : BitVec 6) : Statement (.remu l g d a b) := by
  refine codec_of rfl (fun w hw => ?_)
  change w = 0x01400000 + g.toNat * 0x10000000 + d.toNat * 0x4000 + a.toNat * 0x100 + b.toNat * 0x4 at hw
  have := g.isLt; have := d.isLt; have := a.isLt; have := b.isLt
  refine ⟨by omega, (congrArg (opcodeS l w) (show w / 0x100000 % 256 = 0x14 by omega)).trans ?_⟩
  show some (Instr.remu l (fieldAt w 28 4) (fieldAt w 14 6) (fieldAt w 8 6) (fieldAt w 2 6)) = _
  rw [field_eq w 28 g (by omega), field_eq w 14 d (by omega), field_eq w 8 a (by omega), field_eq w 2 b (by omega)]

theorem movi (l : Bool) (g : BitVec 4) (d : BitVec 6) (imm : BitVec 12) : Statement (.movi l g d imm) := by
  refine codec_of rfl (fun w hw => ?_)
  change w = 0x02000000 + g.toNat * 0x10000000 + d.toNat * 0x4000 + imm.toNat at hw
  have := g.isLt; have := d.isLt; have := imm.isLt
  refine ⟨by omega, (congrArg (opcodeS l w) (show w / 0x100000 % 256 = 0x20 by omega)).trans ?_⟩
  show some (Instr.movi l (fieldAt w 28 4) (fieldAt w 14 6) (fieldAt w 0 12)) = _
  rw [field_eq w 28 g (by omega), field_eq w 14 d (by omega), field_eq w 0 imm (by omega)]

theorem addi (l : Bool) (g : BitVec 4) (d : BitVec 6) (imm : BitVec 12) : Statement (.addi l g d imm) := by
  refine codec_of rfl (fun w hw => ?_)
  change w = 0x02100000 + g.toNat * 0x10000000 + d.toNat * 0x4000 + imm.toNat at hw
  have := g.isLt; have := d.isLt; have := imm.isLt
  refine ⟨by omega, (congrArg (opcodeS l w) (show w / 0x100000 % 256 = 0x21 by omega)).trans ?_⟩
  show some (Instr.addi l (fieldAt w 28 4) (fieldAt w 14 6) (fieldAt w 0 12)) = _
  rw [field_eq w 28 g (by omega), field_eq w 14 d (by omega), field_eq w 0 imm (by omega)]

theorem andi (l : Bool) (g : BitVec 4) (d : BitVec 6) (imm : BitVec 12) : Statement (.andi l g d imm) := by
  refine codec_of rfl (fun w hw => ?_)
  change w = 0x02200000 + g.toNat * 0x10000000 + d.toNat * 0x4000 + imm.toNat at hw
  have := g.isLt; have := d.isLt; have := imm.isLt
  refine ⟨by omega, (congrArg (opcodeS l w) (show w / 0x100000 % 256 = 0x22 by omega)).trans ?_⟩
  show some (Instr.andi l (fieldAt w 28 4) (fieldAt w 14 6) (fieldAt w 0 12)) = _
  rw [field_eq w 28 g (by omega), field_eq w 14 d (by omega), field_eq w 0 imm (by omega)]

theorem ori (l : Bool) (g : BitVec 4) (d : BitVec 6) (imm : BitVec 12) : Statement (.ori l g d imm) := by
  refine codec_of rfl (fun w hw => ?_)
  change w = 0x02300000 + g.toNat * 0x10000000 + d.toNat * 0x4000 + imm.toNat at hw
  have := g.isLt; have := d.isLt; have := imm.isLt
  refine ⟨by omega, (congrArg (opcodeS l w) (show w / 0x100000 % 256 = 0x23 by omega)).trans ?_⟩
  show some (Instr.ori l (fieldAt w 28 4) (fieldAt w 14 6) (fieldAt w 0 12)) = _
  rw [field_eq w 28 g (by omega), field_eq w 14 d (by omega), field_eq w 0 imm (by omega)]

theorem xori (l : Bool) (g : BitVec 4) (d : BitVec 6) (imm : BitVec 12) : Statement (.xori l g d imm) := by
  refine codec_of rfl (fun w hw => ?_)
  change w = 0x02400000 + g.toNat * 0x10000000 + d.toNat * 0x4000 + imm.toNat at hw
  have := g.isLt; have := d.isLt; have := imm.isLt
  refine ⟨by omega, (congrArg (opcodeS l w) (show w / 0x100000 % 256 = 0x24 by omega)).trans ?_⟩
  show some (Instr.xori l (fieldAt w 28 4) (fieldAt w 14 6) (fieldAt w 0 12)) = _
  rw [field_eq w 28 g (by omega), field_eq w 14 d (by omega), field_eq w 0 imm (by omega)]

theorem shli (l : Bool) (g : BitVec 4) (d : BitVec 6) (imm : BitVec 12) : Statement (.shli l g d imm) := by
  refine codec_of rfl (fun w hw => ?_)
  change w = 0x02500000 + g.toNat * 0x10000000 + d.toNat * 0x4000 + imm.toNat at hw
  have := g.isLt; have := d.isLt; have := imm.isLt
  refine ⟨by omega, (congrArg (opcodeS l w) (show w / 0x100000 % 256 = 0x25 by omega)).trans ?_⟩
  show some (Instr.shli l (fieldAt w 28 4) (fieldAt w 14 6) (fieldAt w 0 12)) = _
  rw [field_eq w 28 g (by omega), field_eq w 14 d (by omega), field_eq w 0 imm (by omega)]

theorem shri (l : Bool) (g : BitVec 4) (d : BitVec 6) (imm : BitVec 12) : Statement (.shri l g d imm) := by
  refine codec_of rfl (fun w hw => ?_)
  change w = 0x02600000 + g.toNat * 0x10000000 + d.toNat * 0x4000 + imm.toNat at hw
  have := g.isLt; have := d.isLt; have := imm.isLt
  refine ⟨by omega, (congrArg (opcodeS l w) (show w / 0x100000 % 256 = 0x26 by omega)).trans ?_⟩
  show some (Instr.shri l (fieldAt w 28 4) (fieldAt w 14 6) (fieldAt w 0 12)) = _
  rw [field_eq w 28 g (by omega), field_eq w 14 d (by omega), field_eq w 0 imm (by omega)]

theorem srai (l : Bool) (g : BitVec 4) (d : BitVec 6) (imm : BitVec 12) : Statement (.srai l g d imm) := by
  refine codec_of rfl (fun w hw => ?_)
  change w = 0x02700000 + g.toNat * 0x10000000 + d.toNat * 0x4000 + imm.toNat at hw
  have := g.isLt; have := d.isLt; have := imm.isLt
  refine ⟨by omega, (congrArg (opcodeS l w) (show w / 0x100000 % 256 = 0x27 by omega)).trans ?_⟩
  show some (Instr.srai l (fieldAt w 28 4) (fieldAt w 14 6) (fieldAt w 0 12)) = _
  rw [field_eq w 28 g (by omega), field_eq w 14 d (by omega), field_eq w 0 imm (by omega)]

theorem movh (l : Bool) (g : BitVec 4) (d : BitVec 6) (imm : BitVec 12) : Statement (.movh l g d imm) := by
  refine codec_of rfl (fun w hw => ?_)
  change w = 0x02800000 + g.toNat * 0x10000000 + d.toNat * 0x4000 + imm.toNat at hw
  have := g.isLt; have := d.isLt; have := imm.isLt
  refine ⟨by omega, (congrArg (opcodeS l w) (show w / 0x100000 % 256 = 0x28 by omega)).trans ?_⟩
  show some (Instr.movh l (fieldAt w 28 4) (fieldAt w 14 6) (fieldAt w 0 12)) = _
  rw [field_eq w 28 g (by omega), field_eq w 14 d (by omega), field_eq w 0 imm (by omega)]

theorem lidx (l : Bool) (g : BitVec 4) (d : BitVec 6) (lvl : BitVec 12) : Statement (.lidx l g d lvl) := by
  refine codec_of rfl (fun w hw => ?_)
  change w = 0x02900000 + g.toNat * 0x10000000 + d.toNat * 0x4000 + lvl.toNat at hw
  have := g.isLt; have := d.isLt; have := lvl.isLt
  refine ⟨by omega, (congrArg (opcodeS l w) (show w / 0x100000 % 256 = 0x29 by omega)).trans ?_⟩
  show some (Instr.lidx l (fieldAt w 28 4) (fieldAt w 14 6) (fieldAt w 0 12)) = _
  rw [field_eq w 28 g (by omega), field_eq w 14 d (by omega), field_eq w 0 lvl (by omega)]

theorem ctlrd (l : Bool) (g : BitVec 4) (d : BitVec 6) (ctl : BitVec 12) : Statement (.ctlrd l g d ctl) := by
  refine codec_of rfl (fun w hw => ?_)
  change w = 0x02A00000 + g.toNat * 0x10000000 + d.toNat * 0x4000 + ctl.toNat at hw
  have := g.isLt; have := d.isLt; have := ctl.isLt
  refine ⟨by omega, (congrArg (opcodeS l w) (show w / 0x100000 % 256 = 0x2A by omega)).trans ?_⟩
  show some (Instr.ctlrd l (fieldAt w 28 4) (fieldAt w 14 6) (fieldAt w 0 12)) = _
  rw [field_eq w 28 g (by omega), field_eq w 14 d (by omega), field_eq w 0 ctl (by omega)]

theorem ctlwr (l : Bool) (g : BitVec 4) (src : BitVec 6) (ctl : BitVec 12) : Statement (.ctlwr l g src ctl) := by
  refine codec_of rfl (fun w hw => ?_)
  change w = 0x02B00000 + g.toNat * 0x10000000 + src.toNat * 0x4000 + ctl.toNat at hw
  have := g.isLt; have := src.isLt; have := ctl.isLt
  refine ⟨by omega, (congrArg (opcodeS l w) (show w / 0x100000 % 256 = 0x2B by omega)).trans ?_⟩
  show some (Instr.ctlwr l (fieldAt w 28 4) (fieldAt w 14 6) (fieldAt w 0 12)) = _
  rw [field_eq w 28 g (by omega), field_eq w 14 src (by omega), field_eq w 0 ctl (by omega)]

theorem gtlo (l : Bool) (g : BitVec 4) (d : BitVec 6) : Statement (.gtlo l g d) := by
  refine codec_of rfl (fun w hw => ?_)
  change w = 0x02C00000 + g.toNat * 0x10000000 + d.toNat * 0x4000 at hw
  have := g.isLt; have := d.isLt
  refine ⟨by omega, (congrArg (opcodeS l w) (show w / 0x100000 % 256 = 0x2C by omega)).trans ?_⟩
  show some (Instr.gtlo l (fieldAt w 28 4) (fieldAt w 14 6)) = _
  rw [field_eq w 28 g (by omega), field_eq w 14 d (by omega)]

theorem gthi (l : Bool) (g : BitVec 4) (d : BitVec 6) : Statement (.gthi l g d) := by
  refine codec_of rfl (fun w hw => ?_)
  change w = 0x02D00000 + g.toNat * 0x10000000 + d.toNat * 0x4000 at hw
  have := g.isLt; have := d.isLt
  refine ⟨by omega, (congrArg (opcodeS l w) (show w / 0x100000 % 256 = 0x2D by omega)).trans ?_⟩
  show some (Instr.gthi l (fieldAt w 28 4) (fieldAt w 14 6)) = _
  rw [field_eq w 28 g (by omega), field_eq w 14 d (by omega)]

theorem cmp (l : Bool) (g : BitVec 4) (pd : BitVec 3) (cc : BitVec 3) (a : BitVec 6) (b : BitVec 6) : Statement (.cmp l g pd cc a b) := by
  refine codec_of rfl (fun w hw => ?_)
  change w = 0x03000000 + g.toNat * 0x10000000 + pd.toNat * 0x20000 + cc.toNat * 0x4000 + a.toNat * 0x100 + b.toNat * 0x4 at hw
  have := g.isLt; have := pd.isLt; have := cc.isLt; have := a.isLt; have := b.isLt
  refine ⟨by omega, (congrArg (opcodeS l w) (show w / 0x100000 % 256 = 0x30 by omega)).trans ?_⟩
  show some (Instr.cmp l (fieldAt w 28 4) (fieldAt w 17 3) (fieldAt w 14 3) (fieldAt w 8 6) (fieldAt w 2 6)) = _
  rw [field_eq w 28 g (by omega), field_eq w 17 pd (by omega), field_eq w 14 cc (by omega), field_eq w 8 a (by omega), field_eq w 2 b (by omega)]

theorem cmpi (l : Bool) (g : BitVec 4) (pd : BitVec 3) (cc : BitVec 3) (a : BitVec 6) (imm : BitVec 8) : Statement (.cmpi l g pd cc a imm) := by
  refine codec_of rfl (fun w hw => ?_)
  change w = 0x03100000 + g.toNat * 0x10000000 + pd.toNat * 0x20000 + cc.toNat * 0x4000 + a.toNat * 0x100 + imm.toNat at hw
  have := g.isLt; have := pd.isLt; have := cc.isLt; have := a.isLt; have := imm.isLt
  refine ⟨by omega, (congrArg (opcodeS l w) (show w / 0x100000 % 256 = 0x31 by omega)).trans ?_⟩
  show some (Instr.cmpi l (fieldAt w 28 4) (fieldAt w 17 3) (fieldAt w 14 3) (fieldAt w 8 6) (fieldAt w 0 8)) = _
  rw [field_eq w 28 g (by omega), field_eq w 17 pd (by omega), field_eq w 14 cc (by omega), field_eq w 8 a (by omega), field_eq w 0 imm (by omega)]

theorem sld (l : Bool) (g : BitVec 4) (d : BitVec 6) (a : BitVec 6) (off : BitVec 8) : Statement (.sld l g d a off) := by
  refine codec_of rfl (fun w hw => ?_)
  change w = 0x03800000 + g.toNat * 0x10000000 + d.toNat * 0x4000 + a.toNat * 0x100 + off.toNat at hw
  have := g.isLt; have := d.isLt; have := a.isLt; have := off.isLt
  refine ⟨by omega, (congrArg (opcodeS l w) (show w / 0x100000 % 256 = 0x38 by omega)).trans ?_⟩
  show some (Instr.sld l (fieldAt w 28 4) (fieldAt w 14 6) (fieldAt w 8 6) (fieldAt w 0 8)) = _
  rw [field_eq w 28 g (by omega), field_eq w 14 d (by omega), field_eq w 8 a (by omega), field_eq w 0 off (by omega)]

theorem sst (l : Bool) (g : BitVec 4) (src : BitVec 6) (a : BitVec 6) (off : BitVec 8) : Statement (.sst l g src a off) := by
  refine codec_of rfl (fun w hw => ?_)
  change w = 0x03900000 + g.toNat * 0x10000000 + src.toNat * 0x4000 + a.toNat * 0x100 + off.toNat at hw
  have := g.isLt; have := src.isLt; have := a.isLt; have := off.isLt
  refine ⟨by omega, (congrArg (opcodeS l w) (show w / 0x100000 % 256 = 0x39 by omega)).trans ?_⟩
  show some (Instr.sst l (fieldAt w 28 4) (fieldAt w 14 6) (fieldAt w 8 6) (fieldAt w 0 8)) = _
  rw [field_eq w 28 g (by omega), field_eq w 14 src (by omega), field_eq w 8 a (by omega), field_eq w 0 off (by omega)]

theorem qmap (l : Bool) (g : BitVec 4) (reg : Bool) (a : BitVec 6) : Statement (.qmap l g reg a) := by
  refine codec_of rfl (fun w hw => ?_)
  change w = 0x03C78000 + g.toNat * 0x10000000 + reg.toNat * 0x4000 + a.toNat * 0x100 at hw
  have := g.isLt; have := bool_lt reg; have := a.isLt
  refine ⟨by omega, (congrArg (opcodeS l w) (show w / 0x100000 % 256 = 0x3C by omega)).trans ?_⟩
  show some (Instr.qmap l (fieldAt w 28 4) (bitAt w 14) (fieldAt w 8 6)) = _
  rw [field_eq w 28 g (by omega), bit_eq w 14 reg (by omega), field_eq w 8 a (by omega)]

theorem qunmap (l : Bool) (g : BitVec 4) (reg : Bool) : Statement (.qunmap l g reg) := by
  refine codec_of rfl (fun w hw => ?_)
  change w = 0x03D78000 + g.toNat * 0x10000000 + reg.toNat * 0x4000 at hw
  have := g.isLt; have := bool_lt reg
  refine ⟨by omega, (congrArg (opcodeS l w) (show w / 0x100000 % 256 = 0x3D by omega)).trans ?_⟩
  show some (Instr.qunmap l (fieldAt w 28 4) (bitAt w 14)) = _
  rw [field_eq w 28 g (by omega), bit_eq w 14 reg (by omega)]

theorem br (g : BitVec 4) (disp : BitVec 20) : Statement (.br g disp) := by
  refine codec_of rfl (fun w hw => ?_)
  change w = 0x00100000 + g.toNat * 0x10000000 + disp.toNat at hw
  have := g.isLt; have := disp.isLt
  refine ⟨by omega, (congrArg (opcodeC w) (show w / 0x100000 % 256 = 0x01 by omega)).trans ?_⟩
  show some (Instr.br (fieldAt w 28 4) (fieldAt w 0 20)) = _
  rw [field_eq w 28 g (by omega), field_eq w 0 disp (by omega)]

theorem call (g : BitVec 4) (disp : BitVec 20) : Statement (.call g disp) := by
  refine codec_of rfl (fun w hw => ?_)
  change w = 0x00200000 + g.toNat * 0x10000000 + disp.toNat at hw
  have := g.isLt; have := disp.isLt
  refine ⟨by omega, (congrArg (opcodeC w) (show w / 0x100000 % 256 = 0x02 by omega)).trans ?_⟩
  show some (Instr.call (fieldAt w 28 4) (fieldAt w 0 20)) = _
  rw [field_eq w 28 g (by omega), field_eq w 0 disp (by omega)]

theorem contain (g : BitVec 4) (disp : BitVec 20) : Statement (.contain g disp) := by
  refine codec_of rfl (fun w hw => ?_)
  change w = 0x00300000 + g.toNat * 0x10000000 + disp.toNat at hw
  have := g.isLt; have := disp.isLt
  refine ⟨by omega, (congrArg (opcodeC w) (show w / 0x100000 % 256 = 0x03 by omega)).trans ?_⟩
  show some (Instr.contain (fieldAt w 28 4) (fieldAt w 0 20)) = _
  rw [field_eq w 28 g (by omega), field_eq w 0 disp (by omega)]

theorem jr (g : BitVec 4) (a : BitVec 6) : Statement (.jr g a) := by
  refine codec_of rfl (fun w hw => ?_)
  change w = 0x00400000 + g.toNat * 0x10000000 + a.toNat * 0x4000 at hw
  have := g.isLt; have := a.isLt
  refine ⟨by omega, (congrArg (opcodeC w) (show w / 0x100000 % 256 = 0x04 by omega)).trans ?_⟩
  show some (Instr.jr (fieldAt w 28 4) (fieldAt w 14 6)) = _
  rw [field_eq w 28 g (by omega), field_eq w 14 a (by omega)]

theorem callr (g : BitVec 4) (a : BitVec 6) : Statement (.callr g a) := by
  refine codec_of rfl (fun w hw => ?_)
  change w = 0x00500000 + g.toNat * 0x10000000 + a.toNat * 0x4000 at hw
  have := g.isLt; have := a.isLt
  refine ⟨by omega, (congrArg (opcodeC w) (show w / 0x100000 % 256 = 0x05 by omega)).trans ?_⟩
  show some (Instr.callr (fieldAt w 28 4) (fieldAt w 14 6)) = _
  rw [field_eq w 28 g (by omega), field_eq w 14 a (by omega)]

theorem loop (g : BitVec 4) (a : BitVec 6) (len : BitVec 12) : Statement (.loop g a len) := by
  refine codec_of rfl (fun w hw => ?_)
  change w = 0x00800000 + g.toNat * 0x10000000 + a.toNat * 0x4000 + len.toNat at hw
  have := g.isLt; have := a.isLt; have := len.isLt
  refine ⟨by omega, (congrArg (opcodeC w) (show w / 0x100000 % 256 = 0x08 by omega)).trans ?_⟩
  show some (Instr.loop (fieldAt w 28 4) (fieldAt w 14 6) (fieldAt w 0 12)) = _
  rw [field_eq w 28 g (by omega), field_eq w 14 a (by omega), field_eq w 0 len (by omega)]

theorem loopi (g : BitVec 4) (cnt : BitVec 12) (len : BitVec 8) : Statement (.loopi g cnt len) := by
  refine codec_of rfl (fun w hw => ?_)
  change w = 0x00900000 + g.toNat * 0x10000000 + cnt.toNat * 0x100 + len.toNat at hw
  have := g.isLt; have := cnt.isLt; have := len.isLt
  refine ⟨by omega, (congrArg (opcodeC w) (show w / 0x100000 % 256 = 0x09 by omega)).trans ?_⟩
  show some (Instr.loopi (fieldAt w 28 4) (fieldAt w 8 12) (fieldAt w 0 8)) = _
  rw [field_eq w 28 g (by omega), field_eq w 8 cnt (by omega), field_eq w 0 len (by omega)]

theorem lbrk (g : BitVec 4) : Statement (.lbrk g) := by
  refine codec_of rfl (fun w hw => ?_)
  change w = 0x00A00000 + g.toNat * 0x10000000 at hw
  have := g.isLt
  refine ⟨by omega, (congrArg (opcodeC w) (show w / 0x100000 % 256 = 0x0A by omega)).trans ?_⟩
  show some (Instr.lbrk (fieldAt w 28 4)) = _
  rw [field_eq w 28 g (by omega)]

theorem lstg (g : BitVec 4) (lv : BitVec 3) (pm : BitVec 4) : Statement (.lstg g lv pm) := by
  refine codec_of rfl (fun w hw => ?_)
  change w = 0x00B00000 + g.toNat * 0x10000000 + lv.toNat * 0x20000 + pm.toNat * 0x2000 at hw
  have := g.isLt; have := lv.isLt; have := pm.isLt
  refine ⟨by omega, (congrArg (opcodeC w) (show w / 0x100000 % 256 = 0x0B by omega)).trans ?_⟩
  show some (Instr.lstg (fieldAt w 28 4) (fieldAt w 17 3) (fieldAt w 13 4)) = _
  rw [field_eq w 28 g (by omega), field_eq w 17 lv (by omega), field_eq w 13 pm (by omega)]

theorem pand (g : BitVec 4) (pd : BitVec 3) (pa : BitVec 3) (pb : BitVec 3) (na : Bool) (nb : Bool) : Statement (.pand g pd pa pb na nb) := by
  refine codec_of rfl (fun w hw => ?_)
  change w = 0x01000000 + g.toNat * 0x10000000 + pd.toNat * 0x20000 + pa.toNat * 0x4000 + pb.toNat * 0x800 + na.toNat * 0x400 + nb.toNat * 0x200 at hw
  have := g.isLt; have := pd.isLt; have := pa.isLt; have := pb.isLt; have := bool_lt na; have := bool_lt nb
  refine ⟨by omega, (congrArg (opcodeC w) (show w / 0x100000 % 256 = 0x10 by omega)).trans ?_⟩
  show some (Instr.pand (fieldAt w 28 4) (fieldAt w 17 3) (fieldAt w 14 3) (fieldAt w 11 3) (bitAt w 10) (bitAt w 9)) = _
  rw [field_eq w 28 g (by omega), field_eq w 17 pd (by omega), field_eq w 14 pa (by omega), field_eq w 11 pb (by omega), bit_eq w 10 na (by omega), bit_eq w 9 nb (by omega)]

theorem por (g : BitVec 4) (pd : BitVec 3) (pa : BitVec 3) (pb : BitVec 3) (na : Bool) (nb : Bool) : Statement (.por g pd pa pb na nb) := by
  refine codec_of rfl (fun w hw => ?_)
  change w = 0x01100000 + g.toNat * 0x10000000 + pd.toNat * 0x20000 + pa.toNat * 0x4000 + pb.toNat * 0x800 + na.toNat * 0x400 + nb.toNat * 0x200 at hw
  have := g.isLt; have := pd.isLt; have := pa.isLt; have := pb.isLt; have := bool_lt na; have := bool_lt nb
  refine ⟨by omega, (congrArg (opcodeC w) (show w / 0x100000 % 256 = 0x11 by omega)).trans ?_⟩
  show some (Instr.por (fieldAt w 28 4) (fieldAt w 17 3) (fieldAt w 14 3) (fieldAt w 11 3) (bitAt w 10) (bitAt w 9)) = _
  rw [field_eq w 28 g (by omega), field_eq w 17 pd (by omega), field_eq w 14 pa (by omega), field_eq w 11 pb (by omega), bit_eq w 10 na (by omega), bit_eq w 9 nb (by omega)]

theorem pxor (g : BitVec 4) (pd : BitVec 3) (pa : BitVec 3) (pb : BitVec 3) (na : Bool) (nb : Bool) : Statement (.pxor g pd pa pb na nb) := by
  refine codec_of rfl (fun w hw => ?_)
  change w = 0x01200000 + g.toNat * 0x10000000 + pd.toNat * 0x20000 + pa.toNat * 0x4000 + pb.toNat * 0x800 + na.toNat * 0x400 + nb.toNat * 0x200 at hw
  have := g.isLt; have := pd.isLt; have := pa.isLt; have := pb.isLt; have := bool_lt na; have := bool_lt nb
  refine ⟨by omega, (congrArg (opcodeC w) (show w / 0x100000 % 256 = 0x12 by omega)).trans ?_⟩
  show some (Instr.pxor (fieldAt w 28 4) (fieldAt w 17 3) (fieldAt w 14 3) (fieldAt w 11 3) (bitAt w 10) (bitAt w 9)) = _
  rw [field_eq w 28 g (by omega), field_eq w 17 pd (by omega), field_eq w 14 pa (by omega), field_eq w 11 pb (by omega), bit_eq w 10 na (by omega), bit_eq w 9 nb (by omega)]

theorem bktj (g : BitVec 4) (a : BitVec 6) (tbl : BitVec 4) : Statement (.bktj g a tbl) := by
  refine codec_of rfl (fun w hw => ?_)
  change w = 0x01800000 + g.toNat * 0x10000000 + a.toNat * 0x4000 + tbl.toNat at hw
  have := g.isLt; have := a.isLt; have := tbl.isLt
  refine ⟨by omega, (congrArg (opcodeC w) (show w / 0x100000 % 256 = 0x18 by omega)).trans ?_⟩
  show some (Instr.bktj (fieldAt w 28 4) (fieldAt w 14 6) (fieldAt w 0 4)) = _
  rw [field_eq w 28 g (by omega), field_eq w 14 a (by omega), field_eq w 0 tbl (by omega)]

theorem waitgt (g : BitVec 4) (a : BitVec 6) (b : BitVec 6) : Statement (.waitgt g a b) := by
  refine codec_of rfl (fun w hw => ?_)
  change w = 0x01900000 + g.toNat * 0x10000000 + a.toNat * 0x4000 + b.toNat * 0x100 at hw
  have := g.isLt; have := a.isLt; have := b.isLt
  refine ⟨by omega, (congrArg (opcodeC w) (show w / 0x100000 % 256 = 0x19 by omega)).trans ?_⟩
  show some (Instr.waitgt (fieldAt w 28 4) (fieldAt w 14 6) (fieldAt w 8 6)) = _
  rw [field_eq w 28 g (by omega), field_eq w 14 a (by omega), field_eq w 8 b (by omega)]

theorem setest (g : BitVec 4) (a : BitVec 6) (b : BitVec 6) : Statement (.setest g a b) := by
  refine codec_of rfl (fun w hw => ?_)
  change w = 0x01A00000 + g.toNat * 0x10000000 + a.toNat * 0x4000 + b.toNat * 0x100 at hw
  have := g.isLt; have := a.isLt; have := b.isLt
  refine ⟨by omega, (congrArg (opcodeC w) (show w / 0x100000 % 256 = 0x1A by omega)).trans ?_⟩
  show some (Instr.setest (fieldAt w 28 4) (fieldAt w 14 6) (fieldAt w 8 6)) = _
  rw [field_eq w 28 g (by omega), field_eq w 14 a (by omega), field_eq w 8 b (by omega)]

theorem setts (g : BitVec 4) (a : BitVec 6) (b : BitVec 6) : Statement (.setts g a b) := by
  refine codec_of rfl (fun w hw => ?_)
  change w = 0x01B00000 + g.toNat * 0x10000000 + a.toNat * 0x4000 + b.toNat * 0x100 at hw
  have := g.isLt; have := a.isLt; have := b.isLt
  refine ⟨by omega, (congrArg (opcodeC w) (show w / 0x100000 % 256 = 0x1B by omega)).trans ?_⟩
  show some (Instr.setts (fieldAt w 28 4) (fieldAt w 14 6) (fieldAt w 8 6)) = _
  rw [field_eq w 28 g (by omega), field_eq w 14 a (by omega), field_eq w 8 b (by omega)]

theorem setrm (g : BitVec 4) (rm : BitVec 2) : Statement (.setrm g rm) := by
  refine codec_of rfl (fun w hw => ?_)
  change w = 0x01C00000 + g.toNat * 0x10000000 + rm.toNat at hw
  have := g.isLt; have := rm.isLt
  refine ⟨by omega, (congrArg (opcodeC w) (show w / 0x100000 % 256 = 0x1C by omega)).trans ?_⟩
  show some (Instr.setrm (fieldAt w 28 4) (fieldAt w 0 2)) = _
  rw [field_eq w 28 g (by omega), field_eq w 0 rm (by omega)]

theorem launch (g : BitVec 4) (a : BitVec 6) (timed : Bool) : Statement (.launch g a timed) := by
  refine codec_of rfl (fun w hw => ?_)
  change w = 0x01D00000 + g.toNat * 0x10000000 + a.toNat * 0x4000 + timed.toNat at hw
  have := g.isLt; have := a.isLt; have := bool_lt timed
  refine ⟨by omega, (congrArg (opcodeC w) (show w / 0x100000 % 256 = 0x1D by omega)).trans ?_⟩
  show some (Instr.launch (fieldAt w 28 4) (fieldAt w 14 6) (bitAt w 0)) = _
  rw [field_eq w 28 g (by omega), field_eq w 14 a (by omega), bit_eq w 0 timed (by omega)]

theorem bar (g : BitVec 4) (sc : BitVec 3) (id : BitVec 3) (rl : Bool) (aq : Bool) : Statement (.bar g sc id rl aq) := by
  refine codec_of rfl (fun w hw => ?_)
  change w = 0x02000000 + g.toNat * 0x10000000 + sc.toNat * 0x20000 + id.toNat * 0x4000 + rl.toNat * 0x2000 + aq.toNat * 0x1000 at hw
  have := g.isLt; have := sc.isLt; have := id.isLt; have := bool_lt rl; have := bool_lt aq
  refine ⟨by omega, (congrArg (opcodeC w) (show w / 0x100000 % 256 = 0x20 by omega)).trans ?_⟩
  show some (Instr.bar (fieldAt w 28 4) (fieldAt w 17 3) (fieldAt w 14 3) (bitAt w 13) (bitAt w 12)) = _
  rw [field_eq w 28 g (by omega), field_eq w 17 sc (by omega), field_eq w 14 id (by omega), bit_eq w 13 rl (by omega), bit_eq w 12 aq (by omega)]

theorem bararv (g : BitVec 4) (sc : BitVec 3) (id : BitVec 3) (rl : Bool) : Statement (.bararv g sc id rl) := by
  refine codec_of rfl (fun w hw => ?_)
  change w = 0x02100000 + g.toNat * 0x10000000 + sc.toNat * 0x20000 + id.toNat * 0x4000 + rl.toNat * 0x2000 at hw
  have := g.isLt; have := sc.isLt; have := id.isLt; have := bool_lt rl
  refine ⟨by omega, (congrArg (opcodeC w) (show w / 0x100000 % 256 = 0x21 by omega)).trans ?_⟩
  show some (Instr.bararv (fieldAt w 28 4) (fieldAt w 17 3) (fieldAt w 14 3) (bitAt w 13)) = _
  rw [field_eq w 28 g (by omega), field_eq w 17 sc (by omega), field_eq w 14 id (by omega), bit_eq w 13 rl (by omega)]

theorem barwt (g : BitVec 4) (sc : BitVec 3) (id : BitVec 3) (aq : Bool) : Statement (.barwt g sc id aq) := by
  refine codec_of rfl (fun w hw => ?_)
  change w = 0x02200000 + g.toNat * 0x10000000 + sc.toNat * 0x20000 + id.toNat * 0x4000 + aq.toNat * 0x1000 at hw
  have := g.isLt; have := sc.isLt; have := id.isLt; have := bool_lt aq
  refine ⟨by omega, (congrArg (opcodeC w) (show w / 0x100000 % 256 = 0x22 by omega)).trans ?_⟩
  show some (Instr.barwt (fieldAt w 28 4) (fieldAt w 17 3) (fieldAt w 14 3) (bitAt w 12)) = _
  rw [field_eq w 28 g (by omega), field_eq w 17 sc (by omega), field_eq w 14 id (by omega), bit_eq w 12 aq (by omega)]

theorem fence (g : BitVec 4) (sc : BitVec 3) (mask : BitVec 16) : Statement (.fence g sc mask) := by
  refine codec_of rfl (fun w hw => ?_)
  change w = 0x02400000 + g.toNat * 0x10000000 + sc.toNat * 0x20000 + mask.toNat at hw
  have := g.isLt; have := sc.isLt; have := mask.isLt
  refine ⟨by omega, (congrArg (opcodeC w) (show w / 0x100000 % 256 = 0x24 by omega)).trans ?_⟩
  show some (Instr.fence (fieldAt w 28 4) (fieldAt w 17 3) (fieldAt w 0 16)) = _
  rw [field_eq w 28 g (by omega), field_eq w 17 sc (by omega), field_eq w 0 mask (by omega)]

theorem trap (g : BitVec 4) (code : BitVec 8) : Statement (.trap g code) := by
  refine codec_of rfl (fun w hw => ?_)
  change w = 0x02800000 + g.toNat * 0x10000000 + code.toNat at hw
  have := g.isLt; have := code.isLt
  refine ⟨by omega, (congrArg (opcodeC w) (show w / 0x100000 % 256 = 0x28 by omega)).trans ?_⟩
  show some (Instr.trap (fieldAt w 28 4) (fieldAt w 0 8)) = _
  rw [field_eq w 28 g (by omega), field_eq w 0 code (by omega)]

theorem eret (g : BitVec 4) : Statement (.eret g) := by
  refine codec_of rfl (fun w hw => ?_)
  change w = 0x02900000 + g.toNat * 0x10000000 at hw
  have := g.isLt
  refine ⟨by omega, (congrArg (opcodeC w) (show w / 0x100000 % 256 = 0x29 by omega)).trans ?_⟩
  show some (Instr.eret (fieldAt w 28 4)) = _
  rw [field_eq w 28 g (by omega)]

theorem exit (g : BitVec 4) : Statement (.exit g) := by
  refine codec_of rfl (fun w hw => ?_)
  change w = 0x02A00000 + g.toNat * 0x10000000 at hw
  have := g.isLt
  refine ⟨by omega, (congrArg (opcodeC w) (show w / 0x100000 % 256 = 0x2A by omega)).trans ?_⟩
  show some (Instr.exit (fieldAt w 28 4)) = _
  rw [field_eq w 28 g (by omega)]

theorem containend (g : BitVec 4) : Statement (.containend g) := by
  refine codec_of rfl (fun w hw => ?_)
  change w = 0x02B00000 + g.toNat * 0x10000000 at hw
  have := g.isLt
  refine ⟨by omega, (congrArg (opcodeC w) (show w / 0x100000 % 256 = 0x2B by omega)).trans ?_⟩
  show some (Instr.containend (fieldAt w 28 4)) = _
  rw [field_eq w 28 g (by omega)]

theorem vadd (l : Bool) (g : BitVec 4) (fmt : BitVec 4) (td : BitVec 4) (ta : BitVec 4) (tb : BitVec 4) (rs : BitVec 4) : Statement (.vadd l g fmt td ta tb rs) := by
  refine codec_of rfl (fun w hw => ?_)
  change w = 0x00100000 + g.toNat * 0x10000000 + fmt.toNat * 0x10000 + td.toNat * 0x1000 + ta.toNat * 0x100 + tb.toNat * 0x10 + rs.toNat at hw
  have := g.isLt; have := fmt.isLt; have := td.isLt; have := ta.isLt; have := tb.isLt; have := rs.isLt
  refine ⟨by omega, (congrArg (opcodeV l w) (show w / 0x100000 % 256 = 0x01 by omega)).trans ?_⟩
  show some (Instr.vadd l (fieldAt w 28 4) (fieldAt w 16 4) (fieldAt w 12 4) (fieldAt w 8 4) (fieldAt w 4 4) (fieldAt w 0 4)) = _
  rw [field_eq w 28 g (by omega), field_eq w 16 fmt (by omega), field_eq w 12 td (by omega), field_eq w 8 ta (by omega), field_eq w 4 tb (by omega), field_eq w 0 rs (by omega)]

theorem vsub (l : Bool) (g : BitVec 4) (fmt : BitVec 4) (td : BitVec 4) (ta : BitVec 4) (tb : BitVec 4) (rs : BitVec 4) : Statement (.vsub l g fmt td ta tb rs) := by
  refine codec_of rfl (fun w hw => ?_)
  change w = 0x00200000 + g.toNat * 0x10000000 + fmt.toNat * 0x10000 + td.toNat * 0x1000 + ta.toNat * 0x100 + tb.toNat * 0x10 + rs.toNat at hw
  have := g.isLt; have := fmt.isLt; have := td.isLt; have := ta.isLt; have := tb.isLt; have := rs.isLt
  refine ⟨by omega, (congrArg (opcodeV l w) (show w / 0x100000 % 256 = 0x02 by omega)).trans ?_⟩
  show some (Instr.vsub l (fieldAt w 28 4) (fieldAt w 16 4) (fieldAt w 12 4) (fieldAt w 8 4) (fieldAt w 4 4) (fieldAt w 0 4)) = _
  rw [field_eq w 28 g (by omega), field_eq w 16 fmt (by omega), field_eq w 12 td (by omega), field_eq w 8 ta (by omega), field_eq w 4 tb (by omega), field_eq w 0 rs (by omega)]

theorem vmul (l : Bool) (g : BitVec 4) (fmt : BitVec 4) (td : BitVec 4) (ta : BitVec 4) (tb : BitVec 4) (rs : BitVec 4) : Statement (.vmul l g fmt td ta tb rs) := by
  refine codec_of rfl (fun w hw => ?_)
  change w = 0x00300000 + g.toNat * 0x10000000 + fmt.toNat * 0x10000 + td.toNat * 0x1000 + ta.toNat * 0x100 + tb.toNat * 0x10 + rs.toNat at hw
  have := g.isLt; have := fmt.isLt; have := td.isLt; have := ta.isLt; have := tb.isLt; have := rs.isLt
  refine ⟨by omega, (congrArg (opcodeV l w) (show w / 0x100000 % 256 = 0x03 by omega)).trans ?_⟩
  show some (Instr.vmul l (fieldAt w 28 4) (fieldAt w 16 4) (fieldAt w 12 4) (fieldAt w 8 4) (fieldAt w 4 4) (fieldAt w 0 4)) = _
  rw [field_eq w 28 g (by omega), field_eq w 16 fmt (by omega), field_eq w 12 td (by omega), field_eq w 8 ta (by omega), field_eq w 4 tb (by omega), field_eq w 0 rs (by omega)]

theorem vfma (l : Bool) (g : BitVec 4) (fmt : BitVec 4) (td : BitVec 4) (ta : BitVec 4) (tb : BitVec 4) (rs : BitVec 4) : Statement (.vfma l g fmt td ta tb rs) := by
  refine codec_of rfl (fun w hw => ?_)
  change w = 0x00400000 + g.toNat * 0x10000000 + fmt.toNat * 0x10000 + td.toNat * 0x1000 + ta.toNat * 0x100 + tb.toNat * 0x10 + rs.toNat at hw
  have := g.isLt; have := fmt.isLt; have := td.isLt; have := ta.isLt; have := tb.isLt; have := rs.isLt
  refine ⟨by omega, (congrArg (opcodeV l w) (show w / 0x100000 % 256 = 0x04 by omega)).trans ?_⟩
  show some (Instr.vfma l (fieldAt w 28 4) (fieldAt w 16 4) (fieldAt w 12 4) (fieldAt w 8 4) (fieldAt w 4 4) (fieldAt w 0 4)) = _
  rw [field_eq w 28 g (by omega), field_eq w 16 fmt (by omega), field_eq w 12 td (by omega), field_eq w 8 ta (by omega), field_eq w 4 tb (by omega), field_eq w 0 rs (by omega)]

theorem vmin (l : Bool) (g : BitVec 4) (fmt : BitVec 4) (td : BitVec 4) (ta : BitVec 4) (tb : BitVec 4) (rs : BitVec 4) : Statement (.vmin l g fmt td ta tb rs) := by
  refine codec_of rfl (fun w hw => ?_)
  change w = 0x00500000 + g.toNat * 0x10000000 + fmt.toNat * 0x10000 + td.toNat * 0x1000 + ta.toNat * 0x100 + tb.toNat * 0x10 + rs.toNat at hw
  have := g.isLt; have := fmt.isLt; have := td.isLt; have := ta.isLt; have := tb.isLt; have := rs.isLt
  refine ⟨by omega, (congrArg (opcodeV l w) (show w / 0x100000 % 256 = 0x05 by omega)).trans ?_⟩
  show some (Instr.vmin l (fieldAt w 28 4) (fieldAt w 16 4) (fieldAt w 12 4) (fieldAt w 8 4) (fieldAt w 4 4) (fieldAt w 0 4)) = _
  rw [field_eq w 28 g (by omega), field_eq w 16 fmt (by omega), field_eq w 12 td (by omega), field_eq w 8 ta (by omega), field_eq w 4 tb (by omega), field_eq w 0 rs (by omega)]

theorem vmax (l : Bool) (g : BitVec 4) (fmt : BitVec 4) (td : BitVec 4) (ta : BitVec 4) (tb : BitVec 4) (rs : BitVec 4) : Statement (.vmax l g fmt td ta tb rs) := by
  refine codec_of rfl (fun w hw => ?_)
  change w = 0x00600000 + g.toNat * 0x10000000 + fmt.toNat * 0x10000 + td.toNat * 0x1000 + ta.toNat * 0x100 + tb.toNat * 0x10 + rs.toNat at hw
  have := g.isLt; have := fmt.isLt; have := td.isLt; have := ta.isLt; have := tb.isLt; have := rs.isLt
  refine ⟨by omega, (congrArg (opcodeV l w) (show w / 0x100000 % 256 = 0x06 by omega)).trans ?_⟩
  show some (Instr.vmax l (fieldAt w 28 4) (fieldAt w 16 4) (fieldAt w 12 4) (fieldAt w 8 4) (fieldAt w 4 4) (fieldAt w 0 4)) = _
  rw [field_eq w 28 g (by omega), field_eq w 16 fmt (by omega), field_eq w 12 td (by omega), field_eq w 8 ta (by omega), field_eq w 4 tb (by omega), field_eq w 0 rs (by omega)]

theorem vabs (l : Bool) (g : BitVec 4) (fmt : BitVec 4) (td : BitVec 4) (ta : BitVec 4) (rs : BitVec 4) : Statement (.vabs l g fmt td ta rs) := by
  refine codec_of rfl (fun w hw => ?_)
  change w = 0x00700000 + g.toNat * 0x10000000 + fmt.toNat * 0x10000 + td.toNat * 0x1000 + ta.toNat * 0x100 + rs.toNat at hw
  have := g.isLt; have := fmt.isLt; have := td.isLt; have := ta.isLt; have := rs.isLt
  refine ⟨by omega, (congrArg (opcodeV l w) (show w / 0x100000 % 256 = 0x07 by omega)).trans ?_⟩
  show some (Instr.vabs l (fieldAt w 28 4) (fieldAt w 16 4) (fieldAt w 12 4) (fieldAt w 8 4) (fieldAt w 0 4)) = _
  rw [field_eq w 28 g (by omega), field_eq w 16 fmt (by omega), field_eq w 12 td (by omega), field_eq w 8 ta (by omega), field_eq w 0 rs (by omega)]

theorem vneg (l : Bool) (g : BitVec 4) (fmt : BitVec 4) (td : BitVec 4) (ta : BitVec 4) (rs : BitVec 4) : Statement (.vneg l g fmt td ta rs) := by
  refine codec_of rfl (fun w hw => ?_)
  change w = 0x00800000 + g.toNat * 0x10000000 + fmt.toNat * 0x10000 + td.toNat * 0x1000 + ta.toNat * 0x100 + rs.toNat at hw
  have := g.isLt; have := fmt.isLt; have := td.isLt; have := ta.isLt; have := rs.isLt
  refine ⟨by omega, (congrArg (opcodeV l w) (show w / 0x100000 % 256 = 0x08 by omega)).trans ?_⟩
  show some (Instr.vneg l (fieldAt w 28 4) (fieldAt w 16 4) (fieldAt w 12 4) (fieldAt w 8 4) (fieldAt w 0 4)) = _
  rw [field_eq w 28 g (by omega), field_eq w 16 fmt (by omega), field_eq w 12 td (by omega), field_eq w 8 ta (by omega), field_eq w 0 rs (by omega)]

theorem vmov (l : Bool) (g : BitVec 4) (fmt : BitVec 4) (td : BitVec 4) (ta : BitVec 4) (rs : BitVec 4) : Statement (.vmov l g fmt td ta rs) := by
  refine codec_of rfl (fun w hw => ?_)
  change w = 0x00900000 + g.toNat * 0x10000000 + fmt.toNat * 0x10000 + td.toNat * 0x1000 + ta.toNat * 0x100 + rs.toNat at hw
  have := g.isLt; have := fmt.isLt; have := td.isLt; have := ta.isLt; have := rs.isLt
  refine ⟨by omega, (congrArg (opcodeV l w) (show w / 0x100000 % 256 = 0x09 by omega)).trans ?_⟩
  show some (Instr.vmov l (fieldAt w 28 4) (fieldAt w 16 4) (fieldAt w 12 4) (fieldAt w 8 4) (fieldAt w 0 4)) = _
  rw [field_eq w 28 g (by omega), field_eq w 16 fmt (by omega), field_eq w 12 td (by omega), field_eq w 8 ta (by omega), field_eq w 0 rs (by omega)]

theorem vand (l : Bool) (g : BitVec 4) (fmt : BitVec 4) (td : BitVec 4) (ta : BitVec 4) (tb : BitVec 4) (rs : BitVec 4) : Statement (.vand l g fmt td ta tb rs) := by
  refine codec_of rfl (fun w hw => ?_)
  change w = 0x00C00000 + g.toNat * 0x10000000 + fmt.toNat * 0x10000 + td.toNat * 0x1000 + ta.toNat * 0x100 + tb.toNat * 0x10 + rs.toNat at hw
  have := g.isLt; have := fmt.isLt; have := td.isLt; have := ta.isLt; have := tb.isLt; have := rs.isLt
  refine ⟨by omega, (congrArg (opcodeV l w) (show w / 0x100000 % 256 = 0x0C by omega)).trans ?_⟩
  show some (Instr.vand l (fieldAt w 28 4) (fieldAt w 16 4) (fieldAt w 12 4) (fieldAt w 8 4) (fieldAt w 4 4) (fieldAt w 0 4)) = _
  rw [field_eq w 28 g (by omega), field_eq w 16 fmt (by omega), field_eq w 12 td (by omega), field_eq w 8 ta (by omega), field_eq w 4 tb (by omega), field_eq w 0 rs (by omega)]

theorem vor (l : Bool) (g : BitVec 4) (fmt : BitVec 4) (td : BitVec 4) (ta : BitVec 4) (tb : BitVec 4) (rs : BitVec 4) : Statement (.vor l g fmt td ta tb rs) := by
  refine codec_of rfl (fun w hw => ?_)
  change w = 0x00D00000 + g.toNat * 0x10000000 + fmt.toNat * 0x10000 + td.toNat * 0x1000 + ta.toNat * 0x100 + tb.toNat * 0x10 + rs.toNat at hw
  have := g.isLt; have := fmt.isLt; have := td.isLt; have := ta.isLt; have := tb.isLt; have := rs.isLt
  refine ⟨by omega, (congrArg (opcodeV l w) (show w / 0x100000 % 256 = 0x0D by omega)).trans ?_⟩
  show some (Instr.vor l (fieldAt w 28 4) (fieldAt w 16 4) (fieldAt w 12 4) (fieldAt w 8 4) (fieldAt w 4 4) (fieldAt w 0 4)) = _
  rw [field_eq w 28 g (by omega), field_eq w 16 fmt (by omega), field_eq w 12 td (by omega), field_eq w 8 ta (by omega), field_eq w 4 tb (by omega), field_eq w 0 rs (by omega)]

theorem vxor (l : Bool) (g : BitVec 4) (fmt : BitVec 4) (td : BitVec 4) (ta : BitVec 4) (tb : BitVec 4) (rs : BitVec 4) : Statement (.vxor l g fmt td ta tb rs) := by
  refine codec_of rfl (fun w hw => ?_)
  change w = 0x00E00000 + g.toNat * 0x10000000 + fmt.toNat * 0x10000 + td.toNat * 0x1000 + ta.toNat * 0x100 + tb.toNat * 0x10 + rs.toNat at hw
  have := g.isLt; have := fmt.isLt; have := td.isLt; have := ta.isLt; have := tb.isLt; have := rs.isLt
  refine ⟨by omega, (congrArg (opcodeV l w) (show w / 0x100000 % 256 = 0x0E by omega)).trans ?_⟩
  show some (Instr.vxor l (fieldAt w 28 4) (fieldAt w 16 4) (fieldAt w 12 4) (fieldAt w 8 4) (fieldAt w 4 4) (fieldAt w 0 4)) = _
  rw [field_eq w 28 g (by omega), field_eq w 16 fmt (by omega), field_eq w 12 td (by omega), field_eq w 8 ta (by omega), field_eq w 4 tb (by omega), field_eq w 0 rs (by omega)]

theorem vshl (l : Bool) (g : BitVec 4) (fmt : BitVec 4) (td : BitVec 4) (ta : BitVec 4) (tb : BitVec 4) (rs : BitVec 4) : Statement (.vshl l g fmt td ta tb rs) := by
  refine codec_of rfl (fun w hw => ?_)
  change w = 0x00F00000 + g.toNat * 0x10000000 + fmt.toNat * 0x10000 + td.toNat * 0x1000 + ta.toNat * 0x100 + tb.toNat * 0x10 + rs.toNat at hw
  have := g.isLt; have := fmt.isLt; have := td.isLt; have := ta.isLt; have := tb.isLt; have := rs.isLt
  refine ⟨by omega, (congrArg (opcodeV l w) (show w / 0x100000 % 256 = 0x0F by omega)).trans ?_⟩
  show some (Instr.vshl l (fieldAt w 28 4) (fieldAt w 16 4) (fieldAt w 12 4) (fieldAt w 8 4) (fieldAt w 4 4) (fieldAt w 0 4)) = _
  rw [field_eq w 28 g (by omega), field_eq w 16 fmt (by omega), field_eq w 12 td (by omega), field_eq w 8 ta (by omega), field_eq w 4 tb (by omega), field_eq w 0 rs (by omega)]

theorem vshr (l : Bool) (g : BitVec 4) (fmt : BitVec 4) (td : BitVec 4) (ta : BitVec 4) (tb : BitVec 4) (rs : BitVec 4) : Statement (.vshr l g fmt td ta tb rs) := by
  refine codec_of rfl (fun w hw => ?_)
  change w = 0x01000000 + g.toNat * 0x10000000 + fmt.toNat * 0x10000 + td.toNat * 0x1000 + ta.toNat * 0x100 + tb.toNat * 0x10 + rs.toNat at hw
  have := g.isLt; have := fmt.isLt; have := td.isLt; have := ta.isLt; have := tb.isLt; have := rs.isLt
  refine ⟨by omega, (congrArg (opcodeV l w) (show w / 0x100000 % 256 = 0x10 by omega)).trans ?_⟩
  show some (Instr.vshr l (fieldAt w 28 4) (fieldAt w 16 4) (fieldAt w 12 4) (fieldAt w 8 4) (fieldAt w 4 4) (fieldAt w 0 4)) = _
  rw [field_eq w 28 g (by omega), field_eq w 16 fmt (by omega), field_eq w 12 td (by omega), field_eq w 8 ta (by omega), field_eq w 4 tb (by omega), field_eq w 0 rs (by omega)]

theorem vsra (l : Bool) (g : BitVec 4) (fmt : BitVec 4) (td : BitVec 4) (ta : BitVec 4) (tb : BitVec 4) (rs : BitVec 4) : Statement (.vsra l g fmt td ta tb rs) := by
  refine codec_of rfl (fun w hw => ?_)
  change w = 0x01100000 + g.toNat * 0x10000000 + fmt.toNat * 0x10000 + td.toNat * 0x1000 + ta.toNat * 0x100 + tb.toNat * 0x10 + rs.toNat at hw
  have := g.isLt; have := fmt.isLt; have := td.isLt; have := ta.isLt; have := tb.isLt; have := rs.isLt
  refine ⟨by omega, (congrArg (opcodeV l w) (show w / 0x100000 % 256 = 0x11 by omega)).trans ?_⟩
  show some (Instr.vsra l (fieldAt w 28 4) (fieldAt w 16 4) (fieldAt w 12 4) (fieldAt w 8 4) (fieldAt w 4 4) (fieldAt w 0 4)) = _
  rw [field_eq w 28 g (by omega), field_eq w 16 fmt (by omega), field_eq w 12 td (by omega), field_eq w 8 ta (by omega), field_eq w 4 tb (by omega), field_eq w 0 rs (by omega)]

theorem vcmpeq (l : Bool) (g : BitVec 4) (fmt : BitVec 4) (td : BitVec 4) (ta : BitVec 4) (tb : BitVec 4) (rs : BitVec 4) : Statement (.vcmpeq l g fmt td ta tb rs) := by
  refine codec_of rfl (fun w hw => ?_)
  change w = 0x01400000 + g.toNat * 0x10000000 + fmt.toNat * 0x10000 + td.toNat * 0x1000 + ta.toNat * 0x100 + tb.toNat * 0x10 + rs.toNat at hw
  have := g.isLt; have := fmt.isLt; have := td.isLt; have := ta.isLt; have := tb.isLt; have := rs.isLt
  refine ⟨by omega, (congrArg (opcodeV l w) (show w / 0x100000 % 256 = 0x14 by omega)).trans ?_⟩
  show some (Instr.vcmpeq l (fieldAt w 28 4) (fieldAt w 16 4) (fieldAt w 12 4) (fieldAt w 8 4) (fieldAt w 4 4) (fieldAt w 0 4)) = _
  rw [field_eq w 28 g (by omega), field_eq w 16 fmt (by omega), field_eq w 12 td (by omega), field_eq w 8 ta (by omega), field_eq w 4 tb (by omega), field_eq w 0 rs (by omega)]

theorem vcmplt (l : Bool) (g : BitVec 4) (fmt : BitVec 4) (td : BitVec 4) (ta : BitVec 4) (tb : BitVec 4) (rs : BitVec 4) : Statement (.vcmplt l g fmt td ta tb rs) := by
  refine codec_of rfl (fun w hw => ?_)
  change w = 0x01500000 + g.toNat * 0x10000000 + fmt.toNat * 0x10000 + td.toNat * 0x1000 + ta.toNat * 0x100 + tb.toNat * 0x10 + rs.toNat at hw
  have := g.isLt; have := fmt.isLt; have := td.isLt; have := ta.isLt; have := tb.isLt; have := rs.isLt
  refine ⟨by omega, (congrArg (opcodeV l w) (show w / 0x100000 % 256 = 0x15 by omega)).trans ?_⟩
  show some (Instr.vcmplt l (fieldAt w 28 4) (fieldAt w 16 4) (fieldAt w 12 4) (fieldAt w 8 4) (fieldAt w 4 4) (fieldAt w 0 4)) = _
  rw [field_eq w 28 g (by omega), field_eq w 16 fmt (by omega), field_eq w 12 td (by omega), field_eq w 8 ta (by omega), field_eq w 4 tb (by omega), field_eq w 0 rs (by omega)]

theorem vcmple (l : Bool) (g : BitVec 4) (fmt : BitVec 4) (td : BitVec 4) (ta : BitVec 4) (tb : BitVec 4) (rs : BitVec 4) : Statement (.vcmple l g fmt td ta tb rs) := by
  refine codec_of rfl (fun w hw => ?_)
  change w = 0x01600000 + g.toNat * 0x10000000 + fmt.toNat * 0x10000 + td.toNat * 0x1000 + ta.toNat * 0x100 + tb.toNat * 0x10 + rs.toNat at hw
  have := g.isLt; have := fmt.isLt; have := td.isLt; have := ta.isLt; have := tb.isLt; have := rs.isLt
  refine ⟨by omega, (congrArg (opcodeV l w) (show w / 0x100000 % 256 = 0x16 by omega)).trans ?_⟩
  show some (Instr.vcmple l (fieldAt w 28 4) (fieldAt w 16 4) (fieldAt w 12 4) (fieldAt w 8 4) (fieldAt w 4 4) (fieldAt w 0 4)) = _
  rw [field_eq w 28 g (by omega), field_eq w 16 fmt (by omega), field_eq w 12 td (by omega), field_eq w 8 ta (by omega), field_eq w 4 tb (by omega), field_eq w 0 rs (by omega)]

theorem vsel (l : Bool) (g : BitVec 4) (fmt : BitVec 4) (td : BitVec 4) (ta : BitVec 4) (tb : BitVec 4) (rs : BitVec 4) : Statement (.vsel l g fmt td ta tb rs) := by
  refine codec_of rfl (fun w hw => ?_)
  change w = 0x01700000 + g.toNat * 0x10000000 + fmt.toNat * 0x10000 + td.toNat * 0x1000 + ta.toNat * 0x100 + tb.toNat * 0x10 + rs.toNat at hw
  have := g.isLt; have := fmt.isLt; have := td.isLt; have := ta.isLt; have := tb.isLt; have := rs.isLt
  refine ⟨by omega, (congrArg (opcodeV l w) (show w / 0x100000 % 256 = 0x17 by omega)).trans ?_⟩
  show some (Instr.vsel l (fieldAt w 28 4) (fieldAt w 16 4) (fieldAt w 12 4) (fieldAt w 8 4) (fieldAt w 4 4) (fieldAt w 0 4)) = _
  rw [field_eq w 28 g (by omega), field_eq w 16 fmt (by omega), field_eq w 12 td (by omega), field_eq w 8 ta (by omega), field_eq w 4 tb (by omega), field_eq w 0 rs (by omega)]

theorem vcvt (l : Bool) (g : BitVec 4) (fmt : BitVec 4) (td : BitVec 4) (ta : BitVec 4) (fsrc : BitVec 4) (rs : BitVec 4) : Statement (.vcvt l g fmt td ta fsrc rs) := by
  refine codec_of rfl (fun w hw => ?_)
  change w = 0x01800000 + g.toNat * 0x10000000 + fmt.toNat * 0x10000 + td.toNat * 0x1000 + ta.toNat * 0x100 + fsrc.toNat * 0x10 + rs.toNat at hw
  have := g.isLt; have := fmt.isLt; have := td.isLt; have := ta.isLt; have := fsrc.isLt; have := rs.isLt
  refine ⟨by omega, (congrArg (opcodeV l w) (show w / 0x100000 % 256 = 0x18 by omega)).trans ?_⟩
  show some (Instr.vcvt l (fieldAt w 28 4) (fieldAt w 16 4) (fieldAt w 12 4) (fieldAt w 8 4) (fieldAt w 4 4) (fieldAt w 0 4)) = _
  rw [field_eq w 28 g (by omega), field_eq w 16 fmt (by omega), field_eq w 12 td (by omega), field_eq w 8 ta (by omega), field_eq w 4 fsrc (by omega), field_eq w 0 rs (by omega)]

theorem vscl (l : Bool) (g : BitVec 4) (fmt : BitVec 4) (td : BitVec 4) (ta : BitVec 4) (q : BitVec 3) (rs : BitVec 4) : Statement (.vscl l g fmt td ta q rs) := by
  refine codec_of rfl (fun w hw => ?_)
  change w = 0x01900000 + g.toNat * 0x10000000 + fmt.toNat * 0x10000 + td.toNat * 0x1000 + ta.toNat * 0x100 + q.toNat * 0x10 + rs.toNat at hw
  have := g.isLt; have := fmt.isLt; have := td.isLt; have := ta.isLt; have := q.isLt; have := rs.isLt
  refine ⟨by omega, (congrArg (opcodeV l w) (show w / 0x100000 % 256 = 0x19 by omega)).trans ?_⟩
  show some (Instr.vscl l (fieldAt w 28 4) (fieldAt w 16 4) (fieldAt w 12 4) (fieldAt w 8 4) (fieldAt w 4 3) (fieldAt w 0 4)) = _
  rw [field_eq w 28 g (by omega), field_eq w 16 fmt (by omega), field_eq w 12 td (by omega), field_eq w 8 ta (by omega), field_eq w 4 q (by omega), field_eq w 0 rs (by omega)]

theorem vclmp (l : Bool) (g : BitVec 4) (fmt : BitVec 4) (td : BitVec 4) (ta : BitVec 4) (v : BitVec 4) (rs : BitVec 4) : Statement (.vclmp l g fmt td ta v rs) := by
  refine codec_of rfl (fun w hw => ?_)
  change w = 0x01A00000 + g.toNat * 0x10000000 + fmt.toNat * 0x10000 + td.toNat * 0x1000 + ta.toNat * 0x100 + v.toNat * 0x10 + rs.toNat at hw
  have := g.isLt; have := fmt.isLt; have := td.isLt; have := ta.isLt; have := v.isLt; have := rs.isLt
  refine ⟨by omega, (congrArg (opcodeV l w) (show w / 0x100000 % 256 = 0x1A by omega)).trans ?_⟩
  show some (Instr.vclmp l (fieldAt w 28 4) (fieldAt w 16 4) (fieldAt w 12 4) (fieldAt w 8 4) (fieldAt w 4 4) (fieldAt w 0 4)) = _
  rw [field_eq w 28 g (by omega), field_eq w 16 fmt (by omega), field_eq w 12 td (by omega), field_eq w 8 ta (by omega), field_eq w 4 v (by omega), field_eq w 0 rs (by omega)]

theorem vexp2 (l : Bool) (g : BitVec 4) (fmt : BitVec 4) (td : BitVec 4) (ta : BitVec 4) (rs : BitVec 4) : Statement (.vexp2 l g fmt td ta rs) := by
  refine codec_of rfl (fun w hw => ?_)
  change w = 0x01C00000 + g.toNat * 0x10000000 + fmt.toNat * 0x10000 + td.toNat * 0x1000 + ta.toNat * 0x100 + rs.toNat at hw
  have := g.isLt; have := fmt.isLt; have := td.isLt; have := ta.isLt; have := rs.isLt
  refine ⟨by omega, (congrArg (opcodeV l w) (show w / 0x100000 % 256 = 0x1C by omega)).trans ?_⟩
  show some (Instr.vexp2 l (fieldAt w 28 4) (fieldAt w 16 4) (fieldAt w 12 4) (fieldAt w 8 4) (fieldAt w 0 4)) = _
  rw [field_eq w 28 g (by omega), field_eq w 16 fmt (by omega), field_eq w 12 td (by omega), field_eq w 8 ta (by omega), field_eq w 0 rs (by omega)]

theorem vrcp (l : Bool) (g : BitVec 4) (fmt : BitVec 4) (td : BitVec 4) (ta : BitVec 4) (rs : BitVec 4) : Statement (.vrcp l g fmt td ta rs) := by
  refine codec_of rfl (fun w hw => ?_)
  change w = 0x01D00000 + g.toNat * 0x10000000 + fmt.toNat * 0x10000 + td.toNat * 0x1000 + ta.toNat * 0x100 + rs.toNat at hw
  have := g.isLt; have := fmt.isLt; have := td.isLt; have := ta.isLt; have := rs.isLt
  refine ⟨by omega, (congrArg (opcodeV l w) (show w / 0x100000 % 256 = 0x1D by omega)).trans ?_⟩
  show some (Instr.vrcp l (fieldAt w 28 4) (fieldAt w 16 4) (fieldAt w 12 4) (fieldAt w 8 4) (fieldAt w 0 4)) = _
  rw [field_eq w 28 g (by omega), field_eq w 16 fmt (by omega), field_eq w 12 td (by omega), field_eq w 8 ta (by omega), field_eq w 0 rs (by omega)]

theorem vrsq (l : Bool) (g : BitVec 4) (fmt : BitVec 4) (td : BitVec 4) (ta : BitVec 4) (rs : BitVec 4) : Statement (.vrsq l g fmt td ta rs) := by
  refine codec_of rfl (fun w hw => ?_)
  change w = 0x01E00000 + g.toNat * 0x10000000 + fmt.toNat * 0x10000 + td.toNat * 0x1000 + ta.toNat * 0x100 + rs.toNat at hw
  have := g.isLt; have := fmt.isLt; have := td.isLt; have := ta.isLt; have := rs.isLt
  refine ⟨by omega, (congrArg (opcodeV l w) (show w / 0x100000 % 256 = 0x1E by omega)).trans ?_⟩
  show some (Instr.vrsq l (fieldAt w 28 4) (fieldAt w 16 4) (fieldAt w 12 4) (fieldAt w 8 4) (fieldAt w 0 4)) = _
  rw [field_eq w 28 g (by omega), field_eq w 16 fmt (by omega), field_eq w 12 td (by omega), field_eq w 8 ta (by omega), field_eq w 0 rs (by omega)]

theorem vrsum (l : Bool) (g : BitVec 4) (fmt : BitVec 4) (td : BitVec 4) (ta : BitVec 4) (rs : BitVec 4) : Statement (.vrsum l g fmt td ta rs) := by
  refine codec_of rfl (fun w hw => ?_)
  change w = 0x02000000 + g.toNat * 0x10000000 + fmt.toNat * 0x10000 + td.toNat * 0x1000 + ta.toNat * 0x100 + rs.toNat at hw
  have := g.isLt; have := fmt.isLt; have := td.isLt; have := ta.isLt; have := rs.isLt
  refine ⟨by omega, (congrArg (opcodeV l w) (show w / 0x100000 % 256 = 0x20 by omega)).trans ?_⟩
  show some (Instr.vrsum l (fieldAt w 28 4) (fieldAt w 16 4) (fieldAt w 12 4) (fieldAt w 8 4) (fieldAt w 0 4)) = _
  rw [field_eq w 28 g (by omega), field_eq w 16 fmt (by omega), field_eq w 12 td (by omega), field_eq w 8 ta (by omega), field_eq w 0 rs (by omega)]

theorem vrmax (l : Bool) (g : BitVec 4) (fmt : BitVec 4) (td : BitVec 4) (ta : BitVec 4) (rs : BitVec 4) : Statement (.vrmax l g fmt td ta rs) := by
  refine codec_of rfl (fun w hw => ?_)
  change w = 0x02100000 + g.toNat * 0x10000000 + fmt.toNat * 0x10000 + td.toNat * 0x1000 + ta.toNat * 0x100 + rs.toNat at hw
  have := g.isLt; have := fmt.isLt; have := td.isLt; have := ta.isLt; have := rs.isLt
  refine ⟨by omega, (congrArg (opcodeV l w) (show w / 0x100000 % 256 = 0x21 by omega)).trans ?_⟩
  show some (Instr.vrmax l (fieldAt w 28 4) (fieldAt w 16 4) (fieldAt w 12 4) (fieldAt w 8 4) (fieldAt w 0 4)) = _
  rw [field_eq w 28 g (by omega), field_eq w 16 fmt (by omega), field_eq w 12 td (by omega), field_eq w 8 ta (by omega), field_eq w 0 rs (by omega)]

theorem vrmin (l : Bool) (g : BitVec 4) (fmt : BitVec 4) (td : BitVec 4) (ta : BitVec 4) (rs : BitVec 4) : Statement (.vrmin l g fmt td ta rs) := by
  refine codec_of rfl (fun w hw => ?_)
  change w = 0x02200000 + g.toNat * 0x10000000 + fmt.toNat * 0x10000 + td.toNat * 0x1000 + ta.toNat * 0x100 + rs.toNat at hw
  have := g.isLt; have := fmt.isLt; have := td.isLt; have := ta.isLt; have := rs.isLt
  refine ⟨by omega, (congrArg (opcodeV l w) (show w / 0x100000 % 256 = 0x22 by omega)).trans ?_⟩
  show some (Instr.vrmin l (fieldAt w 28 4) (fieldAt w 16 4) (fieldAt w 12 4) (fieldAt w 8 4) (fieldAt w 0 4)) = _
  rw [field_eq w 28 g (by omega), field_eq w 16 fmt (by omega), field_eq w 12 td (by omega), field_eq w 8 ta (by omega), field_eq w 0 rs (by omega)]

theorem vbcs (l : Bool) (g : BitVec 4) (fmt : BitVec 4) (td : BitVec 4) (sn : BitVec 4) (rs : BitVec 4) : Statement (.vbcs l g fmt td sn rs) := by
  refine codec_of rfl (fun w hw => ?_)
  change w = 0x02400000 + g.toNat * 0x10000000 + fmt.toNat * 0x10000 + td.toNat * 0x1000 + sn.toNat * 0x10 + rs.toNat at hw
  have := g.isLt; have := fmt.isLt; have := td.isLt; have := sn.isLt; have := rs.isLt
  refine ⟨by omega, (congrArg (opcodeV l w) (show w / 0x100000 % 256 = 0x24 by omega)).trans ?_⟩
  show some (Instr.vbcs l (fieldAt w 28 4) (fieldAt w 16 4) (fieldAt w 12 4) (fieldAt w 4 4) (fieldAt w 0 4)) = _
  rw [field_eq w 28 g (by omega), field_eq w 16 fmt (by omega), field_eq w 12 td (by omega), field_eq w 4 sn (by omega), field_eq w 0 rs (by omega)]

theorem vext (l : Bool) (g : BitVec 4) (fmt : BitVec 4) (sd : BitVec 4) (ta : BitVec 4) (sn : BitVec 4) (rs : BitVec 4) : Statement (.vext l g fmt sd ta sn rs) := by
  refine codec_of rfl (fun w hw => ?_)
  change w = 0x02500000 + g.toNat * 0x10000000 + fmt.toNat * 0x10000 + sd.toNat * 0x1000 + ta.toNat * 0x100 + sn.toNat * 0x10 + rs.toNat at hw
  have := g.isLt; have := fmt.isLt; have := sd.isLt; have := ta.isLt; have := sn.isLt; have := rs.isLt
  refine ⟨by omega, (congrArg (opcodeV l w) (show w / 0x100000 % 256 = 0x25 by omega)).trans ?_⟩
  show some (Instr.vext l (fieldAt w 28 4) (fieldAt w 16 4) (fieldAt w 12 4) (fieldAt w 8 4) (fieldAt w 4 4) (fieldAt w 0 4)) = _
  rw [field_eq w 28 g (by omega), field_eq w 16 fmt (by omega), field_eq w 12 sd (by omega), field_eq w 8 ta (by omega), field_eq w 4 sn (by omega), field_eq w 0 rs (by omega)]

theorem vins (l : Bool) (g : BitVec 4) (fmt : BitVec 4) (td : BitVec 4) (sv : BitVec 4) (sn : BitVec 4) (rs : BitVec 4) : Statement (.vins l g fmt td sv sn rs) := by
  refine codec_of rfl (fun w hw => ?_)
  change w = 0x02600000 + g.toNat * 0x10000000 + fmt.toNat * 0x10000 + td.toNat * 0x1000 + sv.toNat * 0x100 + sn.toNat * 0x10 + rs.toNat at hw
  have := g.isLt; have := fmt.isLt; have := td.isLt; have := sv.isLt; have := sn.isLt; have := rs.isLt
  refine ⟨by omega, (congrArg (opcodeV l w) (show w / 0x100000 % 256 = 0x26 by omega)).trans ?_⟩
  show some (Instr.vins l (fieldAt w 28 4) (fieldAt w 16 4) (fieldAt w 12 4) (fieldAt w 8 4) (fieldAt w 4 4) (fieldAt w 0 4)) = _
  rw [field_eq w 28 g (by omega), field_eq w 16 fmt (by omega), field_eq w 12 td (by omega), field_eq w 8 sv (by omega), field_eq w 4 sn (by omega), field_eq w 0 rs (by omega)]

theorem vperm (l : Bool) (g : BitVec 4) (fmt : BitVec 4) (td : BitVec 4) (ta : BitVec 4) (tb : BitVec 4) (rs : BitVec 4) : Statement (.vperm l g fmt td ta tb rs) := by
  refine codec_of rfl (fun w hw => ?_)
  change w = 0x02800000 + g.toNat * 0x10000000 + fmt.toNat * 0x10000 + td.toNat * 0x1000 + ta.toNat * 0x100 + tb.toNat * 0x10 + rs.toNat at hw
  have := g.isLt; have := fmt.isLt; have := td.isLt; have := ta.isLt; have := tb.isLt; have := rs.isLt
  refine ⟨by omega, (congrArg (opcodeV l w) (show w / 0x100000 % 256 = 0x28 by omega)).trans ?_⟩
  show some (Instr.vperm l (fieldAt w 28 4) (fieldAt w 16 4) (fieldAt w 12 4) (fieldAt w 8 4) (fieldAt w 4 4) (fieldAt w 0 4)) = _
  rw [field_eq w 28 g (by omega), field_eq w 16 fmt (by omega), field_eq w 12 td (by omega), field_eq w 8 ta (by omega), field_eq w 4 tb (by omega), field_eq w 0 rs (by omega)]

theorem vlsh (l : Bool) (g : BitVec 4) (fmt : BitVec 4) (td : BitVec 4) (ta : BitVec 4) (sn : BitVec 4) (rs : BitVec 4) : Statement (.vlsh l g fmt td ta sn rs) := by
  refine codec_of rfl (fun w hw => ?_)
  change w = 0x02900000 + g.toNat * 0x10000000 + fmt.toNat * 0x10000 + td.toNat * 0x1000 + ta.toNat * 0x100 + sn.toNat * 0x10 + rs.toNat at hw
  have := g.isLt; have := fmt.isLt; have := td.isLt; have := ta.isLt; have := sn.isLt; have := rs.isLt
  refine ⟨by omega, (congrArg (opcodeV l w) (show w / 0x100000 % 256 = 0x29 by omega)).trans ?_⟩
  show some (Instr.vlsh l (fieldAt w 28 4) (fieldAt w 16 4) (fieldAt w 12 4) (fieldAt w 8 4) (fieldAt w 4 4) (fieldAt w 0 4)) = _
  rw [field_eq w 28 g (by omega), field_eq w 16 fmt (by omega), field_eq w 12 td (by omega), field_eq w 8 ta (by omega), field_eq w 4 sn (by omega), field_eq w 0 rs (by omega)]

theorem vpack (l : Bool) (g : BitVec 4) (fmt : BitVec 4) (td : BitVec 4) (ta : BitVec 4) (tb : BitVec 4) (rs : BitVec 4) : Statement (.vpack l g fmt td ta tb rs) := by
  refine codec_of rfl (fun w hw => ?_)
  change w = 0x02A00000 + g.toNat * 0x10000000 + fmt.toNat * 0x10000 + td.toNat * 0x1000 + ta.toNat * 0x100 + tb.toNat * 0x10 + rs.toNat at hw
  have := g.isLt; have := fmt.isLt; have := td.isLt; have := ta.isLt; have := tb.isLt; have := rs.isLt
  refine ⟨by omega, (congrArg (opcodeV l w) (show w / 0x100000 % 256 = 0x2A by omega)).trans ?_⟩
  show some (Instr.vpack l (fieldAt w 28 4) (fieldAt w 16 4) (fieldAt w 12 4) (fieldAt w 8 4) (fieldAt w 4 4) (fieldAt w 0 4)) = _
  rw [field_eq w 28 g (by omega), field_eq w 16 fmt (by omega), field_eq w 12 td (by omega), field_eq w 8 ta (by omega), field_eq w 4 tb (by omega), field_eq w 0 rs (by omega)]

theorem vunpk (l : Bool) (g : BitVec 4) (fmt : BitVec 4) (td : BitVec 4) (ta : BitVec 4) (half : Bool) (rs : BitVec 4) : Statement (.vunpk l g fmt td ta half rs) := by
  refine codec_of rfl (fun w hw => ?_)
  change w = 0x02B00000 + g.toNat * 0x10000000 + fmt.toNat * 0x10000 + td.toNat * 0x1000 + ta.toNat * 0x100 + half.toNat * 0x10 + rs.toNat at hw
  have := g.isLt; have := fmt.isLt; have := td.isLt; have := ta.isLt; have := bool_lt half; have := rs.isLt
  refine ⟨by omega, (congrArg (opcodeV l w) (show w / 0x100000 % 256 = 0x2B by omega)).trans ?_⟩
  show some (Instr.vunpk l (fieldAt w 28 4) (fieldAt w 16 4) (fieldAt w 12 4) (fieldAt w 8 4) (bitAt w 4) (fieldAt w 0 4)) = _
  rw [field_eq w 28 g (by omega), field_eq w 16 fmt (by omega), field_eq w 12 td (by omega), field_eq w 8 ta (by omega), bit_eq w 4 half (by omega), field_eq w 0 rs (by omega)]

theorem vadds (l : Bool) (g : BitVec 4) (fmt : BitVec 4) (td : BitVec 4) (ta : BitVec 4) (sn : BitVec 4) (rs : BitVec 4) : Statement (.vadds l g fmt td ta sn rs) := by
  refine codec_of rfl (fun w hw => ?_)
  change w = 0x03000000 + g.toNat * 0x10000000 + fmt.toNat * 0x10000 + td.toNat * 0x1000 + ta.toNat * 0x100 + sn.toNat * 0x10 + rs.toNat at hw
  have := g.isLt; have := fmt.isLt; have := td.isLt; have := ta.isLt; have := sn.isLt; have := rs.isLt
  refine ⟨by omega, (congrArg (opcodeV l w) (show w / 0x100000 % 256 = 0x30 by omega)).trans ?_⟩
  show some (Instr.vadds l (fieldAt w 28 4) (fieldAt w 16 4) (fieldAt w 12 4) (fieldAt w 8 4) (fieldAt w 4 4) (fieldAt w 0 4)) = _
  rw [field_eq w 28 g (by omega), field_eq w 16 fmt (by omega), field_eq w 12 td (by omega), field_eq w 8 ta (by omega), field_eq w 4 sn (by omega), field_eq w 0 rs (by omega)]

theorem vmuls (l : Bool) (g : BitVec 4) (fmt : BitVec 4) (td : BitVec 4) (ta : BitVec 4) (sn : BitVec 4) (rs : BitVec 4) : Statement (.vmuls l g fmt td ta sn rs) := by
  refine codec_of rfl (fun w hw => ?_)
  change w = 0x03100000 + g.toNat * 0x10000000 + fmt.toNat * 0x10000 + td.toNat * 0x1000 + ta.toNat * 0x100 + sn.toNat * 0x10 + rs.toNat at hw
  have := g.isLt; have := fmt.isLt; have := td.isLt; have := ta.isLt; have := sn.isLt; have := rs.isLt
  refine ⟨by omega, (congrArg (opcodeV l w) (show w / 0x100000 % 256 = 0x31 by omega)).trans ?_⟩
  show some (Instr.vmuls l (fieldAt w 28 4) (fieldAt w 16 4) (fieldAt w 12 4) (fieldAt w 8 4) (fieldAt w 4 4) (fieldAt w 0 4)) = _
  rw [field_eq w 28 g (by omega), field_eq w 16 fmt (by omega), field_eq w 12 td (by omega), field_eq w 8 ta (by omega), field_eq w 4 sn (by omega), field_eq w 0 rs (by omega)]

theorem vfmas (l : Bool) (g : BitVec 4) (fmt : BitVec 4) (td : BitVec 4) (ta : BitVec 4) (sn : BitVec 4) (rs : BitVec 4) : Statement (.vfmas l g fmt td ta sn rs) := by
  refine codec_of rfl (fun w hw => ?_)
  change w = 0x03200000 + g.toNat * 0x10000000 + fmt.toNat * 0x10000 + td.toNat * 0x1000 + ta.toNat * 0x100 + sn.toNat * 0x10 + rs.toNat at hw
  have := g.isLt; have := fmt.isLt; have := td.isLt; have := ta.isLt; have := sn.isLt; have := rs.isLt
  refine ⟨by omega, (congrArg (opcodeV l w) (show w / 0x100000 % 256 = 0x32 by omega)).trans ?_⟩
  show some (Instr.vfmas l (fieldAt w 28 4) (fieldAt w 16 4) (fieldAt w 12 4) (fieldAt w 8 4) (fieldAt w 4 4) (fieldAt w 0 4)) = _
  rw [field_eq w 28 g (by omega), field_eq w 16 fmt (by omega), field_eq w 12 td (by omega), field_eq w 8 ta (by omega), field_eq w 4 sn (by omega), field_eq w 0 rs (by omega)]

theorem tld (g : BitVec 4) (t : BitVec 4) (v : BitVec 4) (a : BitVec 6) (cx : Bool) (cls : BitVec 4) : Statement (.tld g t v a cx cls) := by
  refine codec_of rfl (fun w hw => ?_)
  change w = 0x00100000 + g.toNat * 0x10000000 + t.toNat * 0x10000 + v.toNat * 0x1000 + a.toNat * 0x40 + cx.toNat * 0x20 + cls.toNat * 0x2 at hw
  have := g.isLt; have := t.isLt; have := v.isLt; have := a.isLt; have := bool_lt cx; have := cls.isLt
  refine ⟨by omega, (congrArg (opcodeM w) (show w / 0x100000 % 256 = 0x01 by omega)).trans ?_⟩
  show some (Instr.tld (fieldAt w 28 4) (fieldAt w 16 4) (fieldAt w 12 4) (fieldAt w 6 6) (bitAt w 5) (fieldAt w 1 4)) = _
  rw [field_eq w 28 g (by omega), field_eq w 16 t (by omega), field_eq w 12 v (by omega), field_eq w 6 a (by omega), bit_eq w 5 cx (by omega), field_eq w 1 cls (by omega)]

theorem tst (g : BitVec 4) (t : BitVec 4) (v : BitVec 4) (a : BitVec 6) (cx : Bool) (cls : BitVec 4) : Statement (.tst g t v a cx cls) := by
  refine codec_of rfl (fun w hw => ?_)
  change w = 0x00200000 + g.toNat * 0x10000000 + t.toNat * 0x10000 + v.toNat * 0x1000 + a.toNat * 0x40 + cx.toNat * 0x20 + cls.toNat * 0x2 at hw
  have := g.isLt; have := t.isLt; have := v.isLt; have := a.isLt; have := bool_lt cx; have := cls.isLt
  refine ⟨by omega, (congrArg (opcodeM w) (show w / 0x100000 % 256 = 0x02 by omega)).trans ?_⟩
  show some (Instr.tst (fieldAt w 28 4) (fieldAt w 16 4) (fieldAt w 12 4) (fieldAt w 6 6) (bitAt w 5) (fieldAt w 1 4)) = _
  rw [field_eq w 28 g (by omega), field_eq w 16 t (by omega), field_eq w 12 v (by omega), field_eq w 6 a (by omega), bit_eq w 5 cx (by omega), field_eq w 1 cls (by omega)]

theorem tgath (g : BitVec 4) (t : BitVec 4) (v : BitVec 4) (a : BitVec 6) (cx : Bool) (cls : BitVec 4) : Statement (.tgath g t v a cx cls) := by
  refine codec_of rfl (fun w hw => ?_)
  change w = 0x00300000 + g.toNat * 0x10000000 + t.toNat * 0x10000 + v.toNat * 0x1000 + a.toNat * 0x40 + cx.toNat * 0x20 + cls.toNat * 0x2 at hw
  have := g.isLt; have := t.isLt; have := v.isLt; have := a.isLt; have := bool_lt cx; have := cls.isLt
  refine ⟨by omega, (congrArg (opcodeM w) (show w / 0x100000 % 256 = 0x03 by omega)).trans ?_⟩
  show some (Instr.tgath (fieldAt w 28 4) (fieldAt w 16 4) (fieldAt w 12 4) (fieldAt w 6 6) (bitAt w 5) (fieldAt w 1 4)) = _
  rw [field_eq w 28 g (by omega), field_eq w 16 t (by omega), field_eq w 12 v (by omega), field_eq w 6 a (by omega), bit_eq w 5 cx (by omega), field_eq w 1 cls (by omega)]

theorem tscat (g : BitVec 4) (t : BitVec 4) (v : BitVec 4) (a : BitVec 6) (cx : Bool) (cls : BitVec 4) : Statement (.tscat g t v a cx cls) := by
  refine codec_of rfl (fun w hw => ?_)
  change w = 0x00400000 + g.toNat * 0x10000000 + t.toNat * 0x10000 + v.toNat * 0x1000 + a.toNat * 0x40 + cx.toNat * 0x20 + cls.toNat * 0x2 at hw
  have := g.isLt; have := t.isLt; have := v.isLt; have := a.isLt; have := bool_lt cx; have := cls.isLt
  refine ⟨by omega, (congrArg (opcodeM w) (show w / 0x100000 % 256 = 0x04 by omega)).trans ?_⟩
  show some (Instr.tscat (fieldAt w 28 4) (fieldAt w 16 4) (fieldAt w 12 4) (fieldAt w 6 6) (bitAt w 5) (fieldAt w 1 4)) = _
  rw [field_eq w 28 g (by omega), field_eq w 16 t (by omega), field_eq w 12 v (by omega), field_eq w 6 a (by omega), bit_eq w 5 cx (by omega), field_eq w 1 cls (by omega)]

theorem pref (g : BitVec 4) (v : BitVec 4) (a : BitVec 6) : Statement (.pref g v a) := by
  refine codec_of rfl (fun w hw => ?_)
  change w = 0x00500000 + g.toNat * 0x10000000 + v.toNat * 0x1000 + a.toNat * 0x40 at hw
  have := g.isLt; have := v.isLt; have := a.isLt
  refine ⟨by omega, (congrArg (opcodeM w) (show w / 0x100000 % 256 = 0x05 by omega)).trans ?_⟩
  show some (Instr.pref (fieldAt w 28 4) (fieldAt w 12 4) (fieldAt w 6 6)) = _
  rw [field_eq w 28 g (by omega), field_eq w 12 v (by omega), field_eq w 6 a (by omega)]

theorem tspld (g : BitVec 4) (t : BitVec 4) (a : BitVec 6) : Statement (.tspld g t a) := by
  refine codec_of rfl (fun w hw => ?_)
  change w = 0x00600000 + g.toNat * 0x10000000 + t.toNat * 0x10000 + a.toNat * 0x40 at hw
  have := g.isLt; have := t.isLt; have := a.isLt
  refine ⟨by omega, (congrArg (opcodeM w) (show w / 0x100000 % 256 = 0x06 by omega)).trans ?_⟩
  show some (Instr.tspld (fieldAt w 28 4) (fieldAt w 16 4) (fieldAt w 6 6)) = _
  rw [field_eq w 28 g (by omega), field_eq w 16 t (by omega), field_eq w 6 a (by omega)]

theorem tspst (g : BitVec 4) (t : BitVec 4) (a : BitVec 6) : Statement (.tspst g t a) := by
  refine codec_of rfl (fun w hw => ?_)
  change w = 0x00700000 + g.toNat * 0x10000000 + t.toNat * 0x10000 + a.toNat * 0x40 at hw
  have := g.isLt; have := t.isLt; have := a.isLt
  refine ⟨by omega, (congrArg (opcodeM w) (show w / 0x100000 % 256 = 0x07 by omega)).trans ?_⟩
  show some (Instr.tspst (fieldAt w 28 4) (fieldAt w 16 4) (fieldAt w 6 6)) = _
  rw [field_eq w 28 g (by omega), field_eq w 16 t (by omega), field_eq w 6 a (by omega)]

theorem ared (g : BitVec 4) (t : BitVec 4) (v : BitVec 4) (a : BitVec 6) (cx : Bool) (cls : BitVec 4) : Statement (.ared g t v a cx cls) := by
  refine codec_of rfl (fun w hw => ?_)
  change w = 0x00800000 + g.toNat * 0x10000000 + t.toNat * 0x10000 + v.toNat * 0x1000 + a.toNat * 0x40 + cx.toNat * 0x20 + cls.toNat * 0x2 at hw
  have := g.isLt; have := t.isLt; have := v.isLt; have := a.isLt; have := bool_lt cx; have := cls.isLt
  refine ⟨by omega, (congrArg (opcodeM w) (show w / 0x100000 % 256 = 0x08 by omega)).trans ?_⟩
  show some (Instr.ared (fieldAt w 28 4) (fieldAt w 16 4) (fieldAt w 12 4) (fieldAt w 6 6) (bitAt w 5) (fieldAt w 1 4)) = _
  rw [field_eq w 28 g (by omega), field_eq w 16 t (by omega), field_eq w 12 v (by omega), field_eq w 6 a (by omega), bit_eq w 5 cx (by omega), field_eq w 1 cls (by omega)]

theorem tzero (g : BitVec 4) (t : BitVec 4) : Statement (.tzero g t) := by
  refine codec_of rfl (fun w hw => ?_)
  change w = 0x00900000 + g.toNat * 0x10000000 + t.toNat * 0x10000 at hw
  have := g.isLt; have := t.isLt
  refine ⟨by omega, (congrArg (opcodeM w) (show w / 0x100000 % 256 = 0x09 by omega)).trans ?_⟩
  show some (Instr.tzero (fieldAt w 28 4) (fieldAt w 16 4)) = _
  rw [field_eq w 28 g (by omega), field_eq w 16 t (by omega)]

theorem tmovt (g : BitVec 4) (t : BitVec 4) (ts : BitVec 4) : Statement (.tmovt g t ts) := by
  refine codec_of rfl (fun w hw => ?_)
  change w = 0x00A00000 + g.toNat * 0x10000000 + t.toNat * 0x10000 + ts.toNat * 0x1000 at hw
  have := g.isLt; have := t.isLt; have := ts.isLt
  refine ⟨by omega, (congrArg (opcodeM w) (show w / 0x100000 % 256 = 0x0A by omega)).trans ?_⟩
  show some (Instr.tmovt (fieldAt w 28 4) (fieldAt w 16 4) (fieldAt w 12 4)) = _
  rw [field_eq w 28 g (by omega), field_eq w 16 t (by omega), field_eq w 12 ts (by omega)]

theorem tcopy (g : BitVec 4) (vd : BitVec 4) (vs : BitVec 4) (a : BitVec 6) (cq : BitVec 2) (ev : Bool) : Statement (.tcopy g vd vs a cq ev) := by
  refine codec_of rfl (fun w hw => ?_)
  change w = 0x00C00000 + g.toNat * 0x10000000 + vd.toNat * 0x10000 + vs.toNat * 0x1000 + a.toNat * 0x40 + cq.toNat * 0x10 + ev.toNat * 0x8 at hw
  have := g.isLt; have := vd.isLt; have := vs.isLt; have := a.isLt; have := cq.isLt; have := bool_lt ev
  refine ⟨by omega, (congrArg (opcodeM w) (show w / 0x100000 % 256 = 0x0C by omega)).trans ?_⟩
  show some (Instr.tcopy (fieldAt w 28 4) (fieldAt w 16 4) (fieldAt w 12 4) (fieldAt w 6 6) (fieldAt w 4 2) (bitAt w 3)) = _
  rw [field_eq w 28 g (by omega), field_eq w 16 vd (by omega), field_eq w 12 vs (by omega), field_eq w 6 a (by omega), field_eq w 4 cq (by omega), bit_eq w 3 ev (by omega)]

theorem vopen (g : BitVec 4) (v : BitVec 4) (mode : BitVec 2) (sc : BitVec 3) (cls : BitVec 4) : Statement (.vopen g v mode sc cls) := by
  refine codec_of rfl (fun w hw => ?_)
  change w = 0x01000000 + g.toNat * 0x10000000 + v.toNat * 0x10000 + mode.toNat * 0x100 + sc.toNat * 0x20 + cls.toNat * 0x2 at hw
  have := g.isLt; have := v.isLt; have := mode.isLt; have := sc.isLt; have := cls.isLt
  refine ⟨by omega, (congrArg (opcodeM w) (show w / 0x100000 % 256 = 0x10 by omega)).trans ?_⟩
  show some (Instr.vopen (fieldAt w 28 4) (fieldAt w 16 4) (fieldAt w 8 2) (fieldAt w 5 3) (fieldAt w 1 4)) = _
  rw [field_eq w 28 g (by omega), field_eq w 16 v (by omega), field_eq w 8 mode (by omega), field_eq w 5 sc (by omega), field_eq w 1 cls (by omega)]

theorem vretire (g : BitVec 4) (v : BitVec 4) : Statement (.vretire g v) := by
  refine codec_of rfl (fun w hw => ?_)
  change w = 0x01100000 + g.toNat * 0x10000000 + v.toNat * 0x10000 at hw
  have := g.isLt; have := v.isLt
  refine ⟨by omega, (congrArg (opcodeM w) (show w / 0x100000 % 256 = 0x11 by omega)).trans ?_⟩
  show some (Instr.vretire (fieldAt w 28 4) (fieldAt w 16 4)) = _
  rw [field_eq w 28 g (by omega), field_eq w 16 v (by omega)]

theorem hfree (g : BitVec 4) (a : BitVec 6) : Statement (.hfree g a) := by
  refine codec_of rfl (fun w hw => ?_)
  change w = 0x01200000 + g.toNat * 0x10000000 + a.toNat * 0x400 at hw
  have := g.isLt; have := a.isLt
  refine ⟨by omega, (congrArg (opcodeM w) (show w / 0x100000 % 256 = 0x12 by omega)).trans ?_⟩
  show some (Instr.hfree (fieldAt w 28 4) (fieldAt w 10 6)) = _
  rw [field_eq w 28 g (by omega), field_eq w 10 a (by omega)]

theorem waitm (g : BitVec 4) (d : BitVec 6) (v : BitVec 4) (a : BitVec 6) (ord : Bool) (sc : BitVec 2) : Statement (.waitm g d v a ord sc) := by
  refine codec_of rfl (fun w hw => ?_)
  change w = 0x01300000 + g.toNat * 0x10000000 + d.toNat * 0x4000 + v.toNat * 0x400 + a.toNat * 0x10 + ord.toNat * 0x4 + sc.toNat at hw
  have := g.isLt; have := d.isLt; have := v.isLt; have := a.isLt; have := bool_lt ord; have := sc.isLt
  refine ⟨by omega, (congrArg (opcodeM w) (show w / 0x100000 % 256 = 0x13 by omega)).trans ?_⟩
  show some (Instr.waitm (fieldAt w 28 4) (fieldAt w 14 6) (fieldAt w 10 4) (fieldAt w 4 6) (bitAt w 2) (fieldAt w 0 2)) = _
  rw [field_eq w 28 g (by omega), field_eq w 14 d (by omega), field_eq w 10 v (by omega), field_eq w 4 a (by omega), bit_eq w 2 ord (by omega), field_eq w 0 sc (by omega)]

theorem aadd (g : BitVec 4) (d : BitVec 6) (v : BitVec 4) (a : BitVec 6) (ord : BitVec 2) (sc : BitVec 2) : Statement (.aadd g d v a ord sc) := by
  refine codec_of rfl (fun w hw => ?_)
  change w = 0x01800000 + g.toNat * 0x10000000 + d.toNat * 0x4000 + v.toNat * 0x400 + a.toNat * 0x10 + ord.toNat * 0x4 + sc.toNat at hw
  have := g.isLt; have := d.isLt; have := v.isLt; have := a.isLt; have := ord.isLt; have := sc.isLt
  refine ⟨by omega, (congrArg (opcodeM w) (show w / 0x100000 % 256 = 0x18 by omega)).trans ?_⟩
  show some (Instr.aadd (fieldAt w 28 4) (fieldAt w 14 6) (fieldAt w 10 4) (fieldAt w 4 6) (fieldAt w 2 2) (fieldAt w 0 2)) = _
  rw [field_eq w 28 g (by omega), field_eq w 14 d (by omega), field_eq w 10 v (by omega), field_eq w 4 a (by omega), field_eq w 2 ord (by omega), field_eq w 0 sc (by omega)]

theorem amin (g : BitVec 4) (d : BitVec 6) (v : BitVec 4) (a : BitVec 6) (ord : BitVec 2) (sc : BitVec 2) : Statement (.amin g d v a ord sc) := by
  refine codec_of rfl (fun w hw => ?_)
  change w = 0x01900000 + g.toNat * 0x10000000 + d.toNat * 0x4000 + v.toNat * 0x400 + a.toNat * 0x10 + ord.toNat * 0x4 + sc.toNat at hw
  have := g.isLt; have := d.isLt; have := v.isLt; have := a.isLt; have := ord.isLt; have := sc.isLt
  refine ⟨by omega, (congrArg (opcodeM w) (show w / 0x100000 % 256 = 0x19 by omega)).trans ?_⟩
  show some (Instr.amin (fieldAt w 28 4) (fieldAt w 14 6) (fieldAt w 10 4) (fieldAt w 4 6) (fieldAt w 2 2) (fieldAt w 0 2)) = _
  rw [field_eq w 28 g (by omega), field_eq w 14 d (by omega), field_eq w 10 v (by omega), field_eq w 4 a (by omega), field_eq w 2 ord (by omega), field_eq w 0 sc (by omega)]

theorem amax (g : BitVec 4) (d : BitVec 6) (v : BitVec 4) (a : BitVec 6) (ord : BitVec 2) (sc : BitVec 2) : Statement (.amax g d v a ord sc) := by
  refine codec_of rfl (fun w hw => ?_)
  change w = 0x01A00000 + g.toNat * 0x10000000 + d.toNat * 0x4000 + v.toNat * 0x400 + a.toNat * 0x10 + ord.toNat * 0x4 + sc.toNat at hw
  have := g.isLt; have := d.isLt; have := v.isLt; have := a.isLt; have := ord.isLt; have := sc.isLt
  refine ⟨by omega, (congrArg (opcodeM w) (show w / 0x100000 % 256 = 0x1A by omega)).trans ?_⟩
  show some (Instr.amax (fieldAt w 28 4) (fieldAt w 14 6) (fieldAt w 10 4) (fieldAt w 4 6) (fieldAt w 2 2) (fieldAt w 0 2)) = _
  rw [field_eq w 28 g (by omega), field_eq w 14 d (by omega), field_eq w 10 v (by omega), field_eq w 4 a (by omega), field_eq w 2 ord (by omega), field_eq w 0 sc (by omega)]

theorem aminu (g : BitVec 4) (d : BitVec 6) (v : BitVec 4) (a : BitVec 6) (ord : BitVec 2) (sc : BitVec 2) : Statement (.aminu g d v a ord sc) := by
  refine codec_of rfl (fun w hw => ?_)
  change w = 0x01B00000 + g.toNat * 0x10000000 + d.toNat * 0x4000 + v.toNat * 0x400 + a.toNat * 0x10 + ord.toNat * 0x4 + sc.toNat at hw
  have := g.isLt; have := d.isLt; have := v.isLt; have := a.isLt; have := ord.isLt; have := sc.isLt
  refine ⟨by omega, (congrArg (opcodeM w) (show w / 0x100000 % 256 = 0x1B by omega)).trans ?_⟩
  show some (Instr.aminu (fieldAt w 28 4) (fieldAt w 14 6) (fieldAt w 10 4) (fieldAt w 4 6) (fieldAt w 2 2) (fieldAt w 0 2)) = _
  rw [field_eq w 28 g (by omega), field_eq w 14 d (by omega), field_eq w 10 v (by omega), field_eq w 4 a (by omega), field_eq w 2 ord (by omega), field_eq w 0 sc (by omega)]

theorem amaxu (g : BitVec 4) (d : BitVec 6) (v : BitVec 4) (a : BitVec 6) (ord : BitVec 2) (sc : BitVec 2) : Statement (.amaxu g d v a ord sc) := by
  refine codec_of rfl (fun w hw => ?_)
  change w = 0x01C00000 + g.toNat * 0x10000000 + d.toNat * 0x4000 + v.toNat * 0x400 + a.toNat * 0x10 + ord.toNat * 0x4 + sc.toNat at hw
  have := g.isLt; have := d.isLt; have := v.isLt; have := a.isLt; have := ord.isLt; have := sc.isLt
  refine ⟨by omega, (congrArg (opcodeM w) (show w / 0x100000 % 256 = 0x1C by omega)).trans ?_⟩
  show some (Instr.amaxu (fieldAt w 28 4) (fieldAt w 14 6) (fieldAt w 10 4) (fieldAt w 4 6) (fieldAt w 2 2) (fieldAt w 0 2)) = _
  rw [field_eq w 28 g (by omega), field_eq w 14 d (by omega), field_eq w 10 v (by omega), field_eq w 4 a (by omega), field_eq w 2 ord (by omega), field_eq w 0 sc (by omega)]

theorem aand (g : BitVec 4) (d : BitVec 6) (v : BitVec 4) (a : BitVec 6) (ord : BitVec 2) (sc : BitVec 2) : Statement (.aand g d v a ord sc) := by
  refine codec_of rfl (fun w hw => ?_)
  change w = 0x01D00000 + g.toNat * 0x10000000 + d.toNat * 0x4000 + v.toNat * 0x400 + a.toNat * 0x10 + ord.toNat * 0x4 + sc.toNat at hw
  have := g.isLt; have := d.isLt; have := v.isLt; have := a.isLt; have := ord.isLt; have := sc.isLt
  refine ⟨by omega, (congrArg (opcodeM w) (show w / 0x100000 % 256 = 0x1D by omega)).trans ?_⟩
  show some (Instr.aand (fieldAt w 28 4) (fieldAt w 14 6) (fieldAt w 10 4) (fieldAt w 4 6) (fieldAt w 2 2) (fieldAt w 0 2)) = _
  rw [field_eq w 28 g (by omega), field_eq w 14 d (by omega), field_eq w 10 v (by omega), field_eq w 4 a (by omega), field_eq w 2 ord (by omega), field_eq w 0 sc (by omega)]

theorem aor (g : BitVec 4) (d : BitVec 6) (v : BitVec 4) (a : BitVec 6) (ord : BitVec 2) (sc : BitVec 2) : Statement (.aor g d v a ord sc) := by
  refine codec_of rfl (fun w hw => ?_)
  change w = 0x01E00000 + g.toNat * 0x10000000 + d.toNat * 0x4000 + v.toNat * 0x400 + a.toNat * 0x10 + ord.toNat * 0x4 + sc.toNat at hw
  have := g.isLt; have := d.isLt; have := v.isLt; have := a.isLt; have := ord.isLt; have := sc.isLt
  refine ⟨by omega, (congrArg (opcodeM w) (show w / 0x100000 % 256 = 0x1E by omega)).trans ?_⟩
  show some (Instr.aor (fieldAt w 28 4) (fieldAt w 14 6) (fieldAt w 10 4) (fieldAt w 4 6) (fieldAt w 2 2) (fieldAt w 0 2)) = _
  rw [field_eq w 28 g (by omega), field_eq w 14 d (by omega), field_eq w 10 v (by omega), field_eq w 4 a (by omega), field_eq w 2 ord (by omega), field_eq w 0 sc (by omega)]

theorem axor (g : BitVec 4) (d : BitVec 6) (v : BitVec 4) (a : BitVec 6) (ord : BitVec 2) (sc : BitVec 2) : Statement (.axor g d v a ord sc) := by
  refine codec_of rfl (fun w hw => ?_)
  change w = 0x01F00000 + g.toNat * 0x10000000 + d.toNat * 0x4000 + v.toNat * 0x400 + a.toNat * 0x10 + ord.toNat * 0x4 + sc.toNat at hw
  have := g.isLt; have := d.isLt; have := v.isLt; have := a.isLt; have := ord.isLt; have := sc.isLt
  refine ⟨by omega, (congrArg (opcodeM w) (show w / 0x100000 % 256 = 0x1F by omega)).trans ?_⟩
  show some (Instr.axor (fieldAt w 28 4) (fieldAt w 14 6) (fieldAt w 10 4) (fieldAt w 4 6) (fieldAt w 2 2) (fieldAt w 0 2)) = _
  rw [field_eq w 28 g (by omega), field_eq w 14 d (by omega), field_eq w 10 v (by omega), field_eq w 4 a (by omega), field_eq w 2 ord (by omega), field_eq w 0 sc (by omega)]

theorem axchg (g : BitVec 4) (d : BitVec 6) (v : BitVec 4) (a : BitVec 6) (ord : BitVec 2) (sc : BitVec 2) : Statement (.axchg g d v a ord sc) := by
  refine codec_of rfl (fun w hw => ?_)
  change w = 0x02000000 + g.toNat * 0x10000000 + d.toNat * 0x4000 + v.toNat * 0x400 + a.toNat * 0x10 + ord.toNat * 0x4 + sc.toNat at hw
  have := g.isLt; have := d.isLt; have := v.isLt; have := a.isLt; have := ord.isLt; have := sc.isLt
  refine ⟨by omega, (congrArg (opcodeM w) (show w / 0x100000 % 256 = 0x20 by omega)).trans ?_⟩
  show some (Instr.axchg (fieldAt w 28 4) (fieldAt w 14 6) (fieldAt w 10 4) (fieldAt w 4 6) (fieldAt w 2 2) (fieldAt w 0 2)) = _
  rw [field_eq w 28 g (by omega), field_eq w 14 d (by omega), field_eq w 10 v (by omega), field_eq w 4 a (by omega), field_eq w 2 ord (by omega), field_eq w 0 sc (by omega)]

theorem acas (g : BitVec 4) (d : BitVec 5) (v : BitVec 4) (a : BitVec 6) (ord : BitVec 2) (sc : BitVec 2) : Statement (.acas g d v a ord sc) := by
  refine codec_of rfl (fun w hw => ?_)
  change w = 0x02100000 + g.toNat * 0x10000000 + d.toNat * 0x8000 + v.toNat * 0x400 + a.toNat * 0x10 + ord.toNat * 0x4 + sc.toNat at hw
  have := g.isLt; have := d.isLt; have := v.isLt; have := a.isLt; have := ord.isLt; have := sc.isLt
  refine ⟨by omega, (congrArg (opcodeM w) (show w / 0x100000 % 256 = 0x21 by omega)).trans ?_⟩
  show some (Instr.acas (fieldAt w 28 4) (fieldAt w 15 5) (fieldAt w 10 4) (fieldAt w 4 6) (fieldAt w 2 2) (fieldAt w 0 2)) = _
  rw [field_eq w 28 g (by omega), field_eq w 15 d (by omega), field_eq w 10 v (by omega), field_eq w 4 a (by omega), field_eq w 2 ord (by omega), field_eq w 0 sc (by omega)]

theorem aincb (g : BitVec 4) (d : BitVec 6) (v : BitVec 4) (a : BitVec 6) (ord : BitVec 2) (sc : BitVec 2) : Statement (.aincb g d v a ord sc) := by
  refine codec_of rfl (fun w hw => ?_)
  change w = 0x02200000 + g.toNat * 0x10000000 + d.toNat * 0x4000 + v.toNat * 0x400 + a.toNat * 0x10 + ord.toNat * 0x4 + sc.toNat at hw
  have := g.isLt; have := d.isLt; have := v.isLt; have := a.isLt; have := ord.isLt; have := sc.isLt
  refine ⟨by omega, (congrArg (opcodeM w) (show w / 0x100000 % 256 = 0x22 by omega)).trans ?_⟩
  show some (Instr.aincb (fieldAt w 28 4) (fieldAt w 14 6) (fieldAt w 10 4) (fieldAt w 4 6) (fieldAt w 2 2) (fieldAt w 0 2)) = _
  rw [field_eq w 28 g (by omega), field_eq w 14 d (by omega), field_eq w 10 v (by omega), field_eq w 4 a (by omega), field_eq w 2 ord (by omega), field_eq w 0 sc (by omega)]

theorem afadd (g : BitVec 4) (d : BitVec 6) (v : BitVec 4) (a : BitVec 6) (ord : BitVec 2) (sc : BitVec 2) : Statement (.afadd g d v a ord sc) := by
  refine codec_of rfl (fun w hw => ?_)
  change w = 0x02300000 + g.toNat * 0x10000000 + d.toNat * 0x4000 + v.toNat * 0x400 + a.toNat * 0x10 + ord.toNat * 0x4 + sc.toNat at hw
  have := g.isLt; have := d.isLt; have := v.isLt; have := a.isLt; have := ord.isLt; have := sc.isLt
  refine ⟨by omega, (congrArg (opcodeM w) (show w / 0x100000 % 256 = 0x23 by omega)).trans ?_⟩
  show some (Instr.afadd (fieldAt w 28 4) (fieldAt w 14 6) (fieldAt w 10 4) (fieldAt w 4 6) (fieldAt w 2 2) (fieldAt w 0 2)) = _
  rw [field_eq w 28 g (by omega), field_eq w 14 d (by omega), field_eq w 10 v (by omega), field_eq w 4 a (by omega), field_eq w 2 ord (by omega), field_eq w 0 sc (by omega)]

theorem afaddh (g : BitVec 4) (d : BitVec 6) (v : BitVec 4) (a : BitVec 6) (ord : BitVec 2) (sc : BitVec 2) : Statement (.afaddh g d v a ord sc) := by
  refine codec_of rfl (fun w hw => ?_)
  change w = 0x02400000 + g.toNat * 0x10000000 + d.toNat * 0x4000 + v.toNat * 0x400 + a.toNat * 0x10 + ord.toNat * 0x4 + sc.toNat at hw
  have := g.isLt; have := d.isLt; have := v.isLt; have := a.isLt; have := ord.isLt; have := sc.isLt
  refine ⟨by omega, (congrArg (opcodeM w) (show w / 0x100000 % 256 = 0x24 by omega)).trans ?_⟩
  show some (Instr.afaddh (fieldAt w 28 4) (fieldAt w 14 6) (fieldAt w 10 4) (fieldAt w 4 6) (fieldAt w 2 2) (fieldAt w 0 2)) = _
  rw [field_eq w 28 g (by omega), field_eq w 14 d (by omega), field_eq w 10 v (by omega), field_eq w 4 a (by omega), field_eq w 2 ord (by omega), field_eq w 0 sc (by omega)]

theorem ald (g : BitVec 4) (d : BitVec 6) (v : BitVec 4) (a : BitVec 6) (ord : BitVec 2) (sc : BitVec 2) : Statement (.ald g d v a ord sc) := by
  refine codec_of rfl (fun w hw => ?_)
  change w = 0x02500000 + g.toNat * 0x10000000 + d.toNat * 0x4000 + v.toNat * 0x400 + a.toNat * 0x10 + ord.toNat * 0x4 + sc.toNat at hw
  have := g.isLt; have := d.isLt; have := v.isLt; have := a.isLt; have := ord.isLt; have := sc.isLt
  refine ⟨by omega, (congrArg (opcodeM w) (show w / 0x100000 % 256 = 0x25 by omega)).trans ?_⟩
  show some (Instr.ald (fieldAt w 28 4) (fieldAt w 14 6) (fieldAt w 10 4) (fieldAt w 4 6) (fieldAt w 2 2) (fieldAt w 0 2)) = _
  rw [field_eq w 28 g (by omega), field_eq w 14 d (by omega), field_eq w 10 v (by omega), field_eq w 4 a (by omega), field_eq w 2 ord (by omega), field_eq w 0 sc (by omega)]

theorem ast (g : BitVec 4) (d : BitVec 6) (v : BitVec 4) (a : BitVec 6) (ord : BitVec 2) (sc : BitVec 2) : Statement (.ast g d v a ord sc) := by
  refine codec_of rfl (fun w hw => ?_)
  change w = 0x02600000 + g.toNat * 0x10000000 + d.toNat * 0x4000 + v.toNat * 0x400 + a.toNat * 0x10 + ord.toNat * 0x4 + sc.toNat at hw
  have := g.isLt; have := d.isLt; have := v.isLt; have := a.isLt; have := ord.isLt; have := sc.isLt
  refine ⟨by omega, (congrArg (opcodeM w) (show w / 0x100000 % 256 = 0x26 by omega)).trans ?_⟩
  show some (Instr.ast (fieldAt w 28 4) (fieldAt w 14 6) (fieldAt w 10 4) (fieldAt w 4 6) (fieldAt w 2 2) (fieldAt w 0 2)) = _
  rw [field_eq w 28 g (by omega), field_eq w 14 d (by omega), field_eq w 10 v (by omega), field_eq w 4 a (by omega), field_eq w 2 ord (by omega), field_eq w 0 sc (by omega)]

theorem send (g : BitVec 4) (a : BitVec 6) (t : BitVec 4) (b : BitVec 6) (timed : Bool) : Statement (.send g a t b timed) := by
  refine codec_of rfl (fun w hw => ?_)
  change w = 0x02800000 + g.toNat * 0x10000000 + a.toNat * 0x4000 + t.toNat * 0x400 + b.toNat * 0x10 + timed.toNat * 0x8 at hw
  have := g.isLt; have := a.isLt; have := t.isLt; have := b.isLt; have := bool_lt timed
  refine ⟨by omega, (congrArg (opcodeM w) (show w / 0x100000 % 256 = 0x28 by omega)).trans ?_⟩
  show some (Instr.send (fieldAt w 28 4) (fieldAt w 14 6) (fieldAt w 10 4) (fieldAt w 4 6) (bitAt w 3)) = _
  rw [field_eq w 28 g (by omega), field_eq w 14 a (by omega), field_eq w 10 t (by omega), field_eq w 4 b (by omega), bit_eq w 3 timed (by omega)]

theorem mm (g : BitVec 4) (acc : BitVec 3) (t : BitVec 4) (sg : BitVec 2) (sw : Bool) (fmt : BitVec 4) (q : BitVec 3) (scl : Bool) : Statement (.mm g acc t sg sw fmt q scl) := by
  refine codec_of rfl (fun w hw => ?_)
  change w = 0x00100000 + g.toNat * 0x10000000 + acc.toNat * 0x20000 + t.toNat * 0x2000 + sg.toNat * 0x800 + sw.toNat * 0x400 + fmt.toNat * 0x40 + q.toNat * 0x8 + scl.toNat at hw
  have := g.isLt; have := acc.isLt; have := t.isLt; have := sg.isLt; have := bool_lt sw; have := fmt.isLt; have := q.isLt; have := bool_lt scl
  refine ⟨by omega, (congrArg (opcodeE w) (show w / 0x100000 % 256 = 0x01 by omega)).trans ?_⟩
  show some (Instr.mm (fieldAt w 28 4) (fieldAt w 17 3) (fieldAt w 13 4) (fieldAt w 11 2) (bitAt w 10) (fieldAt w 6 4) (fieldAt w 3 3) (bitAt w 0)) = _
  rw [field_eq w 28 g (by omega), field_eq w 17 acc (by omega), field_eq w 13 t (by omega), field_eq w 11 sg (by omega), bit_eq w 10 sw (by omega), field_eq w 6 fmt (by omega), field_eq w 3 q (by omega), bit_eq w 0 scl (by omega)]

theorem mmcmp (g : BitVec 4) (acc : BitVec 3) (t : BitVec 4) (sg : BitVec 2) (sw : Bool) (fmt : BitVec 4) : Statement (.mmcmp g acc t sg sw fmt) := by
  refine codec_of rfl (fun w hw => ?_)
  change w = 0x00200000 + g.toNat * 0x10000000 + acc.toNat * 0x20000 + t.toNat * 0x2000 + sg.toNat * 0x800 + sw.toNat * 0x400 + fmt.toNat * 0x40 at hw
  have := g.isLt; have := acc.isLt; have := t.isLt; have := sg.isLt; have := bool_lt sw; have := fmt.isLt
  refine ⟨by omega, (congrArg (opcodeE w) (show w / 0x100000 % 256 = 0x02 by omega)).trans ?_⟩
  show some (Instr.mmcmp (fieldAt w 28 4) (fieldAt w 17 3) (fieldAt w 13 4) (fieldAt w 11 2) (bitAt w 10) (fieldAt w 6 4)) = _
  rw [field_eq w 28 g (by omega), field_eq w 17 acc (by omega), field_eq w 13 t (by omega), field_eq w 11 sg (by omega), bit_eq w 10 sw (by omega), field_eq w 6 fmt (by omega)]

theorem mstatTile (g : BitVec 4) (t : BitVec 3) (sg : BitVec 2) (sw : Bool) (fmt : BitVec 4) : Statement (.mstatTile g t sg sw fmt) := by
  refine codec_of rfl (fun w hw => ?_)
  change w = 0x00300000 + g.toNat * 0x10000000 + t.toNat * 0x800 + sg.toNat * 0x80 + sw.toNat * 0x40 + fmt.toNat * 0x4 at hw
  have := g.isLt; have := t.isLt; have := sg.isLt; have := bool_lt sw; have := fmt.isLt
  refine ⟨by omega, (congrArg (opcodeE w) (show w / 0x100000 % 256 = 0x03 by omega)).trans ?_⟩
  show some (if bitAt w 9 then _ else _) = _
  rw [show bitAt w 9 = false from bit_eq w 9 _ (by first | (simp; omega))]
  show some (Instr.mstatTile (fieldAt w 28 4) (fieldAt w 11 3) (fieldAt w 7 2) (bitAt w 6) (fieldAt w 2 4)) = _
  rw [field_eq w 28 g (by omega), field_eq w 11 t (by omega), field_eq w 7 sg (by omega), bit_eq w 6 sw (by omega), field_eq w 2 fmt (by omega)]

theorem mstatHandle (g : BitVec 4) (a : BitVec 6) (sg : BitVec 2) (sw : Bool) (fmt : BitVec 4) : Statement (.mstatHandle g a sg sw fmt) := by
  refine codec_of rfl (fun w hw => ?_)
  change w = 0x00300200 + g.toNat * 0x10000000 + a.toNat * 0x4000 + sg.toNat * 0x80 + sw.toNat * 0x40 + fmt.toNat * 0x4 at hw
  have := g.isLt; have := a.isLt; have := sg.isLt; have := bool_lt sw; have := fmt.isLt
  refine ⟨by omega, (congrArg (opcodeE w) (show w / 0x100000 % 256 = 0x03 by omega)).trans ?_⟩
  show some (if bitAt w 9 then _ else _) = _
  rw [show bitAt w 9 = true from bit_eq w 9 _ (by first | (simp; omega))]
  show some (Instr.mstatHandle (fieldAt w 28 4) (fieldAt w 14 6) (fieldAt w 7 2) (bitAt w 6) (fieldAt w 2 4)) = _
  rw [field_eq w 28 g (by omega), field_eq w 14 a (by omega), field_eq w 7 sg (by omega), bit_eq w 6 sw (by omega), field_eq w 2 fmt (by omega)]

theorem mswap (g : BitVec 4) : Statement (.mswap g) := by
  refine codec_of rfl (fun w hw => ?_)
  change w = 0x00400000 + g.toNat * 0x10000000 at hw
  have := g.isLt
  refine ⟨by omega, (congrArg (opcodeE w) (show w / 0x100000 % 256 = 0x04 by omega)).trans ?_⟩
  show some (Instr.mswap (fieldAt w 28 4)) = _
  rw [field_eq w 28 g (by omega)]

theorem lease (g : BitVec 4) : Statement (.lease g) := by
  refine codec_of rfl (fun w hw => ?_)
  change w = 0x00500000 + g.toNat * 0x10000000 at hw
  have := g.isLt
  refine ⟨by omega, (congrArg (opcodeE w) (show w / 0x100000 % 256 = 0x05 by omega)).trans ?_⟩
  show some (Instr.lease (fieldAt w 28 4)) = _
  rw [field_eq w 28 g (by omega)]

theorem lrel (g : BitVec 4) : Statement (.lrel g) := by
  refine codec_of rfl (fun w hw => ?_)
  change w = 0x00600000 + g.toNat * 0x10000000 at hw
  have := g.isLt
  refine ⟨by omega, (congrArg (opcodeE w) (show w / 0x100000 % 256 = 0x06 by omega)).trans ?_⟩
  show some (Instr.lrel (fieldAt w 28 4)) = _
  rw [field_eq w 28 g (by omega)]

theorem acczeroFp (g : BitVec 4) (acc : BitVec 3) (t : BitVec 4) : Statement (.acczeroFp g acc t) := by
  refine codec_of rfl (fun w hw => ?_)
  change w = 0x00800000 + g.toNat * 0x10000000 + acc.toNat * 0x20000 + t.toNat * 0x2000 at hw
  have := g.isLt; have := acc.isLt; have := t.isLt
  refine ⟨by omega, (congrArg (opcodeE w) (show w / 0x100000 % 256 = 0x08 by omega)).trans ?_⟩
  show some (if bitAt w 0 then _ else _) = _
  rw [show bitAt w 0 = false from bit_eq w 0 _ (by first | (simp; omega))]
  show some (Instr.acczeroFp (fieldAt w 28 4) (fieldAt w 17 3) (fieldAt w 13 4)) = _
  rw [field_eq w 28 g (by omega), field_eq w 17 acc (by omega), field_eq w 13 t (by omega)]

theorem acczeroInt (g : BitVec 4) (acc : BitVec 3) : Statement (.acczeroInt g acc) := by
  refine codec_of rfl (fun w hw => ?_)
  change w = 0x00800001 + g.toNat * 0x10000000 + acc.toNat * 0x20000 at hw
  have := g.isLt; have := acc.isLt
  refine ⟨by omega, (congrArg (opcodeE w) (show w / 0x100000 % 256 = 0x08 by omega)).trans ?_⟩
  show some (if bitAt w 0 then _ else _) = _
  rw [show bitAt w 0 = true from bit_eq w 0 _ (by first | (simp; omega))]
  show some (Instr.acczeroInt (fieldAt w 28 4) (fieldAt w 17 3)) = _
  rw [field_eq w 28 g (by omega), field_eq w 17 acc (by omega)]

theorem accld (g : BitVec 4) (acc : BitVec 3) (t : BitVec 4) (sg : BitVec 2) (sw : Bool) (fmt : BitVec 4) (hi : Bool) : Statement (.accld g acc t sg sw fmt hi) := by
  refine codec_of rfl (fun w hw => ?_)
  change w = 0x00900000 + g.toNat * 0x10000000 + acc.toNat * 0x20000 + t.toNat * 0x2000 + sg.toNat * 0x800 + sw.toNat * 0x400 + fmt.toNat * 0x40 + hi.toNat * 0x2 at hw
  have := g.isLt; have := acc.isLt; have := t.isLt; have := sg.isLt; have := bool_lt sw; have := fmt.isLt; have := bool_lt hi
  refine ⟨by omega, (congrArg (opcodeE w) (show w / 0x100000 % 256 = 0x09 by omega)).trans ?_⟩
  show some (Instr.accld (fieldAt w 28 4) (fieldAt w 17 3) (fieldAt w 13 4) (fieldAt w 11 2) (bitAt w 10) (fieldAt w 6 4) (bitAt w 1)) = _
  rw [field_eq w 28 g (by omega), field_eq w 17 acc (by omega), field_eq w 13 t (by omega), field_eq w 11 sg (by omega), bit_eq w 10 sw (by omega), field_eq w 6 fmt (by omega), bit_eq w 1 hi (by omega)]

theorem accnorm (g : BitVec 4) (acc : BitVec 3) (t : BitVec 4) (sg : BitVec 2) (sw : Bool) : Statement (.accnorm g acc t sg sw) := by
  refine codec_of rfl (fun w hw => ?_)
  change w = 0x00A00000 + g.toNat * 0x10000000 + acc.toNat * 0x20000 + t.toNat * 0x2000 + sg.toNat * 0x800 + sw.toNat * 0x400 at hw
  have := g.isLt; have := acc.isLt; have := t.isLt; have := sg.isLt; have := bool_lt sw
  refine ⟨by omega, (congrArg (opcodeE w) (show w / 0x100000 % 256 = 0x0A by omega)).trans ?_⟩
  show some (Instr.accnorm (fieldAt w 28 4) (fieldAt w 17 3) (fieldAt w 13 4) (fieldAt w 11 2) (bitAt w 10)) = _
  rw [field_eq w 28 g (by omega), field_eq w 17 acc (by omega), field_eq w 13 t (by omega), field_eq w 11 sg (by omega), bit_eq w 10 sw (by omega)]

theorem accchk (g : BitVec 4) (acc : BitVec 3) : Statement (.accchk g acc) := by
  refine codec_of rfl (fun w hw => ?_)
  change w = 0x00B00000 + g.toNat * 0x10000000 + acc.toNat * 0x20000 at hw
  have := g.isLt; have := acc.isLt
  refine ⟨by omega, (congrArg (opcodeE w) (show w / 0x100000 % 256 = 0x0B by omega)).trans ?_⟩
  show some (Instr.accchk (fieldAt w 28 4) (fieldAt w 17 3)) = _
  rw [field_eq w 28 g (by omega), field_eq w 17 acc (by omega)]

theorem accdrain (g : BitVec 4) (acc : BitVec 3) (t : BitVec 4) (sg : BitVec 2) (sw : Bool) (fmt : BitVec 4) (q : BitVec 3) (x : BitVec 3) : Statement (.accdrain g acc t sg sw fmt q x) := by
  refine codec_of rfl (fun w hw => ?_)
  change w = 0x00C00000 + g.toNat * 0x10000000 + acc.toNat * 0x20000 + t.toNat * 0x2000 + sg.toNat * 0x800 + sw.toNat * 0x400 + fmt.toNat * 0x40 + q.toNat * 0x8 + x.toNat at hw
  have := g.isLt; have := acc.isLt; have := t.isLt; have := sg.isLt; have := bool_lt sw; have := fmt.isLt; have := q.isLt; have := x.isLt
  refine ⟨by omega, (congrArg (opcodeE w) (show w / 0x100000 % 256 = 0x0C by omega)).trans ?_⟩
  show some (Instr.accdrain (fieldAt w 28 4) (fieldAt w 17 3) (fieldAt w 13 4) (fieldAt w 11 2) (bitAt w 10) (fieldAt w 6 4) (fieldAt w 3 3) (fieldAt w 0 3)) = _
  rw [field_eq w 28 g (by omega), field_eq w 17 acc (by omega), field_eq w 13 t (by omega), field_eq w 11 sg (by omega), bit_eq w 10 sw (by omega), field_eq w 6 fmt (by omega), field_eq w 3 q (by omega), field_eq w 0 x (by omega)]

theorem fold (g : BitVec 4) (acc : BitVec 3) (sg : BitVec 2) (sw : Bool) : Statement (.fold g acc sg sw) := by
  refine codec_of rfl (fun w hw => ?_)
  change w = 0x00D00000 + g.toNat * 0x10000000 + acc.toNat * 0x20000 + sg.toNat * 0x800 + sw.toNat * 0x400 at hw
  have := g.isLt; have := acc.isLt; have := sg.isLt; have := bool_lt sw
  refine ⟨by omega, (congrArg (opcodeE w) (show w / 0x100000 % 256 = 0x0D by omega)).trans ?_⟩
  show some (Instr.fold (fieldAt w 28 4) (fieldAt w 17 3) (fieldAt w 11 2) (bitAt w 10)) = _
  rw [field_eq w 28 g (by omega), field_eq w 17 acc (by omega), field_eq w 11 sg (by omega), bit_eq w 10 sw (by omega)]

theorem tadd (g : BitVec 4) (vd : BitVec 4) (va : BitVec 4) (vb : BitVec 4) (fmt : BitVec 4) (sg : BitVec 2) (sw : Bool) : Statement (.tadd g vd va vb fmt sg sw) := by
  refine codec_of rfl (fun w hw => ?_)
  change w = 0x01000000 + g.toNat * 0x10000000 + vd.toNat * 0x10000 + va.toNat * 0x1000 + vb.toNat * 0x100 + fmt.toNat * 0x10 + sg.toNat * 0x4 + sw.toNat * 0x2 at hw
  have := g.isLt; have := vd.isLt; have := va.isLt; have := vb.isLt; have := fmt.isLt; have := sg.isLt; have := bool_lt sw
  refine ⟨by omega, (congrArg (opcodeE w) (show w / 0x100000 % 256 = 0x10 by omega)).trans ?_⟩
  show some (Instr.tadd (fieldAt w 28 4) (fieldAt w 16 4) (fieldAt w 12 4) (fieldAt w 8 4) (fieldAt w 4 4) (fieldAt w 2 2) (bitAt w 1)) = _
  rw [field_eq w 28 g (by omega), field_eq w 16 vd (by omega), field_eq w 12 va (by omega), field_eq w 8 vb (by omega), field_eq w 4 fmt (by omega), field_eq w 2 sg (by omega), bit_eq w 1 sw (by omega)]

theorem tsub (g : BitVec 4) (vd : BitVec 4) (va : BitVec 4) (vb : BitVec 4) (fmt : BitVec 4) (sg : BitVec 2) (sw : Bool) : Statement (.tsub g vd va vb fmt sg sw) := by
  refine codec_of rfl (fun w hw => ?_)
  change w = 0x01100000 + g.toNat * 0x10000000 + vd.toNat * 0x10000 + va.toNat * 0x1000 + vb.toNat * 0x100 + fmt.toNat * 0x10 + sg.toNat * 0x4 + sw.toNat * 0x2 at hw
  have := g.isLt; have := vd.isLt; have := va.isLt; have := vb.isLt; have := fmt.isLt; have := sg.isLt; have := bool_lt sw
  refine ⟨by omega, (congrArg (opcodeE w) (show w / 0x100000 % 256 = 0x11 by omega)).trans ?_⟩
  show some (Instr.tsub (fieldAt w 28 4) (fieldAt w 16 4) (fieldAt w 12 4) (fieldAt w 8 4) (fieldAt w 4 4) (fieldAt w 2 2) (bitAt w 1)) = _
  rw [field_eq w 28 g (by omega), field_eq w 16 vd (by omega), field_eq w 12 va (by omega), field_eq w 8 vb (by omega), field_eq w 4 fmt (by omega), field_eq w 2 sg (by omega), bit_eq w 1 sw (by omega)]

theorem tmul (g : BitVec 4) (vd : BitVec 4) (va : BitVec 4) (vb : BitVec 4) (fmt : BitVec 4) (sg : BitVec 2) (sw : Bool) : Statement (.tmul g vd va vb fmt sg sw) := by
  refine codec_of rfl (fun w hw => ?_)
  change w = 0x01200000 + g.toNat * 0x10000000 + vd.toNat * 0x10000 + va.toNat * 0x1000 + vb.toNat * 0x100 + fmt.toNat * 0x10 + sg.toNat * 0x4 + sw.toNat * 0x2 at hw
  have := g.isLt; have := vd.isLt; have := va.isLt; have := vb.isLt; have := fmt.isLt; have := sg.isLt; have := bool_lt sw
  refine ⟨by omega, (congrArg (opcodeE w) (show w / 0x100000 % 256 = 0x12 by omega)).trans ?_⟩
  show some (Instr.tmul (fieldAt w 28 4) (fieldAt w 16 4) (fieldAt w 12 4) (fieldAt w 8 4) (fieldAt w 4 4) (fieldAt w 2 2) (bitAt w 1)) = _
  rw [field_eq w 28 g (by omega), field_eq w 16 vd (by omega), field_eq w 12 va (by omega), field_eq w 8 vb (by omega), field_eq w 4 fmt (by omega), field_eq w 2 sg (by omega), bit_eq w 1 sw (by omega)]

theorem tmax (g : BitVec 4) (vd : BitVec 4) (va : BitVec 4) (vb : BitVec 4) (fmt : BitVec 4) (sg : BitVec 2) (sw : Bool) : Statement (.tmax g vd va vb fmt sg sw) := by
  refine codec_of rfl (fun w hw => ?_)
  change w = 0x01300000 + g.toNat * 0x10000000 + vd.toNat * 0x10000 + va.toNat * 0x1000 + vb.toNat * 0x100 + fmt.toNat * 0x10 + sg.toNat * 0x4 + sw.toNat * 0x2 at hw
  have := g.isLt; have := vd.isLt; have := va.isLt; have := vb.isLt; have := fmt.isLt; have := sg.isLt; have := bool_lt sw
  refine ⟨by omega, (congrArg (opcodeE w) (show w / 0x100000 % 256 = 0x13 by omega)).trans ?_⟩
  show some (Instr.tmax (fieldAt w 28 4) (fieldAt w 16 4) (fieldAt w 12 4) (fieldAt w 8 4) (fieldAt w 4 4) (fieldAt w 2 2) (bitAt w 1)) = _
  rw [field_eq w 28 g (by omega), field_eq w 16 vd (by omega), field_eq w 12 va (by omega), field_eq w 8 vb (by omega), field_eq w 4 fmt (by omega), field_eq w 2 sg (by omega), bit_eq w 1 sw (by omega)]

theorem tred (g : BitVec 4) (vd : BitVec 4) (va : BitVec 4) (fmt : BitVec 4) (sg : BitVec 2) (sw : Bool) : Statement (.tred g vd va fmt sg sw) := by
  refine codec_of rfl (fun w hw => ?_)
  change w = 0x01400000 + g.toNat * 0x10000000 + vd.toNat * 0x10000 + va.toNat * 0x1000 + fmt.toNat * 0x10 + sg.toNat * 0x4 + sw.toNat * 0x2 at hw
  have := g.isLt; have := vd.isLt; have := va.isLt; have := fmt.isLt; have := sg.isLt; have := bool_lt sw
  refine ⟨by omega, (congrArg (opcodeE w) (show w / 0x100000 % 256 = 0x14 by omega)).trans ?_⟩
  show some (Instr.tred (fieldAt w 28 4) (fieldAt w 16 4) (fieldAt w 12 4) (fieldAt w 4 4) (fieldAt w 2 2) (bitAt w 1)) = _
  rw [field_eq w 28 g (by omega), field_eq w 16 vd (by omega), field_eq w 12 va (by omega), field_eq w 4 fmt (by omega), field_eq w 2 sg (by omega), bit_eq w 1 sw (by omega)]

theorem tmv (g : BitVec 4) (vd : BitVec 4) (va : BitVec 4) (vb : BitVec 4) (fmt : BitVec 4) (sg : BitVec 2) (sw : Bool) : Statement (.tmv g vd va vb fmt sg sw) := by
  refine codec_of rfl (fun w hw => ?_)
  change w = 0x01500000 + g.toNat * 0x10000000 + vd.toNat * 0x10000 + va.toNat * 0x1000 + vb.toNat * 0x100 + fmt.toNat * 0x10 + sg.toNat * 0x4 + sw.toNat * 0x2 at hw
  have := g.isLt; have := vd.isLt; have := va.isLt; have := vb.isLt; have := fmt.isLt; have := sg.isLt; have := bool_lt sw
  refine ⟨by omega, (congrArg (opcodeE w) (show w / 0x100000 % 256 = 0x15 by omega)).trans ?_⟩
  show some (Instr.tmv (fieldAt w 28 4) (fieldAt w 16 4) (fieldAt w 12 4) (fieldAt w 8 4) (fieldAt w 4 4) (fieldAt w 2 2) (bitAt w 1)) = _
  rw [field_eq w 28 g (by omega), field_eq w 16 vd (by omega), field_eq w 12 va (by omega), field_eq w 8 vb (by omega), field_eq w 4 fmt (by omega), field_eq w 2 sg (by omega), bit_eq w 1 sw (by omega)]

theorem tmm (g : BitVec 4) (vd : BitVec 4) (va : BitVec 4) (vb : BitVec 4) (fmt : BitVec 4) (sg : BitVec 2) (sw : Bool) : Statement (.tmm g vd va vb fmt sg sw) := by
  refine codec_of rfl (fun w hw => ?_)
  change w = 0x01600000 + g.toNat * 0x10000000 + vd.toNat * 0x10000 + va.toNat * 0x1000 + vb.toNat * 0x100 + fmt.toNat * 0x10 + sg.toNat * 0x4 + sw.toNat * 0x2 at hw
  have := g.isLt; have := vd.isLt; have := va.isLt; have := vb.isLt; have := fmt.isLt; have := sg.isLt; have := bool_lt sw
  refine ⟨by omega, (congrArg (opcodeE w) (show w / 0x100000 % 256 = 0x16 by omega)).trans ?_⟩
  show some (Instr.tmm (fieldAt w 28 4) (fieldAt w 16 4) (fieldAt w 12 4) (fieldAt w 8 4) (fieldAt w 4 4) (fieldAt w 2 2) (bitAt w 1)) = _
  rw [field_eq w 28 g (by omega), field_eq w 16 vd (by omega), field_eq w 12 va (by omega), field_eq w 8 vb (by omega), field_eq w 4 fmt (by omega), field_eq w 2 sg (by omega), bit_eq w 1 sw (by omega)]

theorem pabm (g : BitVec 4) (a : BitVec 6) (t : BitVec 4) (rs : BitVec 4) : Statement (.pabm g a t rs) := by
  refine codec_of rfl (fun w hw => ?_)
  change w = 0x01800000 + g.toNat * 0x10000000 + a.toNat * 0x4000 + t.toNat * 0x400 + rs.toNat * 0x40 at hw
  have := g.isLt; have := a.isLt; have := t.isLt; have := rs.isLt
  refine ⟨by omega, (congrArg (opcodeE w) (show w / 0x100000 % 256 = 0x18 by omega)).trans ?_⟩
  show some (Instr.pabm (fieldAt w 28 4) (fieldAt w 14 6) (fieldAt w 10 4) (fieldAt w 6 4)) = _
  rw [field_eq w 28 g (by omega), field_eq w 14 a (by omega), field_eq w 10 t (by omega), field_eq w 6 rs (by omega)]

theorem pbcast (g : BitVec 4) (a : BitVec 6) (t : BitVec 4) (rs : BitVec 4) : Statement (.pbcast g a t rs) := by
  refine codec_of rfl (fun w hw => ?_)
  change w = 0x01900004 + g.toNat * 0x10000000 + a.toNat * 0x4000 + t.toNat * 0x400 + rs.toNat * 0x40 at hw
  have := g.isLt; have := a.isLt; have := t.isLt; have := rs.isLt
  refine ⟨by omega, (congrArg (opcodeE w) (show w / 0x100000 % 256 = 0x19 by omega)).trans ?_⟩
  show some (Instr.pbcast (fieldAt w 28 4) (fieldAt w 14 6) (fieldAt w 10 4) (fieldAt w 6 4)) = _
  rw [field_eq w 28 g (by omega), field_eq w 14 a (by omega), field_eq w 10 t (by omega), field_eq w 6 rs (by omega)]

theorem pmac (g : BitVec 4) (a : BitVec 6) (t : BitVec 4) (rs : BitVec 4) : Statement (.pmac g a t rs) := by
  refine codec_of rfl (fun w hw => ?_)
  change w = 0x01A00004 + g.toNat * 0x10000000 + a.toNat * 0x4000 + t.toNat * 0x400 + rs.toNat * 0x40 at hw
  have := g.isLt; have := a.isLt; have := t.isLt; have := rs.isLt
  refine ⟨by omega, (congrArg (opcodeE w) (show w / 0x100000 % 256 = 0x1A by omega)).trans ?_⟩
  show some (Instr.pmac (fieldAt w 28 4) (fieldAt w 14 6) (fieldAt w 10 4) (fieldAt w 6 4)) = _
  rw [field_eq w 28 g (by omega), field_eq w 14 a (by omega), field_eq w 10 t (by omega), field_eq w 6 rs (by omega)]

theorem pread (g : BitVec 4) (a : BitVec 6) (t : BitVec 4) (rs : BitVec 4) : Statement (.pread g a t rs) := by
  refine codec_of rfl (fun w hw => ?_)
  change w = 0x01B00000 + g.toNat * 0x10000000 + a.toNat * 0x4000 + t.toNat * 0x400 + rs.toNat * 0x40 at hw
  have := g.isLt; have := a.isLt; have := t.isLt; have := rs.isLt
  refine ⟨by omega, (congrArg (opcodeE w) (show w / 0x100000 % 256 = 0x1B by omega)).trans ?_⟩
  show some (Instr.pread (fieldAt w 28 4) (fieldAt w 14 6) (fieldAt w 10 4) (fieldAt w 6 4)) = _
  rw [field_eq w 28 g (by omega), field_eq w 14 a (by omega), field_eq w 10 t (by omega), field_eq w 6 rs (by omega)]

theorem pexit (g : BitVec 4) (a : BitVec 6) : Statement (.pexit g a) := by
  refine codec_of rfl (fun w hw => ?_)
  change w = 0x01C00000 + g.toNat * 0x10000000 + a.toNat * 0x4000 at hw
  have := g.isLt; have := a.isLt
  refine ⟨by omega, (congrArg (opcodeE w) (show w / 0x100000 % 256 = 0x1C by omega)).trans ?_⟩
  show some (Instr.pexit (fieldAt w 28 4) (fieldAt w 14 6)) = _
  rw [field_eq w 28 g (by omega), field_eq w 14 a (by omega)]

theorem shpset (g : BitVec 4) (sg : BitVec 2) (fld : BitVec 4) (imm : BitVec 14) : Statement (.shpset g sg fld imm) := by
  refine codec_of rfl (fun w hw => ?_)
  change w = 0x00100000 + g.toNat * 0x10000000 + sg.toNat * 0x40000 + fld.toNat * 0x4000 + imm.toNat at hw
  have := g.isLt; have := sg.isLt; have := fld.isLt; have := imm.isLt
  refine ⟨by omega, (congrArg (opcodeK w) (show w / 0x100000 % 256 = 0x01 by omega)).trans ?_⟩
  show some (Instr.shpset (fieldAt w 28 4) (fieldAt w 18 2) (fieldAt w 14 4) (fieldAt w 0 14)) = _
  rw [field_eq w 28 g (by omega), field_eq w 18 sg (by omega), field_eq w 14 fld (by omega), field_eq w 0 imm (by omega)]

theorem shpcpy (g : BitVec 4) (sg : BitVec 2) : Statement (.shpcpy g sg) := by
  refine codec_of rfl (fun w hw => ?_)
  change w = 0x00200000 + g.toNat * 0x10000000 + sg.toNat * 0x40000 at hw
  have := g.isLt; have := sg.isLt
  refine ⟨by omega, (congrArg (opcodeK w) (show w / 0x100000 % 256 = 0x02 by omega)).trans ?_⟩
  show some (Instr.shpcpy (fieldAt w 28 4) (fieldAt w 18 2)) = _
  rw [field_eq w 28 g (by omega), field_eq w 18 sg (by omega)]

theorem qld (g : BitVec 4) (q : BitVec 3) (a : BitVec 6) (n : BitVec 6) : Statement (.qld g q a n) := by
  refine codec_of rfl (fun w hw => ?_)
  change w = 0x00400000 + g.toNat * 0x10000000 + q.toNat * 0x20000 + a.toNat * 0x800 + n.toNat * 0x20 at hw
  have := g.isLt; have := q.isLt; have := a.isLt; have := n.isLt
  refine ⟨by omega, (congrArg (opcodeK w) (show w / 0x100000 % 256 = 0x04 by omega)).trans ?_⟩
  show some (Instr.qld (fieldAt w 28 4) (fieldAt w 17 3) (fieldAt w 11 6) (fieldAt w 5 6)) = _
  rw [field_eq w 28 g (by omega), field_eq w 17 q (by omega), field_eq w 11 a (by omega), field_eq w 5 n (by omega)]

theorem qset (g : BitVec 4) (q : BitVec 3) (a : BitVec 6) (n : BitVec 6) : Statement (.qset g q a n) := by
  refine codec_of rfl (fun w hw => ?_)
  change w = 0x00500000 + g.toNat * 0x10000000 + q.toNat * 0x20000 + a.toNat * 0x800 + n.toNat * 0x20 at hw
  have := g.isLt; have := q.isLt; have := a.isLt; have := n.isLt
  refine ⟨by omega, (congrArg (opcodeK w) (show w / 0x100000 % 256 = 0x05 by omega)).trans ?_⟩
  show some (Instr.qset (fieldAt w 28 4) (fieldAt w 17 3) (fieldAt w 11 6) (fieldAt w 5 6)) = _
  rw [field_eq w 28 g (by omega), field_eq w 17 q (by omega), field_eq w 11 a (by omega), field_eq w 5 n (by omega)]

theorem qzero (g : BitVec 4) (q : BitVec 3) : Statement (.qzero g q) := by
  refine codec_of rfl (fun w hw => ?_)
  change w = 0x00600000 + g.toNat * 0x10000000 + q.toNat * 0x20000 at hw
  have := g.isLt; have := q.isLt
  refine ⟨by omega, (congrArg (opcodeK w) (show w / 0x100000 % 256 = 0x06 by omega)).trans ?_⟩
  show some (Instr.qzero (fieldAt w 28 4) (fieldAt w 17 3)) = _
  rw [field_eq w 28 g (by omega), field_eq w 17 q (by omega)]

theorem vfset (g : BitVec 4) (v : BitVec 4) (fld : BitVec 4) (a : BitVec 6) : Statement (.vfset g v fld a) := by
  refine codec_of rfl (fun w hw => ?_)
  change w = 0x00800000 + g.toNat * 0x10000000 + v.toNat * 0x10000 + fld.toNat * 0x1000 + a.toNat * 0x40 at hw
  have := g.isLt; have := v.isLt; have := fld.isLt; have := a.isLt
  refine ⟨by omega, (congrArg (opcodeK w) (show w / 0x100000 % 256 = 0x08 by omega)).trans ?_⟩
  show some (Instr.vfset (fieldAt w 28 4) (fieldAt w 16 4) (fieldAt w 12 4) (fieldAt w 6 6)) = _
  rw [field_eq w 28 g (by omega), field_eq w 16 v (by omega), field_eq w 12 fld (by omega), field_eq w 6 a (by omega)]

theorem vfseti (g : BitVec 4) (v : BitVec 4) (fld : BitVec 4) (imm : BitVec 12) : Statement (.vfseti g v fld imm) := by
  refine codec_of rfl (fun w hw => ?_)
  change w = 0x00900000 + g.toNat * 0x10000000 + v.toNat * 0x10000 + fld.toNat * 0x1000 + imm.toNat at hw
  have := g.isLt; have := v.isLt; have := fld.isLt; have := imm.isLt
  refine ⟨by omega, (congrArg (opcodeK w) (show w / 0x100000 % 256 = 0x09 by omega)).trans ?_⟩
  show some (Instr.vfseti (fieldAt w 28 4) (fieldAt w 16 4) (fieldAt w 12 4) (fieldAt w 0 12)) = _
  rw [field_eq w 28 g (by omega), field_eq w 16 v (by omega), field_eq w 12 fld (by omega), field_eq w 0 imm (by omega)]

theorem bndset (g : BitVec 4) (v : BitVec 4) (a : BitVec 6) (b : BitVec 6) : Statement (.bndset g v a b) := by
  refine codec_of rfl (fun w hw => ?_)
  change w = 0x00C00000 + g.toNat * 0x10000000 + v.toNat * 0x10000 + a.toNat * 0x400 + b.toNat * 0x10 at hw
  have := g.isLt; have := v.isLt; have := a.isLt; have := b.isLt
  refine ⟨by omega, (congrArg (opcodeK w) (show w / 0x100000 % 256 = 0x0C by omega)).trans ?_⟩
  show some (Instr.bndset (fieldAt w 28 4) (fieldAt w 16 4) (fieldAt w 10 6) (fieldAt w 4 6)) = _
  rw [field_eq w 28 g (by omega), field_eq w 16 v (by omega), field_eq w 10 a (by omega), field_eq w 4 b (by omega)]

theorem bndoff (g : BitVec 4) (v : BitVec 4) : Statement (.bndoff g v) := by
  refine codec_of rfl (fun w hw => ?_)
  change w = 0x00D00000 + g.toNat * 0x10000000 + v.toNat * 0x10000 at hw
  have := g.isLt; have := v.isLt
  refine ⟨by omega, (congrArg (opcodeK w) (show w / 0x100000 % 256 = 0x0D by omega)).trans ?_⟩
  show some (Instr.bndoff (fieldAt w 28 4) (fieldAt w 16 4)) = _
  rw [field_eq w 28 g (by omega), field_eq w 16 v (by omega)]

theorem vrow (sl : Bool) (rd : BitVec 6) (ra : BitVec 6) (rb : BitVec 6) : Statement (.vrow sl rd ra rb) := by
  refine codec_of rfl (fun w hw => ?_)
  change w = 0x01000000 + sl.toNat * 0x80000 + rd.toNat * 0x2000 + ra.toNat * 0x80 + rb.toNat * 0x2 at hw
  have := bool_lt sl; have := rd.isLt; have := ra.isLt; have := rb.isLt
  refine ⟨by omega, (congrArg (opcodeK w) (show w / 0x100000 % 256 = 0x10 by omega)).trans ?_⟩
  show some (Instr.vrow (bitAt w 19) (fieldAt w 13 6) (fieldAt w 7 6) (fieldAt w 1 6)) = _
  rw [bit_eq w 19 sl (by omega), field_eq w 13 rd (by omega), field_eq w 7 ra (by omega), field_eq w 1 rb (by omega)]

theorem ximm (tgt : BitVec 3) (e : BitVec 20) : Statement (.ximm tgt e) := by
  refine codec_of rfl (fun w hw => ?_)
  change w = 0x0F800000 + tgt.toNat * 0x100000 + e.toNat at hw
  have := tgt.isLt; have := e.isLt
  refine ⟨by omega, (congrArg (opcodeK w) (show w / 0x100000 % 256 = 0xF8 + tgt.toNat by omega)).trans ?_⟩
  have ht := field_eq w 20 tgt (by omega)
  have he := field_eq w 0 e (by omega)
  have hk : tgt.toNat = 0 ∨ tgt.toNat = 1 ∨ tgt.toNat = 2 ∨ tgt.toNat = 3 ∨ tgt.toNat = 4 ∨ tgt.toNat = 5 ∨ tgt.toNat = 6 ∨ tgt.toNat = 7 := by omega
  have hx : some (Instr.ximm (fieldAt w 20 3) (fieldAt w 0 20)) = some (.ximm tgt e) := by rw [ht, he]
  rcases hk with h | h | h | h | h | h | h | h <;> rw [h] <;> exact hx

theorem messageDelivery (op : Nat) : Statement (.messageDelivery op) := rfl

theorem owedResponseTimeout (resp : Nat) : Statement (.owedResponseTimeout resp) := rfl

theorem atsInvalidationAnswer (dest : Nat) : Statement (.atsInvalidationAnswer dest) := rfl

theorem sqctlFreeze : Statement (.sqctlFreeze) := rfl

theorem sqctlUnfreeze : Statement (.sqctlUnfreeze) := rfl

theorem sqctlStep : Statement (.sqctlStep) := rfl

theorem sqctlResume : Statement (.sqctlResume) := rfl

theorem sqctlResumeSkip : Statement (.sqctlResumeSkip) := rfl

theorem sliceWaymaskWrite : Statement (.sliceWaymaskWrite) := rfl

theorem remoteWaysWrite : Statement (.remoteWaysWrite) := rfl

theorem xlinvGo : Statement (.xlinvGo) := rfl

theorem ringdWrite : Statement (.ringdWrite) := rfl

theorem taskcmdRelease : Statement (.taskcmdRelease) := rfl

theorem taskcmdKill : Statement (.taskcmdKill) := rfl

theorem hqctlWrite : Statement (.hqctlWrite) := rfl

theorem notify : Statement (.notify) := rfl

theorem queueSlotAdmit : Statement (.queueSlotAdmit) := rfl

theorem sensorSample : Statement (.sensorSample) := rfl

theorem zctlEvac : Statement (.zctlEvac) := rfl

theorem zctlReturn : Statement (.zctlReturn) := rfl

theorem zctlWrite : Statement (.zctlWrite) := rfl

theorem trctlWrite : Statement (.trctlWrite) := rfl

theorem capstart : Statement (.capstart) := rfl

theorem capstop : Statement (.capstop) := rfl

theorem rpctlWrite : Statement (.rpctlWrite) := rfl

theorem podidWrite : Statement (.podidWrite) := rfl

theorem destWrite : Statement (.destWrite) := rfl

theorem destFencedClear : Statement (.destFencedClear) := rfl

theorem gtTimeMessageSend : Statement (.gtTimeMessageSend) := rfl

theorem powerUp : Statement (.powerUp) := rfl

theorem packageReset : Statement (.packageReset) := rfl

theorem powerOff : Statement (.powerOff) := rfl

theorem bootstatGo : Statement (.bootstatGo) := rfl

theorem bootstatSvnset : Statement (.bootstatSvnset) := rfl

theorem attctlGo : Statement (.attctlGo) := rfl

theorem attestationComplete : Statement (.attestationComplete) := rfl

theorem registerWrite : Statement (.registerWrite) := rfl

end Sys2Proof.Laws.Codec
end

