-- ==== Sys2Proof/Laws/Rows.lean ====
section
/-! SUPPORT. Sys2Proof/Laws/Rows.lean: what the elements of a row are that an operation has put together from its elements (R92, R129). -/

namespace Sys2Proof.Machine

theorem fmtWidth_le (f : Nat) : fmtWidth f ≤ fmtStride f := by
  unfold fmtStride fmtWidth
  split <;> decide

theorem fmtStride_pos (f : Nat) : 0 < fmtStride f := by
  unfold fmtStride fmtWidth
  split <;> decide

theorem fmtCount_stride (f : Nat) : fmtStride f * fmtCount f = 2048 := by
  unfold fmtCount fmtStride fmtWidth
  split <;> decide

theorem fmtCount_pos (f : Nat) : 0 < fmtCount f := by
  unfold fmtCount fmtStride fmtWidth
  split <;> decide

theorem packBits_lt (f : Nat) (l : List Nat) : packBits f l < 2 ^ (fmtStride f * l.length) := by
  induction l with
  | nil => simp [packBits]
  | cons c rest ih =>
    have hc : c % 2 ^ fmtWidth f < 2 ^ fmtStride f :=
      Nat.lt_of_lt_of_le (Nat.mod_lt _ (Nat.two_pow_pos _)) (Nat.pow_le_pow_right (by decide) (fmtWidth_le f))
    have hp : 2 ^ (fmtStride f * (rest.length + 1)) = 2 ^ (fmtStride f * rest.length) * 2 ^ fmtStride f := by
      rw [Nat.mul_add, Nat.mul_one, Nat.pow_add]
    simp only [packBits, List.length_cons]
    rw [hp]
    calc c % 2 ^ fmtWidth f + packBits f rest * 2 ^ fmtStride f
        < 2 ^ fmtStride f + packBits f rest * 2 ^ fmtStride f := by omega
      _ = (packBits f rest + 1) * 2 ^ fmtStride f := by rw [Nat.add_mul, Nat.one_mul, Nat.add_comm]
      _ ≤ 2 ^ (fmtStride f * rest.length) * 2 ^ fmtStride f := Nat.mul_le_mul_right _ ih

theorem packBits_elem (f : Nat) (l : List Nat) (k : Nat) :
    packBits f l / 2 ^ (fmtStride f * k) % 2 ^ fmtWidth f = l.getD k 0 % 2 ^ fmtWidth f := by
  induction l generalizing k with
  | nil => simp [packBits]
  | cons c rest ih =>
    have hw : 2 ^ fmtStride f = 2 ^ fmtWidth f * 2 ^ (fmtStride f - fmtWidth f) := by
      rw [← Nat.pow_add, Nat.add_sub_cancel' (fmtWidth_le f)]
    cases k with
    | zero =>
      simp only [packBits, Nat.mul_zero, Nat.pow_zero, Nat.div_one, List.getD_cons_zero]
      rw [hw, Nat.mul_left_comm, Nat.add_mul_mod_self_left, Nat.mod_mod]
    | succ k =>
      have hc : c % 2 ^ fmtWidth f < 2 ^ fmtStride f :=
        Nat.lt_of_lt_of_le (Nat.mod_lt _ (Nat.two_pow_pos _)) (Nat.pow_le_pow_right (by decide) (fmtWidth_le f))
      simp only [packBits, List.getD_cons_succ]
      rw [Nat.mul_add, Nat.mul_one, Nat.add_comm (fmtStride f * k), Nat.pow_add, ← Nat.div_div_eq_div_mul,
        Nat.add_mul_div_right _ _ (Nat.two_pow_pos _), Nat.div_eq_of_lt hc, Nat.zero_add]
      exact ih k

/-- Every element of a row that an operation puts together is the low bits of its code. -/
theorem elemAt_rowOf (f : Nat) (c : Nat → Nat) (k : Nat) (h : k < fmtCount f) : elemAt f (rowOf f c) k = c k % 2 ^ fmtWidth f := by
  have hlt : packBits f ((List.range (fmtCount f)).map c) < 2 ^ 2048 := by
    have := packBits_lt f ((List.range (fmtCount f)).map c)
    rw [List.length_map, List.length_range, fmtCount_stride] at this
    exact this
  simp only [elemAt, rowOf, BitVec.toNat_ofNat, Nat.mod_eq_of_lt hlt, packBits_elem]
  rw [List.getD_eq_getElem?_getD, List.getElem?_map, List.getElem?_range h]
  rfl

/-- The row of an operation with flags is the row of the codes. -/
theorem rowOfFlags_row (f : Nat) (c : Nat → Nat × Flags) : (rowOfFlags f c).1 = rowOf f (fun k => (c k).1) := by
  simp [rowOfFlags, rowOf, Function.comp_def]

/-- The flags of an operation are the union of the elements'. -/
theorem rowOfFlags_flags (f : Nat) (c : Nat → Nat × Flags) :
    (rowOfFlags f c).2 = (List.range (fmtCount f)).foldl (fun a k => a ||| (c k).2) 0 := by
  simp [rowOfFlags, List.foldl_map]

theorem elemAt_lt (f : Nat) (r : Row) (k : Nat) : elemAt f r k < 2 ^ fmtWidth f := Nat.mod_lt _ (Nat.two_pow_pos _)

/-- A list of elements without flags raises none. -/
theorem noFlags (l : List Nat) : l.foldl (fun (a : Flags) _ => a ||| 0) 0 = 0 := by
  induction l with
  | nil => rfl
  | cons _ _ ih => simpa using ih

/-- R146: a row with one element replaced. -/
theorem elemAt_rowPut (f : Nat) (r : Row) (e x k : Nat) (he : e < fmtCount f) (hk : k < fmtCount f) :
    elemAt f (rowPut r (fmtStride f * e) (fmtStride f) (BitVec.ofNat (fmtStride f) x)) k =
      if k = e then x % 2 ^ fmtWidth f else elemAt f r k := by
  have hs := fmtCount_stride f
  have hw := fmtWidth_le f
  have hpos := fmtStride_pos f
  have hbound : ∀ i j : Nat, j < fmtCount f → i < fmtWidth f → i + fmtStride f * j < 2048 := by
    intro i j hj hi
    have := Nat.mul_le_mul_left (fmtStride f) (Nat.succ_le_of_lt hj)
    rw [Nat.succ_eq_add_one, Nat.mul_add, Nat.mul_one, hs] at this
    omega
  have hbits : ∀ (y : Row) (j i : Nat), i < fmtWidth f → (elemAt f y j).testBit i = y.getLsbD (i + fmtStride f * j) := by
    intro y j i hi
    simp [elemAt, Nat.testBit_mod_two_pow, hi, Nat.testBit_div_two_pow, BitVec.testBit_toNat]
  have hrow : ∀ i, i < fmtWidth f → (rowPut r (fmtStride f * e) (fmtStride f) (BitVec.ofNat (fmtStride f) x)).getLsbD (i + fmtStride f * k) =
      if k = e then x.testBit i else r.getLsbD (i + fmtStride f * k) := by
    intro i hi
    have hb := hbound i k hk hi
    by_cases h : k = e
    · subst h
      have hn : ¬ i + fmtStride f * k < fmtStride f * k := by omega
      simp [rowPut, hb, hn, show i < fmtStride f by omega]
      rw [BitVec.getElem_eq_testBit_toNat, BitVec.toNat_ofNat, Nat.testBit_mod_two_pow]
      simp [show i < fmtStride f by omega]
    · simp only [h, if_false, rowPut, BitVec.getLsbD_or, BitVec.getLsbD_and, BitVec.getLsbD_not, BitVec.getLsbD_shiftLeft, BitVec.getLsbD_setWidth,
        BitVec.getLsbD_allOnes, BitVec.getLsbD_ofNat, hb, decide_true, Bool.true_and]
      rcases Nat.lt_or_gt_of_ne h with hlt | hgt
      · have := Nat.mul_le_mul_left (fmtStride f) (Nat.succ_le_of_lt hlt)
        rw [Nat.succ_eq_add_one, Nat.mul_add, Nat.mul_one] at this
        simp [show i + fmtStride f * k < fmtStride f * e by omega]
      · have := Nat.mul_le_mul_left (fmtStride f) (Nat.succ_le_of_lt hgt)
        rw [Nat.succ_eq_add_one, Nat.mul_add, Nat.mul_one] at this
        simp [show ¬ i + fmtStride f * k < fmtStride f * e by omega, show ¬ i + fmtStride f * k - fmtStride f * e < fmtStride f by omega]
  apply Nat.eq_of_testBit_eq
  intro i
  by_cases hi : i < fmtWidth f
  · rw [hbits _ _ _ hi, hrow i hi]
    split
    · simp [Nat.testBit_mod_two_pow, hi]
    · rw [hbits _ _ _ hi]
  · have hz : ∀ y : Nat, y < 2 ^ fmtWidth f → y.testBit i = false := by
      intro y hy
      exact Nat.testBit_lt_two_pow (Nat.lt_of_lt_of_le hy (Nat.pow_le_pow_right (by decide) (by omega)))
    rw [hz _ (elemAt_lt f _ k)]
    split
    · rw [hz _ (Nat.mod_lt _ (Nat.two_pow_pos _))]
    · rw [hz _ (elemAt_lt f _ k)]

end Sys2Proof.Machine
end

