-- ==== Sys2Proof/Laws/Slot.lean ====
section
/-! SUPPORT. Sys2Proof/Laws/Slot.lean: everything that slotStep, the frame of the slot instructions, can answer. -/

namespace Sys2Proof.Machine

/-- R15: a false guard. -/
theorem slotStep_off {i : Instr} {s : State} {body : State → Except SlotFault State} (h : guardTrue (me s).preds (guardOf i) = false) :
    slotStep i s body = .next s := by
  simp [slotStep, h]

/-- A ready instruction whose own effect takes place. -/
theorem slotStep_run {i : Instr} {s t : State} {body : State → Except SlotFault State} (h : slotReady i s = true) (hb : body s = .ok t) :
    slotStep i s body = .next (takePops (readsOf (me s) i) t) := by
  simp only [slotReady, Bool.and_eq_true, Bool.or_eq_true] at h
  unfold slotStep
  rw [hb]
  simp only [h.1, Bool.true_eq_false, if_false]
  cases hi : (me s).issue with
  | some c => rfl
  | none =>
    simp only [hi, Option.isSome_none, Bool.false_eq_true, false_or, Option.isNone_iff_eq_none] at h
    simp [h.2.1, h.2.2]

/-- A ready instruction whose own effect is a slot fault. -/
theorem slotStep_fault {i : Instr} {s : State} {f : SlotFault} {body : State → Except SlotFault State} (h : slotReady i s = true)
    (hb : body s = .error f) : slotStep i s body = .next (slotFault s (slotNo i) f) := by
  simp only [slotReady, Bool.and_eq_true, Bool.or_eq_true] at h
  unfold slotStep
  rw [hb]
  simp only [h.1, Bool.true_eq_false, if_false]
  cases hi : (me s).issue with
  | some c => rfl
  | none =>
    simp only [hi, Option.isSome_none, Bool.false_eq_true, false_or, Option.isNone_iff_eq_none] at h
    simp [h.2.1, h.2.2]

/-- R64: an instruction on its own that a hold keeps. -/
theorem slotStep_held {i : Instr} {s : State} {k : Hold} {body : State → Except SlotFault State}
    (hg : guardTrue (me s).preds (guardOf i) = true) (hi : (me s).issue = none) (hk : firstHold (holdsOf s i) = some k) :
    slotStep i s body = .next (heldCycle (pollHeld (stallHeld (askHeld s i) i) i) k) := by
  simp [slotStep, hg, hi, hk]

/-- R67: an instruction on its own that an issue trap stops. -/
theorem slotStep_trap {i : Instr} {s : State} {x : TrapAt} {body : State → Except SlotFault State}
    (hg : guardTrue (me s).preds (guardOf i) = true) (hi : (me s).issue = none) (hk : firstHold (holdsOf s i) = none)
    (ht : firstTrap (trapsOf s (me s).pc i) = some x) : slotStep i s body = .next (issueTrap s (me s).pc x.cause (slotNo i)) := by
  simp [slotStep, hg, hi, hk, ht]

/-- A slot instruction always answers a next state: the five lemmas above are all that it can do. -/
theorem slotStep_goes (i : Instr) (s : State) (body : State → Except SlotFault State) : ∃ t, slotStep i s body = .next t := by
  unfold slotStep
  dsimp only
  split
  · exact ⟨_, rfl⟩
  · split
    · exact ⟨_, rfl⟩
    · split
      · exact ⟨_, rfl⟩
      · split <;> exact ⟨_, rfl⟩

/-- R80: but for VROW, every instruction reads its source fields. -/
theorem readsOf_sources {i : Instr} (h : ∀ sl rd ra rb, i ≠ .vrow sl rd ra rb) (q : Seq) : readsOf q i = sourcesOf i := by
  cases i <;> first | rfl | exact absurd rfl (h _ _ _ _)

/-- R17: an instruction without pops changes nothing after its effect. -/
theorem takePops_none (fs : List (BitVec 6)) (s : State) (h30 : fs.contains 30 = false) (h31 : fs.contains 31 = false) : takePops fs s = s := by
  simp only [takePops, h30, h31, Bool.false_eq_true, if_false]

theorem takePops_nil (s : State) : takePops [] s = s := rfl

end Sys2Proof.Machine
end

