-- ==== Sys2Proof/Tests/Slice0.lean ====
section
/-! SUPPORT. Sys2Proof/Tests/Slice0.lean: tests of the decoder, of WellFormed and of single steps, and the witnesses that the statements' hypotheses
can be met. Expected words and results are the spec's own examples, or worked out by hand from its layouts and rules. -/

namespace Sys2Proof.Tests

open Sys2Proof.Machine

set_option maxRecDepth 20000
set_option Elab.async false

/-- Each word of a list decodes in its class to its instruction, and is the instruction's word. -/
def wordsAgree (l : List (SlotClass × Nat × Instr)) : Bool := l.all (fun x => decodeSlot x.1 x.2.1 == some x.2.2 && encodeWord x.2.2 == x.2.1)

/-- The bytes decode to the slots. -/
def bytesAgree (l : List Byte) (b : Slots) : Bool :=
  match decode l with
  | .ok c => c == b
  | .error _ => false

/-- The bytes are refused, with the slot named. -/
def bytesRefused (l : List Byte) (n : Nat) : Bool :=
  match decode l with
  | .ok _ => false
  | .error m => m == n

/-! The words that the spec writes out, class by class. -/

/-- R70 and the dissected bundle of spec/01. -/
theorem test_examples_s : wordsAgree
    [(.s false, 0x0010C108, .add false 0 3 1 2), (.s false, 0x2018C4B0, .add false 2 35 4 44),
     (.s true, 0x0201C345, .movi true 0 7 0x345)] = true := by decide

/-- R82, R84, R283, R172, R198, R199, R310, R90. -/
theorem test_examples_c : wordsAgree
    [(.c, 0x00900503, .loopi 0 5 3), (.c, 0x00B06000, .lstg 0 0 3), (.c, 0x01D30000, .launch 0 12 false),
     (.c, 0x01D30001, .launch 0 12 true), (.c, 0x02400002, .fence 0 0 2), (.c, 0x02440021, .fence 0 2 0x21),
     (.c, 0x00300006, .contain 0 6), (.c, 0x02B00000, .containend 0), (.c, 0x02057000, .bar 0 2 5 true true),
     (.c, 0x0212A000, .bararv 0 1 2 true), (.c, 0x02255000, .barwt 0 2 5 true), (.c, 0x02A00000, .exit 0)] = true := by decide

/-- R134, R139, R142, R145, R146 and the dissected bundle. -/
theorem test_examples_v : wordsAgree
    [(.v false, 0x00102010, .vadd false 0 0 2 0 1 0), (.v false, 0x00422011, .vfma false 0 2 2 0 1 1),
     (.v false, 0xD0422011, .vfma false 13 2 2 0 1 1), (.v false, 0x01823000, .vcvt false 0 2 3 0 0 0),
     (.v false, 0x01D05400, .vrcp false 0 0 5 4 0), (.v true, 0x02581442, .vext true 0 8 1 4 4 2),
     (.v false, 0x02600140, .vins false 0 0 0 1 4 0)] = true := by decide

/-- R154, R164, R165, R173-R179, R182, R268, R269, R271. -/
theorem test_examples_m : wordsAgree
    [(.m, 0x001021A6, .tld 0 0 2 6 true 3), (.m, 0x00223140, .tst 0 2 3 5 false 0), (.m, 0x00362200, .tgath 0 6 2 8 false 0),
     (.m, 0x00504080, .pref 0 4 2), (.m, 0x00630280, .tspld 0 3 10), (.m, 0x00990000, .tzero 0 9), (.m, 0x00A12000, .tmovt 0 1 2),
     (.m, 0x00C210D0, .tcopy 0 2 1 3 1 false), (.m, 0x00C210D8, .tcopy 0 2 1 3 1 true), (.m, 0x01201C00, .hfree 0 7),
     (.m, 0x01050144, .vopen 0 5 1 2 2), (.m, 0x01150000, .vretire 0 5), (.m, 0x01311894, .waitm 0 4 6 9 true 0),
     (.m, 0x00835080, .ared 0 3 5 2 false 0), (.m, 0x01810861, .aadd 0 4 2 6 0 1), (.m, 0x0212042E, .acas 0 4 1 2 3 2),
     (.m, 0x02331810, .afadd 0 12 6 1 0 0), (.m, 0x02214C71, .aincb 0 5 3 7 0 1), (.m, 0x02525035, .ald 0 9 4 3 1 1),
     (.m, 0x02629039, .ast 0 10 4 3 2 1), (.m, 0x02509287, .ald 0 2 4 40 1 3), (.m, 0x02604A8B, .ast 0 1 2 40 2 3),
     (.m, 0x32850840, .send 3 20 2 4 false)] = true := by decide

/-- R215, R220, R225-R231, R249-R252, R274-R279. -/
theorem test_examples_e : wordsAgree
    [(.e, 0x00140080, .mm 0 2 0 0 false 2 0 false), (.e, 0x00126CD1, .mm 0 1 3 1 true 3 2 true),
     (.e, 0x00301008, .mstatTile 0 2 0 false 2), (.e, 0x0031428C, .mstatHandle 0 5 1 false 3),
     (.e, 0x00262080, .mmcmp 0 3 1 0 false 2), (.e, 0x00848000, .acczeroFp 0 2 4), (.e, 0x00860001, .acczeroInt 0 3),
     (.e, 0x0090D202, .accld 0 0 6 2 false 8 true), (.e, 0x00A44000, .accnorm 0 2 2 0 false), (.e, 0x00BA0000, .accchk 0 5),
     (.e, 0x00D21800, .fold 0 1 3 false), (.e, 0x00C0424D, .accdrain 0 0 2 0 false 9 1 5),
     (.e, 0x01031220, .tadd 0 3 1 2 2 0 false), (.e, 0x01344510, .tmax 0 4 4 5 1 0 false), (.e, 0x01456010, .tred 0 5 6 1 0 false),
     (.e, 0x01578920, .tmv 0 7 8 9 2 0 false), (.e, 0x01641226, .tmm 0 4 1 2 2 1 true), (.e, 0x01815C00, .pabm 0 5 7 0),
     (.e, 0x01914404, .pbcast 0 5 1 0), (.e, 0x01A15844, .pmac 0 5 6 1), (.e, 0x01B16400, .pread 0 5 9 0),
     (.e, 0x01C14000, .pexit 0 5)] = true := by decide

/-- R119, R121, R123, R133, R159 and the dissected bundle. -/
theorem test_examples_k : wordsAgree
    [(.k, 0x0014C020, .shpset 0 1 3 32), (.k, 0x004429E0, .qld 0 2 5 15), (.k, 0x00C31870, .bndset 0 3 6 7),
     (.k, 0x00811300, .vfset 0 1 1 12), (.k, 0x00915040, .vfseti 0 1 5 64), (.k, 0x01086250, .vrow true 3 4 40),
     (.k, 0x0F900012, .ximm 1 0x12)] = true := by decide

/-- The dissected bundle of spec/01, by its bytes. -/
theorem test_dissected_bundle : bytesAgree
    [0xB0, 0xC4, 0x18, 0x20, 0x45, 0xC3, 0x01, 0x02, 0, 0, 0, 0, 0x11, 0x20, 0x42, 0xD0, 0, 0, 0, 0, 0x00, 0x18, 0x14, 0x00, 0, 0, 0, 0, 0x12, 0x00, 0x90, 0x0F]
    [some (.add false 2 35 4 44), some (.movi true 0 7 0x345), none, some (.vfma false 13 2 2 0 1 1), none, some (.tld 0 4 1 32 false 0), none,
     some (.ximm 1 0x12)] = true := by decide

/-- The same bundle with the reserved format code 0xD in slot 3: the trap names slot 3 (R40). -/
theorem test_reserved_format_names_its_slot : bytesRefused
    [0xB0, 0xC4, 0x18, 0x20, 0x45, 0xC3, 0x01, 0x02, 0, 0, 0, 0, 0x11, 0x20, 0x4D, 0xD0, 0, 0, 0, 0, 0x00, 0x18, 0x14, 0x00, 0, 0, 0, 0, 0x12, 0x00, 0x90, 0x0F]
    3 = true := by decide

/-- R25: an XIMM aimed at an empty slot, and R13: an instruction of another class, are refused. -/
theorem test_pairing_and_class_refused :
    bytesRefused ([0x08, 0xC1, 0x10, 0x00] ++ List.replicate 24 0 ++ [0x12, 0x00, 0x90, 0x0F]) 7 = true ∧ decodeSlot .c 0x0010C108 ≠ some (.add false 0 3 1 2) ∧
      decodeSlot (.v false) 0x00000001 = none := by decide

/-! A word of every slot instruction, from the layouts of R26-R31 and the opcodes of R32-R37, each field with a value of its own. -/

theorem test_words_s_a : wordsAgree
    [(.s false, 0x001A01BC, .add false 0 40 1 47), (.s true, 0x1029C2BC, .sub true 1 39 2 47),
     (.s false, 0x203983BC, .and false 2 38 3 47), (.s true, 0x304944BC, .or true 3 37 4 47),
     (.s false, 0x405905BC, .xor false 4 36 5 47), (.s true, 0x5068C6BC, .shl true 5 35 6 47),
     (.s false, 0x607887BC, .shr false 6 34 7 47), (.s true, 0x708848BC, .sra true 7 33 8 47),
     (.s false, 0x009809BC, .min false 0 32 9 47), (.s true, 0x10A7CABC, .max true 1 31 10 47),
     (.s false, 0x20B78BBC, .minu false 2 30 11 47), (.s true, 0x30C74CBC, .maxu true 3 29 12 47),
     (.s false, 0x90D16100, .mov false 9 5 33), (.s false, 0x00E18723, .addsh false 0 6 7 8 3),
     (.s false, 0xF0FFDF00, .clz false 15 63 31), (.s true, 0x010500BC, .mul true 0 20 0 47),
     (.s true, 0x011541B8, .mulh true 0 21 1 46), (.s true, 0x012582B4, .mulhu true 0 22 2 45),
     (.s true, 0x0135C3B0, .divu true 0 23 3 44), (.s true, 0x014604AC, .remu true 0 24 4 43)] = true := by decide

theorem test_words_s_b : wordsAgree
    [(.s false, 0x02080F00, .movi false 0 32 3840), (.s false, 0x02184F01, .addi false 0 33 3841),
     (.s false, 0x02288F02, .andi false 0 34 3842), (.s false, 0x0238CF03, .ori false 0 35 3843),
     (.s false, 0x02490F04, .xori false 0 36 3844), (.s false, 0x1250801D, .shli false 1 2 29),
     (.s false, 0x1260C01E, .shri false 1 3 30), (.s false, 0x1271001F, .srai false 1 4 31),
     (.s false, 0x0280CABC, .movh false 0 3 0xABC), (.s false, 0x0290C005, .lidx false 0 3 5),
     (.s false, 0x02A0C016, .ctlrd false 0 3 0x016), (.s false, 0x02B88010, .ctlwr false 0 34 0x010),
     (.s false, 0x02C2C000, .gtlo false 0 11), (.s false, 0x02D30000, .gthi false 0 12),
     (.s false, 0x030F49A4, .cmp false 0 7 5 9 41), (.s false, 0x0312AF80, .cmpi false 0 1 2 47 0x80),
     (.s false, 0x038848FF, .sld false 0 33 8 0xFF), (.s false, 0x0399C87F, .sst false 0 39 8 0x7F),
     (.s false, 0x03C7C400, .qmap false 0 true 4), (.s false, 0x03D78000, .qunmap false 0 false)] = true := by decide

theorem test_words_c_a : wordsAgree
    [(.c, 0x201FFFFF, .br 2 0xFFFFF), (.c, 0x00200102, .call 0 0x00102), (.c, 0x00300006, .contain 0 6),
     (.c, 0x00474000, .jr 0 29), (.c, 0x00580000, .callr 0 32), (.c, 0x00844FFF, .loop 0 17 4095),
     (.c, 0x009FFFFF, .loopi 0 4095 255), (.c, 0xE0A00000, .lbrk 14), (.c, 0x00BB2000, .lstg 0 5 9),
     (.c, 0x01030400, .pand 0 1 4 0 true false), (.c, 0x01154A00, .por 0 2 5 1 false true),
     (.c, 0x01279400, .pxor 0 3 6 2 true false), (.c, 0x0181000F, .bktj 0 4 15), (.c, 0x01910500, .waitgt 0 4 5),
     (.c, 0x01A18700, .setest 0 6 7), (.c, 0x01B20900, .setts 0 8 9), (.c, 0x01C00003, .setrm 0 3),
     (.c, 0x01D30001, .launch 0 12 true), (.c, 0x0209E000, .bar 0 4 7 true false), (.c, 0x0217A000, .bararv 0 3 6 true)] = true := by decide

theorem test_words_c_b : wordsAgree
    [(.c, 0x02255000, .barwt 0 2 5 true), (.c, 0x02428001, .fence 0 1 0x8001), (.c, 0x028000A5, .trap 0 0xA5),
     (.c, 0x02900000, .eret 0), (.c, 0x32A00000, .exit 3), (.c, 0x02B00000, .containend 0)] = true := by decide

theorem test_words_v_a : wordsAgree
    [(.v false, 0x00171236, .vadd false 0 7 1 2 3 6), (.v false, 0x00281236, .vsub false 0 8 1 2 3 6),
     (.v false, 0x00391236, .vmul false 0 9 1 2 3 6), (.v false, 0x004A1236, .vfma false 0 10 1 2 3 6),
     (.v false, 0x005B1236, .vmin false 0 11 1 2 3 6), (.v false, 0x006C1236, .vmax false 0 12 1 2 3 6),
     (.v true, 0x007B4500, .vabs true 0 11 4 5 0), (.v true, 0x00874500, .vneg true 0 7 4 5 0),
     (.v true, 0x009C4500, .vmov true 0 12 4 5 0), (.v false, 0x00C01236, .vand false 0 0 1 2 3 6),
     (.v false, 0x00D11236, .vor false 0 1 1 2 3 6), (.v false, 0x00E21236, .vxor false 0 2 1 2 3 6),
     (.v false, 0x00F81236, .vshl false 0 8 1 2 3 6), (.v false, 0x01091236, .vshr false 0 9 1 2 3 6),
     (.v false, 0x011A1236, .vsra false 0 10 1 2 3 6), (.v false, 0x01431236, .vcmpeq false 0 3 1 2 3 6),
     (.v false, 0x01541236, .vcmplt false 0 4 1 2 3 6), (.v false, 0x01651236, .vcmple false 0 5 1 2 3 6),
     (.v false, 0x01761236, .vsel false 0 6 1 2 3 6), (.v false, 0x018230C5, .vcvt false 0 2 3 0 12 5)] = true := by decide

theorem test_words_v_b : wordsAgree
    [(.v false, 0x01974571, .vscl false 0 7 4 5 7 1), (.v false, 0x01A845F1, .vclmp false 0 8 4 5 15 1),
     (.v true, 0x01C04500, .vexp2 true 0 0 4 5 0), (.v true, 0x01D14500, .vrcp true 0 1 4 5 0),
     (.v true, 0x01E24500, .vrsq true 0 2 4 5 0), (.v true, 0x020A4500, .vrsum true 0 10 4 5 0),
     (.v true, 0x021B4500, .vrmax true 0 11 4 5 0), (.v true, 0x022C4500, .vrmin true 0 12 4 5 0),
     (.v false, 0x02426096, .vbcs false 0 2 6 9 6), (.v false, 0x02511236, .vext false 0 1 1 2 3 6),
     (.v false, 0x02611236, .vins false 0 1 1 2 3 6), (.v false, 0x02811236, .vperm false 0 1 1 2 3 6),
     (.v false, 0x02911236, .vlsh false 0 1 1 2 3 6), (.v false, 0x02A11236, .vpack false 0 1 1 2 3 6),
     (.v false, 0x03011236, .vadds false 0 1 1 2 3 6), (.v false, 0x03111236, .vmuls false 0 1 1 2 3 6),
     (.v false, 0x03211236, .vfmas false 0 1 1 2 3 6), (.v true, 0x02B14512, .vunpk true 0 1 4 5 true 2)] = true := by decide

theorem test_words_m_a : wordsAgree
    [(.m, 0x00119838, .tld 0 1 9 32 true 12), (.m, 0x0022A87A, .tst 0 2 10 33 true 13), (.m, 0x0033B8BC, .tgath 0 3 11 34 true 14),
     (.m, 0x0044C8FE, .tscat 0 4 12 35 true 15), (.m, 0x00504080, .pref 0 4 2), (.m, 0x00630280, .tspld 0 3 10),
     (.m, 0x007302C0, .tspst 0 3 11), (.m, 0x00835080, .ared 0 3 5 2 false 0), (.m, 0x00990000, .tzero 0 9),
     (.m, 0x00A12000, .tmovt 0 1 2), (.m, 0x00C210F8, .tcopy 0 2 1 3 3 true), (.m, 0x01050296, .vopen 0 5 2 4 11),
     (.m, 0x01150000, .vretire 0 5), (.m, 0x01201C00, .hfree 0 7), (.m, 0x01311895, .waitm 0 4 6 9 true 1),
     (.m, 0x01861801, .aadd 0 24 6 0 0 1), (.m, 0x01965816, .amin 0 25 6 1 1 2), (.m, 0x01A6982B, .amax 0 26 6 2 2 3),
     (.m, 0x01B6D83C, .aminu 0 27 6 3 3 0), (.m, 0x01C71841, .amaxu 0 28 6 4 0 1)] = true := by decide

theorem test_words_m_b : wordsAgree
    [(.m, 0x01D75856, .aand 0 29 6 5 1 2), (.m, 0x01E7986B, .aor 0 30 6 6 2 3), (.m, 0x01F7D87C, .axor 0 31 6 7 3 0),
     (.m, 0x02081881, .axchg 0 32 6 8 0 1), (.m, 0x0218989E, .acas 0 17 6 9 3 2), (.m, 0x02229031, .aincb 0 10 4 3 0 1),
     (.m, 0x02329031, .afadd 0 10 4 3 0 1), (.m, 0x02429031, .afaddh 0 10 4 3 0 1), (.m, 0x02529035, .ald 0 10 4 3 1 1),
     (.m, 0x02629039, .ast 0 10 4 3 2 1), (.m, 0xB2850848, .send 11 20 2 4 true)] = true := by decide

theorem test_words_e_a : wordsAgree
    [(.e, 0x00126CD1, .mm 0 1 3 1 true 3 2 true), (.e, 0x002FF680, .mmcmp 0 7 15 2 true 10),
     (.e, 0x003039F0, .mstatTile 0 7 3 true 12), (.e, 0x0031428C, .mstatHandle 0 5 1 false 3), (.e, 0x00400000, .mswap 0),
     (.e, 0x00500000, .lease 0), (.e, 0x70600000, .lrel 7), (.e, 0x00848000, .acczeroFp 0 2 4), (.e, 0x00860001, .acczeroInt 0 3),
     (.e, 0x0090D602, .accld 0 0 6 2 true 8 true), (.e, 0x00A45800, .accnorm 0 2 2 3 false), (.e, 0x00BA0000, .accchk 0 5),
     (.e, 0x00CC4A2F, .accdrain 0 6 2 1 false 8 5 7), (.e, 0x00D21C00, .fold 0 1 3 true),
     (.e, 0x01015910, .tadd 0 1 5 9 1 0 false), (.e, 0x01126A26, .tsub 0 2 6 10 2 1 true),
     (.e, 0x01237B18, .tmul 0 3 7 11 1 2 false), (.e, 0x01348C2E, .tmax 0 4 8 12 2 3 true), (.e, 0x0145601E, .tred 0 5 6 1 3 true),
     (.e, 0x01578922, .tmv 0 7 8 9 2 0 true)] = true := by decide

theorem test_words_e_b : wordsAgree
    [(.e, 0x01678916, .tmm 0 7 8 9 1 1 true), (.e, 0x01815C00, .pabm 0 5 7 0), (.e, 0x01914544, .pbcast 0 5 1 5),
     (.e, 0x01A19844, .pmac 0 6 6 1), (.e, 0x01B16500, .pread 0 5 9 4), (.e, 0x01C14000, .pexit 0 5)] = true := by decide

theorem test_words_k_a : wordsAgree
    [(.k, 0x001D007F, .shpset 0 3 4 127), (.k, 0x00280000, .shpcpy 0 2), (.k, 0x004E2FE0, .qld 0 7 5 63),
     (.k, 0x005D4120, .qset 0 6 40 9), (.k, 0x006A0000, .qzero 0 5), (.k, 0x008FB300, .vfset 0 15 11 12),
     (.k, 0x009E3FFF, .vfseti 0 14 3 0xFFF), (.k, 0x00C31AF0, .bndset 0 3 6 47), (.k, 0x00D30000, .bndoff 0 3),
     (.k, 0x01087408, .vrow true 3 40 4), (.k, 0x0F8FFFFF, .ximm 0 0xFFFFF), (.k, 0x0FEFFFFF, .ximm 6 0xFFFFF)] = true := by decide

/-! WellFormed: a term that each check refuses, and one beside it that passes. -/

/-- None of the terms is an instruction. -/
def allIll (l : List Instr) : Bool := l.all (fun i => !i.wf)

/-- R15: guard 0b1000. -/
theorem test_ill_guard : allIll
    [.add false 8 3 1 2, .exit 8, .vadd false 8 0 2 0 1 0, .tzero 8 1, .mm 8 0 0 0 false 2 0 false, .qzero 8 0] = true := by decide

/-- R17: source codes 48 to 63. -/
theorem test_ill_source : allIll
    [.add false 0 3 48 2, .sub false 0 3 1 63, .ctlwr false 0 50 0, .sst false 0 48 1 0, .jr 0 63, .tld 0 0 0 48 false 0,
     .waitm 0 48 0 0 false 0, .send 0 0 0 48 false, .pabm 0 48 0 0, .bndset 0 0 48 0, .vrow false 48 0 0] = true := by decide

/-- R21: p0 as a destination. -/
theorem test_ill_predicate : allIll
    [.cmp false 0 0 0 1 2, .cmpi false 0 0 0 1 2, .pand 0 0 1 2 false false] = true := by decide

/-- R21: condition codes 6 and 7. -/
theorem test_ill_condition : allIll
    [.cmp false 0 1 6 1 2, .cmpi false 0 1 7 1 2] = true := by decide

/-- R21: scope codes 5 to 7. -/
theorem test_ill_scope : allIll
    [.bar 0 5 0 false false, .bararv 0 6 0 false, .barwt 0 7 0 false, .fence 0 5 0, .vopen 0 0 0 5 0] = true := by decide

/-- R23: row selectors 7 to 15; a BANK command takes a loop index alone. -/
theorem test_ill_row : allIll
    [.vadd false 0 0 2 0 1 7, .vmov true 0 0 2 0 15, .pabm 0 0 0 6, .pread 0 0 0 7] = true := by decide

/-- R22, R131, R215, R225, R227, R248: formats that an instruction does not accept. -/
theorem test_ill_format : allIll
    [.vadd false 0 13 2 0 1 0, .vcvt false 0 0 1 2 14 0, .vabs false 0 10 1 2 0, .vshl false 0 0 1 2 3 0, .vscl false 0 8 1 2 0 0,
     .vexp2 false 0 3 1 2 0, .mm 0 0 0 0 false 0 0 false, .mm 0 0 0 0 false 8 0 false, .mmcmp 0 0 0 0 false 5,
     .mstatTile 0 0 0 false 0, .accld 0 0 0 0 false 1 false, .tadd 0 0 1 2 0 0 false] = true := by decide

/-- Fields that must be zero: R29, R220, R231. -/
theorem test_ill_unused : allIll
    [.tld 0 0 0 0 false 1, .ared 0 0 0 0 false 15, .mm 0 0 0 0 false 2 1 false, .mm 0 0 0 0 false 9 0 true,
     .accdrain 0 0 0 0 false 0 1 0, .accdrain 0 0 0 0 false 2 0 2] = true := by decide

/-- R24, R74, R119, R159, R164, R25, R27: values out of their ranges. -/
theorem test_ill_range : allIll
    [.shli false 0 1 32, .srai false 0 1 4095, .lidx false 0 1 6, .ctlrd false 0 1 5, .ctlwr false 0 1 0x017, .shpset 0 0 0 0,
     .shpset 0 0 0 65, .shpset 0 0 8 1, .vfset 0 0 12 0, .vfseti 0 0 15 0, .vopen 0 0 3 0 0, .loop 0 1 0, .loopi 0 1 0,
     .lstg 0 6 1, .ximm 7 0] = true := by decide

/-- R2, R297, R330, R324, R347: steps that name what the package does not have. -/
theorem test_ill_step : allIll
    [.bundleIssue 2080, .starvationGuard 1040, .copyStart 0 4, .leaseGrant 256 0, .leaseGrant 0 4, .teamPlace 16,
     .waymaskChangeComplete 0 32, .hqNop 1024, .zoneReady 69, .stationUp 16, .atsTranslationRequest 1024 0,
     .podBarrierCompletion 64] = true := by decide

theorem test_well_formed : ([.add false 0 3 47 2, .cmp false 0 1 5 1 2, .fence 0 4 0, .vadd false 0 12 2 0 1 6, .pabm 0 0 0 5, .mm 0 0 0 0 false 7 7 true,
     .accdrain 0 0 0 0 false 8 7 7, .shli false 0 1 31, .lidx false 0 1 5, .ctlwr false 0 1 0x016, .shpset 0 0 0 64,
     .shpset 0 0 3 0, .vfset 0 0 11 0, .vopen 0 0 2 4 0, .loopi 0 0 1, .ximm 6 0, .bundleIssue 2079, .zoneReady 68] : List Instr).all Instr.wf = true := by decide

/-! Number formats, against the spec's tables (R96-R104, R108-R113). -/

/-- The table of R104, with its flags (NV 16, DZ 8, OF 4, UF 2, NX 1). -/
theorem test_conversions :
    convert 0 3 0 0x43960000 = (0x79, 1) ∧ convert 0 3 0 0x43FA0000 = (0x7E, 5) ∧ convert 0 4 0 0x43FA0000 = (0x60, 1) ∧ convert 0 7 0 0x40200000 = (0x4, 1) ∧
      convert 0 7 3 0x40200000 = (0x5, 1) ∧ convert 0 7 0 0x3E99999A = (0x1, 3) ∧ convert 0 7 0 0x7FC00000 = (0, 16) ∧ convert 0 5 0 0xFF800000 = (0x3F, 4) ∧
      convert 1 0 0 0x7C01 = (0x7FC02000, 16) ∧ convert 0 1 0 0x7FC02000 = (0x7E01, 0) ∧ convert 3 0 0 0xFF = (0xFFF00000, 0) ∧
      convert 0 10 0 0xBF800000 = (0, 5) ∧ convert 0 10 0 0xBECCCCCD = (0, 1) := by decide +kernel

/-- R109's example: −5 has the residues 8186, 8187 and 8188; R111 gives it back. -/
theorem test_residues : toResidue (-5) = BitVec.ofNat 64 (8186 + 8187 * 2 ^ 13 + 8188 * 2 ^ 26) ∧ fromResidue (toResidue (-5)) = -5 ∧
    fromResidue (residueAdd (toResidue (-5)) (toResidue 12)) = 7 := by decide +kernel

/-- R142 on the values of the softmax example of spec/06: 2^0, 2^-2, 2^-1, 2^-infinity, and 1/2.75. -/
theorem test_special_functions :
    exp2Code 0 0 0 = (0x3F800000, 0) ∧ exp2Code 0 0 0xC0000000 = (0x3E800000, 0) ∧ exp2Code 0 0 0xBF800000 = (0x3F000000, 0) ∧
      exp2Code 0 0 0xFF800000 = (0, 0) ∧ recipCode 0 0 0x40300000 = (0x3EBA2E8C, 1) ∧ recipCode 0 0 0 = (0x7F800000, 8) := by decide +kernel

/-- The table after R113: a row of 2^24, 1, 1, 1 and zeros, in RNE and RUP. -/
theorem test_row_sum :
    rowSum 0 0 0x3F8000003F8000003F8000004B800000 = (0x4B800001, 1) ∧ rowSum 0 3 0x3F8000003F8000003F8000004B800000 = (0x4B800002, 1) := by decide +kernel

/-! One step of an instruction, on a small state. -/

/-- The next state of an instruction. -/
def after (i : Instr) (s : State) : State :=
  match exec i s with
  | .next t => t
  | _ => s

/-- A state whose running strand is given. -/
def withSeq (q : Seq) : State := { State.reset with seqs := [(0, q)] }

/-- A strand with s1 = 0x8000_0001, s2 = 7, s3 = 0xFFFF_FFFF. -/
def scalars : Seq := { Seq.reset with status := .running, regs := ((Seq.reset.regs.set 1 0x80000001).set 2 7).set 3 0xFFFFFFFF }

/-- The value and the ticks of the newest entry of the running strand's queue. -/
def newest (i : Instr) (s : State) : Nat × Nat :=
  match (me (after i s)).queue.getLast? with
  | some p => (p.value.toNat, p.cnt)
  | none => (0, 0)

/-- Each instruction of a list leaves an entry with its value and ticks. -/
def leaves (s : State) (l : List (Instr × Nat × Nat)) : Bool := l.all (fun x => newest x.1 s == x.2)

/-- R70, by hand. -/
theorem test_scalar_arithmetic : leaves (withSeq scalars)
    [(.add false 0 4 1 3, 0x80000000, 1), (.sub false 0 4 2 1, 0x80000006, 1), (.and false 0 4 1 2, 1, 1), (.or false 0 4 1 2, 0x80000007, 1),
     (.xor false 0 4 1 2, 0x80000006, 1), (.shl false 0 4 1 2, 0x80, 1), (.shr false 0 4 1 2, 0x01000000, 1), (.sra false 0 4 1 2, 0xFF000000, 1),
     (.min false 0 4 1 2, 0x80000001, 1), (.max false 0 4 1 2, 7, 1), (.minu false 0 4 1 2, 7, 1), (.maxu false 0 4 1 2, 0x80000001, 1),
     (.mov false 0 4 3, 0xFFFFFFFF, 1), (.addsh false 0 4 2 1 3, 15, 1), (.clz false 0 4 2, 29, 1)] = true := by decide +kernel

/-- R70: a shift of 32 or more (count from B[7:0], 0xFF). -/
theorem test_scalar_shift_past_width : leaves (withSeq scalars)
    [(.shl false 0 4 1 3, 0, 1), (.shr false 0 4 1 3, 0, 1), (.sra false 0 4 1 3, 0xFFFFFFFF, 1), (.sra false 0 4 2 3, 0, 1), (.clz false 0 4 40, 32, 1)] = true := by
  decide +kernel

/-- R71, by hand: 0x8000_0001 squared is 0x4000_0001_0000_0001, signed 0x3FFF_FFFF_0000_0001. -/
theorem test_multiply_divide : leaves (withSeq scalars)
    [(.mul false 0 4 1 1, 1, 3), (.mulh false 0 4 1 1, 0x3FFFFFFF, 3), (.mulhu false 0 4 1 1, 0x40000001, 3), (.divu false 0 4 3 2, 613566756, 18),
     (.remu false 0 4 3 2, 3, 18), (.divu false 0 4 2 40, 0xFFFFFFFF, 18), (.remu false 0 4 2 40, 7, 18)] = true := by decide +kernel

/-- R72, by hand. -/
theorem test_immediates : leaves (withSeq scalars)
    [(.movi false 0 2 0xFFF, 0xFFFFFFFF, 1), (.addi false 0 2 0xFF8, 0xFFFFFFFF, 1), (.andi false 0 3 0xF0F, 0xFFFFFF0F, 1), (.ori false 0 2 0x100, 0x107, 1),
     (.xori false 0 2 0xFFF, 0xFFFFFFF8, 1), (.shli false 0 2 31, 0x80000000, 1), (.shri false 0 1 31, 1, 1), (.srai false 0 1 31, 0xFFFFFFFF, 1),
     (.movh false 0 2 0xABC, 0xABC00007, 1)] = true := by decide +kernel

/-- R77: 0x8000_0001 is less than 7 signed, not unsigned; CMPI's immediate is signed. -/
theorem test_compares : leaves (withSeq scalars)
    [(.cmp false 0 1 2 1 2, 1, 1), (.cmp false 0 1 4 1 2, 0, 1), (.cmpi false 0 1 0 3 0xFF, 1, 1), (.cmpi false 0 1 3 2 0x08, 0, 1),
     (.pand 0 1 0 1 false true, 1, 1), (.por 0 1 1 2 false false, 0, 1), (.pxor 0 1 0 1 true false, 0, 1)] = true := by decide +kernel

/-- R78: a store and a load at s2 + 4 x 1: 8 + 4 = 12. -/
theorem test_scratchpad :
    let s := withSeq { scalars with regs := scalars.regs.set 2 8 }
    spad32 (myCore (after (.sst false 0 1 2 1) s)) 12 = 0x80000001 ∧ newest (.sld false 0 4 2 1) (after (.sst false 0 1 2 1) s) = (0x80000001, 6) := by decide +kernel

/-- R81, R66: a taken branch of −2 bundles from 0x100, and a call's link. -/
theorem test_transfers :
    let s := withSeq { scalars with pc := 0x100 }
    (me (after (.br 0 0xFFFFE) s)).delayTarget = 0xC0 ∧ (me (after (.br 0 0xFFFFE) s)).delayCount = 2 ∧ newest (.call 0 1) s = (0x160, 1) := by decide +kernel

/-- R82: LOOPI 5, 3 at 0x40 pushes START 0x60; a count of zero skips to 0xC0. -/
theorem test_loops :
    let s := withSeq { scalars with pc := 0x40 }
    (me (after (.loopi 0 5 3) s)).loops = [{ start := 0x60, len := 3, count := 5, index := 0 }] ∧ (me (after (.loopi 0 0 3) s)).pc = 0xC0 := by decide +kernel

/-- R88, R89: a trap with CTRAPVEC 0x400 and the return. -/
theorem test_trap_and_return :
    let s := withSeq { scalars with pc := 0x40, trapVec := 0x400 }
    let t := after (.trap 0 9) s
    (me t).pc = 0x400 ∧ (me t).epc = 0x40 ∧ (me t).inTrap = true ∧ (me t).trapCode = 9 ∧ (me (after (.eret 0) t)).pc = 0x40 ∧ (me (after (.eret 0) t)).inTrap = false := by
  decide +kernel

/-- R186, R187: without a vector the same trap stops the strand with SW_TRAP. -/
theorem test_trap_without_vector :
    (me (after (.trap 0 9) (withSeq scalars))).status = .faulted ∧ ((me (after (.trap 0 9) (withSeq scalars))).stop.map (fun i => (i.cause, i.kind, i.aux1))) = some (0x40, 3, 9) := by
  decide +kernel

/-- R91: LBRK with no loop (LOOP_NONE, cause 0x08), and ERET outside a trap (0x0E), are issue traps of slot 2. -/
theorem test_issue_traps :
    ((me (after (.lbrk 0) (withSeq scalars))).stop.map (fun i => (i.kind, i.cause, i.slot))) = some (0, 0x08, 2) ∧
      ((me (after (.eret 0) (withSeq scalars))).stop.map (fun i => (i.kind, i.cause, i.slot))) = some (0, 0x0E, 2) := by decide +kernel

/-- A strand whose core has 1.0, 2.0 in elements 0 and 1 of row 0 of t0, and 3.0, 4.0 in those of t1. -/
def rows : State := { withSeq scalars with cores := [(0, { CoreState.reset with tiles := [(0, 0x400000003F800000), (64, 0x4080000040400000)] })] }

/-- Elements 0 and 1 of the row that an instruction leaves, with its ticks. -/
def rowOf (i : Instr) (s : State) : Nat × Nat × Nat :=
  match (me (after i s)).queue.getLast? with
  | some p => (elemAt 0 p.payload 0, elemAt 0 p.payload 1, p.cnt)
  | none => (0, 0, 0)

/-- R134, R135, R137, by hand: 1 + 3, 2 + 4; 1 − 3, 2 − 4; 1 x 3, 2 x 4; 1 < 3. -/
theorem test_rows :
    rowOf (.vadd false 0 0 2 0 1 0) rows = (0x40800000, 0x40C00000, 2) ∧ rowOf (.vsub false 0 0 2 0 1 0) rows = (0xC0000000, 0xC0000000, 2) ∧
      rowOf (.vmul false 0 0 2 0 1 0) rows = (0x40400000, 0x41000000, 4) ∧ rowOf (.vneg false 0 0 2 0 0) rows = (0xBF800000, 0xC0000000, 2) ∧
      rowOf (.vcmplt false 0 0 2 0 1 0) rows = (0xFFFFFFFF, 0xFFFFFFFF, 2) ∧ rowOf (.vmax false 0 0 2 1 0 0) rows = (0x40400000, 0x40800000, 2) := by decide +kernel

/-- R144-R149, by hand: s18 selects element 1; a shift by one lane. -/
theorem test_row_movement :
    let s := { rows with seqs := [(0, { scalars with regs := scalars.regs.set 18 1 })] }
    newest (.vext false 0 0 3 1 2 0) s = (0x40800000, 3) ∧ rowOf (.vlsh false 0 0 2 0 2 0) s = (0, 0x3F800000, 3) ∧
      rowOf (.vins false 0 0 0 2 2 0) s = (0x3F800000, 1, 2) ∧ rowOf (.vbcs false 0 0 2 2 0) s = (1, 1, 2) := by decide +kernel

/-- R119, R123, R159: the entries of K-slot instructions. -/
theorem test_configuration : leaves (withSeq scalars)
    [(.shpset 0 1 3 32, 32, 1), (.qset 0 2 3 9, 0xFFFF, 1), (.vfset 0 1 1 2, 7, 1), (.vfseti 0 1 5 0xFFF, 0xFFFFFFFF, 1), (.bndset 0 3 2 1, 0x8000000100000007, 1)] = true := by
  decide +kernel

/-- R216-R225: MSTAT of t0, MSWAP, and the ranks of four BF16 scores 0.5, 2.0, 0.5, 1.0 (the example after R225): 2, 0, 3, 1. -/
theorem test_ranks :
    let a : ArrayState := { ArrayState.reset with accs := ArrayState.reset.accs.set 3 { Acc.reset with integer := true, hg := Vector.replicate 64 65536 } }
    let p : Plane := { Plane.reset with mrows := 1, ncols := 4, kdep := 4 }
    (match runArray a [] (.mmcmp 3 [0x3F803F0040003F00] p 2) with
      | .ok x => (List.range 4).map (fun c => fromResidue (accWord (accAt x.1 3) 0 c))
      | .error _ => []) = [2, 0, 3, 1] := by decide +kernel

/-- R222: the row of the example after R224: 1.5 x 3.0, 2^-30 x 1.0 and −2^-30 x 1.0 with E = −20 leave 4,718,591 and G = 511. -/
theorem test_floating_step :
    let b : PlaneRows := { rows := [(0, 0x3F803F804040)], fmt := 2 }
    let a : ArrayState := { ArrayState.reset with active := b, accs := ArrayState.reset.accs.set 0 { Acc.reset with e := [(0, 0xFFEC)] } }
    let p : Plane := { Plane.reset with mrows := 1, ncols := 1, kdep := 3 }
    (match runArray a [] (.mm 0 [0xB08030803FC0] p 2 none) with
      | .ok x => (accWord (accAt x.1 0) 0 0, accHead (accAt x.1 0) 0, x.2.1)
      | .error _ => (0, 0, 0)) = (4718591, 511, 1) := by decide +kernel

/-- R268, by hand. -/
theorem test_atomics :
    (atomicNew .smin 0x80000001 7 0 0).1 = 0x80000001 ∧ (atomicNew .umin 0x80000001 7 0 0).1 = 7 ∧ (atomicNew .cas 7 7 9 0).1 = 9 ∧ (atomicNew .cas 7 8 9 0).1 = 7 ∧
      (atomicNew .incb 6 7 0 0).1 = 7 ∧ (atomicNew .incb 7 7 0 0).1 = 7 ∧ (atomicNew .fadd 0x3F800000 0x40000000 0 0).1 = 0x40400000 := by decide +kernel

/-! Witnesses: states and operands that meet the statements' hypotheses (the theorem's name is the statement's). -/

/-- Each instruction of a list is ready. -/
def ready (s : State) (l : List Instr) : Bool := l.all (fun i => slotReady i s)

/-- The instruction answers a next state. -/
def answers (i : Instr) (s : State) : Bool :=
  match exec i s with
  | .next _ => true
  | _ => false

/-- An entry of the queue. -/
def newestPend : Pend := { dest := .latch, value := 7, flags := 0, cnt := 1, slot := 0, payload := 0, tick := 0, superseded := none }

/-- A bundle in issue, with one MOVI, an XIMM for it, and its mask. -/
def bundle : IssueCtx :=
  { addr := 0x40, slots := [some (.movi false 0 3 1), none, none, none, none, none, none, some (.ximm 0 1)], rows := (0, 0, 0), mask := 0x81, undone := [], ends := [] }

/-- The state with that bundle in issue. -/
def inBundle : State := withSeq { scalars with issue := some bundle }

theorem meets_DecodeOfEncode :
    slotOf (.add false 0 3 1 2) = some (.s false) ∧ (Instr.add false 0 3 1 2).wf = true ∧ decodeSlot .k 0x0F900012 = some (.ximm 1 0x12) ∧
      slotOf (.bundleIssue 0) = none := by decide

/-- The first clause with a full bundle; the second with a word of no class, and with an XIMM that names an empty slot. -/
theorem meets_BundleOfEightSlots :
    (bundle.slots.length = 8 ∧ (∀ n < 8, (match slotAt bundle.slots n with
        | some i => slotOf i = some (slotClass n) ∧ i.wf = true
        | none => True)) ∧ (∀ n < 8, pairingOk bundle.slots n = true)) ∧
    bytesRefused (1 :: List.replicate 31 0) 0 = true ∧ bytesRefused (List.replicate 28 0 ++ [0x12, 0x00, 0x90, 0x0F]) 7 = true := by
  refine ⟨⟨rfl, ?_, by decide⟩, by decide, by decide⟩
  intro n hn
  have h : n = 0 ∨ n = 1 ∨ n = 2 ∨ n = 3 ∨ n = 4 ∨ n = 5 ∨ n = 6 ∨ n = 7 := by omega
  rcases h with rfl | rfl | rfl | rfl | rfl | rfl | rfl | rfl <;> first | trivial | decide

theorem meets_StepRunsItsInstruction :
    let b : BusWrite := { unit := 1, reg := 0, val := 5 }
    let s : State := { State.reset with agenda := [.event (.zoneReady 68)] }
    (s.powered = true ∧ slotOf (.zoneReady 68) = none ∧ (Instr.zoneReady 68).wf = true ∧ s.agenda = .event (.zoneReady 68) :: []) ∧
      ({ State.reset with agenda := [.write .notify b] } : State).agenda = .write .notify b :: [] ∧
      (State.reset.agenda = [] ∧ State.reset.cur < 2080) ∧ ({ State.reset with powered := false } : State).powered = false ∧ (slotOf (.exit 0)).isSome = true := by
  decide

theorem meets_SlotsRunTheirInstruction :
    (me inBundle).issue = some bundle ∧ slotAt bundle.slots 0 = some (.movi false 0 3 1) ∧ bundle.mask.getLsbD 0 = true ∧ answers (.movi false 0 3 1) inBundle = true ∧
      slotAt bundle.slots 3 = none ∧ ({ bundle with mask := 0x80 } : IssueCtx).mask.getLsbD 0 = false ∧ guardTrue (me inBundle).preds 1 = false ∧
      guardTrue (me inBundle).preds 0 = true := by decide +kernel

/-- A memory with a byte, and a step that stores another; a step that raises the fuses. -/
theorem meets_StepKeepsMemoryCanonical_StepNeverLowersTheFuses :
    let s : State := { State.reset with mem := [(5, 1)], agenda := [.hostStore 4 [7, 0]] }
    let u : State := { State.reset with agenda := [.write .bootstatSvnset { unit := 0, reg := 0, val := 0 }], dies := [(0, { Die.reset with svn := 3 })] }
    memoryOk s = true ∧ goesOn s = true ∧ goesOn u = true := by decide +kernel

theorem meets_ScalarArithmeticResults : ready (withSeq scalars)
    [.add false 0 4 1 3, .sub false 0 4 2 1, .and true 0 4 1 2, .or false 0 4 1 2, .xor false 0 4 1 2, .shl false 0 4 1 2, .shr true 0 4 1 2, .sra false 0 36 1 3,
     .min false 9 4 1 2, .max false 0 4 1 2, .minu false 0 4 1 2, .maxu false 0 4 1 2, .mov false 0 4 3, .addsh false 0 4 2 1 3, .clz false 0 4 2] = true := by
  decide +kernel

theorem meets_MultiplyDivideResults : ready (withSeq scalars)
    [.mul false 0 4 1 1, .mulh true 0 4 1 1, .mulhu false 0 4 1 1, .divu false 0 4 3 2, .remu true 0 4 2 40] = true := by decide +kernel

/-- Shift counts 0 and 31, and 32, which is no instruction. -/
theorem meets_ImmediateFormResults : ready (withSeq scalars)
    [.movi false 0 2 0xFFF, .addi false 0 2 0xFF8, .andi false 0 3 0xF0F, .ori true 0 2 0x100, .xori false 0 2 0xFFF, .movh false 0 2 0xABC, .shli false 0 2 0, .shli false 0 2 31,
     .shri false 0 1 31, .srai false 0 1 31] = true ∧ 32 ≤ (32#12).toNat ∧ ready inBundle [.movi false 0 3 1] = true := by decide +kernel

theorem meets_TimeLoopAndControlReads : ready (withSeq scalars) [.lidx false 0 4 5, .gtlo false 0 4, .gthi true 0 4, .ctlrd false 0 4 0x016] = true := by decide +kernel

/-- Condition codes 5 and 6, on either side of the bound. -/
theorem meets_CompareAndPredicateResults : ready (withSeq scalars)
    [.cmp false 0 1 5 1 2, .cmpi true 0 1 0 3 0xFF, .pand 0 1 0 1 false true, .por 0 1 1 2 false false, .pxor 0 1 0 1 true false] = true ∧
      (5#3).toNat < 6 ∧ 6 ≤ (6#3).toNat := by decide +kernel

/-- On its own, and in a bundle; a ring to map. -/
theorem meets_ScratchpadAndRegisterWritesAtTickEnd :
    let l : List Instr := [.sld false 0 4 40 1, .sst true 0 1 40 1, .ctlwr false 0 1 0x010, .setest 0 1 2, .setts 0 1 2, .setrm 0 3, .qmap false 0 true 40, .qunmap false 0 true]
    let k := [(0, { CoreState.reset with rings := [(0, { Ring.reset with valid := true })] })]
    ready { withSeq scalars with cores := k } l = true ∧ ready { inBundle with cores := k } l = true := by decide +kernel

/-- A task, with a bucket table 0 of capacities 4 and 16. -/
def task : Task :=
  { asid := 0, home := 0, order := 0,
    info := { entry := 0x100, taskId := 7, teams := 1, spt := 0, prio := 0, ckpt := true, kill := true, cohort := false, lenient := false, cool := 0, edges := [], rings := [],
              vmask := 0, tokens := 5, est := 0, arg := 0x500000009, maph := 0, ckh := 0, views := Vector.replicate 16 View.reset,
              buckets := [(0, { caps := [(4, 0x200), (16, 0x300)], overflow := 0x400 })], bytes := [] },
    start := 0, parked := false, killed := false, tokens := 5, teams := [Team.reset 1], dies := [], ckBase := 0, ckPinned := false, poisoned := 0, replay := none, host := none }

/-- The state in which the strand belongs to it. -/
def inTask : State := { withSeq { scalars with task := 7 } with tasks := [(7, task)] }

/-- A target of whole bundles in s4; a count that a table holds, and one that it does not (s2 = 7, s3 large). -/
theorem meets_TakenTransfers : ready inTask [.br 0 1, .call 0 0xFFFFF, .jr 0 40, .callr 0 40, .bktj 0 2 0, .bktj 0 3 0] = true := by decide +kernel

/-- A strand with a level, in a trap handler, and with two regions. -/
def nested : Seq :=
  let r : Region := { handler := 0x800, tick := 0, regs := Vector.replicate 32 0, preds := 1, loops := [], stage := none, opened := [], retired := [] }
  { scalars with loops := [{ start := 0x20, len := 4, count := 3, index := 1 }], inTrap := true, epc := 0x80, trapVec := 0x400, regions := [r, r], pc := 0x40 }

theorem meets_LoopsAndBindings :
    ready (withSeq scalars) [.loop 0 2 4095, .loop 0 40 1, .loopi 0 0xFFF 255, .loopi 0 0 1, .lstg 0 0 0] = true ∧
      ready (withSeq nested) [.loop 0 2 1, .lbrk 0, .lstg 0 1 9] = true ∧
      (me (withSeq nested)).loops.getLast? = some { start := 0x20, len := 4, count := 3, index := 1 } ∧
      (let s : State := { withSeq scalars with pages := [{ asid := 0, va := 0, size := 1, writable := true, target := .local_ 0 0 0 }], mem := [(0x20, 8)] };
        (2#12).toNat ≤ 32 ∧ 0 < (2#12).toNat ∧ (0x20 : Word) = 0x20 + BitVec.ofNat 32 (32 * 0) ∧ (fetchWords s 0x20).isSome = true) := by decide +kernel

/-- With a vector, without one, in a handler, and in a bundle. -/
theorem meets_SoftwareTrapEntersItsHandler :
    ready (withSeq { scalars with trapVec := 0x400 }) [.trap 0 255] = true ∧ (settle { scalars with trapVec := 0x400 }).trapVec ≠ 0 ∧
      (settle { scalars with trapVec := 0x400 }).inTrap = false ∧ ready (withSeq scalars) [.trap 0 255] = true ∧ (settle scalars).trapVec = 0 ∧
      ready (withSeq nested) [.trap 0 0] = true ∧ (settle nested).inTrap = true ∧ ready inBundle [.trap 0 0] = true := by decide +kernel

theorem meets_ReturnFromSoftwareTrap :
    ready (withSeq nested) [.eret 0] = true ∧ ready (withSeq { nested with issue := some bundle }) [.eret 0] = true := by decide +kernel

theorem meets_RegionsFencesAndStrandEnd :
    ready (withSeq nested) [.waitgt 0 40 40, .fence 0 4 0xFFFF, .contain 0 6, .containend 0, .exit 0] = true ∧ (me (withSeq nested)).regions.length = 2 ∧
      ready (withSeq { nested with regions := nested.regions.drop 1 }) [.containend 0] = true ∧ (nested.regions.drop 1).length = 1 ∧ ready inBundle [.exit 0] = true ∧
      (me (withSeq nested)).issue = none ∧ (me (withSeq nested)).status = .running ∧ (me (withSeq nested)).reports = [] ∧ (me (withSeq nested)).faultDue = none ∧
      (∀ p ∈ (me (withSeq nested)).queue, p.cnt ≤ 32) ∧ bankQueue (withSeq nested) 0 = [] ∧
      (∀ v < 16, (viewAt (me (landQueue (withSeq nested) 0)) v).isOpen = false) ∧ lastStrand inTask 0 = true ∧ lastStrand (withSeq nested) 0 = false ∧
      (let o : Op := { id := 5, seq := 0, slot := 5, baddr := 0, tick := 0, region := 0, idx := [], asid := 0, rcls := none, wcls := none, wtiles := [], pins := [],
                       phase := .queued, flags := 0, result := [], kind := .spadLoad 1 0 };
        ({ withSeq nested with ops := [o] } : State).ops = [o] ∧ o.phase ≠ .drained ∧ o.seq = (withSeq nested).cur) := by decide +kernel

/-- A strand of no task; and one of a task whose home is this die, or another, alone or with one more, at pod scope also in a group of another package's, or its own. -/
theorem meets_BarrierArrivalsAndWaits :
    let wide := [.bararv 0 3 7 false, .bararv 0 4 0 true, .bar 0 3 7 true true, .bar 0 4 1 false false]
    let away : State := { inTask with tasks := [(7, { task with home := 1 })] }
    let two : State := { inTask with tasks := [(7, { task with info := { task.info with spt := 1 } })] }
    let grouped := fun (m : Nat) => { inTask with pod := { Pod.reset with groups := [(2, { Group.reset with valid := true, npkg := 2, task := 7, master := m })] } }
    let count := fun (s : State) (sc id : Nat) => (barrierAt s (barrierKey 7 sc homeInst id)).count + 1
    ready inTask [.bararv 0 0 7 false, .bararv 0 2 0 true, .bar 0 2 7 true true, .bar 0 0 0 false false, .barwt 0 4 7 true] = true ∧ (2#3).toNat ≤ 2 ∧
      (ready (withSeq scalars) wide = true ∧ taskAt (withSeq scalars) 0 = none) ∧
      ([inTask, away, two, grouped 0, grouped 5].all (fun s => ready s wide && taskOf (me s) == 7) = true ∧ 3 ≤ (3#3).toNat ∧ 3 ≤ (4#3).toNat) ∧
      (taskAt away 0 = some { task with home := 1 } ∧ 1 ≠ myDie away) ∧
      ((taskAt two 0).any (fun t => t.home == myDie two && decide (count two 3 7 < t.info.teams * (t.info.spt + 1))) = true) ∧
      ((taskAt inTask 0).any (fun t => t.home == myDie inTask && decide (t.info.teams * (t.info.spt + 1) ≤ count inTask 4 0)) = true ∧ groupOf inTask 7 = none) ∧
      (groupOf (grouped 0) 7).any (fun x => x.2.master == (grouped 0).pod.id.toNat) = true ∧ (groupOf (grouped 5) 7).any (fun x => x.2.master != (grouped 5).pod.id.toNat) = true := by
  decide +kernel

/-- A 2 MiB page at virtual address 0, on die 0's HBM; an allocation of 64 KiB at its start, as handle 1. -/
def page : Page := { asid := 0, va := 0, size := 1, writable := true, target := .local_ 0 0 0 }

/-- A W view of n bytes of that allocation from an offset on. -/
def memView (off : BitVec 64) (n : Word) : View :=
  { View.reset with handle := 1, off := off, xt := #v[n, 1, 1, 1], sd := #v[1, 0, 0, 0], isOpen := true, mode := 1 }

/-- A W tile view of r rows and c columns of 2 bytes, from the first byte of a tile on. -/
def tileView (t : Nat) (r c : Word) : View :=
  { View.reset with off := BitVec.ofNat 64 (16384 * t), xt := #v[2 * c, r, 1, 1], sd := #v[1, 256, 0, 0], isOpen := true, mode := 1 }

/-- Views 0 and 1 of memory, 2 to 6 of tiles (2 x 2, 2 x 2, 1 x 2, 2 x 1, and 3 x 2), and the closed 7 of memory. -/
def viewer : Seq :=
  { scalars with views := ((((((((Seq.reset.views.set 0 (memView 0 8)).set 1 (memView 8 8)).set 2 (tileView 0 2 2)).set 3 (tileView 1 2 2)).set 4 (tileView 2 1 2)).set 5
      (tileView 3 2 1)).set 6 (tileView 4 3 2)).set 7 { memView 16 8 with isOpen := false }) }

/-- The state of that strand, with the page's translation at hand and the first byte of memory 5. -/
def viewing : State :=
  { withSeq viewer with pages := [page], tlb := [(0, [{ asid := 0, vpn := 0, result := .page page }])], mem := [(0, 5)],
                        handles := [(1, { base := 0, size := 65536, tier := 0, die := 0, gen := 0, valid := true })] }

/-- The bytes of a launch record in memory: task 9 with one team, entry 0x200, its handle 1. -/
def recorded : State := { viewing with mem := [(1, 2), (4, 9), (8, 1)] }

/-- The record is accepted; the same, with an identifier that is taken, refused with cause 2; no record at the zero handle; a die with GO, one without, and one
whose boot has failed. -/
theorem meets_LaunchOfATask :
    let go := fun (d : Die) => { recorded with dies := [(0, d)] }
    ready (go { Die.reset with go := true }) [.launch 0 41 false] = true ∧ (dieAt (go { Die.reset with go := true }) 0).go = true ∧ (dieAt recorded 0).go = false ∧
      (dieAt recorded 0).boot ≠ .failed ∧ refusal (go { Die.reset with boot := .failed }) 0 0 (launchBytes recorded (src recorded 41)) = some 1 ∧
      checkLaunch (go { Die.reset with go := true }) (src recorded 41) = .ok ∧ ready recorded [.launch 0 41 false, .launch 0 41 true] = true ∧ checkLaunch recorded (src recorded 41) = .ok ∧ refusal recorded 0 0 (launchBytes recorded (src recorded 41)) = none ∧
      refusal { recorded with tasks := [(9, task)] } 0 0 (launchBytes recorded (src recorded 41)) = some 2 ∧ ready recorded [.launch 0 40 false] = true ∧
      checkLaunch recorded (src recorded 40) = .fail 0x20 0 := by decide +kernel

/-- Format codes 0 and 12; a row selector of each kind. -/
theorem meets_RowArithmeticResults : ready rows
    [.vadd false 0 0 2 0 1 0, .vsub true 0 12 2 0 1 5, .vmul false 0 1 2 0 1 6, .vfma true 0 2 2 0 1 1, .vmin false 0 8 2 0 1 2, .vmax true 0 11 2 0 1 3, .vadds false 0 4 2 0 1 4,
     .vmuls true 0 5 2 0 1 0, .vfmas false 0 7 2 0 15 0] = true ∧ (12#4).toNat < 13 := by decide +kernel

theorem meets_RowLogicAndCompareResults : ready rows
    [.vabs false 0 0 2 0 0, .vneg true 0 8 2 0 0, .vmov false 0 12 2 0 0, .vand true 0 1 2 0 1 0, .vor false 0 2 2 0 1 0, .vxor true 0 3 2 0 1 0, .vshl false 0 8 2 0 1 0, .vshr true 0 10 2 0 1 0,
     .vsra false 0 11 2 0 1 0, .vcmpeq true 0 0 2 0 1 0, .vcmplt false 0 8 2 0 1 0, .vcmple true 0 6 2 0 1 0, .vsel false 0 7 2 0 1 0] = true := by decide +kernel

theorem meets_RowConversionResults : ready rows
    [.vcvt false 0 2 2 0 12 0, .vscl true 0 0 2 0 7 0, .vclmp false 0 0 2 0 15 0, .vexp2 true 0 0 2 0 0, .vrcp false 0 1 2 0 0, .vrsq true 0 2 2 0 0, .vrsum false 0 12 2 0 0, .vrmax true 0 0 2 0 0,
     .vrmin false 0 8 2 0 0] = true := by decide +kernel

theorem meets_RowMovementResults : ready rows
    [.vbcs false 0 0 2 1 0, .vins true 0 8 2 0 1 0, .vext false 0 12 2 0 1 0, .vperm true 0 3 2 0 1 0, .vlsh false 0 0 2 0 15 0, .vpack true 0 1 2 0 1 0, .vunpk false 0 2 2 0 true 0] = true := by
  decide +kernel

/-- Alone, and in a bundle whose XIMM extends slot 0, so that slot 7 has no extension. -/
theorem meets_ConfigurationResults :
    let x : State := withSeq { scalars with issue := some { bundle with slots := List.replicate 6 none ++ [none, some (.ximm 0 3)] } }
    ready (withSeq scalars) [.shpset 0 1 3 32, .shpcpy 0 1, .qset 0 2 3 9, .qzero 0 2, .vfset 0 1 1 2, .vfseti 0 1 5 0xFFF, .qld 0 2 40 63, .vrow false 3 4 40, .ximm 6 9] = true ∧
      extOf (withSeq scalars) 7 = none ∧ extOf x 7 = none ∧ ready x [.shpset 0 1 3 32, .vfseti 0 1 5 0xFFF] = true ∧
      ({ newestPend with dest := .shapeField 1 3 } : Pend).dest = .shapeField 1 3 ∧ newestPend.flags = 0 ∧ scalars.regions = [] := by decide +kernel

theorem meets_BoundRegisters :
    ready (withSeq scalars) [.bndset 0 3 2 1, .bndoff 0 15] = true ∧ ({ newestPend with dest := .bounds 3 } : Pend).dest = .bounds 3 ∧
      ({ newestPend with dest := .boundOff 15 } : Pend).dest = .boundOff 15 := by decide +kernel

/-- Rows at Src(a) = 0, whose view has 8 bytes, and index words of zeros. -/
theorem meets_TileTransfersEnterTheEngines :
    let V := viewAt (me viewing) 0
    let l : RowList := (List.range 64).map (fun r => some (0 + r))
    let n : RowList := (List.range 64).map (fun _ => some 0)
    checkRows viewing V l false = .ok ∧ checkRows viewing V l true = .ok ∧ checkRows viewing V n false = .ok ∧ checkRows viewing V n true = .ok ∧
      (List.range 64).all (fun r => spad32 (myCore viewing) ((src viewing 40).toNat + 4 * r) == 0) = true ∧
      ready viewing [.tld 0 1 0 40 false 0, .tst 0 1 0 40 true 15, .tgath 0 1 0 40 false 0, .tscat 0 1 0 40 false 0, .pref 0 0 40, .tspld 0 1 40, .tspst 0 1 40, .tzero 0 15, .tmovt 0 1 2,
        .tmovt 0 2 2] = true := by decide +kernel

/-- The stamp at word 1 of view 0 is zero, that at word 0 is not of status 0 with its fifth byte set. -/
theorem meets_ViewsHandlesAndCopies :
    let V := viewAt (me viewing) 0
    let X := viewAt (me viewing) 1
    let O := { viewAt (me viewing) 7 with mode := 1, scope := 2, cls := 3 }
    let bad : State := { viewing with mem := [(4, 1)] }
    checkOpen viewing 7 O = .ok ∧ openHeld viewing 7 O = false ∧ viewing.flock = [] ∧ checkOpen viewing 8 { viewAt (me viewing) 8 with mode := 0, scope := 0, cls := 0 } = .ok ∧ ready viewing [.vopen 0 7 1 2 3, .vopen 0 8 0 0 0] = true ∧ ready viewing [.vretire 0 0] = true ∧
      checkCurrent viewing 0 (src viewing 41) = .ok ∧ ready viewing [.hfree 0 41] = true ∧ checkCopy viewing V X = .ok ∧ ready viewing [.tcopy 0 0 1 41 3 true] = true ∧
      checkAred viewing V 0 = .ok ∧ ready viewing [.ared 0 1 0 40 false 0] = true ∧
      checkStamp viewing V 0 = .ok ∧ ready viewing [.waitm 0 40 0 40 true 3] = true ∧ stampVerdict viewing V 0 4 = .ok ∧
      (checkStamp bad V 0 = .ok ∧ ready bad [.waitm 0 40 0 40 false 1] = true ∧ stampDamaged bad V 0 = false ∧ anyPoison bad (stampTag bad.cur) = false ∧
        2 ^ 32 ≤ stampWord bad V 0 2) := by decide +kernel

theorem meets_AtomicsEnterTheEngines :
    ready viewing [.aadd 0 4 0 40 0 1, .amin 0 4 0 40 1 0, .amax 0 36 0 40 2 2, .aminu 0 4 0 40 3 3, .amaxu 0 4 0 41 0 1, .aand 0 4 0 40 0 1, .aor 0 4 0 40 0 1, .axor 0 4 0 40 0 1,
      .axchg 0 4 0 40 0 1, .acas 0 31 0 40 3 1, .aincb 0 4 0 40 0 1, .afadd 0 4 0 40 0 1, .afaddh 0 4 0 40 0 1, .ald 0 4 0 40 1 1, .ast 0 63 0 40 2 1] = true ∧
      [AtomicOp.add, .smin, .smax, .umin, .umax, .and, .or, .xor, .xchg, .cas, .incb, .fadd, .faddh, .load, .store].all
        (fun k => checkAtomic viewing (viewAt (me viewing) 0) k 0 == .ok && checkAtomic viewing (viewAt (me viewing) 0) k 1 == .ok) = true := by decide +kernel

/-- A ring 0 of core 0 that sequencer 0 fills, with one slot; a SEND to it that is granted, one that has waited in vain, and one in a bundle. -/
def ringed (q : Seq) : State :=
  { withSeq q with cores := [(0, { CoreState.reset with rings := [(0, { Ring.reset with valid := true, nslot := 0 })] })] }

theorem meets_MessagesLeave :
    ready (ringed scalars) [.send 0 40 2 40 false] = true ∧ (me (ringed scalars)).sendFull = false ∧ sendState (ringed scalars) 0 (src (ringed scalars) 40) = .granted ∧
      ready (ringed { scalars with sendFull := true, preds := 3 }) [.send 1 40 2 40 true, .send 0 40 2 40 false] = true ∧ ((1#4).toNat % 8 ≠ 0) ∧
      ready (ringed { scalars with sendFull := true, stage := some { level := 0, mask := 15, pending := false }, preds := 0x11 }) [.send 4 40 2 40 false] = true ∧
      ready (ringed { scalars with sendFull := true, issue := some bundle, preds := 3 }) [.send 1 40 2 40 false] = true := by decide +kernel

theorem meets_ArrayCommandsEnterTheQueue :
    ready viewing [.mm 0 1 3 1 true 3 2 true, .mmcmp 0 7 15 2 false 10, .mstatTile 0 7 3 true 12, .mswap 0, .lease 0, .acczeroFp 0 2 4, .acczeroInt 0 3,
      .accld 0 0 6 2 true 8 true, .accnorm 0 2 2 3 false, .accchk 0 5, .accdrain 0 6 2 1 false 8 5 7, .accdrain 0 6 2 1 false 0 0 0, .fold 0 1 3 true, .lrel 0] = true := by decide +kernel

/-- The translation checks pass where every address has a place. -/
theorem checkPages_of_places {s : State} {die asid : Nat} {wr : Bool} {k : Ask} {l : List Nat} {f : Nat → Nat} (h : ∀ a ∈ l, xlate s die asid a wr = .at_ (f a)) :
    checkPages s die asid wr k l = .ok := by
  have none_of : ∀ x, (∀ n, x ≠ .at_ n) → l.find? (fun va => k.meets s (xlate s die asid va wr) == x) = none := by
    intro x hx
    simp only [List.find?_eq_none, beq_iff_eq]
    intro a ha e
    rw [h a ha] at e
    exact hx _ e.symm
  have missing : l.filter (fun va => xlate s die asid va wr == .miss) = [] := by
    simp only [List.filter_eq_nil_iff, beq_iff_eq]
    intro a ha e
    rw [h a ha] at e
    cases e
  simp [checkPages, missingPages, missing, distinct, pageFault, none_of]

/-- The same state with a bundle in issue. -/
def viewingInBundle : State := { viewing with seqs := [(0, { viewer with issue := some bundle })] }

theorem checkFetch_of_places {s : State} {h : Word} {f : Nat → Nat} (hc : checkHandle s 6 (me s).asid h = .ok) (hs : ¬ (handleEntry s (me s).asid h).size < 32768)
    (hp : ∀ j < 32768, xlate s (myDie s) (me s).asid ((handleEntry s (me s).asid h).base + j) false = .at_ (f ((handleEntry s (me s).asid h).base + j))) :
    checkFetch s h = .ok := by
  have hl : ∀ n k, n = 32768 → checkPages s (myDie s) (me s).asid false k ((List.range n).map (fun j => (handleEntry s (me s).asid h).base + j)) = .ok := by
    intro n k hn
    refine checkPages_of_places (f := f) ?_
    intro a ha
    obtain ⟨j, hj, rfl⟩ := List.mem_map.mp ha
    exact hp j (hn ▸ List.mem_range.mp hj)
  have e : checkFetch s h = (checkHandle s 6 (me s).asid h).andThen
      ((if (handleEntry s (me s).asid h).size < 32768 then
        Check.fail 0x24 (BitVec.ofNat 64 ((handleEntry s (me s).asid h).base + (handleEntry s (me s).asid h).size)) else .ok).andThen
        (checkPlaces s (myDie s) (me s).asid false (handleEntry s (me s).asid h) none ((List.range 32768).map (fun j => (handleEntry s (me s).asid h).base + j)))) := rfl
  rw [e, hc, if_neg hs, checkPlaces, hl 32768 _ rfl]
  rfl

/-- MSTAT from handle 1, in a bundle: its 32 KiB pass their checks. -/
theorem meets_ArrayCommandsEnterTheQueue_handle :
    ready viewingInBundle [.mstatHandle 0 41 1 true 3] = true ∧ checkFetch viewingInBundle (src viewingInBundle 41) = .ok := by
  have hi : (me viewingInBundle).issue.isSome = true := by decide +kernel
  have hg : guardTrue (me viewingInBundle).preds (guardOf (.mstatHandle 0 41 1 true 3)) = true := by decide +kernel
  have hr : slotReady (.mstatHandle 0 41 1 true 3) viewingInBundle = true := by rw [slotReady, hg, hi]; rfl
  have he : handleEntry viewingInBundle (me viewingInBundle).asid (src viewingInBundle 41) =
      { base := 0, size := 65536, tier := 0, die := 0, gen := 0, valid := true } := by decide +kernel
  refine ⟨by rw [ready, List.all_cons, hr]; rfl, checkFetch_of_places (f := fun a => location 0 a) (by decide +kernel) (by decide +kernel) ?_⟩
  intro j hj
  have hv : (0 + j) / 65536 = 0 := by omega
  have ht : tlbFind viewingInBundle (myDie viewingInBundle) (me viewingInBundle).asid (0 + j) = some (.page page) := by
    unfold tlbFind
    rw [hv]
    decide +kernel
  simp only [he, xlate, xlateAs, ht]
  simp [page, pagePlace, unitOf]

/-- A 2 x 2 sum, its matrix-vector and matrix-matrix products, and the BANK commands. -/
theorem meets_PlacedAndBankCommandsEnter :
    let c := fun (op : PlacedOp) (d a : BitVec 4) (b : Option (BitVec 4)) => checkPlaced viewing 0 { op := op, vd := d, va := a, vb := b, fmt := 2, sg := 0, sw := false }
    c .add 2 2 (some 3) = .ok ∧ c .max 2 3 (some 4) = .ok ∧ c .red 5 2 none = .ok ∧ c .mv 5 2 (some 4) = .ok ∧ c .mm 3 2 (some 3) = .ok ∧
      ready viewing [.tadd 0 2 2 3 2 0 false, .tsub 0 2 2 3 1 1 true, .tmul 0 2 2 3 2 0 false, .tmax 0 2 3 4 2 0 false, .tred 0 5 2 2 0 false, .tmv 0 5 2 4 2 0 false,
        .tmm 0 3 2 3 2 0 true, .pabm 0 41 7 0, .pbcast 0 41 7 5, .pmac 0 41 7 1, .pread 0 41 7 4, .pexit 0 41] = true ∧ anyPoison viewing (readTag 0) = false := by decide +kernel

/-- A false guard, a hold (a busy register), and an issue trap with nothing that holds. -/
theorem meets_GuardsHoldsAndTraps :
    (me (withSeq scalars)).issue = none ∧ guardTrue scalars.preds (guardOf (.add false 1 4 1 2)) = false ∧
      (firstHold (holdsOf (withSeq { scalars with busy := 2 }) (.add false 0 4 1 2))).isSome = true ∧ guardTrue scalars.preds (guardOf (.lbrk 0)) = true ∧
      firstHold (holdsOf (withSeq scalars) (.lbrk 0)) = none ∧ (firstTrap (trapsOf (withSeq scalars) 0 (.lbrk 0))).isSome = true ∧
      (dieAt (withSeq scalars) 0).trace.en = false := by decide +kernel

/-- The state, with sequencer 2 in all-bank mode on pseudo-channel 0 of die 0. -/
def banked (s : State) : State :=
  { s with seqs := s.seqs ++ [(2, { Seq.reset with bank := some { die := 0, channel := 0, handle := 1, off := 0, bx := [], bacc := [] } })] }

/-- The trace unit off, room in the event queue, and a record whose pseudo-channel is free or held. -/
theorem meets_StopsWriteTheFaultRecord :
    (settle scalars).queue.length ≤ 32 ∧ (dieAt (withSeq scalars) 0).trace.en = false ∧ (eventsAt (withSeq scalars) 0).count < 512 ∧
      (eventsAt (withSeq scalars) 0).waiting = [] ∧ channelHeld (withSeq scalars) 0 = false ∧ channelHeld (banked (withSeq scalars)) 0 = true ∧
      scalars.sqfra = 0 ∧ location 0 0 < location 48 0 := by decide +kernel

/-- In a bundle; alone with no region; alone with two and a contained cause, and with one that is not contained. -/
theorem meets_SlotFaultsAndContainment :
    (me inBundle).issue = some bundle ∧ scalars.regions = [] ∧ isContained 0x20 = false ∧ nested.issue = none ∧ nested.regions.length = 2 ∧ isContained 0x2A = true := by
  decide +kernel

/-- A row past the allocation; a stale handle; a view that its own strand has open elsewhere; an atomic out of view. -/
theorem meets_FailingChecksAreSlotFaults :
    let far := { memView 65535 8 with handle := 1 }
    let s : State := { viewing with seqs := [(0, { viewer with views := (viewer.views.set 0 far).set 9 { memView 0 8 with handle := 2, isOpen := false } })] }
    let l : RowList := (List.range 64).map (fun r => some (0 + r))
    let fails := fun (c : Check) (x : Nat) => (match c with
      | .fail y _ => x == y
      | _ => false) = true
    fails (checkRows s far l false) 0x24 ∧ fails (checkRows s far l true) 0x24 ∧ ready s [.tld 0 1 0 40 false 0, .tst 0 1 0 40 false 0, .tgath 0 1 0 40 false 0, .tscat 0 1 0 40 false 0] = true ∧
      fails (checkCurrent s 0 (src s 42)) 0x20 ∧ ready s [.hfree 0 42] = true ∧
      fails (checkOpen s 9 { viewAt (me s) 9 with mode := 1, scope := 2, cls := 3 }) 0x20 ∧ ready s [.vopen 0 9 1 2 3] = true ∧
      fails (checkCopy s far (viewAt (me s) 1)) 0x24 ∧ ready s [.tcopy 0 0 1 40 0 false] = true ∧
      fails (checkAtomic s far .add 2) 0x23 ∧ fails (checkAtomic s far .cas 2) 0x23 ∧ fails (checkAtomic s far .load 2) 0x23 ∧ fails (checkAtomic s far .store 2) 0x23 ∧
      ready s [.aadd 0 4 0 42 0 1, .acas 0 0 0 42 0 1, .ald 0 4 0 42 1 1, .ast 0 4 0 42 2 1] = true ∧ fails (checkLaunch s (src s 42)) 0x20 ∧
      ready s [.launch 0 42 false] = true ∧ handleCurrent s 0 2 = false ∧ (5, (2 : Word)) ∉ (me s).pinned := by decide +kernel

/-- Two entries due for s4, the later of slot 1, and one that is not due. -/
theorem meets_PendingWritesLandInOrder :
    let p : Pend := { newestPend with dest := .scalar 4, cnt := 1, slot := 1 }
    let o : Pend := { newestPend with dest := .latch, cnt := 1, slot := 0 }
    let sq : Seq := { scalars with queue := [o, { p with slot := 0, value := 8 }, { p with cnt := 3 }, p] }
    let due := sq.queue.filter (fun p => decide (p.cnt ≤ 1))
    due = [o, { p with slot := 0, value := 8 }] ++ p :: [] ∧ p.superseded = none ∧ isMapped sq 4 = false ∧ p.slot < 8 ∧ (∀ x ∈ due, x.dest ≠ .scalar 5) := by decide +kernel

/-- s31 mapped to a ring with a message, and no mapping of s30. -/
theorem meets_PopsAndTheirFrame :
    let s : State := { ringed { scalars with map31 := some { ring := 0, held := none } } with
                       cores := [(0, { CoreState.reset with rings := [(0, { Ring.reset with valid := true, nslot := 3, base := 2, count := 2, tail := 2 })] })] }
    (me s).map30 = none ∧ (me s).map31 = some { ring := 0, held := none } ∧ queueHead s s.cur { ring := 0, held := none } = some 0x200 ∧
      (31 : BitVec 6) ∈ [31, (4 : BitVec 6)] ∧ (30 : BitVec 6) ∉ [31, (4 : BitVec 6)] := by decide +kernel

/-- A strand without mappings has no mapping of an event queue. -/
theorem meets_FrameInABundle : slotOf (.mm 0 1 3 1 true 3 2 true) = some .e ∧ (me inBundle).issue = some bundle ∧ ringsOnly inBundle ∧ answers (.mm 0 1 3 1 true 3 2 true) inBundle = true := by
  refine ⟨by decide, by decide +kernel, ?_, by decide +kernel⟩
  intro hi m h
  cases hi <;> simp [mapOf, me, seqAt, inBundle, withSeq, scalars, Seq.reset, State.reset, tget] at h

/-- Sequencer q at a bundle of bytes at address 0. -/
def fetching (q : Nat) (l : List Byte) : State := placeCode State.reset q (l ++ List.replicate (32 - l.length) 0)

/-- The slots of a bundle with ADD s3, s1, s2 in slot 0. -/
def addSlots : Slots := some (.add false 0 3 1 2) :: List.replicate 7 none

/-- The primary's bundle, the secondary's, and the tick of an empty one. -/
theorem meets_BundleIssueIsATick :
    (let s := fetching 0 [0x08, 0xC1, 0x10, 0x00]
      let p := prepared { closeCycle s 0 with cur := 0 }
      let t := prepared (setCore p 0 { coreAt p 0 with primaryMask := some (occMask addSlots) })
      coreFrozen s 0 = false ∧ guardDue (closeCycle s 0) 0 = false ∧ judge p = .issue addSlots 1 ∧ (me p).reissue = none ∧ judge t = .issue addSlots 1 ∧
        (me t).reissue = none ∧ (me p).status = .running) ∧
    (let c := fetching 1 [0x08, 0xC1, 0x10, 0x00]
      let s := fun (m : BitVec 8) => setCore c 0 { coreAt c 0 with primaryMask := some m }
      let x := { setCore (s 6) 0 { coreAt (s 6) 0 with primaryMask := none, wait := 0 } with cur := 1 }
      coreFrozen (s 6) 0 = false ∧ readyMask (s 6) 1 = some 1 ∧ (coreAt (s 6) 0).primaryMask = some 6 ∧ (6 : BitVec 8) &&& 1 = 0 ∧
        judge (prepared x) = .issue addSlots 1 ∧ (me (prepared x)).reissue = none ∧ (me x).status = .running ∧
        coreFrozen (s 3) 0 = false ∧ readyMask (s 3) 1 = some 1 ∧ (coreAt (s 3) 0).primaryMask = some 3 ∧ ((3 : BitVec 8) &&& 1).getLsbD 0 = true) ∧
    (me (withSeq scalars)).delayCount = 0 ∧ atBoundary scalars scalars.pc = false ∧ (dieAt (withSeq scalars) 0).trace.sen = false ∧ scalars.landing = .none_ ∧
      scalars.tickOpen = false ∧ scalars.due = none ∧ (seqAt (fetching 0 []) 0).resumeAsked = none ∧ (seqAt (fetching 1 []) 1).resumeAsked = none ∧
      (seqAt (fetching 0 []) 0).faultDue = none ∧ (seqAt (fetching 1 []) 1).faultDue = none := by decide +kernel

/-- A strand that has passed the last bundle, at 0x80, of the level at 0x20 for the last time. -/
def leaving : Seq := { scalars with loops := [{ start := 0x20, len := 4, count := 3, index := 2 }], due := some (.exit 0x80) }

/-- A core whose secondary has waited 64 cycles with a bundle; its primary has one, or none. -/
def starved (both : Bool) : State :=
  let s := fetching 1 [0x08, 0xC1, 0x10, 0x00]
  setCore (if both then setSeq s 0 (seqAt s 1) else s) 0 { coreAt s 0 with wait := 64 }

theorem meets_PartsOfACycle :
    (let t := prepared (closeCycle { fetching 0 [0x08, 0xC1, 0x10, 0x00] with cur := 0 } 0);
      coreFrozen (fetching 0 [0x08, 0xC1, 0x10, 0x00]) 0 = false ∧ (me t).reissue = none ∧ (me t).tickOpen = false ∧ judge t = .issue addSlots 1 ∧
        issuesNow t (occMask addSlots) = true) ∧
    (let t := prepared { fetching 1 [0x08, 0xC1, 0x10, 0x00] with cur := 1 };
      (me t).reissue = none ∧ (me t).tickOpen = false ∧ judge t = .issue addSlots 1 ∧ issuesNow t (occMask addSlots) = true) ∧
    judge (prepared { fetching 0 [0x08, 0xC1, 0x10, 0x10] with cur := 0 }) = .skip ∧
    (leaving.due = some (.exit 0x80) ∧ leaving.loops = [] ++ [{ start := 0x20, len := 4, count := 3, index := 2 }] ∧
      lastOf { start := 0x20, len := 4, count := 3, index := 2 } = 0x80 ∧ (3 : Word).toNat ≤ (2 : Word).toNat + 1) ∧
    ({ scalars with due := some .expire } : Seq).due = some .expire ∧
    (guardDue (starved true) 0 = true ∧ coreFrozen (starved true) 0 = false ∧
      isReady (setCore (starved true) 0 { coreAt (starved true) 0 with primaryMask := none, wait := 0 }) 0 = true) ∧
    (guardDue (starved false) 0 = true ∧ isReady (setCore (starved false) 0 { coreAt (starved false) 0 with primaryMask := none }) 0 = false ∧
      (me (prepared { setCore (starved false) 0 { coreAt (starved false) 0 with primaryMask := none } with cur := 0 })).reissue = none) ∧
    (({ scalars with status := .waiting 0 } : Seq).status = .waiting 0 ∧ (0 : BitVec 64) ≤ gtAt State.reset 0 ∧ gtAt State.reset 0 < 1) := by decide +kernel

/-- An engine's report of no region and of region 1, a contained cause; an unwind with nothing left; a SEND that has waited. -/
def failure : EngineReport :=
  { op := 5, cause := 0x2A, engine := 0, cqn := 0, slot := 5, baddr := 0x40, idx := [], aux0 := 0, aux1 := 0, region := 0 }

def fullRing : State :=
  let s := fetching 0 (List.replicate 20 0 ++ [0x80, 0x0A, 0x8A, 0x02])
  { setSeq s 0 { seqAt s 0 with sendWait := 4096 } with cores := [(0, { CoreState.reset with rings := [(0, { Ring.reset with valid := true, count := 1 })] })] }

theorem meets_EngineFaultsAndUnwinds :
    coreFrozen (withSeq { scalars with freeze := true }) 0 = true ∧ coreFrozen (withSeq { scalars with reports := [failure] }) 0 = false ∧
    (let sq := { scalars with reports := [failure] };
      sq.reports = failure :: [] ∧ sq.status = .running ∧ sq.reissue = none ∧ sq.endPending = false ∧ failure.region = 0) ∧
    (0 < ({ failure with region := 1 } : EngineReport).region ∧ ({ failure with region := 1 } : EngineReport).region ≤ nested.regions.length ∧ isContained failure.cause = true) ∧
    (let q := { nested with status := .unwinding, unwind := some { depth := 2, causeWord := 1, detail := 0 } };
      q.unwind = some { depth := 2, causeWord := 1, detail := 0 } ∧ (q.regions.head?.map (fun r => (r.opened, r.retired))) = some ([], []) ∧ q.queue = [] ∧
        coreFrozen (withSeq q) 0 = false ∧ regionBusy (withSeq q) 0 2 = false) ∧
    ((dieAt fullRing 0).ringWait.toNat ≤ (seqAt fullRing 0).sendWait ∧ waitingSend { fullRing with cur := 0 } = true) := by decide +kernel

/-- A stopped strand: after an issue trap (kind 0), a slot fault (1) or an engine fault (2). -/
def stopped (kind : Nat) (op : Option Nat) : Seq :=
  { scalars with status := .faulted, stop := some { kind := kind, cause := 0x20, slot := 5, engine := 0, cqn := 0, aux0 := 0, aux1 := 0, cmask := 0xDF, baddr := 0, idx := [], op := op } }

/-- An operation in flight, of sequencer 0 and number 5. -/
def flight (p : OpPhase) (k : OpKind) : Op :=
  { id := 5, seq := 0, slot := 5, baddr := 0, tick := 0, region := 0, idx := [], asid := 0, rcls := none, wcls := none, wtiles := [], pins := [], phase := p, flags := 1, result := [],
    kind := k }

/-- The viewing strand's state with that operation in flight. -/
def flying (o : Op) : State := { viewing with ops := [o], nextOp := 6 }

theorem mayAct_of {s : State} {o : Op} (h : (opAt s o.id == some o && !coreFrozen s (coreOf o.seq) && !(seqAt s o.seq).endPending) = true) : mayAct s o := by
  simpa [mayAct, and_assoc] using h

/-- What the statements about an operation that its engine may move ask of the state. -/
def free (s : State) (o : Op) : Bool := mayPerform s o && (requestsOf s o.id).isEmpty && s.forwards.all (fun f => f.op != o.id)

/-- A record that reads back (all zero), one that does not (a delay count of 3), a bundle whose mask is wrong (nothing in it), and a frozen core. -/
theorem meets_DebugBlock :
    let rec_ := fun (s : State) => readRecord (memBytes s.mem (location (dieOf 0) (seqAt s 0).sqfra.toNat) 8960) (seqAt s 0).queue (seqAt s 0).ticks
    (stopped 0 none).status = .faulted ∧ (stopped 0 none).stop.isSome = true ∧ (rec_ (withSeq (stopped 0 none))).isSome = true ∧
      rec_ { withSeq (stopped 0 none) with mem := [(36, 3)] } = none ∧ badMask (withSeq (stopped 1 none)) 0 0 0 = false ∧
      badMask { withSeq (stopped 1 none) with pages := [page] } 0 0 0 = true ∧
      opAt { flying (flight .failed (.array .mswap)) with seqs := [(0, stopped 2 (some 5))] } 5 = some (flight .failed (.array .mswap)) ∧
      (stopped 0 none).endPending = false ∧ seqState (withSeq scalars) 0 ≠ 3 ∧ seqState (withSeq { scalars with freeze := true }) 0 = 3 ∧
      (let s := fun (l : List Byte) (b : BitVec 33) => setSeq (fetching 0 l) 0 { seqAt (fetching 0 l) 0 with freeze := true, busy := b };
        seqState (s [0x08, 0xC1, 0x10, 0x00] 0) 0 = 3 ∧ (seqAt (s [0x08, 0xC1, 0x10, 0x00] 0) 0).status = .running ∧
          (seqAt (s [0x08, 0xC1, 0x10, 0x00] 0) 0).unwind = none ∧ (seqAt (s [0x08, 0xC1, 0x10, 0x00] 0) 0).reports = [] ∧
          (seqAt (s [0x08, 0xC1, 0x10, 0x00] 0) 0).reissue = none ∧ judge (prepared { s [0x08, 0xC1, 0x10, 0x00] 0 with cur := 0 }) = .issue addSlots 1 ∧
          (match judge (prepared { s [0x08, 0xC1, 0x10, 0x00] 2 with cur := 0 }) with
            | .held _ => true
            | _ => false) = true) := by decide +kernel

/-- Each phase of a load of two rows through view 0, one out of view by its index; a tile write; scratchpad transfers; a store of the view's 8 bytes. -/
theorem meets_TileAccessesPerform :
    let v := memView 0 8
    let rows : RowList := [some 0, none]
    let a := fun (k : OpKind) => flying (flight .queued k)
    let load := OpKind.load 1 rows v
    let store := OpKind.store [0x0807060504030201] [some 0] v
    let done : Op := { flight .performed load with result := List.replicate 64 7 }
    let vas := fun (s : State) => addrsOf s 0 v (rowPositions v rows)
    mayAct (a load) (flight .queued load) ∧ mayAct (flying done) done ∧ mayAct (a store) (flight .queued store) ∧ mayAct (a (.spadLoad 1 0)) (flight .queued (.spadLoad 1 0)) ∧
      (free (a load) (flight .queued load) = true ∧ reach (a load) 5 0 0 false (vas (a load)) = .ok ∧ bankHeld (a load) 0 0 (vas (a load)) = false ∧
        remoteDests (a load) 0 0 false (vas (a load)) = [] ∧ readsWait (a load) 0 0 0 (vas (a load)) = false ∧ vas (a load) ≠ []) ∧
      (free (flying done) done = true ∧ done.result.length = 64) ∧ spadBehind (a (.spadLoad 1 0)) (flight .queued (.spadLoad 1 0)) = false ∧
      (List.replicate 64 (0 : Row)).length = 64 ∧ spadBehind (a (.spadStore [1] 256)) (flight .queued (.spadStore [1] 256)) = false ∧
      (let l := storeBytes (a store) (flight .queued store) [0x0807060504030201] [some 0] v;
        l.length = 8 ∧ free (a store) (flight .queued store) = true ∧ reach (a store) 5 0 0 true (l.map Prod.fst) = .ok ∧ bankHeld (a store) 0 0 (l.map Prod.fst) = false ∧
          remoteDests (a store) 0 0 true (l.map Prod.fst) = []) := by
  refine ⟨mayAct_of (by decide +kernel), mayAct_of (by decide +kernel), mayAct_of (by decide +kernel), mayAct_of (by decide +kernel), ?_⟩
  decide +kernel

/-- A copy of view 1 into view 0 that may start, that has started, and that has performed (status 0 and 3, with and without a stamp or an event); a retire. -/
theorem meets_CopiesAndRetires :
    let d := memView 0 8
    let e := memView 8 8
    let c := fun (d : View) (ev started : Bool) (st : Nat) => OpKind.copy d e 0 1 9 2 ev started st
    let a := fun (p : OpPhase) (k : OpKind) => flying (flight p k)
    let stamped := { d with stamp := 64 }
    let m := min (viewSize d) (viewSize e)
    let s := a .queued (c d false true 0)
    let sv := addrsOf s 0 e (List.range m)
    let dv := addrsOf s 0 d (List.range m)
    let place := fun (v : View) (wr : Bool) (l : Nat) => placeKey (xlateLate s 0 0 (posAddr s 0 v l).toNat wr)
    let bytes := (List.range 8).map (fun j => (64 + j, (leBytes 8 9).getD j 0))
    let t := a .performed (c stamped false true 0)
    let r := a .queued (.retire 0 d true)
    mayAct s (flight .queued (c d false true 0)) ∧ mayAct t (flight .performed (c stamped false true 0)) ∧ mayAct r (flight .queued (.retire 0 d true)) ∧
      (copyHead (a .queued (c d false false 0)) 0 2 = some (flight .queued (c d false false 0)) ∧
        meetsScratch (a .queued (c d false false 0)) (flight .queued (c d false false 0)) d e = false) ∧
      (free s (flight .queued (c d false true 0)) = true ∧ e.poison = false ∧ 0 < m ∧ reach s 5 0 0 false sv = .ok ∧ reach s 5 0 0 true dv = .ok ∧ remoteDests s 0 0 false sv = [] ∧
        remoteDests s 0 0 true dv = [] ∧ bankHeld s 0 0 (sv ++ dv) = false ∧ readsWait s 0 0 0 sv = false ∧ (∀ i < m, ∀ j < m, place e false i ≠ place d true j)) ∧
      (free (a .queued (OpKind.copy d { e with poison := true } 0 1 9 2 false true 0)) (flight .queued (OpKind.copy d { e with poison := true } 0 1 9 2 false true 0)) = true ∧ ({ e with poison := true } : View).poison = true) ∧
      (performedAt t (flight .performed (c stamped false true 0)) 0 = true ∧ (flight .performed (c stamped false true 0)).result = [] ∧ writesBefore t (flight .performed (c stamped false true 0)) 0 = true ∧ mayPerform t (flight .performed (c stamped false true 0)) = true ∧
        reach t 5 0 0 true (bytes.map Prod.fst) = .ok ∧ bankHeld t 0 0 (bytes.map Prod.fst) = false ∧ remoteDests t 0 0 true (bytes.map Prod.fst) = []) ∧
      (performedAt (a .performed (c d true true 0)) (flight .performed (c d true true 0)) 0 = true ∧ (eventsAt t 0).count < 512 ∧ (eventsAt t 0).waiting = []) ∧
      (0 < 3 ∧ (3 : Nat) < 2 ^ 32 ∧ d.stamp = 0xFFFFFFFF ∧ stamped.stamp ≠ 0xFFFFFFFF ∧ (seqAt t 0).unwind = none) ∧ (0 : Nat) < 16 ∧ retireWaits r (flight .queued (.retire 0 d true)) 0 0 = false := by
  refine ⟨mayAct_of (by decide +kernel), mayAct_of (by decide +kernel), mayAct_of (by decide +kernel), ?_⟩
  decide +kernel

/-- An atomic on word 0 of view 0, a load and a store of it, a load of a register through a register page, a word of an ARED, a SEND with a slot and one without
a ring, a result that arrives, and a forwarded write. -/
theorem meets_AtomicsResultsAndMessages :
    let v := memView 0 8
    let at_ := fun (op : AtomicOp) => OpKind.atomic op 4 7 9 0 v 0 1 0
    let a := fun (k : OpKind) => flying (flight .queued k)
    let vas := fun (s : State) => addrsOf s 0 v ((List.range 4).map (fun j => 4 * 0 + j))
    let regs : State := { a (at_ .load) with tlb := [(0, [{ asid := 0, vpn := 0, result := .page { page with target := .registers 0 } }])] }
    let k := OpKind.send 5 0
    let sent : State := { a k with cores := [(0, { CoreState.reset with rings := [(0, { Ring.reset with valid := true })] })] }
    let f : Forward := { id := 3, op := 5, die := 0, slice := 0, cells := [(2 ^ 48, 7)] }
    mayAct (a (at_ .add)) (flight .queued (at_ .add)) ∧ mayAct (flying { flight .performed (at_ .add) with result := [9] }) { flight .performed (at_ .add) with result := [9] } ∧
      mayAct sent (flight .queued k) ∧
      (free (a (at_ .add)) (flight .queued (at_ .add)) = true ∧ registerPlace (a (at_ .add)) (flight .queued (at_ .add)) 0 v = none ∧
        reach (a (at_ .add)) 5 0 0 true (vas (a (at_ .add))) = .ok ∧ bankHeld (a (at_ .add)) 0 0 (vas (a (at_ .add))) = false ∧
        xlateLate (a (at_ .add)) 0 0 ((vas (a (at_ .add))).headD 0) true = .at_ 0 ∧ forwardsAhead (a (at_ .add)) 0 0 = false ∧ homeDie 0 = some 0 ∧ homeDie 3 = some 0) ∧
      (registerPlace regs (flight .queued (at_ .load)) 0 v = some (0, 0)) ∧ (1 ∈ [1, (2 : Nat)]) ∧
      (sendBehind sent (flight .queued k) 0 = false ∧ meshBehind sent (flight .queued k) 0 = false ∧ writesBefore sent (flight .queued k) (meetScope 0 0 (sendsHere sent 0)) = true ∧ sendsHere sent 0 = true ∧
        ringMine sent 0 (tget Ring.reset (coreAt sent 0).rings 0) = true ∧ ringMine (a k) 0 (tget Ring.reset (coreAt (a k) 0).rings 0) = false ∧ (seqAt (a k) 0).unwind = none) ∧
      (isMapped viewer 4 = false ∧ viewer.status ≠ .faulted ∧ (stopped 0 none).status = .faulted ∧ 5 ∉ (stopped 0 none).arrived) ∧ (0 : Word).toNat / 2 ^ 26 % 32 = 0 ∧ (0x40000000 : Word).toNat / 2 ^ 26 % 32 ≠ 0 ∧
      (let s : State := { viewing with forwards := [f] };
        let h : State := { s with seqs := [(0, { viewer with bank := some { die := 1, channel := 0, handle := 1, off := 0, bx := [], bacc := [] } })] };
        let b : State := { s with forwards := [{ f with id := 2 }, f] };
        f ∈ s.forwards ∧ (∀ g ∈ s.forwards, g.id = f.id → g = f) ∧ forwardBehind s f = false ∧ forwardHeld s f = false ∧ opAt s f.op = none ∧
          forwardHeld h f = true ∧ (f ∈ b.forwards ∧ (∀ g ∈ b.forwards, g.id = f.id → g = f) ∧ forwardBehind b f = true)) := by
  refine ⟨mayAct_of (by decide +kernel), mayAct_of (by decide +kernel), mayAct_of (by decide +kernel), ?_⟩
  decide +kernel

/-- The state with a quad 0 and an array command of core 0 at the head of its queue. -/
def arrayed (x : Quad) (c : ArrayCmd) : State := { flying { flight .queued (.array c) with slot := 6 } with quads := [(0, x)] }

/-- A lease that core 0 holds, with n commands run. -/
def held (n : Nat) (l : List Bool) : Quad := { Quad.reset with holder := some 0, commands := n, explicit := #v[l.getD 0 false, l.getD 1 false, l.getD 2 false, l.getD 3 false] }

/-- A waiting core; a bound of 64 commands, with a waiting core 1 and with none; each command; one that fails (a floating step into an integer accumulator); a drain
of one row. -/
theorem meets_LeasesAndArrayCommands :
    let o := fun (c : ArrayCmd) => { flight .queued (.array c) with slot := 6 }
    let head := fun (c : ArrayCmd) (x : Quad) => (arrayQueue (arrayed x c) 0).head? == some (o c) && free (arrayed x c) (o c)
    let bad : Quad := { held 0 [] with array := { ArrayState.reset with accs := ArrayState.reset.accs.set 0 { Acc.reset with integer := true } } }
    let one : Plane := { Plane.reset with mrows := 1, ncols := 1 }
    mayAct (arrayed (held 0 []) .mswap) (o .mswap) ∧ mayAct (arrayed (held 0 []) .lrel) (o .lrel) ∧
      (let asks := fun (x : Quad) => { arrayed x .mswap with
                 cores := [(0, { CoreState.reset with team := some (teamKey 7 0) }), (1, { CoreState.reset with team := some (teamKey 7 0) })],
                 tasks := [(7, { task with info := { task.info with ckh := 1 } })], pages := [{ page with size := 2 }],
                 seqs := [(0, viewer), (2, { viewer with bank := some { die := 0, channel := 5, handle := 1, off := 0, bx := [], bacc := [] } })] };
        Quad.reset.holder = none ∧ leaseWaits (arrayed Quad.reset .mswap) 0 0 = true ∧ handoverHeld (arrayed Quad.reset .mswap) 0 0 = false ∧
          handoverHeld (arrayed (held 64 [true, true]) .mswap) 0 1 = false ∧ handoverHeld (asks Quad.reset) 0 0 = true ∧
          handoverHeld (asks (held 64 [true, true])) 0 1 = true ∧ nextWaiting (asks (held 64 [true, true])) 0 0 = some 1) ∧ (held 0 []).holder ≠ none ∧
      ((held 64 [true, true]).holder = some 0 ∧ boundReached (held 64 [true, true]) = true ∧ commandUnderWay (arrayed (held 64 [true, true]) .mswap) 0 0 = false ∧ arrayStuck (arrayed (held 64 [true, true]) .mswap) 0 0 = false ∧
        coreFrozen (arrayed (held 64 [true, true]) .mswap) 0 = false ∧ nextWaiting (arrayed (held 64 [true, true]) .mswap) 0 0 = some 1 ∧
        nextWaiting (arrayed (held 64 [true]) .mswap) 0 0 = none) ∧
      (head .lrel (held 63 []) = true ∧ head .lrel Quad.reset = true ∧ Quad.reset.holder ≠ some 0 ∧ head .lease (held 63 []) = true ∧ head .mswap (held 63 []) = true ∧ boundReached (held 63 []) = false ∧ (63 : Nat) < 64) ∧
      ((arrayed (held 63 []) .mswap).damaged.contains (arrayStorage 0) = false ∧ ({ arrayed (held 63 []) .mswap with damaged := [arrayStorage 0] } : State).damaged.contains (arrayStorage 0) = true) ∧
      (match runArray bad.array [] (.mm 0 [0] one 2 none) with
        | .ok _ => false
        | .error _ => true) = true ∧
      (match runArray ArrayState.reset [] (.accdrain 0 3 one 0 none false false 0) with
        | .ok x => x.2.2.length == 1
        | .error _ => false) = true := by
  refine ⟨mayAct_of (by decide +kernel), mayAct_of (by decide +kernel), ?_⟩
  decide +kernel

/-- A placed sum of one element, at home 0, into a tile view and into memory, in bounds and out of a view's bounds; each BANK command in a mode that it may find;
walks that a die has asked for. -/
theorem meets_PlacedBankAndWalks :
    let t := tileView 2 1 1
    let v := { memView 0 2 with sd := #v[1, 0, 0, 0] }
    let k := fun (d : View) => OpKind.placed .add d t t 2 [0x3F80] [0x3F80] 1 1 1 false 0 0 0
    let o := fun (d : View) => { flight .queued (k d) with slot := 6 }
    let s := fun (d : View) => flying (o d)
    let l := placedResult .add 2 0 [0x3F80] [0x3F80] 1 1 1 false
    let bytes := ((resultBytes l).zip (List.range (2 * l.length))).map (fun x => ((posAddr (s v) 0 v x.2).toNat, x.1))
    let small : View := { t with ben := true, blo := 0, bhi := 0x3F800000 }
    let b : BankMode := { die := 0, channel := 0, handle := 1, off := 0, bx := [], bacc := [] }
    let c := fun (x : BankCmd) => { flight .queued (.bank x) with slot := 6 }
    let bs := fun (x : BankCmd) (m : Option BankMode) => { flying (c x) with seqs := [(0, { viewer with bank := m })] }
    let h := fun (x : BankCmd) (m : Option BankMode) => (bankQueue (bs x m) 0).head? == some (c x) && free (bs x m) (c x)
    let w : State := { viewing with walks := [(0, [(0, 0), (0, 31), (0, 32)])] }
    mayAct (s t) (o t) ∧ mayAct (bs (.pexit 1) (some b)) (c (.pexit 1)) ∧
      (([1, 2] : List Nat).length = 2 * 1 ∧ (0 : Nat) < 2 * 1 ∧ (1 : Nat) < 2 * 1) ∧
      (free (s t) (o t) = true ∧ firstOut 2 t l = none ∧ t.handle = 0) ∧
      (free (s v) (o v) = true ∧ firstOut 2 v l = none ∧ v.handle ≠ 0 ∧ bytes.length = 2 ∧ reach (s v) 5 0 0 true (bytes.map Prod.fst) = .ok ∧
        bankHeld (s v) 0 0 (bytes.map Prod.fst) = false ∧ remoteDests (s v) 0 0 true (bytes.map Prod.fst) = []) ∧
      (firstOut 2 small l = some 0 ∧ (seqAt (s small) 0).unwind = none) ∧
      (computeFails (s small) (o small) 0 = false ∧ computeFails { s small with damaged := [computeUnits 0] } (o small) 0 = true) ∧
      (h (.pabm 1 0) none = true ∧ remotePage (bs (.pabm 1 0) none) 0 0 = false ∧
        remotePage { bs (.pabm 1 0) none with pages := [{ page with target := .remote 2 0 0 }] } 0 0 = true ∧ h (.pabm 1 0) (some b) = true ∧ handleCurrent (bs (.pabm 1 0) none) 0 1 = true ∧ channelBusy (bs (.pabm 1 0) none) (c (.pabm 1 0)) 0 0 = false) ∧
      (h (.pexit 2) (some b) = true ∧ b.handle ≠ 2 ∧ h (.pexit 1) (some b) = true ∧ h (.pbcast 1 0) (some b) = true ∧ h (.pbcast 2 0) (some b) = true ∧
        h (.pread 1 3 15) (some b) = true) ∧
      (h (.pmac 1 1 0) (some b) = true ∧ listRefusal 0 65536 1 = none ∧ stepWords 1 = [0] ∧
        reach (bs (.pmac 1 1 0) (some b)) 5 0 0 false (granuleAddrs 0 0 0) = .ok ∧ remoteDests (bs (.pmac 1 1 0) (some b)) 0 0 false (granuleAddrs 0 0 0) = []) ∧
      ((0, 31) ∈ ({ w with badTables := [(0, 31)] } : State).badTables ∧ (0, 31) ∉ w.badTables ∧ (0, 32) ∉ w.badTables ∧ (0, 31) ∈ tget [] w.walks 0 ∧ pageFor w.pages 0 (31 * 65536) = some page ∧ (0, 32) ∈ tget [] w.walks 0 ∧ pageFor w.pages 0 (32 * 65536) = none) := by
  refine ⟨mayAct_of (by decide +kernel), mayAct_of (by decide +kernel), ?_⟩
  decide +kernel

/-- A row of one element with a column and with three, and finite terms; commands of another handle, outside the mode, and a PEXIT with a write that waits for it. -/
theorem meets_PlacedBankAndWalks_sums :
    let b : BankMode := { die := 0, channel := 0, handle := 1, off := 0, bx := [], bacc := [] }
    let c := fun (x : BankCmd) => { flight .queued (.bank x) with slot := 6 }
    let bs := fun (x : BankCmd) (m : Option BankMode) => { flying (c x) with seqs := [(0, { viewer with bank := m })] }
    let h := fun (x : BankCmd) (m : Option BankMode) => (bankQueue (bs x m) 0).head? == some (c x) && free (bs x m) (c x)
    (([2] : List Nat).length = 1 * 1 ∧ ([3] : List Nat).length = 1 ∧ ([3, 4, 5] : List Nat).length = 1 * 3 ∧ (2 : Nat) < 3 ∧
      decodeFloat 2 0x3F80 = .fin false 128 (-7) ∧ decodeFloat 2 0 = .fin false 0 (-133)) ∧
      (h (.pmac 2 1 0) (some b) = true ∧ h (.pread 2 3 15) (some b) = true ∧ b.handle ≠ 2 ∧ [.pexit 1, .pbcast 1 0, .pmac 1 1 0, .pread 1 3 15].all (fun x => h x none) = true) ∧
      (let f : Forward := { id := 3, op := 9, die := noDie, slice := 0, cells := [(5, 7)] };
        let x : State := { bs (.pexit 1) (some b) with forwards := [f] };
        free x (c (.pexit 1)) = true ∧ (bankQueue x 0).head? = some (c (.pexit 1)) ∧ forwardHeld x f = true ∧ forwardHeld (setSeq x 0 { seqAt x 0 with bank := none }) f = false) := by decide +kernel

/-- A write while a change is in progress and while none is; COUNT 8 and 9; an invalidation in progress; a ring that is registered; a way's loss. -/
theorem meets_DieRegistersChange :
    let x : Slice := { Slice.reset with scratchBusy := true, old := 1 }
    let s : State := { viewing with slices := [(0, x)], mem := [(2 ^ 52, 7)] }
    let i : Invalidation := { dest := none, asid := 0, size := 0, vpn := 0 }
    x.scratchBusy = true ∧ Slice.reset.scratchBusy = false ∧ 9 % 16 > 8 ∧ 8 % 16 ≤ 8 ∧ (({ Die.reset with xlinv := some i } : Die).xlinv.isSome = true) ∧ Die.reset.xlinv = none ∧
      (({ Ring.reset with valid := true } : Ring).valid = true ∧ (2 ^ 63 : Nat).testBit 63 = true ∧ (0 : Nat).testBit 63 = false) ∧
      ((sliceAt s 0 0).scratchBusy = true ∧ (∀ o ∈ s.ops, touchesWays s 0 0 (sliceAt s 0 0).old o = false) ∧
        (∀ f ∈ s.forwards, ∀ c ∈ f.cells, inWays 0 0 (sliceAt s 0 0).old c.1 = false) ∧ inWays 0 0 (sliceAt s 0 0).old (2 ^ 52) = true) ∧
      (let u : State := { viewing with dies := [(0, { Die.reset with xlinv := some i })] };
        (dieAt u 0).xlinv = some i ∧ u.pod.waits.any (fun w => w.2.1 == 0 && !(destAt u w.1).fenced) = false ∧ heldRead u 0 = false ∧
          (∀ o ∈ u.ops, usesEntry u 0 i o = false) ∧ (tget [] u.tlb 0).filter (entryMatches i) ≠ []) := by decide +kernel

theorem meets_EveryInstructionAnswers : State.reset.cur < 2080 := by decide

/-- Die 0, started, with these tasks. -/
def upDie (l : List (Nat × Task)) : State := { State.reset with dies := [(0, { Die.reset with go := true })], tasks := l }

/-- A task with one team, of die 0, in a phase, on core 0 of quad 0 unless it waits. -/
def teamed (t : Task) (p : TeamPhase) : Task :=
  { t with teams := [{ Team.reset 1 with die := some 0, phase := p, mask := if p = .waiting then 0 else 1 }] }

/-- A record changed. -/
def withRecord (t : Task) (f : LaunchRec → LaunchRec) : Task := { t with info := f t.info }

/-- A team at the head of die 0 that fits on quad 0; a cohort that fits, and one whose team belongs to a die without GO; a task whose view is not registered; a
completion on its way, one behind another, an arrival that is not the last, and one that is. -/
theorem meets_PlacementAndLaunchViews :
    let t := teamed task .waiting
    let s := upDie [(7, t)]
    let e : OrderEntry := { key := 7, team := 0, cohort := false, restore := false, prio := 0, order := 0 }
    let c := withRecord t (fun r => { r with cohort := true })
    let far : Task := { c with teams := [{ Team.reset 1 with die := some 1 }] }
    let w := withRecord t (fun r => { r with vmask := 1, views := Vector.replicate 16 (memView 0 8) })
    let clash : State :=
      { upDie [(7, w)] with flock := [(0, [{ seq := some 0, task := none, reg := 0, asid := 0, view := memView 0 8, wide := false }])],
                            handles := [(1, { base := 0, size := 65536, tier := 0, die := 0, gen := 0, valid := true })] }
    let m := fun (a : Bool) => BarrierMsg.mk 3 (barrierKey 7 3 0 0) 0 a 1
    let two := withRecord t (fun r => { r with spt := 1 })
    let b := fun (a : Bool) => { upDie [(7, two)] with barMsgs := [m a] }
    (orderHead s 0 = some e ∧ taskNo s 7 = some t ∧ (teamAt t 0).die = some 0 ∧ (dieAt s 0).go = true ∧ viewsReady t 0 = true ∧
      bestQuad s (freeQuads s 0 t.info) = some 0 ∧ 0 < t.teams.length) ∧
      (orderHead (upDie [(7, c)]) 0 = some { e with cohort := true } ∧ (placeCohort 1 0 (upDie [(7, c)]) 7).isSome = true) ∧
      (orderHead (upDie [(7, far)]) 0 = some { e with cohort := true } ∧ placeCohort 1 0 (upDie [(7, far)]) 7 = none) ∧
      (taskNo (upDie [(7, w)]) 7 = some w ∧ wantsViews (upDie [(7, w)]) 0 7 w = true ∧ 0 ∉ w.dies ∧ w.parked = false ∧ w.killed = false ∧
        (registerLaunch (upDie [(7, w)]) 7 w 0 (launchViews w.info)).2 = true ∧ (registerLaunch clash 7 w 0 (launchViews w.info)).2 = false ∧
        launchViews w.info = [(0, memView 0 8)] ∧ flockDies (memView 0 8) 0 = [0] ∧ (flockAt clash 0).find? (isLaunchEntry 7 (0, memView 0 8)) = none ∧
        flockRoom (flockAt clash 0) w.asid (memView 0 8) = some false ∧ flockAt (upDie [(7, w)]) 0 = [] ∧
        (∃ x ∈ flockAt clash 0, flockConflict clash x { launchEntry 7 w 0 (0, memView 0 8) with wide := false } = true)) ∧
      (messageBehind (b false) (m false) = false ∧ messageBehind { b false with barMsgs := [m false, { m false with id := 2 }] } (m false) = true) ∧
      ((b false).barMsgs.find? (fun x => x.id == (m false).id) = some (m false) ∧ (m false).arrival = false) ∧
      ((b true).barMsgs.find? (fun x => x.id == (m true).id) = some (m true) ∧ (m true).arrival = true ∧ tfind (b true).tasks ((m true).key / 2 ^ 26) = some two ∧
        (barrierAt (b true) (barrierKey ((m true).key / 2 ^ 26) (keyScope (m true).key) homeInst (keyId (m true).key))).count + 1 < two.info.teams * (two.info.spt + 1)) ∧
      (let u : State := { upDie [(7, t)] with barMsgs := [m true] };
        messageBehind u (m true) = false ∧ tfind u.tasks ((m true).key / 2 ^ 26) = some t ∧ keyScope (m true).key ≠ 4 ∧ keyScope (barrierKey 7 4 0 0) = 4 ∧ groupOf u t.info.taskId = none ∧
          t.info.teams * (t.info.spt + 1) ≤ (barrierAt u (barrierKey ((m true).key / 2 ^ 26) (keyScope (m true).key) homeInst (keyId (m true).key))).count + 1) := by
  decide +kernel

/-- A newcomer (task 9, priority 1, 17 units of coolant) of die 0, and a victim (task 7, priority 0, 16 units) on quad 0. -/
def rivals (f g : LaunchRec → LaunchRec) (est : BitVec 64) : State :=
  { upDie [(7, withRecord (teamed task .placed) (fun r => f { r with cool := 16 })),
           (9, { withRecord (teamed task .waiting) (fun r => g { r with taskId := 9, prio := 1, cool := 17 }) with tokens := 400 })] with
    seqs := [(0, { Seq.reset with est := est, status := .running })],
    handles := [(1, { base := 0, size := 65536, tier := 0, die := 0, gen := 0, valid := true })] }

/-- No newcomer; one without a victim; one whose victim runs out early, may be checkpointed, may not be killed, and one without the tokens; a wait that has passed
and one that has not; a landed team; a team that is out at the head; a parked task, and a killed one. -/
theorem meets_DecisionsCheckpointsAndCommands :
    let some_ := fun (s : State) (g : OrderEntry × Task → Bool) => (newcomer s 0).any g && (dieAt s 0).decision.isNone
    let vic := fun (x : State) (g : Nat × Task × List Nat → Task → Bool) => some_ x (fun e => (victim x 0 e.1 e.2).any (fun v => g v e.2))
    let none_ := fun (r : LaunchRec) => { r with prio := 0 }
    let ck := fun (r : LaunchRec) => { r with ckh := 1 }
    let noKill := fun (r : LaunchRec) => { r with kill := false }
    let rich : State := { rivals id id 2000000 with dies := [(0, { Die.reset with go := true, killCost := 400 })] }
    let poor : State := { rivals id id 2000000 with dies := [(0, { Die.reset with go := true, killCost := 401 })] }
    let noted := fun (c : Nat) (p : Word) (s : State) => { s with dies := [(0, { Die.reset with go := true, pperiod := p, decision := some { code := c, newTask := 9, newTeam := 0, victim := 7, teams := [0], since := 0 } })] }
    let l : Task := teamed task .landing
    let o : Task := teamed task .out
    let landed : State := { upDie [(7, l)] with seqs := [(0, { Seq.reset with status := .running, landing := .landed 5 })] }
    let named := fun (t : Task) => { upDie [(7, t)] with bus := { unit := 0, reg := 0, val := 7 } }
    let p : Task := { teamed task .waiting with parked := true }
    (newcomer (upDie []) 0 = none ∧ (dieAt (upDie []) 0).decision = none) ∧ some_ (rivals id none_ 0) (fun e => (victim (rivals id none_ 0) 0 e.1 e.2).isNone) = true ∧
      vic (rivals id id 0) (fun v _ => decide ((largestEst (rivals id id 0) 0 v.2.1).toNat < (dieAt (rivals id id 0) 0).drainLimit.toNat)) = true ∧
      vic (rivals ck id 2000000) (fun v n => decide (¬ (largestEst (rivals ck id 2000000) 0 v.2.1).toNat < (dieAt (rivals ck id 2000000) 0).drainLimit.toNat) &&
        mayCheckpoint (rivals ck id 2000000) 0 n v.2.1 v.2.2) = true ∧
      vic (rivals noKill id 2000000) (fun v n => decide (¬ (largestEst (rivals noKill id 2000000) 0 v.2.1).toNat < (dieAt (rivals noKill id 2000000) 0).drainLimit.toNat) &&
        !mayCheckpoint (rivals noKill id 2000000) 0 n v.2.1 v.2.2 && !v.2.1.info.kill) = true ∧
      vic poor (fun v n => decide (¬ (largestEst poor 0 v.2.1).toNat < (dieAt poor 0).drainLimit.toNat) && !mayCheckpoint poor 0 n v.2.1 v.2.2 &&
        decide (n.tokens < v.2.2.length * (dieAt poor 0).killCost.toNat)) = true ∧
      vic rich (fun v n => decide (¬ (largestEst rich 0 v.2.1).toNat < (dieAt rich 0).drainLimit.toNat) && !mayCheckpoint rich 0 n v.2.1 v.2.2 && v.2.1.info.kill &&
        decide (v.2.2.length * (dieAt rich 0).killCost.toNat ≤ n.tokens) && decide (v.1 = 7) && taskNo rich 7 == some v.2.1 && !v.2.1.killed) = true ∧
      (let again := noted 4 0 (rivals id id 0);
        ((dieAt again 0).decision.any (fun d => d.code == 4 && waitOver again 0 d) = true) ∧ (newcomer again 0).any (fun e => (victim again 0 e.1 e.2).isSome) = true) ∧
      (let x := fun (p : TeamPhase) => { Team.reset 1 with die := some 0, phase := p, mask := 1 };
        let v : Task := { task with teams := [x .placed, x .landing, x .waiting, x .out] };
        [0, 1].all (fun k => ((teamAt v k).phase == .placed || (teamAt v k).phase == .landing) && liveStrands (teamAt v k) == [0]) = true ∧
          [2, 3].all (fun k => (teamAt v k).phase == .waiting || (teamAt v k).phase == .out) = true ∧ v.killed = false ∧
          findTask (named v) 7 = some (7, v) ∧ taskNo (named v) 7 = some v) ∧
      ((dieAt (noted 4 9 (rivals id id 0)) 0).decision.any (fun d => d.code == 4 && !waitOver (noted 4 9 (rivals id id 0)) 0 d) = true) ∧
      ((dieAt (noted 1 9 (rivals id id 0)) 0).decision.any (fun d => d.code != 4) = true) ∧
      ((dieAt (noted 4 0 (upDie [])) 0).decision.any (fun d => d.code == 4 && decide ((dieAt (noted 4 0 (upDie [])) 0).pperiod.toNat ≤ (gtAt (noted 4 0 (upDie [])) 0 - d.since).toNat)) = true ∧
        newcomer (noted 4 0 (upDie [])) 0 = none) ∧
      (taskNo landed 7 = some l ∧ 0 < l.teams.length ∧ (teamAt l 0).phase = .landing ∧ teamLanded landed (teamAt l 0) = true ∧ eventRoom landed ((teamAt l 0).quad / 16) = true ∧
        l.killed = false) ∧
      (taskNo (upDie [(7, o)]) 7 = some o ∧ 0 < o.teams.length ∧ (teamAt o 0).phase = .out ∧ (orderHead (upDie [(7, o)]) 0).any (fun e => e.restore && e.key == 7 && e.team == 0) = true ∧
        coresFree (upDie [(7, o)]) o (teamAt o 0) = true ∧ (dieAt (upDie [(7, o)]) 0).go = true ∧ eventRoom (upDie [(7, o)]) 0 = true ∧
        virtualHeld (upDie [(7, o)]) o.asid o.ckBase 0x2B8000 = false) ∧
      (let n : Task := withRecord p (fun r => { r with edges := [{ ptask := 5, evmask := 1 }] });
        n.parked = true ∧ producerKilled { named n with killed := [5] } n.asid 5 = true ∧ ({ ptask := 5, evmask := 1 } : Edge).evmask.getLsbD 0 = true) ∧
      ([task, p, { task with killed := true }].all (fun t => findTask (named t) (BitVec.ofNat 32 (named t).bus.val) == some (7, t) && taskNo (named t) 7 == some t) = true ∧
        p.parked = true ∧ task.parked = false ∧ task.killed = false) := by decide +kernel

/-- A host queue of die 0 with an entry of a kind at HEAD, whose launch record stands at 4096 (a good one) or at 0 (a bad one). -/
def hosted (kind : Nat) (good : Bool) : State :=
  { viewing with mem := [(0, BitVec.ofNat 8 kind), (8, 1), (4097, 2), (4100, 9), (4104, 1)],
                 handles := [(1, { base := if good then 4096 else 0, size := 8192, tier := 0, die := 0, gen := 0, valid := true })],
                 hqs := [(5, { HostQueue.reset with valid := true, tail := 1, slot := some 0 })] }

/-- A task whose teams have ended, also killed; a ready queue without a slot; an entry of each kind; a launch refused and one accepted; an entry to complete; each
write of HQCTL. -/
theorem meets_TasksEndAndHostQueuesRun :
    let e := teamed task .ended
    let k : Task := { e with killed := true }
    let q : State := { State.reset with hqs := [(3, { HostQueue.reset with valid := true, tail := 1 })] }
    let x := fun (s : State) => hqAt s 5
    let l := fun (s : State) => entryBytes s (x s) (x s).head.toNat
    let bytes := fun (s : State) => virtualBytes s (x s).asid (handleEntry s (x s).asid (wordAt (l s) 8)).base 2816
    let h : HostEntry := { index := 0, kind := 3, status := some 0, written := false }
    let ctl := fun (on : Bool) (logn : Nat) => (if on then 2 ^ 63 else 0) + logn * 2 ^ 32
    (forwardsFree q = true ∧ (let f : State := { upDie [(7, e)] with seqs := [(0, { Seq.reset with bank := some { die := 0, channel := 0, handle := 1, off := 0, bx := [], bacc := [] } })], forwards := [{ id := 3, op := 5, die := 1, slice := 0, cells := [(0, 7)] }] };
        taskNo f 7 = some e ∧ forwardsFree f = false ∧ eventRoom f e.home = true)) ∧
    (let held := fun (s : State) => { s with seqs := [(0, { viewer with bank := some { die := 0, channel := 0, handle := 1, off := 0, bx := [], bacc := [] } })] };
      let r : Task := { withRecord e (fun r => { r with vmask := 1, views := Vector.replicate 16 (memView 0 8) }) with replay := some 0 };
      let d : State := { viewing with tasks := [(7, r)], dies := [(0, { Die.reset with go := true })] };
      digestHeld (held d) r = true ∧ digestHeld d r = false ∧ taskNo (held d) 7 = some r ∧ r.teams.all (fun x => x.phase == .ended) = true ∧
        [0, 1, 2, 3, 4].all (fun n => mayRead (held (hosted n true)) (x (hosted n true)) && entryHeld (held (hosted n true)) (x (hosted n true)) (l (hosted n true)) &&
          !entryHeld (hosted n true) (x (hosted n true)) (l (hosted n true))) = true) ∧
    (let a := fun (n : Nat) => hosted n true; let g := fun (n : Nat) => { hosted n true with dies := [(0, { Die.reset with go := true })] };
      [1, 2].all (fun n => !accepting (a n) 0 && accepting (g n) 0 && entryKind (l (g n)) == n && (x (g n)).entries.isEmpty &&
        recordReadable (g n) (x (g n)) (wordAt (l (g n)) 8) && !recordReadable { g n with handles := [] } (x (g n)) (wordAt (l (g n)) 8)) = true) ∧
    (pageFor viewing.pages 0 4 = some page ∧ pagePlace viewing true page 4 = .at_ (4 + 0)) ∧ q.seqs = [] ∧
    ([e, k].all (fun t => taskNo (upDie [(7, t)]) 7 == some t && t.teams.all (fun y => y.phase == .ended) && eventRoom (upDie [(7, t)]) t.home) = true ∧
        (dieAt (upDie [(7, e)]) e.home).replay.mode = 0 ∧ e.replay = none ∧ (dieAt (upDie [(7, e)]) e.home).trace.en = false) ∧
      (((freeSlots q).hqs.filter (fun y => y.2.slot.isSome)).length < 32 ∧ nextReady (freeSlots q) (freeSlots q).admitted 1024 = some 3) ∧
      ([0, 1, 2, 3, 4].all (fun n => mayRead (hosted n true) (x (hosted n true)) && entryKind (l (hosted n true)) == n) = true) ∧
      ([1, 2].all (fun n => mayRead (hosted n true) (x (hosted n true)) && recordReadable (hosted n true) (x (hosted n true)) (wordAt (l (hosted n true)) 8) &&
          (refusal (hosted n true) 0 0 (bytes (hosted n true))).isNone) = true) ∧
      ([1, 2].all (fun n => recordReadable (hosted n false) (x (hosted n false)) (wordAt (l (hosted n false)) 8) &&
          (refusal (hosted n false) 0 0 (bytes (hosted n false))).isSome) = true) ∧
      (mayComplete { HostQueue.reset with entries := [h] } h = true) ∧
      ((ctl true 3) / 2 ^ 32 % 16 < 4 ∧ 12 < (ctl true 13) / 2 ^ 32 % 16 ∧ (ctl true 4) / 2 ^ 32 % 16 = 4 ∧ (ctl true 4).testBit 63 = true ∧ (ctl false 12) / 2 ^ 32 % 16 = 12 ∧
        (ctl false 12).testBit 63 = false ∧ HostQueue.reset.valid = false ∧ (x (hosted 0 true)).valid = true ∧ (dieAt (hosted 0 true) 0).boot ≠ .failed) := by decide +kernel

/-- A zone, in each of the conditions that its steps ask for. -/
theorem meets_CoolingZonesRun :
    let z := Zone.reset
    let hot : Zone := { z with tout := 0x411 }
    (z.mode ≤ 1 ∧ z.catq = [] ∧ 2 ≤ ({ z with mode := 2 } : Zone).mode ∧ ({ z with mode := 3 } : Zone).mode = 3 ∧ z.mode ≠ 3 ∧ z.mode ≠ 4) ∧
      (let s := fun (r : LaunchRec → LaunchRec) (q : SeqStatus) =>
          { upDie [(7, withRecord (teamed task .placed) r)] with
            seqs := [(0, { Seq.reset with status := q })], cores := [(0, { CoreState.reset with team := some (teamKey 7 0) })],
            zones := [(0, { z with catq := [(0, { task := 7, units := 4 })] })],
            handles := [(1, { base := 0, size := 65536, tier := 0, die := 0, gen := 0, valid := true })] };
        let ck := fun (r : LaunchRec) => { r with ckh := 1 };
        let t := fun (r : LaunchRec → LaunchRec) => withRecord (teamed task .placed) r;
        zoneTasks (s ck .running) 0 = [7] ∧ taskNo (s ck .running) 7 = some (t ck) ∧ (t ck).killed = false ∧ leavingTeams (s ck .running) 0 7 (t ck) = [0] ∧ affectedTeams (s ck .running) 0 7 (t ck) = [0] ∧
          mayEvacuate (s ck .running) (t ck) [0] = true ∧ mayEvacuate (s id .running) (t id) [0] = false ∧ leavingTeams (s id .running) 0 7 (t id) = [0] ∧ affectedTeams (s id .running) 0 7 (t id) = [0] ∧
          zoneTasks (s id .running) 0 = [7] ∧ 7 ∈ zoneTasks (s id .running) 0) ∧
      (0 / 256 % 8 < hot.thrHot ∧ overTemp hot = true ∧ overTemp z = false) ∧
      (z.lf = false ∧ z.flow < z.flowMin ∧ z.valve ≠ 0 ∧ 1000000 ≤ ({ z with lowFor := 1000000 } : Zone).lowFor ∧ z.lowFor < 1000000) ∧
      (hot.ot = false ∧ hot.toutMax < hot.tout ∧ z.tout ≤ z.toutMax) ∧
      (z.dr = false ∧ z.press < z.dryP ∧ 1000000 ≤ ({ z with dryFor := 1000000 } : Zone).dryFor ∧ ({ z with mode := 2, dryFor := 1000000 } : Zone).mode = 2 ∧ ({ z with mode := 5, dryFor := 1000000 } : Zone).mode ≠ 2 ∧ z.dryFor < 1000000) ∧
      (let d : Zone := { z with mode := 2, step := 2, stepFor := 200000000 };
        d.mode = 2 ∧ d.step = 2 ∧ d.drainMs * 1000000 ≤ d.stepFor ∧ d.catq = [] ∧ ({ d with stepFor := 199999999 } : Zone).stepFor < d.drainMs * 1000000) ∧
      (let d : Zone := { z with mode := 2, step := 4, stepFor := 2000000000 };
        d.mode = 2 ∧ d.step = 4 ∧ d.purgeMs * 1000000 ≤ d.stepFor) ∧
      (let d : Zone := { z with mode := 2, step := 5, stepFor := 1000000000, pressAt := 6 };
        d.mode = 2 ∧ d.step = 5 ∧ d.decayMs * 1000000 ≤ d.stepFor ∧ ¬ d.pressAt - d.press ≤ d.decayMax ∧ ({ d with press := 1 } : Zone).pressAt - 1 ≤ d.decayMax) ∧
      (let d : Zone := { z with mode := 5, flow := 8, press := 50, goodFor := 10000000 };
        d.mode = 5 ∧ d.flowMin ≤ d.flow ∧ d.dryP ≤ d.press ∧ 10000000 ≤ d.goodFor ∧ z.goodFor < 10000000) ∧ (eventsAt State.reset 0).count < 512 ∧ (eventsAt State.reset 0).waiting = [] := by
  decide +kernel

/-- The viewing strand's package, with links up on station 0 and destination 2 valid in the address space of the page. -/
def podded (p : Pod) : State :=
  { viewing with pod := { p with linkEn := true, up := 1, rtimeout := 5, dests := [(2, { PodDest.reset with valid := true })] }, gt := [(0, 9)] }

/-- A write that changes LASID of a valid destination, and those that may be; a request to send, one sent, and one that has waited long enough; requests of each
kind from destination 2, from one that is not valid, out of memory, and for no ring. -/
theorem meets_PodStreamsAndFences :
    let r : Request := { id := 4, op := noOp, dest := 2, cls := 0, sent := none, answered := false, poison := false, answer := [], kind := .read [0] }
    let s := fun (x : Request) => podded { Pod.reset with requests := [x] }
    let c := fun (d : Nat) (k : IncomingKind) => Incoming.mk 6 d 0 k
    let a := fun (d : Nat) (k : IncomingKind) => podded { Pod.reset with incoming := [c d k] }
    let placed := fun (k : IncomingKind) (w : Bool) (va n : Nat) => (incomingPlaces (a 2 k) (destAt (a 2 k) 2).lasid w va n).any (fun l => !placesHeld (a 2 k) l)
    ((2 ^ 63 + 2 ^ 40 : Nat).testBit 63 = true ∧ (destAt (s r) 2).lasid ≠ (2 ^ 63 + 2 ^ 40) / 2 ^ 40 % 4096 ∧ (destAt (s r) 2).valid = true ∧ (destAt (s r) 3).valid = false ∧
        (0 : Nat).testBit 63 = false) ∧ (s r).pod.linkEn = true ∧ State.reset.pod.linkEn = false ∧
      (requestNo (s r) 4 = some r ∧ (destAt (s r) 2).fenced = false ∧ (stationOf (s r) 2 0).isSome = true ∧ requestBehind (s r) r = false ∧ (destAt (s r) 2).pend < 1023) ∧
      (let m : Request := { r with dest := 3, kind := .ringSlot 0 };
        requestNo (s m) 4 = some m ∧ (stationOf (s m) 3 0).isSome = true ∧ (destAt (s m) 3).fenced = false ∧
          requestNo (s { r with dest := 3 }) 4 = some { r with dest := 3 } ∧ (destAt (s r) 3).valid = false ∧ (destAt (s r) 3).fenced = false ∧
          isOrphan { r with op := orphanTag 0, sent := some 4 } = true ∧ isOrphan r = false) ∧
      (requestNo (s { r with sent := some 4 }) 4 = some { r with sent := some 4 } ∧ (s r).pod.rtimeout.toNat ≤ (gtAt (s r) 0 - 4).toNat) ∧
      (let f : State := { s r with pod := { (s r).pod with dests := [(2, { PodDest.reset with valid := true, fenced := true })] } };
        requestNo f 4 = some r ∧ (destAt f 2).fenced = true) ∧
      ((destAt (s r) 2).rasid = 0 ∧ (destAt (s r) 2).stav ≠ (2 ^ 61 + 2 ^ 63 : Nat).testBit 61) ∧
      (let g : Ring := { Ring.reset with valid := true, ppkg := 2, pseq := 9 };
        let u := fun (n : Nat) (out : Bool) => { a 2 (.slot 0 9) with cores := [(0, if out then { CoreState.reset with suspended := some [(0, g)] } else
          { CoreState.reset with rings := [(0, { g with count := n })] })] };
        let i := c 2 (.slot 0 9);
        incomingRing (u 0 false) i 0 9 = some { g with count := 0 } ∧ (g.nslot.toNat + 1 ≤ 1) ∧ incomingRing (u 1 false) i 0 9 = some { g with count := 1 } ∧
          incomingRing (u 0 true) i 0 9 = none ∧ incomingSuspended (u 0 true) i 0 9 = true ∧ incomingSuspended (a 2 (.slot 0 9)) i 0 9 = false) ∧
      (let h : State := { a 2 (.read 0 4) with seqs := [(0, { viewer with bank := some { die := 0, channel := 0, handle := 1, off := 0, bx := [], bacc := [] } })] };
        (incomingPlaces h 0 false 0 4).any (placesHeld h) = true ∧ (incomingPlaces h 0 true 0 4).any (placesHeld h) = true) ∧
      (incomingPlaces (a 2 (.write (2 ^ 40) [7])) 0 true (2 ^ 40) 1 = none ∧ 6 % 4 ≠ 0) ∧
      ([c 2 (.read 0 4), c 2 .other, c 3 (.read 0 4)].all (fun i => (a i.dest i.kind).pod.incoming.find? (fun x => x.id == i.id) == some i &&
          (a i.dest i.kind).pod.incoming.find? (fun x => x.dest == i.dest && x.cls == i.cls) == some i) = true ∧ (destAt (a 3 (.read 0 4)) 3).valid = false) ∧
      (placed (.read 0 4) false 0 4 = true ∧ placed (.write 65535 [7]) true 65535 1 = true ∧ placed (.atomic .add 4 0 0 0) true 4 4 = true) ∧
      (incomingPlaces (a 2 (.read (2 ^ 40) 2)) 0 false (2 ^ 40) 2 = none ∧ incomingRing (a 2 (.message 0 0 0)) (c 2 (.message 0 0 0)) 0 0 = none) := by decide +kernel

/-- A destination that is valid and one that is not; a translation request of this package that is out; a die that is busy with an invalidation; the master and a
package behind it; a barrier group of three members, whose master is this package; a member that waits while the group is fenced. -/
theorem meets_TranslationsTimeAndPodBarriers :
    let t : Request := { id := 4, op := noOp, dest := 2, cls := 0, sent := some 4, answered := false, poison := false, answer := [], kind := .translation 0 0 0 5 }
    let busy : State := { State.reset with dies := [(3, { Die.reset with xlinv := some { dest := none, asid := 0, size := 0, vpn := 0 } })] }
    let s := podded Pod.reset
    let g : Group := { Group.reset with valid := true, npkg := 3, task := 7 }
    let w : Seq := { Seq.reset with status := .running, task := 7, barWait := some (barrierKey 7 4 0 1, 0x40), barriers := [(33, { arr := true, gen := 0 })] }
    let b : State := { State.reset with tasks := [(7, task)], seqs := [(0, w)],
                                        pod := { Pod.reset with groups := [(0, g)], dests := [(0, { PodDest.reset with valid := true, fenced := true })] } }
    ((destAt s 2).valid = true ∧ (destAt s 3).valid = false ∧ (destAt s 2).fenced = false ∧ s.pod.gtMaster = false ∧ (podded { Pod.reset with gtMaster := true }).pod.gtMaster = true) ∧
      (let t := podded { Pod.reset with gtMaster := true, timeSent := some 8 };
        Pod.reset.timeSent = none ∧ ¬ 1000000 ≤ (gtAt t 0 - 8).toNat ∧ 1000000 ≤ (gtAt { t with gt := [(0, 1000008)] } 0 - 8).toNat) ∧
      (let l : State := { b with pod := { b.pod with groups := [(0, { g with arrived := [(1, 5), (2, 5), (1, 0)] })] } };
        (groupAt l 0).valid = true ∧ (groupAt l 0).master = l.pod.id.toNat ∧ (destAt l 0).valid = true ∧
          groupSize (groupAt l 0) ≤ ((groupAt l 0).arrived.filter (fun y => y.1 == 1 % 8)).length + 1 ∧ findTask l (groupAt l 0).task = some (7, task)) ∧
      ((answered 2 [(1, 0, { dest := none, asid := 0, size := 0, vpn := 0 }), (2, 0, { dest := none, asid := 0, size := 0, vpn := 0 })]).length = 1) ∧
      (w.status = .running ∧ w.endPending = false ∧ (0, seqAt b 0) ∈ b.seqs ∧ phaseOpen b 0 4 (1 % 8) = true ∧ keyScope (barrierKey 7 4 0 1) = 4 ∧ keyId (barrierKey 7 4 0 1) = 1) ∧
      (t ∈ (podded { Pod.reset with requests := [t] }).pod.requests ∧ t.dest = 2 ∧ t.sent.isSome = true ∧ 5 / 65536 = 0 ∧ (0 : Nat) % 4 = 0 ∧ 3 % 2 = 1 ∧ pageFor s.pages 0 (0 * 65536) = some page) ∧
      ((∀ d < 16, (dieAt s d).xlinv = none) ∧ (dieAt busy 3).xlinv.isSome = true) ∧
      ((gtAt s 0).toNat ≤ 10 ∧ 8 < (gtAt s 0).toNat ∧ 100 ≤ 200 - (gtAt s 0).toNat + ((gtAt s 0).toNat - 200) ∧ 10 - (gtAt s 0).toNat + ((gtAt s 0).toNat - 10) < 100) ∧
      (g.valid = true ∧ (groupAt b 0).master = b.pod.id.toNat ∧ (destAt b 0).valid = true ∧ (g.arrived.filter (fun y => y.1 == 1)).length + 1 < groupSize g) ∧
      ((groupAt b (1 / 8)).valid = true ∧ findTask b (groupAt b (1 / 8)).task = some (7, task) ∧ (groupAt b 3).valid = false) ∧
      (groupFenced b (1 / 8) (groupAt b (1 / 8)) = true ∧ b.seqs = [(0, seqAt b 0)] ∧ taskOf (seqAt b 0) = 7 ∧ podWait b 0 (1 % 8) = some 0x40 ∧ (seqAt b 0).reports = []) := by
  decide +kernel

/-- A package that is off and one that is on; the attestation busy and not, to a destination in memory; LOGSZ in and out of its range; a capture that is open and
one that is not; the trace unit with records dropped, and after a power-up. -/
theorem meets_PowerTraceAndRegisterWrites :
    let d := fun (x : Die) => { State.reset with dies := [(0, x)], bus := { unit := 0, reg := 0, val := 7 } }
    let t : Trace := { Die.reset.trace with en := true }
    let c : Die := { Die.reset with capture := { Die.reset.capture with task := some 7 } }
    let o : State := { State.reset with powered := false }
    let a : State := { State.reset with attest := { Attest.reset with busy := true } }
    State.reset.powered = true ∧ o.powered = false ∧
      (verdict 0 [] ≠ 0 ∧ a.attest.busy = true ∧ State.reset.attest.busy = false ∧ State.reset.attest.dest.toNat + 8192 ≤ 64 * 10 ^ 9 ∧
        64 * 10 ^ 9 < (2 ^ 36 : Nat) + 8192) ∧ Memory.wf State.reset.mem = true ∧
      (7 % 2 = 1 ∧ (dieAt (d Die.reset) 0).asked = [] ∧ (let q : AskedLaunch := { asid := 0, record := List.replicate 2816 0, start := 0, host := none };
        (dieAt (d { Die.reset with asked := [q] }) 0).asked = [q] ∧ refusal (d Die.reset) 0 0 ((leBytes 4 0x200 ++ leBytes 4 9 ++ leBytes 4 1) ++ List.replicate 2804 0) = none)) ∧
      ((0 : Nat) / 2 ^ 12 % 32 < 12 ∧ 30 < 31 * 2 ^ 12 / 2 ^ 12 % 32 ∧ 12 * 2 ^ 12 / 2 ^ 12 % 32 = 12 ∧ 30 * 2 ^ 12 / 2 ^ 12 % 32 = 30) ∧
      ((dieAt (d c) 0).capture.task = some (BitVec.ofNat 32 (d c).bus.val) ∧ (dieAt (d c) 0).trace.en = false ∧ (dieAt (d Die.reset) 0).capture.task = none) ∧
      ((dieAt (d { Die.reset with trace := { t with dropped := 2, resync := false } }) 0).trace.en = true ∧ 3 ≤ traceFree { t with dropped := 2, resync := false }) ∧
      (t.resync = true ∧ gtLocked (d { Die.reset with trace := t }) = true ∧ t.fresh = false ∧ ({ t with fresh := true } : Trace).fresh = true ∧ (gtAt (d Die.reset) 0 - t.last).toNat ≤ 65535 ∧ 0 < traceFree t) ∧ (0 : Nat) < 16 ∧
      (noChannelHeld (d c) = true ∧ channelHeld State.reset 5 = false ∧ channelHeld (banked State.reset) 5 = true ∧ channelHeld (banked State.reset) 4096 = false ∧ 5 < location 48 0 ∧
        [(5, (7 : Byte)), (4096, 8)].reverse.find? (fun c => c.1 == 4096) = some (4096, 8)) := by decide +kernel

/-- A quad's strand on the last die, a steward's, a binding at the last level, and mappings of ring 63 and of the event queue; each read as R75 lays it out. -/
theorem meets_TimeLoopAndControlReads_fields :
    let sq : Seq := { scalars with strand := 7, stage := some { level := 5, mask := 9, pending := true }, map31 := some { ring := 63, held := none },
                                   map30 := some { ring := 64, held := none }, inTrap := true, trapCode := 0xFF }
    (dieOf 2047 < 16 ∧ isSteward (coreOf 2047) = false ∧ dieOf 2078 < 16 ∧ isSteward (coreOf 2078) = true ∧ scalars.stage = none ∧ mapOf scalars true = none ∧
      sq.stage = some { level := 5, mask := 9, pending := true } ∧ (5 : Nat) < 8 ∧ mapOf sq true = some { ring := 63, held := none } ∧ mapOf sq false = some { ring := 64, held := none }) ∧
      (ctlRead 2047 sq 0x002 = 0x7FF7 ∧ ctlRead 2078 sq 0x002 = 0x7807 ∧ ctlRead 0 sq 0x013 = 0x1FF ∧ ctlRead 0 sq 0x015 = 0x1D9 ∧ ctlRead 0 sq 0x016 = 0xBF00C000) := by decide +kernel

/-- A floating row with a signalling NaN, and one without. -/
theorem meets_RowConversionResults_sum :
    isFloat 2 = true ∧ (2 : Nat) < 13 ∧ isSig (decodeFloat 2 (elemAt 2 0x7F81 0)) = true ∧ isSig (decodeFloat 2 (elemAt 2 0x7FC1 0)) = false := by decide +kernel

/-- What the conditions of the traps and holds turn on, at their bounds: the last scratchpad word and the one past it; a delay slot, a boundary; a full strict copy
queue and a full lenient one; rings; a level; regions; what a hold asks besides. -/
theorem meets_GuardsHoldsAndTraps_conditions :
    let has := fun (s : State) (i : Instr) (order cause : Nat) => (trapsOf s 0x40 i).contains { order := order, cause := cause }
    let at_ := fun (x : Word) => withSeq { scalars with regs := scalars.regs.set 4 x }
    let d := withSeq { scalars with delayCount := 1 }
    let e := withSeq { nested with loops := [{ start := 0x20, len := 2, count := 3, index := 1 }] }
    let six := withSeq { scalars with loops := List.replicate 6 { start := 0x20, len := 100, count := 3, index := 1 } }
    let full := fun (n : Nat) (l : Bool) => { viewing with cores := [(0, { CoreState.reset with lenient := l })],
                                                           ops := (List.range n).map (fun j => { flight .queued (.copy (memView 0 8) (memView 8 8) 0 1 9 2 false false 0) with id := j }) }
    let rank := fun (s : State) (i : Instr) => (holdsOf s i).map (fun h => h.rank)
    (has (at_ 0x3FFFC) (.sld false 0 5 4 0) 11 12 = false ∧ has (at_ 0x40000) (.sld false 0 5 4 0) 11 12 = true ∧ has (at_ 0x3FFFE) (.sst false 0 5 4 0) 12 13 = true ∧
        has (at_ 0x3FFFC) (.sst false 0 5 4 0) 12 13 = false) ∧
      (has (at_ 32) (.jr 0 4) 1 2 = false ∧ has (at_ 31) (.callr 0 4) 1 2 = true ∧ has d (.br 0 1) 2 3 = true ∧ has e (.br 0 1) 2 3 = true ∧ has (withSeq scalars) (.br 0 1) 2 3 = false) ∧
      (has six (.loopi 0 1 1) 3 4 = true ∧ has six (.loopi 0 0 1) 3 4 = false ∧ has e (.loopi 0 1 2) 6 7 = true ∧ has (withSeq nested) (.loopi 0 1 1) 6 7 = false) ∧
      (has (withSeq scalars) (.lbrk 0) 7 8 = true ∧ has (withSeq nested) (.lstg 0 1 3) 8 9 = false ∧ has (withSeq nested) (.lstg 0 2 3) 8 9 = true ∧
        has (withSeq scalars) (.eret 0) 13 14 = true ∧ has (withSeq nested) (.eret 0) 13 14 = false) ∧
      (has (ringed scalars) (.qmap false 0 true 40) 10 11 = false ∧ has (ringed { scalars with map30 := some { ring := 0, held := none } }) (.qmap false 0 true 40) 10 11 = true ∧
        has (ringed scalars) (.qmap false 0 true 3) 10 11 = true ∧ has (withSeq { scalars with regs := scalars.regs.set 4 64 }) (.qmap false 0 true 4) 10 11 = true) ∧
      (has (full 15 false) (.tcopy 0 0 1 40 2 true) 14 15 = false ∧ has (full 16 false) (.tcopy 0 0 1 40 2 true) 14 15 = true ∧ rank (full 16 true) (.tcopy 0 0 1 40 2 true) = [7]) ∧
      (has (withSeq { nested with regions := nested.regions ++ nested.regions }) (.contain 0 6) 18 19 = true ∧ has (withSeq nested) (.contain 0 6) 18 19 = false ∧
        has (withSeq scalars) (.containend 0) 19 20 = true) ∧
      (has (withSeq { scalars with stage := some { level := 0, mask := 1, pending := false } }) (.cmp false 0 4 0 1 2) 4 5 = true ∧
        has (withSeq { scalars with stage := some { level := 0, mask := 2, pending := false } }) (.cmp false 0 4 0 1 2) 4 5 = false) ∧
      (let two : Seq := { scalars with queue := List.replicate 31 newestPend };
        let b := fun (n : Nat) => (List.replicate n (0, Instr.add false 0 3 1 2, withSeq two));
        (bundleTraps (withSeq two) 0x40 (b 1)).contains ({ order := 5, cause := 6 }, 0) = false ∧ ((bundleTraps (withSeq two) 0x40 (b 2)).any (fun x => x.1 == { order := 5, cause := 6 })) = true) ∧
      ((me (withSeq { nested with delayCount := 1, loops := [{ start := 0x20, len := 2, count := 3, index := 1 }] })).delayCount ≠ 0 ∧
        atBoundary { nested with delayCount := 1, loops := [{ start := 0x20, len := 2, count := 3, index := 1 }] } 0x40 = true) ∧
      (trapsOf viewing (bundleAddr viewing) (.tgath 0 1 0 40 false 0) = [] ∧ scalars.waitGt = none ∧ ({ scalars with waitGt := some 5 } : Seq).waitGt = some 5 ∧
        checkStamp viewing (viewAt (me viewing) 0) 0 = .ok ∧ placedCall (.tred 0 5 2 2 0 false) = some { op := .red, vd := 5, va := 2, vb := none, fmt := 2, sg := 0, sw := false } ∧
        isArrayCommand (.mswap 0) = true ∧ isBankCommand (.pexit 0 4) = true ∧ checkFirst viewing 7 { viewAt (me viewing) 7 with mode := 1, scope := 2, cls := 3 } = .ok) := by
  decide +kernel

/-- Handles that are stale and one that is too small; each failing read phase, where the earlier ones hold. -/
theorem meets_FailingChecksAreSlotFaults_array :
    let small : State := { viewing with handles := [(1, { base := 0, size := 32767, tier := 0, die := 0, gen := 0, valid := true })] }
    let c := fun (op : PlacedOp) (d a : BitVec 4) (b : Option (BitVec 4)) => ({ op := op, vd := d, va := a, vb := b, fmt := 2, sg := 0, sw := false } : PlacedCall)
    let gives := fun (s : State) (k : PlacedCall) (x : Nat) (y : Word) => (match checkPlaced s 0 k with
      | .fail u _ w => u == x && w == y
      | _ => false)
    let out := fun (n : Nat) => { viewing with seqs := [(0, { viewer with views := vput viewer.views n { tileView 0 2 2 with handle := 2 } })] }
    (handleCurrent viewing 0 2 = false ∧ (6, (2 : Word)) ∉ (me viewing).pinned ∧ handleCurrent small 0 1 = true ∧ (handleEntry small 0 1).size < 32768) ∧
      (gives viewing (c .add 8 2 (some 3)) 0x2F 0 = true ∧ gives viewing (c .add 2 8 (some 3)) 0x2F 16 = true ∧ gives viewing (c .add 2 2 (some 8)) 0x2F 32 = true ∧
        gives viewing (c .add 6 2 (some 3)) 0x2E 0 = true ∧ gives viewing (c .add 2 2 (some 6)) 0x2E 32 = true ∧ gives viewing (c .red 2 2 none) 0x2E 0 = true) ∧
      (gives (out 2) (c .add 2 3 (some 3)) 0x20 5 = true ∧ gives (out 3) (c .add 2 3 (some 2)) 0x20 0x15 = true ∧ gives (out 3) (c .add 2 2 (some 3)) 0x20 0x25 = true ∧
        checkOperand (out 3) 0 0 (viewAt (me (out 3)) 2) = .ok ∧ checkOperand (out 3) 0 1 (viewAt (me (out 3)) 2) = .ok ∧
        [viewing, out 2, out 3].all (fun s => ready s [.tadd 0 2 2 3 2 0 false, .tred 0 2 2 2 0 false]) = true) := by decide +kernel

/-- MSTAT from the first of them, in a bundle. -/
theorem meets_FailingChecksAreSlotFaults_fetch :
    ready viewingInBundle [.mstatHandle 0 42 1 true 3] = true ∧ checkFetch viewingInBundle (src viewingInBundle 42) = .fail 0x20 2 := by
  have hi : (me viewingInBundle).issue.isSome = true := by decide +kernel
  have hg : guardTrue (me viewingInBundle).preds (guardOf (.mstatHandle 0 42 1 true 3)) = true := by decide +kernel
  have hr : slotReady (.mstatHandle 0 42 1 true 3) viewingInBundle = true := by rw [slotReady, hg, hi]; rfl
  have h : checkHandle viewingInBundle 6 (me viewingInBundle).asid (src viewingInBundle 42) = .fail 0x20 2 := by decide +kernel
  refine ⟨by rw [ready, List.all_cons, hr]; rfl, ?_⟩
  rw [checkFetch, h]
  rfl

/-- GTLO takes its snapshot, VRETIRE changes its view alone, and an atomic sets one mark, in a bundle. -/
theorem meets_FrameInABundle_registers :
    let s : State := { viewing with seqs := [(0, { viewer with issue := some bundle, views := viewer.views.set 8 { memView 0 8 with isOpen := false } })], gt := [(0, 0x500000000)] }
    let u := after (.gtlo false 0 4) s
    let v := after (.vretire 0 0) s
    let w := after (.aadd 0 4 0 40 0 1) s
    (me u).gtSnap = 5 ∧ (me s).gtSnap = 0 ∧ (me v).views.toList.drop 1 = (me s).views.toList.drop 1 ∧ (me w).busy = 16 ∧ (me w).gtSnap = 0 ∧ (me s).busy = 0 := by decide +kernel

/-- A frozen core: a report that a step raised, which acts, and one that waits. -/
theorem meets_EngineFaultsAndUnwinds_frozen :
    let f := fun (r : EngineReport) => withSeq { scalars with freeze := true, reports := [r] }
    coreFrozen (f failure) 0 = true ∧ failure.stepped = false ∧ ({ failure with stepped := true } : EngineReport).stepped = true ∧
      (seqAt (f { failure with stepped := true }) 0).reports = { failure with stepped := true } :: [] ∧ (seqAt (f failure) 0).status = .running ∧
      (seqAt (f failure) 0).reissue = none ∧ scalars.resumeAsked = none := by decide +kernel

/-- A resume that was asked for; a record whose pseudo-channel is held; and none held. -/
theorem meets_DebugBlock_held :
    let s := withSeq (stopped 0 none)
    ({ stopped 0 none with resumeAsked := some true } : Seq).resumeAsked = some true ∧
      channelHeld (banked s) (location 0 (stopped 0 none).sqfra.toNat + 8959) = false ∧ channelHeld (banked s) (location 0 (stopped 0 none).sqfra.toNat + 0) = true ∧
      noChannelHeld s = true := by decide +kernel

/-- A SEND whose ring went out with the consumer's team; a halfword sum with an inexact half. -/
theorem meets_AtomicsResultsAndMessages_suspended :
    let k := OpKind.send 5 0
    let s : State := { flying (flight .queued k) with cores := [(0, { CoreState.reset with suspended := some [(0, { Ring.reset with valid := true })] })] }
    ringMine s 0 (tget Ring.reset (coreAt s 0).rings 0) = false ∧ ringSuspended s 0 0 = true ∧ ringSuspended (flying (flight .queued k)) 0 0 = false ∧
      (atomicNew .faddh 0x3F800001 0x3F803F80 0 0).2 = flagNX := by decide +kernel

/-- The planes and accumulators of the array's commands: a row 0 of a floating acc 0 with E = −20, one of an integer acc 1, and a row whose checksum is wrong. -/
def summed (b : PlaneRows) (n : BitVec 64) (ck : BitVec 40) : ArrayState :=
  { ArrayState.reset with
    active := b,
    accs := (ArrayState.reset.accs.set 0 { Acc.reset with e := [(0, 0xFFEC)], words := [(0, n)], ck := [(0, ck)] }).set 1
      { Acc.reset with integer := true, hg := Vector.replicate 64 65536 } }

/-- Windows past the rows and past the columns; a step too deep, of another format, into an accumulator of the other kind; rows without headroom; a cell that is wide,
or infinite, with and without clamping; each command of one row, by its kind of accumulator; a row that fails its check, which each of those commands names. -/
theorem meets_LeasesAndArrayCommands_arithmetic :
    let p : Plane := { Plane.reset with mrows := 1, ncols := 1, kdep := 1 }
    let b : PlaneRows := { rows := [(0, 0x3F80)], fmt := 2 }
    let i : PlaneRows := { rows := [(0, 3)], fmt := 10 }
    let x := summed b 0x480000 0x480000
    let bad := summed b 0x480000 0
    let gone := { x with accs := x.accs.set 0 { accAt x 0 with hg := Vector.replicate 64 0 } }
    let fails := fun (y : ArrayState) (c : ArrayCmd) (cause detail row : Nat) => (match runArray y [] c with
      | .ok _ => false
      | .error e => e.cause == cause && e.detail == detail && e.row == row)
    let runs := fun (y : ArrayState) (c : ArrayCmd) => (match runArray y [] c with
      | .ok _ => true
      | .error _ => false)
    (fails x (.mm 0 [0] { p with row0 := 63, mrows := 2 } 2 none) 0x3B 1 0 = true ∧ fails x (.mm 0 [0] { p with col0 := 127, ncols := 2 } 2 none) 0x3B 2 0 = true ∧
        fails x (.mm 0 [0] { p with kdep := 257 } 2 none) 0x3B 3 0 = true ∧ fails x (.mm 0 [0] p 1 none) 0x3B 4 0 = true ∧ fails x (.mm 1 [0] p 2 none) 0x3B 5 0 = true) ∧
      (fails gone (.mm 0 [0] p 2 none) 0x38 0 0 = true ∧ fails x (.mm 0 [0x7F80] p 2 none) 0x39 0 0 = true ∧ runs x (.mm 0 [0x7F80] { p with amode := 2 } 2 none) = true ∧
        runs x (.mm 0 [0x3F80] p 2 none) = true ∧ runs { x with active := i } (.mm 1 [2] p 10 none) = true) ∧
      (runs x (.mmcmp 1 [0] p 2) = true ∧ runs x (.mstat [0] p 2) = true ∧ fails x (.mstat [0] { p with trb := 1 } 3) 0x3B 6 0 = true ∧ runs x (.accchk 0) = true) ∧
      (runs x (.accld 0 [0x3F800000] p 0 false) = true ∧ runs x (.accld 1 [5] p 8 true) = true ∧ fails x (.accld 0 [0x7F800000] p 0 false) 0x39 0 0 = true ∧
        runs x (.accld 0 [0x7F800000] { p with amode := 2 } 0 false) = true) ∧
      (runs x (.accnorm 0 63 p) = true ∧ runs x (.fold 1 p) = true ∧ runs x (.accdrain 0 3 p 0 none false true 0) = true ∧ runs x (.accdrain 1 3 p 8 none true false 0) = true) ∧
      ([ArrayCmd.accld 0 [0] p 0 false, .accnorm 0 4 p, .accdrain 0 3 p 0 none false false 0, .accchk 0].all (fun c => fails bad c 0x3A 0 0) = true ∧ checkOk (accAt bad 0) 0 = false ∧
        checkOk (accAt x 0) 0 = true) := by decide +kernel

/-- R224's example goes on: ACCNORM by 4 of 4,718,591 gives 294,912 with E = −16 and NX; a drain to FP32 of the word gives 0x408FFFFE, and of the rounded one 0x40900000. -/
theorem test_accnorm_and_drain :
    let p : Plane := { Plane.reset with mrows := 1, ncols := 1 }
    let x := summed { rows := [], fmt := 0 } 4718591 4718591
    let drain := fun (y : ArrayState) => (match runArray y [] (.accdrain 0 3 p 0 none false false 0) with
      | .ok z => z.2.2
      | .error _ => [])
    drain x = [(0, [(0, 0x408FFFFE)])] ∧
      (match runArray x [] (.accnorm 0 4 p) with
        | .ok z => (accWord (accAt z.1 0) 0 0, accExp (accAt z.1 0) 0, z.2.1) == (294912, 0xFFF0, 1) && drain z.1 == [(0, [(0, 0x40900000)])]
        | .error _ => false) = true := by decide +kernel

/-- A placed sum of the array's home at the head of core 0's queue: its core holds the lease within its bounds, or does not; into a tile view, into memory, out of a
view's bounds, and with a damaged array. -/
theorem meets_PlacedBankAndWalks_array :
    let t := tileView 2 1 1
    let m := { memView 0 2 with sd := #v[1, 0, 0, 0] }
    let k := fun (d : View) => OpKind.placed .add d t t 2 [0x3F80] [0x3F80] 1 1 1 false 0 3 0
    let o := fun (d : View) => { flight .queued (k d) with slot := 6 }
    let s := fun (d : View) (x : Quad) => { flying (o d) with quads := [(0, x)] }
    let l := placedResult .add 2 0 [0x3F80] [0x3F80] 1 1 1 false
    let bytes := ((resultBytes l).zip (List.range (2 * l.length))).map (fun x => ((posAddr (s m Quad.reset) 0 m x.2).toNat, x.1))
    let small : View := { t with ben := true, blo := 0, bhi := 0x3F800000 }
    let head := fun (d : View) (x : Quad) => (arrayQueue (s d x) 0).head? == some (o d) && free (s d x) (o d) && (seqAt (s d x) 0).unwind.isNone
    (head t (held 0 []) = true ∧ head m (held 63 []) = true ∧ head small (held 0 []) = true ∧ head t Quad.reset = true ∧ head t (held 64 []) = true ∧
        Quad.reset.holder ≠ some 0 ∧ boundReached (held 64 []) = true ∧ (held 63 []).holder = some 0 ∧ boundReached (held 63 []) = false) ∧
      (computeFails (s t (held 0 [])) (o t) 3 = false ∧ computeFails { s t (held 0 []) with damaged := [arrayStorage 0] } (o t) 3 = true ∧ firstOut 2 t l = none ∧ firstOut 2 small l = some 0) ∧
      (firstOut 2 m l = none ∧ reach (s m (held 0 [])) 5 0 0 true (bytes.map Prod.fst) = .ok ∧ bankHeld (s m (held 0 [])) 0 0 (bytes.map Prod.fst) = false ∧
        remoteDests (s m (held 0 [])) 0 0 true (bytes.map Prod.fst) = []) := by decide +kernel

/-- PMAC of lists of 0, 1, 63 and 64 steps; a reserved bit in a step, and a granule at the allocation's end and past it; granules that another package holds, whose walk
is missing, that are lost, and that are damaged. -/
theorem meets_PlacedBankAndWalks_lists :
    let b : BankMode := { die := 0, channel := 0, handle := 1, off := 0, bx := [], bacc := [] }
    let c := fun (row : Row) => { flight .queued (.bank (.pmac 1 row 0)) with slot := 6 }
    let s := fun (row : Row) => { flying (c row) with seqs := [(0, { viewer with bank := some b })] }
    let h := fun (x : State) (row : Row) => (bankQueue x 0).head? == some (c row) && free x (c row)
    let big := fun (x : State) => { x with handles := [(1, { base := 0, size := 266240, tier := 0, die := 0, gen := 0, valid := true })] }
    let place := fun (x : State) (w : Nat) => reachPages x 0 0 false (granuleAddrs 0 0 w)
    let remote := { s 1 with tlb := [(0, [{ asid := 0, vpn := 0, result := .page { page with target := .remote 2 0 0 } }])] }
    ([(0 : Row), 1, 63, 64].all (fun r => h (s r) r) = true ∧ (rowField (64 : Row) 0 32).toNat = 64 ∧ (rowField (63 : Row) 0 32).toNat = 63) ∧
      ((listRefusal 0 65536 (1 + 0x100 * 2 ^ 32)).map Prod.fst = some 0x3E ∧ (listRefusal 0 65536 (1 + 0x10000 * 2 ^ 32)).map Prod.fst = some 0x3D ∧ listRefusal 0 266240 (1 + 0x10000 * 2 ^ 32) = none ∧
        (listRefusal 0 266239 (1 + 0x10000 * 2 ^ 32)).map Prod.fst = some 0x3D ∧ h (big (s (1 + 0x10000 * 2 ^ 32))) (1 + 0x10000 * 2 ^ 32) = true) ∧
      (h remote 1 = true ∧ h { s 1 with tlb := [] } 1 = true ∧ place { s 1 with tlb := [(0, [{ asid := 0, vpn := 0, result := .unmapped }])] } 0 = .lost ∧
        place { s 1 with damaged := [0] } 0 = .damaged ∧ place (s 1) 0 = .ok) := by
  decide +kernel

theorem distinct_const {l : List Nat} {x : Nat} (h : l.all (fun y => y == x) = true) (hn : l.isEmpty = false) : distinct l = [x] := by
  induction l with
  | nil => cases hn
  | cons y l ih =>
    simp only [List.all_cons, Bool.and_eq_true, beq_iff_eq] at h
    cases l with
    | nil => simp [distinct, h.1]
    | cons z l =>
      have e := ih h.2 rfl
      rw [distinct]
      simp [e, h.1]

theorem reachPages_wait {s : State} {die asid x : Nat} {wr : Bool} {l : List Nat}
    (h : ((l.filter (fun va => xlateLate s die asid va wr == .miss)).map (fun va => va / 65536)).all (fun y => y == x) = true)
    (hn : ((l.filter (fun va => xlateLate s die asid va wr == .miss)).map (fun va => va / 65536)).isEmpty = false) : reachPages s die asid wr l = .wait [x] := by
  unfold reachPages
  split
  · next y t e => rw [← e, distinct_const h hn]
  · next e => rw [e] at hn; cases hn

/-- A granule on a page of another package, and one whose walk is missing. -/
theorem meets_PlacedBankAndWalks_granules :
    (let remote := { viewing with tlb := [(0, [{ asid := 0, vpn := 0, result := .page { page with target := .remote 2 0 0 } }])] };
      remoteDests remote 0 0 false (granuleAddrs 0 0 0) = [2]) ∧
      reachPages { viewing with tlb := [] } 0 0 false (granuleAddrs 0 0 0) = .wait [0] := by
  refine ⟨?_, reachPages_wait (by decide +kernel) (by decide +kernel)⟩
  exact distinct_const (by decide +kernel) (by decide +kernel)

/-- Ways 0 (leaving) and 15 (entering) of slice 3 of die 0, and the bytes at their edges; nothing on its way. -/
theorem meets_DieRegistersChange_ways :
    let x : Slice := { Slice.reset with scratchBusy := true, old := 1, entering := 0x8000 }
    let s : State := { viewing with slices := [(3, x)], mem := [(2 ^ 52 + 3 * 256, 7), (2 ^ 52 + 15 * 2 ^ 22 + 3 * 256 + 255, 9)] }
    (sliceAt s 0 3 = x ∧ inWays 0 3 (x.old ||| x.entering) (2 ^ 52 + 3 * 256) = true ∧ inWays 0 3 (x.old ||| x.entering) (2 ^ 52 + 15 * 2 ^ 22 + 3 * 256 + 255) = true ∧
        inWays 0 3 (x.old ||| x.entering) (2 ^ 52 + 15 * 2 ^ 22 + 4 * 256) = false ∧ inWays 0 3 (x.old ||| x.entering) (2 ^ 52 + 2 ^ 22 + 3 * 256) = false) ∧
      ((15 : Nat) < 16 ∧ 3 * 256 + 255 < 2 ^ 22 ∧ (3 * 256 + 255) / 256 % 32 = 3 ∧ x.entering.getLsbD 15 = true ∧ s.ops = [] ∧ s.forwards = []) := by decide +kernel

/-- A launch of a record whose map stands at address 0 (MAPH 1), which waited: its pseudo-channel held, and free. -/
def mapped : AskedLaunch := { asid := 0, record := leBytes 4 0x200 ++ leBytes 4 9 ++ leBytes 4 1 ++ List.replicate 28 0 ++ leBytes 4 1 ++ List.replicate 2772 0, start := 0, host := none }

/-- The die with launches that wait, GO and a boot. -/
def asked (l : List AskedLaunch) (go : Bool) (b : BootPhase) : State :=
  { viewing with dies := [(0, { Die.reset with asked := l, go := go, boot := b })], bus := { unit := 0, reg := 0, val := 1 } }

theorem meets_PlacementAndLaunchViews_waited :
    let s := asked [mapped] true .waiting
    let l := setDie s 0 { dieAt s 0 with asked := [] }
    (dieAt s 0).asked = [mapped] ∧ accepting s 0 = true ∧ askedHeld l 0 mapped = false ∧ askedHeld (banked l) 0 mapped = true ∧
      orderHead (acceptLaunch (asked [] true .waiting) 0 { mapped with record := [] }) 0 = none ∧ (dieAt (acceptLaunch l 0 mapped) 0).asked = [] := by decide +kernel

/-- GO with such a launch, held and free, and on a die whose boot has failed; a capture of a task that has the identifier, and of none. -/
theorem meets_PowerTraceAndRegisterWrites_waits :
    let s := asked [mapped] false .started
    let c := { upDie [(7, teamed task .placed)] with bus := { unit := 0, reg := 0, val := 7 } }
    ((dieAt s 0).asked = mapped :: [] ∧ launchHeld (banked s) 0 0 mapped.record = true ∧ launchHeld s 0 0 mapped.record = false ∧ refusal s 0 0 mapped.record = none ∧
        s.bus.val % 2 = 1 ∧ (dieAt s 0).boot ≠ .failed ∧ (dieAt (asked [] false .failed) 0).boot = .failed) ∧
      (findTask c 7 = some (7, teamed task .placed) ∧ taskNo c 7 = some (teamed task .placed) ∧ findTask c 8 = none ∧ taskNo c 8 = none ∧ noChannelHeld c = true) ∧
      (channelHeld (banked State.reset) (State.reset.attest.dest.toNat + 4095) = true ∧ channelHeld (banked State.reset) (State.reset.attest.dest.toNat + 8191) = false ∧
        ({ Attest.reset with busy := true } : Attest).busy = true) := by decide +kernel

theorem meets_PowerTraceAndRegisterWrites_free (a : Nat) : channelHeld { State.reset with attest := { Attest.reset with busy := true } } a = false := rfl

/-- A team that is out with one strand, whose block reads back (zeros) or fails (a delay count of 3): the event queue at the sizes where it has room and has none; a
checkpoint on a held pseudo-channel. -/
theorem meets_DecisionsCheckpointsAndCommands_room :
    let y : SavedStrand := { strand := 0, counters := Vector.replicate 126 0, ticks := 0, barWait := none, held30 := none, held31 := none, regions := [], loops := [], opened := [] }
    let o : Task := { task with teams := [{ Team.reset 1 with die := some 0, phase := .out, mask := 1, saved := { strands := [y], cores := [] } }] }
    let s := fun (n : Nat) (m : List Host.Cell) => { upDie [(7, o)] with events := [(0, { head := 0, tail := 0, count := n, waiting := [] })], mem := m, pages := [{ page with size := 3 }] }
    let bad := location 0 (strandBlock o 0 0) + 36
    let fails := fun (x : State) => ((teamAt o 0).saved.strands.filter (fun y => (readRecord (virtualBytes x 0 (strandBlock o 0 y.strand) 16384) [] 0).isNone)).length
    taskNo (s 511 []) 7 = some o ∧ (teamAt o 0).phase = .out ∧ fails (s 511 []) = 0 ∧ fails (s 511 [(bad, 3)]) = 1 ∧ (eventsAt (s 511 []) 0).count + 0 < 512 ∧
      512 ≤ (eventsAt (s 511 [(bad, 3)]) 0).count + 1 ∧ (eventsAt (s 0 []) 0).waiting = [] ∧ virtualHeld (s 511 []) 0 o.ckBase 0x2B8000 = false ∧
      virtualHeld (banked (s 511 [])) 0 o.ckBase 0x2B8000 = true ∧ coresFree (s 511 []) o (teamAt o 0) = true ∧
      (orderHead (s 511 []) 0).any (fun e => e.restore && e.key == 7 && e.team == 0) = true := by decide +kernel

/-- A queue's launch behind one that waits, though the die accepts. -/
theorem meets_TasksEndAndHostQueuesRun_behind :
    let s : State := { hosted 1 true with dies := [(0, { Die.reset with go := true, asked := [mapped] })] }
    accepting s 0 = true ∧ (dieAt s (hqAt s 5).die).asked ≠ [] ∧ mayRead s (hqAt s 5) = true ∧
      (dieAt { s with dies := [(0, { Die.reset with go := true })] } 0).asked = [] := by decide +kernel

/-- A zone with two tasks, one of which may leave with a checkpoint and one of which is killed, and a third that has been killed already; dryness there. -/
theorem meets_CoolingZonesRun_tasks :
    let may := withRecord (teamed task .placed) (fun r => { r with ckh := 1 })
    let not_ := withRecord (teamed task .placed) (fun r => { r with taskId := 9, ckpt := false })
    let z : Zone := { Zone.reset with catq := [(0, { task := 7, units := 4 }), (1, { task := 9, units := 4 })], dryFor := 1000000 }
    let s : State :=
      { upDie [(7, may), (9, { not_ with teams := [{ teamAt not_ 0 with mask := 2 }] }), (11, { may with killed := true })] with
        cores := [(0, { CoreState.reset with team := some (teamKey 7 0) }), (1, { CoreState.reset with team := some (teamKey 9 0) })], zones := [(0, z)],
        handles := [(1, { base := 0, size := 65536, tier := 0, die := 0, gen := 0, valid := true })] }
    let t := fun (k : Nat) => (taskNo s k).getD task
    (zoneTasks s 0 = [7, 9] ∧ leavingTeams s 0 7 (t 7) = [0] ∧ leavingTeams s 0 9 (t 9) = [0] ∧ affectedTeams s 0 7 (t 7) = [0] ∧ affectedTeams s 0 9 (t 9) = [0] ∧ mayEvacuate s (t 7) [0] = true ∧ mayEvacuate s (t 9) [0] = false ∧
        (t 7).killed = false ∧ (t 9).killed = false ∧ (t 11).killed = true ∧ (taskNo s 11).isSome = true ∧ z.mode ≤ 1) ∧
      (z.dr = false ∧ z.press < z.dryP ∧ z.valve ≠ 0 ∧ 1000000 ≤ z.dryFor ∧ z.mode ≠ 2) ∧
      (let u := after .zctlEvac s;
        ((taskNo u 7).getD task).ckPinned = true ∧ (teamAt ((taskNo u 7).getD task) 0).phase = .landing ∧ ((taskNo u 9).getD task).killed = true ∧
          ((taskNo u 7).getD task).killed = false) := by decide +kernel


/-- R121, R174, R176, R183: closed views, modes, busy views, and scratchpad addresses at the edges. -/
theorem meets_GuardsHoldsAndTraps_views :
    let has := fun (s : State) (i : Instr) (order cause : Nat) => (trapsOf s 0x40 i).contains { order := order, cause := cause }
    let mode := fun (m : BitVec 2) => withSeq { viewer with views := viewer.views.set 0 { memView 0 8 with mode := m } }
    let at_ := fun (x : Word) => withSeq { viewer with regs := scalars.regs.set 4 x }
    (has viewing (.tld 0 1 7 0 false 0) 15 0x10 = true ∧ has viewing (.tld 0 1 0 0 false 0) 15 0x10 = false ∧ has viewing (.tcopy 0 0 7 40 0 false) 15 0x10 = true ∧
        has viewing (.vretire 0 7) 15 0x10 = true ∧ has viewing (.tadd 0 2 3 7 2 0 false) 15 0x10 = true ∧ placedCall (.tadd 0 2 3 7 2 0 false) ≠ none) ∧
      (has (mode 2) (.tst 0 1 0 0 false 0) 16 0x11 = true ∧ has (mode 1) (.tst 0 1 0 0 false 0) 16 0x11 = false ∧ has (mode 2) (.aadd 0 4 0 1 0 0) 16 0x11 = false ∧
        has (mode 0) (.aadd 0 4 0 1 0 0) 16 0x11 = true ∧ has (mode 0) (.tld 0 1 0 0 false 0) 16 0x11 = false) ∧
      (has viewing (.vopen 0 0 1 2 3) 17 0x12 = true ∧ has viewing (.vopen 0 7 1 2 3) 17 0x12 = false ∧ has viewing (.vfset 0 0 2 1) 17 0x12 = true ∧
        has viewing (.vfseti 0 7 2 1) 17 0x12 = false) ∧
      (has (at_ 0x3FF00) (.tgath 0 1 0 4 false 0) 11 0x0C = false ∧ has (at_ 0x3FF01) (.tgath 0 1 0 4 false 0) 11 0x0C = true ∧
        has (at_ 0x3C000) (.tspld 0 1 4) 11 0x0C = false ∧ has (at_ 0x3C100) (.tspst 0 1 4) 11 0x0C = true ∧ has (at_ 0x3C080) (.tspst 0 1 4) 12 0x0D = true ∧
        has (at_ 0x3FFFE) (.qld 0 1 4 0) 11 0x0C = false ∧ has (at_ 0x3FFFF) (.qld 0 1 4 0) 12 0x0D = true) := by decide +kernel

/-- A starved core whose primary waits for the register s1, is stopped, or has slots to reissue: the guard gives the cycle to the secondary. -/
theorem meets_PartsOfACycle_guard :
    let s := fun (f : Seq → Seq) => setSeq (starved true) 0 (f (seqAt (starved true) 0))
    let p := fun (f : Seq → Seq) => prepared { setCore (s f) 0 { coreAt (s f) 0 with primaryMask := none } with cur := 0 }
    let busy := fun (sq : Seq) => ({ sq with busy := 2 } : Seq)
    let again := fun (sq : Seq) => ({ sq with reissue := some (0, 0) } : Seq)
    let idle := fun (sq : Seq) => ({ sq with status := .faulted } : Seq)
    guardDue (s busy) 0 = true ∧ (me (p busy)).reissue = none ∧ (match judge (p busy) with
      | .held _ => true
      | _ => false) = true ∧ judge (p idle) = .idle ∧ isReady (p idle) 0 = false ∧ guardDue (s idle) 0 = true ∧
      (me (p again)).reissue = some (0, 0) ∧ mayReissue (p again) = true ∧ guardDue (s again) 0 = true ∧
      (seqAt (after (.starvationGuard 0) (s busy)) 1).ticks = 1 ∧ (seqAt (after (.starvationGuard 0) (s busy)) 0).ticks = 0 ∧
      (coreAt (after (.starvationGuard 0) (s busy)) 0).wait = 0 := by decide +kernel

/-- R295: a stop with a store still queued, one whose store an engine keeps, and one with none: the event stands in the queue, or the strand keeps it; it is
posted by a BUNDLE_ISSUE step once the store has performed. -/
theorem meets_StopsWriteTheFaultRecord_event :
    let o := flight .queued (.store [] [] (memView 0 8))
    let k := { o with phase := .failed }
    let i : StopInfo := { kind := 0, cause := 8, slot := 2, engine := 0, cqn := 0, aux0 := 0, aux1 := 0, cmask := 0, baddr := 0, idx := [], op := none }
    let t := fun (s : State) => stopStrand s 0 i
    ((accessesOf o).any (fun x => x.2.2) = true ∧ orderDone (flying o) o 2 = false ∧ isKept (flying o) o = false ∧ opAt (flying o) 5 = some o ∧
        isKept (flying k) k = true ∧ opAt (flying k) 5 = some k ∧ eventRoom (flying o) 0 = true) ∧
      (eventsAt (t (flying o)) 0).count = 0 ∧ (seqAt (t (flying o)) 0).faultDue.isSome = true ∧ (eventsAt (t (flying k)) 0).count = 1 ∧
      (eventsAt (t viewing) 0).count = 1 ∧ (eventsAt (after (.bundleIssue 0) (t (flying o))) 0).count = 0 ∧
      (eventsAt (after (.bundleIssue 0) { t (flying o) with ops := [] }) 0).count = 1 := by decide +kernel

/-- A FAULT event that still waits for a write, one that may be posted, and an atomic's result that arrived during the stop: it lands with the resume. -/
theorem meets_DebugBlock_due :
    let o := flight .queued (.store [] [] (memView 0 8))
    let e : DueEvent := { record := 1, after := [5] }
    let a : Op := { flight .performed (.atomic .add 4 0 0 0 (memView 0 8) 0 0 0) with result := [9] }
    let stop := { stopped 0 none with faultDue := some e }
    let late : Seq := { stopped 0 none with busy := 16 }
    let s := { flying o with seqs := [(0, stop)] }
    let r := { flying a with seqs := [(0, late)] }
    let u := after (.variableResultArrival 5) r
    eventReady s e = false ∧ eventReady { s with ops := [] } e = true ∧ eventRoom s 0 = true ∧ (stopped 0 none).faultDue = none ∧ (stopped 0 none).arrived = [] ∧
      ((seqAt u 0).arrived = [5] ∧ opAt u 5 = some a ∧ a.seq = 0 ∧ (seqAt u 0).unwind = none ∧ isMapped (seqAt u 0) 4 = false ∧
        (readRecord (homeBytes u 0 8960) (seqAt u 0).queue (seqAt u 0).ticks).isSome = true) ∧
      (vget 0 (seqAt u 0).regs 4 ≠ 9 ∧ (let t := after .sqctlResume u;
        vget 0 (seqAt t 0).regs 4 = 9 ∧ (seqAt t 0).status = .running ∧ (seqAt t 0).busy = 0 ∧ opAt t 5 = none)) := by decide +kernel

/-- R211: a command that has asked another package is under way, and its lease goes on past the bound. R232: a placed operation that fails in the array is
reported. -/
theorem meets_LeasesAndArrayCommands_underWay :
    let s := arrayed (held 64 [true, true]) .mswap
    let u := { s with pod := { s.pod with requests := [{ id := 1, op := 5, dest := 3, cls := 0, sent := none, answered := false, poison := false, answer := [], kind := .read [0] }] } }
    let o := { flight .queued (OpKind.placed .sub (tileView 2 1 1) (tileView 2 1 1) (tileView 2 1 1) 2 [0x3F80] [0x3F80] 1 1 1 false 0 3 0) with slot := 6 }
    let p := { flying o with quads := [(0, held 0 [])], damaged := [arrayStorage 0] }
    commandUnderWay u 0 0 = true ∧ after (.leaseBoundExpiry 0) u = u ∧ (quadAt (after (.leaseBoundExpiry 0) s) 0).holder = some 1 ∧
      (arrayQueue p 0).head? = some o ∧ computeFails p o 3 = true ∧
      (let r := (seqAt (after (.arrayCommandRun 0 0) p) 0).reports;
        r.map (fun x => x.cause) = [0x31] ∧ placedOpcode .sub = 0x11) := by decide +kernel

/-- R290: a cohort of two teams of one strand each: the strand of the first ends and its core stays the team's; with both ended the task completes and the cores
are free. -/
theorem meets_TasksEndAndHostQueuesRun_cohort :
    let team := fun (m : BitVec 4) (l : BitVec 8) => { Team.reset 1 with die := some 0, phase := .placed, mask := m, live := l }
    let t := fun (l : BitVec 8) => { withRecord task (fun r => { r with cohort := true, teams := 2 }) with teams := [team 1 l, team 2 l] }
    let s := fun (l : BitVec 8) =>
      { upDie [(7, t l)] with cores := [(0, { CoreState.reset with team := some (teamKey 7 0) }), (1, { CoreState.reset with team := some (teamKey 7 1) })],
                              seqs := [(0, { scalars with task := 7, endPending := true }), (2, { scalars with task := 7, team := 1 })] }
    ((t 0).info.cohort = true ∧ taskNo (s 0) 7 = some (t 0) ∧ (t 0).teams.all (fun x => x.phase == .placed && x.live == 0) = true ∧ eventRoom (s 0) 0 = true ∧
        forwardsFree (s 0) = true ∧ digestHeld (s 0) (t 0) = false ∧ (coreAt (after (.taskComplete 7) (s 0)) 1).team = none ∧ thas (after (.taskComplete 7) (s 0)).tasks 7 = false) ∧
      (let u := finishStrand (s 1) 0;
        (seqAt u 0).status = .idle ∧ (coreAt u 0).team = some (teamKey 7 0) ∧ (teamAt ((taskNo u 7).getD task) 0).phase = .placed ∧
          (teamAt ((taskNo u 7).getD task) 0).live = 0) := by decide +kernel

/-- R336: the task of a team that holds units and is landing already goes on landing, though its CKH is no longer current, and is killed where a strand of it is
faulted; a zone of an I/O die. -/
theorem meets_CoolingZonesRun_landing :
    let t := withRecord (teamed task .landing) (fun r => { r with ckh := 1 })
    let z : Zone := { Zone.reset with catq := [(0, { task := 7, units := 4 })], dryFor := 1000000 }
    let s := fun (q : SeqStatus) =>
      { upDie [(7, t)] with seqs := [(0, { scalars with task := 7, status := q })], cores := [(0, { CoreState.reset with team := some (teamKey 7 0) })], zones := [(0, z)] }
    (zoneTasks (s .running) 0 = [7] ∧ affectedTeams (s .running) 0 7 t = [0] ∧ leavingTeams (s .running) 0 7 t = [] ∧ handleCurrent (s .running) 0 1 = false ∧
        mayEvacuate (s .running) t [0] = true ∧ mayEvacuate (s .faulted) t [0] = false ∧ t.killed = false ∧ z.mode ≤ 1) ∧
      (z.dr = false ∧ z.press < z.dryP ∧ z.valve ≠ 0 ∧ z.mode ≠ 2) ∧ ¬ ((64 : Nat) < 64) ∧
      ((taskNo (after .zctlEvac (s .running)) 7).getD task).killed = false ∧ ((taskNo (after .zctlEvac (s .faulted)) 7).getD task).killed = true ∧
      (teamAt ((taskNo (after .zctlEvac (s .running)) 7).getD task) 0).phase = .landing := by decide +kernel

/-- R343: CAPSTOP whose block stands on a held pseudo-channel: its record is written when the strand has left the all-bank mode. -/
theorem meets_PowerTraceAndRegisterWrites_due :
    let c : Die := { Die.reset with capture := { Die.reset.capture with task := some 7 }, trace := { Die.reset.trace with en := true, base := 4096, fresh := false, resync := false } }
    let s := banked { State.reset with dies := [(0, c)], bus := { unit := 0, reg := 0, val := 7 } }
    let u := after .capstop s
    let v := leaveBank u 2
    location 0 c.capture.addr.toNat + 0 < location 48 0 ∧ channelHeld s (location 0 c.capture.addr.toNat + 0) = true ∧ c.capture.task = some (BitVec.ofNat 32 s.bus.val) ∧
      (dieAt s 0).trace.due = [] ∧ (dieAt u 0).trace.due.map (fun e => (e.kind, e.load)) = [(0x11, 0x700000000)] ∧
      u.forwards.any (fun f => (dieAt u 0).trace.due.all (fun e => f.op == e.op)) = true ∧ (dieAt u 0).trace.wr = 0 ∧
      (dieAt v 0).trace.due.length = 0 ∧ (dieAt v 0).trace.wr = 1 ∧ v.forwards.length = 0 ∧ (∀ d ∈ State.reset.dies, d.2.trace.due = []) := by decide +kernel

/-- R102, R105: 460 into E4M3 under RNE saturates with OF and NX; 449 rounds to MAX with NX alone; 460 toward zero is no overflow. -/
theorem test_saturation_below_the_tie :
    roundTo 3 0 (.fin false 460 0) = (0x7E, flagOF ||| flagNX) ∧ roundTo 3 0 (.fin true 460 0) = (0xFE, flagOF ||| flagNX) ∧
      roundTo 3 0 (.fin false 449 0) = (0x7E, flagNX) ∧ roundTo 3 1 (.fin false 460 0) = (0x7E, flagNX) := by decide +kernel

/-- R302: a strand asked for its landing with a PABM queued does not land; without it, it does. -/
theorem test_no_landing_before_pabm :
    let o : Op := { flight .queued (.bank (.pabm 1 0)) with slot := 6 }
    let s := { flying o with seqs := [(0, { viewer with landing := .asked })] }
    awaitsBank s 0 = true ∧ (seqAt (landHere s) 0).landing = .asked ∧ hasLanded (seqAt (landHere { s with ops := [] }) 0) = true := by decide +kernel

/-- R307: a SEND of another producer, whose ring of that number is suspended, takes no slot of the ring that stands there now. -/
theorem test_suspended_messages_take_no_slot :
    let o := flight .queued (.send 5 0)
    let r : Ring := { Ring.reset with valid := true, nslot := 0, pseq := pseqOf 2 }
    let s := { flying o with cores := [(0, { CoreState.reset with rings := [(0, r)] })] }
    ringFull s 0 0 r = false ∧ ringFull { s with ops := [{ o with seq := 2 }] } 0 0 r = true := by decide +kernel

end Sys2Proof.Tests
end

/-! Scope of the model (00_scope): what every instruction and every step answers. -/

namespace Sys2Proof.Machine

/-- A step of the package has a meaning without a condition: it answers a next state. -/
theorem exec_packageStep_goes {i : Instr} (s : State) (h : slotOf i = none) : ∃ t, exec i s = .next t := by
  cases i
  all_goals simp only [slotOf, reduceCtorEq] at h
  all_goals exact ⟨_, rfl⟩

/-- The outcome is that of the frame of the slot instructions (R15, R67, R80, R193), around some effect. -/
def Framed (i : Instr) (s : State) (o : SlotOutcome) : Prop := ∃ body, o = slotStep i s body

theorem slotStep_framed (i : Instr) (s : State) (body : State → Except SlotFault State) : Framed i s (slotStep i s body) := ⟨body, rfl⟩

theorem scalar2_framed (i : Instr) (l : Bool) (d a b : BitVec 6) (k : Nat) (f : Word → Word → Word) (s : State) :
    Framed i s (scalar2 i l d a b k f s) := ⟨_, rfl⟩

theorem scalar1_framed (i : Instr) (l : Bool) (d a : BitVec 6) (f : Word → Word) (s : State) : Framed i s (scalar1 i l d a f s) := ⟨_, rfl⟩

theorem scalarImm_framed (i : Instr) (l : Bool) (d : BitVec 6) (f : Word → Word) (s : State) : Framed i s (scalarImm i l d f s) := ⟨_, rfl⟩

theorem predOp_framed (i : Instr) (pd pa pb : BitVec 3) (na nb : Bool) (f : Bool → Bool → Bool) (s : State) :
    Framed i s (predOp i pd pa pb na nb f s) := ⟨_, rfl⟩

theorem rowOp_framed (i : Instr) (l : Bool) (td ta tb rs : BitVec 4) (k : Nat) (f : State → Row → Row → Row → Nat → Row × Flags) (s : State) :
    Framed i s (rowOp i l td ta tb rs k f s) := ⟨_, rfl⟩

theorem atomicOp_framed (i : Instr) (op : AtomicOp) (d x y : BitVec 6) (v : BitVec 4) (a : BitVec 6) (ord sc : BitVec 2) (s : State) :
    Framed i s (atomicOp i op d x y v a ord sc s) := ⟨_, rfl⟩

theorem atomicX_framed (i : Instr) (op : AtomicOp) (d : BitVec 6) (v : BitVec 4) (a : BitVec 6) (ord sc : BitVec 2) (s : State) :
    Framed i s (atomicX i op d v a ord sc s) := atomicOp_framed ..

theorem placedStep_framed (i : Instr) (s : State) : Framed i s (placedStep i s) := ⟨_, rfl⟩

/-- The meaning of a slot instruction is the frame around an effect of its own. -/
theorem exec_framed {i : Instr} {cl : SlotClass} (s : State) (h : slotOf i = some cl) : Framed i s (exec i s) := by
  cases i
  all_goals simp only [slotOf, reduceCtorEq] at h
  all_goals dsimp only [exec]
  case add | sub | and | or | xor | shl | shr | sra | min | max | minu | maxu | addsh | mul | mulh | mulhu | divu | remu => exact scalar2_framed ..
  case mov | clz => exact scalar1_framed ..
  case addi | andi | ori | xori | shli | shri | srai | movh => exact scalarImm_framed ..
  case aadd | amin | amax | aminu | amaxu | aand | aor | axor | axchg | aincb | afadd | afaddh | ast => exact atomicX_framed ..
  case acas | ald => exact atomicOp_framed ..
  case tadd | tsub | tmul | tmax | tred | tmv | tmm => exact placedStep_framed ..
  case pand | por | pxor => exact predOp_framed ..
  case vadd | vsub | vmul | vfma | vmin | vmax | vabs | vneg | vmov | vand | vor | vxor | vshl | vshr | vsra | vcmpeq | vcmplt | vcmple | vsel | vcvt |
      vscl | vclmp | vexp2 | vrcp | vrsq | vrsum | vrmax | vrmin | vbcs | vins | vperm | vlsh | vpack | vunpk | vadds | vmuls | vfmas =>
    exact rowOp_framed ..
  all_goals exact slotStep_framed ..

/-- Every instruction answers a next state (R67, R186, R193): what stops a strand is in that state. -/
theorem exec_goes (i : Instr) (s : State) : ∃ t, exec i s = .next t := by
  cases h : slotOf i with
  | none => exact exec_packageStep_goes s h
  | some cl =>
    obtain ⟨body, hb⟩ := exec_framed s h
    rw [hb]
    exact slotStep_goes i s body

/-! One step, by the head of the agenda. -/

/-- A well-formed step of the package that an input names is its meaning. -/
theorem stepEvent_runs {i : Instr} (s : State) (hn : slotOf i = none) (hw : i.wf = true) : stepEvent i s = exec i s := by
  simp [stepEvent, hn, hw]

/-- An instruction of a slot is no step of the package. -/
theorem stepEvent_slot {i : Instr} (s : State) (h : (slotOf i).isSome = true) : stepEvent i s = .refused .illFormed := by
  simp [stepEvent, Option.isSome_iff_ne_none.mp h]

theorem stepEvent_goes (i : Instr) (s : State) : (∃ t, stepEvent i s = .next t) ∨ stepEvent i s = .refused .illFormed := by
  unfold stepEvent
  split
  · exact .inl (exec_goes i s)
  · exact .inr rfl

theorem step_event {s : State} {i : Instr} {rest : List Input} (hp : s.powered = true) (ha : s.agenda = .event i :: rest) :
    step s = stepEvent i { s with agenda := rest } := by
  simp [step, ha, hp]

theorem step_write {s : State} {i : Instr} {b : BusWrite} {rest : List Input} (hp : s.powered = true) (ha : s.agenda = .write i b :: rest) :
    step s = stepEvent i { s with agenda := rest, bus := b } := by
  simp [step, ha, hp]

theorem step_ownMove {s : State} (hp : s.powered = true) (ha : s.agenda = []) (hc : s.cur < 2080) : step s = exec (nextMove s) s := by
  simp [step, ha, hp, Nat.not_le.mpr hc]

theorem step_off {s : State} (hp : s.powered = false) (ha : s.agenda = []) : step s = .next s := by
  simp [step, ha, hp]

/-- R2: a step of a state whose stream is one of the package's stops at no fault, whatever stands on the agenda. -/
theorem step_goes {s : State} (hc : s.cur < 2080) : (∃ t, step s = .next t) ∨ step s = .refused .illFormed := by
  cases ha : s.agenda with
  | nil =>
    cases hp : s.powered with
    | false => exact .inl ⟨s, step_off hp ha⟩
    | true =>
      rw [step_ownMove hp ha hc]
      exact .inl (exec_goes _ s)
  | cons x rest =>
    unfold step
    rw [ha]
    cases x with
    | event i =>
      dsimp only
      split
      · exact stepEvent_goes _ _
      · exact .inl ⟨_, rfl⟩
    | write i b =>
      dsimp only
      split
      · exact stepEvent_goes _ _
      · exact .inl ⟨_, rfl⟩
    | _ => exact .inl ⟨_, rfl⟩

/-- Settles O6: slot instructions answer by their frame, package steps by their meaning, and a step runs one of them, takes an input, or
refuses its head. -/
theorem everyInstructionAnswers : Obligations.EveryInstructionAnswers :=
  ⟨exec_goes, fun _ hc => step_goes hc⟩

/-- Settles O4, by the head of the agenda. -/
theorem stepRunsItsInstruction : Obligations.StepRunsItsInstruction := by
  intro s i b rest
  refine ⟨fun hp hn hw => ⟨fun ha => ?_, fun ha => ?_⟩, step_ownMove, step_off, fun hp hs ha => ?_⟩
  · rw [step_event hp ha, stepEvent_runs _ hn hw]
  · rw [step_write hp ha, stepEvent_runs _ hn hw]
  · rw [step_event hp ha, stepEvent_slot _ hs]

/-- Settles O10: the reset state lists no byte and runs sequencer 0. -/
theorem resetMemoryCanonical : Obligations.ResetMemoryCanonical :=
  ⟨sparseOk_nil 0, by decide, rfl⟩

end Sys2Proof.Machine

/-! Cells, held pseudo-channels, and what a unit of the package writes (R257, R275). -/

namespace Sys2Proof.Machine

theorem cellsAt_cons (loc : Nat) (b : Byte) (l : List Byte) : cellsAt loc (b :: l) = (loc, b) :: cellsAt (loc + 1) l := by
  simp [cellsAt, List.range_succ_eq_map, Function.comp_def, Nat.add_assoc, Nat.add_comm 1]

theorem memPutCells_cellsAt (m : List Host.Cell) (loc : Nat) (l : List Byte) : memPutCells m (cellsAt loc l) = memPutBytes m loc l := by
  induction l generalizing m loc with
  | nil => rfl
  | cons b l ih => rw [cellsAt_cons, memPutCells, memPutBytes, ih]

theorem cellsAt_bounds {loc : Nat} {l : List Byte} {c : Host.Cell} (h : c ∈ cellsAt loc l) : loc ≤ c.1 ∧ c.1 < loc + l.length := by
  obtain ⟨n, hn, hc⟩ := List.mem_map.mp (List.of_mem_zip h).1
  have := List.mem_range.mp hn
  omega

theorem cellsAt_has {loc n : Nat} {l : List Byte} (h : n < l.length) : ∃ b, (loc + n, b) ∈ cellsAt loc l := by
  refine ⟨l[n], List.mem_iff_getElem.mpr ⟨n, by simpa [cellsAt] using h, ?_⟩⟩
  simp [cellsAt]

theorem noChannelHeld_iff (s : State) : noChannelHeld s = true ↔ ∀ q ∈ s.seqs, q.2.bank = none := by
  simp [noChannelHeld]

/-- R275: with no strand in all-bank mode, nothing is held. -/
theorem channelHeld_none {s : State} (h : noChannelHeld s = true) (a : Nat) : channelHeld s a = false := by
  simp only [channelHeld, List.any_eq_false]
  intro q hq
  rw [(noChannelHeld_iff s).mp h q hq]
  simp

theorem channelHeld_some {s : State} {a : Nat} (h : channelHeld s a = true) : noChannelHeld s = false := by
  cases hn : noChannelHeld s with
  | false => rfl
  | true => rw [channelHeld_none hn] at h; cases h

/-- R275: a pseudo-channel holds whole granules of 4 KiB. -/
theorem channelHeld_granule (s : State) {a b : Nat} (h : a / 4096 = b / 4096) : channelHeld s a = channelHeld s b := by
  have hu : a / 2 ^ 48 = b / 2 ^ 48 := by
    rw [show (2 : Nat) ^ 48 = 4096 * 2 ^ 36 from rfl, ← Nat.div_div_eq_div_mul, ← Nat.div_div_eq_div_mul, h]
  simp only [channelHeld, h, hu]

/-- R275: the pieces at which an area is tested are bytes of it. -/
theorem pieces_bounds {a n p : Nat} (h : p ∈ pieces 4096 a n) : a ≤ p ∧ p < a + n := by
  unfold pieces at h
  split at h
  · cases h
  · rcases List.mem_cons.mp h with rfl | h
    · omega
    · obtain ⟨j, hj, rfl⟩ := List.mem_map.mp h
      have := List.mem_range.mp hj
      omega

/-- R275: every granule of an area has a piece in it. -/
theorem pieces_granule {a n b : Nat} (hl : a ≤ b) (hu : b < a + n) : ∃ p ∈ pieces 4096 a n, p / 4096 = b / 4096 := by
  unfold pieces
  rw [if_neg (by omega)]
  by_cases h : b / 4096 = a / 4096
  · exact ⟨a, List.mem_cons_self .., h.symm⟩
  · have hj : b / 4096 - a / 4096 - 1 < (a + (n - 1)) / 4096 - a / 4096 := by omega
    refine ⟨b / 4096 * 4096, List.mem_cons_of_mem _ (List.mem_map.mpr ⟨_, List.mem_range.mpr hj, ?_⟩), by omega⟩
    have : a / 4096 + 1 + (b / 4096 - a / 4096 - 1) = b / 4096 := by omega
    rw [this]

/-- R275: an area is held exactly when one of its bytes is. -/
theorem homeHeld_iff (s : State) (loc n : Nat) : homeHeld s loc n = true ↔ ∃ a, (loc ≤ a ∧ a < loc + n) ∧ channelHeld s a = true := by
  simp only [homeHeld, Bool.and_eq_true, List.any_eq_true]
  constructor
  · rintro ⟨-, p, hp, h⟩
    exact ⟨p, pieces_bounds hp, h⟩
  · rintro ⟨a, ⟨hl, hu⟩, h⟩
    obtain ⟨p, hp, hg⟩ := pieces_granule hl hu
    exact ⟨by rw [channelHeld_some h]; rfl, p, hp, (channelHeld_granule s hg).trans h⟩

/-! Forwards of a write (R318-R320). -/

theorem mem_distinct {x : Nat} {l : List Nat} (h : x ∈ l) : x ∈ distinct l := by
  induction l with
  | nil => cases h
  | cons y l ih =>
    simp only [distinct, List.contains_iff_mem]
    rcases List.mem_cons.mp h with rfl | h
    · split
      · assumption
      · exact List.mem_cons_self ..
    · split
      · exact ih h
      · exact List.mem_cons_of_mem _ (ih h)

/-- Every cell whose key is listed stands in a forward of the write. -/
theorem newForwards_has (op die id : Nat) {ks : List Nat} {l : List Host.Cell} {c : Host.Cell} (hc : c ∈ l) (hk : proxyKey c.1 ∈ ks) :
    ∃ f ∈ newForwards op die id ks l, f.op = op ∧ f.die = die ∧ c ∈ f.cells := by
  induction ks generalizing id with
  | nil => cases hk
  | cons k ks ih =>
    unfold newForwards
    rcases List.mem_cons.mp hk with hk | hk
    · have hm : c ∈ l.filter (fun c => proxyKey c.1 == k) := List.mem_filter.mpr ⟨hc, by simp [hk]⟩
      split
      · rename_i he
        rw [he] at hm
        cases hm
      · exact ⟨_, List.mem_cons_self .., rfl, rfl, hm⟩
    · split
      · exact ih _ hk
      · obtain ⟨f, hf, h⟩ := ih (id + 1) hk
        exact ⟨f, List.mem_cons_of_mem _ hf, h⟩

theorem homeDie_ne_noDie (loc : Nat) : homeDie loc ≠ some noDie := by
  unfold homeDie noDie
  simp only []
  split
  · simp only [ne_eq, Option.some.injEq]; omega
  · split
    · simp only [ne_eq, Option.some.injEq]; omega
    · simp

/-- R257: an agent of no die forwards every cell of memory. -/
theorem forwardsOf_noDie_has (op id : Nat) {l : List Host.Cell} {c : Host.Cell} (hc : c ∈ l) (hm : c.1 < location 48 0) :
    ∃ f ∈ forwardsOf op noDie id l, f.op = op ∧ f.die = noDie ∧ c ∈ f.cells := by
  have ha : c ∈ l.filter (fun c => homeDie c.1 != some noDie && decide (c.1 < location 48 0)) :=
    List.mem_filter.mpr ⟨hc, by simp [homeDie_ne_noDie, hm]⟩
  unfold forwardsOf
  split
  · rename_i he
    rw [he] at ha
    cases ha
  · exact newForwards_has op noDie id ha (mem_distinct (List.mem_map.mpr ⟨c, ha, rfl⟩))

/-! What a unit's write leaves. -/

/-- The cells of a write whose pseudo-channel is free (R275). -/
def freeCells (s : State) (l : List Host.Cell) : List Host.Cell := l.filter (fun c => !channelHeld s c.1)

theorem freeCells_all {s : State} {l : List Host.Cell} (h : ∀ c ∈ l, channelHeld s c.1 = false) : freeCells s l = l := by
  simpa [freeCells] using h

/-- A unit's write changes memory, slices, forwards and numbers, and nothing else. -/
theorem writeHome_frame (s : State) (l : List Host.Cell) : ∃ sl fs n,
    writeHome s l = { s with mem := memPutCells s.mem (freeCells s l), slices := sl, forwards := fs, nextOp := n } := by
  unfold writeHome
  split
  · rename_i h
    rw [freeCells_all fun c _ => channelHeld_none h c.1]
    exact ⟨_, _, _, rfl⟩
  · exact ⟨_, _, _, rfl⟩

@[simp] theorem writeHome_mem (s : State) (l : List Host.Cell) : (writeHome s l).mem = memPutCells s.mem (freeCells s l) := by
  obtain ⟨sl, fs, n, h⟩ := writeHome_frame s l; rw [h]
@[simp] theorem writeHome_seqs (s : State) (l : List Host.Cell) : (writeHome s l).seqs = s.seqs := by
  obtain ⟨sl, fs, n, h⟩ := writeHome_frame s l; rw [h]
@[simp] theorem writeHome_ops (s : State) (l : List Host.Cell) : (writeHome s l).ops = s.ops := by
  obtain ⟨sl, fs, n, h⟩ := writeHome_frame s l; rw [h]
@[simp] theorem writeHome_dies (s : State) (l : List Host.Cell) : (writeHome s l).dies = s.dies := by
  obtain ⟨sl, fs, n, h⟩ := writeHome_frame s l; rw [h]
@[simp] theorem writeHome_tasks (s : State) (l : List Host.Cell) : (writeHome s l).tasks = s.tasks := by
  obtain ⟨sl, fs, n, h⟩ := writeHome_frame s l; rw [h]
@[simp] theorem writeHome_gt (s : State) (l : List Host.Cell) : (writeHome s l).gt = s.gt := by
  obtain ⟨sl, fs, n, h⟩ := writeHome_frame s l; rw [h]

@[simp] theorem dieAt_writeHome (s : State) (l : List Host.Cell) (d : Nat) : dieAt (writeHome s l) d = dieAt s d := by simp [dieAt]

/-- R257: with no strand in all-bank mode, bytes are written as they stand. -/
theorem writeHome_bytes {s : State} (h : noChannelHeld s = true) (loc : Nat) (l : List Byte) :
    (writeHome s (cellsAt loc l)).mem = memPutBytes s.mem loc l := by
  rw [writeHome_mem, freeCells_all fun c _ => channelHeld_none h c.1, memPutCells_cellsAt]

/-- R275: a place that no cell names, or that a strand holds, reads as before. -/
theorem memByte_writeHome_other {s : State} {l : List Host.Cell} {a : Nat} (h : (∀ c ∈ l, c.1 ≠ a) ∨ channelHeld s a = true) :
    memByte (writeHome s l).mem a = memByte s.mem a := by
  rw [writeHome_mem]
  refine memByte_memPutCells _ _ _ fun c hc => ?_
  obtain ⟨hl, hf⟩ := List.mem_filter.mp hc
  rcases h with h | h
  · exact h c hl
  · rintro rfl
    simp [h] at hf

/-- The last cell of a free place stands. -/
theorem memByte_writeHome_last {s : State} {l : List Host.Cell} {a : Nat} {b : Byte} (hf : channelHeld s a = false)
    (h : l.reverse.find? (fun c => c.1 == a) = some (a, b)) : memByte (writeHome s l).mem a = b := by
  obtain ⟨-, y, x, hl, hy⟩ := List.find?_eq_some_iff_append.mp h
  have hl : l = x.reverse ++ (a, b) :: y.reverse := by simpa using congrArg List.reverse hl
  have hk : freeCells s l = freeCells s x.reverse ++ (a, b) :: freeCells s y.reverse := by
    simp [hl, freeCells, List.filter_append, hf]
  rw [writeHome_mem]
  refine (wrote_memPutCells (freeCells s l) s).2 _ _ a b hk fun c hc => ?_
  have := hy c (List.mem_reverse.mp (List.mem_filter.mp hc).1)
  simpa using this

/-- R275: a cell of a held pseudo-channel waits in a forward of the write's number. -/
theorem writeHome_waits {s : State} {l : List Host.Cell} {c : Host.Cell} (hc : c ∈ l) (hh : channelHeld s c.1 = true) (hm : c.1 < location 48 0) :
    ∃ f ∈ (writeHome s l).forwards, f.op = s.nextOp ∧ f.die = noDie ∧ c ∈ f.cells := by
  obtain ⟨f, hf, h⟩ := forwardsOf_noDie_has s.nextOp s.nextOp (List.mem_filter.mpr ⟨hc, hh⟩ : c ∈ l.filter (fun c => channelHeld s c.1)) hm
  refine ⟨f, ?_, h⟩
  simp only [writeHome, channelHeld_some hh, Bool.false_eq_true, if_false]
  exact List.mem_append_right _ hf

end Sys2Proof.Machine

/-! What the units of the package leave while they record and post: the sequencers, the tasks, and each die's GO and waiting launches. -/

namespace Sys2Proof.Machine

/-- The sequencers, the tasks, and each die's GO and waiting launches stand. -/
structure Quiet (s t : State) : Prop where
  seqs : t.seqs = s.seqs
  tasks : t.tasks = s.tasks
  dies : ∀ d, (dieAt t d).go = (dieAt s d).go ∧ (dieAt t d).asked = (dieAt s d).asked

theorem Quiet.refl (s : State) : Quiet s s := ⟨rfl, rfl, fun _ => ⟨rfl, rfl⟩⟩

theorem Quiet.trans {s t u : State} (h : Quiet s t) (k : Quiet t u) : Quiet s u :=
  ⟨k.seqs.trans h.seqs, k.tasks.trans h.tasks, fun d => ⟨(k.dies d).1.trans (h.dies d).1, (k.dies d).2.trans (h.dies d).2⟩⟩

/-- What leaves the tables of sequencers, tasks and dies. -/
theorem Quiet.of_tables {s t : State} (hs : t.seqs = s.seqs) (ht : t.tasks = s.tasks) (hd : t.dies = s.dies) : Quiet s t :=
  ⟨hs, ht, fun d => by simp [dieAt, hd]⟩

theorem setDie_quiet (s : State) (d : Nat) {x : Die} (hg : x.go = (dieAt s d).go) (ha : x.asked = (dieAt s d).asked) : Quiet s (setDie s d x) := by
  refine ⟨rfl, rfl, fun j => ?_⟩
  by_cases h : j = d
  · subst h
    simp [hg, ha]
  · simp [dieAt_setDie_ne _ _ h]

theorem foldl_quiet {α : Type} {f : State → α → State} (hf : ∀ s x, Quiet s (f s x)) (l : List α) (s : State) : Quiet s (l.foldl f s) := by
  induction l generalizing s with
  | nil => exact .refl s
  | cons x l ih => exact (hf s x).trans (ih _)

theorem writeHome_quiet (s : State) (l : List Host.Cell) : Quiet s (writeHome s l) := .of_tables (by simp) (by simp) (by simp)

/-! The trace unit (R337-R341). -/

/-- R337: where the next record of a die's buffer stands. -/
def recordPlace (d : Nat) (t : Trace) : Nat := location d (t.base.toNat + 16 * (t.wr.toNat % traceCapacity t))

/-- R337: a record goes into a buffer with room. -/
theorem traceRaw_room {s : State} {d : Nat} (h : traceFree (dieAt s d).trace ≠ 0) (kind delta : Nat) (payload : BitVec 64) (place : Word)
    (slot : Option (Nat × Bool)) :
    traceRaw s d kind delta payload place slot =
      setDie (writeHome s (cellsAt (recordPlace d (dieAt s d).trace) (leBytes 16 (traceWord kind delta payload place slot)))) d
        { dieAt s d with trace := { (dieAt s d).trace with wr := (dieAt s d).trace.wr + 1, last := gtAt s d, fresh := false } } := by
  simp [traceRaw, h, recordPlace]

/-- R341: a full buffer counts a record as dropped. -/
theorem traceRaw_full {s : State} {d : Nat} (h : traceFree (dieAt s d).trace = 0) (kind delta : Nat) (payload : BitVec 64) (place : Word)
    (slot : Option (Nat × Bool)) :
    traceRaw s d kind delta payload place slot =
      setDie s d { dieAt s d with trace := { (dieAt s d).trace with dropped := (dieAt s d).trace.dropped + 1 } } := by
  simp [traceRaw, h]

theorem traceRaw_quiet (s : State) (d kind delta : Nat) (payload : BitVec 64) (place : Word) (slot : Option (Nat × Bool)) :
    Quiet s (traceRaw s d kind delta payload place slot) := by
  by_cases h : traceFree (dieAt s d).trace = 0
  · rw [traceRaw_full h]
    exact setDie_quiet _ _ rfl rfl
  · rw [traceRaw_room h]
    exact (writeHome_quiet s _).trans (setDie_quiet _ _ (by simp) (by simp))

theorem traceStamped_quiet (s : State) (d kind : Nat) (payload : BitVec 64) (place : Word) (slot : Option (Nat × Bool)) :
    Quiet s (traceStamped s d kind payload place slot) := by
  unfold traceStamped
  dsimp only
  split
  · exact (traceRaw_quiet ..).trans (traceRaw_quiet ..)
  · exact traceRaw_quiet ..

theorem traceResync_quiet (s : State) (d : Nat) : Quiet s (traceResync s d) := by
  unfold traceResync
  dsimp only
  split
  · exact (traceRaw_quiet ..).trans (setDie_quiet _ _ rfl rfl)
  · exact .refl s

theorem traceLost_quiet (s : State) (d : Nat) : Quiet s (traceLost s d) := by
  unfold traceLost
  dsimp only
  split
  · refine .trans ?_ (traceStamped_quiet ..)
    exact setDie_quiet _ _ rfl rfl
  · exact .refl s

theorem traceRecord_quiet (s : State) (d kind : Nat) (payload : BitVec 64) (place : Word) (slot : Option (Nat × Bool)) :
    Quiet s (traceRecord s d kind payload place slot) := by
  have h : Quiet s (traceLost (traceResync s d) d) := (traceResync_quiet s d).trans (traceLost_quiet _ d)
  unfold traceRecord
  dsimp only
  split
  · exact .refl s
  · split
    · exact h.trans (setDie_quiet _ _ rfl rfl)
    · exact h.trans (traceStamped_quiet ..)

theorem traceAfter_quiet (s : State) (d n kind : Nat) (payload : BitVec 64) : Quiet s (traceAfter s d n kind payload) := by
  rcases traceAfter_cases s d n kind payload with ⟨-, h⟩ | ⟨-, h⟩ <;> rw [h]
  · exact traceRecord_quiet ..
  · exact setDie_quiet _ _ rfl rfl

theorem pushEvent_quiet (s : State) (die : Nat) (rec : BitVec 512) : Quiet s (pushEvent s die rec) := by
  refine .trans ?_ (traceRecord_quiet ..)
  exact .of_tables rfl rfl rfl

theorem postEvent_quiet (s : State) (die : Nat) (rec : BitVec 512) : Quiet s (postEvent s die rec) := by
  unfold postEvent
  dsimp only
  split
  · exact pushEvent_quiet ..
  · exact .of_tables rfl rfl rfl

/-- A record that the trace unit of die d has put into its buffer: where it stands, and what the unit keeps of it. -/
structure Recorded (s u : State) (d : Nat) (w : Nat) : Prop where
  trace : (dieAt u d).trace = { (dieAt s d).trace with wr := (dieAt s d).trace.wr + 1, last := gtAt s d, fresh := false }
  mem : noChannelHeld s = true → u.mem = memPutBytes s.mem (recordPlace d (dieAt s d).trace) (leBytes 16 w)
  seqs : u.seqs = s.seqs
  gt : u.gt = s.gt

theorem traceRaw_recorded {s : State} {d : Nat} (h : traceFree (dieAt s d).trace ≠ 0) (kind delta : Nat) (payload : BitVec 64) (place : Word)
    (slot : Option (Nat × Bool)) :
    Recorded s (traceRaw s d kind delta payload place slot) d (traceWord kind delta payload place slot) := by
  rw [traceRaw_room h]
  exact ⟨by simp, fun hn => writeHome_bytes hn _ _, by simp, by simp⟩

/-- R340: a record within the range of DELTA stands alone. -/
theorem traceStamped_near {s : State} {d : Nat} (hf : (dieAt s d).trace.fresh = false) (hg : (gtAt s d - (dieAt s d).trace.last).toNat ≤ 65535)
    (kind : Nat) (payload : BitVec 64) (place : Word) (slot : Option (Nat × Bool)) :
    traceStamped s d kind payload place slot = traceRaw s d kind (gtAt s d - (dieAt s d).trace.last).toNat payload place slot := by
  simp [traceStamped, hf, Nat.not_lt.mpr hg, -BitVec.toNat_sub]

/-- R340: an ABS stands before the first record, and before one after a gap. -/
theorem traceStamped_abs {s : State} {d : Nat}
    (hg : (dieAt s d).trace.fresh = true ∨ 65535 < (gtAt s d - (dieAt s d).trace.last).toNat) (hr : 0 < traceFree (dieAt s d).trace)
    (kind : Nat) (payload : BitVec 64) (place : Word) (slot : Option (Nat × Bool)) :
    traceStamped s d kind payload place slot = traceRaw (traceRaw s d 0x08 0 (gtAt s d) 0 none) d kind 0 payload place slot := by
  rcases hg with h | h <;> simp [traceStamped, h, hr, -BitVec.toNat_sub]

/-- R341: a record takes one place of the buffer. -/
theorem traceFree_next {t u : Trace} (hz : u.logsz = t.logsz) (hr : u.rd = t.rd) (hw : u.wr = t.wr + 1) (h : 2 ≤ traceFree t) : traceFree u ≠ 0 := by
  have hd : (t.wr + 1 - t.rd).toNat ≤ (t.wr - t.rd).toNat + 1 := by bv_omega
  simp only [traceFree, traceCapacity, hz, hr, hw] at h ⊢
  omega

theorem traceResync_runs {s : State} {d : Nat} (he : (dieAt s d).trace.en = true) (hr : (dieAt s d).trace.resync = true) (hl : gtLocked s = true)
    (hf : 0 < traceFree (dieAt s d).trace) :
    traceResync s d = setDie (traceRaw s d 0x0A 0 (gtAt s d) 0 none) d { dieAt (traceRaw s d 0x0A 0 (gtAt s d) 0 none) d with
      trace := { (dieAt (traceRaw s d 0x0A 0 (gtAt s d) 0 none) d).trace with resync := false } } := by
  simp [traceResync, he, hr, hl, hf]

/-- R337: a unit that is not enabled takes no record. -/
theorem traceRecord_disabled {s : State} {d : Nat} (h : (dieAt s d).trace.en = false) (kind : Nat) (payload : BitVec 64) (place : Word)
    (slot : Option (Nat × Bool)) : traceRecord s d kind payload place slot = s := by
  simp [traceRecord, h]

/-- R343, R344: with no record that waits, nothing is written. -/
theorem writeDue_nil {s : State} {d : Nat} (h : (dieAt s d).trace.due = []) : writeDue s d = setDie s d (dieAt s d) := by
  have : ({ (dieAt s d).trace with due := [] } : Trace) = (dieAt s d).trace := by rw [← h]
  simp [writeDue, h, this]

/-- R343, R344: one record that waits goes on waiting while a forward of its write stands. -/
theorem writeDue_waits {s : State} {d : Nat} {e : DueRecord} (h : (dieAt s d).trace.due = [e])
    (hf : s.forwards.any (fun f => f.op == e.op) = true) : (dieAt (writeDue s d) d).trace = (dieAt s d).trace := by
  have : ({ (dieAt s d).trace with due := [e] } : Trace) = (dieAt s d).trace := by rw [← h]
  simp only [writeDue, h, List.filter_cons, hf, Bool.not_true, Bool.false_eq_true, if_false, if_true, List.filter_nil, List.foldl_nil,
    dieAt_setDie_same, this]

/-- R343, R344: one record that waits is written once its write has performed. -/
theorem writeDue_writes {s : State} {d : Nat} {e : DueRecord} (h : (dieAt s d).trace.due = [e])
    (hf : s.forwards.any (fun f => f.op == e.op) = false) :
    writeDue s d = traceRecord (setDie s d { dieAt s d with trace := { (dieAt s d).trace with due := [] } }) d e.kind e.load 0 none := by
  simp only [writeDue, h, List.filter_cons, hf, Bool.not_false, Bool.false_eq_true, if_false, if_true, List.filter_nil, List.foldl_cons, List.foldl_nil]

end Sys2Proof.Machine

/-! LOST and RESYNC (R340, R341). -/

namespace Sys2Proof.Machine

@[simp] theorem gtAt_setDie (s : State) (d j : Nat) (x : Die) : gtAt (setDie s d x) j = gtAt s j := rfl

/-- R341: the state of a die whose trace unit resumes: nothing counts as dropped. -/
def resumed (s : State) (d : Nat) : State := setDie s d { dieAt s d with trace := { (dieAt s d).trace with dropped := 0 } }

@[simp] theorem resumed_trace (s : State) (d : Nat) : (dieAt (resumed s d) d).trace = { (dieAt s d).trace with dropped := 0 } := by simp [resumed]

theorem resumed_free (s : State) (d : Nat) : traceFree (dieAt (resumed s d) d).trace = traceFree (dieAt s d).trace := by
  rw [resumed_trace]
  rfl

section
variable {s : State} {d : Nat} (he : (dieAt s d).trace.en = true) (hd : 0 < (dieAt s d).trace.dropped) (hf : 3 ≤ traceFree (dieAt s d).trace)
  (hr : (dieAt s d).trace.resync = false)
include he hd hf hr

/-- R341: three places free, the unit resumes with LOST. -/
theorem traceLost_resumes : traceLost s d = traceStamped (resumed s d) d 0x0B (BitVec.ofNat 64 (dieAt s d).trace.dropped) 0 none := by
  simp [traceLost, resumed, he, hd, hf, hr]

/-- R341: LOST within the range of DELTA is one record. -/
theorem traceLost_near (hn : (dieAt s d).trace.fresh = false) (hg : (gtAt s d - (dieAt s d).trace.last).toNat ≤ 65535) :
    Recorded (resumed s d) (traceLost s d) d
      (traceWord 0x0B (gtAt s d - (dieAt s d).trace.last).toNat (BitVec.ofNat 64 (dieAt s d).trace.dropped) 0 none) := by
  have hfree : traceFree (dieAt (resumed s d) d).trace ≠ 0 := by rw [resumed_free]; omega
  have hlast : (dieAt (resumed s d) d).trace.last = (dieAt s d).trace.last := by simp
  rw [traceLost_resumes he hd hf hr, traceStamped_near (by simpa using hn) (by rw [hlast]; exact hg), hlast]
  exact traceRaw_recorded hfree ..

/-- R340, R341: LOST after a gap, or first since the enable, stands behind an ABS. -/
theorem traceLost_abs (hg : (dieAt s d).trace.fresh = true ∨ 65535 < (gtAt s d - (dieAt s d).trace.last).toNat) :
    ∃ m, Recorded (resumed s d) m d (traceWord 0x08 0 (gtAt s d) 0 none) ∧
      Recorded m (traceLost s d) d (traceWord 0x0B 0 (BitVec.ofNat 64 (dieAt s d).trace.dropped) 0 none) := by
  have hfree : 3 ≤ traceFree (dieAt (resumed s d) d).trace := by rw [resumed_free]; exact hf
  have hlast : (dieAt (resumed s d) d).trace.last = (dieAt s d).trace.last := by simp
  have hfresh : (dieAt (resumed s d) d).trace.fresh = (dieAt s d).trace.fresh := by simp
  have hfirst := traceRaw_recorded (s := resumed s d) (d := d) (by omega) 0x08 0 (gtAt s d) 0 none
  rw [traceLost_resumes he hd hf hr, traceStamped_abs (by rw [hfresh, hlast]; exact hg) (by omega)]
  refine ⟨_, hfirst, traceRaw_recorded ?_ ..⟩
  exact traceFree_next (t := (dieAt (resumed s d) d).trace) (by rw [hfirst.trace]) (by rw [hfirst.trace]) (by rw [hfirst.trace]) (by omega)

end

/-- R340: RESYNC is one record, after which the unit owes none. -/
theorem traceResync_records {s : State} {d : Nat} (he : (dieAt s d).trace.en = true) (hr : (dieAt s d).trace.resync = true)
    (hl : gtLocked s = true) (hf : 0 < traceFree (dieAt s d).trace) :
    ∃ m, Recorded s m d (traceWord 0x0A 0 (gtAt s d) 0 none) ∧
      traceResync s d = setDie m d { dieAt m d with trace := { (dieAt m d).trace with resync := false } } :=
  ⟨_, traceRaw_recorded (by omega) .., traceResync_runs he hr hl hf⟩

/-- A 16-byte record in place n of a die's buffer (R337). -/
def putRecord (d : Nat) (t : Trace) (m : List Host.Cell) (n : Word) (w : Nat) : List Host.Cell :=
  memPutBytes m (location d (t.base.toNat + 16 * (n.toNat % traceCapacity t))) (leBytes 16 w)

/-- LOST and RESYNC of a die whose trace unit is enabled. -/
theorem lost_and_resync (s : State) (d : Nat) :
    let t := (dieAt s d).trace
    let gap := (gtAt s d - t.last).toNat
    let put := putRecord d t
    let count := BitVec.ofNat 64 t.dropped
    t.en = true → (0 < t.dropped → 3 ≤ traceFree t → t.resync = false → ∃ u, exec (.lost d) s = .next u ∧ (dieAt u d).trace.dropped = 0 ∧
      (dieAt u d).trace.last = gtAt s d ∧ u.seqs = s.seqs ∧
      (t.fresh = false → gap ≤ 65535 → (dieAt u d).trace.wr = t.wr + 1 ∧ (noChannelHeld s = true → u.mem = put s.mem t.wr (traceWord 0x0B gap count 0 none))) ∧
      (t.fresh = true ∨ 65535 < gap → (dieAt u d).trace.wr = t.wr + 2 ∧
        (noChannelHeld s = true → u.mem = put (put s.mem t.wr (traceWord 0x08 0 (gtAt s d) 0 none)) (t.wr + 1) (traceWord 0x0B 0 count 0 none)))) ∧
      (t.resync = true → gtLocked s = true → 0 < traceFree t → ∃ u, exec (.resync d) s = .next u ∧ (dieAt u d).trace.resync = false ∧
        (dieAt u d).trace.wr = t.wr + 1 ∧ (dieAt u d).trace.last = gtAt s d ∧
        (noChannelHeld s = true → u.mem = put s.mem t.wr (traceWord 0x0A 0 (gtAt s d) 0 none))) := by
  intro t gap put count he
  refine ⟨fun hd hf hr => ⟨traceLost s d, rfl, ?_⟩, fun hr hl hf => ⟨traceResync s d, rfl, ?_⟩⟩
  · by_cases hg : t.fresh = true ∨ 65535 < gap
    · obtain ⟨m, hm, hu⟩ := traceLost_abs he hd hf hr hg
      have htm := hm.trace
      have htu := hu.trace
      have hgt : gtAt m d = gtAt s d := congrArg (fun l => tget 0 l d) hm.gt
      rw [resumed_trace] at htm
      rw [htm] at htu
      refine ⟨by rw [htu], by rw [htu, hgt], hu.seqs.trans hm.seqs, fun hn hg' => ?_, fun _ => ⟨?_, fun hh => ?_⟩⟩
      · rcases hg with hg | hg
        · rw [hn] at hg; cases hg
        · omega
      · rw [htu]
        exact BitVec.add_assoc t.wr 1 1
      · have hmem := hm.mem hh
        have hheld : noChannelHeld m = true := by rw [noChannelHeld, hm.seqs]; exact hh
        rw [hu.mem hheld, hmem, htm, resumed_trace]
        rfl
    · have hn : t.fresh = false := by simpa using fun h => hg (.inl h)
      have hu := traceLost_near he hd hf hr hn (Nat.not_lt.mp fun h => hg (.inr h))
      have htu := hu.trace
      rw [resumed_trace] at htu
      refine ⟨by rw [htu], by rw [htu]; rfl, hu.seqs, fun _ _ => ⟨by rw [htu], fun hh => ?_⟩, fun h => absurd h hg⟩
      rw [hu.mem hh, resumed_trace]
      rfl
  · obtain ⟨m, hm, hu⟩ := traceResync_records he hr hl hf
    rw [hu]
    simp only [dieAt_setDie_same, hm.trace, true_and]
    exact ⟨rfl, hm.mem⟩

end Sys2Proof.Machine

/-! GO and the launches that waited for it (R275, R283, R358, R360). -/

namespace Sys2Proof.Machine

/-- A die that keeps its GO and its waiting launches. -/
theorem Quiet.setDie {s t : State} (h : Quiet s t) (d : Nat) {x : Die} (hg : x.go = (dieAt s d).go) (ha : x.asked = (dieAt s d).asked) :
    Quiet s (setDie t d x) :=
  h.trans (setDie_quiet t d (hg.trans (h.dies d).1.symm) (ha.trans (h.dies d).2.symm))

theorem passView_quiet (s : State) (asid : Nat) (v : View) : Quiet s (passView s asid v) := by
  unfold passView
  split
  · exact .refl s
  · exact .of_tables rfl rfl rfl

theorem passMap_quiet (s : State) (asid : Nat) (r : LaunchRec) : Quiet s (passMap s asid r) := by
  unfold passMap
  split
  · exact .refl s
  · exact .of_tables rfl rfl rfl

theorem hostDone_quiet (s : State) (host : Option (Nat × Nat)) (st : Nat) : Quiet s (hostDone s host st) := by
  cases host with
  | none => exact .refl s
  | some e => exact .of_tables rfl rfl rfl

/-- R344: the replay unit's entry for a launch. -/
theorem captureLaunch_quiet (s : State) (die asid : Nat) (r : LaunchRec) : Quiet s (captureLaunch s die asid r).1 := by
  unfold captureLaunch
  dsimp only
  split
  · split
    · exact setDie_quiet _ _ rfl rfl
    · refine .trans ?_ (traceAfter_quiet ..)
      refine .setDie ?_ die rfl rfl
      generalize hm : List.foldl _ s _ = m
      have hs : Quiet s m := by
        rw [← hm]
        exact foldl_quiet (fun s (v : Nat × View) => passView_quiet s asid v.2) _ s
      generalize hw : writeHome m _ = w
      have hq : Quiet m w := by
        rw [← hw]
        exact writeHome_quiet ..
      exact .trans (hs.trans hq) (.of_tables rfl rfl rfl)
  · exact .refl s

/-- R283: a launch that is not refused becomes a task of its die, with its record, start and host entry, and nothing else is launched; one that is
refused changes no task. -/
theorem acceptLaunch_cases (s : State) (die : Nat) (a : AskedLaunch) :
    (refusal s die a.asid a.record ≠ none ∧ Quiet s (acceptLaunch s die a)) ∨
    (refusal s die a.asid a.record = none ∧ ∃ (m n : State) (t : Task), Quiet s m ∧ Quiet n (acceptLaunch s die a) ∧
      n.seqs = m.seqs ∧ n.dies = m.dies ∧ n.tasks = tput m.tasks (taskKey a.asid (recordOf a.record).taskId) t ∧
      t.home = die ∧ t.info = recordOf a.record ∧ t.start = a.start ∧ t.host = a.host) := by
  unfold acceptLaunch
  dsimp only
  cases h : refusal s die a.asid a.record with
  | some c => exact .inl ⟨by simp, (postEvent_quiet ..).trans (hostDone_quiet ..)⟩
  | none =>
    refine .inr ⟨rfl, (captureLaunch (passMap s a.asid (recordOf a.record)) die a.asid (recordOf a.record)).1, ?_⟩
    have hm := (passMap_quiet s a.asid (recordOf a.record)).trans (captureLaunch_quiet _ die a.asid (recordOf a.record))
    dsimp only
    split
    · refine ⟨_, _, hm, .refl _, rfl, rfl, rfl, ?_⟩
      exact ⟨rfl, rfl, rfl, rfl⟩
    · refine ⟨_, _, hm, postEvent_quiet .., rfl, rfl, rfl, ?_⟩
      exact ⟨rfl, rfl, rfl, rfl⟩

/-- R283: a launch, refused or not, leaves the sequencers, GO and the launches that wait. -/
theorem acceptLaunch_leaves (s : State) (die : Nat) (a : AskedLaunch) : (acceptLaunch s die a).seqs = s.seqs ∧
    ∀ d, (dieAt (acceptLaunch s die a) d).go = (dieAt s d).go ∧ (dieAt (acceptLaunch s die a) d).asked = (dieAt s d).asked := by
  rcases acceptLaunch_cases s die a with ⟨-, h⟩ | ⟨-, m, n, t, hm, h, hs, hd, -⟩
  · exact ⟨h.seqs, h.dies⟩
  · refine ⟨by rw [h.seqs, hs, hm.seqs], fun d => ?_⟩
    have hn : dieAt n d = dieAt m d := by rw [dieAt, hd, dieAt]
    rw [(h.dies d).1, (h.dies d).2, hn]
    exact hm.dies d

/-- R283: the task of an accepted launch. -/
theorem acceptLaunch_task {s : State} {die : Nat} {a : AskedLaunch} (h : refusal s die a.asid a.record = none) :
    ∃ y, taskNo (acceptLaunch s die a) (taskKey a.asid (recordOf a.record).taskId) = some y ∧ y.home = die ∧ y.info = recordOf a.record ∧
      y.start = a.start ∧ y.host = a.host := by
  rcases acceptLaunch_cases s die a with ⟨hr, -⟩ | ⟨-, m, n, t, -, hq, -, -, ht, hy⟩
  · exact absurd h hr
  · exact ⟨t, by rw [taskNo, hq.tasks, ht, tfind_tput, if_pos rfl], hy⟩

theorem takeLaunches_leaves (s : State) (die : Nat) (l : List AskedLaunch) :
    (takeLaunches s die l).seqs = s.seqs ∧ (dieAt (takeLaunches s die l) die).go = (dieAt s die).go := by
  induction l generalizing s with
  | nil => exact ⟨rfl, rfl⟩
  | cons a l ih =>
    unfold takeLaunches
    split
    · exact ⟨rfl, by simp⟩
    · obtain ⟨hs, hd⟩ := acceptLaunch_leaves s die a
      exact ⟨(ih _).1.trans hs, (ih _).2.trans (hd die).1⟩

/-- With no launch that waits, none is taken. -/
theorem takeAsked_nil {s : State} {die : Nat} (h : (dieAt s die).asked = []) : takeAsked s die = s := by
  simp [takeAsked, h]

/-- R358: a die that accepts launches takes those that wait. -/
theorem takeAsked_accepting {s : State} {die : Nat} {a : AskedLaunch} {l : List AskedLaunch} (h : accepting s die = true)
    (ha : (dieAt s die).asked = a :: l) : takeAsked s die = takeLaunches (setDie s die { dieAt s die with asked := [] }) die (a :: l) := by
  simp [takeAsked, h, ha]

theorem takeAsked_leaves (s : State) (die : Nat) : (takeAsked s die).seqs = s.seqs ∧ (dieAt (takeAsked s die) die).go = (dieAt s die).go := by
  unfold takeAsked
  dsimp only
  split
  · obtain ⟨hs, hg⟩ := takeLaunches_leaves (setDie s die { dieAt s die with asked := [] }) die (dieAt s die).asked
    exact ⟨hs, by simpa using hg⟩
  · exact ⟨rfl, rfl⟩

/-- R360: BOOTSTAT_GO of a die whose boot has not failed. -/
def goState (s : State) (d : Nat) : State := setDie s d { dieAt s d with go := true }

theorem bootGo_ignored {s : State} {d v : Nat} (h : v % 2 = 0 ∨ (dieAt s d).boot = .failed) : bootGo s d v = s := if_pos h

theorem bootGo_runs {s : State} {d v : Nat} (hv : v % 2 = 1) (hb : (dieAt s d).boot ≠ .failed) : bootGo s d v = takeAsked (goState s d) d := by
  refine if_neg ?_
  rintro (h | h)
  · omega
  · exact hb h

/-- GO and the list of waiting launches are no part of what a launch reads. -/
theorem launchHeld_setDie (s : State) (d asid : Nat) (l : List Byte) {x : Die} (h : x.replay = (dieAt s d).replay) :
    launchHeld (setDie s d x) d asid l = launchHeld s d asid l := by
  unfold launchHeld
  simp only [dieAt_setDie_same, h]
  rfl

theorem refusal_setDie (s : State) (d asid : Nat) (l : List Byte) {x : Die} (h : x.boot = (dieAt s d).boot) :
    refusal (setDie s d x) d asid l = refusal s d asid l := by
  unfold refusal
  simp only [dieAt_setDie_same, h]
  rfl

/-- The state in which the launches that waited are taken. -/
def taking (s : State) (d : Nat) : State := setDie (goState s d) d { dieAt (goState s d) d with asked := [] }

theorem askedHeld_taking {s : State} {d : Nat} (hb : (dieAt s d).boot ≠ .failed) (a : AskedLaunch) :
    askedHeld (taking s d) d a = launchHeld s d a.asid a.record := by
  have hh : launchHeld (taking s d) d a.asid a.record = launchHeld s d a.asid a.record :=
    (launchHeld_setDie (goState s d) d _ _ (by rfl)).trans (launchHeld_setDie s d _ _ (by rfl))
  have hboot : (dieAt (taking s d) d).boot = (dieAt s d).boot := by simp [taking, goState]
  simp [askedHeld, hboot, hb, hh]

theorem refusal_taking (s : State) (d asid : Nat) (l : List Byte) : refusal (taking s d) d asid l = refusal s d asid l :=
  (refusal_setDie (goState s d) d _ _ (by rfl)).trans (refusal_setDie s d _ _ (by rfl))

section
variable {s : State} {d v : Nat} (hv : v % 2 = 1) (hb : (dieAt s d).boot ≠ .failed)
include hv hb

theorem bootGo_leaves : (dieAt (bootGo s d v) d).go = true ∧ (bootGo s d v).seqs = s.seqs := by
  obtain ⟨hs, hg⟩ := takeAsked_leaves (goState s d) d
  rw [bootGo_runs hv hb, hs, hg]
  exact ⟨by simp [goState], rfl⟩

theorem bootGo_nil (ha : (dieAt s d).asked = []) : bootGo s d v = goState s d := by
  rw [bootGo_runs hv hb, takeAsked_nil (by simp [goState, ha])]

theorem bootGo_cons {a : AskedLaunch} {l : List AskedLaunch} (ha : (dieAt s d).asked = a :: l) :
    bootGo s d v = takeLaunches (taking s d) d (a :: l) := by
  rw [bootGo_runs hv hb, takeAsked_accepting (a := a) (l := l) (by simp [accepting, goState]) (by simp [goState, ha])]
  rfl

/-- R275: a launch whose reads are held goes on waiting, with those behind it. -/
theorem bootGo_held {a : AskedLaunch} {l : List AskedLaunch} (ha : (dieAt s d).asked = a :: l)
    (hh : launchHeld s d a.asid a.record = true) :
    bootGo s d v = setDie (taking s d) d { dieAt (taking s d) d with asked := a :: l } := by
  rw [bootGo_cons hv hb ha, takeLaunches, askedHeld_taking hb, hh]
  rfl

/-- R283: a launch that is free to be read is accepted. -/
theorem bootGo_free {a : AskedLaunch} (ha : (dieAt s d).asked = [a]) (hh : launchHeld s d a.asid a.record = false) :
    bootGo s d v = acceptLaunch (taking s d) d a := by
  rw [bootGo_cons hv hb ha, takeLaunches, askedHeld_taking hb, hh]
  rfl

end

/-- R358, R360: GO and the launches that waited for it. -/
theorem bootstatGo_takes {s : State} (hv : s.bus.val % 2 = 1) (hb : (dieAt s s.bus.unit).boot ≠ .failed) :
    let d := s.bus.unit
    let x := dieAt s d
    ∃ u, exec .bootstatGo s = .next u ∧ (dieAt u d).go = true ∧ u.seqs = s.seqs ∧
      (x.asked = [] → u.tasks = s.tasks ∧ u.mem = s.mem ∧ ∀ j, j ≠ d → dieAt u j = dieAt s j) ∧
      (∀ a l, x.asked = a :: l → launchHeld s d a.asid a.record = true → (dieAt u d).asked = x.asked ∧ u.tasks = s.tasks ∧ u.mem = s.mem) ∧
      ∀ a, x.asked = [a] → launchHeld s d a.asid a.record = false → refusal s d a.asid a.record = none → (dieAt u d).asked = [] ∧
        ∃ y, taskNo u (taskKey a.asid (recordOf a.record).taskId) = some y ∧ y.home = d ∧ y.info = recordOf a.record ∧ y.start = a.start ∧ y.host = a.host := by
  intro d x
  obtain ⟨hg, hs⟩ := bootGo_leaves hv hb
  refine ⟨bootGo s d s.bus.val, rfl, hg, hs, fun ha => ?_, fun a l ha hh => ?_, fun a ha hh hr => ?_⟩
  · rw [bootGo_nil hv hb ha]
    exact ⟨rfl, rfl, fun j hj => dieAt_setDie_ne _ _ hj⟩
  · rw [bootGo_held hv hb ha hh, ha]
    exact ⟨congrArg Die.asked (dieAt_setDie_same ..), rfl, rfl⟩
  · rw [bootGo_free hv hb ha hh]
    refine ⟨?_, acceptLaunch_task ((refusal_taking s d _ _).trans hr)⟩
    rw [((acceptLaunch_leaves (taking s d) d a).2 d).2]
    simp [taking]

end Sys2Proof.Machine

/-! Power and bring-up (R358-R361, R363). -/

namespace Sys2Proof.Machine

theorem natOfBytes_lt (l : List Byte) : natOfBytes l < 256 ^ l.length := by
  induction l with
  | nil => decide
  | cons b l ih =>
    have hb : b.toNat < 256 := b.isLt
    have := Nat.mul_le_mul_left 256 (Nat.succ_le_of_lt ih)
    rw [natOfBytes, List.length_cons, Nat.pow_succ]
    omega

/-- R359: an image's code is shorter than 4 GiB. -/
theorem imageLength_lt (l : List Byte) : imageLength l < 2 ^ 32 :=
  calc natOfBytes ((l.drop 4).take 4) < 256 ^ ((l.drop 4).take 4).length := natOfBytes_lt _
    _ ≤ 256 ^ 4 := Nat.pow_le_pow_right (by decide) (List.length_take_le ..)

/-- R359, R360: an image passes when every check does. -/
theorem verdict_eq_zero_iff (f : Nat) (l : List Byte) : verdict f l = 0 ↔ 64 ≤ l.length ∧ natAt l 0 4 = 0x53545646 ∧
    64 + imageLength l + 3309 ≤ l.length ∧ shake256 64 (Config.publicKey l) = Config.fusedKey ∧
    Config.mldsaVerify (Config.publicKey l) (shake256 64 (l.take (64 + imageLength l))) ((l.drop (64 + imageLength l)).take 3309) = true ∧
    max Config.fusedSvn f ≤ (imageSvn l).toNat := by
  have failsUnless : ∀ {p : Prop} [Decidable p] {c n : Nat}, c ≠ 0 → ((if p then c else n) = 0 ↔ ¬ p ∧ n = 0) := by
    intro p _ c n hc
    split <;> simp_all
  simp only [verdict, failsUnless, ne_eq, reduceCtorEq, not_false_eq_true, Decidable.not_not, Nat.not_lt, and_true, imageMagic, imageSigned,
    imageSignature, Bool.not_eq_true', Bool.not_eq_false]

/-- What a filter by key keeps of a table. -/
theorem tget_filter {α : Type} (d : α) (t : Sparse α) (p : Nat → Bool) (k : Nat) :
    tget d (t.filter (fun c => p c.1)) k = if p k then tget d t k else d := by
  induction t with
  | nil => simp [tget]
  | cons c t ih =>
    obtain ⟨j, v⟩ := c
    by_cases hk : k = j
    · subst hk
      cases hp : p k <;> simp [hp, tget, ih]
    · cases hp : p j <;> simp [hp, tget, hk, ih]

/-- R358: the image that the dies boot from. -/
def bootImage (s : State) : List Byte := if Config.bootSource then s.hostImage else s.flash

/-- R358: a die after its verdict on an image, under fuses f: its steward runs from the image's entry, or its boot has failed with the code. -/
def BootedDie (f : Nat) (l : List Byte) (u : State) (d : Nat) : Prop :=
  (dieAt u d).code = verdict f l ∧
    (verdict f l = 0 → (dieAt u d).boot = .started ∧ (dieAt u d).svn = imageSvn l ∧ (seqAt u (2048 + 2 * d)).status = .running ∧
      (seqAt u (2048 + 2 * d)).pc = imageEntry l) ∧
    (verdict f l ≠ 0 → (dieAt u d).boot = .failed ∧ (dieAt u d).fail = true ∧ seqAt u (2048 + 2 * d) = Seq.reset)

/-- R359: a location outside the code that a die's steward has been given, if any. -/
def OutsideCode (f : Nat) (l : List Byte) (d a : Nat) : Prop := verdict f l = 0 → a < location d 0 ∨ location d 0 + imageLength l ≤ a

/-- From s to u the dies numbered in ds have been brought up, from the image and under the fuses of s, and nothing else has changed. -/
structure BroughtUp (s u : State) (ds : Nat → Prop) : Prop where
  ops : u.ops = s.ops
  tasks : u.tasks = s.tasks
  powered : u.powered = s.powered
  fuse : u.fuse = s.fuse
  flash : u.flash = s.flash
  hostImage : u.hostImage = s.hostImage
  others : ∀ d, ¬ ds d → dieAt u d = dieAt s d
  booted : ∀ d, ds d → BootedDie s.fuse (bootImage s) u d
  seqs : ∀ q, (∀ d, ds d → q ≠ 2048 + 2 * d) → seqAt u q = seqAt s q
  mem : ∀ a, (∀ d, ds d → OutsideCode s.fuse (bootImage s) d a) → memByte u.mem a = memByte s.mem a

theorem bootDie_passes {s : State} {d : Nat} (h : verdict s.fuse (bootImage s) = 0) :
    bootDie s d = startSteward (setDie s d { dieAt s d with
      boot := .started, svn := imageSvn (bootImage s), digest := shake256 64 (imageSigned (bootImage s)) }) d (bootImage s) := by
  unfold bootImage at h ⊢
  simp [bootDie, h]

theorem bootDie_fails {s : State} {d : Nat} (ha : (dieAt s d).asked = []) (h : verdict s.fuse (bootImage s) ≠ 0) :
    bootDie s d = setDie s d { dieAt s d with boot := .failed, fail := true, code := verdict s.fuse (bootImage s) } := by
  unfold bootImage at h ⊢
  simp only [bootDie, h, if_false]
  exact takeAsked_nil (by simp [ha])

/-- R359: the code stands in the first bytes of the die's HBM. -/
theorem memByte_startSteward {s : State} {d a : Nat} {l : List Byte} (h : a < location d 0 ∨ location d 0 + imageLength l ≤ a) :
    memByte (startSteward s d l).mem a = memByte s.mem a := by
  have hlen : ((l.drop 64).take (imageLength l)).length ≤ imageLength l := List.length_take_le ..
  have : (startSteward s d l).mem = memPutBytes s.mem (location d 0) ((l.drop 64).take (imageLength l)) := rfl
  rw [this, memByte_memPutBytes, if_neg (by omega)]

theorem startSteward_seqs (s : State) (d : Nat) (l : List Byte) : (startSteward s d l).seqs = tput s.seqs (2048 + 2 * d) (stewardStart d l) := by
  rw [show 2048 + 2 * d = 2 * (1024 + d) by omega]
  rfl

/-- R358: one die is brought up. -/
theorem bootDie_up {s : State} {d : Nat} (ha : (dieAt s d).asked = []) (hc : (dieAt s d).code = 0) (hq : seqAt s (2048 + 2 * d) = Seq.reset) :
    BroughtUp s (bootDie s d) (· = d) := by
  by_cases h : verdict s.fuse (bootImage s) = 0
  · have hd : ∀ j, dieAt (bootDie s d) j = if j = d then { dieAt s d with
        boot := .started, svn := imageSvn (bootImage s), digest := shake256 64 (imageSigned (bootImage s)) } else dieAt s j := by
      intro j
      rw [bootDie_passes h]
      exact tget_tput ..
    have hs : ∀ q, seqAt (bootDie s d) q = if q = 2048 + 2 * d then stewardStart d (bootImage s) else seqAt s q := by
      intro q
      rw [bootDie_passes h, seqAt, startSteward_seqs]
      exact tget_tput ..
    refine { ops := ?_, tasks := ?_, powered := ?_, fuse := ?_, flash := ?_, hostImage := ?_, others := fun j hj => by rw [hd, if_neg hj],
             booted := ?booted, seqs := fun q hne => by rw [hs, if_neg (hne d rfl)], mem := fun a hout => ?mem }
    case booted =>
      rintro _ rfl
      refine ⟨?_, fun _ => ?_, fun hf => absurd h hf⟩
      · rw [hd, if_pos rfl, h]; exact hc
      · rw [hd, if_pos rfl, hs, if_pos rfl]; exact ⟨rfl, rfl, rfl, rfl⟩
    case mem =>
      rw [bootDie_passes h]
      exact memByte_startSteward (hout d rfl h)
    all_goals rw [bootDie_passes h]; rfl
  · rw [bootDie_fails ha h]
    refine ⟨rfl, rfl, rfl, rfl, rfl, rfl, fun j hj => dieAt_setDie_ne _ _ hj, ?_, fun _ _ => rfl, fun _ _ => rfl⟩
    rintro _ rfl
    exact ⟨by simp, fun hp => absurd hp h, fun _ => ⟨by simp, by simp, hq⟩⟩

/-- A package being brought up from s: nothing in flight, no task, no sequencer written, no launch waiting and no code of a boot; the flash, the
fuses and what the host holds are those of s, and of memory what lies from unit k on. -/
structure Blank (s : State) (k : Nat) (u : State) : Prop where
  ops : u.ops = []
  tasks : u.tasks = []
  powered : u.powered = true
  seqs : u.seqs = []
  fuse : u.fuse = s.fuse
  flash : u.flash = s.flash
  hostImage : u.hostImage = s.hostImage
  dies : ∀ d, (dieAt u d).asked = [] ∧ (dieAt u d).code = 0
  mem : u.mem = (resetState s k).mem

theorem resetState_blank (s : State) (k : Nat) : Blank s k (resetState s k) := ⟨rfl, rfl, rfl, rfl, rfl, rfl, rfl, fun _ => ⟨rfl, rfl⟩, rfl⟩

/-- R340: what a die's trace unit owes is no part of its bring-up. -/
theorem keepResync_blank {s u : State} {k : Nat} (h : Blank s k u) (old : State) (d : Nat) : Blank s k (keepResync old u d) := by
  refine ⟨h.ops, h.tasks, h.powered, h.seqs, h.fuse, h.flash, h.hostImage, fun j => ?_, h.mem⟩
  by_cases hj : j = d
  · subst hj
    simpa [keepResync] using h.dies j
  · rw [keepResync, dieAt_setDie_ne _ _ hj]
    exact h.dies j

/-- What a reset leaves of memory: the bytes from unit k on. -/
theorem memByte_resetState (s : State) (k a : Nat) :
    memByte (resetState s k).mem a = if location k 0 ≤ a ∧ a < location 48 0 then memByte s.mem a else 0 := by
  have : (resetState s k).mem = s.mem.filter (fun c => decide (location k 0 ≤ c.1) && decide (c.1 < location 48 0)) := rfl
  rw [this, memByte, tget_filter (p := fun a => decide (location k 0 ≤ a) && decide (a < location 48 0))]
  simp [memByte]

/-- R358: the dies numbered below n brought up in turn. -/
theorem bootDies_up {s : State} (hd : ∀ d, (dieAt s d).asked = [] ∧ (dieAt s d).code = 0) (hq : s.seqs = []) (n : Nat) :
    BroughtUp s ((List.range n).foldl bootDie s) (· < n) := by
  induction n with
  | zero =>
    exact ⟨rfl, rfl, rfl, rfl, rfl, rfl, fun _ _ => rfl, fun _ h => absurd h (Nat.not_lt_zero _), fun _ _ => rfl, fun _ _ => rfl⟩
  | succ n ih =>
    rw [List.range_succ, List.foldl_append]
    generalize (List.range n).foldl bootDie s = u at ih ⊢
    show BroughtUp s (bootDie u n) (· < n + 1)
    have hdn : dieAt u n = dieAt s n := ih.others n (Nat.lt_irrefl n)
    have hqn : seqAt u (2048 + 2 * n) = Seq.reset := by
      rw [ih.seqs _ (fun d h => by omega), seqAt, hq]
      rfl
    have hi : bootImage u = bootImage s := by rw [bootImage, ih.flash, ih.hostImage, bootImage]
    have up := bootDie_up (s := u) (d := n) (by rw [hdn]; exact (hd n).1) (by rw [hdn]; exact (hd n).2) hqn
    refine ⟨up.ops.trans ih.ops, up.tasks.trans ih.tasks, up.powered.trans ih.powered, up.fuse.trans ih.fuse, up.flash.trans ih.flash,
      up.hostImage.trans ih.hostImage, fun d h => ?_, fun d h => ?_, fun q h => ?_, fun a h => ?_⟩
    · rw [up.others d (by omega), ih.others d (by omega)]
    · rcases Nat.lt_succ_iff_lt_or_eq.mp h with hlt | rfl
      · have hb := ih.booted d hlt
        rw [BootedDie, ← up.others d (by omega), ← up.seqs (2048 + 2 * d) (fun j hj => by omega)] at hb
        exact hb
      · have hb := up.booted d rfl
        rw [ih.fuse, hi] at hb
        exact hb
    · rw [up.seqs q (fun d hd => h d (by omega)), ih.seqs q (fun d hd => h d (by omega))]
    · rw [up.mem a (fun d hd => by rw [ih.fuse, hi]; exact h d (by omega)), ih.mem a (fun d hd => h d (by omega))]

/-- R358: the package after a bring-up from s that keeps memory from unit k on. -/
structure Booted (s : State) (k : Nat) (u : State) : Prop where
  ops : u.ops = []
  tasks : u.tasks = []
  powered : u.powered = true
  fuse : u.fuse = s.fuse
  flash : u.flash = s.flash
  strands : ∀ q, q < 2048 → seqAt u q = Seq.reset
  dies : ∀ d, d < 16 → BootedDie s.fuse (bootImage s) u d
  scrubbed : ∀ a, a < location k 0 → (∀ d < 16, OutsideCode s.fuse (bootImage s) d a) → memByte u.mem a = 0
  keeps : ∀ a, location k 0 ≤ a → a < location 48 0 → memByte u.mem a = memByte s.mem a

/-- The code of a die's steward lies in the HBM of its die. -/
theorem code_below {d k n : Nat} (hd : d < 16) (hk : 16 ≤ k) (hn : n < 2 ^ 32) : location d 0 + n ≤ location k 0 := by
  unfold location
  omega

theorem booted_of_blank {s b : State} {k : Nat} (h : Blank s k b) (hk : 16 ≤ k) : Booted s k ((List.range 16).foldl bootDie b) := by
  have up := bootDies_up h.dies h.seqs 16
  have hi : bootImage b = bootImage s := by rw [bootImage, h.flash, h.hostImage, bootImage]
  generalize (List.range 16).foldl bootDie b = u at up ⊢
  have hmem : ∀ a, (∀ d < 16, OutsideCode s.fuse (bootImage s) d a) → memByte u.mem a =
      if location k 0 ≤ a ∧ a < location 48 0 then memByte s.mem a else 0 := by
    intro a ha
    rw [up.mem a (by rw [h.fuse, hi]; exact ha), h.mem, memByte_resetState]
  refine ⟨up.ops.trans h.ops, up.tasks.trans h.tasks, up.powered.trans h.powered, up.fuse.trans h.fuse, up.flash.trans h.flash, fun q hq => ?_,
    fun d hd => ?_, fun a ha ho => ?_, fun a hl hu => ?_⟩
  · rw [up.seqs q (fun d _ => by omega), seqAt, h.seqs]
    rfl
  · have hb := up.booted d hd
    rw [h.fuse, hi] at hb
    exact hb
  · rw [hmem a ho, if_neg (by omega)]
  · rw [hmem a fun d hd _ => .inr ?_, if_pos ⟨hl, hu⟩]
    exact Nat.le_trans (code_below hd hk (imageLength_lt _)) hl

theorem powerUp_booted {s : State} (h : s.powered = false) : Booted s 38 (powerUp s) := by
  rw [powerUp, if_neg (by simp [h])]
  exact booted_of_blank (resetState_blank s 38) (by decide)

theorem packageReset_booted {s : State} (h : s.powered = true) : Booted s 32 (packageReset s) := by
  rw [packageReset, if_pos h]
  refine booted_of_blank ?_ (by decide)
  exact List.foldlRecOn (motive := Blank s 32) _ _ (resetState_blank s 32) fun u hu d _ => keepResync_blank hu s d

/-- R363: a package that is off. -/
theorem powerOff_leaves (s : State) : (powerOff s).powered = false ∧ (∀ a, a < location 38 0 → memByte (powerOff s).mem a = 0) ∧
    (∀ a, location 38 0 ≤ a → a < location 48 0 → memByte (powerOff s).mem a = memByte s.mem a) ∧ (powerOff s).seqs = [] ∧
    (powerOff s).fuse = s.fuse ∧ (powerOff s).flash = s.flash := by
  have hm : (powerOff s).mem = (resetState s 38).mem := rfl
  refine ⟨rfl, fun a ha => ?_, fun a hl hu => ?_, rfl, rfl, rfl⟩
  · rw [hm, memByte_resetState, if_neg (by omega)]
  · rw [hm, memByte_resetState, if_pos ⟨hl, hu⟩]

/-- R358, R361, R363: power-up, reset and power-off. -/
theorem power_and_reset (s : State) :
    let boots := fun (u : State) => u.ops = [] ∧ u.tasks = [] ∧ u.powered = true ∧ u.fuse = s.fuse ∧ u.flash = s.flash ∧
      (∀ q, q < 2048 → seqAt u q = Seq.reset) ∧ ∀ d < 16, BootedDie s.fuse (bootImage s) u d
    let scrubbed := fun (u : State) (k : Nat) =>
      ∀ a, a < location k 0 → (∀ d < 16, OutsideCode s.fuse (bootImage s) d a) → memByte u.mem a = 0
    let keeps := fun (u : State) (k : Nat) => Memory.wf s.mem → ∀ a, location k 0 ≤ a → a < location 48 0 → memByte u.mem a = memByte s.mem a
    (s.powered = false → (∃ u, exec .powerUp s = .next u ∧ boots u ∧ scrubbed u 38 ∧ keeps u 38) ∧ exec .packageReset s = .next s) ∧
    (s.powered = true → (∃ u, exec .packageReset s = .next u ∧ boots u ∧ scrubbed u 32 ∧ keeps u 32) ∧ exec .powerUp s = .next s) ∧
    ∃ u, exec .powerOff s = .next u ∧ u.powered = false ∧ (∀ a, a < location 38 0 → memByte u.mem a = 0) ∧ keeps u 38 ∧ u.seqs = [] ∧
      u.fuse = s.fuse ∧ u.flash = s.flash := by
  intro boots scrubbed keeps
  have all : ∀ {u k}, Booted s k u → boots u ∧ scrubbed u k ∧ keeps u k := fun h =>
    ⟨⟨h.ops, h.tasks, h.powered, h.fuse, h.flash, h.strands, h.dies⟩, h.scrubbed, fun _ => h.keeps⟩
  refine ⟨fun h => ⟨⟨_, rfl, all (powerUp_booted h)⟩, ?_⟩, fun h => ⟨⟨_, rfl, all (packageReset_booted h)⟩, ?_⟩, powerOff s, rfl, ?_⟩
  · exact congrArg Host.Outcome.next (if_neg (by simp [h]))
  · exact congrArg Host.Outcome.next (if_pos h)
  · obtain ⟨hp, hz, hk, hs, hf, hl⟩ := powerOff_leaves s
    exact ⟨hp, hz, fun _ => hk, hs, hf, hl⟩

end Sys2Proof.Machine

/-! Attestation (R362). -/

namespace Sys2Proof.Machine

@[simp] theorem leBytes_length (n x : Nat) : (leBytes n x).length = n := by
  induction n generalizing x with
  | zero => rfl
  | succ n ih => rw [leBytes, List.length_cons, ih]

theorem leBytes_getD {n j : Nat} (x : Nat) (h : j < n) : (leBytes n x).getD j 0 = BitVec.ofNat 8 (x / 256 ^ j) := by
  induction n generalizing x j with
  | zero => omega
  | succ n ih =>
    cases j with
    | zero => simp [leBytes]
    | succ j => rw [leBytes, List.getD_cons_succ, ih _ (by omega), Nat.div_div_eq_div_mul, Nat.pow_succ, Nat.mul_comm]

theorem padTo_length {n : Nat} {l : List Byte} (h : l.length ≤ n) : (padTo n l).length = n := by
  rw [padTo, List.length_append, List.length_replicate]
  omega

@[simp] theorem exactly_length (n : Nat) (l : List Byte) : (exactly n l).length = n := padTo_length (List.length_take_le ..)

theorem reportBody_length (s : State) : (reportBody s).length = 1144 := by
  simp only [reportBody, List.length_append, List.length_flatMap, leBytes_length, exactly_length]
  rfl

theorem report_length (s : State) : (report s).length = 8192 :=
  padTo_length (by simp [reportBody_length])

/-- R362: the report starts with the serial number. -/
theorem report_serial {s : State} {j : Nat} (h : j < 16) : (report s).getD j 0 = BitVec.ofNat 8 (Config.serialNumber.toNat / 256 ^ j) := by
  have hj : ∀ r : List Byte, (leBytes 16 Config.serialNumber.toNat ++ r).getD j 0 = (leBytes 16 Config.serialNumber.toNat).getD j 0 :=
    fun r => by rw [List.getD_eq_getElem?_getD, List.getElem?_append_left (by rw [leBytes_length]; exact h), ← List.getD_eq_getElem?_getD]
  simp only [report, padTo, reportBody, List.append_assoc, hj, leBytes_getD _ h]

/-- R362: the destination of the report, as an area of memory. -/
def inReport (s : State) (a : Nat) : Prop := s.attest.dest.toNat ≤ a ∧ a < s.attest.dest.toNat + 8192

theorem location_hbm (n : Nat) : location 0 n = n := by simp [location]

theorem attestDone_waits {s : State} {a : Nat} (ha : inReport s a) (hh : channelHeld s a = true) : attestDone s = s := by
  have : homeHeld s (location 0 s.attest.dest.toNat) 8192 = true := (homeHeld_iff ..).mpr ⟨a, by rwa [location_hbm], hh⟩
  simp [attestDone, this]

theorem attestDone_idle {s : State} (h : s.attest.busy = false) : attestDone s = s := by simp [attestDone, h]

theorem attestDone_writes {s : State} (hb : s.attest.busy = true) (hf : ∀ a, inReport s a → channelHeld s a = false) :
    attestDone s = { writeHome s (cellsAt s.attest.dest.toNat (report s)) with attest := { s.attest with busy := false } } := by
  have : homeHeld s s.attest.dest.toNat 8192 = false := by
    refine Bool.eq_false_iff.mpr fun hh => ?_
    obtain ⟨a, ha, hc⟩ := (homeHeld_iff ..).mp hh
    rw [hf a ha] at hc
    cases hc
  simp [attestDone, hb, location_hbm, this]

/-- R362: with no strand holding a pseudo-channel of its area, the report stands there and nothing else is written. -/
theorem attestDone_mem {s : State} (hb : s.attest.busy = true) (hf : ∀ a, inReport s a → channelHeld s a = false) :
    (attestDone s).mem = memPutBytes s.mem s.attest.dest.toNat (report s) := by
  rw [attestDone_writes hb hf]
  show (writeHome s _).mem = _
  rw [writeHome_mem, freeCells_all, memPutCells_cellsAt]
  intro c hc
  have := cellsAt_bounds hc
  rw [report_length] at this
  exact hf _ this

theorem attestGo_outside {s : State} (hb : s.attest.busy = false) (h : hbmBytes < s.attest.dest.toNat + 8192) :
    attestGo s = { s with attest := { s.attest with err := true } } := by simp [attestGo, hb, h]

theorem attestGo_inside {s : State} (hb : s.attest.busy = false) (h : s.attest.dest.toNat + 8192 ≤ hbmBytes) :
    attestGo s = { s with attest := { s.attest with err := false, busy := true } } := by simp [attestGo, hb, Nat.not_lt.mpr h]

/-- R362: GO and the completion of an attestation. -/
theorem attestation (s : State) :
    (s.attest.busy = true → exec .attctlGo s = .next s) ∧
    (s.attest.busy = false → s.attest.dest.toNat + 8192 ≤ 64 * 10 ^ 9 →
      exec .attctlGo s = .next { s with attest := { s.attest with err := false, busy := true } }) ∧
    (s.attest.busy = false → 64 * 10 ^ 9 < s.attest.dest.toNat + 8192 → exec .attctlGo s = .next { s with attest := { s.attest with err := true } }) ∧
    (s.attest.busy = false → exec .attestationComplete s = .next s) ∧
    ((∃ a, inReport s a ∧ channelHeld s a = true) → exec .attestationComplete s = .next s) ∧
    (s.attest.busy = true → (∀ a, inReport s a → channelHeld s a = false) → ∃ u, exec .attestationComplete s = .next u ∧
      u.attest = { s.attest with busy := false } ∧ u.seqs = s.seqs ∧ (∀ a, ¬ inReport s a → memByte u.mem a = memByte s.mem a) ∧
      ∀ j < 16, memByte u.mem (s.attest.dest.toNat + j) = BitVec.ofNat 8 (Config.serialNumber.toNat / 256 ^ j)) := by
  refine ⟨fun hb => congrArg _ (if_pos hb), fun hb h => congrArg _ (attestGo_inside hb h), fun hb h => congrArg _ (attestGo_outside hb h),
    fun hb => congrArg _ (attestDone_idle hb), fun ⟨a, ha, hh⟩ => congrArg _ (attestDone_waits ha hh), fun hb hf => ⟨_, rfl, ?_, ?_, ?_, ?_⟩⟩
  · rw [attestDone_writes hb hf]
  · rw [attestDone_writes hb hf]
    exact writeHome_seqs ..
  · intro a ha
    rw [attestDone_mem hb hf, memByte_memPutBytes, report_length]
    exact if_neg ha
  · intro j hj
    rw [attestDone_mem hb hf, memByte_memPutBytes, report_length, if_pos ⟨by omega, by omega⟩, Nat.add_sub_cancel_left, report_serial hj]

/-! Captures (R343). -/

theorem captureBlock_length (c : Capture) (stop : Sums) (now : BitVec 64) : (captureBlock c stop now).length = 256 :=
  padTo_length (by
    simp only [List.length_append, List.length_flatMap, leBytes_length]
    decide)

/-- R343: the capture of a die asked for a task's identifier, with the key of the task that has it. -/
def askedCapture (s : State) (d : Nat) (w : Word) : Capture :=
  { (dieAt s d).capture with task := some w, key := (findTask s w).map Prod.fst }

/-- R343: the capture that CAPSTART opens. -/
def openedCapture (s : State) (d : Nat) (w : Word) : Capture :=
  { askedCapture s d w with start := captureSums s d (askedCapture s d w) w, ended := Sums.zero, preempt := 0, begun := gtAt s d }

theorem startCapture_ignored {s : State} {d id : Nat} (h : (dieAt s d).capture.task.isSome = true) : startCapture s d id = s := if_pos h

/-- R343: CAPSTART with the trace unit disabled: the capture alone. -/
theorem startCapture_opens {s : State} {d id : Nat} (h : (dieAt s d).capture.task = none) (he : (dieAt s d).trace.en = false) :
    startCapture s d id = setDie s d { dieAt s d with capture := openedCapture s d (BitVec.ofNat 32 id) } := by
  simp [startCapture, h, traceRecord_disabled he, openedCapture, askedCapture]

/-- R343: the sums of a capture with a key are those of the key's task, if there is one. -/
theorem captureSums_key {s : State} {d k : Nat} {c : Capture} {l : Sums} (h : c.key = some k) (hn : taskNo s k = none → l = Sums.zero)
    (hs : ∀ y, taskNo s k = some y → l = taskSums s d y) (id : Word) : captureSums s d c id = l := by
  unfold captureSums
  simp only [h]
  cases ht : taskNo s k with
  | none => exact (hn ht).symm
  | some y => exact (hs y ht).symm

/-- Log 142: with no key, they are those of the task that has the identifier now. -/
theorem captureSums_none {s : State} {d : Nat} {c : Capture} {id : Word} (h : c.key = none) (hf : findTask s id = none) :
    captureSums s d c id = Sums.zero := by
  simp [captureSums, h, hf]

theorem stopCapture_ignored {s : State} {d id : Nat} (h : (dieAt s d).capture.task ≠ some (BitVec.ofNat 32 id)) : stopCapture s d id = s := if_pos h

/-- R343: the state of a die whose capture is closed. -/
def closedCapture (s : State) (d : Nat) : State := setDie s d { dieAt s d with capture := { (dieAt s d).capture with task := none, key := none } }

/-- R343: the cells of a capture's block. -/
def captureCells (s : State) (d : Nat) (w : Word) : List Host.Cell :=
  let c := (dieAt s d).capture
  cellsAt (location d c.addr.toNat) (captureBlock c ((captureSums s d c w).add c.ended) (gtAt s d))

theorem stopCapture_closes {s : State} {d id : Nat} (h : (dieAt s d).capture.task = some (BitVec.ofNat 32 id)) :
    stopCapture s d id = traceAfter (writeHome (closedCapture s d) (captureCells s d (BitVec.ofNat 32 id))) d s.nextOp 0x11
      (BitVec.ofNat 64 ((BitVec.ofNat 32 id).toNat * 2 ^ 32 + (dieAt s d).capture.preempt % 2 ^ 32)) := by
  unfold stopCapture
  rw [if_neg fun hne => hne h]
  rfl

/-- A record of a trace unit that is disabled, for a write: the memory stands, and the die's capture. -/
theorem traceAfter_disabled {s : State} {d : Nat} (he : (dieAt s d).trace.en = false) (n kind : Nat) (load : BitVec 64) :
    (traceAfter s d n kind load).mem = s.mem ∧ (dieAt (traceAfter s d n kind load) d).capture = (dieAt s d).capture := by
  rcases traceAfter_cases s d n kind load with ⟨-, h⟩ | ⟨-, h⟩ <;> rw [h]
  · rw [traceRecord_disabled he]
    exact ⟨rfl, rfl⟩
  · exact ⟨rfl, by simp⟩

/-- R343: CAPSTART of the task that has the identifier, and of one that nothing has. -/
theorem capstart_opens {s : State} (hc : (dieAt s s.bus.unit).capture.task = none) (he : (dieAt s s.bus.unit).trace.en = false) :
    let d := s.bus.unit
    let w : Word := BitVec.ofNat 32 s.bus.val
    let opened := fun (k : Option Nat) (l : Sums) =>
      { (dieAt s d).capture with task := some w, key := k, start := l, ended := Sums.zero, preempt := 0, begun := gtAt s d }
    ∃ u, exec .capstart s = .next u ∧ u.mem = s.mem ∧
      (∀ k y, findTask s w = some (k, y) → taskNo s k = some y → (dieAt u d).capture = opened (some k) (taskSums s d y)) ∧
      (findTask s w = none → (dieAt u d).capture = opened none Sums.zero) := by
  intro d w opened
  have hu : (dieAt (startCapture s d s.bus.val) d).capture = openedCapture s d w := by rw [startCapture_opens hc he, dieAt_setDie_same]
  refine ⟨startCapture s d s.bus.val, rfl, by rw [startCapture_opens hc he]; rfl, fun k y hf hk => ?_, fun hf => ?_⟩
  · have hkey : (askedCapture s d w).key = some k := by simp [askedCapture, hf]
    have hsum := captureSums_key (d := d) (l := taskSums s d y) hkey (fun h => by rw [hk] at h; cases h)
      (fun z h => by rw [hk] at h; cases h; rfl) w
    rw [hu, openedCapture, hsum]
    simp [askedCapture, hf, opened]
  · have hkey : (askedCapture s d w).key = none := by simp [askedCapture, hf]
    rw [hu, openedCapture, captureSums_none hkey hf]
    simp [askedCapture, hf, opened]

/-- R343: CAPSTOP with the trace unit disabled: the capture is closed, and its block stands in memory. -/
theorem capstop_closes {s : State} (hc : (dieAt s s.bus.unit).capture.task = some (BitVec.ofNat 32 s.bus.val))
    (he : (dieAt s s.bus.unit).trace.en = false) :
    let d := s.bus.unit
    let c := (dieAt s d).capture
    ∃ u, exec .capstop s = .next u ∧ (dieAt u d).capture = { c with task := none, key := none } ∧
      ∀ k l, c.key = some k → (taskNo s k = none → l = Sums.zero) → (∀ y, taskNo s k = some y → l = taskSums s d y) →
        noChannelHeld s = true → u.mem = memPutBytes s.mem (location d c.addr.toNat) (captureBlock c (l.add c.ended) (gtAt s d)) := by
  intro d c
  have hen : (dieAt (writeHome (closedCapture s d) (captureCells s d (BitVec.ofNat 32 s.bus.val))) d).trace.en = false := by
    simpa [closedCapture] using he
  obtain ⟨hm, hcap⟩ := traceAfter_disabled hen s.nextOp 0x11
    (BitVec.ofNat 64 ((BitVec.ofNat 32 s.bus.val).toNat * 2 ^ 32 + (dieAt s d).capture.preempt % 2 ^ 32))
  rw [← stopCapture_closes hc] at hm hcap
  refine ⟨stopCapture s d s.bus.val, rfl, by rw [hcap]; simp [closedCapture, c], fun k l hk hn hs hf => ?_⟩
  rw [hm, captureCells, captureSums_key hk hn hs]
  exact writeHome_bytes (s := closedCapture s d) hf _ _

/-- R275, R343: CAPSTOP whose block waits for a held pseudo-channel keeps its record for the write's number. -/
theorem capstop_waits {s : State} {n : Nat} (hn : n < 256)
    (hm : location s.bus.unit (dieAt s s.bus.unit).capture.addr.toNat + n < location 48 0)
    (hh : channelHeld s (location s.bus.unit (dieAt s s.bus.unit).capture.addr.toNat + n) = true)
    (hc : (dieAt s s.bus.unit).capture.task = some (BitVec.ofNat 32 s.bus.val)) :
    let d := s.bus.unit
    let t := (dieAt s d).trace
    let w : Word := BitVec.ofNat 32 s.bus.val
    ∃ u e, exec .capstop s = .next u ∧ (dieAt u d).trace = { t with due := t.due ++ [e] } ∧ e.kind = 0x11 ∧
      e.load = BitVec.ofNat 64 (w.toNat * 2 ^ 32 + (dieAt s d).capture.preempt % 2 ^ 32) := by
  intro d t w
  obtain ⟨b, hb⟩ : ∃ b, (location d (dieAt s d).capture.addr.toNat + n, b) ∈ captureCells s d w :=
    cellsAt_has (by rw [captureBlock_length]; exact hn)
  obtain ⟨f, hf, hop, -⟩ := writeHome_waits (s := closedCapture s d) hb hh hm
  have hany : (writeHome (closedCapture s d) (captureCells s d w)).forwards.any (fun f => f.op == s.nextOp) = true :=
    List.any_eq_true.mpr ⟨f, hf, by simp [hop, closedCapture]⟩
  refine ⟨stopCapture s d s.bus.val,
    { op := s.nextOp, kind := 0x11, load := BitVec.ofNat 64 (w.toNat * 2 ^ 32 + (dieAt s d).capture.preempt % 2 ^ 32) }, rfl, ?_, rfl, rfl⟩
  rw [stopCapture_closes hc, traceAfter, if_pos hany]
  simp [closedCapture, t, w, d]

/-! TRCTL, RPCTL and register writes (R9, R296, R337, R344). -/

theorem writeTrctl_ignored {s : State} {d v : Nat} (h : v / 2 ^ 12 % 32 < 12 ∨ 30 < v / 2 ^ 12 % 32) : writeTrctl s d v = s := if_pos h

/-- R337: TRCTL with LOGSZ in its range. -/
theorem writeTrctl_takes {s : State} {d v : Nat} (hl : 12 ≤ v / 2 ^ 12 % 32) (hu : v / 2 ^ 12 % 32 ≤ 30) :
    let t := (dieAt s d).trace
    let u := writeTrctl s d v
    let y := (dieAt u d).trace
    y.en = v.testBit 0 ∧ y.sen = v.testBit 37 ∧ y.slog = v / 2 ^ 32 % 32 ∧ y.logsz = (if t.en then t.logsz else v / 2 ^ 12 % 32) ∧ u.mem = s.mem ∧
      y.rd = (if v.testBit 0 && !t.en then 0 else t.rd) ∧ y.wr = (if v.testBit 0 && !t.en then 0 else t.wr) := by
  intro t u y
  have h : ¬ (v / 2 ^ 12 % 32 < 12 ∨ 30 < v / 2 ^ 12 % 32) := by omega
  have hw : u = setDie s d { dieAt s d with trace := if v.testBit 0 && !t.en then
      { t with sen := v.testBit 37, slog := v / 2 ^ 32 % 32, logsz := if t.en then t.logsz else v / 2 ^ 12 % 32, en := v.testBit 0, rd := 0, wr := 0, fresh := true }
    else { t with sen := v.testBit 37, slog := v / 2 ^ 32 % 32, logsz := if t.en then t.logsz else v / 2 ^ 12 % 32, en := v.testBit 0 } } := if_neg h
  simp only [y, hw, dieAt_setDie_same]
  cases v.testBit 0 && !t.en <;> exact ⟨rfl, rfl, rfl, rfl, rfl, rfl, rfl⟩

/-- R9, R298: DRAINLIMIT, and the costs as they read. -/
theorem scheduler_registers (s : State) (d v : Nat) :
    writeRegister s d 0x00 v = setDie s d { dieAt s d with drainLimit := BitVec.ofNat 64 v } ∧
      readRegister (writeRegister s d 0x00 v) d 0x00 = v % 2 ^ 64 ∧
      readRegister s d 0x08 = (dieAt s d).killCost.toNat * 2 ^ 32 + (dieAt s d).ckptCost.toNat := by
  have hw : writeRegister s d 0x00 v = setDie s d { dieAt s d with drainLimit := BitVec.ofNat 64 v } := rfl
  have hr : ∀ u : State, readRegister u d 0x00 = (dieAt u d).drainLimit.toNat := fun _ => rfl
  exact ⟨hw, by rw [hr, hw, dieAt_setDie_same]; rfl, rfl⟩

end Sys2Proof.Machine

/-! The statement of 00_scope about power, boot, attestation, the trace unit and register writes. -/

namespace Sys2Proof.Machine

/-- Settles O60: power and reset, the verdict, the registers of a die with its attestation and captures, the scheduler's registers, LOST and
RESYNC, and a unit's write, each by its own lemma. -/
theorem powerTraceAndRegisterWrites : Obligations.PowerTraceAndRegisterWrites := by
  refine ⟨power_and_reset, verdict_eq_zero_iff, fun s => ?_, fun s d v _ => scheduler_registers s d v, lost_and_resync, fun s l => ?_⟩
  · obtain ⟨goBusy, goInside, goOutside, doneIdle, doneWaits, doneWrites⟩ := attestation s
    intro d v x t p c logsz mode
    refine ⟨fun hv => congrArg _ (bootGo_ignored (.inl hv)), fun hb => congrArg _ (bootGo_ignored (.inr hb)), bootstatGo_takes, rfl,
      goBusy, goInside, goOutside, doneIdle, doneWaits, doneWrites, fun h => congrArg _ (writeTrctl_ignored h),
      fun hl hu => ⟨_, rfl, writeTrctl_takes hl hu⟩, rfl, fun h => congrArg _ (startCapture_ignored h), capstart_opens,
      fun h => congrArg _ (stopCapture_ignored h), capstop_closes, fun n hn hm hh hc => capstop_waits hn hm hh hc, writeDue_nil,
      fun e he => ⟨writeDue_waits he, writeDue_writes he⟩, rfl⟩
  · exact ⟨fun a h => memByte_writeHome_other h, writeHome_seqs s l, writeHome_ops s l, fun a b => memByte_writeHome_last,
      fun c hc hh hm => (writeHome_waits hc hh hm).imp fun f ⟨hf, _, hd, hcell⟩ => ⟨hf, hd, hcell⟩⟩

end Sys2Proof.Machine

/-! The code of an instruction (01_encoding): the words of the slot instructions and their decoders, class by class. -/

namespace Sys2Proof

/-- The round trip of every slot instruction: the Codec family, collected. -/
theorem codec_slot {i : Instr} {cl : SlotClass} (h : slotOf i = some cl) : Laws.Codec.Statement i := by
  cases i
  all_goals simp only [slotOf, reduceCtorEq] at h
  case add => apply Laws.Codec.add
  case sub => apply Laws.Codec.sub
  case and => apply Laws.Codec.and
  case or => apply Laws.Codec.or
  case xor => apply Laws.Codec.xor
  case shl => apply Laws.Codec.shl
  case shr => apply Laws.Codec.shr
  case sra => apply Laws.Codec.sra
  case min => apply Laws.Codec.min
  case max => apply Laws.Codec.max
  case minu => apply Laws.Codec.minu
  case maxu => apply Laws.Codec.maxu
  case mov => apply Laws.Codec.mov
  case addsh => apply Laws.Codec.addsh
  case clz => apply Laws.Codec.clz
  case mul => apply Laws.Codec.mul
  case mulh => apply Laws.Codec.mulh
  case mulhu => apply Laws.Codec.mulhu
  case divu => apply Laws.Codec.divu
  case remu => apply Laws.Codec.remu
  case movi => apply Laws.Codec.movi
  case addi => apply Laws.Codec.addi
  case andi => apply Laws.Codec.andi
  case ori => apply Laws.Codec.ori
  case xori => apply Laws.Codec.xori
  case shli => apply Laws.Codec.shli
  case shri => apply Laws.Codec.shri
  case srai => apply Laws.Codec.srai
  case movh => apply Laws.Codec.movh
  case lidx => apply Laws.Codec.lidx
  case ctlrd => apply Laws.Codec.ctlrd
  case ctlwr => apply Laws.Codec.ctlwr
  case gtlo => apply Laws.Codec.gtlo
  case gthi => apply Laws.Codec.gthi
  case cmp => apply Laws.Codec.cmp
  case cmpi => apply Laws.Codec.cmpi
  case sld => apply Laws.Codec.sld
  case sst => apply Laws.Codec.sst
  case qmap => apply Laws.Codec.qmap
  case qunmap => apply Laws.Codec.qunmap
  case br => apply Laws.Codec.br
  case call => apply Laws.Codec.call
  case contain => apply Laws.Codec.contain
  case jr => apply Laws.Codec.jr
  case callr => apply Laws.Codec.callr
  case loop => apply Laws.Codec.loop
  case loopi => apply Laws.Codec.loopi
  case lbrk => apply Laws.Codec.lbrk
  case lstg => apply Laws.Codec.lstg
  case pand => apply Laws.Codec.pand
  case por => apply Laws.Codec.por
  case pxor => apply Laws.Codec.pxor
  case bktj => apply Laws.Codec.bktj
  case waitgt => apply Laws.Codec.waitgt
  case setest => apply Laws.Codec.setest
  case setts => apply Laws.Codec.setts
  case setrm => apply Laws.Codec.setrm
  case launch => apply Laws.Codec.launch
  case bar => apply Laws.Codec.bar
  case bararv => apply Laws.Codec.bararv
  case barwt => apply Laws.Codec.barwt
  case fence => apply Laws.Codec.fence
  case trap => apply Laws.Codec.trap
  case eret => apply Laws.Codec.eret
  case exit => apply Laws.Codec.exit
  case containend => apply Laws.Codec.containend
  case vadd => apply Laws.Codec.vadd
  case vsub => apply Laws.Codec.vsub
  case vmul => apply Laws.Codec.vmul
  case vfma => apply Laws.Codec.vfma
  case vmin => apply Laws.Codec.vmin
  case vmax => apply Laws.Codec.vmax
  case vabs => apply Laws.Codec.vabs
  case vneg => apply Laws.Codec.vneg
  case vmov => apply Laws.Codec.vmov
  case vand => apply Laws.Codec.vand
  case vor => apply Laws.Codec.vor
  case vxor => apply Laws.Codec.vxor
  case vshl => apply Laws.Codec.vshl
  case vshr => apply Laws.Codec.vshr
  case vsra => apply Laws.Codec.vsra
  case vcmpeq => apply Laws.Codec.vcmpeq
  case vcmplt => apply Laws.Codec.vcmplt
  case vcmple => apply Laws.Codec.vcmple
  case vsel => apply Laws.Codec.vsel
  case vcvt => apply Laws.Codec.vcvt
  case vscl => apply Laws.Codec.vscl
  case vclmp => apply Laws.Codec.vclmp
  case vexp2 => apply Laws.Codec.vexp2
  case vrcp => apply Laws.Codec.vrcp
  case vrsq => apply Laws.Codec.vrsq
  case vrsum => apply Laws.Codec.vrsum
  case vrmax => apply Laws.Codec.vrmax
  case vrmin => apply Laws.Codec.vrmin
  case vbcs => apply Laws.Codec.vbcs
  case vext => apply Laws.Codec.vext
  case vins => apply Laws.Codec.vins
  case vperm => apply Laws.Codec.vperm
  case vlsh => apply Laws.Codec.vlsh
  case vpack => apply Laws.Codec.vpack
  case vunpk => apply Laws.Codec.vunpk
  case vadds => apply Laws.Codec.vadds
  case vmuls => apply Laws.Codec.vmuls
  case vfmas => apply Laws.Codec.vfmas
  case tld => apply Laws.Codec.tld
  case tst => apply Laws.Codec.tst
  case tgath => apply Laws.Codec.tgath
  case tscat => apply Laws.Codec.tscat
  case pref => apply Laws.Codec.pref
  case tspld => apply Laws.Codec.tspld
  case tspst => apply Laws.Codec.tspst
  case ared => apply Laws.Codec.ared
  case tzero => apply Laws.Codec.tzero
  case tmovt => apply Laws.Codec.tmovt
  case tcopy => apply Laws.Codec.tcopy
  case vopen => apply Laws.Codec.vopen
  case vretire => apply Laws.Codec.vretire
  case hfree => apply Laws.Codec.hfree
  case waitm => apply Laws.Codec.waitm
  case aadd => apply Laws.Codec.aadd
  case amin => apply Laws.Codec.amin
  case amax => apply Laws.Codec.amax
  case aminu => apply Laws.Codec.aminu
  case amaxu => apply Laws.Codec.amaxu
  case aand => apply Laws.Codec.aand
  case aor => apply Laws.Codec.aor
  case axor => apply Laws.Codec.axor
  case axchg => apply Laws.Codec.axchg
  case acas => apply Laws.Codec.acas
  case aincb => apply Laws.Codec.aincb
  case afadd => apply Laws.Codec.afadd
  case afaddh => apply Laws.Codec.afaddh
  case ald => apply Laws.Codec.ald
  case ast => apply Laws.Codec.ast
  case send => apply Laws.Codec.send
  case mm => apply Laws.Codec.mm
  case mmcmp => apply Laws.Codec.mmcmp
  case mstatTile => apply Laws.Codec.mstatTile
  case mstatHandle => apply Laws.Codec.mstatHandle
  case mswap => apply Laws.Codec.mswap
  case lease => apply Laws.Codec.lease
  case lrel => apply Laws.Codec.lrel
  case acczeroFp => apply Laws.Codec.acczeroFp
  case acczeroInt => apply Laws.Codec.acczeroInt
  case accld => apply Laws.Codec.accld
  case accnorm => apply Laws.Codec.accnorm
  case accchk => apply Laws.Codec.accchk
  case accdrain => apply Laws.Codec.accdrain
  case fold => apply Laws.Codec.fold
  case tadd => apply Laws.Codec.tadd
  case tsub => apply Laws.Codec.tsub
  case tmul => apply Laws.Codec.tmul
  case tmax => apply Laws.Codec.tmax
  case tred => apply Laws.Codec.tred
  case tmv => apply Laws.Codec.tmv
  case tmm => apply Laws.Codec.tmm
  case pabm => apply Laws.Codec.pabm
  case pbcast => apply Laws.Codec.pbcast
  case pmac => apply Laws.Codec.pmac
  case pread => apply Laws.Codec.pread
  case pexit => apply Laws.Codec.pexit
  case shpset => apply Laws.Codec.shpset
  case shpcpy => apply Laws.Codec.shpcpy
  case qld => apply Laws.Codec.qld
  case qset => apply Laws.Codec.qset
  case qzero => apply Laws.Codec.qzero
  case vfset => apply Laws.Codec.vfset
  case vfseti => apply Laws.Codec.vfseti
  case bndset => apply Laws.Codec.bndset
  case bndoff => apply Laws.Codec.bndoff
  case vrow => apply Laws.Codec.vrow
  case ximm => apply Laws.Codec.ximm

/-! The opcode map of a class lists instructions of that class alone (R16, R32-R37). -/

theorem opcodeS_slot {l : Bool} {w op : Nat} {i : Instr} (h : opcodeS l w op = some i) : slotOf i = some (.s l) := by
  unfold opcodeS at h
  split at h <;> cases h <;> rfl

theorem opcodeC_slot {w op : Nat} {i : Instr} (h : opcodeC w op = some i) : slotOf i = some .c := by
  unfold opcodeC at h
  split at h <;> cases h <;> rfl

theorem opcodeV_slot {l : Bool} {w op : Nat} {i : Instr} (h : opcodeV l w op = some i) : slotOf i = some (.v l) := by
  unfold opcodeV at h
  split at h <;> cases h <;> rfl

theorem opcodeM_slot {w op : Nat} {i : Instr} (h : opcodeM w op = some i) : slotOf i = some .m := by
  unfold opcodeM at h
  split at h <;> cases h <;> rfl

/-- MSTAT and ACCZERO have two forms each, which a bit of the word tells apart. -/
theorem opcodeE_slot {w op : Nat} {i : Instr} (h : opcodeE w op = some i) : slotOf i = some .e := by
  unfold opcodeE at h
  split at h
  case h_3 | h_7 => cases h; split <;> rfl
  all_goals cases h <;> rfl

theorem opcodeK_slot {w op : Nat} {i : Instr} (h : opcodeK w op = some i) : slotOf i = some .k := by
  unfold opcodeK at h
  split at h <;> cases h <;> rfl

theorem decodeFields_slot {cl : SlotClass} {w : Nat} {i : Instr} (h : decodeFields cl w = some i) : slotOf i = some cl := by
  cases cl with
  | s l => exact opcodeS_slot h
  | c => exact opcodeC_slot h
  | v l => exact opcodeV_slot h
  | m => exact opcodeM_slot h
  | e => exact opcodeE_slot h
  | k => exact opcodeK_slot h

/-- R38: a word is an instruction of a class when the opcode map lists it, its fields pass their checks, and it has no other bit set. -/
theorem decodeSlot_eq_some {cl : SlotClass} {w : Nat} {i : Instr} :
    decodeSlot cl w = some i ↔ decodeFields cl w = some i ∧ i.wf = true ∧ encodeWord i = w := by
  unfold decodeSlot
  cases decodeFields cl w with
  | none => simp
  | some j =>
    simp only [Option.ite_none_right_eq_some, Bool.and_eq_true, beq_iff_eq, Option.some.injEq]
    constructor
    · rintro ⟨h, rfl⟩
      exact ⟨rfl, h⟩
    · rintro ⟨rfl, h⟩
      exact ⟨h, rfl⟩

theorem encode_slot {i : Instr} {cl : SlotClass} (h : slotOf i = some cl) : encode i = [encodeWord i] := by
  simp [encode, h]

theorem encode_step {i : Instr} (h : slotOf i = none) : encode i = [] := by
  simp [encode, h]

/-- A well-formed slot instruction's word fits in 32 bits and decodes, in the class of its slot, to the instruction. -/
theorem decodeSlot_encodeWord {i : Instr} {cl : SlotClass} (h : slotOf i = some cl) (hw : i.wf = true) :
    encodeWord i < 2 ^ 32 ∧ decodeSlot cl (encodeWord i) = some i := by
  have hc := codec_slot h
  unfold Laws.Codec.Statement at hc
  rw [h] at hc
  exact (hc hw).2

/-- Settles O1: the Codec family in one direction; in the other, what the decoder accepts it has checked against its own word. -/
theorem decodeOfEncode : Obligations.DecodeOfEncode := by
  refine ⟨fun i cl h hw => ⟨encode_slot h, decodeSlot_encodeWord h hw⟩, fun i cl w h => ?_, fun i => encode_step⟩
  obtain ⟨hd, hw, rfl⟩ := decodeSlot_eq_some.mp h
  have hs := decodeFields_slot hd
  exact ⟨hs, hw, encode_slot hs⟩

end Sys2Proof

/-! The code of a bundle (R12, R14, R23, R25, R40): its bytes, its words, and the slots that offend. -/

namespace Sys2Proof

/-- The word of a slot: zero where it is empty (R14). -/
def wordOfSlot (x : Option Instr) : Nat := x.elim 0 encodeWord

theorem wordOfBytes_bytesOfWord {w : Nat} (h : w < 2 ^ 32) (l : List Byte) : wordOfBytes (bytesOfWord w ++ l) = w := by
  simp only [wordOfBytes, bytesOfWord, List.cons_append, BitVec.toNat_ofNat]
  omega

theorem wordsOfBytes_bytes {ws : List Nat} (h : ∀ w ∈ ws, w < 2 ^ 32) : wordsOfBytes ws.length (ws.flatMap bytesOfWord) = ws := by
  induction ws with
  | nil => rfl
  | cons w ws ih =>
    rw [List.forall_mem_cons] at h
    rw [List.flatMap_cons, List.length_cons, wordsOfBytes, wordOfBytes_bytesOfWord h.1]
    exact congrArg (w :: ·) (ih h.2)

theorem wordsOfBytes_length (k : Nat) (l : List Byte) : (wordsOfBytes k l).length = k := by
  induction k generalizing l with
  | zero => rfl
  | succ k ih => rw [wordsOfBytes, List.length_cons, ih]

/-- R14, R16: opcode 0 belongs to the empty slot alone. -/
theorem decodeSlot_zero (cl : SlotClass) : decodeSlot cl 0 = none := by
  cases cl <;> rfl

theorem decodeOne_zero (n : Nat) : decodeOne n 0 = some none := rfl

/-- A slot offends by its word when the word is neither zero nor an instruction of the slot's class. -/
theorem decodeOne_eq_none {n w : Nat} : decodeOne n w = none ↔ w ≠ 0 ∧ decodeSlot (slotClass n) w = none := by
  unfold decodeOne
  by_cases hw : w = 0
  · simp [hw]
  · cases h : decodeSlot (slotClass n) w <;> simp [hw]

theorem decodeOne_encodeWord {n : Nat} {i : Instr} (h : slotOf i = some (slotClass n)) (hw : i.wf = true) :
    decodeOne n (encodeWord i) = some (some i) := by
  have hd := (decodeSlot_encodeWord h hw).2
  have h0 : encodeWord i ≠ 0 := fun e => by simp [e, decodeSlot_zero] at hd
  simp [decodeOne, h0, hd]

/-- The words of a bundle's slots, each empty or an instruction of its class, decode to the slots, and none offends. -/
theorem decodeWords_words {n : Nat} {b : Slots} (h : ∀ k x, b[k]? = some x → decodeOne (n + k) (wordOfSlot x) = some x) :
    decodeWords n (b.map wordOfSlot) = (b, []) := by
  induction b generalizing n with
  | nil => rfl
  | cons x b ih =>
    have hx : decodeOne n (wordOfSlot x) = some x := h 0 x rfl
    have hb := ih (n := n + 1) fun k y hy => by
      rw [Nat.add_right_comm]
      exact h (k + 1) y hy
    simp [decodeWords, hx, hb]

/-- The slots that the decoding of the words counts as offending are those whose word does. -/
theorem mem_decodeWords_bad {n m : Nat} {ws : List Nat} :
    m ∈ (decodeWords n ws).2 ↔ ∃ k w, m = n + k ∧ ws[k]? = some w ∧ decodeOne m w = none := by
  induction ws generalizing n with
  | nil => simp [decodeWords]
  | cons w ws ih =>
    have hsplit : (∃ k v, m = n + k ∧ (w :: ws)[k]? = some v ∧ decodeOne m v = none) ↔
        (m = n ∧ decodeOne m w = none) ∨ ∃ k v, m = n + 1 + k ∧ ws[k]? = some v ∧ decodeOne m v = none := by
      constructor
      · rintro ⟨_ | k, v, hm, hv, ho⟩
        · cases hv
          exact .inl ⟨hm, ho⟩
        · exact .inr ⟨k, v, by omega, hv, ho⟩
      · rintro (⟨hm, ho⟩ | ⟨k, v, hm, hv, ho⟩)
        · exact ⟨0, w, hm, rfl, ho⟩
        · exact ⟨k + 1, v, by omega, hv, ho⟩
    rw [hsplit, ← ih, decodeWords]
    cases h : decodeOne n w with
    | none =>
      rw [List.mem_cons]
      exact or_congr_left ⟨fun e => ⟨e, e ▸ h⟩, And.left⟩
    | some x =>
      refine ⟨.inr, fun hm => hm.resolve_left ?_⟩
      rintro ⟨rfl, ho⟩
      rw [h] at ho
      cases ho

theorem mem_badPairs {b : Slots} {n k m : Nat} : m ∈ badPairs b n k ↔ (n ≤ m ∧ m < n + k) ∧ pairingOk b m = false := by
  induction k generalizing n with
  | zero =>
    simp only [badPairs, List.not_mem_nil, false_iff, not_and]
    omega
  | succ k ih =>
    rw [badPairs]
    by_cases hm : m = n
    · subst hm
      cases h : pairingOk b m <;> simp [ih, h]
    · have hr : n + 1 ≤ m ∧ m < n + 1 + k ↔ n ≤ m ∧ m < n + (k + 1) := by omega
      cases pairingOk b n <;> simp only [ih, hr, hm, List.mem_cons, false_or, if_true, Bool.false_eq_true, if_false]

theorem lowest_eq_min? (l : List Nat) : lowest l = l.min? := by
  induction l with
  | nil => rfl
  | cons x l ih =>
    rw [lowest, List.min?_cons, ih]
    cases l.min? <;> rfl

/-- The slots of a bundle that offend (R40): by their word, or by their pairing (R23, R25). -/
def offenders (ws : List Nat) : List Nat := (decodeWords 0 ws).2 ++ badPairs (decodeWords 0 ws).1 0 8

theorem mem_offenders {ws : List Nat} {m : Nat} (hl : ws.length = 8) :
    m ∈ offenders ws ↔ m < 8 ∧ ((∃ w, ws[m]? = some w ∧ w ≠ 0 ∧ decodeSlot (slotClass m) w = none) ∨ pairingOk (decodeWords 0 ws).1 m = false) := by
  have hw : m ∈ (decodeWords 0 ws).2 ↔ m < 8 ∧ ∃ w, ws[m]? = some w ∧ w ≠ 0 ∧ decodeSlot (slotClass m) w = none := by
    simp only [mem_decodeWords_bad, Nat.zero_add, decodeOne_eq_none, exists_eq_left', exists_and_left]
    refine ⟨fun ⟨w, hm, ho⟩ => ⟨?_, w, hm, ho⟩, And.right⟩
    rw [← hl]
    exact (List.getElem?_eq_some_iff.mp hm).1
  have hp : m ∈ badPairs (decodeWords 0 ws).1 0 8 ↔ m < 8 ∧ pairingOk (decodeWords 0 ws).1 m = false := by
    simp only [mem_badPairs, Nat.zero_le, true_and, Nat.zero_add]
  rw [offenders, List.mem_append, hw, hp, and_or_left]

/-- R40: a bundle is refused by the lowest slot that offends. -/
theorem decodeBundle_eq_error {ws : List Nat} {n : Nat} :
    decodeBundle ws = .error n ↔ n ∈ offenders ws ∧ ∀ m ∈ offenders ws, n ≤ m := by
  rw [← List.min?_eq_some_iff, ← lowest_eq_min?, offenders, decodeBundle]
  cases lowest ((decodeWords 0 ws).2 ++ badPairs (decodeWords 0 ws).1 0 8) <;> simp

theorem decodeBundle_ok {ws : List Nat} {b : Slots} (hd : decodeWords 0 ws = (b, [])) (hp : badPairs b 0 8 = []) :
    decodeBundle ws = .ok b := by
  simp [decodeBundle, hd, hp, lowest]

/-- Slots that are empty or hold a well-formed instruction of their class. -/
def slotsOk (b : Slots) : Prop := ∀ n < 8, ∀ i, slotAt b n = some i → slotOf i = some (slotClass n) ∧ i.wf = true

theorem slotAt_of_getElem? {b : Slots} {n : Nat} {x : Option Instr} (h : b[n]? = some x) : slotAt b n = x := by
  simp [slotAt, h]

/-- The words of the slots fit in 32 bits, and each decodes to its slot. -/
theorem wordOfSlot_decodes {b : Slots} (hb : b.length = 8) (hok : slotsOk b) {n : Nat} {x : Option Instr} (h : b[n]? = some x) :
    wordOfSlot x < 2 ^ 32 ∧ decodeOne n (wordOfSlot x) = some x := by
  have hn : n < 8 := hb ▸ (List.getElem?_eq_some_iff.mp h).1
  cases x with
  | none => exact ⟨by decide, rfl⟩
  | some i =>
    obtain ⟨hs, hw⟩ := hok n hn i (slotAt_of_getElem? h)
    exact ⟨(decodeSlot_encodeWord hs hw).1, decodeOne_encodeWord hs hw⟩

/-- The bytes of a bundle decode to its slots. -/
theorem decode_bytes {b : Slots} (hb : b.length = 8) (hok : slotsOk b) (hp : ∀ n < 8, pairingOk b n = true) :
    decode (b.flatMap (fun x => bytesOfWord (wordOfSlot x))) = .ok b := by
  have hwords : wordsOfBytes 8 (b.flatMap (fun x => bytesOfWord (wordOfSlot x))) = b.map wordOfSlot := by
    have hlt : ∀ w ∈ b.map wordOfSlot, w < 2 ^ 32 := by
      simp only [List.forall_mem_map]
      intro x hx
      obtain ⟨n, hn⟩ := List.mem_iff_getElem?.mp hx
      exact (wordOfSlot_decodes hb hok hn).1
    have := wordsOfBytes_bytes hlt
    rwa [List.flatMap_map, List.length_map, hb] at this
  have hd : decodeWords 0 (b.map wordOfSlot) = (b, []) := decodeWords_words fun k x hk => by
    rw [Nat.zero_add]
    exact (wordOfSlot_decodes hb hok hk).2
  have hbad : badPairs b 0 8 = [] := List.eq_nil_iff_forall_not_mem.mpr fun m hm => by
    obtain ⟨⟨_, hm8⟩, hf⟩ := mem_badPairs.mp hm
    rw [hp m (by omega)] at hf
    cases hf
  rw [decode, hwords, decodeBundle_ok hd hbad]

/-- Settles O3: the round trip of the bundle's bytes, and the refusal by the lowest offender. -/
theorem bundleOfEightSlots : Obligations.BundleOfEightSlots := by
  constructor
  · intro b hb hok hp
    refine (congrArg (fun f => decode (b.flatMap f)) (funext fun x => ?_)).trans (decode_bytes hb hok hp)
    cases x <;> rfl
  · intro l n ws b bad
    have hbad : ∀ m, m ∈ offenders ws ↔ bad m := fun m => mem_offenders (wordsOfBytes_length 8 l)
    rw [decode, decodeBundle_eq_error]
    simp only [← hbad]
    rfl

/-- The bundle of the spec's examples, one instruction of each class. -/
def specBundle : Slots :=
  [some (.add false 0 3 1 2), none, some (.loopi 0 5 3), some (.vfma false 0 2 2 0 1 1), none, some (.tld 0 0 2 6 true 3),
    some (.mm 0 2 0 0 false 2 0 false), some (.bndset 0 3 6 7)]

theorem slotsOk_specBundle : slotsOk specBundle := by
  intro n hn i hi
  have h : n = 0 ∨ n = 1 ∨ n = 2 ∨ n = 3 ∨ n = 4 ∨ n = 5 ∨ n = 6 ∨ n = 7 := by omega
  rcases h with rfl | rfl | rfl | rfl | rfl | rfl | rfl | rfl <;> cases hi <;> decide

/-- Settles O2: the bytes are those of the slots' words, and the slots are well formed, of their classes, and paired rightly. -/
theorem wordsOfTheSpec : Obligations.WordsOfTheSpec :=
  decode_bytes (b := specBundle) rfl slotsOk_specBundle (by decide)

end Sys2Proof

/-! The slots of a bundle in issue (R13-R15, R69, R193). -/

namespace Sys2Proof.Machine

/-- A bundle runs an instruction in its slot as its own meaning. -/
theorem runSlot_eq_exec {i : Instr} {cl : SlotClass} (s : State) (h : slotOf i = some cl) : runSlot i s = exec i s := by
  cases i
  all_goals simp only [slotOf, reduceCtorEq] at h
  all_goals rfl

theorem runSlotAt_runs {s t : State} {c : IssueCtx} {n : Nat} {i : Instr} (hc : (me s).issue = some c) (hi : slotAt c.slots n = some i)
    (hs : (slotOf i).isSome = true) (hm : c.mask.getLsbD n = true) (ht : exec i s = .next t) : runSlotAt s n = t := by
  obtain ⟨cl, hcl⟩ := Option.isSome_iff_exists.mp hs
  simp [runSlotAt, hc, hi, hm, runSlot_eq_exec s hcl, ht]

theorem runSlotAt_masked {s : State} {c : IssueCtx} {n : Nat} (hc : (me s).issue = some c) (hm : c.mask.getLsbD n = false) : runSlotAt s n = s := by
  unfold runSlotAt
  rw [hc]
  cases hi : slotAt c.slots n <;> simp [hi, hm]

theorem runSlotAt_empty {s : State} {c : IssueCtx} {n : Nat} (hc : (me s).issue = some c) (hi : slotAt c.slots n = none) : runSlotAt s n = s := by
  simp [runSlotAt, hc, hi]

/-- In a bundle, a slot instruction with a true guard has its effect and its pops, or its slot fault is kept with the bundle (R193). -/
theorem slotStep_inBundle {i : Instr} {s : State} {c : IssueCtx} (body : State → Except SlotFault State) (hc : (me s).issue = some c)
    (hg : guardTrue (me s).preds (guardOf i) = true) :
    (∃ u, slotStep i s body = .next (takePops (readsOf (me s) i) u)) ∨
      ∃ f, slotStep i s body = .next (setMe s { me s with issue := some { c with undone := c.undone ++ [f] } }) := by
  have hr : slotReady i s = true := by simp [slotReady, hg, hc]
  cases hb : body s with
  | ok t => exact .inl ⟨t, slotStep_run hr hb⟩
  | error f =>
    refine .inr ⟨f, (slotStep_fault hr hb).trans ?_⟩
    simp [slotFault, hc]

/-- Settles O5: a slot runs by runSlotAt, and its instruction answers by the frame of the slot instructions. -/
theorem slotsRunTheirInstruction : Obligations.SlotsRunTheirInstruction := by
  refine ⟨fun s t c n i hc hi hs => ⟨fun hm ht => runSlotAt_runs hc hi hs hm ht, runSlotAt_masked hc⟩, fun s c n => runSlotAt_empty,
    fun s => rfl, fun i s c hs hc => ?_⟩
  obtain ⟨cl, hcl⟩ := Option.isSome_iff_exists.mp hs
  obtain ⟨body, hb⟩ := exec_framed s hcl
  unfold does
  rw [hb]
  exact ⟨slotStep_off, slotStep_inBundle body hc⟩

end Sys2Proof.Machine

/-! A ready slot instruction whose own effect is had, and what its results are in the pending-write queue (R46, R53, R80). -/

namespace Sys2Proof.Machine

/-- A ready instruction, whose meaning is o, does what the body of its frame answers. -/
theorem does_of_body {i : Instr} {s u : State} {body : State → Except SlotFault State} (o : SlotOutcome) (hr : slotReady i s = true)
    (he : exec i s = o) (ho : o = slotStep i s body) (hb : body s = .ok u) : does i s u :=
  (he.trans ho).trans (slotStep_run hr hb)

/-- R46, R53: a result x of the running stream is one entry more at the end of its queue. -/
theorem enqueue_eq_withEntry {s : State} {n k x : Nat} {d : Dest} {v : BitVec 64} {row : Row} (hx : v.toNat = x) :
    enqueue s n d v 0 k row = withEntry s { pendOf s n d x k with payload := row } := by
  subst hx
  simp only [pendOf, BitVec.ofNat_toNat, BitVec.setWidth_eq]
  rfl

/-! The bytes of a row, and the scales of R121 in it. -/

/-- Byte k of a number that is put together from its bytes. -/
theorem natOfBytes_byte (l : List Byte) (k : Nat) : natOfBytes l / 256 ^ k % 256 = (l.getD k 0).toNat := by
  induction l generalizing k with
  | nil => simp [natOfBytes]
  | cons b l ih =>
    have hb := b.isLt
    cases k with
    | zero =>
      rw [natOfBytes, List.getD_cons_zero]
      omega
    | succ k =>
      rw [natOfBytes, List.getD_cons_succ, ← ih k, Nat.pow_succ', ← Nat.div_div_eq_div_mul]
      congr 2
      omega

/-- The row of at most 256 bytes is the number of the bytes. -/
theorem rowOfBytes_toNat {l : List Byte} (h : l.length ≤ 256) : (rowOfBytes l).toNat = natOfBytes l := by
  induction l with
  | nil => exact BitVec.toNat_zero
  | cons b l ih =>
    rw [List.length_cons] at h
    have hpow : 2 ^ (8 * (l.length + 1)) = 256 ^ l.length * 2 ^ 8 := (Nat.pow_mul 2 8 (l.length + 1)).trans (Nat.pow_succ ..)
    have hlt : natOfBytes l * 2 ^ 8 < 2 ^ (8 * (l.length + 1)) := by
      rw [hpow]
      exact Nat.mul_lt_mul_of_pos_right (natOfBytes_lt l) (by decide)
    have hrow : natOfBytes l * 2 ^ 8 < 2 ^ 2048 := Nat.lt_of_lt_of_le hlt (Nat.pow_le_pow_right (by decide) (by omega))
    have hb : b.toNat < 2 ^ 2048 := Nat.lt_of_lt_of_le b.isLt (Nat.pow_le_pow_right (by decide) (by decide))
    rw [rowOfBytes, natOfBytes, BitVec.toNat_or, BitVec.toNat_shiftLeft, BitVec.toNat_setWidth, ih (by omega), Nat.shiftLeft_eq, Nat.mod_eq_of_lt hrow,
      Nat.mod_eq_of_lt hb, Nat.mul_comm, ← Nat.two_pow_add_eq_or_of_lt b.isLt, Nat.add_comm]

/-- R121: the halfwords of the scales that QLD reads. -/
theorem scaleRow_halfword (c : CoreState) (a : Nat) {n j : Nat} (hn : n < 64) (hj : j ≤ n) :
    (scaleRow c a n).toNat / 2 ^ (16 * j) % 2 ^ 16 = (spad8 c (a + 2 * j)).toNat + 256 * (spad8 c (a + 2 * j + 1)).toNat := by
  have hbyte : ∀ k < 2 * (n + 1), (scaleRow c a n).toNat / 256 ^ k % 256 = (spad8 c (a + k)).toNat := by
    intro k hk
    rw [scaleRow, rowOfBytes_toNat (by simp; omega), natOfBytes_byte]
    simp [hk]
  have h0 := hbyte (2 * j) (by omega)
  have h1 := hbyte (2 * j + 1) (by omega)
  rw [Nat.pow_succ, ← Nat.div_div_eq_div_mul] at h1
  rw [show 2 ^ (16 * j) = 256 ^ (2 * j) by rw [Nat.pow_mul, Nat.pow_mul]]
  generalize (scaleRow c a n).toNat / 256 ^ (2 * j) = m at h0 h1 ⊢
  rw [← h0, Nat.add_assoc, ← h1]
  omega

/-! Shape, scale and view settings (R119, R121, R133, R159). -/

/-- R53, R118, R119: a shadow field that lands, without flags and outside a region, changes no other field of the shape register. -/
theorem landSeq_shapeField {sq : Seq} {p : Pend} {sg : BitVec 2} {fld : BitVec 4} (hd : p.dest = .shapeField sg fld) (hf : p.flags = 0)
    (hr : sq.regions = []) :
    landSeq sq p = putShape sq sg.toNat
      { shapeAt sq sg.toNat with shadow := putPlaneField (shapeAt sq sg.toNat).shadow fld.toNat (p.value.toNat % 2 ^ 32) } := by
  have hsq : { sq with cstat := sq.cstat ||| p.flags, regions := sq.regions.map (landRegion p) } = sq := by
    have hz : sq.cstat ||| (0 : BitVec 5) = sq.cstat := BitVec.or_zero
    rw [hf, hz, hr, List.map_nil, ← hr]
  unfold landSeq
  rw [hsq, hd]
  simp only [BitVec.toNat_setWidth]

/-- Settles O29: each instruction's frame puts its result in the queue, VROW and XIMM leave the state, and a shape field lands by landSeq_shapeField. -/
theorem configurationResults : Obligations.ConfigurationResults := by
  refine ⟨fun s g v fld sg imm q a n k sl rd ra rb t e => ?_, fun sq p sg fld => landSeq_shapeField⟩
  refine ⟨fun hx hr => does_of_body (execShpset g sg fld imm s) hr rfl rfl (congrArg Except.ok (enqueue_eq_withEntry ?_)),
    fun hr => does_of_body (execShpcpy g sg s) hr rfl rfl rfl,
    fun hr => does_of_body (execQset g q a n s) hr rfl rfl (congrArg Except.ok (enqueue_eq_withEntry ?_)),
    fun hr => does_of_body (execQzero g q s) hr rfl rfl rfl,
    fun hr => does_of_body (execVfset g v fld a s) hr rfl rfl (congrArg Except.ok (enqueue_eq_withEntry ?_)),
    fun hx hr => does_of_body (execVfseti g v fld k s) hr rfl rfl (congrArg Except.ok (enqueue_eq_withEntry ?_)),
    fun hr => ⟨scaleRow (myCore s) (src s a).toNat n.toNat, does_of_body (execQld g q a n s) hr rfl rfl rfl,
      fun j hj => scaleRow_halfword _ _ n.isLt hj⟩,
    fun hr => does_of_body (execVrow sl rd ra rb s) hr rfl rfl rfl, fun hr => does_of_body (execXimm t e s) hr rfl rfl rfl⟩
  · rw [hx, immUnsigned, BitVec.toNat_setWidth_of_le (by decide), BitVec.toNat_setWidth_of_le (by decide)]
  · rw [BitVec.toNat_setWidth_of_le (by decide), BitVec.toNat_setWidth]
  · rw [BitVec.toNat_setWidth_of_le (by decide)]
  · rw [hx, immSigned, BitVec.toNat_setWidth_of_le (by decide), BitVec.signExtend]

end Sys2Proof.Machine

/-! The array commands at their issue (R117, R211-R231). -/

namespace Sys2Proof.Machine

theorem newOp_eq_withOp (s : State) (n : Nat) (r w : Option (BitVec 4)) (tiles : List Nat) (pins : List Word) (k : OpKind) (via : List Nat) :
    newOp s n r w tiles pins k via = withOp s (opOf s n r w tiles pins k via) := rfl

/-- A new operation carries nothing of the shape registers. -/
theorem opOf_putShape (s : State) (n : Nat) (r w : Option (BitVec 4)) (tiles : List Nat) (pins : List Word) (k : OpKind) (via : List Nat) (g : Nat)
    (x : ShapeReg) : opOf (setMe s (putShape (me s) g x)) n r w tiles pins k via = opOf s n r w tiles pins k via := by
  simp only [opOf, bundleAddr, me_setMe]
  rfl

/-- R117, R212: a command enters after the swap, with the operation as the state before it gives it. -/
theorem arrayOp_swapped (s : State) (g : BitVec 2) (sw : Bool) (tiles : List Nat) (pins : List Word) (c : ArrayCmd) :
    arrayOp tiles pins c (swapped s g sw) = withOp (swapped s g sw) (opOf s 6 none none tiles pins (.array c)) := by
  cases sw with
  | false => rfl
  | true => exact (newOp_eq_withOp ..).trans (congrArg _ (opOf_putShape ..))

theorem afterCheck_ok {c : Check} (h : c = .ok) (n : Nat) (t : State) : afterCheck c n t = .ok t := by
  subst h
  rfl

/-- Settles O35: every command's frame enters one operation, over the swapped state where the command swaps. -/
theorem arrayCommandsEnterTheQueue : Obligations.ArrayCommandsEnterTheQueue := by
  intro s g acc t sg sw fmt q x t3 scl hi a F P base tile T R f n w
  have enters : ∀ (tiles : List Nat) (pins : List Word) (c : ArrayCmd),
      (.ok (arrayOp tiles pins c (swapped s sg sw)) : Except SlotFault State) = .ok (withOp base (opOf s 6 none none tiles pins (.array c))) :=
    fun tiles pins c => congrArg Except.ok (arrayOp_swapped s sg sw tiles pins c)
  refine ⟨fun hr => does_of_body (execMm g acc t sg sw fmt q scl s) hr rfl rfl (enters _ _ _),
    fun hr => does_of_body (execMmcmp g acc t sg sw fmt s) hr rfl rfl (enters _ _ _),
    fun hr => does_of_body (execMstatTile g t3 sg sw fmt s) hr rfl rfl (enters _ _ _),
    fun hc hr => does_of_body (execMstatHandle g a sg sw fmt s) hr rfl rfl ((afterCheck_ok hc 6 _).trans (enters _ _ _)),
    fun hr => does_of_body (execMswap g s) hr rfl rfl rfl, fun hr => does_of_body (execLease g s) hr rfl rfl rfl,
    fun hr => does_of_body (execLrel g s) hr rfl rfl rfl,
    fun hr => does_of_body (execAcczeroFp g acc t s) hr rfl rfl rfl,
    fun hr => does_of_body (execAcczeroInt g acc s) hr rfl rfl rfl,
    fun hr => does_of_body (execAccld g acc t sg sw fmt hi s) hr rfl rfl (enters _ _ _),
    fun hr => does_of_body (execAccnorm g acc t sg sw s) hr rfl rfl (enters _ _ _),
    fun hr => does_of_body (execAccchk g acc s) hr rfl rfl rfl,
    fun hr => does_of_body (execAccdrain g acc t sg sw fmt q x s) hr rfl rfl (enters _ _ _),
    fun hr => does_of_body (execFold g acc sg sw s) hr rfl rfl (enters _ _ _)⟩

end Sys2Proof.Machine

/-! The landings at the start of a tick (R18, R19, R53, R54, R56, R58, R106). -/

namespace Sys2Proof.Machine

/-- What a landing leaves as it is, and the flags that it adds. -/
theorem landSeq_keeps (sq : Seq) (p : Pend) : (landSeq sq p).queue = sq.queue ∧ (landSeq sq p).pc = sq.pc ∧ (landSeq sq p).loops = sq.loops ∧
    (landSeq sq p).rmode = sq.rmode ∧ (landSeq sq p).map30 = sq.map30 ∧ (landSeq sq p).map31 = sq.map31 ∧
    (landSeq sq p).cstat = sq.cstat ||| p.flags := by
  unfold landSeq
  cases hd : p.dest with
  | scalar r =>
    dsimp only [landScalar]
    split <;> exact ⟨rfl, rfl, rfl, rfl, rfl, rfl, rfl⟩
  | _ => exact ⟨rfl, rfl, rfl, rfl, rfl, rfl, rfl⟩

theorem landSeq_isMapped (sq : Seq) (p : Pend) (r : Nat) : isMapped (landSeq sq p) r = isMapped sq r := by
  obtain ⟨-, -, -, -, h30, h31, -⟩ := landSeq_keeps sq p
  rw [isMapped, h30, h31, isMapped]

/-- R18, R19, R58: a scalar result lands in its slot's latch, and in its register unless that is mapped or the entry superseded. -/
theorem landSeq_scalar {sq : Seq} {p : Pend} {d : BitVec 5} (hd : p.dest = .scalar d) :
    (landSeq sq p).latches = vput sq.latches p.slot (p.value.setWidth 32) ∧
      (landSeq sq p).regs = if p.superseded.isSome || isMapped sq d.toNat then sq.regs else vput sq.regs d.toNat (p.value.setWidth 32) := by
  unfold landSeq
  rw [hd]
  dsimp only [landScalar]
  split
  next h => exact ⟨rfl, (if_pos h).symm⟩
  next h => exact ⟨rfl, (if_neg h).symm⟩

/-- R19: with the suppress bit, the latch alone. -/
theorem landSeq_latch {sq : Seq} {p : Pend} (hd : p.dest = .latch) :
    (landSeq sq p).latches = vput sq.latches p.slot (p.value.setWidth 32) ∧ (landSeq sq p).regs = sq.regs := by
  unfold landSeq
  rw [hd]
  exact ⟨rfl, rfl⟩

/-- The destinations that write a latch (R18). -/
def Dest.writesLatch (d : Dest) : Prop := d = .latch ∨ ∃ r, d = .scalar r

theorem landSeq_noScalar {sq : Seq} {p : Pend} (hd : ¬ p.dest.writesLatch) :
    (landSeq sq p).latches = sq.latches ∧ (landSeq sq p).regs = sq.regs := by
  unfold landSeq
  cases h : p.dest with
  | scalar r => exact absurd (.inr ⟨r, h⟩) hd
  | latch => exact absurd (.inl h) hd
  | _ => exact ⟨rfl, rfl⟩

theorem landSeq_reg_other {sq : Seq} {p : Pend} {d : BitVec 5} (hd : p.dest ≠ .scalar d) :
    vget 0 (landSeq sq p).regs d.toNat = vget 0 sq.regs d.toNat := by
  by_cases hw : p.dest.writesLatch
  · rcases hw with h | ⟨r, h⟩
    · rw [(landSeq_latch h).2]
    · have hne : d.toNat ≠ r.toNat := fun e => hd (by rw [h, BitVec.eq_of_toNat_eq e])
      rw [(landSeq_scalar h).2]
      split
      · rfl
      · exact vget_vput_ne _ _ _ hne
  · rw [(landSeq_noScalar hw).2]

theorem landSeq_latch_other {sq : Seq} {p : Pend} {k : Nat} (hd : p.slot = k → ¬ p.dest.writesLatch) :
    vget 0 (landSeq sq p).latches k = vget 0 sq.latches k := by
  by_cases hw : p.dest.writesLatch
  · have hne : k ≠ p.slot := fun e => hd e.symm hw
    rcases hw with h | ⟨r, h⟩
    · rw [(landSeq_latch h).1, vget_vput_ne _ _ _ hne]
    · rw [(landSeq_scalar h).1, vget_vput_ne _ _ _ hne]
  · rw [(landSeq_noScalar hw).1]

theorem landSeq_reg {sq : Seq} {p : Pend} {d : BitVec 5} (hd : p.dest = .scalar d) (hs : p.superseded = none) (hm : isMapped sq d.toNat = false) :
    vget 0 (landSeq sq p).regs d.toNat = p.value.setWidth 32 := by
  rw [(landSeq_scalar hd).2, hs, hm]
  exact vget_vput_same _ _ _ _ d.isLt

theorem landSeq_latch_same {sq : Seq} {p : Pend} (hd : p.dest.writesLatch) (hk : p.slot < 8) :
    vget 0 (landSeq sq p).latches p.slot = p.value.setWidth 32 := by
  have hl : (landSeq sq p).latches = vput sq.latches p.slot (p.value.setWidth 32) := by
    rcases hd with h | ⟨r, h⟩
    · exact (landSeq_latch h).1
    · exact (landSeq_scalar h).1
  rw [hl, vget_vput_same _ _ _ _ hk]

/-! A list of landings, in its order (R53). -/

/-- The strand after the landings of a list. -/
def landList (sq : Seq) (l : List Pend) : Seq := l.foldl landSeq sq

theorem landAll_fst (sq : Seq) (c : CoreState) (l : List Pend) : (landAll sq c l).1 = landList sq l := by
  induction l generalizing sq c with
  | nil => rfl
  | cons p l ih => exact ih _ _

theorem landList_cons (sq : Seq) (p : Pend) (l : List Pend) : landList sq (p :: l) = landList (landSeq sq p) l := rfl

theorem landList_append (sq : Seq) (l m : List Pend) : landList sq (l ++ m) = landList (landList sq l) m := List.foldl_append

theorem landList_keeps (sq : Seq) (l : List Pend) : (landList sq l).queue = sq.queue ∧ (landList sq l).pc = sq.pc ∧
    (landList sq l).loops = sq.loops ∧ (landList sq l).rmode = sq.rmode ∧ (landList sq l).cstat = l.foldl (fun a p => a ||| p.flags) sq.cstat := by
  induction l generalizing sq with
  | nil => exact ⟨rfl, rfl, rfl, rfl, rfl⟩
  | cons p l ih =>
    obtain ⟨hq, hp, hl, hr, -, -, hc⟩ := landSeq_keeps sq p
    rw [landList_cons, ← hq, ← hp, ← hl, ← hr, List.foldl_cons, ← hc]
    exact ih _

theorem landList_isMapped (sq : Seq) (l : List Pend) (r : Nat) : isMapped (landList sq l) r = isMapped sq r := by
  induction l generalizing sq with
  | nil => rfl
  | cons p l ih => rw [landList_cons, ih, landSeq_isMapped]

theorem landList_reg_other {sq : Seq} {l : List Pend} {d : BitVec 5} (h : ∀ x ∈ l, x.dest ≠ .scalar d) :
    vget 0 (landList sq l).regs d.toNat = vget 0 sq.regs d.toNat := by
  induction l generalizing sq with
  | nil => rfl
  | cons p l ih =>
    rw [List.forall_mem_cons] at h
    rw [landList_cons, ih h.2, landSeq_reg_other h.1]

theorem landList_latch_other {sq : Seq} {l : List Pend} {k : Nat} (h : ∀ x ∈ l, x.slot = k → ¬ x.dest.writesLatch) :
    vget 0 (landList sq l).latches k = vget 0 sq.latches k := by
  induction l generalizing sq with
  | nil => rfl
  | cons p l ih =>
    rw [List.forall_mem_cons] at h
    rw [landList_cons, ih h.2, landSeq_latch_other h.1]

/-- R19, R54: of the landings for a register, the last gives it its value. -/
theorem landList_reg_last {sq : Seq} {l m : List Pend} {p : Pend} {d : BitVec 5} (hd : p.dest = .scalar d) (hs : p.superseded = none)
    (hm : isMapped sq d.toNat = false) (h : ∀ x ∈ m, x.dest ≠ .scalar d) :
    vget 0 (landList sq (l ++ p :: m)).regs d.toNat = p.value.setWidth 32 := by
  rw [landList_append, landList_cons, landList_reg_other h, landSeq_reg hd hs (by rw [landList_isMapped, hm])]

/-- R18: of the scalar landings of a slot, the last gives its latch the value. -/
theorem landList_latch_last {sq : Seq} {l m : List Pend} {p : Pend} (hd : p.dest.writesLatch) (hk : p.slot < 8)
    (h : ∀ x ∈ m, x.slot = p.slot → ¬ x.dest.writesLatch) : vget 0 (landList sq (l ++ p :: m)).latches p.slot = p.value.setWidth 32 := by
  rw [landList_append, landList_cons, landList_latch_other h, landSeq_latch_same hd hk]

/-! The start of a tick (R53). -/

/-- The entries that the coming tick lands. -/
def dueEntries (q : List Pend) : List Pend := q.filter (fun p => decide (p.cnt ≤ 1))

/-- The entries that stay, a tick nearer. -/
def stayingEntries (q : List Pend) : List Pend := (q.filter (fun p => decide (2 ≤ p.cnt))).map (fun p => { p with cnt := p.cnt - 1 })

theorem aged_due (q : List Pend) : (aged q).filter (fun p => p.cnt == 0) = (dueEntries q).map (fun p => { p with cnt := p.cnt - 1 }) := by
  rw [aged, dueEntries, List.filter_map]
  congr 2
  funext p
  rw [Bool.eq_iff_iff]
  simp only [Function.comp, beq_iff_eq, decide_eq_true_eq]
  omega

theorem aged_staying (q : List Pend) : (aged q).filter (fun p => p.cnt != 0) = stayingEntries q := by
  rw [aged, stayingEntries, List.filter_map]
  congr 2
  funext p
  rw [Bool.eq_iff_iff]
  simp only [Function.comp, bne_iff_ne, decide_eq_true_eq]
  omega

/-- A landing does not look at its counter. -/
theorem landList_aged (sq : Seq) (l : List Pend) : landList sq (l.map (fun p => { p with cnt := p.cnt - 1 })) = landList sq l := List.foldl_map

/-- R53: the due entries land in queue order; only the stage predicates follow them (R52). -/
theorem tickStart_lands (sq : Seq) (c : CoreState) :
    ∃ ps, (tickStart sq c).1 = { landList { sq with queue := stayingEntries sq.queue } (dueEntries sq.queue) with preds := ps } := by
  unfold tickStart
  dsimp only
  rw [landAll_fst, aged_due, aged_staying, landList_aged]
  split
  · exact ⟨_, rfl⟩
  · exact ⟨_, rfl⟩

/-- Settles O41: the tick lands its due entries, and of a list of landings the last for a register, or of a slot, stands. -/
theorem pendingWritesLandInOrder : Obligations.PendingWritesLandInOrder := by
  intro sq c r due
  obtain ⟨ps, hr⟩ : ∃ ps, r = { landList { sq with queue := stayingEntries sq.queue } due with preds := ps } := tickStart_lands sq c
  obtain ⟨hq, hpc, hl, hm, hc⟩ := landList_keeps { sq with queue := stayingEntries sq.queue } due
  rw [hr]
  refine ⟨hq, fun d l m p hdue hd hs hmap h => ?_, fun l m p hdue hk hd h => ?_, fun d h => landList_reg_other h, hc, hpc, hl, hm⟩
  · rw [BitVec.ofNat_toNat, hdue]
    exact landList_reg_last hd hs hmap h
  · rw [BitVec.ofNat_toNat, hdue]
    exact landList_latch_last hd hk fun x hx hxs hw => hw.elim (h x hx hxs).1 fun ⟨r, hr⟩ => (h x hx hxs).2 r hr

end Sys2Proof.Machine

/-! The state after reset (R47, R118, R155, R209, R258, R270, R298, R324). -/

namespace Sys2Proof.Machine

theorem shapeAt_reset {g : Nat} (h : g < 4) : shapeAt Seq.reset g = { active := Plane.reset, shadow := Plane.reset } := by
  simp [shapeAt, Seq.reset, vget, h]

theorem viewAt_reset {v : Nat} (h : v < 16) : viewAt Seq.reset v = View.reset := by
  simp [viewAt, Seq.reset, vget, h]

end Sys2Proof.Machine

namespace Sys2Proof

/-- Settles O7: after reset no table lists anything, so that every record reads as its reset. -/
theorem resetState : Obligations.ResetState := by
  refine ⟨fun q => ⟨rfl, rfl, rfl, rfl, rfl, rfl, rfl, rfl, fun g hg => ?_, fun v hv => ?_⟩, fun _ _ _ => rfl, fun _ => rfl,
    fun _ => ⟨rfl, rfl, rfl⟩, fun _ _ => ⟨rfl, rfl⟩, fun _ _ => rfl, fun _ => ⟨rfl, rfl, rfl, rfl, rfl⟩, fun _ => ⟨rfl, rfl, rfl, rfl⟩, rfl, rfl⟩
  · exact Machine.shapeAt_reset hg ▸ ⟨rfl, rfl⟩
  · exact Machine.viewAt_reset hv ▸ ⟨rfl, rfl, rfl, rfl⟩

end Sys2Proof

/-! The position of a stream (R50, R62, R66): what the end of a bundle may change. -/

namespace Sys2Proof.Machine

/-- R50, R52, R66: b differs from a in its position alone: the next bundle, the delay state, the loop stack, and the stage binding with its predicates. -/
def Repositioned (a b : Seq) : Prop :=
  b = { a with pc := b.pc, delayTarget := b.delayTarget, delayCount := b.delayCount, loops := b.loops, preds := b.preds, stage := b.stage,
               stageDue := b.stageDue, due := b.due }

theorem Repositioned.refl (a : Seq) : Repositioned a a := rfl

theorem Repositioned.trans {a b c : Seq} (h : Repositioned a b) (k : Repositioned b c) : Repositioned a c := by
  unfold Repositioned at *
  rw [k, h]

theorem popLevel_repositioned (sq : Seq) : Repositioned sq (popLevel sq) := rfl

theorem loopBoundary_repositioned (n : Nat) (sq : Seq) (a : Word) : Repositioned sq (loopBoundary n sq a) := by
  induction n generalizing sq with
  | zero => rfl
  | succ n ih =>
    unfold loopBoundary
    split
    · rfl
    · split
      · rfl
      · dsimp only
        split
        · rfl
        · exact (popLevel_repositioned sq).trans (ih _)

theorem settle_repositioned (sq : Seq) : Repositioned sq (settle sq) := by
  unfold settle
  split
  · rfl
  · rfl
  · exact (loopBoundary_repositioned 6 sq _).trans rfl

theorem advance_repositioned (sq : Seq) (a : Word) : Repositioned sq (advance sq a) := by
  unfold advance
  split
  · rfl
  · split
    · rfl
    · split
      · split
        · rfl
        · exact loopBoundary_repositioned 6 sq a
      · rfl

/-- R48: outside delay positions and boundaries the next bundle follows. -/
theorem advance_next {sq : Seq} {a : Word} (hd : sq.delayCount = 0) (hb : atBoundary sq a = false) : advance sq a = { sq with pc := a + 32 } := by
  simp [advance, hd, hb]

/-- R50: a boundary at which no level ends goes on to the next bundle. -/
theorem loopBoundary_none {sq : Seq} {a : Word} (n : Nat) (h : atBoundary sq a = false) : loopBoundary n sq a = { sq with pc := a + 32 } := by
  cases n with
  | zero => rfl
  | succ n =>
    unfold loopBoundary atBoundary at *
    cases hl : sq.loops.getLast? with
    | none => rfl
    | some l =>
      simp only [hl, beq_eq_false_iff_ne] at h
      simp [h]

/-- R50: a level in its last iteration pops at its boundary. -/
theorem loopBoundary_pops {sq : Seq} {a : Word} {l : LoopLevel} {rest : List LoopLevel} (n : Nat) (hl : sq.loops = rest ++ [l]) (ha : lastOf l = a)
    (hc : l.count.toNat ≤ (l.index + 1).toNat) : loopBoundary (n + 1) sq a = loopBoundary n (popLevel sq) a := by
  rw [loopBoundary, hl, List.getLast?_concat]
  simp only [ha, ne_eq, not_true_eq_false, if_false, if_neg (Nat.not_lt.mpr hc)]

/-- R302: a strand that is not asked to land does not. -/
theorem landHere_goes {s : State} (h : (me s).landing = .none_) : landHere s = s := by simp [landHere, h]

/-! The state of another stream, and the fetch of a bundle, leave what a stream reads of itself. -/

@[simp] theorem me_passUncached (s : State) (l : List Nat) : me (passUncached s l) = me s := rfl

theorem passFetch_slices (s : State) (a : Word) : ∃ sl, passFetch s a = { s with slices := sl } := by
  unfold passFetch
  split
  · exact ⟨_, rfl⟩
  · exact ⟨_, rfl⟩

@[simp] theorem me_passFetch (s : State) (a : Word) : me (passFetch s a) = me s := by
  obtain ⟨sl, h⟩ := passFetch_slices s a
  rw [h]
  rfl

/-- R62: a skipped bundle changes of its stream the position alone. -/
theorem me_skipBundle {s : State} (h : (me s).landing = .none_) : me (skipBundle s) = advance (me s) (me s).pc := by
  have hm : me (setMe (passFetch s (me s).pc) (advance (me s) (me s).pc)) = advance (me s) (me s).pc := me_setMe _ _
  have hl : (advance (me s) (me s).pc).landing = .none_ := by rw [advance_repositioned]; exact h
  unfold skipBundle
  dsimp only
  split
  · rw [landHere_goes (by rw [hm, hl]), hm]
  · exact hm

end Sys2Proof.Machine

/-! The parts of a cycle (R50, R53, R62, R66, R116, R126, R127, R283). -/

namespace Sys2Proof.Machine

theorem bundleSkip_leaves {s : State} (h : (me s).landing = .none_) : (me (skipBundle s)).ticks = (me s).ticks ∧
    (me (skipBundle s)).queue = (me s).queue ∧ (me (skipBundle s)).regs = (me s).regs ∧
    ((me s).delayCount = 0 → atBoundary (me s) (me s).pc = false → (me (skipBundle s)).pc = (me s).pc + 32) := by
  rw [me_skipBundle h]
  refine ⟨?_, ?_, ?_, fun hd hb => by rw [advance_next hd hb]⟩ <;> rw [advance_repositioned]

/-- R50: LOOP_EXIT of the innermost level alone. -/
theorem takeExit_pops {sq : Seq} {a : Word} {l : LoopLevel} {rest : List LoopLevel} (hd : sq.due = some (.exit a)) (hl : sq.loops = rest ++ [l])
    (ha : lastOf l = a) (hc : l.count.toNat ≤ l.index.toNat + 1) (hi : l.index.toNat + 1 < 2 ^ 32) (ho : ∀ o, rest.getLast? = some o → lastOf o ≠ a) :
    takeExit sq = { popLevel sq with pc := a + 32, due := none } := by
  have hw : (l.index + 1).toNat = l.index.toNat + 1 := by
    rw [BitVec.toNat_add]
    exact Nat.mod_eq_of_lt hi
  have hr : (popLevel sq).loops = rest := by simp [popLevel, hl]
  have hb : atBoundary (popLevel sq) a = false := by
    unfold atBoundary
    rw [hr]
    cases hg : rest.getLast? with
    | none => rfl
    | some o => simpa using ho o hg
  simp only [takeExit, hd, settle]
  rw [loopBoundary_pops 5 hl ha (hw ▸ hc), loopBoundary_none 5 hb]

theorem timedStart_waiting {s : State} {q : Nat} {x : BitVec 64} (h : (seqAt s q).status = .waiting x) :
    (x ≤ gtAt s (dieOf q) → timedStart s q = setSeq s q { seqAt s q with status := .running }) ∧
    (gtAt s (dieOf q) < x → timedStart s q = s) := by
  simp only [timedStart, h]
  exact ⟨fun hx => if_neg (BitVec.not_lt.mpr hx), fun hx => if_pos hx⟩

/-- R53, R116: the landings of a bundle that would issue in the current cycle. -/
theorem takeLandings_issue {s : State} {b : Slots} {m : BitVec 8} (hf : coreFrozen s (coreOf s.cur) = false) :
    let t := prepared (if s.cur % 2 = 0 then closeCycle s (coreOf s.cur) else s)
    (me t).reissue = none → (me t).tickOpen = false → judge t = .issue b m → issuesNow t (occMask b) = true →
      takeLandings s = setMe (landed t) { me (landed t) with tickOpen := true } := by
  intro t hr ho hj hn
  unfold takeLandings
  simp only [t] at hr ho hj hn ⊢
  simp only [hr, ho, hj, hn, hf, Option.isSome_none, Bool.or_self, Bool.false_eq_true, if_false, if_true]

theorem takeSkip_skips {s : State} (hf : coreFrozen s (coreOf s.cur) = false) (hr : (me (prepared s)).reissue = none) (hj : judge (prepared s) = .skip) :
    takeSkip s = skipBundle (prepared s) := by
  simp [takeSkip, hf, hr, hj]

/-! The guard's cycle (R127). -/

/-- R127: core k in a new cycle, with its primary the running stream. -/
def guardStart (s : State) (k : Nat) : State := { setCore s k { coreAt s k with primaryMask := none } with cur := 2 * k }

/-- R127, log 133: when the guard's hold of the primary leaves x, the cycle is the secondary's and W is back at zero. -/
theorem starvationGuard_gives {s x : State} {k : Nat} (hg : guardDue s k = true) (hf : coreFrozen s k = false) (hx : guardHolds (guardStart s k) = x) :
    let v := setCore { x with cur := s.cur } k { coreAt x k with primaryMask := none, wait := 0 }
    exec (.starvationGuard k) s = .next { streamCycle { v with cur := 2 * k + 1 } with cur := s.cur } := by
  intro v
  have hw : withCur (setCore s k { coreAt s k with primaryMask := none }) (2 * k) guardHolds = { x with cur := s.cur } := by
    rw [← hx]
    rfl
  have hs : starveCycle s k = withCur v (2 * k + 1) streamCycle := by
    rw [starveCycle, hw]
    rfl
  show Host.Outcome.next (if guardDue s k && !coreFrozen s k then starveCycle s k else s) = _
  rw [hg, hf, hs]
  rfl

theorem coreOf_even (k : Nat) : coreOf (2 * k) = k := by unfold coreOf; omega

/-- R127: the primary is ready in a cycle of the guard when its next bundle takes part in the merge. -/
theorem isReady_guardStart {s : State} {k : Nat} (hf : coreFrozen s k = false) (hr : (me (prepared (guardStart s k))).reissue = none) :
    isReady (guardStart s k) (2 * k) = (mergeMask (prepared (guardStart s k))).isSome := by
  have hc : coreFrozen (guardStart s k) (coreOf (2 * k)) = false := by rw [coreOf_even]; exact hf
  have hq : ({ guardStart s k with cur := 2 * k } : State) = guardStart s k := rfl
  simp [isReady, readyMask, hc, hq, hr]

theorem mergeMask_held {t : State} {h : Hold} (hj : judge t = .held h) : mergeMask t = none := by simp [mergeMask, hj]

/-- R127: the guard has no cycle of a stream that is neither held nor ready. -/
theorem guardHolds_idle {s : State} (hr : (me (prepared s)).reissue = none) (hh : ∀ h, judge (prepared s) ≠ .held h)
    (hm : (mergeMask (prepared s)).isSome = false) : guardHolds s = s := by
  unfold guardHolds
  simp only [hr, hm, Bool.false_eq_true, if_false]

theorem guardHolds_reissue {s : State} {a : Word} {cm : BitVec 8} (hr : (me (prepared s)).reissue = some (a, cm)) :
    guardHolds s = if mayReissue (prepared s) then heldCycle (askSlots (prepared s) (reissuedSlots (prepared s) a cm)) guardHold else s := by
  simp [guardHolds, hr]

/-- Settles O45, step by step: each part of a cycle by its own equation, and the guard by what the primary of the cycle is: ready, held,
neither, or with slots to be reissued. -/
theorem partsOfACycle : Obligations.PartsOfACycle := by
  refine ⟨fun s q b m hf => ⟨fun hr ho hj hn => ?_, fun hr hj => ?_⟩, fun s => bundleSkip_leaves,
    fun s q a l rest hd hl ha hc hi ho => ?_, fun s q hd => ?_, fun s k hg hf => ?_, fun s q x h => ?_⟩
  · show Host.Outcome.next (withCur s q takeLandings) = _
    rw [withCur, takeLandings_issue (s := { s with cur := q }) hf hr ho hj hn]
  · show Host.Outcome.next (withCur s q takeSkip) = _
    rw [withCur, takeSkip_skips (s := { s with cur := q }) hf hr hj]
  · refine ⟨_, congrArg (fun x => Host.Outcome.next (setSeq s q x)) (takeExit_pops hd hl ha hc hi ho), ?_, rfl, rfl, rfl⟩
    simp [popLevel, hl]
  · show Host.Outcome.next (setSeq s q (takeTarget (seqAt s q))) = _
    simp [takeTarget, hd, settle]
  · refine ⟨fun hr hy => ?_, fun hr h hj => ?_, fun hr hj hn => ?_, fun a cm hr => ?_⟩
    · have hm : (mergeMask (prepared (guardStart s k))).isSome = true := (isReady_guardStart hf hr) ▸ hy
      exact starvationGuard_gives hg hf (guardHolds_ready hr (fun h hj => by simp [mergeMask_held hj] at hm) hm)
    · exact starvationGuard_gives hg hf (guardHolds_held hr hj)
    · exact starvationGuard_gives hg hf (guardHolds_idle hr hj ((isReady_guardStart hf hr) ▸ hn))
    · exact starvationGuard_gives hg hf (guardHolds_reissue hr)
  · obtain ⟨hpast, hfuture⟩ := timedStart_waiting h
    exact ⟨fun hx => congrArg Host.Outcome.next (hpast hx), fun hx => congrArg Host.Outcome.next (hfuture hx)⟩

end Sys2Proof.Machine

/-! One stream's tables: a write over a write, and what a stream's step leaves of the package. -/

namespace Sys2Proof.Machine

theorem tput_tput {α : Type} (t : Sparse α) (k : Nat) (x y : α) : tput (tput t k x) k y = tput t k y := by
  induction t with
  | nil => simp [tput]
  | cons p rest ih =>
    obtain ⟨j, v⟩ := p
    by_cases hlt : k < j
    · simp [tput, hlt]
    · by_cases heq : k = j
      · simp [tput, heq]
      · simp [tput, hlt, heq, ih]

@[simp] theorem setSeq_setSeq (s : State) (q : Nat) (x y : Seq) : setSeq (setSeq s q x) q y = setSeq s q y := by simp [setSeq, tput_tput]

@[simp] theorem setMe_setMe (s : State) (x y : Seq) : setMe (setMe s x) y = setMe s y := setSeq_setSeq ..

theorem sameOthers_setMe (s : State) (x : Seq) : sameOthers s.cur s (setMe s x) := fun _ hp => seqAt_setMe_ne s x hp

theorem sameOthers.trans {q : Nat} {s t u : State} (h : sameOthers q s t) (k : sameOthers q t u) : sameOthers q s u :=
  fun p hp => (k p hp).trans (h p hp)

/-! The stream before its bundle is judged (R50, R51, R310). -/

/-- R50, R310: b is a as it stands before its next bundle: its position, and what the end of a barrier wait clears. -/
def Settled (a b : Seq) : Prop :=
  b = { a with pc := b.pc, delayTarget := b.delayTarget, delayCount := b.delayCount, loops := b.loops, preds := b.preds, stage := b.stage,
               stageDue := b.stageDue, due := b.due, barriers := b.barriers, barWait := b.barWait }

theorem Settled.trans {a b c : Seq} (h : Settled a b) (k : Settled b c) : Settled a c := by
  unfold Settled at *
  rw [k, h]

theorem Repositioned.settled {a b : Seq} (h : Repositioned a b) : Settled a b := by
  unfold Settled
  rw [h]

theorem endBarWait_eq (s : State) (q : Nat) :
    endBarWait s q = s ∨ ∃ b, endBarWait s q = setSeq s q { seqAt s q with barriers := b, barWait := none } := by
  unfold endBarWait
  split
  · exact .inl rfl
  · dsimp only [clearArm]
    rw [setSeq_setSeq, seqAt_setSeq_same]
    exact .inr ⟨_, rfl⟩

theorem released_eq (s : State) : released s = s ∨ ∃ b, released s = setMe s { me s with barriers := b, barWait := none } := by
  unfold released
  split
  · exact endBarWait_eq s s.cur
  · exact .inl rfl

theorem captureHere_eq (s : State) : captureHere s = s ∨ ∃ l, captureHere s = setMe s { me s with loops := l } := by
  unfold captureHere
  dsimp only
  split
  · split
    · exact .inr ⟨_, rfl⟩
    · exact .inl rfl
  · exact .inl rfl

/-- A stream that is prepared for its next bundle is settled, and nothing else of the package has changed. -/
theorem prepared_eq (s : State) : ∃ x, prepared s = setMe s x ∧ Settled (me s) x := by
  have hs : Settled (me s) (settle (me s)) := (settle_repositioned _).settled
  obtain ⟨y, hr, hy⟩ : ∃ y, released (setMe s (settle (me s))) = setMe s y ∧ Settled (me s) y := by
    rcases released_eq (setMe s (settle (me s))) with h | ⟨b, h⟩
    · exact ⟨_, h, hs⟩
    · rw [me_setMe, setMe_setMe] at h
      exact ⟨_, h, hs.trans rfl⟩
  unfold prepared
  rw [hr]
  rcases captureHere_eq (setMe s y) with h | ⟨l, h⟩
  · exact ⟨y, h, hy⟩
  · rw [me_setMe, setMe_setMe] at h
    exact ⟨_, h, hy.trans rfl⟩

theorem me_prepared (s : State) : Settled (me s) (me (prepared s)) := by
  obtain ⟨x, h, hx⟩ := prepared_eq s
  rw [h, me_setMe]
  exact hx

@[simp] theorem prepared_cur (s : State) : (prepared s).cur = s.cur := by
  obtain ⟨x, h, -⟩ := prepared_eq s
  rw [h, setMe_cur]

@[simp] theorem prepared_cores (s : State) : (prepared s).cores = s.cores := by
  obtain ⟨x, h, -⟩ := prepared_eq s
  rw [h, setMe_cores]

@[simp] theorem prepared_mem (s : State) : (prepared s).mem = s.mem := by
  obtain ⟨x, h, -⟩ := prepared_eq s
  rw [h, setMe_mem]

@[simp] theorem prepared_ops (s : State) : (prepared s).ops = s.ops := by
  obtain ⟨x, h, -⟩ := prepared_eq s
  rw [h, setMe_ops]

theorem prepared_others (s : State) : sameOthers s.cur s (prepared s) := by
  obtain ⟨x, h, -⟩ := prepared_eq s
  rw [h]
  exact sameOthers_setMe s x

/-! A held cycle (R64, R207). -/

/-- R207: a count changes the counters of the running stream alone. -/
theorem countHeld_eq (s : State) (k : Nat) : countHeld s k = s ∨ ∃ c, countHeld s k = setMe s { me s with counters := c } := by
  unfold countHeld
  split
  · exact .inl rfl
  · exact .inr ⟨_, rfl⟩

theorem heldCycle_eq (s : State) (h : Hold) :
    ∃ w, heldCycle s h = { s with walks := w } ∨ ∃ c, heldCycle s h = setMe { s with walks := w } { me s with counters := c } :=
  ⟨_, countHeld_eq (requestWalks s (myDie s) (me s).asid h.vpns) h.cls⟩

theorem me_heldCycle (s : State) (h : Hold) : ∃ c, me (heldCycle s h) = { me s with counters := c } := by
  obtain ⟨w, e | ⟨c, e⟩⟩ := heldCycle_eq s h <;> rw [e]
  · exact ⟨_, rfl⟩
  · exact ⟨c, me_setMe ..⟩

@[simp] theorem heldCycle_cur (s : State) (h : Hold) : (heldCycle s h).cur = s.cur := by
  obtain ⟨w, e | ⟨c, e⟩⟩ := heldCycle_eq s h <;> rw [e]
  rfl

@[simp] theorem heldCycle_cores (s : State) (h : Hold) : (heldCycle s h).cores = s.cores := by
  obtain ⟨w, e | ⟨c, e⟩⟩ := heldCycle_eq s h <;> rw [e]
  rfl

@[simp] theorem heldCycle_mem (s : State) (h : Hold) : (heldCycle s h).mem = s.mem := by
  obtain ⟨w, e | ⟨c, e⟩⟩ := heldCycle_eq s h <;> rw [e]
  rfl

@[simp] theorem heldCycle_ops (s : State) (h : Hold) : (heldCycle s h).ops = s.ops := by
  obtain ⟨w, e | ⟨c, e⟩⟩ := heldCycle_eq s h <;> rw [e]
  rfl

theorem heldCycle_others (s : State) (h : Hold) : sameOthers s.cur s (heldCycle s h) := by
  obtain ⟨w, e | ⟨c, e⟩⟩ := heldCycle_eq s h <;> rw [e]
  · exact fun _ _ => rfl
  · exact sameOthers_setMe { s with walks := w } _

end Sys2Proof.Machine

/-! What the landings of a tick change of a stream (R53, R54). -/

namespace Sys2Proof.Machine

/-- R53: b is a after landings: the registers that results reach, the flags and the queue. -/
def LandedAs (a b : Seq) : Prop :=
  b = { a with regs := b.regs, latches := b.latches, preds := b.preds, queue := b.queue, views := b.views, shapes := b.shapes, scales := b.scales,
               cstat := b.cstat, regions := b.regions }

theorem LandedAs.trans {a b c : Seq} (h : LandedAs a b) (k : LandedAs b c) : LandedAs a c := by
  unfold LandedAs at *
  rw [k, h]

theorem landScalar_landed (sq : Seq) (r slot : Nat) (x : Word) (b : Bool) : LandedAs sq (landScalar sq r slot x b) := by
  unfold landScalar
  dsimp only
  split <;> rfl

theorem landSeq_landed (sq : Seq) (p : Pend) : LandedAs sq (landSeq sq p) := by
  unfold landSeq
  cases p.dest with
  | scalar r => exact LandedAs.trans (b := { sq with cstat := sq.cstat ||| p.flags, regions := sq.regions.map (landRegion p) }) rfl (landScalar_landed ..)
  | _ => rfl

theorem landList_landed (sq : Seq) (l : List Pend) : LandedAs sq (landList sq l) := by
  induction l generalizing sq with
  | nil => rfl
  | cons p l ih => exact (landSeq_landed sq p).trans (ih _)

theorem tickStart_landed (sq : Seq) (c : CoreState) : LandedAs sq (tickStart sq c).1 := by
  obtain ⟨ps, h⟩ := tickStart_lands sq c
  rw [h]
  have hl := landList_landed { sq with queue := stayingEntries sq.queue } (dueEntries sq.queue)
  have hq : LandedAs sq { sq with queue := stayingEntries sq.queue } := rfl
  exact (hq.trans hl).trans rfl

/-- R53: the landings change of the package the running stream and its core alone. -/
theorem landed_open {s : State} (h : (me s).tickOpen = false) :
    landed s = setMe (setMyCore s (tickStart (me s) (myCore s)).2) (tickStart (me s) (myCore s)).1 := by
  simp [landed, h]

end Sys2Proof.Machine

/-! The empty bundle (R14, R48, R53). -/

namespace Sys2Proof.Machine

/-- A bundle of eight empty slots. -/
def emptyBundle : Slots := List.replicate 8 none

theorem slotAt_emptyBundle (n : Nat) : slotAt emptyBundle n = none := by
  simp only [slotAt, emptyBundle, List.getElem?_replicate]
  by_cases h : n < 8 <;> simp [h]

theorem runSlots_empty {s : State} {c : IssueCtx} (hc : (me s).issue = some c) (hb : c.slots = emptyBundle) : runSlots s = s := by
  have h : ∀ l : List Nat, l.foldl runSlotAt s = s := by
    intro l
    induction l with
    | nil => rfl
    | cons n l ih => rw [List.foldl_cons, runSlotAt_empty hc (hb ▸ slotAt_emptyBundle n), ih]
  exact h _

/-- R69: the end of a tick in which no slot has faulted or left an effect. -/
theorem finishBundle_quiet {s : State} {c : IssueCtx} (hc : (me s).issue = some c) (he : c.ends = []) (hu : c.undone = [])
    (hl : (me s).landing = .none_) :
    finishBundle s true = setMe s (advance { me s with issue := none, waitGt := none, pinned := [] } c.addr) := by
  have hm : ∀ x : Seq, x.landing = .none_ → (me (setMe s x)).landing = .none_ := fun x hx => by rw [me_setMe, hx]
  have ha : (advance { me s with issue := none, waitGt := none, pinned := [] } c.addr).landing = .none_ := by
    rw [advance_repositioned]
    exact hl
  unfold finishBundle
  simp only [hc, he, hu, List.isEmpty_nil, if_true, List.filter_nil, List.foldl_nil, lowestFault, Bool.true_and,
    me_setMe, setMe_setMe]
  split
  · rw [landHere_goes (hm _ ha)]
  · rfl

theorem countIssue_eq (s : State) (m : BitVec 8) : countIssue s m = s ∨ ∃ c, countIssue s m = setMe s { me s with counters := c } := by
  unfold countIssue
  dsimp only
  split
  · exact .inl rfl
  · exact .inr ⟨_, rfl⟩

theorem sampleTick_off {s : State} (h : (dieAt s (myDie s)).trace.sen = false) (a : Word) (m : BitVec 8) : sampleTick s a m = s := by
  simp [sampleTick, h]

/-- The bundle of no instruction in issue: c says where it stands and what is left of it. -/
theorem withBundle_issue (v : State) (a : Word) (b : Slots) (m : BitVec 8) :
    ∃ r, withBundle v a b m = setMe v { me v with issue := some { addr := a, slots := b, rows := r, mask := m, undone := [], ends := [] } } := by
  unfold withBundle
  dsimp only
  rw [setMe_setMe, me_setMe]
  exact ⟨_, rfl⟩

/-- R207: a counted bundle changes of its stream the counters alone. -/
theorem countIssue_setMe (s : State) (x : Seq) (m : BitVec 8) : ∃ c, countIssue (setMe s x) m = setMe s { x with counters := c } := by
  rcases countIssue_eq (setMe s x) m with h | ⟨c, h⟩
  · exact ⟨x.counters, h⟩
  · exact ⟨c, by rw [h, setMe_setMe, me_setMe]⟩

/-- The bundle of no instruction in issue at an address, with rows w. -/
def emptyIssue (a : Word) (w : Nat × Nat × Nat) (m : BitVec 8) : IssueCtx :=
  { addr := a, slots := emptyBundle, rows := w, mask := m, undone := [], ends := [] }

/-- The stream r, its landings taken, in the tick that it begins. -/
def inTick (r : Seq) (n : Vector (BitVec 48) 126) (c : Option IssueCtx) : Seq :=
  { r with ticks := r.ticks + 1, tickOpen := false, stageDue := false, counters := n, issue := c }

theorem issueTick_begins {s u : State} {r : Seq} (hland : landed (passFetch s (me s).pc) = setMe u r) (hs : (dieAt u (myDie u)).trace.sen = false)
    (m : BitVec 8) : ∃ n w, issueTick s emptyBundle m = finishBundle (runSlots (setMe u (inTick r n (some (emptyIssue r.pc w m))))) true := by
  have hsen : ∀ x, (dieAt (setMe u x) (myDie (setMe u x))).trace.sen = false := fun _ => hs
  obtain ⟨n, hn⟩ := countIssue_setMe u { r with ticks := r.ticks + 1, tickOpen := false, stageDue := false } m
  obtain ⟨w, hw⟩ := withBundle_issue (setMe u { r with ticks := r.ticks + 1, counters := n, tickOpen := false, stageDue := false }) r.pc emptyBundle m
  rw [me_setMe, setMe_setMe] at hw
  refine ⟨n, w, ?_⟩
  unfold issueTick
  dsimp only
  rw [hland, me_setMe, setMe_setMe, hn, sampleTick_off (hsen _), hw]
  rfl

/-- R48, R53, R69: the tick of a bundle of no instruction takes the landings, counts, and moves the position to the next bundle. -/
theorem issueTick_empty {s : State} (hd : (me s).delayCount = 0) (hb : atBoundary (me s) (me s).pc = false)
    (hs : (dieAt s (myDie s)).trace.sen = false) (hl : (me s).landing = .none_) (ho : (me s).tickOpen = false) (m : BitVec 8) :
    ∃ sl c n, issueTick s emptyBundle m = setMe (setMyCore { s with slices := sl } c)
      { inTick (tickStart (me s) (myCore s)).1 n none with pc := (me s).pc + 32, waitGt := none, pinned := [] } := by
  obtain ⟨sl, hf⟩ := passFetch_slices s (me s).pc
  have hr := tickStart_landed (me s) (myCore s)
  have hland : landed (passFetch s (me s).pc) = setMe (setMyCore { s with slices := sl } (tickStart (me s) (myCore s)).2)
      (tickStart (me s) (myCore s)).1 := by
    rw [hf]
    exact landed_open (s := { s with slices := sl }) ho
  obtain ⟨n, w, hi⟩ := issueTick_begins hland hs m
  refine ⟨sl, (tickStart (me s) (myCore s)).2, n, hi.trans ?_⟩
  generalize (tickStart (me s) (myCore s)).1 = r at hr ⊢
  have hd' : r.delayCount = 0 := by rw [hr]; exact hd
  have hb' : atBoundary r r.pc = false := by rw [hr]; exact hb
  have hl' : r.landing = .none_ := by rw [hr]; exact hl
  have hp : r.pc = (me s).pc := by rw [hr]
  rw [runSlots_empty (by rw [me_setMe]; rfl) rfl, finishBundle_quiet (by rw [me_setMe]; rfl) rfl rfl (by rw [me_setMe]; exact hl'), me_setMe,
    setMe_setMe, ← hp]
  exact congrArg _ (advance_next hd' hb')

theorem issueTick_empty_leaves {s : State} (hd : (me s).delayCount = 0) (hb : atBoundary (me s) (me s).pc = false)
    (hs : (dieAt s (myDie s)).trace.sen = false) (hl : (me s).landing = .none_) (ho : (me s).tickOpen = false) (m : BitVec 8) :
    (me (issueTick s emptyBundle m)).pc = (me s).pc + 32 ∧ (me (issueTick s emptyBundle m)).ticks = (me s).ticks + 1 ∧
      (me (issueTick s emptyBundle m)).queue = (tickStart (me s) (myCore s)).1.queue ∧
      (me (issueTick s emptyBundle m)).regs = (tickStart (me s) (myCore s)).1.regs ∧ (issueTick s emptyBundle m).mem = s.mem ∧
      (issueTick s emptyBundle m).ops = s.ops ∧ sameOthers s.cur s (issueTick s emptyBundle m) := by
  obtain ⟨sl, c, n, he⟩ := issueTick_empty hd hb hs hl ho m
  have ht : (tickStart (me s) (myCore s)).1.ticks = (me s).ticks := by rw [tickStart_landed]
  rw [he, me_setMe]
  exact ⟨rfl, congrArg (· + 1) ht, rfl, rfl, rfl, rfl, fun p hp => seqAt_setMe_ne (setMyCore { s with slices := sl } c) _ hp⟩

end Sys2Proof.Machine

/-! BUNDLE_ISSUE (R127): the cycle of a primary and of a secondary. -/

namespace Sys2Proof.Machine

theorem bundleIssue_cycle {s : State} {q : Nat} (hr : (seqAt s q).resumeAsked = none) (hd : (seqAt s q).faultDue = none) :
    exec (.bundleIssue q) s = .next (bundleCycle s q) := by
  show Host.Outcome.next (if (seqAt s q).faultDue.isSome || (seqAt s q).resumeAsked.isSome then takeDue s q else bundleCycle s q) = _
  simp [hr, hd]

@[simp] theorem withCur_cur (s : State) (q : Nat) (f : State → State) : (withCur s q f).cur = s.cur := rfl

theorem secondaryIssues_cur (s : State) (k : Nat) : (secondaryIssues s k).cur = s.cur := by rw [secondaryIssues, withCur_cur, setCore_cur]

theorem starveCycle_cur (s : State) (k : Nat) : (starveCycle s k).cur = s.cur := by rw [starveCycle, secondaryIssues_cur, withCur_cur, setCore_cur]

theorem secondaryCollides_cur (s : State) (k n : Nat) : (secondaryCollides s k n).cur = s.cur := by
  rw [secondaryCollides, withCur_cur, setCore_cur]

theorem closeCycle_cur (s : State) (k : Nat) : (closeCycle s k).cur = s.cur := by
  unfold closeCycle secondaryJoins
  split
  · split
    · exact secondaryCollides_cur ..
    · exact secondaryIssues_cur ..
  · split
    · split
      · exact starveCycle_cur ..
      · exact secondaryIssues_cur ..
    · rfl
  · rfl
  · rfl

/-- A running stream whose next bundle is judged to issue. -/
theorem streamCycle_issue {s : State} {b : Slots} {m : BitVec 8} (hr : (me (prepared s)).reissue = none) (hs : (me s).status = .running)
    (hj : judge (prepared s) = .issue b m) : streamCycle s = issueTick (prepared s) b m := by
  simp [streamCycle, hr, hs, hj, carryOut]

theorem takenSlots_issue {t : State} {b : Slots} {m : BitVec 8} (hr : (me t).reissue = none) (hs : (me t).status = .running)
    (hj : judge t = .issue b m) : takenSlots t = some (occMask b) := by
  simp [takenSlots, hr, hs, hj]

theorem primaryCycle_issue {s : State} {b : Slots} {m : BitVec 8} (hr : (me (prepared s)).reissue = none) (hs : (me (prepared s)).status = .running)
    (hj : judge (prepared s) = .issue b m) :
    let t := prepared (setCore (prepared s) (coreOf s.cur) { coreAt (prepared s) (coreOf s.cur) with primaryMask := some (occMask b) })
    (me t).reissue = none → judge t = .issue b m → primaryCycle s = issueTick t b m := by
  intro t htr htj
  unfold primaryCycle
  simp only [takenSlots_issue hr hs hj]
  exact streamCycle_issue htr hs htj

theorem lowestCollision_none {a b : BitVec 8} (h : a &&& b = 0) : lowestCollision a b = none := by
  simp [lowestCollision, h]

theorem lowestCollision_first {a b : BitVec 8} {n : Nat} (hn : n < 8) (hb : (a &&& b).getLsbD n = true) (hl : ∀ j < n, (a &&& b).getLsbD j = false) :
    lowestCollision a b = some n := by
  rw [lowestCollision, List.find?_range_eq_some]
  exact ⟨hb, List.mem_range.mpr hn, fun j hj => by simp [hl j hj]⟩

/-- R127: a cycle of the secondary beside a primary that has issued in it. -/
theorem bundleCycle_secondary {s : State} {k : Nat} {own mask : BitVec 8} (hf : coreFrozen s k = false) (ho : readyMask s (2 * k + 1) = some own)
    (hm : (coreAt s k).primaryMask = some mask) : bundleCycle s (2 * k + 1) = secondaryJoins s k mask own := by
  have hk : coreOf (2 * k + 1) = k := by unfold coreOf; omega
  have hodd : (2 * k + 1) % 2 = 1 := by omega
  simp [bundleCycle, hk, hf, hodd, secondaryCycle, ho, hm]

/-- R127: a secondary that is held for a collision issues no tick, and W counts. -/
theorem secondaryCollides_leaves (s : State) (k n : Nat) : (seqAt (secondaryCollides s k n) (2 * k + 1)).ticks = (seqAt s (2 * k + 1)).ticks ∧
    (coreAt (secondaryCollides s k n) k).wait = min 64 ((coreAt s k).wait + 1) := by
  generalize hv : ({ setCore s k { coreAt s k with primaryMask := none, wait := min 64 ((coreAt s k).wait + 1) } with cur := 2 * k + 1 } : State) = v
  generalize hh : ({ rank := 1, cls := classOfSlot n, vpns := [] } : Hold) = h
  have e : secondaryCollides s k n = { heldCycle (prepared v) h with cur := s.cur } := by rw [← hv, ← hh]; rfl
  have hcur : (heldCycle (prepared v) h).cur = 2 * k + 1 := by rw [heldCycle_cur, prepared_cur, ← hv]
  have hme : seqAt (secondaryCollides s k n) (2 * k + 1) = me (heldCycle (prepared v) h) := by rw [e, me, hcur]; rfl
  obtain ⟨c, hc⟩ := me_heldCycle (prepared v) h
  constructor
  · rw [hme, hc, me_prepared v, ← hv]
    rfl
  · rw [e]
    show (tget CoreState.reset (heldCycle (prepared v) h).cores k).wait = _
    rw [heldCycle_cores, prepared_cores, ← hv]
    simp

/-- Settles O44: the primary by the equation of its cycle, the secondary by whether one of its slots meets the mask of the core, and a bundle of
empty slots by what a tick of no slot leaves. -/
theorem bundleIssueIsATick : Obligations.BundleIssueIsATick := by
  refine ⟨fun s q b m mask own hf hr hd => ⟨fun he hg hj hre htj htr hs => ?_, fun ho hq hown hmask => ?_⟩, fun s hd hb hs hl ho _ => ?_⟩
  · rw [bundleIssue_cycle hr hd]
    have hodd : ¬ q % 2 = 1 := by omega
    simp only [bundleCycle, hf, Bool.false_eq_true, if_false, hodd, hg]
    rw [withCur, closeCycle_cur, primaryCycle_issue (s := { closeCycle s (coreOf q) with cur := q }) hre hs hj htr htj]
  · rw [bundleIssue_cycle hr hd]
    generalize coreOf q = k at hf hq hmask ⊢
    subst hq
    rw [bundleCycle_secondary hf hown hmask]
    refine ⟨fun h0 hj hre hs => ?_, fun n hn hb hlow => ⟨?_, ?_⟩⟩
    · simp only [secondaryJoins, lowestCollision_none h0, secondaryIssues, withCur]
      rw [streamCycle_issue hre hs hj]
      rfl
    · simp only [secondaryJoins, lowestCollision_first hn hb hlow]
    · exact secondaryCollides_leaves s k n
  · exact issueTick_empty_leaves hd hb hs hl ho 0

end Sys2Proof.Machine
/-! O43. -/

namespace Sys2Proof.Machine

/-- A retire of sequencer 1 listed with the number 0, which a state of reset gives to its next operation. -/
def strayOp : Op :=
  { id := 0, seq := 1, slot := 5, baddr := 0, tick := 0, region := 0, idx := [], asid := 0, rcls := none, wcls := none, wtiles := [], pins := [],
    phase := .queued, flags := 0, result := [], kind := .retire 0 View.reset false }

/-- A SEND whose operand, the constant 0xFFFF_FFFF, has reserved bits set: it is denied (R271). -/
def deniedSend : Instr := .send 0 46 0 40 false

/-- The bundle of that SEND, in issue. -/
def sendBundle : IssueCtx :=
  { addr := 0, slots := [none, none, none, none, none, some deniedSend, none, none], rows := (0, 0, 0), mask := 0x20, undone := [], ends := [] }

/-- Sequencer 0 with that bundle in issue, beside an operation that has the number of the next one. No step numbers operations so, but O43 speaks of
every state. -/
def straySend : State :=
  { State.reset with seqs := [(0, { Seq.reset with status := .running, issue := some sendBundle })], ops := [strayOp] }

theorem straySend_answers : ∃ t, exec deniedSend straySend = .next t ∧ (seqAt t 1).reports.length = 1 := by
  have h : (match exec deniedSend straySend with
      | .next t => (seqAt t 1).reports.length
      | _ => 0) = 1 := by decide +kernel
  cases ht : exec deniedSend straySend with
  | next t => exact ⟨t, rfl, by simpa [ht] using h⟩
  | _ => simp [ht] at h

theorem straySend_ringsOnly : ringsOnly straySend := by
  have h30 : mapOf (me straySend) false = none := by decide +kernel
  have h31 : mapOf (me straySend) true = none := by decide +kernel
  intro hi m hm
  cases hi with
  | false => simp [h30] at hm
  | true => simp [h31] at hm

/-- Refutes O43: a denied SEND fails the operation that is found under the number of its own, and that may be an operation of another sequencer, which
then gets the report: where an operation in flight has the number of the next one (`straySend`), the sequencer 1 does not stand. -/
theorem not_frameInABundle : ¬ Obligations.FrameInABundle := by
  unfold Obligations.FrameInABundle
  intro h
  obtain ⟨t, ht, hr⟩ := straySend_answers
  have hc : (me straySend).issue = some sendBundle := by decide +kernel
  obtain ⟨_, ho, _⟩ := h deniedSend straySend t .m sendBundle (by decide) (by decide) hc straySend_ringsOnly ht
  have h1 : seqAt t 1 = seqAt straySend 1 := ho 1 (by decide +kernel)
  have h0 : (seqAt straySend 1).reports.length = 0 := by decide +kernel
  rw [h1, h0] at hr
  exact absurd hr (by decide)

end Sys2Proof.Machine
/-! O50: what an atomic computes. -/

namespace Sys2Proof.Machine

/-- The code of a BF16 result has 16 bits. -/
theorem roundTo_bf16_lt (m : RMode) (v : Val) : (roundTo 2 m v).1 < 2 ^ 16 := by
  have sign : ∀ neg, signBit 2 neg ≤ 2 ^ 15 := by decide
  have inf : fmtInfCode 2 < 2 ^ 15 := by decide
  have max : fmtMaxCode 2 < 2 ^ 15 := by decide
  cases v with
  | nan s => exact show fmtNan 2 < 2 ^ 16 by decide
  | inf neg =>
    have := sign neg
    simp only [roundTo, infOut]
    split <;> dsimp only <;> omega
  | fin neg n e =>
    have := sign neg
    simp only [roundTo, roundFin, overOut]
    split
    · dsimp only; omega
    · split
      · dsimp only; split <;> omega
      · rename_i h
        simp only [Bool.or_eq_true, decide_eq_true_eq, not_or] at h
        dsimp only; omega

/-- R268: the half of a word that a halfword addition leaves. -/
def halfSum (m : BitVec 2) (a b : Word) (k : Nat) : Nat × Flags :=
  roundTo 2 m (addVal m (decodeFloat 2 (a.toNat / 2 ^ (16 * k) % 2 ^ 16)) (decodeFloat 2 (b.toNat / 2 ^ (16 * k) % 2 ^ 16)))

theorem atomicNew_faddh (a b c : Word) (m : BitVec 2) : atomicNew .faddh a b c m =
    (BitVec.ofNat 32 ((halfSum m a b 1).1 * 2 ^ 16 + (halfSum m a b 0).1), (halfSum m a b 0).2 ||| (halfSum m a b 1).2) := rfl

theorem atomicNew_faddh_half (a b c : Word) (m : BitVec 2) {k : Nat} (hk : k < 2) :
    (atomicNew .faddh a b c m).1.toNat / 2 ^ (16 * k) % 2 ^ 16 = (halfSum m a b k).1 := by
  have h0 : (halfSum m a b 0).1 < 2 ^ 16 := roundTo_bf16_lt ..
  have h1 : (halfSum m a b 1).1 < 2 ^ 16 := roundTo_bf16_lt ..
  rw [atomicNew_faddh, BitVec.toNat_ofNat]
  obtain rfl | rfl : k = 0 ∨ k = 1 := by omega
  · omega
  · omega

/-- Only the floating atomics raise flags. -/
theorem atomicNew_noFlags {op : AtomicOp} (a b c : Word) (m : BitVec 2) (h : op ≠ .fadd) (hh : op ≠ .faddh) : (atomicNew op a b c m).2 = 0 := by
  cases op with
  | fadd => exact absurd rfl h
  | faddh => exact absurd rfl hh
  | _ => rfl

theorem toInt_ite_slt_min (a b : Word) : (if b.slt a then b else a).toInt = min a.toInt b.toInt := by
  rw [BitVec.slt_eq_decide]
  by_cases h : b.toInt < a.toInt
  · simp [h, Int.min_eq_right (Int.le_of_lt h)]
  · simp [h, Int.min_eq_left (Int.not_lt.mp h)]

theorem toInt_ite_slt_max (a b : Word) : (if a.slt b then b else a).toInt = max a.toInt b.toInt := by
  rw [BitVec.slt_eq_decide]
  by_cases h : a.toInt < b.toInt
  · simp [h, Int.max_eq_right (Int.le_of_lt h)]
  · simp [h, Int.max_eq_left (Int.not_lt.mp h)]

theorem toNat_ite_ult_min (a b : Word) : (if b.ult a then b else a).toNat = min a.toNat b.toNat := by
  rw [BitVec.ult_eq_decide]
  by_cases h : b.toNat < a.toNat
  · simp [h, Nat.min_eq_right (Nat.le_of_lt h)]
  · simp [h, Nat.min_eq_left (Nat.not_lt.mp h)]

theorem toNat_ite_ult_max (a b : Word) : (if a.ult b then b else a).toNat = max a.toNat b.toNat := by
  rw [BitVec.ult_eq_decide]
  by_cases h : a.toNat < b.toNat
  · simp [h, Nat.max_eq_right (Nat.le_of_lt h)]
  · simp [h, Nat.max_eq_left (Nat.not_lt.mp h)]

/-- The first part of O50. -/
theorem atomicNew_values (a b c : Word) (m : BitVec 2) :
    (atomicNew .add a b c m).1 = a + b ∧ (atomicNew .smin a b c m).1.toInt = min a.toInt b.toInt ∧ (atomicNew .smax a b c m).1.toInt = max a.toInt b.toInt ∧
    (atomicNew .umin a b c m).1.toNat = min a.toNat b.toNat ∧ (atomicNew .umax a b c m).1.toNat = max a.toNat b.toNat ∧
    (atomicNew .and a b c m).1 = a &&& b ∧ (atomicNew .or a b c m).1 = a ||| b ∧ (atomicNew .xor a b c m).1 = a ^^^ b ∧ (atomicNew .xchg a b c m).1 = b ∧
    (atomicNew .cas a b c m).1 = (if a = b then c else a) ∧ (atomicNew .incb a b c m).1 = (if a.toNat < b.toNat then a + 1 else a) :=
  ⟨rfl, toInt_ite_slt_min a b, toInt_ite_slt_max a b, toNat_ite_ult_min a b, toNat_ite_ult_max a b, rfl, rfl, rfl, rfl, rfl, by simp [atomicNew, BitVec.ult_eq_decide]⟩

end Sys2Proof.Machine
/-! O50: an operation that its engine moves. -/

namespace Sys2Proof.Machine

/-- A state whose sequencers are those of another agrees with it on what a completion says. -/
theorem completes_of_seqs {s t u : State} {o : Op} {fl : Flags} (h : t.seqs = s.seqs) (hc : completes t u o fl) : completes s u o fl := by
  simpa only [completes, sameOthers, seqAt, h] using hc

theorem seqAt_pruneFences (s : State) (q : Nat) : ∃ l, seqAt (pruneFences s q) q = { seqAt s q with fences := l } := by
  obtain ⟨l, e | e⟩ := pruneFences_eq s q <;> rw [e]
  · exact ⟨_, rfl⟩
  · exact ⟨l, seqAt_setSeq_same ..⟩

/-- What a completion leaves of its strand: all but CSTAT and the fences. -/
theorem seqAt_completeOp (s : State) (o : Op) :
    ∃ l, seqAt (completeOp s o) o.seq = { seqAt s o.seq with cstat := (seqAt s o.seq).cstat ||| o.flags, fences := l } := by
  have h : ∀ t, seqAt t o.seq = { seqAt s o.seq with cstat := (seqAt s o.seq).cstat ||| o.flags } →
      ∃ l, seqAt (pruneFences t o.seq) o.seq = { seqAt s o.seq with cstat := (seqAt s o.seq).cstat ||| o.flags, fences := l } := by
    intro t ht
    obtain ⟨l, e⟩ := seqAt_pruneFences t o.seq
    exact ⟨l, by rw [e, ht]⟩
  unfold completeOp
  dsimp only
  split
  · exact h _ (tget_tput_same ..)
  · exact h _ (tget_tput_same ..)

/-- An engine that fails the operation of a strand which goes on reports it, and changes no core and no byte. -/
theorem failOp_reports {s : State} {o : Op} (cause engine cqn : Nat) (aux0 : BitVec 64) (aux1 : Word) (ho : opAt s o.id = some o)
    (he : (seqAt s o.seq).endPending = false) (hu : (seqAt s o.seq).unwind = none) :
    let u := failOp s o cause engine cqn aux0 aux1
    reported s u o cause engine cqn aux1 ∧ u.cores = s.cores ∧ u.mem = s.mem ∧ (seqAt u o.seq).endPending = false := by
  have hd : ∀ q, seqAt (dropFailures s (dieOf o.seq) o.asid) q = seqAt s q := fun _ => rfl
  simp only [failOp, hd, he, hu, Bool.false_and, Bool.or_false, Bool.false_eq_true, if_false]
  have hs : ∀ (t : State) (x : Seq) (p : Op), seqAt (setOp (setSeq t o.seq x) p) o.seq = x := fun t x p => tget_tput_same ..
  exact ⟨⟨opAt_setOp (s := setSeq _ _ _) (p := { o with phase := .failed }) ho rfl, _, congrArg Seq.reports (hs ..), rfl, rfl, rfl, rfl, rfl, rfl, rfl, rfl⟩,
    rfl, rfl, congrArg Seq.endPending (hs ..)⟩

/-! Atomics at a place. -/

/-- The addresses of an atomic reach a word at a location, and nothing holds them back. -/
def Reaches (s : State) (o : Op) (vas : List Nat) (loc : Nat) : Prop :=
  reach s o.id (dieOf o.seq) o.asid true vas = .ok ∧ bankHeld s (dieOf o.seq) o.asid vas = false ∧
    xlateLate s (dieOf o.seq) o.asid (vas.headD 0) true = .at_ loc ∧ forwardsAhead s (dieOf o.seq) loc = false

theorem reachPages_of_reach {s : State} {op die asid : Nat} {wr : Bool} {vas : List Nat} (h : reach s op die asid wr vas = .ok) :
    reachPages s die asid wr vas = .ok := by
  unfold reach at h
  split at h
  · cases h
  · cases h
  · split at h
    · cases h
    · exact h

/-- An atomic but ALD and AST, at a word with no write ahead: the word changes at its home, the old one is the result. -/
theorem atomicAt_word {s : State} {o : Op} {op : AtomicOp} (x y : Word) (sc : Nat) (mode : BitVec 2) {loc : Nat} (hl : op ≠ .load) (hs : op ≠ .store)
    (hf : forwardsAhead s (dieOf o.seq) loc = false) :
    atomicAt s o op x y sc mode loc = some ({ forwardLine s loc with
      mem := memPutBytes s.mem loc (leBytes 4 (atomicNew op (wordAtLoc s loc) x y mode).1.toNat) }, wordAtLoc s loc, (atomicNew op (wordAtLoc s loc) x y mode).2) := by
  cases op with
  | load => exact absurd rfl hl
  | store => exact absurd rfl hs
  | _ => simp only [atomicAt, hf, Bool.false_eq_true, if_false]

/-- A word lies on the die of its first and last byte. -/
theorem homeDie_word {loc d j : Nat} (h0 : homeDie loc = some d) (h3 : homeDie (loc + 3) = some d) (hj : j < 4) : homeDie (loc + j) = some d := by
  simp only [homeDie] at *
  have h : (loc + j) / 2 ^ 48 = loc / 2 ^ 48 ∨ (loc + j) / 2 ^ 48 = (loc + 3) / 2 ^ 48 := by omega
  obtain h | h := h
  · rw [h]; exact h0
  · rw [h]; exact h3

/-- A die reads its own word as it stands in memory. -/
theorem readByte_word {s : State} {die loc : Nat} (sc : Nat) (h0 : homeDie loc = some die) (h3 : homeDie (loc + 3) = some die) :
    (List.range 4).map (fun j => readByte s die sc (loc + j)) = memBytes s.mem loc 4 := by
  have h : ∀ j < 4, readByte s die sc (loc + j) = memByte s.mem (loc + j) := by
    intro j hj
    simp [readByte, homeDie_word h0 h3 hj]
  exact (List.map_congr_left fun j hj => h j (List.mem_range.mp hj)).trans rfl

/-- ALD of a word of its die: the word is the result, and only the slice's forwarding buffer changes. -/
theorem atomicAt_load {s : State} {o : Op} (x y : Word) (sc : Nat) (mode : BitVec 2) {loc : Nat} (hf : forwardsAhead s (dieOf o.seq) loc = false)
    (h0 : homeDie loc = some (dieOf o.seq)) (h3 : homeDie (loc + 3) = some (dieOf o.seq)) :
    atomicAt s o .load x y sc mode loc = some (passLine s loc (uncachedLine s loc), wordAtLoc s loc, 0) := by
  simp only [atomicAt, hf, Bool.and_false, Bool.false_eq_true, if_false, readByte_word sc h0 h3]
  rfl

theorem rowByte_setWidth (x : Word) (j : Nat) : rowByte (x.setWidth 2048) j = BitVec.ofNat 8 (x.toNat / 256 ^ j) := by
  apply BitVec.eq_of_toNat_eq
  have h : 2 ^ (8 * j) = 256 ^ j := Nat.pow_mul 2 8 j
  have hx : (x.setWidth 2048).toNat = x.toNat := BitVec.toNat_setWidth_of_le (by decide)
  rw [rowByte, rowField, BitVec.extractLsb'_toNat, hx, Nat.shiftRight_eq_div_pow, h, BitVec.toNat_ofNat]

/-- Cells that are all on the writing die are written there at once. -/
theorem writeCells_here {s : State} {die op : Nat} {l : List Host.Cell} (h : ∀ c ∈ l, homeDie c.1 = some die) :
    ∃ sl, writeCells s die op l = { s with mem := memPutCells s.mem l, slices := sl } := by
  have hh : l.filter (fun c => homeDie c.1 == some die) = l := by
    rw [List.filter_eq_self]
    intro c hc
    simp [h c hc]
  have ha : forwardsOf op die s.nextOp l = [] := by
    have : l.filter (fun c => homeDie c.1 != some die && decide (c.1 < location 48 0)) = [] := by
      rw [List.filter_eq_nil_iff]
      intro c hc
      simp [h c hc]
    simp only [forwardsOf, this]
  refine ⟨passedUncached s (l.map Prod.fst), ?_⟩
  simp only [writeCells, hh, ha, List.append_nil, List.length_nil, Nat.add_zero]

/-- The four cells of a word. -/
def wordCells (loc : Nat) (x : Word) : List Host.Cell := (List.range 4).map (fun j => (loc + j, rowByte (x.setWidth 2048) j))

theorem memPutCells_word (m : List Host.Cell) (loc : Nat) (x : Word) : memPutCells m (wordCells loc x) = memPutBytes m loc (leBytes 4 x.toNat) := by
  have h : wordCells loc x = [(loc, rowByte (x.setWidth 2048) 0), (loc + 1, rowByte (x.setWidth 2048) 1), (loc + 2, rowByte (x.setWidth 2048) 2),
    (loc + 3, rowByte (x.setWidth 2048) 3)] := rfl
  simp [h, rowByte_setWidth, memPutCells, memPutBytes, leBytes, Nat.div_div_eq_div_mul, Nat.add_assoc]

/-- AST of a word of its die writes the word there. -/
theorem atomicAt_store {s : State} {o : Op} (x y : Word) (sc : Nat) (mode : BitVec 2) {loc : Nat}
    (h0 : homeDie loc = some (dieOf o.seq)) (h3 : homeDie (loc + 3) = some (dieOf o.seq)) :
    ∃ sl, atomicAt s o .store x y sc mode loc = some ({ s with mem := memPutBytes s.mem loc (leBytes 4 x.toNat), slices := sl }, 0, 0) := by
  have hc : ∀ c ∈ wordCells loc x, homeDie c.1 = some (dieOf o.seq) := by
    intro c hc
    simp only [wordCells, List.mem_map, List.mem_range] at hc
    obtain ⟨j, hj, rfl⟩ := hc
    exact homeDie_word h0 h3 hj
  have hw : ∀ t : State, t.mem = s.mem → ∃ sl, writeCells t (dieOf o.seq) o.id (wordCells loc x) =
      { t with mem := memPutBytes s.mem loc (leBytes 4 x.toNat), slices := sl } := by
    intro t ht
    rw [← ht, ← memPutCells_word]
    exact writeCells_here hc
  by_cases hb : homeDie loc = some (dieOf o.seq) ∧ uncachedLine s loc = false
  · obtain ⟨sl, e⟩ := hw (forwardLine s loc) rfl
    refine ⟨sl, ?_⟩
    simp only [atomicAt, if_pos hb]
    exact congrArg (fun t => some (t, (0 : Word), (0 : Flags))) e
  · obtain ⟨sl, e⟩ := hw s rfl
    refine ⟨sl, ?_⟩
    simp only [atomicAt, if_neg hb]
    exact congrArg (fun t => some (t, (0 : Word), (0 : Flags))) e

/-- An atomic that has performed with its old value. -/
def withOld (o : Op) (old : Word) (fl : Flags) : Op := { o with phase := .performed, flags := fl, result := [old.setWidth 2048], pins := [] }

theorem atomicDone_waits {s : State} {o : Op} {op : AtomicOp} (old : Word) (fl : Flags) (h : op ≠ .store) :
    atomicDone s o op old fl = setOp s (withOld o old fl) := if_neg h

theorem atomicDone_store {s : State} {o : Op} (old : Word) (fl : Flags) : atomicDone s o .store old fl = opDone s (withOld o old fl) := rfl

/-- An atomic whose word is reached does at the word what atomicAt says. -/
theorem performAtomic_at {s t : State} {o : Op} {op : AtomicOp} {x y : Word} {i : Nat} {v : View} {sc mode : BitVec 2} {loc : Nat} {old : Word} {fl : Flags}
    (h : Reaches s o (addrsOf s o.asid v ((List.range 4).map (fun j => 4 * i + j))) loc)
    (ha : atomicAt s o op x y (sc.toNat + 1) mode loc = some (t, old, fl)) :
    performAtomic s o op x y i v sc mode = atomicDone t o op old fl := by
  obtain ⟨hr, hb, hx, -⟩ := h
  simp only [performAtomic, hr, hb, hx, ha, Bool.false_eq_true, if_false]

/-- An element of an ARED whose word is reached does at the word what atomicAt says of an addition. -/
theorem performAred_at {s t : State} {o : Op} {tile : List Row} {first k loc : Nat} {v : View} {mode : BitVec 2} {left : List Nat} {old : Word} {fl : Flags}
    (hin : k ∈ left) (h : Reaches s o (addrsOf s o.asid v ((List.range 4).map (fun j => (first + k / 64) * 256 + 4 * (k % 64) + j))) loc)
    (ha : atomicAt s o .fadd (BitVec.ofNat 32 (elemAt 0 (tile.getD (k / 64) 0) (k % 64))) 0 1 mode loc = some (t, old, fl)) :
    performAred s o k tile first v mode left = aredDone t o (left.filter (fun j => j != k)) fl := by
  obtain ⟨hr, hb, hx, -⟩ := h
  have hne : left.isEmpty = false := List.isEmpty_eq_false_iff.mpr (List.ne_nil_of_mem hin)
  simp only [performAred, hne, reachPages_of_reach hr, hb, hx, ha, List.contains_iff_mem.mpr hin, Bool.not_true, Bool.false_eq_true, if_false]

section
variable {s : State} {o : Op} (hm : mayAct s o) (hq : o.phase = .queued) (hp : mayPerform s o = true)
include hm hq hp

/-- ATOMIC_BANK_OPERATION of an atomic that reaches no register. -/
theorem atomicStep_atomic {op : AtomicOp} {d : BitVec 6} {x y : Word} {i : Nat} {v : View} {ord sc mode : BitVec 2} (e : Nat)
    (hk : o.kind = .atomic op d x y i v ord sc mode) (hn : registerPlace s o i v = none)
    (he : (seqAt (performAtomic s o op x y i v sc mode) o.seq).endPending = false) :
    exec (.atomicBankOperation o.id e) s = .next (performAtomic s o op x y i v sc mode) := by
  show Host.Outcome.next (atomicStep s o.id e) = _
  simp only [atomicStep, hm.1, hk, hn, bankOperates]
  rw [onOp_acts hm (mayMove_acts hm hq hp) (by simpa only [hk] using he)]
  simp only [hk]

/-- ATOMIC_BANK_OPERATION of an ALD on a register (R361). -/
theorem atomicStep_register {d : BitVec 6} {x y : Word} {i : Nat} {v : View} {ord sc mode : BitVec 2} {r a : Nat} (e : Nat)
    (hk : o.kind = .atomic .load d x y i v ord sc mode) (hr : registerPlace s o i v = some (r, a)) :
    exec (.atomicBankOperation o.id e) s = .next (setOp s (withOld o (readWord s r a) 0)) := by
  show Host.Outcome.next (atomicStep s o.id e) = _
  simp only [atomicStep, hm.1, hk, hr]
  rw [onOp_acts hm (mayMove_acts hm hq hp)]
  · rfl
  · exact hm.2.2

/-- ATOMIC_BANK_OPERATION of an element of an ARED. -/
theorem atomicStep_ared {tile : List Row} {first k : Nat} {v : View} {mode : BitVec 2} {left : List Nat} (hk : o.kind = .ared tile first v mode left)
    (he : (seqAt (performAred s o k tile first v mode left) o.seq).endPending = false) :
    exec (.atomicBankOperation o.id k) s = .next (performAred s o k tile first v mode left) := by
  show Host.Outcome.next (atomicStep s o.id k) = _
  simp only [atomicStep, hm.1, hk, bankOperates]
  rw [onOp_acts hm (mayMove_acts hm hq hp) (by simpa only [hk] using he)]
  simp only [hk]

end

end Sys2Proof.Machine
/-! O50: what the moves of an operation leave. -/

namespace Sys2Proof.Machine

/-- The completion of an operation, its fields aside from its number and strand changed, in a state that has the sequencers and forwards of s. -/
theorem opDone_completes {s t : State} {o p : Op} (ht : t.seqs = s.seqs) (hw : t.forwards = s.forwards) (hi : p.id = o.id) (hs : p.seq = o.seq)
    (he : (seqAt s o.seq).endPending = false) (hf : ∀ f ∈ s.forwards, f.op ≠ o.id) :
    opDone t p = completeOp t p ∧ completes s (completeOp t p) o p.flags := by
  have h : (seqAt t p.seq).endPending = false := by rw [hs, seqAt, ht]; exact he
  refine ⟨opDone_goes h, completes_of_seqs ht ?_⟩
  have hc := completeOp_completes (s := t) (o := p) (by rw [hw, hi]; exact hf)
  simpa only [completes, hi, hs] using hc

/-- The element k of an ARED that the atomic addition has taken leaves the list of those to come. -/
theorem aredDone_left {s t : State} {o : Op} {tile : List Row} {first : Nat} {v : View} {mode : BitVec 2} {left rest : List Nat} (fl : Flags)
    (ho : opAt s o.id = some o) (he : (seqAt s o.seq).endPending = false) (hk : o.kind = .ared tile first v mode left)
    (ht : t.seqs = s.seqs) (hp : t.ops = s.ops) :
    let u := aredDone t o rest fl
    u.mem = t.mem ∧ sameOthers o.seq s u ∧ (seqAt u o.seq).endPending = false ∧
      ∀ p, opAt u o.id = some p → p.phase = .queued → p.kind = .ared tile first v mode rest := by
  have hl : aredLeft o rest fl = { o with flags := o.flags ||| fl, kind := .ared tile first v mode rest } := by simp only [aredLeft, hk]
  have hq : ∀ q, seqAt t q = seqAt s q := fun q => congrArg (fun l => tget Seq.reset l q) ht
  have hto : opAt t o.id = some o := by rw [opAt, hp]; exact ho
  unfold aredDone
  rw [hl]
  dsimp only
  split
  · rw [opDone_goes (s := dropRequests t o.id) (o := { o with flags := _, kind := .ared tile first v mode rest, phase := .performed })
      ((congrArg Seq.endPending (hq o.seq)).trans he)]
    obtain ⟨hm, -, -, -, hend⟩ := completeOp_keeps (dropRequests t o.id)
      { o with flags := o.flags ||| fl, kind := .ared tile first v mode rest, phase := .performed }
    obtain ⟨hoth, -⟩ := completeOp_others (dropRequests t o.id)
      { o with flags := o.flags ||| fl, kind := .ared tile first v mode rest, phase := .performed }
    refine ⟨hm, fun p hpq => (hoth p hpq).trans (hq p), hend.trans ((congrArg Seq.endPending (hq o.seq)).trans he), ?_⟩
    intro p hop hph
    have hdr := completeOp_drained (s := dropRequests t o.id) (o := { o with flags := _, kind := .ared tile first v mode rest, phase := .performed })
      hto rfl hop
    rw [hdr] at hph
    cases hph
  · refine ⟨rfl, fun p _ => hq p, (congrArg Seq.endPending (hq o.seq)).trans he, ?_⟩
    intro p hop _
    rw [opAt_setOp (p := { o with flags := _, kind := .ared tile first v mode rest }) hto rfl] at hop
    cases hop
    rfl

section
variable {s : State} {o : Op} (hm : mayAct s o) (hq : o.phase = .queued) (hp : mayPerform s o = true)
include hm hq hp

/-- An atomic on a word of this package that has no register: the word changes, alone of memory. -/
theorem atomic_word {op : AtomicOp} {d : BitVec 6} {x y : Word} {i loc : Nat} {v : View} {ord sc mode : BitVec 2} (e : Nat)
    (hk : o.kind = .atomic op d x y i v ord sc mode) (hn : registerPlace s o i v = none)
    (hr : Reaches s o (addrsOf s o.asid v ((List.range 4).map (fun j => 4 * i + j))) loc) (hl : op ≠ .load) (hs : op ≠ .store) :
    ∃ u, exec (.atomicBankOperation o.id e) s = .next u ∧
      u.mem = memPutBytes s.mem loc (leBytes 4 (atomicNew op (wordAtLoc s loc) x y mode).1.toNat) ∧ u.seqs = s.seqs ∧ u.cores = s.cores ∧
      opAt u o.id = some (withOld o (wordAtLoc s loc) (atomicNew op (wordAtLoc s loc) x y mode).2) := by
  have ha := performAtomic_at hr (atomicAt_word x y (sc.toNat + 1) mode hl hs hr.2.2.2)
  rw [atomicDone_waits _ _ hs] at ha
  refine ⟨_, (atomicStep_atomic hm hq hp e hk hn ?_).trans (congrArg _ ha), rfl, rfl, rfl, opAt_setOp (s := { forwardLine s loc with mem := _ }) hm.1 rfl⟩
  rw [ha]
  exact hm.2.2

/-- ALD of a word of its die. -/
theorem atomic_load {d : BitVec 6} {x y : Word} {i loc : Nat} {v : View} {ord sc mode : BitVec 2} (e : Nat)
    (hk : o.kind = .atomic .load d x y i v ord sc mode) (hn : registerPlace s o i v = none)
    (hr : Reaches s o (addrsOf s o.asid v ((List.range 4).map (fun j => 4 * i + j))) loc) (h0 : homeDie loc = some (dieOf o.seq))
    (h3 : homeDie (loc + 3) = some (dieOf o.seq)) :
    ∃ u, exec (.atomicBankOperation o.id e) s = .next u ∧ u.mem = s.mem ∧ u.seqs = s.seqs ∧ opAt u o.id = some (withOld o (wordAtLoc s loc) 0) := by
  have ha := performAtomic_at hr (atomicAt_load x y (sc.toNat + 1) mode hr.2.2.2 h0 h3)
  rw [atomicDone_waits _ _ (by decide)] at ha
  refine ⟨_, (atomicStep_atomic hm hq hp e hk hn ?_).trans (congrArg _ ha), rfl, rfl, opAt_setOp (s := passLine s loc _) hm.1 rfl⟩
  rw [ha]
  exact hm.2.2

/-- AST of a word of its die. -/
theorem atomic_store {d : BitVec 6} {x y : Word} {i loc : Nat} {v : View} {ord sc mode : BitVec 2} (e : Nat)
    (hk : o.kind = .atomic .store d x y i v ord sc mode) (hn : registerPlace s o i v = none)
    (hr : Reaches s o (addrsOf s o.asid v ((List.range 4).map (fun j => 4 * i + j))) loc) (h0 : homeDie loc = some (dieOf o.seq))
    (h3 : homeDie (loc + 3) = some (dieOf o.seq)) (hf : ∀ f ∈ s.forwards, f.op ≠ o.id) :
    ∃ u, exec (.atomicBankOperation o.id e) s = .next u ∧ completes s u o 0 ∧ u.mem = memPutBytes s.mem loc (leBytes 4 x.toNat) := by
  obtain ⟨sl, hst⟩ := atomicAt_store (s := s) (o := o) x y (sc.toNat + 1) mode h0 h3
  have ha := performAtomic_at hr hst
  obtain ⟨hd, hc⟩ := opDone_completes (t := { s with mem := memPutBytes s.mem loc (leBytes 4 x.toNat), slices := sl }) (p := withOld o 0 0)
    rfl rfl rfl rfl hm.2.2 hf
  rw [atomicDone_store, hd] at ha
  obtain ⟨hmem, -, -, -, hend⟩ := completeOp_keeps { s with mem := memPutBytes s.mem loc (leBytes 4 x.toNat), slices := sl } (withOld o 0 0)
  refine ⟨_, (atomicStep_atomic hm hq hp e hk hn ?_).trans (congrArg _ ha), hc, hmem⟩
  rw [ha]
  exact hend.trans hm.2.2

/-- An element of an ARED on a word of this package. -/
theorem ared_word {tile : List Row} {first k loc : Nat} {v : View} {mode : BitVec 2} {left : List Nat} (hk : o.kind = .ared tile first v mode left)
    (hin : k ∈ left) (hr : Reaches s o (addrsOf s o.asid v ((List.range 4).map (fun j => (first + k / 64) * 256 + 4 * (k % 64) + j))) loc) :
    ∃ u, exec (.atomicBankOperation o.id k) s = .next u ∧
      u.mem = memPutBytes s.mem loc (leBytes 4 (atomicNew .fadd (wordAtLoc s loc) (BitVec.ofNat 32 (elemAt 0 (tile.getD (k / 64) 0) (k % 64))) 0 mode).1.toNat) ∧
      sameOthers o.seq s u ∧
      ∀ p, opAt u o.id = some p → p.phase = .queued → p.kind = .ared tile first v mode (left.filter (fun j => j != k)) := by
  have ha := performAred_at (tile := tile) hin hr (atomicAt_word _ 0 1 mode (by decide) (by decide) hr.2.2.2)
  obtain ⟨h1, h2, h3, h4⟩ := aredDone_left (t := { forwardLine s loc with mem := _ }) (rest := left.filter (fun j => j != k))
    (atomicNew .fadd (wordAtLoc s loc) (BitVec.ofNat 32 (elemAt 0 (tile.getD (k / 64) 0) (k % 64))) 0 mode).2 hm.1 hm.2.2 hk rfl rfl
  exact ⟨_, (atomicStep_ared hm hq hp hk (by rw [ha]; exact h3)).trans (congrArg _ ha), h1, h2, h4⟩

end

end Sys2Proof.Machine
/-! O50: messages, results and forwarded writes. -/

namespace Sys2Proof.Machine

/-- R271: a message of an operation to a ring of this package. -/
def deliverHere (s : State) (o : Op) (row : Row) (a : Word) : State :=
  let x := sendTarget a
  let r := tget Ring.reset (coreAt s x.1).rings x.2
  if sendReserved a then failOp s o 0x3F 0 0 deniedStatus 0
  else if !ringMine s o.seq r then (if ringSuspended s o.seq a then s else failOp s o 0x3F 0 0 deniedStatus 0)
  else if r.nslot.toNat + 1 ≤ r.count then s
  else opDone (deliverRow s x.1 x.2 row) { o with phase := .performed }

section
variable {s : State} {o : Op} (hm : mayAct s o)
include hm

/-- MESSAGE_DELIVERY of a message to this package, once nothing holds it back. -/
theorem messageDelivery_here {row : Row} {a : Word} (hq : o.phase = .queued) (hp : mayPerform s o = true) (hk : o.kind = .send row a)
    (hb : sendBehind s o a = false) (hmb : meshBehind s o a = false) (hw : writesBefore s o (meetScope o.seq a (sendsHere s a)) = true)
    (hh : sendsHere s a = true) (he : (seqAt (deliverHere s o row a) o.seq).endPending = false) :
    exec (.messageDelivery o.id) s = .next (deliverHere s o row a) := by
  have hmay : (mayMove s o && (match o.kind with
      | .send _ a => !sendBehind s o a && !meshBehind s o a && writesBefore s o (meetScope o.seq a (sendsHere s a))
      | _ => false)) = true := by
    simp only [hk, mayMove_acts hm hq hp, hb, hmb, hw, Bool.not_false, Bool.and_true]
  simp only [deliverHere, hk] at he ⊢
  show Host.Outcome.next (deliver s o.id) = _
  rw [deliver, onOp_acts hm hmay]
  · simp only [hk, hh, if_true]
  · simpa only [hk, hh, if_true] using he

/-- The result of an atomic arrives at a strand that is not stopped, and lands. -/
theorem resultArrival_lands {op : AtomicOp} {d : BitVec 6} {x y : Word} {i : Nat} {v : View} {ord sc mode : BitVec 2} (hph : o.phase = .performed)
    (hk : o.kind = .atomic op d x y i v ord sc mode) (hst : (seqAt s o.seq).status ≠ .faulted) :
    let t := setSeq s o.seq (landResult (seqAt s o.seq) o d ((o.result.headD 0).setWidth 32))
    (seqAt t o.seq).endPending = false → exec (.variableResultArrival o.id) s = .next (completeOp t o) := by
  intro t he
  have hl : landAtomic s o = completeOp t o := by
    simp only [landAtomic, hk]
    exact opDone_goes he
  show Host.Outcome.next (resultArrives s o.id) = _
  rw [resultArrives, onOp_acts hm (by simp [hph, engineMoves, hm.2.1])]
  · simp only [if_neg hst, hl]
  · simp only [if_neg hst, hl]
    exact (completeOp_keeps t o).2.2.2.2.trans he

/-- The result of an atomic that arrives during a stop is held for the resume. -/
theorem resultArrival_held {op : AtomicOp} {d : BitVec 6} {x y : Word} {i : Nat} {v : View} {ord sc mode : BitVec 2} (hph : o.phase = .performed)
    (hk : o.kind = .atomic op d x y i v ord sc mode) (hst : (seqAt s o.seq).status = .faulted) (hn : o.id ∉ (seqAt s o.seq).arrived) :
    exec (.variableResultArrival o.id) s = .next (setSeq s o.seq { seqAt s o.seq with arrived := (seqAt s o.seq).arrived ++ [o.id] }) := by
  have hl : noteArrival (seqAt s o.seq) o = { seqAt s o.seq with arrived := (seqAt s o.seq).arrived ++ [o.id] } := by
    have hc : (seqAt s o.seq).arrived.contains o.id = false := by simpa using hn
    simp only [noteArrival, hk, hc, Bool.false_eq_true, if_false]
  show Host.Outcome.next (resultArrives s o.id) = _
  rw [resultArrives, onOp_acts hm (by simp [hph, engineMoves, hm.2.1])]
  · simp only [if_pos hst, hl]
  · simp only [if_pos hst, hl]
    exact (congrArg Seq.endPending (seqAt_setSeq_same ..)).trans hm.2.2

end

/-- What the result of an atomic leaves of a strand that does not unwind. -/
theorem landResult_goes (sq : Seq) (o : Op) (d : BitVec 6) (x : Word) (hu : sq.unwind = none) :
    let u := landResult sq o d x
    let n := d.toNat % 32
    vget 0 u.latches 5 = x ∧ (d.toNat < 32 → isMapped sq n = false → vget 0 u.regs n = x) ∧
      (∀ k, k ≠ n ∨ 32 ≤ d.toNat → vget 0 u.regs k = vget 0 sq.regs k) ∧ u.busy.getLsbD (if d.toNat < 32 then n else 32) = false ∧
      u.endPending = sq.endPending ∧ u.cstat = sq.cstat ∧ u.pc = sq.pc ∧ u.preds = sq.preds ∧ u.loops = sq.loops := by
  have hd : d.getLsbD 5 = decide (32 ≤ d.toNat) := by
    rw [BitVec.getLsbD, Nat.testBit_eq_decide_div_mod_eq]
    exact decide_eq_decide.mpr (by omega)
  have hl : ∀ l : Vector Word 8, vget 0 (vput l 5 x) 5 = x := fun l => vget_vput_same _ _ _ _ (by decide)
  have hbit : ∀ m < 33, (sq.busy &&& ~~~(1#33 <<< m)).getLsbD m = false := by
    intro m hm
    simp [hm]
  by_cases h : 32 ≤ d.toNat
  · have h' : ¬ d.toNat < 32 := by omega
    simp only [landResult, hu, hd, h, h', decide_true, if_true, if_false, Bool.false_eq_true]
    exact ⟨hl _, False.elim, fun _ _ => trivial, hbit 32 (by decide), trivial, trivial, trivial, trivial, trivial⟩
  · have h' : d.toNat < 32 := by omega
    simp only [landResult, hu, hd, h, h', decide_false, if_true, if_false, Bool.false_eq_true]
    refine ⟨hl _, fun _ hmap => ?_, fun k hk => ?_, hbit _ (by omega), trivial, trivial, trivial, trivial, trivial⟩
    · rw [show isMapped { sq with busy := _, latches := _ } (d.toNat % 32) = false from hmap]
      exact vget_vput_same _ _ _ _ (by omega)
    · split
      · rfl
      · exact vget_vput_ne _ _ _ (by simpa [h'] using hk)

/-- A forward that is alone with its number is the one found under it, when it may go. -/
theorem find_forward {l : List Forward} {f : Forward} (p : Forward → Bool) (hf : f ∈ l) (hu : ∀ g ∈ l, g.id = f.id → g = f) :
    l.find? (fun g => g.id == f.id && p g) = if p f then some f else none := by
  by_cases hp : p f = true
  · rw [if_pos hp]
    cases h : l.find? (fun g => g.id == f.id && p g) with
    | none => simpa [hp] using List.find?_eq_none.mp h f hf
    | some g =>
      have hg := List.find?_some h
      simp only [Bool.and_eq_true, beq_iff_eq] at hg
      rw [hu g (List.mem_of_find?_eq_some h) hg.1]
  · rw [if_neg hp, List.find?_eq_none]
    intro g hg
    simp only [Bool.and_eq_true, beq_iff_eq, not_and]
    intro hid
    rw [hu g hg hid]
    exact hp

/-- A write of a proxy that may not go yet stays where it is. -/
theorem lineInvalidate_waits {s : State} {f : Forward} (hf : f ∈ s.forwards) (hu : ∀ g ∈ s.forwards, g.id = f.id → g = f)
    (h : forwardBehind s f = true ∨ forwardHeld s f = true) : exec (.lineInvalidate f.id) s = .next s := by
  show Host.Outcome.next (lineInvalidates s f.id) = _
  have hp : (!forwardBehind s f && !forwardHeld s f) = false := by
    obtain h | h := h <;> simp [h]
  simp only [lineInvalidates, Bool.and_assoc, find_forward (fun g => !forwardBehind s g && !forwardHeld s g) hf hu, hp, Bool.false_eq_true, if_false]

/-- A write of a proxy that may go is performed at its home. -/
theorem lineInvalidate_performs {s : State} {f : Forward} (hf : f ∈ s.forwards) (hu : ∀ g ∈ s.forwards, g.id = f.id → g = f)
    (hb : forwardBehind s f = false) (hh : forwardHeld s f = false) (ho : ∀ o, opAt s f.op = some o → o.phase ≠ .drained) :
    exec (.lineInvalidate f.id) s = .next (performForward s f) := by
  have hops : opAt (performForward s f) f.op = opAt s f.op := by
    unfold performForward
    dsimp only
    split <;> rfl
  have hd : endDrained (performForward s f) f.op = performForward s f := by
    unfold endDrained
    rw [hops]
    split
    · next o h => rw [if_neg (fun hc => ho o h hc.1)]
    · rfl
  show Host.Outcome.next (lineInvalidates s f.id) = _
  simp only [lineInvalidates, Bool.and_assoc, find_forward (fun g => !forwardBehind s g && !forwardHeld s g) hf hu, hb, hh, Bool.not_false, Bool.and_true,
    if_true, hd]

/-- What a write performed at its home leaves. -/
theorem performForward_leaves (s : State) (f : Forward) :
    let u := performForward s f
    u.mem = memPutCells s.mem f.cells ∧ u.forwards = s.forwards.filter (fun g => g.id != f.id) ∧ u.seqs = s.seqs ∧ u.ops = s.ops ∧ u.cores = s.cores := by
  unfold performForward
  dsimp only
  split <;> exact ⟨rfl, rfl, rfl, rfl, rfl⟩

end Sys2Proof.Machine
/-! O50: the statement. -/

namespace Sys2Proof.Machine

/-- A message to a ring of this package with a free slot fills the slot at TAIL. -/
theorem deliverHere_delivers {s : State} {o : Op} {row : Row} {a : Word} (he : (seqAt s o.seq).endPending = false) (hf : ∀ f ∈ s.forwards, f.op ≠ o.id)
    (hp : sendReserved a = false) (hr : ringMine s o.seq (tget Ring.reset (coreAt s (sendTarget a).1).rings (sendTarget a).2) = true)
    (hc : (tget Ring.reset (coreAt s (sendTarget a).1).rings (sendTarget a).2).count ≤
      (tget Ring.reset (coreAt s (sendTarget a).1).rings (sendTarget a).2).nslot.toNat) :
    let t := deliverRow s (sendTarget a).1 (sendTarget a).2 row
    let u := deliverHere s o row a
    completes s u o o.flags ∧ u.mem = s.mem ∧ u.cores = t.cores ∧ (seqAt u o.seq).endPending = false := by
  have hn : ¬ (tget Ring.reset (coreAt s (sendTarget a).1).rings (sendTarget a).2).nslot.toNat + 1 ≤
      (tget Ring.reset (coreAt s (sendTarget a).1).rings (sendTarget a).2).count := by omega
  obtain ⟨hd, hcp⟩ := opDone_completes (t := deliverRow s (sendTarget a).1 (sendTarget a).2 row) (p := { o with phase := .performed }) rfl rfl rfl rfl he hf
  have hu : deliverHere s o row a = completeOp (deliverRow s (sendTarget a).1 (sendTarget a).2 row) { o with phase := .performed } := by
    simp only [deliverHere, hp, hr, hn, Bool.not_true, Bool.false_eq_true, if_false, hd]
  obtain ⟨hmem, hcores, -, -, hend⟩ := completeOp_keeps (deliverRow s (sendTarget a).1 (sendTarget a).2 row) { o with phase := .performed }
  dsimp only
  rw [hu]
  exact ⟨hcp, hmem, hcores, hend.trans he⟩

/-- The ring and the row that a delivery fills, and what it leaves of the core. -/
theorem deliverRow_core (s : State) (k n : Nat) (row : Row) :
    let r := tget Ring.reset (coreAt s k).rings n
    let c := coreAt (deliverRow s k n row) k
    tget Ring.reset c.rings n = { r with tail := (r.tail + 1) % (r.nslot.toNat + 1), count := r.count + 1 } ∧
      spadRow c ((ringSlot r r.tail).toNat / 256) = row ∧ c.tiles = (coreAt s k).tiles ∧
      ∀ j, j ≠ (ringSlot r r.tail).toNat / 256 → spadRow c j = spadRow (coreAt s k) j := by
  simp only [deliverRow, coreAt_setCore_same, putSpadRow, spadRow, tget_tput_same, tget_sput, if_true, true_and]
  intro j hj
  rw [if_neg hj]

/-- A message whose operand is reserved, or whose ring is not its own and not suspended, is reported with SEND_DENIED. -/
theorem deliverHere_denies {s : State} {o : Op} (row : Row) {a : Word} (ho : opAt s o.id = some o) (he : (seqAt s o.seq).endPending = false)
    (hu : (seqAt s o.seq).unwind = none) (h : sendReserved a = true ∨
      ringMine s o.seq (tget Ring.reset (coreAt s (sendTarget a).1).rings (sendTarget a).2) = false ∧ ringSuspended s o.seq a = false) :
    let u := deliverHere s o row a
    reported s u o 0x3F 0 0 0 ∧ u.cores = s.cores ∧ u.mem = s.mem ∧ (seqAt u o.seq).endPending = false := by
  have hd : deliverHere s o row a = failOp s o 0x3F 0 0 deniedStatus 0 := by
    unfold deliverHere
    by_cases hp : sendReserved a = true
    · simp only [hp, if_true]
    · obtain h | ⟨hr, hs⟩ := h
      · exact absurd h hp
      · simp only [hp, hr, hs, Bool.not_false, Bool.false_eq_true, if_true, if_false]
  dsimp only
  rw [hd]
  exact failOp_reports 0x3F 0 0 deniedStatus 0 ho he hu

/-- A message whose ring went out with its consumer's team waits for it. -/
theorem deliverHere_waits {s : State} {o : Op} (row : Row) {a : Word} (hp : sendReserved a = false)
    (hr : ringMine s o.seq (tget Ring.reset (coreAt s (sendTarget a).1).rings (sendTarget a).2) = false) (hs : ringSuspended s o.seq a = true) :
    deliverHere s o row a = s := by
  simp only [deliverHere, hp, hr, hs, Bool.not_false, Bool.false_eq_true, if_true, if_false]

theorem memByte_memPutBytes_word (m : List Host.Cell) (loc : Nat) (x : Word) :
    (∀ j < 4, memByte (memPutBytes m loc (leBytes 4 x.toNat)) (loc + j) = BitVec.ofNat 8 (x.toNat / 256 ^ j)) ∧
      ∀ a, a < loc ∨ loc + 4 ≤ a → memByte (memPutBytes m loc (leBytes 4 x.toNat)) a = memByte m a := by
  refine ⟨fun j hj => ?_, fun a ha => ?_⟩
  · rw [memByte_memPutBytes, leBytes_length, if_pos (by omega), Nat.add_sub_cancel_left, leBytes_getD _ hj]
  · rw [memByte_memPutBytes, leBytes_length, if_neg (by omega)]

/-- An atomic whose result has landed in a strand that does not unwind, complete. -/
theorem completeOp_landed {s : State} {o : Op} (d : BitVec 6) (x : Word) (hu : (seqAt s o.seq).unwind = none) (hf : ∀ f ∈ s.forwards, f.op ≠ o.id) :
    let u := completeOp (setSeq s o.seq (landResult (seqAt s o.seq) o d x)) o
    let n := d.toNat % 32
    completes s u o o.flags ∧ u.mem = s.mem ∧ vget 0 (seqAt u o.seq).latches 5 = x ∧
      (d.toNat < 32 → isMapped (seqAt s o.seq) n = false → vget 0 (seqAt u o.seq).regs n = x) ∧
      (∀ k, k ≠ n ∨ 32 ≤ d.toNat → vget 0 (seqAt u o.seq).regs k = vget 0 (seqAt s o.seq).regs k) ∧
      (seqAt u o.seq).busy.getLsbD (if d.toNat < 32 then n else 32) = false := by
  obtain ⟨hl, hr, hk, hb, -, hcs, hpc, hpr, hlp⟩ := landResult_goes (seqAt s o.seq) o d x hu
  have hme := seqAt_setSeq_same s o.seq (landResult (seqAt s o.seq) o d x)
  obtain ⟨l, hseq⟩ := seqAt_completeOp (setSeq s o.seq (landResult (seqAt s o.seq) o d x)) o
  obtain ⟨hgone, -, -, -, -, hoth⟩ := completeOp_completes (s := setSeq s o.seq (landResult (seqAt s o.seq) o d x)) hf
  have hmem := (completeOp_keeps (setSeq s o.seq (landResult (seqAt s o.seq) o d x)) o).1
  rw [hme] at hseq
  dsimp only
  refine ⟨⟨hgone, ?_⟩, hmem, ?_⟩
  · rw [hseq]
    exact ⟨by rw [hcs], hpc, hpr, hlp, fun p hp => (hoth p hp).trans (seqAt_setSeq_ne s _ hp)⟩
  · rw [hseq]
    exact ⟨hl, hr, hk, hb⟩

/-- Settles O50: what each step of an operation leaves, by its equation: the atomic at its word (`atomicAt`), the message at its ring (`deliverHere`),
the result at its register (`landResult`) and the forwarded write at its home (`performForward`). -/
theorem atomicsResultsAndMessages : Obligations.AtomicsResultsAndMessages := by
  unfold Obligations.AtomicsResultsAndMessages
  refine ⟨fun a b c m => ?_, fun s o hm hq hp => ?_, ?_, ?_, ?_⟩
  · obtain ⟨h1, h2, h3, h4, h5, h6, h7, h8, h9, h10, h11⟩ := atomicNew_values a b c m
    exact ⟨h1, h2, h3, h4, h5, h6, h7, h8, h9, h10, h11, fun op h hh => atomicNew_noFlags a b c m h hh, rfl, rfl,
      fun k hk => atomicNew_faddh_half a b c m hk⟩
  · refine ⟨fun op d x y i e loc v ord sc mode hk hn hr => ⟨fun hl hs => ?_, fun hl h0 h3 => ?_, fun hs h0 h3 hf => ?_⟩, ?_, ?_, ?_⟩
    · exact atomic_word hm hq hp e hk hn hr hl hs
    · subst hl
      exact atomic_load hm hq hp e hk hn hr h0 h3
    · subst hs
      obtain ⟨u, hx, hc, hmem⟩ := atomic_store hm hq hp e hk hn hr h0 h3 hf
      exact ⟨u, hx, hc, by rw [hmem]; exact memByte_memPutBytes_word s.mem loc x⟩
    · intro d x y i e r a v ord sc mode hk hr
      exact ⟨_, atomicStep_register hm hq hp e hk hr, rfl, opAt_setOp hm.1 rfl⟩
    · intro tile first k loc v mode left hk hin hr
      exact ared_word hm hq hp hk hin hr
    · intro row a hk hb hmb hw hh hf
      have step := messageDelivery_here hm hq hp hk hb hmb hw hh
      have plain : a.toNat / 2 ^ 26 % 32 = 0 ↔ sendReserved a = false := by simp [sendReserved]
      refine ⟨fun hpl hu => ?_, fun hpl hr hc => ?_, fun hpl hr hs => ?_, fun hpl hr hs hu => ?_⟩
      · obtain ⟨hrep, hcores, hmem, hend⟩ := deliverHere_denies row hm.1 hm.2.2 hu (.inl (by simpa using mt plain.mpr hpl))
        exact ⟨_, step hend, hrep, hcores, hmem⟩
      · obtain ⟨hcp, hmem, hcores, hend⟩ := deliverHere_delivers (row := row) hm.2.2 hf (plain.mp hpl) hr hc
        have hcore : coreAt (deliverHere s o row a) (sendTarget a).1 = coreAt (deliverRow s (sendTarget a).1 (sendTarget a).2 row) (sendTarget a).1 :=
          congrArg (fun l => tget CoreState.reset l (sendTarget a).1) hcores
        exact ⟨_, step hend, hcp, hmem, by rw [hcore]; exact deliverRow_core s _ _ row⟩
      · have hd := deliverHere_waits row (plain.mp hpl) hr hs
        exact (step (by rw [hd]; exact hm.2.2)).trans (congrArg _ hd)
      · obtain ⟨hrep, hcores, hmem, hend⟩ := deliverHere_denies row hm.1 hm.2.2 hu (.inr ⟨hr, hs⟩)
        exact ⟨_, step hend, hrep, hcores, hmem⟩
  · intro s o op d x y i v ord sc mode hm hph hk hst hu hf
    exact ⟨_, resultArrival_lands hm hph hk hst ((congrArg Seq.endPending (seqAt_setSeq_same ..)).trans ((landResult_goes _ o d _ hu).2.2.2.2.1.trans hm.2.2)),
      completeOp_landed d _ hu hf⟩
  · intro s o op d x y i v ord sc mode hm hph hk hst hn
    exact resultArrival_held hm hph hk hst hn
  · intro s f hf hu
    refine ⟨lineInvalidate_waits hf hu, fun hb hh ho => ?_⟩
    exact ⟨_, lineInvalidate_performs hf hu hb hh ho, performForward_leaves s f⟩

end Sys2Proof.Machine
/-! O47. -/

namespace Sys2Proof.Machine

/-- An atomic of sequencer 1 that has performed with the old value 1. -/
def strayAtomic : Op := { strayOp with phase := .performed, result := [1], kind := .atomic .add 0 0 0 0 View.reset 0 0 0 }

/-- The stop of an issue trap at address 0. -/
def strayStop : StopInfo :=
  { kind := 0, cause := 3, slot := 2, engine := 0, cqn := 0, aux0 := 0, aux1 := 0, cmask := 0, baddr := 0, idx := [], op := none }

/-- Sequencer 0 stopped by that trap, over memory that reads zero, with the number of sequencer 1's atomic among the results that arrived during the stop.
No step notes another strand's result there, but O47 speaks of every state. -/
def strayResume : State :=
  { State.reset with seqs := [(0, { Seq.reset with status := .faulted, stop := some strayStop, arrived := [0] })], ops := [strayAtomic] }

/-- The record of zeros reads back well. -/
theorem strayResume_record : ∃ r, readRecord (homeBytes strayResume (location 0 0) 8960) [] 0 = some r :=
  Option.isSome_iff_exists.mp (by decide +kernel)

theorem strayResume_channels (n : Nat) : channelHeld strayResume n = false := by simp [channelHeld, strayResume, Seq.reset]

/-- The resume lands the atomic of sequencer 1, in its latch b5. -/
theorem strayResume_lands {t : State} (h : exec .sqctlResume strayResume = .next t) : vget 0 (seqAt t 1).latches 5 = 1 := by
  have hl : (match exec .sqctlResume strayResume with
      | .next t => vget 0 (seqAt t 1).latches 5
      | _ => 0) = 1 := by decide +kernel
  simpa [h] using hl

/-- Refutes O47: the resume lands every operation of the list of arrived results, whose operations need not be the strand's own: where the list names an
atomic of sequencer 1 (`strayResume`), the resume of sequencer 0 changes sequencer 1. -/
theorem not_debugBlock : ¬ Obligations.DebugBlock := by
  unfold Obligations.DebugBlock
  intro h
  obtain ⟨-, -, -, -, hresume⟩ := h strayResume
  obtain ⟨-, hposted⟩ := hresume strayStop false (by decide +kernel) (by decide +kernel) (by decide +kernel)
  obtain ⟨-, -, -, hread⟩ := hposted (by decide +kernel)
  obtain ⟨r, hr⟩ := strayResume_record
  obtain ⟨-, hgoes, -⟩ := hread r (fun n _ => strayResume_channels _) hr
  obtain ⟨t, ht, -, -, -, -, -, -, -, -, hothers⟩ := hgoes (fun hk => absurd hk (by decide)) (fun hk => absurd hk (by decide))
  have h1 : seqAt t 1 = seqAt strayResume 1 := hothers 1 (by decide)
  have hlatch := strayResume_lands ht
  rw [h1] at hlatch
  exact absurd hlatch (by decide +kernel)

end Sys2Proof.Machine

/-! O37: what an instruction on its own leaves while it is held, and when it traps. -/

namespace Sys2Proof.Machine

/-- A cycle of a hold: of the running stream no register, queue entry or tick changes, no operation, no byte of memory, and no other sequencer. -/
structure Idles (s t : State) : Prop where
  cur : t.cur = s.cur
  registers : sameRegisters (me s) (me t)
  queue : (me t).queue = (me s).queue
  ticks : (me t).ticks = (me s).ticks
  ops : t.ops = s.ops
  mem : t.mem = s.mem
  others : sameOthers s.cur s t

theorem sameRegisters.refl (a : Seq) : sameRegisters a a := by simp [sameRegisters]

theorem sameRegisters.trans {a b c : Seq} (h : sameRegisters a b) (k : sameRegisters b c) : sameRegisters a c := by
  unfold sameRegisters at *
  grind

theorem Idles.trans {s t u : State} (h : Idles s t) (k : Idles t u) : Idles s u :=
  ⟨k.cur.trans h.cur, h.registers.trans k.registers, k.queue.trans h.queue, k.ticks.trans h.ticks, k.ops.trans h.ops, k.mem.trans h.mem,
    h.others.trans (h.cur ▸ k.others)⟩

/-- What leaves the sequencers, the operations and memory. -/
theorem Idles.of_tables {s t : State} (hc : t.cur = s.cur) (hs : t.seqs = s.seqs) (ho : t.ops = s.ops) (hm : t.mem = s.mem) : Idles s t := by
  have hq : ∀ q, seqAt t q = seqAt s q := fun q => by rw [seqAt, seqAt, hs]
  have hme : me t = me s := by rw [me, me, hc, hq]
  exact ⟨hc, hme ▸ sameRegisters.refl _, by rw [hme], by rw [hme], ho, hm, fun q _ => hq q⟩

theorem Idles.refl (s : State) : Idles s s := .of_tables rfl rfl rfl rfl

/-- What changes the running stream alone, and nothing of it that a hold keeps. -/
theorem setMe_idles (s : State) {x : Seq} (h : sameRegisters (me s) x) (hq : x.queue = (me s).queue) (ht : x.ticks = (me s).ticks) : Idles s (setMe s x) :=
  ⟨rfl, by rw [me_setMe]; exact h, by rw [me_setMe]; exact hq, by rw [me_setMe]; exact ht, rfl, rfl, sameOthers_setMe s x⟩

theorem heldCycle_idles (s : State) (h : Hold) : Idles s (heldCycle s h) := by
  obtain ⟨c, e⟩ := me_heldCycle s h
  exact ⟨by simp, by rw [e]; exact sameRegisters.refl _, by rw [e], by rw [e], by simp, by simp, heldCycle_others s h⟩

theorem registerView_idles (s : State) (reg : Nat) (v : View) (ds : List Nat) : Idles s (registerView s reg v ds).1 := by
  induction ds generalizing s with
  | nil => exact .refl s
  | cons d rest ih =>
    unfold registerView
    split
    · exact ih s
    · split
      · exact .refl s
      · split
        · exact .refl s
        · refine .trans ?_ (ih _)
          exact .of_tables rfl rfl rfl rfl

theorem registerHeld_idles (s : State) (reg : Nat) (v : View) : Idles s (registerHeld s reg v) := by
  unfold registerHeld
  split
  · exact .refl s
  · exact registerView_idles ..

theorem askReads_idles (s : State) (op die asid : Nat) (cls : BitVec 4) (vas ds : List Nat) : Idles s (askReads s op die asid cls vas ds) := by
  induction ds generalizing s with
  | nil => exact .refl s
  | cons d rest ih =>
    refine .trans ?_ (ih _)
    exact .of_tables rfl rfl rfl rfl

theorem askInputs_idles (s : State) (q : Nat) (l : List View) : Idles s (askInputs s q l) := by
  unfold askInputs
  induction l generalizing s with
  | nil => exact .refl s
  | cons v rest ih => exact (askReads_idles ..).trans (ih _)

theorem askHeld_idles (s : State) (i : Instr) : Idles s (askHeld s i) := by
  unfold askHeld
  dsimp only
  split
  · unfold beginWait
    dsimp only
    split
    · exact .refl s
    · exact setMe_idles s (.refl _) rfl rfl
  · split
    · exact registerHeld_idles ..
    · exact .refl s
  · split
    · exact .refl s
    · refine .trans ?_ (askReads_idles ..)
      exact .of_tables rfl rfl rfl rfl
  · split
    · exact .refl s
    · have h := setMe_idles s (x := { me s with sendWait := (me s).sendWait + 1 }) (.refl _) rfl rfl
      split
      · exact h
      · exact h.trans (.of_tables rfl rfl rfl rfl)
  · split
    · exact askInputs_idles ..
    · exact .refl s
  · exact .refl s

theorem stallHeld_idles (s : State) (i : Instr) : Idles s (stallHeld s i) := by
  unfold stallHeld
  split
  · dsimp only
    split
    · exact .of_tables rfl rfl rfl rfl
    · exact .refl s
  · exact .refl s

theorem pollHeld_idles (s : State) (i : Instr) : Idles s (pollHeld s i) := by
  unfold pollHeld
  split
  · dsimp only
    split
    · exact .refl s
    · exact .of_tables rfl rfl rfl rfl
  · exact .refl s

/-- R64: the cycle of an instruction on its own that is held. -/
theorem slotHeld_idles (s : State) (i : Instr) (h : Hold) : Idles s (heldCycle (pollHeld (stallHeld (askHeld s i) i) i) h) :=
  (askHeld_idles s i).trans ((stallHeld_idles _ i).trans ((pollHeld_idles _ i).trans (heldCycle_idles _ h)))

/-! The first trap, and its stop. -/

/-- R67: the first trap of a list is of the lowest order. -/
theorem firstTrap_lowest {l : List TrapAt} {x : TrapAt} (h : firstTrap l = some x) : x ∈ l ∧ ∀ y ∈ l, x.order ≤ y.order := by
  induction l generalizing x with
  | nil => cases h
  | cons t rest ih =>
    unfold firstTrap at h
    cases hr : firstTrap rest with
    | none =>
      have hnil : rest = [] := by
        cases rest with
        | nil => rfl
        | cons u l =>
          unfold firstTrap at hr
          split at hr
          · cases hr
          · split at hr <;> cases hr
      rw [hr] at h
      cases h
      simp [hnil]
    | some u =>
      obtain ⟨hm, hle⟩ := ih hr
      simp only [hr] at h
      split at h
      · cases h
        exact ⟨List.mem_cons_of_mem _ hm, List.forall_mem_cons.mpr ⟨by omega, hle⟩⟩
      · cases h
        exact ⟨List.mem_cons_self .., List.forall_mem_cons.mpr ⟨le_refl _, fun y hy => by have := hle y hy; omega⟩⟩

/-- What leaves the sequencers, the running stream, the operations and the dies. -/
structure Apart (s t : State) : Prop where
  cur : t.cur = s.cur
  seqs : t.seqs = s.seqs
  ops : t.ops = s.ops
  dies : t.dies = s.dies

theorem Apart.trans {s t u : State} (h : Apart s t) (k : Apart t u) : Apart s u :=
  ⟨k.cur.trans h.cur, k.seqs.trans h.seqs, k.ops.trans h.ops, k.dies.trans h.dies⟩

/-- The trace unit of die d is off. -/
def Untraced (s : State) (d : Nat) : Prop := (dieAt s d).trace.en = false

theorem Apart.untraced {s t : State} (h : Apart s t) {d : Nat} (hd : Untraced s d) : Untraced t d := by
  unfold Untraced dieAt at *
  rw [h.dies]
  exact hd

theorem writeHome_apart (s : State) (l : List Host.Cell) : Apart s (writeHome s l) := by
  obtain ⟨sl, fs, n, e⟩ := writeHome_frame s l
  rw [e]
  exact ⟨rfl, rfl, rfl, rfl⟩

theorem traceRecord_apart {s : State} {d : Nat} (h : Untraced s d) (kind : Nat) (payload : BitVec 64) (place : Word) (slot : Option (Nat × Bool)) :
    Apart s (traceRecord s d kind payload place slot) := by
  rw [traceRecord_disabled h]
  exact ⟨rfl, rfl, rfl, rfl⟩

theorem pushEvent_apart {s : State} {die : Nat} (rec : BitVec 512) (h : Untraced s die) : Apart s (pushEvent s die rec) := by
  unfold pushEvent
  refine .trans ?_ (traceRecord_apart ?_ ..)
  · exact ⟨rfl, rfl, rfl, rfl⟩
  · exact h

theorem postEvent_apart {s : State} {die : Nat} (rec : BitVec 512) (h : Untraced s die) : Apart s (postEvent s die rec) := by
  unfold postEvent
  dsimp only
  split
  · exact pushEvent_apart rec h
  · exact ⟨rfl, rfl, rfl, rfl⟩

/-- R295: a FAULT record where the trace unit is off changes of the sequencers the event that the strand keeps. -/
theorem postFault_apart {s : State} {q : Nat} (e : DueEvent) (h : Untraced s (dieOf q)) :
    ∃ d, Apart (setSeq s q { seqAt s q with faultDue := d }) (postFault s q e) := by
  obtain ⟨-, -, e1⟩ | ⟨-, e1⟩ := postFault_cases s q e <;> rw [e1]
  · exact ⟨none, postEvent_apart _ h⟩
  · exact ⟨some e, rfl, rfl, rfl, rfl⟩

/-- The stream of a strand that stops (R187). -/
def stoppedAs (sq : Seq) (i : StopInfo) : Seq :=
  { settle sq with status := .faulted, stop := some i, issue := none, waitGt := none, pinned := [],
                   queue := (settle sq).queue.map (fun p => { p with cover := 0 }) }

/-- The stopped strand with its record written (R187). -/
def stopWritten (s : State) (q : Nat) (i : StopInfo) : State :=
  let s1 := setSeq (dropReads s q) q (stoppedAs (seqAt s q) i)
  { writeHome s1 (cellsAt (location (dieOf q) (settle (seqAt s q)).sqfra.toNat) (faultRecord (settle (seqAt s q)) i s1.free)) with
    free := s1.free + 16384 }

theorem dropRequests_apart (s : State) (op : Nat) : Apart s (dropRequests s op) := ⟨rfl, rfl, rfl, rfl⟩

theorem dropReads_apart (s : State) (q : Nat) : Apart s (dropReads s q) := by
  have h := (dropRequests_apart s (readTag q)).trans ((dropRequests_apart _ (stampTag q)).trans (dropRequests_apart _ (sendTag q)))
  unfold dropReads
  exact h.trans ⟨rfl, rfl, rfl, rfl⟩

theorem Apart.setSeq {s t : State} (h : Apart s t) (q : Nat) (x : Seq) : Apart (setSeq s q x) (setSeq t q x) :=
  ⟨h.cur, by simp only [Machine.setSeq, h.seqs], h.ops, h.dies⟩

theorem written_apart (s : State) (q : Nat) (x : Seq) (l : List Host.Cell) (n : Nat) :
    Apart (setSeq s q x) { writeHome (setSeq (dropReads s q) q x) l with free := n } := by
  obtain ⟨hc, hs, ho, hd⟩ := ((dropReads_apart s q).setSeq q x).trans (writeHome_apart _ l)
  exact ⟨hc, hs, ho, hd⟩

theorem stopWritten_apart (s : State) (q : Nat) (i : StopInfo) : Apart (setSeq s q (stoppedAs (seqAt s q) i)) (stopWritten s q i) := written_apart ..

/-- R187: a strand that stops: its record, its trace record, its event. -/
theorem stopStrand_eq (s : State) (q : Nat) (i : StopInfo) :
    ∃ kind payload place slot e, stopStrand s q i = postFault (traceRecord (stopWritten s q i) (dieOf q) kind payload place slot) q e := by
  unfold stopStrand stopWritten stoppedAs
  exact ⟨_, _, _, _, _, rfl⟩

/-- R187: a stop where the trace unit is off: the strand stops, and the operations and every other sequencer stand. -/
theorem stopStrand_apart {s : State} {q : Nat} (i : StopInfo) (h : Untraced s (dieOf q)) :
    ∃ d, Apart (setSeq s q { stoppedAs (seqAt s q) i with faultDue := d }) (stopStrand s q i) := by
  obtain ⟨kind, payload, place, slot, e, heq⟩ := stopStrand_eq s q i
  have hw := stopWritten_apart s q i
  have hu := hw.trans (traceRecord_apart (hw.untraced h) kind payload place slot)
  rw [heq]
  generalize traceRecord (stopWritten s q i) (dieOf q) kind payload place slot = u at hu
  obtain ⟨d, hd⟩ := postFault_apart (s := u) e (hu.untraced h)
  have hme : seqAt u q = stoppedAs (seqAt s q) i := by rw [seqAt, hu.seqs]; exact seqAt_setSeq_same s q _
  rw [hme] at hd
  have hput : ∀ x, Apart (setSeq s q x) (setSeq u q x) := fun x => ⟨hu.cur, by rw [setSeq, setSeq, hu.seqs]; exact tput_tput .., hu.ops, hu.dies⟩
  exact ⟨d, (hput _).trans hd⟩

/-- The stop of an issue trap (R186). -/
def trapStop (addr : Word) (cause slot : Nat) : StopInfo :=
  { kind := 0, cause := cause, slot := slot, engine := 0, cqn := 0, aux0 := 0, aux1 := 0, cmask := 0, baddr := addr, idx := [], op := none }

/-- R67, R186: what an issue trap where the trace unit is off leaves. -/
theorem issueTrap_leaves {s : State} (addr : Word) (cause slot : Nat) (h : Untraced s (dieOf s.cur)) :
    let t := issueTrap s addr cause slot
    (me t).status = .faulted ∧ (me t).stop = some (trapStop addr cause slot) ∧ (me t).regs = (me s).regs ∧
      (me t).queue = (me s).queue.map (fun p => { p with cover := 0 }) ∧ (me t).views = (me s).views ∧ t.ops = s.ops ∧ sameOthers s.cur s t := by
  have hr : Repositioned (me s) (settle (me s)) := settle_repositioned (me s)
  obtain ⟨d, hc, hs, ho, -⟩ := stopStrand_apart (trapStop addr cause slot) h
  have hseq : ∀ q, seqAt (issueTrap s addr cause slot) q = seqAt (setSeq s s.cur { stoppedAs (me s) (trapStop addr cause slot) with faultDue := d }) q :=
    fun q => congrArg (fun l => tget Seq.reset l q) hs
  have hcur : (issueTrap s addr cause slot).cur = s.cur := hc
  have hme : me (issueTrap s addr cause slot) = { stoppedAs (me s) (trapStop addr cause slot) with faultDue := d } := by
    rw [me, hcur, hseq]
    exact seqAt_setSeq_same ..
  dsimp only
  rw [hme]
  unfold Repositioned at hr
  refine ⟨rfl, rfl, ?_, ?_, ?_, ho, ?_⟩
  · rw [stoppedAs, hr]
  · rw [stoppedAs, hr]
  · rw [stoppedAs, hr]
  · intro q hq
    rw [hseq]
    exact seqAt_setSeq_ne _ _ hq

end Sys2Proof.Machine
/-! O37: when each trap cause applies. -/

namespace Sys2Proof.Machine

@[simp] theorem mem_trapIf {b : Bool} {o c : Nat} {x : TrapAt} : x ∈ trapIf b o c ↔ b = true ∧ x = { order := o, cause := c } := by
  cases b <;> simp [trapIf]

/-- R67: no trap of the list is of the orders 4 and 5, those of a bound stage predicate and of the full queue. -/
def NoResultTrap (l : List TrapAt) : Prop := ∀ t ∈ l, t.order ≠ 4 ∧ t.order ≠ 5

@[simp] theorem noResultTrap_nil : NoResultTrap [] := by simp [NoResultTrap]

@[simp] theorem noResultTrap_append (l m : List TrapAt) : NoResultTrap (l ++ m) ↔ NoResultTrap l ∧ NoResultTrap m := List.forall_mem_append

theorem noResultTrap_trapIf (b : Bool) {o : Nat} (c : Nat) (h4 : o ≠ 4) (h5 : o ≠ 5) : NoResultTrap (trapIf b o c) := by
  simp [NoResultTrap, h4, h5]

@[simp] theorem noResultTrap_transfer (sq : Seq) (a : Word) : NoResultTrap (transferTraps sq a) := noResultTrap_trapIf _ _ (by decide) (by decide)
@[simp] theorem noResultTrap_target (t : Word) : NoResultTrap (targetTraps t) := noResultTrap_trapIf _ _ (by decide) (by decide)
@[simp] theorem noResultTrap_loop (sq : Seq) (a n : Word) (len : Nat) : NoResultTrap (loopTraps sq a n len) := by
  simp [loopTraps, noResultTrap_trapIf]
@[simp] theorem noResultTrap_word (a : Nat) : NoResultTrap (wordTraps a) := by simp [wordTraps, noResultTrap_trapIf]
@[simp] theorem noResultTrap_spad (a n k : Nat) : NoResultTrap (spadTraps a n k) := by simp [spadTraps, noResultTrap_trapIf]
@[simp] theorem noResultTrap_view (v : View) (store atomic : Bool) : NoResultTrap (viewTraps v store atomic) := by
  simp [viewTraps, noResultTrap_trapIf]
@[simp] theorem noResultTrap_busy (s : State) (v : BitVec 4) : NoResultTrap (busyTraps s v) := noResultTrap_trapIf _ _ (by decide) (by decide)
@[simp] theorem noResultTrap_placed (sq : Seq) (vd va : BitVec 4) (vb : Option (BitVec 4)) : NoResultTrap (placedTraps sq vd va vb) := by
  cases vb <;> simp [placedTraps]

/-- R52: the traps of a bound stage predicate that an instruction writes. -/
def predTraps (sq : Seq) (i : Instr) : List TrapAt :=
  match predDest i with
  | some p => stageTraps sq p
  | none => []

theorem mem_predTraps {sq : Seq} {i : Instr} {t : TrapAt} : t ∈ predTraps sq i ↔
    (∃ p b, predDest i = some p ∧ sq.stage = some b ∧ 4 ≤ p.toNat ∧ b.mask.getLsbD (p.toNat - 4) = true) ∧ t = { order := 4, cause := 5 } := by
  unfold predTraps stageTraps
  cases hp : predDest i with
  | none => simp
  | some p =>
    cases hs : sq.stage with
    | none => simp
    | some b => simp

/-- R67: an instruction's traps are that of the predicate that it writes, and others. -/
theorem trapsOf_split (s : State) (a : Word) (i : Instr) : ∃ l, trapsOf s a i = predTraps (me s) i ++ l ∧ NoResultTrap l := by
  refine ⟨_, rfl, ?_⟩
  split <;> simp [noResultTrap_trapIf]

/-- R52, R67: the trap of a bound stage predicate. -/
theorem stageTrap_mem {s : State} {a : Word} {i : Instr} : ({ order := 4, cause := 5 } : TrapAt) ∈ trapsOf s a i ↔
    ∃ p b, predDest i = some p ∧ (me s).stage = some b ∧ 4 ≤ p.toNat ∧ b.mask.getLsbD (p.toNat - 4) = true := by
  obtain ⟨l, e, hl⟩ := trapsOf_split s a i
  rw [e, List.mem_append, mem_predTraps]
  constructor
  · rintro (⟨h, -⟩ | h)
    · exact h
    · exact absurd rfl (hl _ h).1
  · exact fun h => .inl ⟨h, rfl⟩

/-- R57, R67: no instruction traps on its own for a full queue. -/
theorem order_five_not_mem {s : State} {a : Word} {i : Instr} {t : TrapAt} (h : t ∈ trapsOf s a i) : t.order ≠ 5 := by
  obtain ⟨l, e, hl⟩ := trapsOf_split s a i
  rw [e, List.mem_append, mem_predTraps] at h
  obtain ⟨-, rfl⟩ | h := h
  · decide
  · exact (hl _ h).2

/-- R66: the boundary of R50 or a nonzero delay count meets a transfer. -/
@[simp] theorem mem_transferTraps {sq : Seq} {a : Word} {t : TrapAt} :
    t ∈ transferTraps sq a ↔ (sq.delayCount ≠ 0 ∨ atBoundary sq a = true) ∧ t = { order := 2, cause := 3 } := by
  simp [transferTraps]

@[simp] theorem mem_targetTraps {x : Word} {t : TrapAt} : t ∈ targetTraps x ↔ x.toNat % 32 ≠ 0 ∧ t = { order := 1, cause := 2 } := by
  have h : (x.setWidth 5 != 0#5) = true ↔ x.toNat % 32 ≠ 0 := by
    rw [bne_iff_ne, ne_eq, ← BitVec.toNat_inj]
    simp
  rw [targetTraps, mem_trapIf, h]

/-- R82: a loop's body does not lie in that of the innermost level. -/
def bodyOutside (sq : Seq) (a : Word) (m : Nat) : Prop :=
  ∃ o, sq.loops.getLast? = some o ∧ (a.toNat + 32 < o.start.toNat ∨ o.start.toNat + 32 * (o.len.toNat - 1) < a.toNat + 32 + 32 * (m - 1))

@[simp] theorem mem_loopTraps {sq : Seq} {a n : Word} {m : Nat} {t : TrapAt} : t ∈ loopTraps sq a n m ↔
    (sq.delayCount ≠ 0 ∧ t = { order := 2, cause := 3 }) ∨ ((n ≠ 0 ∧ depth sq = 6) ∧ t = { order := 3, cause := 4 }) ∨
      (bodyOutside sq a m ∧ t = { order := 6, cause := 7 }) := by
  unfold loopTraps bodyOutside
  cases h : sq.loops.getLast? with
  | none => simp
  | some o => simp

@[simp] theorem mem_wordTraps {a : Nat} {t : TrapAt} : t ∈ wordTraps a ↔
    (0x40000 ≤ a ∧ t = { order := 11, cause := 0x0C }) ∨ (a % 4 ≠ 0 ∧ t = { order := 12, cause := 0x0D }) := by
  simp [wordTraps]

@[simp] theorem mem_spadTraps {a n k : Nat} {t : TrapAt} : t ∈ spadTraps a n k ↔
    (0x40000 < a + n ∧ t = { order := 11, cause := 0x0C }) ∨ (a % k ≠ 0 ∧ t = { order := 12, cause := 0x0D }) := by
  simp [spadTraps]

@[simp] theorem mem_viewTraps {v : View} {store atomic : Bool} {t : TrapAt} : t ∈ viewTraps v store atomic ↔
    (v.isOpen = false ∧ t = { order := 15, cause := 0x10 }) ∨
      ((store = true ∧ v.mode ≠ 1 ∨ atomic = true ∧ v.mode ≠ 1 ∧ v.mode ≠ 2) ∧ t = { order := 16, cause := 0x11 }) := by
  simp [viewTraps, and_assoc]

@[simp] theorem mem_placedTraps {sq : Seq} {vd va : BitVec 4} {vb : Option (BitVec 4)} {t : TrapAt} : t ∈ placedTraps sq vd va vb ↔
    (((viewAt sq vd.toNat).isOpen = false ∨ (viewAt sq va.toNat).isOpen = false ∨ ∃ b, vb = some b ∧ (viewAt sq b.toNat).isOpen = false) ∧
      t = { order := 15, cause := 0x10 }) ∨ ((viewAt sq vd.toNat).mode ≠ 1 ∧ t = { order := 16, cause := 0x11 }) := by
  cases vb with
  | none => simp [placedTraps]; grind
  | some b => simp [placedTraps]; grind

/-- R159: the bundle in issue opens a view. -/
def opensInBundle (sq : Seq) (v : BitVec 4) : Prop :=
  ∃ c h m e l, sq.issue = some c ∧ slotAt c.slots 5 = some (.vopen h v m e l) ∧ guardTrue sq.preds h = true

/-- R159: a view that a VFSET may not write. -/
@[simp] theorem mem_busyTraps {s : State} {v : BitVec 4} {t : TrapAt} : t ∈ busyTraps s v ↔
    ((viewAt (me s) v.toNat).isOpen = true ∨ (viewAt (me s) v.toNat).retiring = true ∨ opensInBundle (me s) v) ∧ t = { order := 17, cause := 0x12 } := by
  unfold busyTraps opensInBundle
  dsimp only
  rw [mem_trapIf, Bool.or_eq_true, Bool.or_eq_true, or_assoc]
  refine and_congr_left fun _ => or_congr_right (or_congr_right ?_)
  cases hi : (me s).issue with
  | none => simp
  | some c =>
    dsimp only
    split
    · next g x m e l hs => simp [hs, and_comm]
    · next hn =>
      refine iff_of_false Bool.false_ne_true ?_
      rintro ⟨c', h, m, e, l, hc, hs, -⟩
      cases hc
      exact hn h v m e l hs

theorem viewPending_iff {sq : Seq} {v : BitVec 4} : viewPending sq v = true ↔ ∃ p ∈ sq.queue, ∃ f, p.dest = .viewField v f := by
  rw [viewPending, List.any_eq_true]
  refine exists_congr fun p => and_congr_right fun _ => ?_
  cases p.dest <;> simp

theorem qmapDenied_iff {s : State} {hi : Bool} {x : Word} : qmapDenied s hi x = true ↔
    (x.toNat < 64 ∧ (tget Ring.reset (myCore s).rings x.toNat).valid = false) ∨ (64 ≤ x.toNat ∧ x ≠ 0xFFFFFFFF) ∨
      (x = 0xFFFFFFFF ∧ isSteward (coreOf s.cur) = false) ∨ ∃ m, mapOf (me s) (!hi) = some m ∧ m.ring = (if x = 0xFFFFFFFF then 64 else x.toNat) := by
  unfold qmapDenied
  dsimp only
  rw [Bool.or_eq_true]
  refine Iff.trans (or_congr (b := _) (d := ∃ m, mapOf (me s) (!hi) = some m ∧ m.ring = (if x = 0xFFFFFFFF then 64 else x.toNat)) Iff.rfl ?_) ?_
  · cases mapOf (me s) (!hi) <;> simp
  · by_cases hx : x = 0xFFFFFFFF
    · subst hx
      simp
    · have hx : x ≠ 4294967295#32 := hx
      by_cases hl : x.toNat < 64
      · simp [hx, hl, Nat.not_le.mpr hl]
      · simp [hx, hl, Nat.not_lt.mp hl]

end Sys2Proof.Machine
/-! O37: the traps of each instruction. -/

namespace Sys2Proof.Machine

/-- R67: the slots to act overflow the queue of pending writes. -/
theorem mem_overflowTrap {sq : Seq} {bs : List (Nat × Instr × State)} : (∃ m, (({ order := 5, cause := 6 } : TrapAt), m) ∈ overflowTrap sq bs) ↔
    bs.any (fun y => takesEntry y.2.1) = true ∧ 32 < sq.queue.length + (bs.filter (fun y => takesEntry y.2.1)).length := by
  have hany : bs.any (fun y => takesEntry y.2.1) = true ↔ bs.filter (fun y => takesEntry y.2.1) ≠ [] := by
    simp [List.filter_eq_nil_iff]
  rw [hany, overflowTrap]
  cases hl : bs.filter (fun y => takesEntry y.2.1) with
  | nil => simp
  | cons x l =>
    dsimp only
    split
    · next h => simpa using h
    · next h => simpa using h

/-- R57, R67: the trap of the full queue. -/
theorem queueTrap_mem {s : State} {a : Word} {bs : List (Nat × Instr × State)} :
    (∃ m, (({ order := 5, cause := 6 } : TrapAt), m) ∈ bundleTraps s a bs) ↔
      bs.any (fun y => takesEntry y.2.1) = true ∧ 32 < (me s).queue.length + (bs.filter (fun y => takesEntry y.2.1)).length := by
  rw [← mem_overflowTrap]
  refine exists_congr fun m => ?_
  have hslots : (({ order := 5, cause := 6 } : TrapAt), m) ∉ bs.flatMap (fun x => (trapsOf x.2.2 a x.2.1).map (fun t => (t, x.1))) := by
    simp only [List.mem_flatMap, List.mem_map, Prod.mk.injEq, not_exists, not_and]
    rintro x - t ht rfl
    exact absurd rfl (order_five_not_mem ht)
  have hbound : (({ order := 5, cause := 6 } : TrapAt), m) ∉ (if boundaryConflict (me s) a then [(({ order := 2, cause := 3 } : TrapAt), 2)] else []) := by
    split <;> simp
  simp only [bundleTraps, List.mem_append, hslots, hbound, false_or, or_false]

/-- R66: a bundle in a delay position on which the boundary would act traps. -/
theorem boundaryTrap_mem {s : State} {a : Word} (hd : (me s).delayCount ≠ 0) (hb : atBoundary (me s) a = true) (bs : List (Nat × Instr × State)) :
    (({ order := 2, cause := 3 } : TrapAt), 2) ∈ bundleTraps s a bs := by
  have h : boundaryConflict (me s) a = true := by simp [boundaryConflict, hd, hb]
  simp [bundleTraps, h]

/-- A trap of an instruction, by its order and cause. -/
def Traps (s : State) (a : Word) (i : Instr) (order cause : Nat) (p : Prop) : Prop := (({ order := order, cause := cause } : TrapAt) ∈ trapsOf s a i ↔ p)

theorem trapsOf_br (s : State) (x : Word) (g : BitVec 4) (off : BitVec 20) : trapsOf s x (.br g off) = transferTraps (me s) x := rfl
theorem trapsOf_call (s : State) (x : Word) (g : BitVec 4) (off : BitVec 20) : trapsOf s x (.call g off) = transferTraps (me s) x := rfl
theorem trapsOf_jr (s : State) (x : Word) (g : BitVec 4) (a : BitVec 6) :
    trapsOf s x (.jr g a) = targetTraps (src s a) ++ transferTraps (me s) x := rfl
theorem trapsOf_callr (s : State) (x : Word) (g : BitVec 4) (a : BitVec 6) :
    trapsOf s x (.callr g a) = targetTraps (src s a) ++ transferTraps (me s) x := rfl
theorem trapsOf_bktj (s : State) (x : Word) (g : BitVec 4) (a : BitVec 6) (k : BitVec 4) :
    trapsOf s x (.bktj g a k) = transferTraps (me s) x ++ trapIf (bucketOf s k.toNat).caps.isEmpty 9 0x0A := rfl
theorem trapsOf_loop (s : State) (x : Word) (g : BitVec 4) (a : BitVec 6) (len : BitVec 12) :
    trapsOf s x (.loop g a len) = loopTraps (me s) x (src s a) len.toNat := rfl
theorem trapsOf_loopi (s : State) (x : Word) (g : BitVec 4) (cnt : BitVec 12) (len : BitVec 8) :
    trapsOf s x (.loopi g cnt len) = loopTraps (me s) x (immUnsigned 12 cnt (extOf s 2)) len.toNat := rfl
theorem trapsOf_lbrk (s : State) (x : Word) (g : BitVec 4) : trapsOf s x (.lbrk g) =
    trapIf (decide ((me s).delayCount ≠ 0) || atBoundary (popLevel (me s)) x) 2 3 ++ trapIf (depth (me s) == 0) 7 8 := rfl
theorem trapsOf_lstg (s : State) (x : Word) (g : BitVec 4) (lv : BitVec 3) (m : BitVec 4) :
    trapsOf s x (.lstg g lv m) = trapIf (decide (depthAfter (me s) x < lv.toNat)) 8 9 := rfl
theorem trapsOf_qmap (s : State) (x : Word) (l hi : Bool) (g : BitVec 4) (a : BitVec 6) :
    trapsOf s x (.qmap l g hi a) = trapIf (qmapDenied s hi (src s a)) 10 0x0B := rfl
theorem trapsOf_eret (s : State) (x : Word) (g : BitVec 4) :
    trapsOf s x (.eret g) = trapIf (decide ((me s).delayCount ≠ 0)) 2 3 ++ trapIf (!(me s).inTrap) 13 0x0E := rfl
theorem trapsOf_tcopy (s : State) (x : Word) (g vd vs : BitVec 4) (a : BitVec 6) (cq : BitVec 2) (ev : Bool) : trapsOf s x (.tcopy g vd vs a cq ev) =
    trapIf (!(myCore s).lenient && decide (16 ≤ (copiesIn s (coreOf s.cur) cq.toNat).length)) 14 0x0F ++
      viewTraps (viewAt (me s) vs.toNat) false false ++ viewTraps (viewAt (me s) vd.toNat) true false := rfl
theorem trapsOf_contain (s : State) (x : Word) (g : BitVec 4) (off : BitVec 20) :
    trapsOf s x (.contain g off) = trapIf (decide ((me s).regions.length = 4)) 18 0x13 := rfl
theorem trapsOf_containend (s : State) (x : Word) (g : BitVec 4) :
    trapsOf s x (.containend g) = trapIf (decide ((me s).regions.length = 0)) 19 0x14 := rfl

/-- The lane of an SLD or SST is its slot. -/
theorem slotNo_s (l : Bool) (g : BitVec 4) (d a : BitVec 6) (off : BitVec 8) :
    slotNo (.sld l g d a off) = (if l then 1 else 0) ∧ slotNo (.sst l g d a off) = (if l then 1 else 0) := by
  cases l <;> exact ⟨rfl, rfl⟩

theorem trapsOf_sld (s : State) (x : Word) (l : Bool) (g : BitVec 4) (d a : BitVec 6) (off : BitVec 8) :
    trapsOf s x (.sld l g d a off) = wordTraps (src s a + 4 * immSigned 8 off (extOf s (if l then 1 else 0))).toNat := by
  rw [← (slotNo_s l g d a off).1]
  rfl
theorem trapsOf_sst (s : State) (x : Word) (l : Bool) (g : BitVec 4) (d a : BitVec 6) (off : BitVec 8) :
    trapsOf s x (.sst l g d a off) = wordTraps (src s a + 4 * immSigned 8 off (extOf s (if l then 1 else 0))).toNat := by
  rw [← (slotNo_s l g d a off).2]
  rfl

/-- R66, R67, R82: the traps of the transfers and loop pushes. -/
theorem transferTraps_hold (s : State) (at_ : Word) (g k : BitVec 4) (a : BitVec 6) (off : BitVec 8) (len cnt : BitVec 12) (boff : BitVec 20) :
    (∀ i ∈ [Instr.br g boff, .call g boff, .jr g a, .callr g a, .bktj g a k],
      Traps s at_ i 2 3 ((me s).delayCount ≠ 0 ∨ atBoundary (me s) at_ = true)) ∧
    (∀ i ∈ [Instr.jr g a, .callr g a], Traps s at_ i 1 2 ((src s a).toNat % 32 ≠ 0)) ∧
    (∀ i c m, (i, c, m) ∈ [(Instr.loop g a len, src s a, len.toNat), (.loopi g cnt off, immUnsigned 12 cnt (extOf s 2), off.toNat)] →
      Traps s at_ i 2 3 ((me s).delayCount ≠ 0) ∧ Traps s at_ i 3 4 (c ≠ 0 ∧ depth (me s) = 6) ∧ Traps s at_ i 6 7 (bodyOutside (me s) at_ m)) := by
  refine ⟨?_, ?_, ?_⟩
  · simp [Traps, trapsOf_br, trapsOf_call, trapsOf_jr, trapsOf_callr, trapsOf_bktj]
  · simp [Traps, trapsOf_jr, trapsOf_callr]
  · intro i c m h
    simp only [List.mem_cons, Prod.mk.injEq, List.not_mem_nil, or_false] at h
    obtain ⟨rfl, rfl, rfl⟩ | ⟨rfl, rfl, rfl⟩ := h
    · simp [Traps, trapsOf_loop]
    · simp [Traps, trapsOf_loopi]

/-- R67, R78, R79, R84, R85, R89, R126, R202: the other traps at the S and C slots, and of a full strict copy queue. -/
theorem controlTraps_hold (s : State) (at_ : Word) (l reg : Bool) (g cq4 k pm v : BitVec 4) (d a : BitVec 6) (off : BitVec 8) (boff : BitVec 20)
    (lv : BitVec 3) (cq : BitVec 2) (ev : Bool) :
    let sq := me s
    let x := src s a
    Traps s at_ (.lbrk g) 2 3 (sq.delayCount ≠ 0 ∨ atBoundary (popLevel sq) at_ = true) ∧ Traps s at_ (.lbrk g) 7 8 (sq.loops = []) ∧
    Traps s at_ (.lstg g lv pm) 8 9 (depthAfter sq at_ < lv.toNat) ∧ Traps s at_ (.bktj g a k) 9 0x0A ((bucketOf s k.toNat).caps = []) ∧
    Traps s at_ (.qmap l g reg a) 10 0x0B ((x.toNat < 64 ∧ (tget Ring.reset (myCore s).rings x.toNat).valid = false) ∨
      (64 ≤ x.toNat ∧ x ≠ 0xFFFFFFFF) ∨ (x = 0xFFFFFFFF ∧ isSteward (coreOf s.cur) = false) ∨
      ∃ m, mapOf sq (!reg) = some m ∧ m.ring = (if x = 0xFFFFFFFF then 64 else x.toNat)) ∧
    (∀ i ∈ [Instr.sld l g d a off, .sst l g d a off],
      let y := x + 4 * immSigned 8 off (extOf s (if l then 1 else 0))
      Traps s at_ i 11 0x0C (0x40000 ≤ y.toNat) ∧ Traps s at_ i 12 0x0D (y.toNat % 4 ≠ 0)) ∧
    Traps s at_ (.eret g) 2 3 (sq.delayCount ≠ 0) ∧ Traps s at_ (.eret g) 13 0x0E (sq.inTrap = false) ∧
    Traps s at_ (.tcopy g v cq4 a cq ev) 14 0x0F ((myCore s).lenient = false ∧ 16 ≤ (copiesIn s (coreOf s.cur) cq.toNat).length) ∧
    Traps s at_ (.contain g boff) 18 0x13 (sq.regions.length = 4) ∧ Traps s at_ (.containend g) 19 0x14 (sq.regions = []) := by
  dsimp only
  refine ⟨?_, ?_, ?_, ?_, ?_, ?_, ?_, ?_, ?_, ?_, ?_⟩
  · simp [Traps, trapsOf_lbrk]
  · simp [Traps, trapsOf_lbrk, depth]
  · simp [Traps, trapsOf_lstg]
  · simp [Traps, trapsOf_bktj]
  · rw [← qmapDenied_iff]
    simp [Traps, trapsOf_qmap]
  · simp [Traps, trapsOf_sld, trapsOf_sst]
  · simp [Traps, trapsOf_eret]
  · simp [Traps, trapsOf_eret]
  · simp [Traps, trapsOf_tcopy]
  · simp [Traps, trapsOf_contain]
  · simp [Traps, trapsOf_containend]

end Sys2Proof.Machine
/-! O37: the traps of views and scratchpad addresses. -/

namespace Sys2Proof.Machine

theorem trapsOf_tld (s : State) (x : Word) (g t v : BitVec 4) (a : BitVec 6) (cx : Bool) (cls : BitVec 4) :
    trapsOf s x (.tld g t v a cx cls) = viewTraps (viewAt (me s) v.toNat) false false := rfl
theorem trapsOf_tst (s : State) (x : Word) (g t v : BitVec 4) (a : BitVec 6) (cx : Bool) (cls : BitVec 4) :
    trapsOf s x (.tst g t v a cx cls) = viewTraps (viewAt (me s) v.toNat) true false := rfl
theorem trapsOf_tgath (s : State) (x : Word) (g t v : BitVec 4) (a : BitVec 6) (cx : Bool) (cls : BitVec 4) :
    trapsOf s x (.tgath g t v a cx cls) = spadTraps (src s a).toNat 256 4 ++ viewTraps (viewAt (me s) v.toNat) false false := rfl
theorem trapsOf_tscat (s : State) (x : Word) (g t v : BitVec 4) (a : BitVec 6) (cx : Bool) (cls : BitVec 4) :
    trapsOf s x (.tscat g t v a cx cls) = spadTraps (src s a).toNat 256 4 ++ viewTraps (viewAt (me s) v.toNat) true false := rfl
theorem trapsOf_waitm (s : State) (x : Word) (g : BitVec 4) (d : BitVec 6) (v : BitVec 4) (a : BitVec 6) (ord : Bool) (sc : BitVec 2) :
    trapsOf s x (.waitm g d v a ord sc) = viewTraps (viewAt (me s) v.toNat) false false := rfl
theorem trapsOf_vretire (s : State) (x : Word) (g v : BitVec 4) :
    trapsOf s x (.vretire g v) = trapIf (!(viewAt (me s) v.toNat).isOpen) 15 0x10 := rfl
theorem trapsOf_vopen (s : State) (x : Word) (g v : BitVec 4) (mode : BitVec 2) (sc : BitVec 3) (cls : BitVec 4) :
    trapsOf s x (.vopen g v mode sc cls) = trapIf ((viewAt (me s) v.toNat).isOpen || viewPending (me s) v) 17 0x12 := rfl
theorem trapsOf_vfset (s : State) (x : Word) (g v fld : BitVec 4) (a : BitVec 6) : trapsOf s x (.vfset g v fld a) = busyTraps s v := rfl
theorem trapsOf_vfseti (s : State) (x : Word) (g v fld : BitVec 4) (k : BitVec 12) : trapsOf s x (.vfseti g v fld k) = busyTraps s v := rfl
theorem trapsOf_qld (s : State) (x : Word) (g : BitVec 4) (q : BitVec 3) (a n : BitVec 6) :
    trapsOf s x (.qld g q a n) = spadTraps (src s a).toNat (2 * (n.toNat + 1)) 2 := rfl
theorem trapsOf_tspld (s : State) (x : Word) (g t : BitVec 4) (a : BitVec 6) : 
    trapsOf s x (.tspld g t a) = spadTraps (src s a).toNat 16384 256 := by
  simp only [trapsOf, predDest, List.nil_append]
theorem trapsOf_tspst (s : State) (x : Word) (g t : BitVec 4) (a : BitVec 6) : 
    trapsOf s x (.tspst g t a) = spadTraps (src s a).toNat 16384 256 := by
  simp only [trapsOf, predDest, List.nil_append]

/-- R160, R266, R269: ARED and the atomics trap where the view allows no atomic. -/
theorem trapsOf_atomics (s : State) (x : Word) (g t v : BitVec 4) (d a : BitVec 6) (d5 : BitVec 5) (ord ws : BitVec 2) (cx : Bool) (cls : BitVec 4) :
    ∀ i ∈ [Instr.ared g t v a cx cls, .aadd g d v a ord ws, .amin g d v a ord ws, .amax g d v a ord ws, .aminu g d v a ord ws, .amaxu g d v a ord ws,
        .aand g d v a ord ws, .aor g d v a ord ws, .axor g d v a ord ws, .axchg g d v a ord ws, .aincb g d v a ord ws, .afadd g d v a ord ws,
        .afaddh g d v a ord ws, .ald g d v a ord ws, .ast g d v a ord ws, .acas g d5 v a ord ws],
      trapsOf s x i = viewTraps (viewAt (me s) v.toNat) false true := by
  simp only [List.forall_mem_cons]
  exact ⟨rfl, rfl, rfl, rfl, rfl, rfl, rfl, rfl, rfl, rfl, rfl, rfl, rfl, rfl, rfl, rfl, nofun⟩

/-- R183: the traps of a placed operation. -/
theorem trapsOf_placed (s : State) (x : Word) {i : Instr} {c : PlacedCall} (h : placedCall i = some c) : trapsOf s x i = placedTraps (me s) c.vd c.va c.vb := by
  unfold placedCall at h
  split at h <;> cases h <;> rfl

/-- R121, R159, R160, R164, R174, R176, R183: the traps of views and of scratchpad addresses. -/
theorem viewTraps_hold (s : State) (at_ : Word) (rl cx ev : Bool) (g t v vs fld : BitVec 4) (d a n : BitVec 6) (q sc : BitVec 3) (cq ord ws mode : BitVec 2)
    (cls : BitVec 4) (d5 : BitVec 5) (k : BitVec 12) :
    let sq := me s
    let x := (src s a).toNat
    let closed := fun (w : BitVec 4) => (viewAt sq w.toNat).isOpen = false
    let unwritable := fun (w : BitVec 4) => (viewAt sq w.toNat).mode ≠ 1
    let views := fun (i : Instr) (p r : Prop) => Traps s at_ i 15 0x10 p ∧ Traps s at_ i 16 0x11 r
    let pads := fun (i : Instr) (bytes align : Nat) => Traps s at_ i 11 0x0C (0x40000 < x + bytes) ∧ Traps s at_ i 12 0x0D (x % align ≠ 0)
    (∀ i ∈ [Instr.tld g t v a cx cls, .tgath g t v a cx cls, .waitm g d v a rl ws], views i (closed v) False) ∧
    (∀ i ∈ [Instr.tst g t v a cx cls, .tscat g t v a cx cls], views i (closed v) (unwritable v)) ∧
    (∀ i ∈ [Instr.ared g t v a cx cls, .aadd g d v a ord ws, .amin g d v a ord ws, .amax g d v a ord ws, .aminu g d v a ord ws, .amaxu g d v a ord ws,
        .aand g d v a ord ws, .aor g d v a ord ws, .axor g d v a ord ws, .axchg g d v a ord ws, .aincb g d v a ord ws, .afadd g d v a ord ws,
        .afaddh g d v a ord ws, .ald g d v a ord ws, .ast g d v a ord ws, .acas g d5 v a ord ws],
      views i (closed v) (unwritable v ∧ (viewAt sq v.toNat).mode ≠ 2)) ∧
    views (.tcopy g v vs a cq ev) (closed v ∨ closed vs) (unwritable v) ∧ views (.vretire g v) (closed v) False ∧
    (∀ i c, placedCall i = some c → views i (closed c.vd ∨ closed c.va ∨ ∃ b, c.vb = some b ∧ closed b) (unwritable c.vd)) ∧
    Traps s at_ (.vopen g v mode sc cls) 17 0x12 ((viewAt sq v.toNat).isOpen = true ∨ ∃ p ∈ sq.queue, ∃ f, p.dest = .viewField v f) ∧
    (∀ i ∈ [Instr.vfset g v fld a, .vfseti g v fld k],
      Traps s at_ i 17 0x12 ((viewAt sq v.toNat).isOpen = true ∨ (viewAt sq v.toNat).retiring = true ∨ opensInBundle sq v)) ∧
    (∀ i ∈ [Instr.tgath g t v a cx cls, .tscat g t v a cx cls], pads i 256 4) ∧ pads (.qld g q a n) (2 * (n.toNat + 1)) 2 ∧
    ∀ i ∈ [Instr.tspld g t a, .tspst g t a], pads i 16384 256 := by
  dsimp only
  refine ⟨?_, ?_, ?_, ?_, ?_, ?_, ?_, ?_, ?_, ?_, ?_⟩
  · simp [Traps, trapsOf_tld, trapsOf_tgath, trapsOf_waitm]
  · simp [Traps, trapsOf_tst, trapsOf_tscat]
  · intro i hi
    simp [Traps, trapsOf_atomics s at_ g t v d a d5 ord ws cx cls i hi]
  · simp [Traps, trapsOf_tcopy, or_comm]
  · simp [Traps, trapsOf_vretire]
  · intro i c hc
    simp [Traps, trapsOf_placed s at_ hc]
  · simp [Traps, trapsOf_vopen, viewPending_iff]
  · simp [Traps, trapsOf_vfset, trapsOf_vfseti]
  · simp [Traps, trapsOf_tgath, trapsOf_tscat]
  · simp [Traps, trapsOf_qld]
  · simp [Traps, trapsOf_tspld, trapsOf_tspst]

end Sys2Proof.Machine
/-! O37: when each hold of R64 applies. -/

namespace Sys2Proof.Machine

/-- R208: one of the holds of a list stands at a place of the table. -/
def HeldAt (l : List Hold) (n : Nat) : Prop := ∃ h ∈ l, h.rank = n

@[simp] theorem heldAt_nil (n : Nat) : ¬ HeldAt [] n := by simp [HeldAt]

@[simp] theorem heldAt_append (l m : List Hold) (n : Nat) : HeldAt (l ++ m) n ↔ HeldAt l n ∨ HeldAt m n := by
  simp [HeldAt, or_and_right, exists_or]

@[simp] theorem heldAt_holdIf (b : Bool) (r c n : Nat) : HeldAt (holdIf b r c) n ↔ b = true ∧ r = n := by
  cases b <;> simp [HeldAt, holdIf]

@[simp] theorem heldAt_holdCheck (k : Check) (c n : Nat) : HeldAt (holdCheck k c) n ↔ (∃ w, k = .wait w) ∧ 5 = n := by
  cases k <;> simp [HeldAt, holdCheck]

@[simp] theorem heldAt_guarded (p : Prop) [Decidable p] (l : List Hold) (n : Nat) : HeldAt (if p then l else []) n ↔ p ∧ HeldAt l n := by
  split <;> simp [*]

/-- R78, R86, R90, R91, R199, R283, R310: the holds that do not wait for the issue traps, by the instruction. -/
def issueHolds (s : State) (i : Instr) : List Hold :=
  match i with
  | .sld _ _ _ a off => holdIf (spadPending s (spadAddr s (slotNo i) a off).toNat 4) 4 0
  | .sst _ _ _ a off => holdIf (spadPending s (spadAddr s (slotNo i) a off).toNat 4) 4 0
  | .qld _ _ a k => holdIf (spadPending s (src s a).toNat (2 * (k.toNat + 1))) 4 5
  | .tcopy _ _ _ _ cq _ => holdIf ((myCore s).lenient && decide (16 ≤ (copiesIn s (coreOf s.cur) cq.toNat).length)) 7 3
  | .waitgt _ a b => holdIf (decide (gtAt s (myDie s) < waitTime s a b)) 9 1
  | .launch _ a _ => launchHolds s (src s a)
  | .bar _ sc id rl _ => arrivalHolds s sc id rl
  | .bararv _ sc id rl => arrivalHolds s sc id rl
  | .barwt _ sc id _ => holdIf (phaseOpen s s.cur sc.toNat id.toNat) 9 1
  | .containend _ => holdIf (decide ((me s).regions.length ≠ 0) && !(openOps s (me s).regions.length).isEmpty) 9 1
  | .exit _ => holdIf (!(openOps s 0).isEmpty) 9 1
  | _ => []

/-- R59: a tile that an instruction reads or writes is marked. -/
def touchesMarked (s : State) (i : Instr) : Bool := (tilesTouched (me s) i).any (fun t => (markedTiles s (coreOf s.cur)).contains t)

theorem holdsOf_eq (s : State) (i : Instr) : holdsOf s i =
    holdIf (busyHold (me s) i) 2 0 ++ holdIf (touchesMarked s i) 3 (classOfSlot (slotNo i)) ++
    (if (trapsOf s (bundleAddr s) i).isEmpty then memoryHolds s i ++ engineHolds s i else []) ++
    holdIf (isArrayCommand i && decide (32 ≤ (arrayQueue s (coreOf s.cur)).length)) 6 4 ++
    holdIf (isBankCommand i && decide (16 ≤ (bankQueue s s.cur).length)) 6 4 ++
    holdIf (popBlocked s (readsOf (me s) i)) 8 (classOfSlot (slotNo i)) ++ issueHolds s i := by
  cases i <;> rfl

/-! The places of the table that each list of holds can have. -/

@[simp] theorem heldAt_launchHolds (s : State) (h : Word) (n : Nat) : HeldAt (launchHolds s h) n ↔
    ((∃ w, checkLaunch s h = .wait w) ∨ launchWaits s = true ∨ recordHeld s h = true) ∧ 9 = n := by
  unfold launchHolds
  cases checkLaunch s h <;> simp [HeldAt, holdIf]

theorem issueHolds_ranks {s : State} {i : Instr} {n : Nat} (h : HeldAt (issueHolds s i) n) : n = 4 ∨ n = 7 ∨ n = 9 := by
  unfold issueHolds arrivalHolds at h
  split at h <;> simp at h <;> omega

theorem memoryHolds_ranks {s : State} {i : Instr} {n : Nat} (h : HeldAt (memoryHolds s i) n) : n = 4 ∨ n = 5 ∨ n = 7 := by
  unfold memoryHolds at h
  dsimp only at h
  split at h
  case h_6 => split at h <;> simp at h; omega
  case h_7 =>
    split at h
    · obtain ⟨k, hk, rfl⟩ := h
      simp_all
    · simp at h
      omega
    · simp at h
  all_goals simp at h
  all_goals omega

theorem engineHolds_ranks {s : State} {i : Instr} {n : Nat} (h : HeldAt (engineHolds s i) n) : n = 5 ∨ n = 6 := by
  unfold engineHolds at h
  split at h
  · simp at h
    omega
  · split at h
    · obtain ⟨k, hk, rfl⟩ := h
      simp_all
    · simp at h
      omega
    · simp at h
  · simp at h

/-! The holds of an instruction, by their place. -/

theorem held_busy {s : State} {i : Instr} : HeldAt (holdsOf s i) 2 ↔ busyHold (me s) i = true := by
  have hi := mt (issueHolds_ranks (s := s) (i := i) (n := 2)) (by decide)
  have hm := mt (memoryHolds_ranks (s := s) (i := i) (n := 2)) (by decide)
  have he := mt (engineHolds_ranks (s := s) (i := i) (n := 2)) (by decide)
  simp [holdsOf_eq, hi, hm, he]

theorem held_tiles {s : State} {i : Instr} : HeldAt (holdsOf s i) 3 ↔ touchesMarked s i = true := by
  have hi := mt (issueHolds_ranks (s := s) (i := i) (n := 3)) (by decide)
  have hm := mt (memoryHolds_ranks (s := s) (i := i) (n := 3)) (by decide)
  have he := mt (engineHolds_ranks (s := s) (i := i) (n := 3)) (by decide)
  simp [holdsOf_eq, hi, hm, he]

theorem held_pops {s : State} {i : Instr} : HeldAt (holdsOf s i) 8 ↔ popBlocked s (readsOf (me s) i) = true := by
  have hi := mt (issueHolds_ranks (s := s) (i := i) (n := 8)) (by decide)
  have hm := mt (memoryHolds_ranks (s := s) (i := i) (n := 8)) (by decide)
  have he := mt (engineHolds_ranks (s := s) (i := i) (n := 8)) (by decide)
  simp [holdsOf_eq, hi, hm, he]

theorem held_waits {s : State} {i : Instr} : HeldAt (holdsOf s i) 9 ↔ HeldAt (issueHolds s i) 9 := by
  have hm := mt (memoryHolds_ranks (s := s) (i := i) (n := 9)) (by decide)
  have he := mt (engineHolds_ranks (s := s) (i := i) (n := 9)) (by decide)
  simp [holdsOf_eq, hm, he]

theorem held_spad {s : State} {i : Instr} : HeldAt (holdsOf s i) 4 ↔
    (trapsOf s (bundleAddr s) i = [] ∧ HeldAt (memoryHolds s i) 4) ∨ HeldAt (issueHolds s i) 4 := by
  have he := mt (engineHolds_ranks (s := s) (i := i) (n := 4)) (by decide)
  simp [holdsOf_eq, he]

theorem held_walks {s : State} {i : Instr} : HeldAt (holdsOf s i) 5 ↔
    trapsOf s (bundleAddr s) i = [] ∧ (HeldAt (memoryHolds s i) 5 ∨ HeldAt (engineHolds s i) 5) := by
  have hi := mt (issueHolds_ranks (s := s) (i := i) (n := 5)) (by decide)
  simp [holdsOf_eq, hi]

theorem held_queues {s : State} {i : Instr} : HeldAt (holdsOf s i) 6 ↔ (trapsOf s (bundleAddr s) i = [] ∧ HeldAt (engineHolds s i) 6) ∨
    (isArrayCommand i = true ∧ 32 ≤ (arrayQueue s (coreOf s.cur)).length) ∨ (isBankCommand i = true ∧ 16 ≤ (bankQueue s s.cur).length) := by
  have hi := mt (issueHolds_ranks (s := s) (i := i) (n := 6)) (by decide)
  have hm := mt (memoryHolds_ranks (s := s) (i := i) (n := 6)) (by decide)
  simp [holdsOf_eq, hi, hm]

theorem held_conditions {s : State} {i : Instr} : HeldAt (holdsOf s i) 7 ↔
    (trapsOf s (bundleAddr s) i = [] ∧ HeldAt (memoryHolds s i) 7) ∨ HeldAt (issueHolds s i) 7 := by
  have he := mt (engineHolds_ranks (s := s) (i := i) (n := 7)) (by decide)
  simp [holdsOf_eq, he]

end Sys2Proof.Machine
/-! O37: the conditions of the holds, written out, and the obligation. -/

namespace Sys2Proof.Machine

theorem busyField_iff {sq : Seq} {f : BitVec 6} : busyField sq f = true ↔
    (f.toNat < 32 ∧ sq.busy.getLsbD f.toNat = true) ∨ (f = 37 ∧ sq.busy.getLsbD 32 = true) := by
  simp [busyField]

/-- Bit 5 of a register field tells the registers from the latches. -/
theorem lowField_iff (e : BitVec 6) : e.getLsbD 5 = false ↔ e.toNat < 32 := by
  rw [BitVec.getLsbD, Nat.testBit_eq_decide_div_mod_eq]
  simp
  omega

/-- R58: an instruction meets a busy register where it reads, pops or writes one. -/
theorem busyHold_iff {sq : Seq} {i : Instr} : busyHold sq i = true ↔
    (∃ f ∈ readsOf sq i, (f.toNat < 32 ∧ sq.busy.getLsbD f.toNat = true) ∨ (f = 37 ∧ sq.busy.getLsbD 32 = true)) ∨
      ∃ e, scalarDest i = some e ∧ e.toNat < 32 ∧ sq.busy.getLsbD e.toNat = true := by
  rw [busyHold, Bool.or_eq_true, List.any_eq_true]
  simp only [busyField_iff]
  refine or_congr_right ?_
  cases scalarDest i with
  | none => simp
  | some e =>
    simp only [Bool.and_eq_true, Bool.not_eq_true', lowField_iff, Option.some.injEq, exists_eq_left']
    refine and_congr_right fun h => ?_
    rw [Nat.mod_eq_of_lt h]

theorem touchesMarked_iff {s : State} {i : Instr} : touchesMarked s i = true ↔
    ∃ o ∈ s.ops, coreOf o.seq = coreOf s.cur ∧ ∃ k ∈ tilesTouched (me s) i, k ∈ o.wtiles := by
  simp only [touchesMarked, markedTiles, List.any_eq_true, List.contains_iff_mem, List.mem_flatMap, List.mem_filter, beq_iff_eq]
  grind

theorem popBlocked_iff {s : State} {fs : List (BitVec 6)} : popBlocked s fs = true ↔
    ∃ hi m, mapOf (me s) hi = some m ∧ queueHead s s.cur m = none ∧ (if hi then 31 else 30) ∈ fs := by
  unfold popBlocked
  simp only [Bool.or_eq_true, Bool.and_eq_true, List.contains_iff_mem, Bool.exists_bool]
  cases mapOf (me s) false <;> cases mapOf (me s) true <;> simp [and_comm]

theorem spadPending_iff {s : State} {y m : Nat} : spadPending s y m = true ↔ ∃ o ∈ s.ops, o.seq = s.cur ∧
    ∃ z, ((∃ k, o.kind = .spadLoad k z) ∨ ∃ r, o.kind = .spadStore r z) ∧ y < z + 16384 ∧ z < y + m := by
  unfold spadPending
  simp only [List.any_eq_true, Bool.and_eq_true, beq_iff_eq]
  refine exists_congr fun o => and_congr_right fun _ => and_congr_right fun _ => ?_
  cases o.kind <;> simp

/-- R90, R199: the running stream has an open operation of a region of depth k or deeper. -/
def Opened (s : State) (k : Nat) : Prop := ∃ o ∈ s.ops, o.seq = s.cur ∧ isComplete o = false ∧ k ≤ o.region

theorem openOps_ne_nil {s : State} {k : Nat} : openOps s k ≠ [] ↔ Opened s k := by simp [openOps, Opened]

/-- R87: the value of a pair of sources. -/
theorem srcPair_toNat (s : State) (a b : BitVec 6) : (srcPair s a b).toNat = (src s b).toNat * 2 ^ 32 + (src s a).toNat := by
  have ha := (src s a).isLt
  have hb := (src s b).isLt
  have hs : (src s b).toNat <<< 32 < 2 ^ 64 := by rw [Nat.shiftLeft_eq]; omega
  have h := Nat.shiftLeft_add_eq_or_of_lt ha (src s b).toNat
  rw [srcPair, BitVec.toNat_or, BitVec.toNat_shiftLeft, BitVec.toNat_setWidth, BitVec.toNat_setWidth, Nat.mod_eq_of_lt (a := (src s b).toNat) (by omega),
    Nat.mod_eq_of_lt (a := (src s a).toNat) (by omega), Nat.mod_eq_of_lt hs, ← h, Nat.shiftLeft_eq]

/-- A hold at a place of R208's table, by its condition. -/
def Held (s : State) (i : Instr) (rank : Nat) (p : Prop) : Prop := HeldAt (holdsOf s i) rank ↔ p

/-- R64: the hold of an access, which an issue trap stops. -/
def Accesses (s : State) (i : Instr) (rank : Nat) (p : Prop) : Prop := trapsOf s (bundleAddr s) i = [] → Held s i rank p

/-- R178: the hold of an access whose check waits for walks. -/
def Waits (s : State) (i : Instr) (c : Check) : Prop := Accesses s i 5 (∃ w, c = .wait w)

/-- R78: an operation between tiles and scratchpad of the running stream touches one of m bytes at y. -/
def Touched (s : State) (y m : Nat) : Prop := ∃ o ∈ s.ops, o.seq = s.cur ∧
  ∃ z, ((∃ k, o.kind = .spadLoad k z) ∨ ∃ r, o.kind = .spadStore r z) ∧ y < z + 16384 ∧ z < y + m

/-- An array command is no placed operation: its holds at the queue are those of the array's alone. -/
theorem engineHolds_noQueue {s : State} {i : Instr} (h : isArrayCommand i = true ∨ isBankCommand i = true) : ¬ HeldAt (engineHolds s i) 6 := by
  cases i <;> simp [isArrayCommand, isBankCommand] at h <;> simp [engineHolds, placedCall]

theorem isBankCommand_of_array {i : Instr} (h : isArrayCommand i = true) : isBankCommand i = false := by
  cases i <;> simp [isArrayCommand] at h <;> rfl

theorem isArrayCommand_of_bank {i : Instr} (h : isBankCommand i = true) : isArrayCommand i = false := by
  cases i <;> simp [isBankCommand] at h <;> rfl

/-- R58, R59, R80, R211, R274: the holds that every instruction can meet. -/
theorem commonHolds_hold (s : State) (i : Instr) :
    Held s i 2 ((∃ f ∈ readsOf (me s) i, (f.toNat < 32 ∧ (me s).busy.getLsbD f.toNat = true) ∨ (f = 37 ∧ (me s).busy.getLsbD 32 = true)) ∨
        ∃ e, scalarDest i = some e ∧ e.toNat < 32 ∧ (me s).busy.getLsbD e.toNat = true) ∧
      Held s i 3 (∃ o ∈ s.ops, coreOf o.seq = coreOf s.cur ∧ ∃ k ∈ tilesTouched (me s) i, k ∈ o.wtiles) ∧
      Held s i 8 (∃ hi m, mapOf (me s) hi = some m ∧ queueHead s s.cur m = none ∧ (if hi then 31 else 30) ∈ readsOf (me s) i) ∧
      (isArrayCommand i = true → Held s i 6 (32 ≤ (arrayQueue s (coreOf s.cur)).length)) ∧
      (isBankCommand i = true → Held s i 6 (16 ≤ (bankQueue s s.cur).length)) := by
  refine ⟨held_busy.trans busyHold_iff, held_tiles.trans touchesMarked_iff, held_pops.trans popBlocked_iff, fun h => ?_, fun h => ?_⟩
  · refine held_queues.trans ?_
    simp [engineHolds_noQueue (s := s) (.inl h), isBankCommand_of_array h, h]
  · refine held_queues.trans ?_
    simp [engineHolds_noQueue (s := s) (.inr h), isArrayCommand_of_bank h, h]

/-- R78: the hold of an access to the scratchpad at issue. -/
theorem held_touched {s : State} {i : Instr} {y m : Nat} {cls : Nat} (hi : issueHolds s i = holdIf (spadPending s y m) 4 cls)
    (hm : memoryHolds s i = []) : Held s i 4 (Touched s y m) := by
  refine held_spad.trans ?_
  rw [hi, hm, Touched, ← spadPending_iff]
  simp

/-- R78, R86, R90, R91, R199, R283, R310: the holds that an issue trap does not stop. -/
theorem issueHolds_hold (s : State) (l rl aq timed : Bool) (g v vs : BitVec 4) (d a b n : BitVec 6) (off : BitVec 8) (q sc id : BitVec 3)
    (cq : BitVec 2) (ev : Bool) :
    let sq := me s
    let x := src s a
    (∀ i ∈ [Instr.sld l g d a off, .sst l g d a off],
      Held s i 4 (Touched s (x + 4 * immSigned 8 off (extOf s (if l then 1 else 0))).toNat 4)) ∧
    Held s (.qld g q a n) 4 (Touched s x.toNat (2 * (n.toNat + 1))) ∧
    Held s (.tcopy g v vs a cq ev) 7 ((myCore s).lenient = true ∧ 16 ≤ (copiesIn s (coreOf s.cur) cq.toNat).length) ∧
    (sq.waitGt = none → Held s (.waitgt g a b) 9 ((gtAt s (myDie s)).toNat < (src s b).toNat * 2 ^ 32 + x.toNat)) ∧
    (∀ w, sq.waitGt = some w → Held s (.waitgt g a b) 9 (gtAt s (myDie s) < w)) ∧
    (∀ i ∈ [Instr.bar g sc id rl aq, .bararv g sc id rl],
      Held s i 9 ((rl = true ∧ allPerformed s s.cur sc.toNat = false) ∨ phaseOpen s s.cur sc.toNat id.toNat = true)) ∧
    Held s (.barwt g sc id aq) 9 (phaseOpen s s.cur sc.toNat id.toNat = true) ∧
    Held s (.launch g a timed) 9 ((∃ w, checkLaunch s x = .wait w) ∨ launchWaits s = true ∨ recordHeld s x = true) ∧
    Held s (.containend g) 9 (sq.regions ≠ [] ∧ Opened s sq.regions.length) ∧ Held s (.exit g) 9 (Opened s 0) := by
  have hlane := slotNo_s l g d a off
  have hw : (me s).waitGt = none → waitTime s a b = srcPair s a b := fun h => by simp [waitTime, h]
  have hw' : ∀ w, (me s).waitGt = some w → waitTime s a b = w := fun w h => by simp [waitTime, h]
  dsimp only
  refine ⟨?_, ?_, ?_, ?_, ?_, ?_, ?_, ?_, ?_, ?_⟩
  · simp only [List.forall_mem_cons]
    refine ⟨held_touched (cls := 0) ?_ rfl, held_touched (cls := 0) ?_ rfl, nofun⟩
    · rw [← hlane.1]
      rfl
    · rw [← hlane.2]
      rfl
  · exact held_touched (cls := 5) rfl rfl
  · exact held_conditions.trans (by simp [memoryHolds, issueHolds])
  · intro h
    refine held_waits.trans ?_
    simp [issueHolds, hw h, BitVec.lt_def, srcPair_toNat]
  · intro w h
    refine held_waits.trans ?_
    simp [issueHolds, hw' w h]
  · simp only [List.forall_mem_cons]
    exact ⟨held_waits.trans (by simp [issueHolds, arrivalHolds]), held_waits.trans (by simp [issueHolds, arrivalHolds]), nofun⟩
  · exact held_waits.trans (by simp [issueHolds])
  · exact held_waits.trans (by simp [issueHolds])
  · exact held_waits.trans (by simp [issueHolds, openOps_ne_nil])
  · exact held_waits.trans (by simp [issueHolds, openOps_ne_nil])

end Sys2Proof.Machine

namespace Sys2Proof.Machine

theorem held_accessWalks {s : State} {i : Instr} {c : Check} {cls : Nat} (hm : memoryHolds s i = holdCheck c cls) (he : engineHolds s i = []) :
    Waits s i c := by
  intro ht
  refine held_walks.trans ?_
  rw [ht, hm, he]
  simp

theorem trapsOf_send (s : State) (x : Word) (g t : BitVec 4) (a b : BitVec 6) (timed : Bool) : trapsOf s x (.send g a t b timed) = [] := rfl

/-- R268: the atomics of the given fields, each with its operation. -/
def atomicForms (g v : BitVec 4) (d a : BitVec 6) (ord ws : BitVec 2) (d5 : BitVec 5) : List (AtomicOp × Instr) :=
  [(AtomicOp.add, Instr.aadd g d v a ord ws), (.smin, .amin g d v a ord ws), (.smax, .amax g d v a ord ws),
    (.umin, .aminu g d v a ord ws), (.umax, .amaxu g d v a ord ws), (.and, .aand g d v a ord ws), (.or, .aor g d v a ord ws),
    (.xor, .axor g d v a ord ws), (.xchg, .axchg g d v a ord ws), (.incb, .aincb g d v a ord ws), (.fadd, .afadd g d v a ord ws),
    (.faddh, .afaddh g d v a ord ws), (.load, .ald g d v a ord ws), (.store, .ast g d v a ord ws), (.cas, .acas g d5 v a ord ws)]

/-- R268: the check of each atomic is that of its operation. -/
theorem holds_of_atomicForms (s : State) (g v : BitVec 4) (d a : BitVec 6) (ord ws : BitVec 2) (d5 : BitVec 5) : ∀ p ∈ atomicForms g v d a ord ws d5,
    memoryHolds s p.2 = holdCheck (checkAtomic s (viewAt (me s) v.toNat) p.1 (src s a)) 3 ∧ engineHolds s p.2 = [] := by
  simp only [atomicForms, List.forall_mem_cons]
  exact ⟨⟨rfl, rfl⟩, ⟨rfl, rfl⟩, ⟨rfl, rfl⟩, ⟨rfl, rfl⟩, ⟨rfl, rfl⟩, ⟨rfl, rfl⟩, ⟨rfl, rfl⟩, ⟨rfl, rfl⟩, ⟨rfl, rfl⟩, ⟨rfl, rfl⟩, ⟨rfl, rfl⟩,
    ⟨rfl, rfl⟩, ⟨rfl, rfl⟩, ⟨rfl, rfl⟩, ⟨rfl, rfl⟩, List.forall_mem_nil _⟩

/-- R243: the holds of a placed operation's read phase. -/
theorem engineHolds_placed {s : State} {i : Instr} {c : PlacedCall} (h : placedCall i = some c) : HeldAt (engineHolds s i) 6 ↔
    ((∃ w, checkPlaced s s.cur c = .wait w) ∨ (checkPlaced s s.cur c = .ok ∧
      (readDone s s.cur c = false ∨ ((decideHome s s.cur c).1 = .array ∧ 32 ≤ (arrayQueue s (coreOf s.cur)).length)))) := by
  have hi : ∀ g a sg sw fmt, i ≠ .mstatHandle g a sg sw fmt := by
    rintro g a sg sw fmt rfl
    cases h
  unfold engineHolds
  rw [h]
  split
  · next heq => exact (hi _ _ _ _ _ rfl).elim
  · next c' heq =>
    cases heq
    cases checkPlaced s s.cur c <;> simp [HeldAt, holdIf]
  · next heq => cases heq

theorem placed_not_command {i : Instr} {c : PlacedCall} (h : placedCall i = some c) : isArrayCommand i = false ∧ isBankCommand i = false := by
  unfold placedCall at h
  split at h <;> cases h <;> exact ⟨rfl, rfl⟩

/-- R64, R178: the holds of the accesses, which an issue trap stops. -/
theorem accessHolds_hold (s : State) (timed : Bool) (g t v : BitVec 4) (d a b : BitVec 6) (sc : BitVec 3)
    (ord ws : BitVec 2) (cx : Bool) (cls : BitVec 4) (d5 : BitVec 5) (mode sg : BitVec 2) (fmt : BitVec 4) (sw : Bool) :
    let sq := me s
    let V := viewAt sq v.toNat
    let x := src s a
    (∀ i ∈ [Instr.tgath g t v a cx cls, .tscat g t v a cx cls], Accesses s i 4 (Touched s x.toNat 256)) ∧
    Held s (.send g a t b timed) 7 ((timed = true ∧ gtAt s (myDie s) < sq.ts) ∨
      (sq.sendFull = false ∧ (sendState s s.cur x = .full ∨ sendState s s.cur x = .asking))) ∧
    (checkStamp s V x = .ok → Accesses s (.waitm g d v a timed ws) 7 (stampRead s V x (ws.toNat + 1) = false ∨ (anyPoison s (stampTag s.cur) = false ∧
      stampDamaged s V x = false ∧ stampReached (stampWord s V x (ws.toNat + 1) % 2 ^ 32) (src s d) = false))) ∧
    Waits s (.waitm g d v a timed ws) (checkStamp s V x) ∧
    (let w := openingView V mode sc cls;
      checkFirst s v.toNat w = .ok → Accesses s (.vopen g v mode sc cls) 7 (openHeld s v.toNat w = true)) ∧
    Waits s (.tld g t v a cx cls) (checkRows s V (seqRows x) false) ∧ Waits s (.tst g t v a cx cls) (checkRows s V (seqRows x) true) ∧
    Waits s (.tgath g t v a cx cls) (checkRows s V (indexRows (myCore s) x.toNat) false) ∧
    Waits s (.tscat g t v a cx cls) (checkRows s V (indexRows (myCore s) x.toNat) true) ∧
    Waits s (.ared g t v a cx cls) (checkAred s V x.toNat) ∧ Waits s (.mstatHandle g a sg sw fmt) (checkFetch s x) ∧
    (∀ op i, (op, i) ∈ atomicForms g v d a ord ws d5 → Waits s i (checkAtomic s V op x)) ∧
    ∀ i c, placedCall i = some c → Accesses s i 6 ((∃ w, checkPlaced s s.cur c = .wait w) ∨ (checkPlaced s s.cur c = .ok ∧
      (readDone s s.cur c = false ∨ ((decideHome s s.cur c).1 = .array ∧ 32 ≤ (arrayQueue s (coreOf s.cur)).length)))) := by
  dsimp only
  refine ⟨?_, ?_, ?_, ?_, ?_, held_accessWalks (cls := 3) rfl rfl, held_accessWalks (cls := 3) rfl rfl, ?_, ?_, held_accessWalks (cls := 3) rfl rfl, ?_,
    ?_, ?_⟩
  · simp only [List.forall_mem_cons]
    refine ⟨fun ht => held_spad.trans ?_, fun ht => held_spad.trans ?_, nofun⟩
    · rw [Touched, ← spadPending_iff]
      simp [ht, memoryHolds, issueHolds]
    · rw [Touched, ← spadPending_iff]
      simp [ht, memoryHolds, issueHolds]
  · refine held_conditions.trans ?_
    simp [trapsOf_send, memoryHolds, issueHolds, sendEarly, sendWaits]
  · intro hc ht
    refine held_conditions.trans ?_
    simp [ht, memoryHolds, issueHolds, hc, and_assoc]
  · intro ht
    refine held_walks.trans ?_
    cases hc : checkStamp s (viewAt (me s) v.toNat) (src s a) <;> simp [ht, memoryHolds, engineHolds, placedCall, hc, HeldAt, holdIf]
  · intro hc ht
    refine held_conditions.trans ?_
    simp [ht, memoryHolds, issueHolds, hc]
  · intro ht
    refine held_walks.trans ?_
    simp [ht, memoryHolds, engineHolds, placedCall]
  · intro ht
    refine held_walks.trans ?_
    simp [ht, memoryHolds, engineHolds, placedCall]
  · intro ht
    refine held_walks.trans ?_
    simp [ht, memoryHolds, engineHolds]
  · intro op i h
    obtain ⟨hm, he⟩ := holds_of_atomicForms s g v d a ord ws d5 (op, i) h
    exact held_accessWalks hm he
  · intro i c h ht
    refine held_queues.trans ?_
    simp [ht, engineHolds_placed h, placed_not_command h]

/-! The obligation. -/

/-- R64, R67: an instruction on its own whose guard is false, one that is held, and one that an issue trap stops. -/
theorem alone_cases {i : Instr} {s : State} (hi : (slotOf i).isSome = true) (ha : (me s).issue = none) :
    (guardTrue (me s).preds (guardOf i) = false → exec i s = .next s) ∧
    (guardTrue (me s).preds (guardOf i) = true → (∃ h, firstHold (holdsOf s i) = some h) → ∃ t, exec i s = .next t ∧ Idles s t) ∧
    ∀ x, guardTrue (me s).preds (guardOf i) = true → firstHold (holdsOf s i) = none → firstTrap (trapsOf s (me s).pc i) = some x →
      exec i s = .next (issueTrap s (me s).pc x.cause (slotNo i)) := by
  obtain ⟨cl, hcl⟩ := Option.isSome_iff_exists.mp hi
  obtain ⟨body, hb⟩ := exec_framed s hcl
  rw [hb]
  refine ⟨slotStep_off, ?_, ?_⟩
  · rintro hg ⟨h, hh⟩
    exact ⟨_, slotStep_held hg ha hh, slotHeld_idles s i h⟩
  · intro x hg hh hx
    exact slotStep_trap hg ha hh hx

/-- Settles O37: part by part: an instruction on its own by the three ways that it does not run, then each trap and each hold by what the tables of
traps and of holds give for its instruction. -/
theorem guardsHoldsAndTraps : Obligations.GuardsHoldsAndTraps := by
  unfold Obligations.GuardsHoldsAndTraps
  refine ⟨?_, ?_, ?_, ?_⟩
  · intro i s hi ha
    obtain ⟨hoff, hheld, htrap⟩ := alone_cases hi ha
    refine ⟨hoff, fun hg hh => ?_, fun x hg hh hx => ⟨firstTrap_lowest hx, fun htr => ?_⟩⟩
    · obtain ⟨t, ht, -, hr, hq, hk, ho, hm, hs⟩ := hheld hg hh
      exact ⟨t, ht, hr, hq, hk, ho, hm, hs⟩
    · obtain ⟨hst, hstop, hr, hq, hv, ho, hs⟩ := issueTrap_leaves (me s).pc x.cause (slotNo i) htr
      exact ⟨_, htrap x hg hh hx, hst, ⟨_, hstop, rfl, rfl, rfl, rfl, rfl⟩, hr, hq, hv, ho, hs⟩
  · intro s at_ l reg g cq4 k pm v d a off len cnt boff lv cq ev
    obtain ⟨htaken, htarget, hloop⟩ := transferTraps_hold s at_ g k a off len cnt boff
    obtain ⟨hbrk, hbrk', hstg, hbkt, hmap, hword, heret, heret', hcopy, hcont, hend⟩ := controlTraps_hold s at_ l reg g cq4 k pm v d a off boff lv cq ev
    exact ⟨fun i => stageTrap_mem, htaken, htarget, hloop, hbrk, hbrk', hstg, hbkt, hmap, hword, heret, heret', hcopy, hcont, hend,
      fun bs => queueTrap_mem, fun hd hb bs => boundaryTrap_mem hd hb bs⟩
  · intro s at_ rl cx ev g t v vs fld d a n q sc cq ord ws mode cls d5 k
    exact viewTraps_hold s at_ rl cx ev g t v vs fld d a n q sc cq ord ws mode cls d5 k
  · intro s l rl aq timed g t v vs d a b n off q sc id cq ord ws ev cx cls d5 mode sg fmt sw
    obtain ⟨hspad, hqld, hcopy, hgt, hgt', hbar, hbarwt, hlaunch, hcont, hexit⟩ := issueHolds_hold s l rl aq timed g v vs d a b n off q sc id cq ev
    obtain ⟨hrows, hsend, hrest⟩ := accessHolds_hold s timed g t v d a b sc ord ws cx cls d5 mode sg fmt sw
    exact ⟨commonHolds_hold s, hspad, hqld, hrows, hcopy, hgt, hgt', hbar, hbarwt, hlaunch, hcont, hexit, hsend, hrest⟩

end Sys2Proof.Machine

/-! What a ready S-slot or C-slot instruction leaves (R46, R53, R69): one entry of the pending-write queue, or an effect of the end of its tick. -/

namespace Sys2Proof.Machine

theorem writeScalar_eq_withScalar (s : State) (n : Nat) (d : BitVec 6) (x : Word) (k : Nat) : writeScalar s n d x k = withScalar s n d x k := by
  have hd : (if d.getLsbD 5 then Dest.latch else .scalar (d.setWidth 5)) = scalarTo d := by
    unfold scalarTo
    by_cases h : d.toNat < 32
    · rw [(lowField_iff d).mpr h, if_pos h]
      exact congrArg Dest.scalar (BitVec.eq_of_toNat_eq (by simp))
    · have hb : d.getLsbD 5 = true := by
        rw [← Bool.not_eq_false, lowField_iff]
        exact h
      rw [hb, if_neg h, if_pos rfl]
  rw [writeScalar, hd, enqueue_eq_withEntry (BitVec.toNat_setWidth_of_le (by decide))]
  rfl

theorem writePred_eq_withPred (s : State) (n : Nat) (p : BitVec 3) (x : Bool) : writePred s n p x 1 = withPred s n p x := by
  rw [writePred, enqueue_eq_withEntry (x := x.toNat) (by cases x <;> rfl)]
  rfl

theorem atEnd_alone {s : State} {e : EndEffect} (h : (me s).issue = none) : atEnd e s = applyEnd s e := by
  simp [atEnd, h]

theorem atEnd_inBundle {s : State} {e : EndEffect} {c : IssueCtx} (h : (me s).issue = some c) :
    atEnd e s = setMe s { me s with issue := some { c with ends := c.ends ++ [e] } } := by
  simp [atEnd, h]

section
variable {i : Instr} {s : State} {body : State → Except SlotFault State} (o : SlotOutcome) (he : exec i s = o) (ho : o = slotStep i s body)
include he ho

/-- R46: a ready instruction, with the meaning o, whose body writes a scalar result. -/
theorem does_withScalar {t : State} {n k : Nat} {d : BitVec 6} {x y : Word} (hb : body s = .ok (writeScalar t n d x k)) (h : x = y)
    (hr : slotReady i s = true) : does i s (withScalar t n d y k) := by
  rw [writeScalar_eq_withScalar, h] at hb
  exact does_of_body o hr he ho hb

/-- R46: the same, whose body writes a predicate. -/
theorem does_withPred {n : Nat} {p : BitVec 3} {x y : Bool} (hb : body s = .ok (writePred s n p x 1)) (h : x = y)
    (hr : slotReady i s = true) : does i s (withPred s n p y) := by
  rw [writePred_eq_withPred, h] at hb
  exact does_of_body o hr he ho hb

/-- R69: the same, whose body leaves an effect for the end of the tick, over the state u of its other effects. -/
theorem actsAtEnd_over {u t : State} {e e' : EndEffect} (hb : body s = .ok (atEnd e u)) (h : e = e') (hu : (me u).issue = (me s).issue)
    (ht : applyEnd u e' = t) (hr : slotReady i s = true) : actsAtEnd i s u e' t := by
  subst h
  have hd : does i s (atEnd e u) := does_of_body o hr he ho hb
  unfold actsAtEnd
  cases hi : (me s).issue with
  | none => rwa [atEnd_alone (hu.trans hi), ht] at hd
  | some c => rwa [atEnd_inBundle (hu.trans hi)] at hd

/-- R69: the same, whose only effect is that of the end of the tick. -/
theorem actsAtEnd_only {t : State} {e e' : EndEffect} (hb : body s = .ok (atEnd e s)) (h : e = e') (ht : applyEnd s e' = t)
    (hr : slotReady i s = true) : actsAtEnd i s s e' t := actsAtEnd_over o he ho hb h rfl ht hr

end

end Sys2Proof.Machine

/-! O11: the results of R70. -/

namespace Sys2Proof.Machine

theorem shiftLeft_eq (a : Word) (n : Nat) : shiftLeft a n = if n < 32 then BitVec.ofNat 32 (a.toNat * 2 ^ n) else 0 := by
  unfold shiftLeft
  split
  · exact BitVec.eq_of_toNat_eq (by rw [BitVec.toNat_shiftLeft, Nat.shiftLeft_eq, BitVec.toNat_ofNat])
  · rfl

theorem shiftRight_eq (a : Word) (n : Nat) : shiftRight a n = if n < 32 then BitVec.ofNat 32 (a.toNat / 2 ^ n) else 0 := by
  unfold shiftRight
  split
  · refine BitVec.eq_of_toNat_eq ?_
    rw [BitVec.toNat_ushiftRight, Nat.shiftRight_eq_div_pow, BitVec.toNat_ofNat, Nat.mod_eq_of_lt (Nat.lt_of_le_of_lt (Nat.div_le_self ..) a.isLt)]
  · rfl

theorem shiftArith_eq (a : Word) (n : Nat) :
    shiftArith a n = if n < 32 then BitVec.ofInt 32 (a.toInt / 2 ^ n) else if a.toInt < 0 then 0xFFFFFFFF else 0 := by
  have hm : a.msb = decide (a.toInt < 0) := BitVec.msb_eq_toInt
  unfold shiftArith
  simp only [hm, decide_eq_true_eq]
  split
  · rw [BitVec.sshiftRight, Int.shiftRight_eq_div_pow]
    rfl
  · rfl

/-- R70: the leading zeros of the low n bits, all that a number below 2^n has. -/
theorem leadingZeros_eq (a : Word) (n : Nat) (h : a.toNat < 2 ^ n) : leadingZeros n a = if a = 0 then n else n - 1 - a.toNat.log2 := by
  induction n with
  | zero =>
    have h0 : a = 0 := BitVec.eq_of_toNat_eq (by simpa using h)
    simp [leadingZeros, h0]
  | succ n ih =>
    unfold leadingZeros
    by_cases hb : 2 ^ n ≤ a.toNat
    · have hbit : a.getLsbD n = true := by
        rw [← BitVec.testBit_toNat]
        exact Nat.testBit_of_two_pow_le_and_two_pow_add_one_gt hb h
      have h0 : a ≠ 0 := by
        rintro rfl
        exact absurd hb (Nat.not_le.mpr (Nat.two_pow_pos n))
      have hlog : a.toNat.log2 = n := (Nat.log2_eq_iff (by omega)).mpr ⟨hb, h⟩
      rw [hbit, if_pos rfl, if_neg h0, hlog]
      omega
    · have hbit : a.getLsbD n = false := by
        rw [← BitVec.testBit_toNat]
        exact Nat.testBit_lt_two_pow (by omega)
      rw [hbit, ih (by omega)]
      simp only [Bool.false_eq_true, if_false]
      by_cases h0 : a = 0
      · simp [h0, Nat.add_comm]
      · have hz : a.toNat ≠ 0 := fun hz => h0 (BitVec.eq_of_toNat_eq hz)
        have hlog : a.toNat.log2 < n := (Nat.log2_lt hz).mpr (by omega)
        simp only [h0, if_false]
        omega

section
variable (a b : Word)

theorem ite_slt_min : (if a.slt b then a else b) = if a.toInt ≤ b.toInt then a else b := by
  rcases lt_trichotomy a.toInt b.toInt with h | h | h
  · simp [BitVec.slt, h, le_of_lt h]
  · simp [BitVec.toInt_inj.mp h]
  · simp [BitVec.slt, not_lt.mpr (le_of_lt h), not_le.mpr h]

theorem ite_slt_max : (if a.slt b then b else a) = if a.toInt ≤ b.toInt then b else a := by
  rcases lt_trichotomy a.toInt b.toInt with h | h | h
  · simp [BitVec.slt, h, le_of_lt h]
  · simp [BitVec.toInt_inj.mp h]
  · simp [BitVec.slt, not_lt.mpr (le_of_lt h), not_le.mpr h]

theorem ite_ult_min : (if a.ult b then a else b) = if a.toNat ≤ b.toNat then a else b := by
  rcases lt_trichotomy a.toNat b.toNat with h | h | h
  · simp [BitVec.ult, h, le_of_lt h]
  · simp [BitVec.eq_of_toNat_eq h]
  · simp [BitVec.ult, not_lt.mpr (le_of_lt h), not_le.mpr h]

theorem ite_ult_max : (if a.ult b then b else a) = if a.toNat ≤ b.toNat then b else a := by
  rcases lt_trichotomy a.toNat b.toNat with h | h | h
  · simp [BitVec.ult, h, le_of_lt h]
  · simp [BitVec.eq_of_toNat_eq h]
  · simp [BitVec.ult, not_lt.mpr (le_of_lt h), not_le.mpr h]

theorem add_eq_ofNat : a + b = BitVec.ofNat 32 (a.toNat + b.toNat) := by bv_omega

theorem sub_eq_ofInt : a - b = BitVec.ofInt 32 (a.toInt - b.toInt) := by
  rw [← BitVec.toInt_inj, BitVec.toInt_sub, BitVec.toInt_ofInt]

theorem add_shiftLeft_eq_ofNat (n : Nat) : a + b <<< n = BitVec.ofNat 32 (a.toNat + b.toNat * 2 ^ n) := by
  refine BitVec.eq_of_toNat_eq ?_
  rw [BitVec.toNat_add, BitVec.toNat_shiftLeft, Nat.shiftLeft_eq, BitVec.toNat_ofNat, Nat.add_mod_mod]

end

section
variable {i : Instr} {s : State} {l : Bool} {d a b : BitVec 6} {k : Nat} {y : Word} (o : SlotOutcome)

/-- R70: a ready instruction whose meaning o is a two-operand form. -/
theorem does_scalar2 {f : Word → Word → Word} (he : exec i s = o) (ho : o = scalar2 i l d a b k f s) (h : f (src s a) (src s b) = y)
    (hr : slotReady i s = true) : does i s (withScalar s (sSlot l) d y k) :=
  does_withScalar o he ho rfl h hr

/-- R70: the same, of a one-operand form. -/
theorem does_scalar1 {f : Word → Word} (he : exec i s = o) (ho : o = scalar1 i l d a f s) (h : f (src s a) = y) (hr : slotReady i s = true) :
    does i s (withScalar s (sSlot l) d y 1) :=
  does_withScalar o he ho rfl h hr

end

/-- Settles O11: each instruction's frame puts its result in the queue, and each result is that of the table by the lemma of its operation. -/
theorem scalarArithmeticResults : Obligations.ScalarArithmeticResults := by
  refine ⟨fun s l g d a b => ?_, by decide⟩
  intro A B n w
  have hclz : BitVec.ofNat 32 (leadingZeros 32 A) = BitVec.ofNat 32 (if A = 0 then 32 else 31 - A.toNat.log2) := by
    rw [leadingZeros_eq A 32 A.isLt]
  exact ⟨does_scalar2 (execAdd l g d a b s) rfl rfl (add_eq_ofNat A B),
    does_scalar2 (execSub l g d a b s) rfl rfl (sub_eq_ofInt A B),
    does_scalar2 (execAnd l g d a b s) rfl rfl rfl,
    does_scalar2 (execOr l g d a b s) rfl rfl rfl,
    does_scalar2 (execXor l g d a b s) rfl rfl rfl,
    does_scalar2 (execShl l g d a b s) rfl rfl (shiftLeft_eq A n),
    does_scalar2 (execShr l g d a b s) rfl rfl (shiftRight_eq A n),
    does_scalar2 (execSra l g d a b s) rfl rfl (shiftArith_eq A n),
    does_scalar2 (execMin l g d a b s) rfl rfl (ite_slt_min A B),
    does_scalar2 (execMax l g d a b s) rfl rfl (ite_slt_max A B),
    does_scalar2 (execMinu l g d a b s) rfl rfl (ite_ult_min A B),
    does_scalar2 (execMaxu l g d a b s) rfl rfl (ite_ult_max A B),
    does_scalar1 (execMov l g d a s) rfl rfl rfl,
    fun sh => does_scalar2 (execAddsh l g d a b sh s) rfl rfl (add_shiftLeft_eq_ofNat A B sh.toNat),
    does_scalar1 (execClz l g d a s) rfl rfl hclz⟩

end Sys2Proof.Machine

/-! O12: the results of R71, and what a source field reads while a result is pending. -/

namespace Sys2Proof.Machine

@[simp] theorem me_withEntry (s : State) (p : Pend) : me (withEntry s p) = { me s with queue := (me s).queue ++ [p] } := me_setMe s _

/-- A result in the queue changes of the streams their queues alone. -/
theorem seqAt_withEntry (s : State) (p : Pend) (q : Nat) : ∃ l, seqAt (withEntry s p) q = { seqAt s q with queue := l } := by
  by_cases h : q = s.cur
  · subst h
    exact ⟨_, seqAt_setMe_cur s _⟩
  · exact ⟨_, seqAt_setMe_ne s _ h⟩

/-- R80: a result in the queue leaves the entries that the mapped registers read. -/
theorem queueHead_withEntry (s : State) (p : Pend) (q : Nat) (m : QueueMap) : queueHead (withEntry s p) q m = queueHead s q m := by
  have h30 : ∀ q, (seqAt (withEntry s p) q).map30 = (seqAt s q).map30 := fun q => by obtain ⟨l, h⟩ := seqAt_withEntry s p q; rw [h]
  have h31 : ∀ q, (seqAt (withEntry s p) q).map31 = (seqAt s q).map31 := fun q => by obtain ⟨l, h⟩ := seqAt_withEntry s p q; rw [h]
  have hh : ∀ k n, heldCount (withEntry s p) k n = heldCount s k n := fun k n => by simp only [heldCount, h30, h31]
  simp only [queueHead, hh]
  rfl

/-- R56: until it lands, a result changes no source. -/
theorem src_withEntry (s : State) (p : Pend) (f : BitVec 6) : src (withEntry s p) f = src s f := by
  have hq : ∀ m, queueHead (withEntry s p) (withEntry s p).cur m = queueHead s s.cur m := queueHead_withEntry s p s.cur
  simp only [src, me_withEntry, hq]
  rfl

theorem quotient_eq (a b : Word) : quotient a b = if b = 0 then 0xFFFFFFFF else BitVec.ofNat 32 (a.toNat / b.toNat) := by
  unfold quotient
  split
  · rfl
  · refine BitVec.eq_of_toNat_eq ?_
    rw [BitVec.toNat_udiv, BitVec.toNat_ofNat, Nat.mod_eq_of_lt (Nat.lt_of_le_of_lt (Nat.div_le_self ..) a.isLt)]

theorem remainder_eq (a b : Word) : remainder a b = if b = 0 then a else BitVec.ofNat 32 (a.toNat - b.toNat * (a.toNat / b.toNat)) := by
  unfold remainder
  split
  · rfl
  · refine BitVec.eq_of_toNat_eq ?_
    rw [BitVec.toNat_umod, BitVec.toNat_ofNat, ← Nat.mod_eq_sub_mul_div, Nat.mod_eq_of_lt (Nat.lt_of_le_of_lt (Nat.mod_le ..) a.isLt)]

theorem mul_eq_ofNat (a b : Word) : a * b = BitVec.ofNat 32 (a.toNat * b.toNat) :=
  BitVec.eq_of_toNat_eq (by rw [BitVec.toNat_mul, BitVec.toNat_ofNat])

/-- Settles O12: each instruction's frame puts its result in the queue, and an entry of the queue changes no source (src_withEntry). -/
theorem multiplyDivideResults : Obligations.MultiplyDivideResults :=
  ⟨fun s l g d a b => ⟨does_scalar2 (execMul l g d a b s) rfl rfl (mul_eq_ofNat _ _), does_scalar2 (execMulh l g d a b s) rfl rfl rfl,
    does_scalar2 (execMulhu l g d a b s) rfl rfl rfl, does_scalar2 (execDivu l g d a b s) rfl rfl (quotient_eq _ _),
    does_scalar2 (execRemu l g d a b s) rfl rfl (remainder_eq _ _)⟩, fun s _ _ f _ _ => src_withEntry s _ f⟩

end Sys2Proof.Machine

/-! O13: the immediate forms (R20, R24, R25, R72). -/

namespace Sys2Proof.Machine

/-- R20: the register that a destination field names. -/
theorem regField_eq (d : BitVec 6) : regField d = BitVec.ofNat 6 (d.toNat % 32) := by
  refine BitVec.eq_of_toNat_eq ?_
  rw [regField, BitVec.toNat_and, BitVec.toNat_ofNat, Nat.mod_eq_of_lt (by omega)]
  exact Nat.and_two_pow_sub_one_eq_mod d.toNat 5

/-- R25: an extended immediate of the S slot fills the word. -/
theorem imm12_eq (s : State) (l : Bool) (imm : BitVec 12) : imm12 s l imm = wordImmediate s (sSlot l) imm := by
  unfold imm12 wordImmediate immSigned
  cases extOf s (sSlot l) <;> rfl

/-- R72: MOVH. -/
theorem movh_eq (imm : BitVec 12) (x : Word) :
    (imm.setWidth 32 <<< 20) ||| (x &&& 0xFFFFF) = BitVec.ofNat 32 (imm.toNat * 2 ^ 20 + x.toNat % 2 ^ 20) := by
  have hx : (x &&& 0xFFFFF).toNat = x.toNat % 2 ^ 20 := by
    rw [BitVec.toNat_and]
    exact Nat.and_two_pow_sub_one_eq_mod x.toNat 20
  have hi : (imm.setWidth 32 <<< 20).toNat = imm.toNat <<< 20 := by
    rw [BitVec.toNat_shiftLeft, BitVec.toNat_setWidth_of_le (by decide), Nat.mod_eq_of_lt]
    rw [Nat.shiftLeft_eq]
    omega
  have hb : imm.toNat * 2 ^ 20 + x.toNat % 2 ^ 20 < 2 ^ 32 := by omega
  refine BitVec.eq_of_toNat_eq ?_
  rw [BitVec.toNat_or, hx, hi, ← Nat.shiftLeft_add_eq_or_of_lt (Nat.mod_lt _ (by decide)), Nat.shiftLeft_eq, BitVec.toNat_ofNat, Nat.mod_eq_of_lt hb]

/-- R72: a ready instruction whose meaning o is a two-address immediate form. -/
theorem does_scalarImm {i : Instr} {s : State} {l : Bool} {d : BitVec 6} {y : Word} (o : SlotOutcome) {f : Word → Word} (he : exec i s = o)
    (ho : o = scalarImm i l d f s) (h : f (src s (BitVec.ofNat 6 (d.toNat % 32))) = y) (hr : slotReady i s = true) :
    does i s (withScalar s (sSlot l) d y 1) :=
  does_withScalar o he ho rfl (regField_eq d ▸ h) hr

/-- R72: the shift counts of the immediate forms are below 32. -/
theorem shiftImm_not_wf {imm : BitVec 12} (h : 32 ≤ imm.toNat) (l : Bool) (g : BitVec 4) (d : BitVec 6) :
    (Instr.shli l g d imm).wf = false ∧ (Instr.shri l g d imm).wf = false ∧ (Instr.srai l g d imm).wf = false := by
  simp [Instr.wf, h]

/-- Settles O13: each instruction's frame puts its result in the queue, and its immediate is that of its slot by imm12_eq. -/
theorem immediateFormResults : Obligations.ImmediateFormResults := by
  intro s l g d imm D I w
  have hi : imm12 s l imm = I := imm12_eq s l imm
  exact ⟨does_withScalar (execMovi l g d imm s) rfl rfl rfl hi,
    does_scalarImm (execAddi l g d imm s) rfl rfl (hi ▸ add_eq_ofNat D (imm12 s l imm)),
    does_scalarImm (execAndi l g d imm s) rfl rfl (congrArg (D &&& ·) hi),
    does_scalarImm (execOri l g d imm s) rfl rfl (congrArg (D ||| ·) hi),
    does_scalarImm (execXori l g d imm s) rfl rfl (congrArg (D ^^^ ·) hi),
    does_scalarImm (execMovh l g d imm s) rfl rfl (movh_eq imm D),
    fun hn => ⟨does_scalarImm (execShli l g d imm s) rfl rfl ((shiftLeft_eq D imm.toNat).trans (if_pos hn)),
      does_scalarImm (execShri l g d imm s) rfl rfl ((shiftRight_eq D imm.toNat).trans (if_pos hn)),
      does_scalarImm (execSrai l g d imm s) rfl rfl ((shiftArith_eq D imm.toNat).trans (if_pos hn))⟩,
    fun hn => shiftImm_not_wf hn l g d⟩

end Sys2Proof.Machine

/-! O16: compares and predicates (R15, R21, R25, R77). -/

namespace Sys2Proof.Machine

theorem not_decide_lt {α : Type} [LinearOrder α] (x y : α) : (!decide (x < y)) = decide (y ≤ x) := by
  rw [← decide_not]
  exact decide_eq_decide.mpr not_lt

/-- R21: the truth of a condition. -/
theorem condTrue_eq (cc : BitVec 3) (a b : Word) : condTrue cc a b = condition cc.toNat a b := by
  unfold condTrue condition
  split
  case h_1 h => simp [h, Bool.beq_eq_decide_eq]
  case h_2 h => simp [h, bne, Bool.beq_eq_decide_eq]
  case h_3 h => simp [h, BitVec.slt]
  case h_4 h => simp [h, BitVec.slt, not_decide_lt]
  case h_5 h => simp [h, BitVec.ult]
  case h_6 h0 h1 h2 h3 h4 => rw [if_neg h0, if_neg h1, if_neg h2, if_neg h3, if_neg h4, BitVec.ult, not_decide_lt]

/-- R24, R25: a signed immediate of eight bits, extended by the bundle's XIMM where that names slot n. -/
def byteImmediate (s : State) (n : Nat) (imm : BitVec 8) : Word :=
  match extOf s n with
  | none => BitVec.ofInt 32 imm.toInt
  | some e => BitVec.ofInt 32 ((BitVec.ofNat 28 (e.toNat * 2 ^ 8 + imm.toNat)).toInt)

theorem immSigned_byte (s : State) (n : Nat) (imm : BitVec 8) : immSigned 8 imm (extOf s n) = byteImmediate s n imm := by
  unfold immSigned byteImmediate
  cases extOf s n <;> rfl

theorem cond_not_wf {cc : BitVec 3} (h : 6 ≤ cc.toNat) (l : Bool) (g : BitVec 4) (pd : BitVec 3) (a b : BitVec 6) (imm : BitVec 8) :
    (Instr.cmp l g pd cc a b).wf = false ∧ (Instr.cmpi l g pd cc a imm).wf = false := by
  have hcc : ccOk cc = false := by simp [ccOk, h]
  simp [Instr.wf, hcc]

/-- R77: a ready instruction whose meaning o is a predicate operation. -/
theorem does_predOp {i : Instr} {s : State} {pd pa pb : BitVec 3} {na nb : Bool} (o : SlotOutcome) {f : Bool → Bool → Bool} (he : exec i s = o)
    (ho : o = predOp i pd pa pb na nb f s) (hr : slotReady i s = true) :
    does i s (withPred s 2 pd (f (predVal (me s).preds pa != na) (predVal (me s).preds pb != nb))) := does_withPred o he ho rfl rfl hr

/-- Settles O16: each instruction's frame puts its truth in the queue, that of a compare by condTrue_eq. -/
theorem compareAndPredicateResults : Obligations.CompareAndPredicateResults := by
  intro s l g pd cc a b imm pa pb na nb I p P Q
  have hc : condTrue cc (src s a) (immSigned 8 imm (extOf s (sSlot l))) = condition cc.toNat (src s a) I := by
    rw [condTrue_eq, immSigned_byte]
    rfl
  exact ⟨fun _ => does_withPred (execCmp l g pd cc a b s) rfl rfl rfl (condTrue_eq cc _ _),
    fun _ => does_withPred (execCmpi l g pd cc a imm s) rfl rfl rfl hc, fun h => cond_not_wf h l g pd a b imm,
    does_predOp (execPand g pd pa pb na nb s) rfl rfl, does_predOp (execPor g pd pa pb na nb s) rfl rfl,
    does_predOp (execPxor g pd pa pb na nb s) rfl rfl⟩

end Sys2Proof.Machine

/-! O14: what LIDX, GTLO, GTHI and CTLRD read (R49, R73-R76). -/

namespace Sys2Proof.Machine

/-- R87: the low half of a 64-bit register. -/
theorem lowWord_toNat (x : BitVec 64) : (x.setWidth 32).toNat = x.toNat % 2 ^ 32 := BitVec.toNat_setWidth ..

/-- R87: the high half of a 64-bit register. -/
theorem highWord_toNat (x : BitVec 64) : ((x >>> 32).setWidth 32).toNat = x.toNat / 2 ^ 32 := by
  rw [BitVec.toNat_setWidth, BitVec.toNat_ushiftRight, Nat.shiftRight_eq_div_pow]
  omega

/-- R75: CECODE. -/
theorem codeWord_fields (b : Bool) (c : BitVec 8) :
    let w := BitVec.ofNat 32 ((if b then 256 else 0) + c.toNat)
    w.getLsbD 8 = b ∧ w.toNat % 2 ^ 8 = c.toNat ∧ w.toNat < 2 ^ 9 := by
  intro w
  have hw : w.toNat = (if b then 256 else 0) + c.toNat := by
    rw [BitVec.toNat_ofNat, Nat.mod_eq_of_lt]
    split <;> omega
  refine ⟨?_, ?_, ?_⟩
  · rw [← BitVec.testBit_toNat, hw, Nat.testBit_eq_decide_div_mod_eq]
    cases b <;> simp <;> omega
  · rw [hw]; split <;> omega
  · rw [hw]; split <;> omega

/-- R75, R297: CPLACE. -/
theorem placeOf_fields {q : Nat} (st : BitVec 3) (h : dieOf q < 16) :
    let w := (placeOf q st).toNat
    w < 2 ^ 15 ∧ w / 2 ^ 11 = dieOf q ∧ w / 2 ^ 4 % 2 = q % 2 ∧ w / 2 ^ 3 % 2 = 0 ∧ w % 2 ^ 3 = st.toNat ∧
      w / 2 ^ 7 % 2 ^ 4 = (if isSteward (coreOf q) then 0 else coreOf q / 4 % 16) ∧
      w / 2 ^ 5 % 2 ^ 2 = (if isSteward (coreOf q) then 0 else coreOf q % 4) := by
  have hs := st.isLt
  unfold dieOf dieOfCore at h
  unfold placeOf isSteward dieOf dieOfCore
  generalize coreOf q = k at h ⊢
  by_cases hk : k < 1024
  · have hn : ¬ 1024 ≤ k := by omega
    have hw : k / 64 * 2048 + k / 4 % 16 * 128 + k % 4 * 32 + (q % 2 * 16 + st.toNat) < 2 ^ 32 := by rw [if_pos hk] at h; omega
    simp only [hk, hn, if_true, decide_false, Bool.false_eq_true, if_false, BitVec.toNat_ofNat, Nat.mod_eq_of_lt hw] at h ⊢
    omega
  · have hn : 1024 ≤ k := by omega
    have hw : (k - 1024) * 2048 + (q % 2 * 16 + st.toNat) < 2 ^ 32 := by rw [if_neg hk] at h; omega
    simp only [hk, hn, if_false, decide_true, if_true, BitVec.toNat_ofNat, Nat.mod_eq_of_lt hw] at h ⊢
    omega

/-- R75: CSTAGE of a binding. -/
theorem stageWord_fields {b : StageBind} (h : b.level < 8) :
    let w := stageWord (some b)
    w.toNat < 2 ^ 9 ∧ w.getLsbD 8 = b.pending ∧ w.getLsbD 7 = true ∧ w.toNat / 2 ^ 4 % 2 ^ 3 = b.level ∧ w.toNat % 2 ^ 4 = b.mask.toNat := by
  intro w
  have hm := b.mask.isLt
  have hw : w.toNat = (if b.pending then 256 else 0) + 128 + b.level * 16 + b.mask.toNat := by
    show (BitVec.ofNat 32 _).toNat = _
    rw [BitVec.toNat_ofNat, Nat.mod_eq_of_lt]
    split <;> omega
  refine ⟨?_, ?_, ?_, ?_, ?_⟩
  · rw [hw]; split <;> omega
  · rw [← BitVec.testBit_toNat, hw, Nat.testBit_eq_decide_div_mod_eq]
    cases b.pending <;> simp <;> omega
  · rw [← BitVec.testBit_toNat, hw, Nat.testBit_eq_decide_div_mod_eq]
    cases b.pending <;> simp <;> omega
  · rw [hw]; split <;> omega
  · rw [hw]; split <;> omega

/-- R75: one half of CQMAP. -/
theorem mapWord_fields (m : Option QueueMap) : mapWord m < 2 ^ 8 ∧ (m = none → mapWord m = 0) ∧
    ∀ x, m = some x → mapWord m / 2 ^ 7 = 1 ∧ (x.ring < 64 → mapWord m % 2 ^ 7 = x.ring) ∧ (64 ≤ x.ring → mapWord m % 2 ^ 7 = 2 ^ 6) := by
  cases m with
  | none => simp [mapWord]
  | some x =>
    simp only [mapWord]
    refine ⟨?_, nofun, ?_⟩
    · split <;> omega
    · rintro _ ⟨⟩
      split <;> omega

/-- R75: the fields of CQMAP. -/
theorem mapsWord_fields (m n : Option QueueMap) :
    let w := (BitVec.ofNat 32 (mapWord m * 0x1000000 + mapWord n * 0x100)).toNat
    w / 2 ^ 16 % 2 ^ 8 = 0 ∧ w % 2 ^ 8 = 0 ∧ w / 2 ^ 24 % 2 ^ 8 = mapWord m ∧ w / 2 ^ 8 % 2 ^ 8 = mapWord n := by
  have hm := (mapWord_fields m).1
  have hn := (mapWord_fields n).1
  have hw : mapWord m * 0x1000000 + mapWord n * 0x100 < 2 ^ 32 := by omega
  simp only [BitVec.toNat_ofNat, Nat.mod_eq_of_lt hw]
  omega

/-- R75: the field of CQMAP that belongs to s31 (hi) or s30. -/
theorem ctlRead_maps (q : Nat) (sq : Seq) (hi : Bool) :
    let w := (ctlRead q sq 0x016).toNat
    w / 2 ^ 16 % 2 ^ 8 = 0 ∧ w % 2 ^ 8 = 0 ∧ w / (if hi then 2 ^ 24 else 2 ^ 8) % 2 ^ 8 = mapWord (mapOf sq hi) := by
  obtain ⟨h0, h1, h31, h30⟩ := mapsWord_fields sq.map31 sq.map30
  cases hi with
  | false => exact ⟨h0, h1, h30⟩
  | true => exact ⟨h0, h1, h31⟩

/-- Settles O14: each instruction's frame puts what it reads in the queue, and each register's fields are those of its word. -/
theorem timeLoopAndControlReads : Obligations.TimeLoopAndControlReads := by
  refine ⟨fun s l g d k => ?_, fun q sq => ?_⟩
  · intro t
    have hsnap : (t >>> 32).setWidth 32 = BitVec.ofNat 32 (t.toNat / 2 ^ 32) := by
      refine BitVec.eq_of_toNat_eq ?_
      rw [highWord_toNat, BitVec.toNat_ofNat, Nat.mod_eq_of_lt (by omega)]
    have hlow : t.setWidth 32 = BitVec.ofNat 32 t.toNat := BitVec.eq_of_toNat_eq (by rw [lowWord_toNat, BitVec.toNat_ofNat])
    rw [← hsnap]
    exact ⟨does_withScalar (execLidx l g d k s) rfl rfl rfl rfl, does_withScalar (execGtlo l g d s) rfl rfl rfl hlow,
      does_withScalar (execGthi l g d s) rfl rfl rfl rfl, does_withScalar (execCtlrd l g d k s) rfl rfl rfl rfl⟩
  · refine ⟨BitVec.toNat_setWidth_of_le (by decide), BitVec.toNat_setWidth_of_le (by decide), rfl, rfl, lowWord_toNat _, highWord_toNat _,
      lowWord_toNat _, highWord_toNat _, rfl, rfl, rfl, rfl, rfl, codeWord_fields _ _, placeOf_fields _, fun h => ?_, fun b h hl => ?_, fun hi => ?_⟩
    · show stageWord sq.stage = 0
      rw [h]
      rfl
    · have hs : ctlRead q sq 0x015 = stageWord (some b) := congrArg stageWord h
      rw [hs]
      exact stageWord_fields hl
    · obtain ⟨h0, h1, hf⟩ := ctlRead_maps q sq hi
      obtain ⟨-, hn, hx⟩ := mapWord_fields (mapOf sq hi)
      refine ⟨h0, h1, ?_⟩
      rw [hf]
      exact ⟨hn, hx⟩

end Sys2Proof.Machine

/-! O15: what a control register reads after a write (R74, R76). -/

namespace Sys2Proof.Machine

/-- R74: bits above the low k of a word are reserved. -/
theorem setWidth_setWidth_eq_and {k : Nat} (v m : Word) (hk : k ≤ 32) (hm : m.toNat = 2 ^ k - 1) : (v.setWidth k).setWidth 32 = v &&& m := by
  refine BitVec.eq_of_toNat_eq ?_
  rw [BitVec.toNat_setWidth_of_le hk, BitVec.toNat_setWidth, BitVec.toNat_and, hm, Nat.and_two_pow_sub_one_eq_mod]

theorem highOnes_getLsbD (i : Nat) : (0xFFFFFFFF00000000#64).getLsbD i = (decide (32 ≤ i) && decide (i < 64)) := by
  rw [show 0xFFFFFFFF00000000#64 = (BitVec.allOnes 32).setWidth 64 <<< 32 from rfl, Bool.eq_iff_iff]
  simp only [BitVec.getLsbD_shiftLeft, BitVec.getLsbD_setWidth, BitVec.getLsbD_allOnes, Bool.and_eq_true, Bool.not_eq_true', decide_eq_true_eq,
    decide_eq_false_iff_not]
  omega

theorem lowOnes_getLsbD (i : Nat) : (0xFFFFFFFF#64).getLsbD i = decide (i < 32) := by
  rw [show 0xFFFFFFFF#64 = (BitVec.allOnes 32).setWidth 64 from rfl, Bool.eq_iff_iff]
  simp only [BitVec.getLsbD_setWidth, BitVec.getLsbD_allOnes, Bool.and_eq_true, decide_eq_true_eq]
  omega

/-- R87: the halves of a 64-bit register after a write of its low word. -/
theorem putLow_halves (x : BitVec 64) (v : Word) :
    let y := (x &&& 0xFFFFFFFF00000000) ||| v.setWidth 64
    y.setWidth 32 = v ∧ (y >>> 32).setWidth 32 = (x >>> 32).setWidth 32 := by
  intro y
  refine ⟨by simp [y], ?_⟩
  ext i hi
  have h64 : 32 + i < 64 := by omega
  simp [y, ← BitVec.getLsbD_eq_getElem, highOnes_getLsbD, h64]

/-- R87: the same of its high word. -/
theorem putHigh_halves (x : BitVec 64) (v : Word) :
    let y := (x &&& 0xFFFFFFFF#64) ||| (v.setWidth 64 <<< 32)
    (y >>> 32).setWidth 32 = v ∧ y.setWidth 32 = x.setWidth 32 := by
  intro y
  constructor <;> ext i hi
  · have h64 : 32 + i < 64 := by omega
    have hi64 : i < 64 := by omega
    simp [y, ← BitVec.getLsbD_eq_getElem, lowOnes_getLsbD, h64, hi64, hi]
  · have hm : (0xFFFFFFFF#32).getLsbD i = true := by
      rw [show 0xFFFFFFFF#32 = BitVec.allOnes 32 from rfl, BitVec.getLsbD_allOnes, decide_eq_true hi]
    simp [y, ← BitVec.getLsbD_eq_getElem, hm]

/-- R74: CEDLY after a write. -/
theorem ctlRead_edly (q : Nat) (sq : Seq) (v : Word) :
    ctlRead q (ctlWrite sq 0x012 v) 0x012 = if v.toNat % 4 = 3 then ctlRead q sq 0x012 else v &&& 0xFFFFFFE3 := by
  have h : v.setWidth 2 = 3#2 ↔ v.toNat % 4 = 3 := by
    rw [← BitVec.toNat_inj, BitVec.toNat_setWidth]
    rfl
  simp only [ctlWrite, h]
  split <;> rfl

/-- R74: a write of a read-only register changes nothing. -/
theorem ctlWrite_readOnly (sq : Seq) (v : Word) : ∀ n ∈ [0x002, 0x003, 0x004, 0x00C, 0x013, 0x014, 0x015, 0x016], ctlWrite sq n v = sq := by
  intro n hn
  simp only [List.mem_cons, List.not_mem_nil, or_false] at hn
  rcases hn with rfl | rfl | rfl | rfl | rfl | rfl | rfl | rfl <;> rfl

/-- Settles O15, register by register: CSTAT and CRMODE by their width, the words of CEST and CTS as halves of one register. -/
theorem controlRegisterWrites : Obligations.ControlRegisterWrites := by
  intro q sq v
  obtain ⟨hel, heh⟩ := putLow_halves sq.est v
  obtain ⟨heh', hel'⟩ := putHigh_halves sq.est v
  obtain ⟨htl, hth⟩ := putLow_halves sq.ts v
  obtain ⟨hth', htl'⟩ := putHigh_halves sq.ts v
  exact ⟨setWidth_setWidth_eq_and v 0x1F (by decide) rfl, setWidth_setWidth_eq_and v 3 (by decide) rfl, hel, heh, heh', hel', htl, hth, hth', htl', rfl, rfl,
    ctlRead_edly q sq v, ctlWrite_readOnly sq v⟩

end Sys2Proof.Machine

/-! O17: the scratchpad words, and the effects of the end of the tick (R69, R76, R78, R79, R87). -/

namespace Sys2Proof.Machine

/-- R78: the address of SLD and SST. -/
theorem spadAddr_eq (s : State) (n : Nat) (a : BitVec 6) (off : BitVec 8) :
    spadAddr s n a off = BitVec.ofNat 32 ((src s a).toNat + 4 * (byteImmediate s n off).toNat) := by
  rw [spadAddr, immSigned_byte]
  exact BitVec.eq_of_toNat_eq (by rw [BitVec.toNat_add, BitVec.toNat_mul, BitVec.toNat_ofNat, Nat.add_mod_mod]; rfl)

theorem srcPair_eq (s : State) (a b : BitVec 6) : srcPair s a b = BitVec.ofNat 64 ((src s b).toNat * 2 ^ 32 + (src s a).toNat) := by
  rw [← srcPair_toNat, BitVec.ofNat_toNat, BitVec.setWidth_eq]

/-- Settles O17: SLD puts what it reads in the queue, and every other instruction leaves its effect to the end of the tick. -/
theorem scratchpadAndRegisterWritesAtTickEnd : Obligations.ScratchpadAndRegisterWritesAtTickEnd := by
  intro s l g d a b off k rm hi I at_ pair ring
  have ha : (spadAddr s (sSlot l) a off).toNat = at_ := congrArg BitVec.toNat (spadAddr_eq s (sSlot l) a off)
  have hp : srcPair s a b = pair := srcPair_eq s a b
  exact ⟨does_withScalar (execSld l g d a off s) rfl rfl rfl (congrArg (spad32 (myCore s)) ha),
    actsAtEnd_only (execSst l g d a off s) rfl rfl rfl (congrArg (EndEffect.spadStore · (src s d)) ha) rfl,
    actsAtEnd_only (execCtlwr l g d k s) rfl rfl rfl rfl rfl,
    actsAtEnd_only (execSetest g a b s) rfl rfl rfl (congrArg EndEffect.setEst hp) rfl,
    actsAtEnd_only (execSetts g a b s) rfl rfl rfl (congrArg EndEffect.setTs hp) rfl,
    actsAtEnd_only (execSetrm g rm s) rfl rfl rfl rfl rfl,
    actsAtEnd_only (execQmap l g hi a s) rfl rfl rfl rfl rfl,
    actsAtEnd_only (execQunmap l g hi s) rfl rfl rfl rfl rfl⟩

end Sys2Proof.Machine

/-! O18: the transfers (R39, R66, R81, R85). -/

namespace Sys2Proof.Machine

/-- R39: the target of BR and CALL. -/
theorem branchTarget_eq (s : State) (disp : BitVec 20) : branchTarget s disp = BitVec.ofInt 32 ((bundleAddr s).toInt + 32 * disp.toInt) := by
  have h : (32 : Word).toInt = 32 := by decide
  rw [branchTarget, ← BitVec.toInt_inj, BitVec.toInt_add, BitVec.toInt_mul, BitVec.toInt_signExtend_of_le (by decide), h, BitVec.toInt_ofInt,
    Int.add_bmod_bmod]

theorem linkAddr_eq (s : State) : linkAddr s = BitVec.ofNat 32 ((bundleAddr s).toNat + 96) :=
  BitVec.eq_of_toNat_eq (by rw [linkAddr, BitVec.toNat_add, BitVec.toNat_ofNat]; rfl)

/-- R85: the target of a bucket table is that of the first capacity that holds the count, or the overflow target. -/
theorem bucketTarget_cases (b : Bucket) (n : Word) :
    (∃ (j : Nat) (c : Word × Word), b.caps[j]? = some c ∧ n.toNat ≤ c.1.toNat ∧ bucketTarget b n = c.2 ∧
      ∀ m < j, ∀ e : Word × Word, b.caps[m]? = some e → e.1.toNat < n.toNat) ∨
    ((∀ c ∈ b.caps, c.1.toNat < n.toNat) ∧ bucketTarget b n = b.overflow) := by
  unfold bucketTarget
  cases hf : b.caps.find? (fun c => decide (n.toNat ≤ c.1.toNat)) with
  | none =>
    rw [List.find?_eq_none] at hf
    exact .inr ⟨fun c hc => by simpa using hf c hc, rfl⟩
  | some c =>
    rw [List.find?_eq_some_iff_getElem] at hf
    obtain ⟨hc, j, hj, rfl, hlt⟩ := hf
    refine .inl ⟨j, _, List.getElem?_eq_getElem hj, by simpa using hc, rfl, fun m hm e he => ?_⟩
    obtain ⟨_, rfl⟩ := List.getElem?_eq_some_iff.mp he
    simpa using hlt m hm

/-- Settles O18: a transfer is an effect of the end of the tick, over the link in the queue for CALL and CALLR. -/
theorem takenTransfers : Obligations.TakenTransfers := by
  intro s g disp a tbl at_ near linked table go
  have hnear : EndEffect.transfer (branchTarget s disp) = .transfer near := congrArg _ (branchTarget_eq s disp)
  have hlink : writeScalar s 2 29 (linkAddr s) 1 = linked := by rw [writeScalar_eq_withScalar, linkAddr_eq]
  have hissue : (me linked).issue = (me s).issue := by simp only [linked, withScalar, me_withEntry]
  have hu : ∀ t, Except.ok (ε := SlotFault) (transferTo t (writeScalar s 2 29 (linkAddr s) 1)) = .ok (atEnd (.transfer t) linked) :=
    fun t => congrArg (fun u => Except.ok (transferTo t u)) hlink
  exact ⟨actsAtEnd_only (execBr g disp s) rfl rfl rfl hnear rfl,
    actsAtEnd_over (execCall g disp s) rfl rfl (hu _) hnear hissue rfl,
    actsAtEnd_only (execJr g a s) rfl rfl rfl rfl rfl,
    actsAtEnd_over (execCallr g a s) rfl rfl (hu _) rfl hissue rfl,
    fun hr => ⟨bucketTarget table (src s a), actsAtEnd_only (execBktj g a tbl s) rfl rfl rfl rfl rfl hr, bucketTarget_cases table (src s a)⟩⟩

end Sys2Proof.Machine

/-! O19: the loop stack and the stage bindings (R49, R51, R52, R82-R84). -/

namespace Sys2Proof.Machine

/-- R51: a loop buffer with the bundle at an address, where that can be fetched, taken into it. -/
def captured (s : State) (t : Sparse (List Nat)) (a : Word) : Sparse (List Nat) :=
  match fetchWords s a with
  | some ws => tput t a.toNat ws
  | none => t

theorem capturedBody_eq {s : State} {start : Word} {len : Nat} (h : len ≤ 32) :
    capturedBody s start len = ((List.range len).map (fun k => start + BitVec.ofNat 32 (32 * k))).foldl (captured s) [] := by
  rw [capturedBody, if_neg (by omega), List.foldl_map]
  rfl

/-- R51: a bundle that can be fetched stands in the buffer once it was taken, whatever is taken after it. -/
theorem tfind_foldl_captured {s : State} {a : Word} {ws : List Nat} (hw : fetchWords s a = some ws) {l : List Word} {t : Sparse (List Nat)}
    (h : a ∈ l ∨ tfind t a.toNat = some ws) : tfind (l.foldl (captured s) t) a.toNat = some ws := by
  induction l generalizing t with
  | nil => exact h.resolve_left List.not_mem_nil
  | cons b l ih =>
    refine ih ?_
    by_cases hb : b = a
    · subst hb
      simp [captured, hw, tfind_tput]
    · have hn : a.toNat ≠ b.toNat := fun e => hb (BitVec.eq_of_toNat_eq e.symm)
      rw [List.mem_cons, or_iff_right (Ne.symm hb)] at h
      refine h.imp_right fun h => ?_
      unfold captured
      split
      · rw [tfind_tput, if_neg hn, h]
      · exact h

/-- R51: with one level on the loop stack, a bundle that its buffer holds is fetched from there. -/
theorem fetchWords_buffered {t : State} {x : LoopLevel} {a : Word} {ws : List Nat} (hl : (me t).loops = [x]) (hb : tfind x.body a.toNat = some ws) :
    fetchWords t a = some ws := by
  simp [fetchWords, buffered, hl, hb]

/-- R82: the address behind a body of k bundles. -/
theorem mul_setWidth_eq (k : BitVec 12) : 32 * k.setWidth 32 = BitVec.ofNat 32 (32 * k.toNat) :=
  BitVec.eq_of_toNat_eq (by rw [BitVec.toNat_mul, BitVec.toNat_setWidth_of_le (by decide), BitVec.toNat_ofNat]; rfl)

/-- R82, R84: the stream with a level pushed; a binding that waited for it comes into force. -/
def pushedLevel (sq : Seq) (start : Word) (len : BitVec 12) (n : Word) (body : Sparse (List Nat)) : Seq :=
  let x := { sq with loops := sq.loops ++ [{ start := start, len := len, count := n, index := 0, body := body }] }
  if ∃ b, sq.stage = some b ∧ b.level = sq.loops.length ∧ b.pending = true then
    { x with stage := sq.stage.map (fun b => { b with pending := false }), stageDue := true }
  else x

theorem pushLevel_eq_pushedLevel (sq : Seq) (start : Word) (len : BitVec 12) (n : Word) (body : Sparse (List Nat)) :
    pushLevel sq start len n body = pushedLevel sq start len n body := by
  unfold pushLevel pushedLevel depth
  cases hs : sq.stage <;> simp

/-- R84: the new binding. -/
theorem bindStage_eq (sq : Seq) (lv : Nat) (m : BitVec 4) : bindStage sq lv m =
    { sq with preds := (if sq.stageDue then stagePreds sq else sq.preds),
              stage := (if m = 0 then none else some { level := lv, mask := m, pending := decide (lv = sq.loops.length) }), stageDue := false } := by
  unfold bindStage depth
  by_cases h : m = 0
  · simp only [if_pos h]
  · simp only [if_neg h]

/-- R82: a loop whose count is n, over the k bundles that follow. -/
theorem opens_of_body {i : Instr} {s : State} {body : State → Except SlotFault State} (o : SlotOutcome) {n n' : Word} {len k : BitVec 12}
    (he : exec i s = o) (ho : o = slotStep i s body) (hb : body s = .ok (loopFrom s n len)) (hn : n = n') (hk : len = k)
    (hr : slotReady i s = true) :
    let start := bundleAddr s + 32
    let passed := start + BitVec.ofNat 32 (32 * k.toNat)
    if n' = 0 then actsAtEnd i s s (.loopSkip passed) (setMe s { me s with pc := passed })
    else actsAtEnd i s s (.loopPush start k n' (capturedBody s start k.toNat))
      (setMe s (pushedLevel (me s) start k n' (capturedBody s start k.toNat))) := by
  subst hn hk
  intro start passed
  have hp : EndEffect.loopSkip (start + 32 * len.setWidth 32) = .loopSkip passed := by rw [mul_setWidth_eq]
  unfold loopFrom at hb
  split
  · next h => exact actsAtEnd_only o he ho (hb.trans (by rw [if_pos h])) hp rfl hr
  · next h => exact actsAtEnd_only o he ho (hb.trans (by rw [if_neg h])) rfl (congrArg (setMe s) (pushLevel_eq_pushedLevel ..)) hr

/-- R24, R25: the unsigned immediate of LOOPI's count, extended by the bundle's XIMM where that names the slot. -/
def countImmediate (s : State) (cnt : BitVec 12) : Word :=
  match extOf s 2 with
  | none => BitVec.ofNat 32 cnt.toNat
  | some e => BitVec.ofNat 32 (e.toNat * 2 ^ 12 + cnt.toNat)

theorem immUnsigned_count (s : State) (cnt : BitVec 12) : immUnsigned 12 cnt (extOf s 2) = countImmediate s cnt := by
  unfold immUnsigned countImmediate
  cases extOf s 2 <;> simp

/-- R83: LBRK pops the innermost level and goes to the bundle after its body. -/
theorem lbrk_body {s : State} {l : LoopLevel} (h : (me s).loops.getLast? = some l) (g : BitVec 4) (hr : slotReady (.lbrk g) s = true) :
    does (.lbrk g) s (transferTo (l.start + BitVec.ofNat 32 (32 * l.len.toNat)) (atEnd .loopPop s)) := by
  refine does_of_body (execLbrk g s) hr rfl rfl ?_
  rw [h, ← mul_setWidth_eq]

/-- Settles O19: a captured bundle stands in the buffer, and each instruction leaves its effects to the end of the tick. -/
theorem loopsAndBindings : Obligations.LoopsAndBindings := by
  refine ⟨fun s t start a len count index k ws hlen hk ha hw hl => ?_, ?_⟩
  · refine fetchWords_buffered hl ?_
    rw [capturedBody_eq hlen]
    exact tfind_foldl_captured hw (.inl (List.mem_map.mpr ⟨k, List.mem_range.mpr hk, ha.symm⟩))
  · intro s g a len cnt short lv pm lev start body pushed passed opens count after at_
    refine ⟨fun hr => ?_, fun hr => ?_, fun hl hr => ?_, fun hr => ?_⟩
    · exact opens_of_body (execLoop g a len s) rfl rfl rfl rfl rfl hr
    · exact opens_of_body (execLoopi g cnt short s) rfl rfl rfl (immUnsigned_count s cnt) (by simp) hr
    · refine ⟨_, lbrk_body hl g hr, fun hi => ?_, fun c hi => ?_⟩
      · have hpop : atEnd .loopPop s = setMe s (popLevel (me s)) := atEnd_alone hi
        have hpi : (me (setMe s (popLevel (me s)))).issue = none := by rw [me_setMe]; exact hi
        rw [hpop, transferTo, atEnd_alone hpi]
        exact ⟨rfl, by simp [applyEnd, popLevel]⟩
      · rw [atEnd_inBundle hi, transferTo, atEnd_inBundle (by rw [me_setMe]), me_setMe, setMe_setMe, List.append_assoc]
        rfl
    · exact actsAtEnd_only (execLstg g lv pm s) rfl rfl rfl rfl (congrArg (setMe s) (bindStage_eq _ _ _)) hr

end Sys2Proof.Machine

/-! O20, O21: TRAP and ERET (R48, R66, R88, R89). -/

namespace Sys2Proof.Machine

/-- R88: with a handler and outside one, TRAP enters the handler. -/
theorem softTrap_enters {s : State} (hv : (settle (me s)).trapVec ≠ 0) (ht : (settle (me s)).inTrap = false) (addr : Word) (code : BitVec 8) :
    softTrap s addr code = setMe s { settle (me s) with
      epc := (settle (me s)).pc, edly := delayWord (settle (me s)).delayTarget (settle (me s)).delayCount, inTrap := true, trapCode := code,
      pc := (settle (me s)).trapVec, delayCount := 0 } := by
  have hc : (decide ((settle (me s)).trapVec ≠ 0) && !(settle (me s)).inTrap) = true := by rw [ht, decide_eq_true hv]; rfl
  exact if_pos hc

/-- R88: the stop SW_TRAP. -/
def trapStopped (addr : Word) (code : BitVec 8) : StopInfo :=
  { kind := 3, cause := 0x40, slot := 2, engine := 0, cqn := 0, aux0 := 0, aux1 := BitVec.ofNat 32 code.toNat, cmask := 0xFF, baddr := addr,
    idx := [], op := none }

/-- R88: without a handler, or in one, TRAP stops the strand. -/
theorem softTrap_stops {s : State} (h : (settle (me s)).trapVec = 0 ∨ (settle (me s)).inTrap = true) (addr : Word) (code : BitVec 8) :
    softTrap s addr code = stopStrand (setMe s (settle (me s))) s.cur (trapStopped addr code) := by
  have hx : code.setWidth 32 = BitVec.ofNat 32 code.toNat := by rw [BitVec.ofNat_toNat]
  have hc : ¬ (decide ((settle (me s)).trapVec ≠ 0) && !(settle (me s)).inTrap) = true := by
    rw [Bool.and_eq_true, decide_eq_true_eq, Bool.not_eq_true', not_and]
    exact fun hv ht => h.elim hv (fun h => absurd h (by rw [ht]; decide))
  rw [trapStopped, ← hx]
  exact if_neg hc

/-- Settles O20: alone, TRAP acts as softTrap; in a bundle it is kept for the end of the tick. -/
theorem softwareTrapEntersItsHandler : Obligations.SoftwareTrapEntersItsHandler := by
  intro s g code at_ hr
  have hd : does (.trap g code) s (atEnd (.trapTo code) s) := does_of_body (execTrap g code s) hr rfl rfl rfl
  refine ⟨fun hi hv ht => ?_, fun hi h => ?_, fun c hi => ?_⟩
  · rwa [atEnd_alone hi, applyEnd, softTrap_enters hv ht] at hd
  · rwa [atEnd_alone hi, applyEnd, softTrap_stops h] at hd
  · rwa [atEnd_inBundle hi] at hd

/-- Settles O21: ERET is an effect of the end of the tick, and its traps are those of trapsOf_eret. -/
theorem returnFromSoftwareTrap : Obligations.ReturnFromSoftwareTrap := by
  refine fun s g => ⟨actsAtEnd_only (execEret g s) rfl rfl rfl rfl rfl, fun addr => ?_⟩
  rw [trapsOf_eret]
  cases (me s).inTrap <;> by_cases hd : (me s).delayCount = 0 <;> simp [trapIf, hd]

end Sys2Proof.Machine

/-! O42: what a source field reads, and what the pops of an instruction change (R17, R79, R80). -/

namespace Sys2Proof.Machine

/-- R17: s0 to s29 read their values. -/
theorem src_register {s : State} {f : BitVec 6} (h : f.toNat < 32) (hm : f.toNat = 30 ∨ f.toNat = 31 → mapOf (me s) (f.toNat == 31) = none) :
    src s f = vget 0 (me s).regs f.toNat := by
  unfold src
  by_cases hf : f.toNat = 30 ∨ f.toNat = 31
  · simp [h, hf, hm hf]
  · simp [h, hf]

/-- R17: the codes of the latches. -/
theorem src_latch (s : State) {f : BitVec 6} (h : 32 ≤ f.toNat) (h' : f.toNat < 40) : src s f = vget 0 (me s).latches (f.toNat - 32) := by
  simp [src, Nat.not_lt.mpr h, h']

/-- R80: a mapped s31 reads the oldest entry of its queue. -/
theorem src_mapped {s : State} {m : QueueMap} {a : Word} (hm : (me s).map31 = some m) (ha : queueHead s s.cur m = some a) : src s 31 = a := by
  simp [src, mapOf, hm, ha]

/-- R80: an unmapped register pops nothing. -/
theorem popQueue_unmapped {s : State} {hi : Bool} (h : mapOf (me s) hi = none) : popQueue s hi = s := by
  simp [popQueue, h]

theorem pop_unmapped {fs : List (BitVec 6)} {f : BitVec 6} {s : State} {hi : Bool} (h : f ∉ fs ∨ mapOf (me s) hi = none) :
    (if fs.contains f then popQueue s hi else s) = s := by
  rcases h with h | h
  · exact if_neg (fun hc => h (List.contains_iff_mem.mp hc))
  · rw [popQueue_unmapped h, ite_self]

theorem takePops_unmapped {fs : List (BitVec 6)} {s : State} (h30 : 30 ∉ fs ∨ (me s).map30 = none) (h31 : 31 ∉ fs ∨ (me s).map31 = none) :
    takePops fs s = s := by
  have h0 : (if fs.contains 30 then popQueue s false else s) = s := pop_unmapped h30
  have h1 : (if fs.contains 31 then popQueue s true else s) = s := pop_unmapped h31
  simp only [takePops, h0, h1]

/-- R80: what pops through mappings to rings leave: everything but the mappings of the running stream and the rings of its core. -/
structure PopsRings (s t : State) : Prop where
  cur : t.cur = s.cur
  mem : t.mem = s.mem
  ops : t.ops = s.ops
  tasks : t.tasks = s.tasks
  events : t.events = s.events
  others : sameOthers s.cur s t
  stream : ∃ m30 m31, me t = { me s with map30 := m30, map31 := m31 }
  cores : ∀ k, k ≠ coreOf s.cur → coreAt t k = coreAt s k
  core : ∃ rs, myCore t = { myCore s with rings := rs }

theorem PopsRings.refl (s : State) : PopsRings s s := ⟨rfl, rfl, rfl, rfl, rfl, fun _ _ => rfl, ⟨_, _, rfl⟩, fun _ _ => rfl, ⟨_, rfl⟩⟩

theorem PopsRings.trans {s t u : State} (h : PopsRings s t) (k : PopsRings t u) : PopsRings s u := by
  obtain ⟨a, b, hm⟩ := h.stream
  obtain ⟨c, d, km⟩ := k.stream
  obtain ⟨rs, hc⟩ := h.core
  obtain ⟨rs', kc⟩ := k.core
  exact ⟨k.cur.trans h.cur, k.mem.trans h.mem, k.ops.trans h.ops, k.tasks.trans h.tasks, k.events.trans h.events, h.others.trans (h.cur ▸ k.others),
    ⟨c, d, by rw [km, hm]⟩, fun j hj => (k.cores j (h.cur ▸ hj)).trans (h.cores j hj), ⟨rs', by rw [kc, hc]⟩⟩

/-- R80: a ring whose popped entry, if the mapping holds one, has returned. -/
def returned (r : Ring) (held : Option Word) : Ring := if held.isSome then { r with count := r.count - 1 } else r

/-- R80: a ring of which the oldest entry has been popped. -/
def popped (r : Ring) (held : Option Word) : Ring := { returned r held with head := (r.head + 1) % (r.nslot.toNat + 1) }

/-- The running stream's core with one ring replaced. -/
def withRing (s : State) (n : Nat) (r : Ring) : State := setMyCore s { myCore s with rings := tput (myCore s).rings n r }

theorem withRing_withRing (s : State) (n : Nat) (r r' : Ring) : withRing (withRing s n r) n r' = withRing s n r' := by
  simp only [withRing, myCore_setMyCore, tput_tput]
  simp only [setMyCore, setCore, tput_tput]

theorem ring_withRing (s : State) (n : Nat) (r : Ring) : tget Ring.reset (myCore (withRing s n r)).rings n = r := by
  simp [withRing]

/-- R80: the entry that a mapping to a ring holds returns to it. -/
theorem returnHeld_ring {s : State} {m : QueueMap} (hr : m.ring < 64) :
    returnHeld s s.cur m = s ∧ m.held = none ∨
      returnHeld s s.cur m = withRing s m.ring (returned (tget Ring.reset (myCore s).rings m.ring) m.held) := by
  unfold returnHeld
  cases hh : m.held with
  | none => exact .inl ⟨rfl, rfl⟩
  | some a => exact .inr (if_pos hr)

/-- R80: a pop through a mapping to a ring with an entry. -/
theorem popQueue_ring {s : State} {hi : Bool} {m : QueueMap} {a : Word} (hm : mapOf (me s) hi = some m) (ha : queueHead s s.cur m = some a)
    (hr : m.ring < 64) : popQueue s hi =
      setMe (withRing s m.ring (popped (tget Ring.reset (myCore s).rings m.ring) m.held)) (setMap (me s) hi (some { m with held := some a })) := by
  have hp : ∀ u, returnHeld s s.cur m = u → popQueue s hi =
      setMe (withRing u m.ring { tget Ring.reset (myCore u).rings m.ring with
        head := ((tget Ring.reset (myCore u).rings m.ring).head + 1) % ((tget Ring.reset (myCore u).rings m.ring).nslot.toNat + 1) })
        (setMap (me u) hi (some { m with held := some a })) := by
    rintro u rfl
    unfold popQueue
    simp only [hm, ha, hr, if_true]
    rfl
  obtain ⟨h, hh⟩ | h := returnHeld_ring (s := s) hr
  · rw [hp _ h, popped, returned, hh]
    rfl
  · rw [hp _ h, ring_withRing, withRing_withRing, popped]
    unfold returned
    split <;> rfl

theorem withRing_pops (s : State) (n : Nat) (r : Ring) (hi : Bool) (m : Option QueueMap) :
    PopsRings s (setMe (withRing s n r) (setMap (me s) hi m)) := by
  have hme : me (setMe (withRing s n r) (setMap (me s) hi m)) = setMap (me s) hi m := me_setMe ..
  refine ⟨rfl, rfl, rfl, rfl, rfl, fun p hp => seqAt_setMe_ne (withRing s n r) _ hp, ?_, fun k hk => coreAt_setCore_ne s _ hk, ?_⟩
  · rw [hme]
    cases hi <;> exact ⟨_, _, rfl⟩
  · exact ⟨_, myCore_setMyCore s _⟩

/-- R80: a pop of a stream whose mappings are to rings; they stay so. -/
theorem popQueue_pops {s : State} (h : ringsOnly s) (hi : Bool) : PopsRings s (popQueue s hi) ∧ ringsOnly (popQueue s hi) := by
  cases hm : mapOf (me s) hi with
  | none => rw [popQueue_unmapped hm]; exact ⟨.refl s, h⟩
  | some m =>
    cases ha : queueHead s s.cur m with
    | none =>
      have he : popQueue s hi = s := by simp [popQueue, hm, ha]
      rw [he]
      exact ⟨.refl s, h⟩
    | some a =>
      have hr : m.ring < 64 := h hi m hm
      rw [popQueue_ring hm ha hr]
      refine ⟨withRing_pops .., fun hi' x hx => ?_⟩
      rw [me_setMe] at hx
      cases hi <;> cases hi' <;> simp only [mapOf, setMap, Bool.false_eq_true, if_false, if_true] at hx
      · cases hx; exact hr
      · exact h true x hx
      · exact h false x hx
      · cases hx; exact hr

theorem takePops_pops {s : State} (h : ringsOnly s) (fs : List (BitVec 6)) : PopsRings s (takePops fs s) := by
  have pop : ∀ {t : State} (ht : ringsOnly t) (c hi : Bool), PopsRings t (if c then popQueue t hi else t) ∧ ringsOnly (if c then popQueue t hi else t) := by
    intro t ht c hi
    cases c with
    | false => exact ⟨.refl t, ht⟩
    | true => exact popQueue_pops ht hi
  obtain ⟨h0, hr⟩ := pop h (fs.contains 30) false
  exact h0.trans (pop hr (fs.contains 31) true).1

theorem PopsRings.registers {s t : State} (h : PopsRings s t) : sameRegisters (me s) (me t) ∧ (me t).queue = (me s).queue := by
  obtain ⟨_, _, hm⟩ := h.stream
  rw [hm]
  exact ⟨sameRegisters.refl _, rfl⟩

theorem PopsRings.memories {s t : State} (h : PopsRings s t) : (myCore t).tiles = (myCore s).tiles ∧ (myCore t).spad = (myCore s).spad := by
  obtain ⟨_, hc⟩ := h.core
  rw [hc]
  exact ⟨rfl, rfl⟩

theorem takePops_high {fs : List (BitVec 6)} {s : State} (h31 : 31 ∈ fs) (h30 : 30 ∉ fs) : takePops fs s = popQueue s true := by
  have h0 : fs.contains 30 = false := by rw [← Bool.not_eq_true, List.contains_iff_mem]; exact h30
  have h1 : fs.contains 31 = true := List.contains_iff_mem.mpr h31
  simp only [takePops, h0, h1, Bool.false_eq_true, if_false, if_true]

/-- Settles O42: a source field reads by its code, and a pop through a mapping to a ring is popQueue_ring. -/
theorem popsAndTheirFrame : Obligations.PopsAndTheirFrame := by
  refine ⟨fun s f => ⟨fun hf => ?_, ?_, ?_, src_latch s, ⟨rfl, rfl, rfl, rfl, rfl, rfl, rfl, rfl⟩, fun m a => src_mapped⟩,
    fun fs s => takePops_unmapped, fun fs s hs => ?_⟩
  · exact src_register (by omega) (by omega)
  · rintro hm rfl
    exact src_register (by decide) (fun _ => hm)
  · rintro hm rfl
    exact src_register (by decide) (fun _ => hm)
  · intro t
    have h : PopsRings s t := takePops_pops hs fs
    refine ⟨h.mem, h.ops, h.tasks, h.events, h.others, h.registers.1, h.registers.2, h.cores, h.memories.1, h.memories.2, fun m a hm ha h31 h30 => ?_⟩
    have ht : t = _ := (takePops_high h31 h30).trans (popQueue_ring (hi := true) hm ha (hs true m hm))
    rw [ht, me_setMe, myCore_setMe, ring_withRing]
    exact ⟨rfl, rfl⟩

end Sys2Proof.Machine

/-! O22: what the units of the package leave while a strand ends: the running stream's number, the sequencers, the operations and the tasks. -/

namespace Sys2Proof.Machine

/-- The running stream's number, every sequencer, the operations and the tasks stand. -/
structure Stands (s t : State) : Prop where
  cur : t.cur = s.cur
  seqs : ∀ p, seqAt t p = seqAt s p
  ops : t.ops = s.ops
  tasks : t.tasks = s.tasks

theorem Stands.refl (s : State) : Stands s s := ⟨rfl, fun _ => rfl, rfl, rfl⟩

theorem Stands.trans {s t u : State} (h : Stands s t) (k : Stands t u) : Stands s u :=
  ⟨k.cur.trans h.cur, fun p => (k.seqs p).trans (h.seqs p), k.ops.trans h.ops, k.tasks.trans h.tasks⟩

/-- What leaves the tables of the sequencers, the operations and the tasks. -/
theorem Stands.of_tables {s t : State} (hc : t.cur = s.cur) (hs : t.seqs = s.seqs) (ho : t.ops = s.ops) (ht : t.tasks = s.tasks) : Stands s t :=
  ⟨hc, fun p => by rw [seqAt, seqAt, hs], ho, ht⟩

theorem Stands.setSeq {s t : State} (h : Stands s t) (q : Nat) (x : Seq) : Stands (setSeq s q x) (setSeq t q x) :=
  ⟨h.cur, fun p => by
    by_cases hp : p = q
    · subst hp
      rw [seqAt_setSeq_same, seqAt_setSeq_same]
    · rw [seqAt_setSeq_ne _ _ hp, seqAt_setSeq_ne _ _ hp, h.seqs p], h.ops, h.tasks⟩

theorem setSeq_own_stands (s : State) (q : Nat) : Stands (setSeq s q (seqAt s q)) s :=
  ⟨rfl, fun p => by
    by_cases hp : p = q
    · subst hp
      rw [seqAt_setSeq_same]
    · rw [seqAt_setSeq_ne _ _ hp], rfl, rfl⟩

theorem foldl_stands {α : Type} {f : State → α → State} (hf : ∀ s x, Stands s (f s x)) (l : List α) (s : State) : Stands s (l.foldl f s) := by
  induction l generalizing s with
  | nil => exact .refl s
  | cons x l ih => exact (hf s x).trans (ih _)

theorem writeHome_stands (s : State) (l : List Host.Cell) : Stands s (writeHome s l) := by
  obtain ⟨sl, fs, n, e⟩ := writeHome_frame s l
  rw [e]
  exact .of_tables rfl rfl rfl rfl

theorem setDie_stands (s : State) (d : Nat) (x : Die) : Stands s (setDie s d x) := .of_tables rfl rfl rfl rfl

theorem traceRaw_stands (s : State) (d kind delta : Nat) (payload : BitVec 64) (place : Word) (slot : Option (Nat × Bool)) :
    Stands s (traceRaw s d kind delta payload place slot) := by
  by_cases h : traceFree (dieAt s d).trace = 0
  · rw [traceRaw_full h]
    exact setDie_stands ..
  · rw [traceRaw_room h]
    exact (writeHome_stands ..).trans (setDie_stands ..)

theorem traceStamped_stands (s : State) (d kind : Nat) (payload : BitVec 64) (place : Word) (slot : Option (Nat × Bool)) :
    Stands s (traceStamped s d kind payload place slot) := by
  unfold traceStamped
  dsimp only
  split
  · exact (traceRaw_stands ..).trans (traceRaw_stands ..)
  · exact traceRaw_stands ..

theorem traceResync_stands (s : State) (d : Nat) : Stands s (traceResync s d) := by
  unfold traceResync
  dsimp only
  split
  · exact (traceRaw_stands ..).trans (setDie_stands ..)
  · exact .refl s

theorem traceLost_stands (s : State) (d : Nat) : Stands s (traceLost s d) := by
  unfold traceLost
  dsimp only
  split
  · exact (setDie_stands ..).trans (traceStamped_stands ..)
  · exact .refl s

theorem traceRecord_stands (s : State) (d kind : Nat) (payload : BitVec 64) (place : Word) (slot : Option (Nat × Bool)) :
    Stands s (traceRecord s d kind payload place slot) := by
  have h : Stands s (traceLost (traceResync s d) d) := (traceResync_stands s d).trans (traceLost_stands _ d)
  unfold traceRecord
  dsimp only
  split
  · exact .refl s
  · split
    · exact h.trans (setDie_stands ..)
    · exact h.trans (traceStamped_stands ..)

theorem writeDue_stands (s : State) (d : Nat) : Stands s (writeDue s d) :=
  (setDie_stands ..).trans (foldl_stands (fun _ _ => traceRecord_stands ..) _ _)

theorem performForward_stands (s : State) (f : Forward) : Stands s (performForward s f) := by
  unfold performForward
  dsimp only
  split <;> exact .of_tables rfl rfl rfl rfl

/-- R275: the writes and records that waited for a pseudo-channel. -/
theorem landWaiting_stands (s : State) : Stands s (landWaiting s) := by
  refine (foldl_stands performForward_stands _ s).trans (foldl_stands (fun t x => ?_) _ _)
  split
  · exact .refl t
  · exact writeDue_stands ..

theorem pushEvent_stands (s : State) (die : Nat) (rec : BitVec 512) : Stands s (pushEvent s die rec) := by
  refine .trans ?_ (traceRecord_stands ..)
  exact .of_tables rfl rfl rfl rfl

theorem drainEvents_stands (s : State) (die : Nat) : Stands s (drainEvents s die) := by
  unfold drainEvents
  dsimp only
  split
  · exact .refl s
  · split
    · refine .trans ?_ (pushEvent_stands ..)
      exact .of_tables rfl rfl rfl rfl
    · exact .refl s

/-- R80: an entry that returns to its queue. -/
theorem returnHeld_stands (s : State) (q : Nat) (m : QueueMap) : Stands s (returnHeld s q m) := by
  unfold returnHeld
  dsimp only
  split
  · exact .refl s
  · split
    · exact .of_tables rfl rfl rfl rfl
    · refine .trans ?_ (drainEvents_stands ..)
      exact .of_tables rfl rfl rfl rfl

/-- R79: the end of a mapping changes of its stream the mapping alone. -/
theorem endMap_stands (s : State) (q : Nat) (hi : Bool) : Stands (setSeq s q (setMap (seqAt s q) hi none)) (endMap s q hi) := by
  unfold endMap
  cases hm : mapOf (seqAt s q) hi with
  | none =>
    have hsame : setMap (seqAt s q) hi none = seqAt s q := by
      cases hi <;> simp only [mapOf, Bool.false_eq_true, if_false, if_true] at hm <;> simp only [setMap, Bool.false_eq_true, if_false, if_true, ← hm]
    rw [hsame]
    exact setSeq_own_stands s q
  | some m =>
    have h := returnHeld_stands s q m
    dsimp only
    rw [h.seqs q]
    exact h.setSeq q _

/-! A team that ends (R211, R333, R342). -/

theorem captureEnded_stands (s : State) (die key : Nat) (x : Sums) : Stands s (captureEnded s die key x) := by
  unfold captureEnded
  dsimp only
  split
  · exact setDie_stands ..
  · exact .refl s

theorem endCores_stands (s : State) (key : Nat) (l : List Nat) : Stands s (endCores s key l) := by
  induction l generalizing s with
  | nil => exact .refl s
  | cons k l ih =>
    refine .trans ?_ (ih _)
    exact (captureEnded_stands ..).trans (.of_tables rfl rfl rfl rfl)

theorem leaveQuad_stands (s : State) (x : Team) : Stands s (leaveQuad s x) := .of_tables rfl rfl rfl rfl

/-- The end of a team changes of the sequencers none. -/
theorem endTeam_seqs (s : State) (key k : Nat) : (endTeam s key k).cur = s.cur ∧ ∀ p, seqAt (endTeam s key k) p = seqAt s p := by
  unfold endTeam
  split
  · exact ⟨rfl, fun _ => rfl⟩
  · next t _ =>
    have h := (endCores_stands s key (maskCores (teamAt t k).quad (teamAt t k).mask)).trans (leaveQuad_stands _ (teamAt t k))
    exact ⟨h.cur, h.seqs⟩

end Sys2Proof.Machine

/-! O22: the end of a strand (R60, R90, R167, R279, R295): its queue lands, its mappings end, its open views retire, and its state is released. -/

namespace Sys2Proof.Machine

/-- R60, R79, R167: b is a after its end: what landings reach, the mappings, the views and the notes of their retires. -/
def ClosedAs (a b : Seq) : Prop :=
  b = { a with regs := b.regs, latches := b.latches, preds := b.preds, queue := b.queue, views := b.views, shapes := b.shapes, scales := b.scales,
               cstat := b.cstat, regions := b.regions, map30 := b.map30, map31 := b.map31 }

theorem ClosedAs.trans {a b c : Seq} (h : ClosedAs a b) (k : ClosedAs b c) : ClosedAs a c := by
  unfold ClosedAs at *
  rw [k, h]

theorem LandedAs.closed {a b : Seq} (h : LandedAs a b) : ClosedAs a b := by
  unfold ClosedAs
  rw [h]

theorem setMap_closed (sq : Seq) (hi : Bool) (m : Option QueueMap) : ClosedAs sq (setMap sq hi m) := by
  cases hi <;> rfl

/-! R60: the landings of the queue that is left. -/

theorem landRest_succ (n : Nat) (sq : Seq) (c : CoreState) :
    ∃ c', landRest (n + 1) sq c = landRest n (landList { sq with queue := stayingEntries sq.queue } (dueEntries sq.queue)) c' := by
  refine ⟨(landAll { sq with queue := stayingEntries sq.queue } c ((aged sq.queue).filter (fun p => p.cnt == 0))).2, ?_⟩
  rw [← landList_aged, ← aged_due, ← landAll_fst _ c, ← aged_staying]
  rfl

theorem landRest_landed (n : Nat) (sq : Seq) (c : CoreState) : LandedAs sq (landRest n sq c).1 := by
  induction n generalizing sq c with
  | zero => rfl
  | succ n ih =>
    obtain ⟨c', h⟩ := landRest_succ n sq c
    have hq : LandedAs sq { sq with queue := stayingEntries sq.queue } := rfl
    rw [h]
    exact (hq.trans (landList_landed _ _)).trans (ih _ _)

/-- R60: n + 1 ticks land every entry whose counter is at most that. -/
theorem landRest_empties {n : Nat} {sq : Seq} (c : CoreState) (h : ∀ p ∈ sq.queue, p.cnt ≤ n + 1) : (landRest (n + 1) sq c).1.queue = [] := by
  induction n generalizing sq c with
  | zero =>
    obtain ⟨c', hr⟩ := landRest_succ 0 sq c
    rw [hr]
    refine (landList_keeps _ _).1.trans ?_
    have hn : sq.queue.filter (fun p => decide (2 ≤ p.cnt)) = [] := List.filter_eq_nil_iff.mpr fun p hp => by have := h p hp; simp; omega
    simp [stayingEntries, hn]
  | succ n ih =>
    obtain ⟨c', hr⟩ := landRest_succ (n + 1) sq c
    rw [hr]
    refine ih c' fun p hp => ?_
    rw [(landList_keeps _ _).1] at hp
    obtain ⟨e, he, rfl⟩ := List.mem_map.mp hp
    have := h e (List.mem_of_mem_filter he)
    simp only
    omega

/-- A landing opens no view and closes none. -/
theorem landSeq_isOpen (sq : Seq) (p : Pend) (v : Nat) : (viewAt (landSeq sq p) v).isOpen = (viewAt sq v).isOpen := by
  have put : ∀ (y : Seq) (w : BitVec 4) (x : View), x.isOpen = (viewAt y w.toNat).isOpen →
      (viewAt (putView y w.toNat x) v).isOpen = (viewAt y v).isOpen := by
    intro y w x hx
    unfold viewAt putView at *
    rw [vget_vput _ _ _ _ _ w.isLt]
    split
    · next h => rw [hx, h]
    · rfl
  unfold landSeq
  cases p.dest with
  | scalar r => dsimp only [landScalar]; split <;> rfl
  | viewField w fld => exact put _ w _ (by unfold putViewField; split <;> rfl)
  | bounds w => exact put _ w _ rfl
  | boundOff w => exact put _ w _ rfl
  | _ => rfl

theorem landList_isOpen (sq : Seq) (l : List Pend) (v : Nat) : (viewAt (landList sq l) v).isOpen = (viewAt sq v).isOpen := by
  induction l generalizing sq with
  | nil => rfl
  | cons p l ih => rw [landList_cons, ih, landSeq_isOpen]

theorem landRest_isOpen (n : Nat) (sq : Seq) (c : CoreState) (v : Nat) : (viewAt (landRest n sq c).1 v).isOpen = (viewAt sq v).isOpen := by
  induction n generalizing sq c with
  | zero => rfl
  | succ n ih =>
    obtain ⟨c', h⟩ := landRest_succ n sq c
    rw [h, ih, landList_isOpen]
    rfl

theorem seqAt_landQueue (s : State) (q : Nat) : seqAt (landQueue s q) q = (landRest 32 (seqAt s q) (coreAt s (coreOf q))).1 := seqAt_setSeq_same ..

/-! R167: the retires of open views. -/

/-- R167: what the retires of a strand's views leave of it, and of the package. -/
structure Retires (q : Nat) (s t : State) : Prop where
  cur : t.cur = s.cur
  tasks : t.tasks = s.tasks
  stream : ∃ vs rg, seqAt t q = { seqAt s q with views := vs, regions := rg }
  shut : ∀ v, (viewAt (seqAt s q) v).isOpen = false → (viewAt (seqAt t q) v).isOpen = false

theorem Retires.refl (q : Nat) (s : State) : Retires q s s := ⟨rfl, rfl, ⟨_, _, rfl⟩, fun _ h => h⟩

theorem Retires.trans {q : Nat} {s t u : State} (h : Retires q s t) (k : Retires q t u) : Retires q s u := by
  obtain ⟨_, _, hs⟩ := h.stream
  obtain ⟨vs, rg, ks⟩ := k.stream
  exact ⟨k.cur.trans h.cur, k.tasks.trans h.tasks, ⟨vs, rg, by rw [ks, hs]⟩, fun v hv => k.shut v (h.shut v hv)⟩

theorem retireView_retires (s : State) (q : Nat) (addr : Word) (slot reg : Nat) (poison : Bool) (hr : reg < 16) :
    Retires q s (retireView s q addr slot reg poison) ∧ (viewAt (seqAt (retireView s q addr slot reg poison) q) reg).isOpen = false := by
  obtain ⟨rg, x, hx, hs⟩ : ∃ rg x, x.isOpen = false ∧
      seqAt (retireView s q addr slot reg poison) q = putView { seqAt s q with regions := rg } reg x := by
    exact ⟨_, _, rfl, seqAt_setSeq_same s q _⟩
  have hv : ∀ v, viewAt (seqAt (retireView s q addr slot reg poison) q) v = if v = reg then x else viewAt (seqAt s q) v := by
    intro v
    rw [hs]
    exact vget_vput _ _ _ _ _ hr
  refine ⟨⟨rfl, rfl, ⟨_, rg, hs⟩, fun v h => ?_⟩, ?_⟩
  · rw [hv]
    split
    · exact hx
    · exact h
  · rw [hv, if_pos rfl, hx]

theorem retireViews_retires (s : State) (q : Nat) (addr : Word) (poison : Bool) {l : List Nat} (hl : ∀ v ∈ l, v < 16) :
    Retires q s (retireViews s q addr poison l) ∧ ∀ v ∈ l, (viewAt (seqAt (retireViews s q addr poison l) q) v).isOpen = false := by
  induction l generalizing s with
  | nil => exact ⟨.refl q s, nofun⟩
  | cons r l ih =>
    rw [List.forall_mem_cons] at hl
    obtain ⟨u, hu, ho, hn⟩ : ∃ u, retireViews s q addr poison (r :: l) = retireViews u q addr poison l ∧ Retires q s u ∧
        (viewAt (seqAt u q) r).isOpen = false := by
      refine ⟨_, rfl, ?_⟩
      cases h : (viewAt (seqAt s q) r).isOpen with
      | false => exact ⟨.refl q s, h⟩
      | true => exact retireView_retires s q addr 2 r poison hl.1
    obtain ⟨k, hk⟩ := ih u hl.2
    rw [hu, List.forall_mem_cons]
    exact ⟨ho.trans k, k.shut r hn, hk⟩

theorem retireViews_none {s : State} {q : Nat} {l : List Nat} (h : ∀ v ∈ l, (viewAt (seqAt s q) v).isOpen = false) (addr : Word) (poison : Bool) :
    retireViews s q addr poison l = s := by
  induction l with
  | nil => rfl
  | cons r l ih =>
    rw [List.forall_mem_cons] at h
    simp only [retireViews, h.1, Bool.false_eq_true, if_false, ih h.2]

end Sys2Proof.Machine

/-! O22: the close of a strand, its release, and the statement. -/

namespace Sys2Proof.Machine

/-- The stream of a strand whose mappings have ended (R79). -/
def unmapped (sq : Seq) : Seq := { sq with map30 := none, map31 := none }

/-- R60: what the landing of a queue leaves of its stream and of the package. -/
structure LandsQueue (q : Nat) (s t : State) : Prop where
  cur : t.cur = s.cur
  tasks : t.tasks = s.tasks
  ops : t.ops = s.ops
  stream : ClosedAs (seqAt s q) (seqAt t q)
  queue : (∀ p ∈ (seqAt s q).queue, p.cnt ≤ 32) → (seqAt t q).queue = []
  views : ∀ v, (viewAt (seqAt t q) v).isOpen = (viewAt (seqAt s q) v).isOpen

theorem landQueue_lands (s : State) (q : Nat) : LandsQueue q s (landQueue s q) := by
  refine ⟨rfl, rfl, rfl, ?_, ?_, ?_⟩ <;> rw [seqAt_landQueue]
  · exact (landRest_landed ..).closed
  · exact landRest_empties _
  · exact landRest_isOpen _ _ _

/-- R79: the ends of both mappings of a strand. -/
theorem endMaps_stands (s : State) (q : Nat) : Stands (setSeq s q (unmapped (seqAt s q))) (endMap (endMap s q false) q true) := by
  have h0 := endMap_stands s q false
  have h1 := endMap_stands (endMap s q false) q true
  have h2 := h0.setSeq q (unmapped (seqAt s q))
  rw [h0.seqs q, seqAt_setSeq_same] at h1
  rw [setSeq_setSeq] at h2
  exact h2.trans h1

/-- R60, R90, R167: what the close of a strand leaves. -/
structure Closes (q : Nat) (s t : State) : Prop where
  cur : t.cur = s.cur
  tasks : t.tasks = s.tasks
  stream : ClosedAs (seqAt s q) (seqAt t q)
  map30 : (seqAt t q).map30 = none
  map31 : (seqAt t q).map31 = none
  queue : (∀ p ∈ (seqAt s q).queue, p.cnt ≤ 32) → (seqAt t q).queue = []
  views : ∀ v < 16, (viewAt (seqAt t q) v).isOpen = false
  ops : (∀ v < 16, (viewAt (seqAt s q) v).isOpen = false) → t.ops = s.ops

theorem closeStrand_closes (s : State) (q : Nat) : Closes q s (closeStrand s q) := by
  have hl := landQueue_lands s q
  unfold closeStrand
  generalize landQueue s q = t at hl ⊢
  have hm := endMaps_stands t q
  have hseq := (hm.seqs q).trans (seqAt_setSeq_same ..)
  generalize endMap (endMap t q false) q true = u at hm hseq ⊢
  obtain ⟨k, hk⟩ := retireViews_retires u q (seqAt s q).pc false (l := List.range 16) (fun _ => List.mem_range.mp)
  obtain ⟨vs, rg, hs⟩ := k.stream
  rw [hseq] at hs
  have hc : ClosedAs (seqAt t q) { unmapped (seqAt t q) with views := vs, regions := rg } := rfl
  refine ⟨k.cur.trans (hm.cur.trans hl.cur), k.tasks.trans (hm.tasks.trans hl.tasks), ?_, by rw [hs]; rfl, by rw [hs]; rfl, fun hq => ?_,
    fun v hv => hk v (List.mem_range.mpr hv), fun hv => ?_⟩
  · rw [hs]
    exact hl.stream.trans hc
  · rw [hs]
    exact hl.queue hq
  · rw [retireViews_none (fun v hr => ?_)]
    · exact hm.ops.trans hl.ops
    · rw [hseq]
      exact (hl.views v).trans (hv v (List.mem_range.mp hr))

/-- R90: the stream of a strand whose state has been released. -/
def releasedStream (sq : Seq) : Seq :=
  keepDebug sq { Seq.reset with pc := sq.pc, regs := sq.regs, preds := sq.preds, cstat := sq.cstat, views := sq.views, asid := sq.asid,
                                task := sq.task, team := sq.team, strand := sq.strand, barriers := sq.barriers }

theorem releaseStrand_stream (s : State) (q : Nat) :
    (releaseStrand s q).cur = s.cur ∧ seqAt (releaseStrand s q) q = releasedStream (seqAt s q) := by
  have h := captureEnded_stands s (dieOf q) (taskOf (seqAt s q)) (strandSums (seqAt s q).counters)
  unfold releaseStrand
  dsimp only
  split
  · exact ⟨h.cur, seqAt_setSeq_same ..⟩
  · split
    · rw [(endTeam_seqs ..).1, (endTeam_seqs ..).2]
      exact ⟨h.cur, seqAt_setSeq_same ..⟩
    · exact ⟨h.cur, seqAt_setSeq_same ..⟩

/-- R275, R279: a strand that leaves its pseudo-channel changes of its stream the hold alone. -/
theorem leaveBank_stands (s : State) (q : Nat) : Stands (setSeq s q { seqAt s q with bank := none }) (leaveBank s q) := by
  unfold leaveBank
  cases hb : (seqAt s q).bank with
  | none =>
    have hsame : { seqAt s q with bank := none } = seqAt s q := by rw [← hb]
    rw [hsame]
    exact setSeq_own_stands s q
  | some x => exact landWaiting_stands _

/-- R90: the stream of a strand that has issued its EXIT, holding a pseudo-channel or none. -/
def exiting (sq : Seq) (b : Option BankMode) : Seq := { sq with endPending := true, issue := none, bank := b }

/-- R279: the strand of sequencer q that has issued its EXIT, with its pseudo-channel left when its BANK commands have run. -/
def exited (s : State) (q : Nat) : State :=
  let t := setSeq s q { seqAt s q with endPending := true, issue := none }
  if (bankQueue t q).isEmpty then leaveBank t q else t

theorem exited_stands (s : State) (q : Nat) :
    ∃ b, Stands (setSeq s q (exiting (seqAt s q) b)) (exited s q) ∧ (bankQueue s q = [] → b = none) := by
  unfold exited
  dsimp only
  split
  · have h := leaveBank_stands (setSeq s q { seqAt s q with endPending := true, issue := none }) q
    rw [seqAt_setSeq_same, setSeq_setSeq] at h
    exact ⟨none, h, fun _ => rfl⟩
  · next h => exact ⟨(seqAt s q).bank, .refl _, fun hq => absurd (List.isEmpty_iff.mpr hq) h⟩

/-- R90, R295: what EXIT of a running strand with nothing to report leads to. -/
theorem endStrand_eq {s : State} {q : Nat} (hs : (seqAt s q).status = .running) (hr : (seqAt s q).reports = []) (hf : (seqAt s q).faultDue = none) :
    endStrand s q =
      if strandBusy (exited s q) q then exited s q
      else if strandBusy (closeStrand (exited s q) q) q || lastStrand (closeStrand (exited s q) q) q then closeStrand (exited s q) q
      else releaseStrand (closeStrand (exited s q) q) q := by
  have h : strandEnding { seqAt s q with endPending := true, issue := none } = true := by simp [strandEnding, hs, hr, hf]
  unfold endStrand finishStrand
  rw [seqAt_setSeq_same, h]
  rfl

theorem lastStrand_congr {s t : State} {q : Nat} (ht : t.tasks = s.tasks) (hk : taskOf (seqAt t q) = taskOf (seqAt s q))
    (hm : (seqAt t q).team = (seqAt s q).team) (hn : (seqAt t q).strand = (seqAt s q).strand) : lastStrand t q = lastStrand s q := by
  unfold lastStrand taskNo
  dsimp only
  rw [ht, hk, hm, hn]

theorem strandBusy_congr {s t : State} (h : t.ops = s.ops) (q : Nat) : strandBusy t q = strandBusy s q := by
  unfold strandBusy
  rw [h]

theorem firstHold_none {l : List Hold} (h : firstHold l = none) : l = [] := by
  cases l with
  | nil => rfl
  | cons x l =>
    unfold firstHold at h
    split at h
    · cases h
    · split at h <;> cases h

/-- R90: an EXIT on its own that is ready finds no operation of its strand. -/
theorem exit_ready_notBusy {s : State} {g : BitVec 4} (hr : slotReady (.exit g) s = true) (hi : (me s).issue = none) : strandBusy s s.cur = false := by
  simp only [slotReady, hi, Bool.and_eq_true, Bool.or_eq_true, Option.isSome_none, Bool.false_eq_true, false_or, Option.isNone_iff_eq_none] at hr
  obtain ⟨-, hh, -⟩ := hr
  have hn : ¬ HeldAt (holdsOf s (.exit g)) 9 := by rw [firstHold_none hh]; exact heldAt_nil 9
  have ho : openOps s 0 = [] := by
    by_contra hne
    refine hn (held_waits.mpr ?_)
    show HeldAt (holdIf (!(openOps s 0).isEmpty) 9 1) 9
    simp [hne]
  rw [strandBusy, List.any_eq_false]
  intro o hm
  have := List.filter_eq_nil_iff.mp ho o hm
  simpa [isComplete, bne] using this

end Sys2Proof.Machine

/-! O22: EXIT of a strand with an operation in flight, and of one without; and the statement. -/

namespace Sys2Proof.Machine

/-- R90: while an operation of the strand is in flight, its EXIT leaves the strand as it stands, ending. -/
theorem endStrand_busy {s : State} {q : Nat} (hs : (seqAt s q).status = .running) (hr : (seqAt s q).reports = []) (hb : strandBusy s q = true) :
    ∃ b, seqAt (endStrand s q) q = exiting (seqAt s q) b := by
  cases hf : (seqAt s q).faultDue with
  | none =>
    obtain ⟨b, hx, -⟩ := exited_stands s q
    rw [endStrand_eq hs hr hf, if_pos ((strandBusy_congr hx.ops q).trans hb)]
    exact ⟨b, (hx.seqs q).trans (seqAt_setSeq_same ..)⟩
  | some f =>
    have h : strandEnding { seqAt s q with endPending := true, issue := none } = false := by simp [strandEnding, hf]
    unfold endStrand finishStrand
    rw [seqAt_setSeq_same, h]
    exact ⟨(seqAt s q).bank, seqAt_setSeq_same ..⟩

/-- R60, R79, R90, R167, R295: what the EXIT of a strand with no operation in flight leaves. -/
structure Ends (q : Nat) (s t : State) : Prop where
  cur : t.cur = s.cur
  queue : (∀ p ∈ (seqAt s q).queue, p.cnt ≤ 32) → (seqAt t q).queue = []
  map30 : (seqAt t q).map30 = none
  map31 : (seqAt t q).map31 = none
  bank : bankQueue s q = [] → (seqAt t q).bank = none
  views : ∀ v < 16, (viewAt (seqAt t q) v).isOpen = false
  status : (∀ v < 16, (viewAt (seqAt s q) v).isOpen = false) → (seqAt t q).status = if lastStrand s q then .running else .idle

theorem endStrand_ends {s : State} {q : Nat} (hs : (seqAt s q).status = .running) (hr : (seqAt s q).reports = []) (hf : (seqAt s q).faultDue = none)
    (hb : strandBusy s q = false) : Ends q s (endStrand s q) := by
  obtain ⟨b, hx, hbank⟩ := exited_stands s q
  have hstream := (hx.seqs q).trans (seqAt_setSeq_same ..)
  have hbusy := (strandBusy_congr hx.ops q).trans hb
  rw [endStrand_eq hs hr hf, hbusy, if_neg Bool.false_ne_true]
  have hc := closeStrand_closes (exited s q) q
  generalize exited s q = x at hx hstream hbusy hc ⊢
  generalize closeStrand x q = t at hc ⊢
  obtain ⟨hcur, htasks, hclosed, h30, h31, hqueue, hviews, hops⟩ := hc
  rw [hstream] at hclosed hqueue hops
  have hlast : lastStrand t q = lastStrand s q :=
    lastStrand_congr (htasks.trans hx.tasks) (by rw [hclosed]; rfl) (by rw [hclosed]; rfl) (by rw [hclosed]; rfl)
  have hidle : (∀ v < 16, (viewAt (seqAt s q) v).isOpen = false) → (strandBusy t q || lastStrand t q) = lastStrand s q := fun hv => by
    rw [strandBusy_congr (hops hv), hbusy, hlast, Bool.false_or]
  split
  · next h =>
    refine ⟨hcur.trans hx.cur, hqueue, h30, h31, fun hq => ?_, hviews, fun hv => ?_⟩
    · rw [hclosed]
      exact hbank hq
    · rw [hclosed, if_pos ((hidle hv).symm.trans h)]
      exact hs
  · next h =>
    obtain ⟨rcur, hrel⟩ := releaseStrand_stream t q
    refine ⟨rcur.trans (hcur.trans hx.cur), fun _ => by rw [hrel]; rfl, by rw [hrel]; rfl, by rw [hrel]; rfl, fun _ => by rw [hrel]; rfl,
      fun v hv => ?_, fun hv => ?_⟩
    · rw [hrel]
      exact hviews v hv
    · rw [hrel, if_neg (fun hl => h ((hidle hv).trans hl))]
      rfl

/-- R199: a ready CONTAINEND leaves the regions that the pop of the innermost one leaves. -/
theorem does_containend {s : State} {g : BitVec 4} {l : List Region} (hr : slotReady (.containend g) s = true) (hl : popRegion (me s).regions = l) :
    does (.containend g) s (setMe s { me s with regions := l }) := by
  subst hl
  exact does_of_body (execContainend g s) hr rfl rfl rfl

/-- R198: a ready CONTAIN pushes a region whose handler is the bundle's address plus 32 times its displacement. -/
theorem does_contain {s : State} {g : BitVec 4} {disp : BitVec 20} (hr : slotReady (.contain g disp) s = true) :
    does (.contain g disp) s (setMe s { me s with regions :=
      { handler := BitVec.ofInt 32 ((bundleAddr s).toInt + 32 * disp.toInt), tick := (me s).ticks, regs := (me s).regs, preds := (me s).preds,
        loops := (me s).loops, stage := (me s).stage, opened := [], retired := [], mapped30 := (me s).map30.isSome,
        mapped31 := (me s).map31.isSome } :: (me s).regions }) := by
  rw [← branchTarget_eq]
  exact does_of_body (execContain g disp s) hr rfl rfl rfl

/-- R90: a ready EXIT does on its own what ends the strand, and waits in a bundle for the end of the tick. -/
theorem does_exit {s : State} {g : BitVec 4} (hr : slotReady (.exit g) s = true) :
    ((me s).issue = none → does (.exit g) s (endStrand s s.cur)) ∧
      ∀ c, (me s).issue = some c → does (.exit g) s (setMe s { me s with issue := some { c with ends := c.ends ++ [.strandEnd] } }) := by
  refine ⟨fun hi => does_of_body (execExit g s) hr rfl rfl ?_, fun c hc => does_of_body (execExit g s) hr rfl rfl ?_⟩
  · rw [hi]
  · rw [hc]
    exact congrArg Except.ok (atEnd_inBundle hc)

/-- Settles O22: the effects of WAITGT, FENCE, CONTAIN and CONTAINEND are those of their rules; EXIT on its own finds no operation in flight and
closes the strand, and with one in flight leaves its stream as it stands. -/
theorem regionsFencesAndStrandEnd : Obligations.RegionsFencesAndStrandEnd := by
  unfold Obligations.RegionsFencesAndStrandEnd
  intro s g a b sc mask disp
  refine ⟨fun hr => does_of_body (execWaitgt g a b s) hr rfl rfl rfl, fun hr => does_of_body (execFence g sc mask s) hr rfl rfl rfl, does_contain,
    fun r o rest hr => ⟨fun hl => does_containend hr (by rw [hl]; rfl), fun hl => does_containend hr (by rw [hl]; rfl)⟩,
    fun c hr => (does_exit hr).2 c, fun hr hi hs hp hf hq => ?_, fun q hs hp hbusy => ?_⟩
  · obtain ⟨hcur, hqueue, h30, h31, hbank, hviews, hstatus⟩ := endStrand_ends hs hp hf (exit_ready_notBusy hr hi)
    refine ⟨_, (does_exit hr).1 hi, ?_⟩
    unfold me at *
    rw [hcur]
    exact ⟨hqueue hq, h30, h31, hbank, hviews, fun hv => hstatus fun v hlt => ((landQueue_lands s s.cur).views v).symm.trans (hv v hlt)⟩
  · have hb : strandBusy s q = true := by
      obtain ⟨o, hm, ho, hd⟩ := hbusy
      exact List.any_eq_true.mpr ⟨o, hm, by simp [ho, hd]⟩
    obtain ⟨b, h⟩ := endStrand_busy hs hp hb
    dsimp only
    rw [h]
    exact ⟨rfl, hs, rfl, rfl, rfl, rfl⟩

end Sys2Proof.Machine

/-! The grid of a floating format (R93-R98, R101): every finite code is a point of it, and RoundTo gives a point back as its code. -/

namespace Sys2Proof.Machine

theorem fmtWidth_eq {f : Nat} (h : f < 8) : fmtWidth f = fmtExp f + fmtMant f + 1 := by
  interval_cases f <;> rfl

/-- R93: the code of a point m * 2^e of a format's grid, without its sign. -/
def gridCode (f m : Nat) (e : Int) : Nat := (e + fmtMant f + fmtBias f).toNat * 2 ^ fmtMant f + m - 2 ^ fmtMant f

/-- R93: m * 2^e is a point of a format's grid: m has the format's digits, all of them but at the smallest exponent. -/
structure OnGrid (f m : Nat) (e : Int) : Prop where
  lt : m < 2 ^ (fmtMant f + 1)
  ge : fmtEmin f - fmtMant f ≤ e
  normal : 2 ^ fmtMant f ≤ m ∨ e = fmtEmin f - fmtMant f

/-- R97: the exponent at which a point of the grid is rounded is its own. -/
theorem OnGrid.exponent {f m : Nat} {e : Int} (h : OnGrid f m e) (hm : m ≠ 0) : max ((Nat.log2 m : Int) + e) (fmtEmin f) = e + fmtMant f := by
  have hlt : Nat.log2 m < fmtMant f + 1 := (Nat.log2_lt hm).mpr h.lt
  have hge := h.ge
  rcases h.normal with hn | he
  · have : fmtMant f ≤ Nat.log2 m := (Nat.le_log2 hm).mpr hn
    omega
  · omega

/-- R102: no value of E4M3 saturates. -/
theorem saturatesNear_grid {f m : Nat} {e : Int} (mode : RMode) (h : OnGrid f m e) (hc : gridCode f m e ≤ fmtMaxCode f) :
    saturatesNear f mode m e = false := by
  by_cases hf : f = 3
  · subst hf
    have hlt : m < 16 := h.lt
    have hn : 8 ≤ m ∨ e = -9 := h.normal
    have hcode : (e + 3 + 7).toNat * 8 + m - 8 ≤ 126 := hc
    have hval : m * 2 ^ e.toNat < 460 := by
      rcases (by omega : e.toNat ≤ 4 ∨ e.toNat = 5 ∧ m ≤ 14) with he | ⟨he, hm⟩
      · have := Nat.mul_le_mul (Nat.le_of_lt hlt) (Nat.pow_le_pow_right (by decide : 0 < 2) he)
        omega
      · rw [he]
        omega
    have hmag : magAtLeast 460 m e = false := by
      have := Nat.two_pow_pos (-e).toNat
      simp only [magAtLeast, decide_eq_false_iff_not]
      omega
    simp [saturatesNear, hmag]
  · simp [saturatesNear, hf]

/-- R97: RoundTo gives a point of the grid back. -/
theorem roundFin_grid {f m : Nat} {e : Int} (mode : RMode) (neg : Bool) (h : OnGrid f m e) (hc : gridCode f m e ≤ fmtMaxCode f) :
    roundFin f mode neg m e = (signBit f neg + gridCode f m e, 0) := by
  unfold roundFin
  split
  next hm =>
    subst hm
    have he : e = fmtEmin f - fmtMant f := h.normal.resolve_left (by have := Nat.two_pow_pos (fmtMant f); omega)
    have hz : e + fmtMant f + fmtBias f = 1 := by rw [he, fmtEmin]; omega
    simp [gridCode, hz]
  next hm =>
    have hexp : e - (max ((Nat.log2 m : Int) + e) (fmtEmin f) - fmtMant f) = 0 := by rw [h.exponent hm]; omega
    have hcode : (e + fmtMant f + fmtBias f).toNat * 2 ^ fmtMant f + m - 2 ^ fmtMant f = gridCode f m e := rfl
    dsimp only
    rw [hexp, h.exponent hm]
    simp [roundMag, hcode, Nat.not_lt.mpr hc, saturatesNear_grid mode h hc, flagIf]

/-- R92, R93: a code is its sign, its exponent field and its mantissa field. -/
theorem code_fields {f c : Nat} (hf : f < 8) (hc : c < 2 ^ fmtWidth f) :
    c = signBit f (c / 2 ^ (fmtWidth f - 1) % 2 == 1) + (c / 2 ^ fmtMant f % 2 ^ fmtExp f * 2 ^ fmtMant f + c % 2 ^ fmtMant f) := by
  have hw := fmtWidth_eq hf
  have hlow : c / 2 ^ fmtMant f % 2 ^ fmtExp f * 2 ^ fmtMant f + c % 2 ^ fmtMant f = c % 2 ^ (fmtWidth f - 1) := by
    rw [hw, Nat.add_sub_cancel, Nat.add_comm (fmtExp f), Nat.pow_add, Nat.mod_mul, Nat.mul_comm, Nat.add_comm]
  have hsign : signBit f (c / 2 ^ (fmtWidth f - 1) % 2 == 1) = 2 ^ (fmtWidth f - 1) * (c / 2 ^ (fmtWidth f - 1)) := by
    have hq : c / 2 ^ (fmtWidth f - 1) < 2 := by
      rw [Nat.div_lt_iff_lt_mul (Nat.two_pow_pos _), ← Nat.pow_succ']
      exact lt_of_lt_of_eq hc (by rw [hw]; rfl)
    interval_cases h : c / 2 ^ (fmtWidth f - 1) <;> simp [signBit]
  rw [hlow, hsign, Nat.div_add_mod]

/-- R93, R94: the exponent and mantissa fields of the codes up to the largest finite one. -/
theorem fields_le_max {f x t : Nat} (hf : f < 8) (hx : x < 2 ^ fmtExp f) (ht : t < 2 ^ fmtMant f) (hinf : fmtInf f = true → x ≠ 2 ^ fmtExp f - 1)
    (hnan : f = 3 → x * 8 + t ≠ 127) : x * 2 ^ fmtMant f + t ≤ fmtMaxCode f := by
  interval_cases f <;> simp [fmtExp, fmtMant, fmtInf, fmtMaxCode] at * <;> omega

/-- R93, R94: a finite code is a point of the grid, no larger than the largest. -/
theorem decodeFloat_grid {f c m : Nat} {e : Int} {neg : Bool} (hf : f < 8) (hc : c < 2 ^ fmtWidth f) (h : decodeFloat f c = .fin neg m e) :
    OnGrid f m e ∧ gridCode f m e ≤ fmtMaxCode f ∧ c = signBit f neg + gridCode f m e := by
  have hparts := code_fields hf hc
  have hmant : c % 2 ^ fmtMant f < 2 ^ fmtMant f := Nat.mod_lt _ (Nat.two_pow_pos _)
  have hexp : c / 2 ^ fmtMant f % 2 ^ fmtExp f < 2 ^ fmtExp f := Nat.mod_lt _ (Nat.two_pow_pos _)
  have hpow : 2 ^ (fmtMant f + 1) = 2 ^ fmtMant f * 2 := Nat.pow_succ ..
  have hpos := Nat.two_pow_pos (fmtMant f)
  have hmin : fmtEmin f = 1 - (fmtBias f : Int) := rfl
  have hnan : f = 3 → ¬ (c % 128 = 127) → c / 2 ^ fmtMant f % 2 ^ fmtExp f * 8 + c % 2 ^ fmtMant f ≠ 127 := by
    rintro rfl h127
    simp only [fmtMant, fmtExp]
    omega
  unfold decodeFloat at h
  generalize c % 2 ^ fmtMant f = t at *
  generalize c / 2 ^ fmtMant f % 2 ^ fmtExp f = x at *
  dsimp only at h
  split at h
  · split at h <;> cases h
  next hi =>
  split at h
  · cases h
  next hn =>
  simp only [Bool.and_eq_true, beq_iff_eq, not_and] at hi hn
  have hmax := fields_le_max hf hexp hmant hi (fun h3 => hnan h3 (hn h3))
  split at h
  next hx =>
    injection h with hneg hm he
    subst hx hneg hm he
    have hcode : gridCode f t (fmtEmin f - fmtMant f) = t := by
      have hz : fmtEmin f - fmtMant f + fmtMant f + fmtBias f = 1 := by omega
      rw [gridCode, hz]
      simp
    rw [hcode]
    exact ⟨⟨by omega, by omega, .inr rfl⟩, by omega, by omega⟩
  next hx =>
    injection h with hneg hm he
    subst hneg hm he
    have hcode : gridCode f (2 ^ fmtMant f + t) (x - fmtBias f - fmtMant f) = x * 2 ^ fmtMant f + t := by
      have hz : (x : Int) - fmtBias f - fmtMant f + fmtMant f + fmtBias f = x := by omega
      rw [gridCode, hz, Int.toNat_natCast]
      omega
    rw [hcode]
    exact ⟨⟨by omega, by omega, .inl (by omega)⟩, hmax, hparts⟩

/-- R94: an infinite code. -/
theorem decodeFloat_inf {f c : Nat} {neg : Bool} (hf : f < 8) (hc : c < 2 ^ fmtWidth f) (h : decodeFloat f c = .inf neg) :
    fmtInf f = true ∧ c = signBit f neg + fmtInfCode f := by
  have hparts := code_fields hf hc
  unfold decodeFloat at h
  dsimp only at h
  split at h
  next hi =>
    simp only [Bool.and_eq_true, beq_iff_eq] at hi
    split at h
    next ht =>
      injection h with hneg
      rw [ht, hi.2, hneg] at hparts
      exact ⟨hi.1, hparts⟩
    next => cases h
  next =>
    split at h
    · cases h
    · split at h <;> cases h

/-- R101: a quiet NaN keeps its code in its own format. -/
theorem convertNan_self {f c : Nat} (hf : f < 8) (hc : c < 2 ^ fmtWidth f) (h : decodeFloat f c = .nan false) : convertNan f f c false = (c, 0) := by
  have hparts := code_fields hf hc
  unfold decodeFloat at h
  dsimp only at h
  split at h
  next hi =>
    simp only [Bool.and_eq_true, beq_iff_eq] at hi
    split at h
    next => cases h
    next =>
      injection h with hq
      have h3 : f ≠ 3 := by
        rintro rfl
        exact absurd hi.1 (by decide)
      have hpay : c % 2 ^ fmtMant f * 2 ^ fmtMant f / 2 ^ fmtMant f = c % 2 ^ fmtMant f := Nat.mul_div_cancel _ (Nat.two_pow_pos _)
      have hquiet : c % 2 ^ fmtMant f / 2 ^ (fmtMant f - 1) % 2 = 1 := by
        have := beq_eq_false_iff_ne.mp hq
        omega
      rw [hi.2] at hparts
      simp only [convertNan, fmtHasNan, hi.1, Bool.true_or, if_true, h3, if_false, hpay, hquiet, flagIf, Bool.false_eq_true]
      exact Prod.ext ((Nat.add_assoc ..).trans hparts.symm) rfl
  next =>
    split at h
    next h3 =>
      simp only [Bool.and_eq_true, beq_iff_eq] at h3
      obtain ⟨rfl, h127⟩ := h3
      have hlow : c / 2 ^ fmtMant 3 % 2 ^ fmtExp 3 * 2 ^ fmtMant 3 + c % 2 ^ fmtMant 3 = c % 128 := by
        simp only [fmtMant, fmtExp]
        omega
      rw [hlow, h127] at hparts
      exact Prod.ext hparts.symm rfl
    next => split at h <;> cases h

/-- R97, R101: a conversion to the source's own floating format gives back every code but a signalling NaN. -/
theorem convert_self_float {f c : Nat} (mode : RMode) (hf : f < 8) (hc : c < 2 ^ fmtWidth f) (hs : decodeFloat f c ≠ .nan true) :
    convert f f mode c = (c, 0) := by
  have hfl : isFloat f = true := decide_eq_true hf
  unfold convert
  simp only [hfl, if_true]
  cases hd : decodeFloat f c with
  | fin neg m e =>
    obtain ⟨hg, hmax, hcode⟩ := decodeFloat_grid hf hc hd
    exact (roundFin_grid mode neg hg hmax).trans (by rw [← hcode])
  | inf neg =>
    obtain ⟨hi, hcode⟩ := decodeFloat_inf hf hc hd
    simp [roundTo, infOut, hi, ← hcode]
  | nan s =>
    cases s with
    | true => exact absurd hd hs
    | false => exact convertNan_self hf hc hd

theorem fmtWidth_pos (f : Nat) : 0 < fmtWidth f := by
  unfold fmtWidth
  split <;> decide

/-- R95: the integer of a code is of its format's range, and its code is the one it came from. -/
theorem satInt_decodeInt {f c : Nat} (hc : c < 2 ^ fmtWidth f) : satInt f (decodeInt f c) = (c, 0) := by
  have hpow : 2 ^ fmtWidth f = 2 * 2 ^ (fmtWidth f - 1) := by rw [← Nat.pow_succ', Nat.succ_eq_add_one, Nat.sub_add_cancel (fmtWidth_pos f)]
  have hcode : encodeInt f (decodeInt f c) = c := by
    unfold encodeInt decodeInt
    split
    · rw [Int.sub_emod_right, ← Int.natCast_mod, Int.toNat_natCast, Nat.mod_eq_of_lt hc]
    · rw [← Int.natCast_mod, Int.toNat_natCast, Nat.mod_eq_of_lt hc]
  have hrange : intLo f ≤ decodeInt f c ∧ decodeInt f c ≤ intHi f := by
    unfold intLo intHi decodeInt
    cases isInt f with
    | false =>
      simp only [Bool.false_and, Bool.false_eq_true, if_false]
      omega
    | true =>
      simp only [Bool.true_and, if_true]
      split <;> simp only [decide_eq_true_eq] at * <;> omega
  unfold satInt
  rw [if_neg (not_lt.mpr hrange.1), if_neg (not_lt.mpr hrange.2), hcode]

/-- R97, R101: a conversion to the source's own format gives back every code but a signalling NaN. -/
theorem convert_self {f c : Nat} (mode : RMode) (hc : c < 2 ^ fmtWidth f) (hs : decodeFloat f c ≠ .nan true) : convert f f mode c = (c, 0) := by
  by_cases hf : f < 8
  · exact convert_self_float mode hf hc hs
  · have hfl : isFloat f = false := decide_eq_false hf
    simp only [convert, hfl, Bool.false_eq_true, if_false]
    exact satInt_decodeInt hc

end Sys2Proof.Machine

/-! Reductions of a row (R112, R143): the integer sum, and the tree of a floating one with the flags of its nodes. -/

namespace Sys2Proof.Machine

/-- A bit of a union of flags: some member has it. -/
theorem getLsbD_foldl_or {α : Type} {n : Nat} (f : α → BitVec n) (l : List α) (a : BitVec n) (i : Nat) :
    (l.foldl (fun a x => a ||| f x) a).getLsbD i = (a.getLsbD i || l.any (fun x => (f x).getLsbD i)) := by
  induction l generalizing a with
  | nil => simp
  | cons x l ih => simp [ih, Bool.or_assoc]

/-- A union of flags that begins with some is theirs and the rest's. -/
theorem foldl_or_init {α : Type} {n : Nat} (f : α → BitVec n) (l : List α) (a : BitVec n) :
    l.foldl (fun a x => a ||| f x) a = a ||| l.foldl (fun a x => a ||| f x) 0 := by
  apply BitVec.eq_of_getLsbD_eq
  intro i _
  simp [getLsbD_foldl_or]

/-- The union of one flag, over and over, with what each member has. -/
theorem foldl_or_const {α : Type} {n : Nat} (f : α → BitVec n) (b : BitVec n) {l : List α} (h : l ≠ []) :
    l.foldl (fun a x => a ||| (f x ||| b)) 0 = l.foldl (fun a x => a ||| f x) 0 ||| b := by
  apply BitVec.eq_of_getLsbD_eq
  intro i _
  obtain ⟨x, hx⟩ := List.exists_mem_of_ne_nil l h
  cases hb : b.getLsbD i with
  | false => simp [getLsbD_foldl_or, hb]
  | true => simpa [getLsbD_foldl_or, hb] using ⟨x, hx⟩

/-- The numbers below 2n + 2 are 0, 1 and those below 2n raised by two. -/
theorem range_double (n : Nat) : List.range (2 * (n + 1)) = 0 :: 1 :: (List.range (2 * n)).map (fun j => j + 2) := by
  rw [Nat.mul_add, Nat.mul_one, List.range_succ_eq_map, List.range_succ_eq_map]
  simp

/-- R112: a node over two leaves: their FP32 sum, with their flags and its own. -/
def joinNodes (m : RMode) (x y : Nat × Flags) : Nat × Flags :=
  ((roundTo 0 m (addVal m (decodeFloat 0 x.1) (decodeFloat 0 y.1))).1,
    x.2 ||| y.2 ||| (roundTo 0 m (addVal m (decodeFloat 0 x.1) (decodeFloat 0 y.1))).2)

/-- R112: node j of level k of the tree over leaves. -/
def treeNode (m : RMode) (leaf : Nat → Nat × Flags) : Nat → Nat → Nat × Flags
  | 0, j => leaf j
  | k + 1, j => joinNodes m (treeNode m leaf k (2 * j)) (treeNode m leaf k (2 * j + 1))

/-- A tree's nodes are those of the tree over its first level. -/
theorem treeNode_succ (m : RMode) (leaf : Nat → Nat × Flags) (k j : Nat) : treeNode m leaf (k + 1) j = treeNode m (treeNode m leaf 1) k j := by
  induction k generalizing j with
  | zero => rfl
  | succ k ih =>
    rw [treeNode, ih, ih]
    rfl

/-- R112: the sums of one level, node by node. -/
theorem treeLevel_range (m : RMode) (c : Nat → Nat) (n : Nat) : treeLevel m ((List.range (2 * n)).map c) =
    (List.range n).map (fun j => roundTo 0 m (addVal m (decodeFloat 0 (c (2 * j))) (decodeFloat 0 (c (2 * j + 1))))) := by
  induction n generalizing c with
  | zero => rfl
  | succ n ih =>
    rw [range_double, List.range_succ_eq_map, List.map_cons, List.map_cons, treeLevel, List.map_map, ih]
    simp [Nat.mul_add, Function.comp_def, Nat.add_right_comm]

theorem any_range_double (p : Nat → Bool) (n : Nat) : (List.range (2 * n)).any p = (List.range n).any (fun j => p (2 * j) || p (2 * j + 1)) := by
  induction n generalizing p with
  | zero => rfl
  | succ n ih =>
    rw [range_double, List.range_succ_eq_map]
    simp only [List.any_cons, List.any_map, ih, Function.comp_def, Bool.or_assoc]
    rfl

/-- The union of the flags of n members. -/
def flagsBelow (f : Nat → Flags) (n : Nat) : Flags := (List.range n).foldl (fun a j => a ||| f j) 0

theorem getLsbD_flagsBelow (f : Nat → Flags) (n i : Nat) : (flagsBelow f n).getLsbD i = (List.range n).any (fun j => (f j).getLsbD i) := by
  simp [flagsBelow, getLsbD_foldl_or]

/-- R112: d levels over 2^d leaves give the code of the root, and the flags so far with those of every node. -/
theorem treeUp_root (m : RMode) (d : Nat) (leaf : Nat → Nat × Flags) (fl : Flags) :
    treeUp m d ((List.range (2 ^ d)).map (fun j => (leaf j).1)) (fl ||| flagsBelow (fun j => (leaf j).2) (2 ^ d)) =
      ((treeNode m leaf d 0).1, fl ||| (treeNode m leaf d 0).2) := by
  induction d generalizing leaf with
  | zero => simp [treeUp, treeNode, flagsBelow]
  | succ d ih =>
    have hflags : ((List.range (2 ^ d)).map (fun j => roundTo 0 m (addVal m (decodeFloat 0 (leaf (2 * j)).1) (decodeFloat 0 (leaf (2 * j + 1)).1)))).foldl
        (fun a x => a ||| x.2) (fl ||| flagsBelow (fun j => (leaf j).2) (2 * 2 ^ d)) = fl ||| flagsBelow (fun j => (treeNode m leaf 1 j).2) (2 ^ d) := by
      apply BitVec.eq_of_getLsbD_eq
      intro i _
      simp only [getLsbD_foldl_or, BitVec.getLsbD_or, getLsbD_flagsBelow, List.any_map, any_range_double, treeNode, joinNodes, Bool.or_assoc]
      rw [Bool.eq_iff_iff]
      simp only [Bool.or_eq_true, List.any_eq_true, and_or_left, exists_or, or_assoc, Function.comp_apply]
    rw [treeUp, Nat.pow_succ', treeLevel_range]
    rw [hflags, List.map_map]
    exact (ih (treeNode m leaf 1)).trans (by rw [treeNode_succ])

/-- R143: an integer sum is exact, and clamped once. -/
theorem rowSum_int {f : Nat} (m : RMode) (a : Row) (hf : isFloat f = false) :
    rowSum f m a = satInt f (((List.range (fmtCount f)).map (fun k => decodeInt f (elemAt f a k))).sum) := by
  simp [rowSum, hf, intSum, List.sum_eq_foldl]

theorem fmtCount_pow (f : Nat) : 2 ^ Nat.log2 (fmtCount f) = fmtCount f := by
  unfold fmtCount fmtStride fmtWidth
  split <;> decide

/-- R112: the leaves of a row's tree: its elements as FP32 codes. -/
def rowLeaf (f : Nat) (m : RMode) (a : Row) (j : Nat) : Nat × Flags := ((convert f 0 m (elemAt f a j)).1, 0)

/-- R112: the sum of a floating row is that of its tree, with NV for a signalling leaf. -/
theorem treeSum_root (f : Nat) (m : RMode) (a : Row) :
    treeSum f m a = ((treeNode m (rowLeaf f m a) (Nat.log2 (fmtCount f)) 0).1,
      flagIf ((List.range (fmtCount f)).any (fun j => isSig (decodeFloat f (elemAt f a j)))) flagNV |||
        (treeNode m (rowLeaf f m a) (Nat.log2 (fmtCount f)) 0).2) := by
  have hquiet : flagsBelow (fun j => (rowLeaf f m a j).2) (2 ^ Nat.log2 (fmtCount f)) = 0 := by
    apply BitVec.eq_of_getLsbD_eq
    intro i _
    simp [getLsbD_flagsBelow, rowLeaf]
  have h := treeUp_root m (Nat.log2 (fmtCount f)) (rowLeaf f m a)
    (flagIf ((List.range (fmtCount f)).any (fun j => isSig (decodeFloat f (elemAt f a j)))) flagNV)
  rw [hquiet, fmtCount_pow, show ∀ x : Flags, x ||| 0 = x from fun x => BitVec.or_zero] at h
  rw [← h, treeSum]
  simp only [List.map_map, List.any_map]
  rfl

/-- R112, R143: a floating sum is the root of its tree, rounded once into the format. -/
theorem rowSum_float {f : Nat} (m : RMode) (a : Row) (hf : isFloat f = true) :
    let root := treeNode m (rowLeaf f m a) (Nat.log2 (fmtCount f)) 0
    let out := roundTo f m (decodeFloat 0 root.1)
    let nv := (List.range (fmtCount f)).any (fun j => isSig (decodeFloat f (elemAt f a j)))
    rowSum f m a = (out.1, out.2 ||| root.2 ||| if nv then flagNV else 0) := by
  simp only [rowSum, hf, if_true, treeSum_root, flagIf, BitVec.or_assoc]
  exact congrArg (fun x => (_, _ ||| x)) (BitVec.or_comm _ _)

end Sys2Proof.Machine

/-! The special functions (R142): 1/x and 1/sqrt(x) cut to keptBits bits with a sticky last bit, and 2^x at the integers. -/

namespace Sys2Proof.Machine

/-- R142: 1/m of a magnitude. -/
theorem recipVal_cut {m : Nat} (hm : 0 < m) (neg : Bool) (e : Int) :
    ∃ M j : Nat, recipVal neg m e = .fin neg M (-(j : Int) - e) ∧
      (M * m = 2 ^ j ∨ (M % 2 = 1 ∧ 2 ^ 95 ≤ M ∧ (M - 1) * m < 2 ^ j ∧ 2 ^ j < (M + 1) * m)) := by
  obtain ⟨k, hk⟩ : ∃ k, k = Nat.log2 m + keptBits := ⟨_, rfl⟩
  have hdiv := Nat.div_add_mod (2 ^ k) m
  have hmod := Nat.mod_lt (2 ^ k) hm
  have hlarge : 2 ^ 95 ≤ 2 ^ k / m := by
    rw [Nat.le_div_iff_mul_le hm]
    calc 2 ^ 95 * m ≤ 2 ^ 95 * 2 ^ (Nat.log2 m + 1) := Nat.mul_le_mul_left _ (Nat.le_of_lt Nat.lt_log2_self)
      _ = 2 ^ k := by rw [hk, ← Nat.pow_add]; congr 1; unfold keptBits; omega
  have hval : recipVal neg m e = .fin neg (2 * (2 ^ k / m) + (if 2 ^ k / m * m = 2 ^ k then 0 else 1)) (-((k + 1 : Nat) : Int) - e) := by
    rw [recipVal, ← hk]
    simp only [Val.fin.injEq, true_and]
    omega
  refine ⟨_, k + 1, hval, ?_⟩
  have hmul : m * (2 ^ k / m) = 2 ^ k / m * m := Nat.mul_comm ..
  have hpow : 2 ^ (k + 1) = 2 * 2 ^ k := Nat.pow_succ'
  generalize 2 ^ k / m = q at *
  by_cases hx : q * m = 2 ^ k
  · left
    rw [if_pos hx, Nat.add_zero, Nat.mul_assoc, hx, hpow]
  · right
    rw [if_neg hx, Nat.add_sub_cancel, Nat.mul_assoc, show 2 * q + 1 + 1 = 2 * (q + 1) by omega, Nat.mul_assoc, Nat.add_mul, Nat.one_mul]
    omega

/-- The bits of a square root: acc with k more bits. -/
theorem isqrtFrom_spec (k n acc : Nat) (hlo : acc * acc ≤ n) (hhi : n < (acc + 2 ^ k) * (acc + 2 ^ k)) :
    isqrtFrom k n acc * isqrtFrom k n acc ≤ n ∧ n < (isqrtFrom k n acc + 1) * (isqrtFrom k n acc + 1) := by
  induction k generalizing acc with
  | zero => exact ⟨hlo, hhi⟩
  | succ k ih =>
    rw [isqrtFrom]
    split
    next h =>
      refine ih _ h ?_
      rwa [Nat.add_assoc, ← Nat.two_mul, ← Nat.pow_succ']
    next h => exact ih _ hlo (Nat.lt_of_not_le h)

/-- R142: the root that is taken for 1/sqrt(w): the floor of 2^k / sqrt(w), which has more than 95 bits. -/
theorem isqrt_scaled {w : Nat} (hw : 0 < w) :
    let k := Nat.log2 w / 2 + keptBits
    let q := isqrtFrom (keptBits + 4) (2 ^ (2 * k) / w) 0
    q * q * w ≤ 2 ^ (2 * k) ∧ 2 ^ (2 * k) < (q + 1) * (q + 1) * w ∧ 2 ^ 95 ≤ q := by
  intro k q
  have hk : 2 * k ≤ Nat.log2 w + 192 ∧ Nat.log2 w + 191 ≤ 2 * k := by
    simp only [k, keptBits]
    omega
  have hupper : 2 ^ (2 * k) / w ≤ 2 ^ 192 := by
    apply Nat.div_le_of_le_mul
    calc 2 ^ (2 * k) ≤ 2 ^ (Nat.log2 w + 192) := Nat.pow_le_pow_right (by decide) hk.1
      _ = 2 ^ Nat.log2 w * 2 ^ 192 := Nat.pow_add ..
      _ ≤ w * 2 ^ 192 := Nat.mul_le_mul_right _ (Nat.log2_self_le hw.ne')
  have hlower : 2 ^ 190 ≤ 2 ^ (2 * k) / w := by
    rw [Nat.le_div_iff_mul_le hw]
    calc 2 ^ 190 * w ≤ 2 ^ 190 * 2 ^ (Nat.log2 w + 1) := Nat.mul_le_mul_left _ (Nat.le_of_lt Nat.lt_log2_self)
      _ = 2 ^ (Nat.log2 w + 191) := by rw [← Nat.pow_add]; congr 1; omega
      _ ≤ 2 ^ (2 * k) := Nat.pow_le_pow_right (by decide) hk.2
  obtain ⟨hlo, hhi⟩ := isqrtFrom_spec (keptBits + 4) (2 ^ (2 * k) / w) 0 (Nat.zero_le _)
    (Nat.lt_of_le_of_lt hupper (by unfold keptBits; decide))
  refine ⟨(Nat.le_div_iff_mul_le hw).mp hlo, (Nat.div_lt_iff_lt_mul hw).mp hhi, ?_⟩
  by_contra hq
  have : (q + 1) * (q + 1) ≤ 2 ^ 95 * 2 ^ 95 := Nat.mul_le_mul (by omega) (by omega)
  exact absurd (Nat.lt_of_le_of_lt hlower hhi) (Nat.not_lt.mpr (this.trans_eq (Nat.pow_add 2 95 95).symm))

/-- R142: 1/sqrt(m) of a magnitude, whose exponent is made even first. -/
theorem rsqrtVal_cut {m : Nat} (hm : 0 < m) (e : Int) :
    ∃ M j : Nat, rsqrtVal m e = .fin false M (-(j : Int) - e / 2) ∧
      (M * M * (m * 2 ^ (e % 2).toNat) = 2 ^ (2 * j) ∨ (M % 2 = 1 ∧ 2 ^ 95 ≤ M ∧
        (M - 1) * (M - 1) * (m * 2 ^ (e % 2).toNat) < 2 ^ (2 * j) ∧ 2 ^ (2 * j) < (M + 1) * (M + 1) * (m * 2 ^ (e % 2).toNat))) := by
  have hodd : (if e % 2 == 1 then 2 * m else m) = m * 2 ^ (e % 2).toNat := by
    rcases Int.emod_two_eq e with h | h <;> simp [h, Nat.mul_comm]
  have hhalf : (if e % 2 == 1 then e - 1 else e) / 2 = e / 2 := by
    rcases Int.emod_two_eq e with h | h <;> (rw [h]; simp; try omega)
  obtain ⟨w, hw⟩ : ∃ w, w = m * 2 ^ (e % 2).toNat := ⟨_, rfl⟩
  have hwpos : 0 < w := by rw [hw]; exact Nat.mul_pos hm (Nat.two_pow_pos _)
  obtain ⟨k, hk⟩ : ∃ k, k = Nat.log2 w / 2 + keptBits := ⟨_, rfl⟩
  obtain ⟨q, hq⟩ : ∃ q, q = isqrtFrom (keptBits + 4) (2 ^ (2 * k) / w) 0 := ⟨_, rfl⟩
  have hval : rsqrtVal m e = .fin false (2 * q + (if q * q * w = 2 ^ (2 * k) then 0 else 1)) (-((k + 1 : Nat) : Int) - e / 2) := by
    unfold rsqrtVal
    dsimp only
    rw [hodd, hhalf, ← hw, ← hk, ← hq]
    simp only [Val.fin.injEq, true_and]
    omega
  refine ⟨_, k + 1, hval, ?_⟩
  obtain ⟨hlo, hhi, hlarge⟩ := isqrt_scaled hwpos
  rw [← hk, ← hq] at hlo hhi hlarge
  rw [← hw]
  have hpow : 2 ^ (2 * (k + 1)) = 4 * 2 ^ (2 * k) := by rw [Nat.mul_add, Nat.pow_add, Nat.mul_comm]
  have hsq : ∀ x, 2 * x * (2 * x) * w = 4 * (x * x * w) := fun x => by ring
  by_cases hx : q * q * w = 2 ^ (2 * k)
  · left
    rw [if_pos hx, Nat.add_zero, hsq, hx, hpow]
  · right
    rw [if_neg hx, Nat.add_sub_cancel, show 2 * q + 1 + 1 = 2 * (q + 1) by omega, hsq, hsq, hpow]
    omega

/-- R142: 2^x of an integer n below 1024 either way is that power of two. -/
theorem exp2Val_int {neg : Bool} {k : Nat} {e : Int} {n : Nat} (h : k * 2 ^ e.toNat = n * 2 ^ (-e).toNat) (hn : n < 1024) :
    exp2Val neg k e = .fin false 1 (if neg then -(n : Int) else n) := by
  unfold exp2Val
  dsimp only
  split
  next hk =>
    subst hk
    have : n = 0 := by simpa using h.symm
    simp [this]
  next hk =>
  split
  next hbig =>
    have hlt : n * 2 ^ (-e).toNat < 2 ^ 10 * 2 ^ (-e).toNat := Nat.mul_lt_mul_of_pos_right hn (Nat.two_pow_pos _)
    have hge : 2 ^ (10 + (-e).toNat) ≤ k * 2 ^ e.toNat := by
      calc 2 ^ (10 + (-e).toNat) ≤ 2 ^ (Nat.log2 k + e.toNat) := Nat.pow_le_pow_right (by decide) (by simp at hbig; omega)
        _ = 2 ^ Nat.log2 k * 2 ^ e.toNat := Nat.pow_add ..
        _ ≤ k * 2 ^ e.toNat := Nat.mul_le_mul_right _ (Nat.log2_self_le hk)
    rw [h, Nat.pow_add] at hge
    exact absurd hlt (Nat.not_lt.mpr hge)
  next =>
  split
  next he =>
    rw [show (-e).toNat = 0 by omega, Nat.pow_zero, Nat.mul_one] at h
    rw [h]
  next he =>
    have hx : (if neg then -(k : Int) else (k : Int)) = (if neg then -(n : Int) else n) * (2 ^ (-e).toNat : Nat) := by
      rw [show e.toNat = 0 by omega, Nat.pow_zero, Nat.mul_one] at h
      rw [h]
      cases neg <;> simp
    have hs : ((2 ^ (-e).toNat : Nat) : Int) ≠ 0 := Int.natCast_ne_zero.mpr (Nat.two_pow_pos _).ne'
    rw [hx, Int.mul_emod_left, Int.mul_ediv_cancel _ hs]
    rfl

end Sys2Proof.Machine

/-! O27: what a ready row instruction leaves (R129), and the conversions, special functions and reductions of a row. -/

namespace Sys2Proof.Machine

/-- R129: a ready row operation, whose row has the codes `res` as its elements and their flags, gives that result. -/
theorem rowResult_of_row {i : Instr} {s : State} {l : Bool} {td ta tb rs : BitVec 4} {k f : Nat} {F : State → Row → Row → Row → Nat → Row × Flags}
    {x : Row × Flags} {res : Nat → Nat × Flags} (o : SlotOutcome) (he : exec i s = o) (ho : o = rowOp i l td ta tb rs k F s)
    (hx : F s (myRow s td (vRows s rs).1) (myRow s ta (vRows s rs).2.1) (myRow s tb (vRows s rs).2.2) (vRows s rs).2.1 = x)
    (hrow : ∀ j < fmtCount f, elemAt f x.1 j = (res j).1 % 2 ^ fmtWidth f)
    (hflags : x.2 = (List.range (fmtCount f)).foldl (fun a j => a ||| (res j).2) 0) (hr : slotReady i s = true) :
    rowResult i s (if l then 4 else 3) td (vRows s rs).1 f k res := by
  refine ⟨x.1, ?_, hrow⟩
  rw [← hflags]
  exact does_of_body o hr he ho (congrArg (fun y => Except.ok (writeRow s (vSlot l) td (vRows s rs).1 y k)) hx)

/-- R106, R129: the elements and the flags of a row from elements with flags. -/
theorem rowOfFlags_result (f : Nat) (res : Nat → Nat × Flags) : (∀ j < fmtCount f, elemAt f (rowOfFlags f res).1 j = (res j).1 % 2 ^ fmtWidth f) ∧
    (rowOfFlags f res).2 = (List.range (fmtCount f)).foldl (fun a j => a ||| (res j).2) 0 :=
  ⟨fun j hj => by rw [rowOfFlags_row, elemAt_rowOf f _ j hj], rowOfFlags_flags f res⟩

theorem range_fmtCount_ne_nil (f : Nat) : List.range (fmtCount f) ≠ [] := by
  have := fmtCount_pos f
  simp
  omega

/-- R143: the elements and the flags of a row of one code. -/
theorem broadcast_result (f : Nat) (x : Nat × Flags) : (∀ j < fmtCount f, elemAt f (broadcast f x).1 j = x.1 % 2 ^ fmtWidth f) ∧
    (broadcast f x).2 = (List.range (fmtCount f)).foldl (fun a _ => a ||| x.2) 0 := by
  refine ⟨fun j hj => elemAt_rowOf f _ j hj, ?_⟩
  have h := foldl_or_const (fun _ : Nat => (0 : Flags)) x.2 (range_fmtCount_ne_nil f)
  rw [noFlags] at h
  simpa [broadcast] using h.symm

/-- R141: VCLMP of a row: without BEN the elements as they are, else each element against the bounds, with the bounds' flags. -/
theorem clamped_result (f : Nat) (w : View) (a : Row) (lo hi : Nat × Flags) :
    let x := if !w.ben then (rowOf f (elemAt f a), 0)
      else ((map1 f (elemClamp f lo.1 hi.1 w.blo w.bhi) a).1, (map1 f (elemClamp f lo.1 hi.1 w.blo w.bhi) a).2 ||| lo.2 ||| hi.2)
    let res := fun j => if w.ben = false then (elemAt f a j, 0)
      else ((elemClamp f lo.1 hi.1 w.blo w.bhi (elemAt f a j)).1, (elemClamp f lo.1 hi.1 w.blo w.bhi (elemAt f a j)).2 ||| lo.2 ||| hi.2)
    (∀ j < fmtCount f, elemAt f x.1 j = (res j).1 % 2 ^ fmtWidth f) ∧ x.2 = (List.range (fmtCount f)).foldl (fun a j => a ||| (res j).2) 0 := by
  cases w.ben with
  | false => exact ⟨fun j hj => elemAt_rowOf f _ j hj, (noFlags _).symm⟩
  | true =>
    obtain ⟨hrow, hflags⟩ := rowOfFlags_result f (fun k => elemClamp f lo.1 hi.1 w.blo w.bhi (elemAt f a k))
    refine ⟨hrow, ?_⟩
    simp only [Bool.not_true, Bool.false_eq_true, if_false, map1, BitVec.or_assoc, Bool.true_eq_false]
    rw [hflags, foldl_or_const _ _ (range_fmtCount_ne_nil f)]

/-- R142: the special functions of every class of operand. -/
theorem specialFunctions {f c : Nat} (m : RMode) :
    (∀ sig, decodeFloat f c = .nan sig → exp2Code f m c = nanResult f sig ∧ recipCode f m c = nanResult f sig ∧ rsqrtCode f m c = nanResult f sig) ∧
    (∀ neg e, decodeFloat f c = .fin neg 0 e → exp2Code f m c = roundTo f m (.fin false 1 0) ∧
      recipCode f m c = ((infOut f neg).1, flagDZ) ∧ rsqrtCode f m c = ((infOut f neg).1, flagDZ)) ∧
    (decodeFloat f c = .inf false → exp2Code f m c = infOut f false ∧ recipCode f m c = (0, 0) ∧ rsqrtCode f m c = (0, 0)) ∧
    (decodeFloat f c = .inf true → exp2Code f m c = (0, 0) ∧ recipCode f m c = (signBit f true, 0) ∧ rsqrtCode f m c = nanResult f true) := by
  refine ⟨fun sig h => ?_, fun neg e h => ?_, fun h => ?_, fun h => ?_⟩ <;> simp [exp2Code, recipCode, rsqrtCode, h, exp2Val, signBit]

/-- Settles O27: a code of a format is a point of its grid, which RoundTo gives back; a floating sum is the root of its tree; 1/x and 1/sqrt(x)
are cut with a sticky last bit; and each instruction's row is put together from its elements. -/
theorem rowConversionResults : Obligations.RowConversionResults := by
  refine ⟨fun f c m _ hc hs => convert_self m hc hs, fun f m a _ hf => rowSum_int m a hf, fun f m a _ hf => ?_, fun f c m _ _ => ?_, ?_⟩
  · exact ⟨treeNode m (rowLeaf f m a), fun _ => rfl, fun _ _ => rfl, rowSum_float m a hf⟩
  · obtain ⟨hnan, hzero, hpos, hneg⟩ := specialFunctions (f := f) (c := c) m
    refine ⟨hnan, hzero, hpos, hneg, fun neg k e n hd h hn => ?_, fun neg k e hd hk => ⟨?_, ?_, ?_⟩⟩
    · simp only [exp2Code, hd, exp2Val_int h hn]
    · obtain ⟨M, j, hM, hcut⟩ := recipVal_cut hk neg e
      refine ⟨M, j, ?_, hcut⟩
      simp only [recipCode, hd, hk.ne', if_false, hM]
    · rintro rfl
      simp only [rsqrtCode, hd, hk.ne', if_false, if_true]
    · rintro rfl
      obtain ⟨M, j, hM, hcut⟩ := rsqrtVal_cut hk e
      refine ⟨M, j, ?_, hcut⟩
      simp only [rsqrtCode, hd, hk.ne', Bool.false_eq_true, if_false, hM]
  · intro s l g fmt td ta v fs rs q _ _ f e r row A m w x lo hi scale
    have elements : ∀ {i k F} (o : SlotOutcome) (res : Nat → Nat × Flags), exec i s = o → o = rowOp i l td ta ta rs k F s →
        F s (myRow s td r.1) (myRow s ta r.2.1) (myRow s ta r.2.2) r.2.1 = rowOfFlags f res → w i k res :=
      fun o res he ho hx => rowResult_of_row o he ho hx (rowOfFlags_result f res).1 (rowOfFlags_result f res).2
    have reduces : ∀ {i k F} (o : SlotOutcome) (y : Nat × Flags), exec i s = o → o = rowOp i l td ta ta rs k F s →
        F s (myRow s td r.1) (myRow s ta r.2.1) (myRow s ta r.2.2) r.2.1 = broadcast f y → w i k (fun _ => y) :=
      fun o y he ho hx => rowResult_of_row o he ho hx (broadcast_result f y).1 (broadcast_result f y).2
    have clamps := clamped_result f x row lo hi
    exact ⟨elements (execVcvt l g fmt td ta fs rs s) _ rfl rfl rfl, elements (execVscl l g fmt td ta q rs s) _ rfl rfl rfl,
      rowResult_of_row (execVclmp l g fmt td ta v rs s) rfl rfl rfl clamps.1 clamps.2, elements (execVexp2 l g fmt td ta rs s) _ rfl rfl rfl,
      elements (execVrcp l g fmt td ta rs s) _ rfl rfl rfl, elements (execVrsq l g fmt td ta rs s) _ rfl rfl rfl,
      reduces (execVrsum l g fmt td ta rs s) _ rfl rfl rfl, reduces (execVrmax l g fmt td ta rs s) _ rfl rfl rfl,
      reduces (execVrmin l g fmt td ta rs s) _ rfl rfl rfl⟩

end Sys2Proof.Machine

/-! Residue words (R108-R110): a word's residues, sums of words, and the integers of the range. -/

namespace Sys2Proof.Machine

theorem residueWord_toNat (x1 x2 x3 : Nat) : (residueWord x1 x2 x3).toNat = x3 % 8193 * 2 ^ 26 + x2 % 8192 * 2 ^ 13 + x1 % 8191 := by
  rw [residueWord, BitVec.toNat_ofNat, Nat.mod_eq_of_lt]
  omega

/-- R108: the residues of a word from three residues. -/
@[simp] theorem residues_residueWord (x1 x2 x3 : Nat) : residues (residueWord x1 x2 x3) = (x1 % 8191, x2 % 8192, x3 % 8193) := by
  simp only [residues, residueWord_toNat, Prod.mk.injEq]
  omega

/-- R108: a word from residues depends on them alone. -/
theorem residueWord_congr {x1 x2 x3 y1 y2 y3 : Nat} (h1 : x1 % 8191 = y1 % 8191) (h2 : x2 % 8192 = y2 % 8192) (h3 : x3 % 8193 = y3 % 8193) :
    residueWord x1 x2 x3 = residueWord y1 y2 y3 := by
  simp only [residueWord, h1, h2, h3]

theorem residues_lt (w : BitVec 64) : (residues w).1 < 8191 ∧ (residues w).2.1 < 8192 ∧ (residues w).2.2 < 8193 := by
  simp only [residues]
  omega

/-- R109: the residues of an integer. -/
theorem residues_toResidue (x : Int) : residues (toResidue x) = ((x % 8191).toNat, (x % 8192).toNat, (x % 8193).toNat) := by
  simp only [toResidue, residues_residueWord, Prod.mk.injEq]
  omega

/-- R110: the residues of a sum. -/
theorem residues_residueAdd (a b : BitVec 64) : residues (residueAdd a b) =
    (((residues a).1 + (residues b).1) % 8191, ((residues a).2.1 + (residues b).2.1) % 8192, ((residues a).2.2 + (residues b).2.2) % 8193) :=
  residues_residueWord ..

/-- R110: sums of residue words are those of their integers. -/
theorem residueAdd_toResidue (a b : Int) : residueAdd (toResidue a) (toResidue b) = toResidue (a + b) := by
  simp only [residueAdd, residues_toResidue]
  apply residueWord_congr <;> omega

/-- R108: the weights of the Chinese remainder theorem give an integer back, up to the product of the moduli. -/
theorem residue_weights (a : Int) :
    (a % 8191 * 274911461376 + a % 8192 * 549688696833 + a % 8193 * 274911453184) % 549755805696 = a % 549755805696 := by
  omega

/-- R108: the integer of the range is the one of its residues. -/
theorem fromResidue_toResidue {a : Int} (hlo : -274877902848 ≤ a) (hhi : a < 274877902848) : fromResidue (toResidue a) = a := by
  have hsum : ∀ x y z : Nat, ((x * (8192 * 8193 * 4096) + y * (8191 * 8193 * 8191) + z * (8191 * 8192 * 4097) : Nat) : Int) =
      x * 274911461376 + y * 549688696833 + z * 274911453184 := by
    intro x y z
    push_cast
    ring
  have hres : ∀ m : Int, 0 < m → ((a % m).toNat : Int) = a % m := fun m hm => Int.toNat_of_nonneg (Int.emod_nonneg _ hm.ne')
  unfold fromResidue residueRange
  rw [residues_toResidue]
  extract_lets x n
  have hn : n = a % 549755805696 := by
    unfold n
    rw [hsum, hres _ (by decide), hres _ (by decide), hres _ (by decide), residue_weights]
  rw [hn]
  split <;> omega

end Sys2Proof.Machine

/-! The rows of an accumulator (R210): what a command reads and leaves of one, row by row. -/

namespace Sys2Proof.Machine

/-- R210: row r of an accumulator: the kind, the words of its columns, HG, E and CK. -/
@[ext] structure AccRow where
  integer : Bool
  word : Nat → BitVec 64
  head : Nat
  exp : BitVec 16
  ck : BitVec 40

/-- Row r of an accumulator, with zero words past its columns. -/
def accRow (a : Acc) (r : Nat) : AccRow :=
  { integer := a.integer, word := fun c => if c < 128 then accWord a r c else 0, head := accHead a r, exp := accExp a r, ck := tget 0 a.ck r }

@[simp] theorem accRow_integer (a : Acc) (r : Nat) : (accRow a r).integer = a.integer := rfl
@[simp] theorem accRow_head (a : Acc) (r : Nat) : (accRow a r).head = accHead a r := rfl
@[simp] theorem accRow_exp (a : Acc) (r : Nat) : (accRow a r).exp = accExp a r := rfl
@[simp] theorem accRow_ck (a : Acc) (r : Nat) : (accRow a r).ck = tget 0 a.ck r := rfl
@[simp] theorem accRow_word (a : Acc) (r : Nat) {c : Nat} (h : c < 128) : (accRow a r).word c = accWord a r c := if_pos h

/-- The accumulator b is a with row r replaced by x. -/
def setsRow (a : Acc) (r : Nat) (x : AccRow) (b : Acc) : Prop := ∀ q, accRow b q = if q = r then x else accRow a q

theorem setsRow.same {a b : Acc} {r : Nat} {x : AccRow} (h : setsRow a r x b) : accRow b r = x := (h r).trans (if_pos rfl)

theorem setsRow.other {a b : Acc} {r q : Nat} {x : AccRow} (h : setsRow a r x b) (hq : q ≠ r) : accRow b q = accRow a q := (h q).trans (if_neg hq)

theorem setsRow.refl (a : Acc) (r : Nat) : setsRow a r (accRow a r) a := fun q => by
  split
  next h => rw [h]
  next => rfl

theorem setsRow.trans {a b c : Acc} {r : Nat} {x y : AccRow} (h : setsRow a r x b) (k : setsRow b r y c) : setsRow a r y c := fun q => by
  rw [k q]
  split
  next => rfl
  next hq => exact h.other hq

/-- A row with the word of column c replaced. -/
def AccRow.put (x : AccRow) (c : Nat) (w : BitVec 64) : AccRow := { x with word := fun d => if d = c then w else x.word d }

theorem accWord_putAccWord (a : Acc) (r c q d : Nat) (w : BitVec 64) (hc : c < 128) (hd : d < 128) :
    accWord (putAccWord a r c w) q d = if q = r ∧ d = c then w else accWord a q d := by
  simp only [accWord, putAccWord, tget_sput]
  by_cases h : q = r ∧ d = c
  · obtain ⟨rfl, rfl⟩ := h
    simp
  · rw [if_neg h, if_neg (by omega)]

theorem putAccWord_sets (a : Acc) (r : Nat) {c : Nat} (w : BitVec 64) (hc : c < 128) : setsRow a r ((accRow a r).put c w) (putAccWord a r c w) := by
  intro q
  by_cases hq : q = r
  · subst hq
    rw [if_pos rfl]
    ext d
    · rfl
    · by_cases hd : d < 128
      · simp [accRow, AccRow.put, hd, accWord_putAccWord, hc]
      · simp [accRow, AccRow.put, hd, show d ≠ c by omega]
    all_goals rfl
  · rw [if_neg hq]
    ext d
    · rfl
    · by_cases hd : d < 128 <;> simp [accRow, hd, accWord_putAccWord, hc, hq]
    all_goals rfl

/-- A row with CK replaced. -/
def AccRow.setCk (x : AccRow) (k : BitVec 40) : AccRow := { x with ck := k }

theorem setCk_sets (a : Acc) (r : Nat) (x : BitVec 40) : setsRow a r ((accRow a r).setCk x) { a with ck := sput 0 a.ck r x } := by
  intro q
  by_cases hq : q = r <;> simp [accRow, AccRow.setCk, tget_sput, hq, accWord, accHead, accExp]

theorem setExp_sets (a : Acc) (r : Nat) (x : BitVec 16) : setsRow a r { accRow a r with exp := x } { a with e := sput 0 a.e r x } := by
  intro q
  by_cases hq : q = r <;> simp [accRow, tget_sput, hq, accWord, accHead, accExp]

theorem setHead_sets (a : Acc) {r : Nat} (x : Nat) (hr : r < 64) : setsRow a r { accRow a r with head := x } { a with hg := vput a.hg r x } := by
  intro q
  by_cases hq : q = r
  · subst hq
    simp [accRow, accWord, accHead, accExp, hr]
  · simp [accRow, accWord, accHead, accExp, hq, vget_vput_ne]

/-! The checksum of a row (R224). -/

/-- R224: the checksum of a row's words. -/
def AccRow.check (x : AccRow) : BitVec 40 :=
  if x.integer then ((List.range 128).foldl (fun y c => residueAdd y (x.word c)) 0).setWidth 40
  else BitVec.ofNat 40 ((List.range 128).foldl (fun y c => (y + (x.word c).toNat) % 2 ^ 32) 0)

theorem rowCheck_eq (a : Acc) (r : Nat) : rowCheck a r = (accRow a r).check := by
  have hfold : ∀ {β : Type} (f : β → BitVec 64 → β) (y : β),
      (List.range 128).foldl (fun y c => f y (accWord a r c)) y = (List.range 128).foldl (fun y c => f y ((accRow a r).word c)) y := by
    intro β f y
    exact List.foldl_ext _ _ _ (fun z c hc => by rw [accRow_word a r (List.mem_range.mp hc)])
  unfold rowCheck AccRow.check
  rw [hfold residueAdd, hfold (fun y w => (y + w.toNat) % 2 ^ 32)]
  rfl

/-- The sum over a row's columns of a number of each word. -/
def AccRow.total (x : AccRow) (f : BitVec 64 → Nat) : Nat := ((List.range 128).map (fun c => f (x.word c))).sum

theorem AccRow.total_congr {x y : AccRow} (h : x.word = y.word) (f : BitVec 64 → Nat) : x.total f = y.total f := by
  simp only [AccRow.total, h]

/-- R108, R224: the sums of the residues of a row's words. -/
def AccRow.residueSums (x : AccRow) : Nat × Nat × Nat :=
  (x.total (fun w => (residues w).1) % 8191, x.total (fun w => (residues w).2.1) % 8192, x.total (fun w => (residues w).2.2) % 8193)

/-- R224: the sum of a row's words below 2^32. -/
def AccRow.wordSum (x : AccRow) : Nat := x.total BitVec.toNat % 2 ^ 32

theorem AccRow.residueSums_congr {x y : AccRow} (h : x.word = y.word) : x.residueSums = y.residueSums := by
  simp only [AccRow.residueSums, AccRow.total_congr h]

theorem AccRow.wordSum_congr {x y : AccRow} (h : x.word = y.word) : x.wordSum = y.wordSum := by
  simp only [AccRow.wordSum, AccRow.total_congr h]

theorem AccRow.wordSum_lt (x : AccRow) : x.wordSum < 2 ^ 40 := Nat.lt_trans (Nat.mod_lt _ (by decide)) (by decide)

/-- R224: CK of a row agrees with its words: their sum below 2^32, or the sums of their residues. -/
def AccRow.Checked (x : AccRow) : Prop :=
  if x.integer then residues (x.ck.setWidth 64) = x.residueSums else x.ck.toNat = x.wordSum

theorem AccRow.checked_int {x : AccRow} (h : x.integer = true) : x.Checked ↔ residues (x.ck.setWidth 64) = x.residueSums := by
  rw [AccRow.Checked, if_pos h]

theorem AccRow.checked_fp {x : AccRow} (h : x.integer = false) : x.Checked ↔ x.ck.toNat = x.wordSum := by
  rw [AccRow.Checked, if_neg (Bool.eq_false_iff.mp h)]

theorem foldl_add_mod {α : Type} (f : α → Nat) (l : List α) (m y : Nat) :
    (l.foldl (fun y c => (y + f c) % m) (y % m)) = (y + (l.map f).sum) % m := by
  induction l generalizing y with
  | nil => simp
  | cons c l ih => rw [List.foldl_cons, Nat.mod_add_mod, ih, List.map_cons, List.sum_cons, Nat.add_assoc]

theorem foldl_residueAdd {α : Type} (f : α → BitVec 64) (l : List α) (x y z : Nat) :
    l.foldl (fun w c => residueAdd w (f c)) (residueWord x y z) =
      residueWord (x + (l.map (fun c => (residues (f c)).1)).sum) (y + (l.map (fun c => (residues (f c)).2.1)).sum)
        (z + (l.map (fun c => (residues (f c)).2.2)).sum) := by
  induction l generalizing x y z with
  | nil => simp
  | cons c l ih =>
    have hstep : residueAdd (residueWord x y z) (f c) = residueWord (x + (residues (f c)).1) (y + (residues (f c)).2.1) (z + (residues (f c)).2.2) := by
      simp only [residueAdd, residues_residueWord]
      apply residueWord_congr <;> omega
    rw [List.foldl_cons, hstep, ih]
    simp only [List.map_cons, List.sum_cons, Nat.add_assoc]

/-- R108: the word of three residues, each reduced. -/
def wordOf (x : Nat × Nat × Nat) : BitVec 64 := residueWord x.1 x.2.1 x.2.2

theorem residues_wordOf_residueSums (x : AccRow) : residues (wordOf x.residueSums) = x.residueSums := by
  simp only [wordOf, residues_residueWord, AccRow.residueSums, Nat.mod_mod]

/-- R224: the checksum of a row is the word of the sums of its residues, or the sum of its words below 2^32. -/
theorem AccRow.check_eq (x : AccRow) : x.check = if x.integer then (wordOf x.residueSums).setWidth 40 else BitVec.ofNat 40 x.wordSum := by
  have hzero : (0 : BitVec 64) = residueWord 0 0 0 := by decide
  have hfp := foldl_add_mod (fun c => (x.word c).toNat) (List.range 128) (2 ^ 32) 0
  have hint : (List.range 128).foldl (fun y c => residueAdd y (x.word c)) 0 = wordOf x.residueSums := by
    rw [hzero, foldl_residueAdd]
    apply residueWord_congr <;> simp [AccRow.residueSums, AccRow.total]
  simp only [Nat.zero_mod, Nat.zero_add] at hfp
  rw [AccRow.check, hint, hfp]
  rfl

theorem setWidth_wordOf (x : Nat × Nat × Nat) : ((wordOf x).setWidth 40).setWidth 64 = wordOf x := by
  apply BitVec.eq_of_toNat_eq
  simp only [BitVec.toNat_setWidth, wordOf, residueWord_toNat]
  omega

theorem wordOf_residues (w : BitVec 64) : residueAdd w 0 = wordOf (residues w) := rfl

theorem residues_wordOf_residues (w : BitVec 64) : residues (wordOf (residues w)) = residues w := by
  obtain ⟨h1, h2, h3⟩ := residues_lt w
  simp only [wordOf, residues_residueWord, Nat.mod_eq_of_lt h1, Nat.mod_eq_of_lt h2, Nat.mod_eq_of_lt h3]

/-- R224: CK of a row of an accumulator agrees with its words. -/
theorem checkOk_iff (a : Acc) (r : Nat) : checkOk a r = true ↔ (accRow a r).Checked := by
  rw [checkOk, beq_iff_eq, rowCheck_eq, AccRow.check_eq, readCheck]
  by_cases hi : a.integer = true
  · rw [AccRow.checked_int hi, if_pos hi, if_pos (accRow_integer a r ▸ hi), wordOf_residues, accRow_ck]
    constructor
    · intro h
      have := congrArg (fun w : BitVec 40 => residues (w.setWidth 64)) h
      simpa only [setWidth_wordOf, residues_wordOf_residueSums, residues_wordOf_residues] using this
    · intro h
      rw [h]
  · rw [AccRow.checked_fp (Bool.eq_false_iff.mpr hi), if_neg hi, if_neg (accRow_integer a r ▸ hi), ← BitVec.toNat_inj, BitVec.toNat_ofNat,
      Nat.mod_eq_of_lt (AccRow.wordSum_lt _), accRow_ck]

/-- R224: when a CK that is put into a row agrees. -/
theorem AccRow.checked_setCk (x : AccRow) (k : BitVec 40) :
    (x.setCk k).Checked ↔ if x.integer then residues (k.setWidth 64) = x.residueSums else k.toNat = x.wordSum := by
  rw [AccRow.Checked, AccRow.residueSums_congr (x := x.setCk k) (y := x) rfl, AccRow.wordSum_congr (x := x.setCk k) (y := x) rfl]
  rfl

/-- R224: CK set afresh agrees. -/
theorem AccRow.checked_check (x : AccRow) : (x.setCk x.check).Checked := by
  rw [AccRow.checked_setCk, AccRow.check_eq]
  split
  · rw [setWidth_wordOf, residues_wordOf_residueSums]
  · rw [BitVec.toNat_ofNat, Nat.mod_eq_of_lt x.wordSum_lt]

theorem setCheck_sets (a : Acc) (r : Nat) : setsRow a r ((accRow a r).setCk (accRow a r).check) (setCheck a r) := by
  unfold setCheck
  rw [rowCheck_eq]
  exact setCk_sets a r _

/-- A sum of which one term is replaced. -/
theorem sum_range_replace {f g : Nat → Nat} {n c : Nat} (hc : c < n) (h : ∀ d, d ≠ c → g d = f d) :
    ((List.range n).map g).sum + f c = ((List.range n).map f).sum + g c := by
  induction n with
  | zero => omega
  | succ n ih =>
    rw [List.range_succ, List.map_append, List.map_append, List.sum_append, List.sum_append]
    simp only [List.map_cons, List.map_nil, List.sum_cons, List.sum_nil, Nat.add_zero]
    by_cases hn : c = n
    · have heq : (List.range n).map g = (List.range n).map f := List.map_congr_left fun d hd => h d (by have := List.mem_range.mp hd; omega)
      rw [heq, hn, Nat.add_right_comm]
    · have := ih (by omega)
      rw [h n (Ne.symm hn)]
      omega

/-- A sum over the columns after one word is replaced. -/
theorem AccRow.total_put (x : AccRow) (f : BitVec 64 → Nat) {c : Nat} (w : BitVec 64) (hc : c < 128) :
    (x.put c w).total f + f (x.word c) = x.total f + f w := by
  have h := sum_range_replace (f := fun d => f (x.word d)) (g := fun d => f ((x.put c w).word d)) hc (fun d hd => by simp [AccRow.put, hd])
  simpa only [AccRow.put, AccRow.total, if_true] using h

/-- R220, R224: a row whose column c takes a contribution, with its CK. -/
def AccRow.add (x : AccRow) (c : Nat) (n : Int) : AccRow :=
  if x.integer then (x.put c (residueAdd (x.word c) (toResidue n))).setCk ((residueAdd (x.ck.setWidth 64) (toResidue n)).setWidth 40)
  else (x.put c (x.word c + BitVec.ofInt 64 n)).setCk (BitVec.ofNat 40 ((x.ck.toNat + (n % (2 ^ 32 : Nat)).toNat) % 2 ^ 32))

theorem putWithCk_sets (a : Acc) (r : Nat) {c : Nat} (w : BitVec 64) (k : BitVec 40) (hc : c < 128) :
    setsRow a r (((accRow a r).put c w).setCk k) { putAccWord a r c w with ck := sput 0 a.ck r k } := by
  have h := setCk_sets (putAccWord a r c w) r k
  rw [(putAccWord_sets a r w hc).same] at h
  exact (putAccWord_sets a r w hc).trans h

theorem addContrib_sets (a : Acc) (r : Nat) {c : Nat} (n : Int) (hc : c < 128) : setsRow a r ((accRow a r).add c n) (addContrib a r c n) := by
  unfold addContrib AccRow.add
  rw [accRow_integer, accRow_word a r hc, accRow_ck]
  split
  · exact putWithCk_sets a r _ _ hc
  · exact putWithCk_sets a r _ _ hc

/-- R224: a contribution's low bits are those of its word. -/
theorem toNat_ofInt_low (n : Int) : (BitVec.ofInt 64 n).toNat % 2 ^ 32 = (n % (2 ^ 32 : Nat)).toNat := by
  rw [BitVec.toNat_ofInt]
  have hcast : ((2 ^ 32 : Nat) : Int) = 4294967296 := by norm_num
  have hcast' : ((2 ^ 64 : Nat) : Int) = 18446744073709551616 := by norm_num
  rw [hcast, hcast']
  omega

/-- R108: a sum of residue words has 40 bits. -/
theorem residueAdd_setWidth (a b : BitVec 64) : ((residueAdd a b).setWidth 40).setWidth 64 = residueAdd a b := setWidth_wordOf (_, _, _)

/-- R108, R224: the sums of a row's residues after one word has taken another. -/
theorem AccRow.residueSums_add (x : AccRow) {c : Nat} (w : BitVec 64) (hc : c < 128) :
    (x.put c (residueAdd (x.word c) w)).residueSums = ((x.residueSums.1 + (residues w).1) % 8191, (x.residueSums.2.1 + (residues w).2.1) % 8192,
      (x.residueSums.2.2 + (residues w).2.2) % 8193) := by
  have h1 := x.total_put (fun w => (residues w).1) (residueAdd (x.word c) w) hc
  have h2 := x.total_put (fun w => (residues w).2.1) (residueAdd (x.word c) w) hc
  have h3 := x.total_put (fun w => (residues w).2.2) (residueAdd (x.word c) w) hc
  simp only [residues_residueAdd] at h1 h2 h3
  simp only [AccRow.residueSums, Prod.mk.injEq]
  omega

/-- R224: the sum of a row's words after one word has taken another. -/
theorem AccRow.wordSum_add (x : AccRow) {c : Nat} (w : BitVec 64) (hc : c < 128) :
    (x.put c (x.word c + w)).wordSum = (x.wordSum + w.toNat % 2 ^ 32) % 2 ^ 32 := by
  have h := x.total_put BitVec.toNat (x.word c + w) hc
  rw [BitVec.toNat_add] at h
  unfold AccRow.wordSum
  omega

/-- R224: a contribution keeps CK in agreement. -/
theorem AccRow.checked_add {x : AccRow} {c : Nat} (n : Int) (hc : c < 128) (h : x.Checked) : (x.add c n).Checked := by
  unfold AccRow.add
  split
  next hi =>
    rw [AccRow.checked_int hi] at h
    rw [AccRow.checked_setCk, if_pos (by exact hi), AccRow.residueSums_add x _ hc, residueAdd_setWidth, residues_residueAdd, h]
  next hi =>
    rw [AccRow.checked_fp (Bool.eq_false_iff.mpr hi)] at h
    rw [AccRow.checked_setCk, if_neg (by exact hi), AccRow.wordSum_add x _ hc, ← toNat_ofInt_low, BitVec.toNat_ofNat,
      Nat.mod_eq_of_lt (Nat.lt_trans (Nat.mod_lt _ (by decide)) (by decide)), h]

end Sys2Proof.Machine

/-! The window of a command (R219), and a command's way through its rows. -/

namespace Sys2Proof.Machine

/-- R219: row r is in the window. -/
def InRows (p : Plane) (r : Nat) : Prop := p.row0 ≤ r ∧ r < p.row0 + p.mrows

/-- R219: column c is in the column window. -/
def InCols (p : Plane) (c : Nat) : Prop := p.col0 ≤ c ∧ c < p.col0 + p.ncols

theorem mem_windowRows {p : Plane} {r : Nat} : r ∈ windowRows p ↔ InRows p r := by
  simp only [windowRows, List.mem_map, List.mem_range, InRows]
  exact ⟨fun ⟨j, hj, h⟩ => by omega, fun ⟨hl, hu⟩ => ⟨r - p.row0, by omega, by omega⟩⟩

theorem windowRows_nodup (p : Plane) : (windowRows p).Nodup := List.nodup_range.map fun _ _ h => Nat.add_left_cancel h

theorem windowCols_nodup (p : Plane) : (windowCols p).Nodup := List.nodup_range.map fun _ _ h => Nat.add_left_cancel h

theorem mem_windowCols {p : Plane} {c : Nat} : c ∈ windowCols p ↔ InCols p c := by
  simp only [windowCols, List.mem_map, List.mem_range, InCols]
  exact ⟨fun ⟨j, hj, h⟩ => by omega, fun ⟨hl, hu⟩ => ⟨c - p.col0, by omega, by omega⟩⟩

/-- Row r is the first of the window of which P holds. -/
def FirstRow (p : Plane) (P : Nat → Prop) (r : Nat) : Prop := InRows p r ∧ P r ∧ ∀ q, InRows p q → q < r → ¬ P q

theorem find_windowRows_first {p : Plane} {P : Nat → Prop} {b : Nat → Bool} {r : Nat} (hb : ∀ q, b q = true ↔ P q) (h : FirstRow p P r) :
    (windowRows p).find? b = some r := by
  obtain ⟨⟨hl, hu⟩, hr, hq⟩ := h
  rw [windowRows, List.find?_map, List.find?_range_eq_some (i := r - p.row0) |>.mpr]
  · exact congrArg some (show p.row0 + (r - p.row0) = r by omega)
  · refine ⟨?_, List.mem_range.mpr (by omega), fun j hj => ?_⟩
    · rw [Function.comp_apply, show p.row0 + (r - p.row0) = r by omega]
      exact (hb r).mpr hr
    · have := mt (hb _).mp (hq (p.row0 + j) ⟨by omega, by omega⟩ (by omega))
      simpa using this

theorem find_windowRows_none {p : Plane} {P : Nat → Prop} {b : Nat → Bool} (hb : ∀ q, b q = true ↔ P q) (h : ∀ r, InRows p r → ¬ P r) :
    (windowRows p).find? b = none := by
  rw [List.find?_eq_none]
  exact fun r hr hbr => h r (mem_windowRows.mp hr) ((hb r).mp hbr)

@[simp] theorem firstShape_true (d : Nat) (l : List (Bool × Nat)) : firstShape ((true, d) :: l) = some (shapeFail d) := rfl

@[simp] theorem firstShape_false (d : Nat) (l : List (Bool × Nat)) : firstShape ((false, d) :: l) = firstShape l := rfl

@[simp] theorem firstShape_nil : firstShape [] = none := rfl

/-- R224: no row of the window has a CK that disagrees. -/
theorem badCheck_none {a : Acc} {p : Plane} (h : ∀ r, InRows p r → checkOk a r = true) : badCheck a (windowRows p) = none := by
  rw [badCheck, find_windowRows_none (P := fun r => checkOk a r = false) (by simp) (fun r hr => by simp [h r hr])]
  rfl

/-- R224: the first row of the window whose CK disagrees. -/
theorem badCheck_first {a : Acc} {p : Plane} {r : Nat} (h : FirstRow p (fun q => checkOk a q = false) r) :
    badCheck a (windowRows p) = some { cause := 0x3A, detail := 0, row := r, col := 0 } := by
  rw [badCheck, find_windowRows_first (by simp) h]
  rfl

/-- R222, R223: the headroom that a command asks of a row. -/
def lacksHeadroom (a : Acc) (cost r : Nat) : Prop := if a.integer then accHead a r ≤ cost else accHead a r = 0

theorem noHeadroom_none {a : Acc} {cost : Nat} {p : Plane} (h : ∀ r, InRows p r → ¬ lacksHeadroom a cost r) : noHeadroom a cost (windowRows p) = none := by
  rw [noHeadroom, find_windowRows_none (P := lacksHeadroom a cost) (fun q => by cases hi : a.integer <;> simp [lacksHeadroom, hi]) h]
  rfl

theorem noHeadroom_first {a : Acc} {cost r : Nat} {p : Plane} (h : FirstRow p (lacksHeadroom a cost) r) :
    noHeadroom a cost (windowRows p) = some { cause := 0x38, detail := 0, row := r, col := 0 } := by
  rw [noHeadroom, find_windowRows_first (fun q => by cases hi : a.integer <;> simp [lacksHeadroom, hi]) h]
  rfl

/-- A command's way through rows: each row's step, from the accumulator and the flags that the rows before it leave, or the first failure. -/
def runRows (step : Acc → Flags → Nat → Except ArrayFail (Acc × Flags)) (a : Acc) (fl : Flags) (rows : List Nat) : Except ArrayFail (Acc × Flags) :=
  match rows with
  | [] => .ok (a, fl)
  | r :: rest =>
    match step a fl r with
    | .error e => .error e
    | .ok x => runRows step x.1 x.2 rest

/-- Steps that each replace their row, as that row alone decides, replace every row of the list; the flags are the union of theirs. -/
theorem runRows_ok {step : Acc → Flags → Nat → Except ArrayFail (Acc × Flags)} {G : Nat → AccRow} {F : Nat → Flags} {rows : List Nat} {A : Acc}
    (hn : rows.Nodup)
    (h : ∀ r ∈ rows, ∀ a fl, accRow a r = accRow A r → ∃ b, step a fl r = .ok (b, fl ||| F r) ∧ setsRow a r (G r) b) (fl : Flags) :
    ∃ B, runRows step A fl rows = .ok (B, rows.foldl (fun x r => x ||| F r) fl) ∧ ∀ q, accRow B q = if q ∈ rows then G q else accRow A q := by
  induction rows generalizing A fl with
  | nil => exact ⟨A, rfl, fun q => by simp⟩
  | cons r rest ih =>
    obtain ⟨hr, hrest⟩ := List.nodup_cons.mp hn
    obtain ⟨b, hb, hsets⟩ := h r List.mem_cons_self A fl rfl
    have hne : ∀ q ∈ rest, q ≠ r := fun q hq he => hr (he ▸ hq)
    obtain ⟨B, hB, hrows⟩ := ih (A := b) hrest
      (fun q hq a fl ha => h q (List.mem_cons_of_mem _ hq) a fl (ha.trans (hsets.other (hne q hq)))) (fl ||| F r)
    refine ⟨B, by rw [runRows, hb]; exact hB, fun q => ?_⟩
    rw [hrows q]
    by_cases hq : q ∈ rest
    · simp [hq]
    · by_cases he : q = r
      · subst he
        simp [hq, hsets.same]
      · simp [hq, he, hsets.other he]

/-- A step that fails at one of the rows, where the steps before it leave the other rows, fails the command at a row of the list. -/
theorem runRows_error {step : Acc → Flags → Nat → Except ArrayFail (Acc × Flags)} {E : Nat → ArrayFail → Prop} {bad : Nat → Prop} {rows : List Nat} {A : Acc}
    (hn : rows.Nodup) (hex : ∃ r ∈ rows, bad r)
    (hbad : ∀ r ∈ rows, bad r → ∀ a fl, accRow a r = accRow A r → ∃ e, step a fl r = .error e ∧ E r e)
    (hgood : ∀ r ∈ rows, ¬ bad r → ∀ a fl, accRow a r = accRow A r → ∃ b fl1, step a fl r = .ok (b, fl1) ∧ ∀ q, q ≠ r → accRow b q = accRow a q)
    (fl : Flags) : ∃ r ∈ rows, ∃ e, runRows step A fl rows = .error e ∧ E r e := by
  induction rows generalizing A fl with
  | nil => obtain ⟨r, hr, _⟩ := hex; cases hr
  | cons r rest ih =>
    obtain ⟨hr, hrest⟩ := List.nodup_cons.mp hn
    by_cases hb : bad r
    · obtain ⟨e, he, hE⟩ := hbad r List.mem_cons_self hb A fl rfl
      exact ⟨r, List.mem_cons_self, e, by rw [runRows, he], hE⟩
    · obtain ⟨b, fl1, hstep, hother⟩ := hgood r List.mem_cons_self hb A fl rfl
      have hne : ∀ q ∈ rest, q ≠ r := fun q hq he => hr (he ▸ hq)
      have hex' : ∃ q ∈ rest, bad q := by
        obtain ⟨q, hq, hqb⟩ := hex
        rcases List.mem_cons.mp hq with rfl | hq
        · exact absurd hqb hb
        · exact ⟨q, hq, hqb⟩
      obtain ⟨q, hq, e, he, hE⟩ := ih (A := b) hrest hex'
        (fun q hq hqb a fl ha => hbad q (List.mem_cons_of_mem _ hq) hqb a fl (ha.trans (hother q (hne q hq))))
        (fun q hq hqb a fl ha => hgood q (List.mem_cons_of_mem _ hq) hqb a fl (ha.trans (hother q (hne q hq)))) fl1
      exact ⟨q, List.mem_cons_of_mem _ hq, e, by rw [runRows, hstep]; exact he, hE⟩

/-- A bit of the flags of a command: a row of the window has it. -/
theorem getLsbD_windowFlags (p : Plane) (F : Nat → Flags) (i : Nat) :
    ((windowRows p).foldl (fun x r => x ||| F r) 0).getLsbD i = true ↔ ∃ r, InRows p r ∧ (F r).getLsbD i = true := by
  simp [getLsbD_foldl_or, mem_windowRows]

/-! What a command leaves of the array besides the rows of its window. -/

/-- The command has changed accumulator k alone, and of it the rows of the window alone. -/
def ChangesRows (x y : ArrayState) (k : Nat) (p : Plane) : Prop :=
  y.active = x.active ∧ y.shadow = x.shadow ∧ (∀ j < 8, j ≠ k → accAt y j = accAt x j) ∧ (accAt y k).integer = (accAt x k).integer ∧
    ∀ r < 64, ¬ InRows p r → (∀ c < 128, accWord (accAt y k) r c = accWord (accAt x k) r c) ∧ accHead (accAt y k) r = accHead (accAt x k) r ∧
      accExp (accAt y k) r = accExp (accAt x k) r ∧ tget 0 (accAt y k).ck r = tget 0 (accAt x k).ck r

@[simp] theorem accAt_putAcc (x : ArrayState) {k : Nat} (a : Acc) (hk : k < 8) : accAt (putAcc x k a) k = a := vget_vput_same _ _ _ _ hk

theorem accAt_putAcc_ne (x : ArrayState) {k j : Nat} (a : Acc) (h : j ≠ k) : accAt (putAcc x k a) j = accAt x j := vget_vput_ne _ _ _ h

theorem changesRows_putAcc {x : ArrayState} {k : Nat} {p : Plane} {B : Acc} {G : Nat → AccRow} (hk : k < 8)
    (hrows : ∀ q, accRow B q = if q ∈ windowRows p then G q else accRow (accAt x k) q) (hi : ∀ r, InRows p r → (G r).integer = (accAt x k).integer) :
    ChangesRows x (putAcc x k B) k p := by
  refine ⟨rfl, rfl, fun j _ hj => accAt_putAcc_ne x B hj, ?_, fun r _ hr => ?_⟩
  · rw [accAt_putAcc x B hk]
    have h0 := congrArg AccRow.integer (hrows 0)
    split at h0
    next hw => exact h0.trans (hi 0 (mem_windowRows.mp hw))
    next => exact h0
  · rw [accAt_putAcc x B hk]
    have h := hrows r
    rw [if_neg (mt mem_windowRows.mp hr)] at h
    refine ⟨fun c hc => ?_, congrArg AccRow.head h, congrArg AccRow.exp h, congrArg AccRow.ck h⟩
    have hw := congrArg (fun x => x.word c) h
    simpa only [accRow_word _ _ hc] using hw

end Sys2Proof.Machine

/-! Contributions to the rows of a window (R220, R222-R225). -/

namespace Sys2Proof.Machine

/-- R220: a word that takes a contribution. -/
def joinWord (integer : Bool) (w : BitVec 64) (n : Int) : BitVec 64 := if integer then residueAdd w (toResidue n) else w + BitVec.ofInt 64 n

theorem AccRow.add_frame (x : AccRow) (c : Nat) (n : Int) : (x.add c n).integer = x.integer ∧ (x.add c n).head = x.head ∧ (x.add c n).exp = x.exp ∧
    ∀ d, (x.add c n).word d = if d = c then joinWord x.integer (x.word c) n else x.word d := by
  unfold AccRow.add joinWord
  split <;> exact ⟨rfl, rfl, rfl, fun _ => rfl⟩

/-- R219: the first n columns of the column window, each with its number in it. -/
def stepCols (p : Plane) (n : Nat) : List (Nat × Nat) := (List.range n).map (fun j => (j, p.col0 + j))

theorem mem_stepCols {p : Plane} {n : Nat} {x : Nat × Nat} : x ∈ stepCols p n ↔ x.1 < n ∧ x.2 = p.col0 + x.1 := by
  simp only [stepCols, List.mem_map, List.mem_range]
  exact ⟨fun ⟨j, hj, h⟩ => h ▸ ⟨hj, rfl⟩, fun ⟨hj, h⟩ => ⟨x.1, hj, Prod.ext rfl h.symm⟩⟩

/-- R220: a row that takes the contributions v of columns. -/
def AccRow.adds (x : AccRow) (v : Nat → Int) (js : List (Nat × Nat)) : AccRow := js.foldl (fun x j => x.add j.2 (v j.1)) x

theorem AccRow.adds_frame (x : AccRow) (v : Nat → Int) (p : Plane) (n : Nat) :
    (x.adds v (stepCols p n)).integer = x.integer ∧ (x.adds v (stepCols p n)).head = x.head ∧ (x.adds v (stepCols p n)).exp = x.exp ∧
    ∀ d, (x.adds v (stepCols p n)).word d =
      if p.col0 ≤ d ∧ d < p.col0 + n then joinWord x.integer (x.word d) (v (d - p.col0)) else x.word d := by
  induction n with
  | zero => exact ⟨rfl, rfl, rfl, fun d => by rw [if_neg (by omega)]; rfl⟩
  | succ n ih =>
    obtain ⟨hi, hh, he, hw⟩ := ih
    have hstep : x.adds v (stepCols p (n + 1)) = (x.adds v (stepCols p n)).add (p.col0 + n) (v n) := by
      simp [AccRow.adds, stepCols, List.range_succ]
    obtain ⟨ki, kh, ke, kw⟩ := (x.adds v (stepCols p n)).add_frame (p.col0 + n) (v n)
    rw [hstep]
    refine ⟨ki.trans hi, kh.trans hh, ke.trans he, fun d => ?_⟩
    rw [kw, hw, hw, hi]
    by_cases hd : d = p.col0 + n
    · subst hd
      simp
    · rw [if_neg hd]
      exact if_congr (by omega) rfl rfl

theorem AccRow.checked_adds {x : AccRow} {js : List (Nat × Nat)} (v : Nat → Int) (hc : ∀ j ∈ js, j.2 < 128) (h : x.Checked) : (x.adds v js).Checked := by
  induction js generalizing x with
  | nil => exact h
  | cons j rest ih => exact ih (fun i hi => hc i (List.mem_cons_of_mem _ hi)) (AccRow.checked_add _ (hc j List.mem_cons_self) h)

/-- R220: the columns of a row, each with a contribution v and flags w. -/
theorem addRow_ok {f : Nat → Option (Int × Flags)} {v : Nat → Int} {w : Nat → Flags} {js : List (Nat × Nat)} (r : Nat) (hc : ∀ j ∈ js, j.2 < 128)
    (hf : ∀ j ∈ js, f j.1 = some (v j.1, w j.1)) (a : Acc) (fl : Flags) :
    ∃ b, addRow a r f fl js = .ok (b, js.foldl (fun x j => x ||| w j.1) fl) ∧ setsRow a r ((accRow a r).adds v js) b := by
  induction js generalizing a fl with
  | nil => exact ⟨a, rfl, setsRow.refl a r⟩
  | cons j rest ih =>
    have hset := addContrib_sets a r (v j.1) (hc j List.mem_cons_self)
    obtain ⟨b, hb, hs⟩ := ih (fun i hi => hc i (List.mem_cons_of_mem _ hi)) (fun i hi => hf i (List.mem_cons_of_mem _ hi))
      (addContrib a r j.2 (v j.1)) (fl ||| w j.1)
    rw [hset.same] at hs
    refine ⟨b, ?_, hset.trans hs⟩
    obtain ⟨j, c⟩ := j
    rw [addRow, hf (j, c) List.mem_cons_self]
    exact hb

/-- R223: a column without a contribution fails the row, at a column of the list. -/
theorem addRow_error {f : Nat → Option (Int × Flags)} {js : List (Nat × Nat)} (r : Nat) (h : ∃ j ∈ js, f j.1 = none) (a : Acc) (fl : Flags) :
    ∃ j ∈ js, addRow a r f fl js = .error { cause := 0x39, detail := 0, row := r, col := j.2 } := by
  induction js generalizing a fl with
  | nil => obtain ⟨j, hj, _⟩ := h; cases hj
  | cons j rest ih =>
    obtain ⟨j, c⟩ := j
    rw [addRow]
    cases hj : f j with
    | none => exact ⟨(j, c), List.mem_cons_self, rfl⟩
    | some y =>
      have hrest : ∃ i ∈ rest, f i.1 = none := by
        obtain ⟨i, hi, hn⟩ := h
        rcases List.mem_cons.mp hi with rfl | hi
        · rw [hj] at hn
          cases hn
        · exact ⟨i, hi, hn⟩
      obtain ⟨i, hi, he⟩ := ih hrest (addContrib a r c y.1) (fl ||| y.2)
      exact ⟨i, List.mem_cons_of_mem _ hi, he⟩

/-- R220, R222: one row of a step: its contributions, then its headroom. -/
def addStep (f : Nat → Nat → Option (Int × Flags)) (cost : Nat) (p : Plane) (a : Acc) (fl : Flags) (r : Nat) : Except ArrayFail (Acc × Flags) :=
  match addRow a r (f r) fl (stepCols p p.ncols) with
  | .error e => .error e
  | .ok x => .ok ({ x.1 with hg := vput x.1.hg r (accHead x.1 r - cost) }, x.2)

theorem addRows_eq_runRows (f : Nat → Nat → Option (Int × Flags)) (cost : Nat) (p : Plane) (a : Acc) (fl : Flags) (rows : List Nat) :
    addRows a f cost p fl rows = runRows (addStep f cost p) a fl rows := by
  induction rows generalizing a fl with
  | nil => rfl
  | cons r rest ih =>
    rw [addRows, runRows, addStep, stepCols]
    cases addRow a r (f r) fl ((List.range p.ncols).map (fun j => (j, p.col0 + j))) with
    | error e => rfl
    | ok x => exact ih _ _

/-- R220: y is x with contributions to the words of the windows: each row of the window has paid the cost, and keeps its CK in agreement. -/
def AddsToRows (x y : ArrayState) (k : Nat) (p : Plane) (cost : Nat) (add : BitVec 64 → Nat → Nat → BitVec 64) : Prop :=
  ChangesRows x y k p ∧ ∀ r, InRows p r →
    accHead (accAt y k) r = accHead (accAt x k) r - cost ∧ accExp (accAt y k) r = accExp (accAt x k) r ∧
    (checkOk (accAt x k) r = true → checkOk (accAt y k) r = true) ∧
    (∀ j < p.ncols, accWord (accAt y k) r (p.col0 + j) = add (accWord (accAt x k) r (p.col0 + j)) r j) ∧
    ∀ c < 128, ¬ InCols p c → accWord (accAt y k) r c = accWord (accAt x k) r c

section
variable {x : ArrayState} {k : Nat} {p : Plane} (hrows : p.row0 + p.mrows ≤ 64) (hcols : p.col0 + p.ncols ≤ 128)
include hrows hcols

/-- R220: a row of a step whose elements all have contributions v, with the flags w. -/
theorem addStep_ok {f : Nat → Nat → Option (Int × Flags)} {v : Nat → Int} {w : Nat → Flags} (cost : Nat) {r : Nat} (hr : InRows p r)
    (hf : ∀ j < p.ncols, f r j = some (v j, w j)) (a : Acc) (fl : Flags) :
    ∃ b, addStep f cost p a fl r = .ok (b, fl ||| (stepCols p p.ncols).foldl (fun x j => x ||| w j.1) 0) ∧
      setsRow a r { (accRow a r).adds v (stepCols p p.ncols) with head := accHead a r - cost } b := by
  obtain ⟨b, hb, hs⟩ := addRow_ok (f := f r) (v := v) (w := w) (js := stepCols p p.ncols) r
    (fun j hj => by have := mem_stepCols.mp hj; omega) (fun j hj => hf j.1 (mem_stepCols.mp hj).1) a fl
  have hhead : accHead b r = accHead a r := (congrArg AccRow.head hs.same).trans ((accRow a r).adds_frame v p p.ncols).2.1
  have hset := setHead_sets b (accHead b r - cost) (r := r) (by obtain ⟨_, h⟩ := hr; omega)
  rw [hs.same, hhead] at hset
  refine ⟨_, ?_, hs.trans hset⟩
  rw [addStep, hb, ← foldl_or_init, ← hhead]

/-- R223: the step over the window rows, when an element has no contribution. -/
theorem addRows_fails {f : Nat → Nat → Option (Int × Flags)} (cost : Nat) (hex : ∃ r j, InRows p r ∧ j < p.ncols ∧ f r j = none) :
    ∃ r c, InRows p r ∧ InCols p c ∧ addRows (accAt x k) f cost p 0 (windowRows p) = .error { cause := 0x39, detail := 0, row := r, col := c } := by
  obtain ⟨r, j, hr, hj, hn⟩ := hex
  obtain ⟨q, hq, e, he, c, hc, rfl⟩ := runRows_error (step := addStep f cost p) (A := accAt x k) (windowRows_nodup p)
    (bad := fun r => ∃ j < p.ncols, f r j = none)
    (E := fun r e => ∃ c, InCols p c ∧ e = { cause := 0x39, detail := 0, row := r, col := c })
    ⟨r, mem_windowRows.mpr hr, j, hj, hn⟩
    (fun r _ ⟨j, hj, hn⟩ a fl _ => by
      obtain ⟨i, hi, he⟩ := addRow_error (f := f r) (js := stepCols p p.ncols) r ⟨(j, p.col0 + j), mem_stepCols.mpr ⟨hj, rfl⟩, hn⟩ a fl
      have := mem_stepCols.mp hi
      exact ⟨_, by rw [addStep, he], i.2, ⟨by omega, by omega⟩, rfl⟩)
    (fun r hr hgood a fl _ => by
      have hsome : ∀ j < p.ncols, f r j = some (((f r j).getD (0, 0)).1, ((f r j).getD (0, 0)).2) := fun j hj => by
        cases h : f r j with
        | none => exact absurd ⟨j, hj, h⟩ hgood
        | some y => rfl
      obtain ⟨b, hb, hs⟩ := addStep_ok hrows hcols cost (mem_windowRows.mp hr) hsome a fl
      exact ⟨b, _, hb, fun q hq => hs.other hq⟩) 0
  exact ⟨q, c, mem_windowRows.mp hq, hc, (addRows_eq_runRows ..).trans he⟩

/-- R220: the step over the window rows, when every element has a contribution. -/
theorem addRows_adds (hk : k < 8) {f : Nat → Nat → Option (Int × Flags)} {v : Nat → Nat → Int} {w : Nat → Nat → Flags} (cost : Nat)
    (hf : ∀ r j, InRows p r → j < p.ncols → f r j = some (v r j, w r j)) :
    ∃ B fl, addRows (accAt x k) f cost p 0 (windowRows p) = .ok (B, fl) ∧
      AddsToRows x (putAcc x k B) k p cost (fun old r j => joinWord (accAt x k).integer old (v r j)) ∧
      ∀ i, fl.getLsbD i = true ↔ ∃ r j, InRows p r ∧ j < p.ncols ∧ (w r j).getLsbD i = true := by
  obtain ⟨B, hB, hrow⟩ := runRows_ok (step := addStep f cost p) (A := accAt x k) (windowRows_nodup p)
    (G := fun r => { (accRow (accAt x k) r).adds (v r) (stepCols p p.ncols) with head := accHead (accAt x k) r - cost })
    (F := fun r => (stepCols p p.ncols).foldl (fun x j => x ||| w r j.1) 0)
    (fun r hr a fl ha => by
      have hw := mem_windowRows.mp hr
      rw [← ha, ← accRow_head, ← ha]
      exact addStep_ok hrows hcols cost hw (fun j hj => hf r j hw hj) a fl) 0
  refine ⟨B, _, (addRows_eq_runRows ..).trans hB,
    ⟨changesRows_putAcc hk hrow (fun r _ => ((accRow (accAt x k) r).adds_frame (v r) p p.ncols).1), fun r hr => ?_⟩, fun i => ?_⟩
  · obtain ⟨hi, hh, he, hw⟩ := (accRow (accAt x k) r).adds_frame (v r) p p.ncols
    have hx := hrow r
    rw [if_pos (mem_windowRows.mpr hr)] at hx
    have hword : ∀ c < 128, accWord B r c = ((accRow (accAt x k) r).adds (v r) (stepCols p p.ncols)).word c := fun c hc => by
      rw [← accRow_word B r hc, hx]
    rw [accAt_putAcc x B hk]
    refine ⟨congrArg AccRow.head hx, (congrArg AccRow.exp hx).trans he, fun hck => ?_, fun j hj => ?_, fun c hc hn => ?_⟩
    · rw [checkOk_iff, hx]
      exact AccRow.checked_adds (v r) (fun j hj => by have := mem_stepCols.mp hj; omega) ((checkOk_iff ..).mp hck)
    · rw [hword _ (by omega), hw, if_pos (by omega), Nat.add_sub_cancel_left, accRow_word _ _ (by omega)]
      rfl
    · rw [hword c hc, hw, if_neg (show ¬ (p.col0 ≤ c ∧ c < p.col0 + p.ncols) from hn), accRow_word _ _ hc]
  · rw [getLsbD_windowFlags]
    simp only [getLsbD_foldl_or, Bool.or_eq_true, List.any_eq_true, mem_stepCols]
    constructor
    · rintro ⟨r, hr, h | ⟨j, ⟨hj, _⟩, hb⟩⟩
      · simp at h
      · exact ⟨r, j.1, hr, hj, hb⟩
    · rintro ⟨r, j, hr, hj, hb⟩
      exact ⟨r, hr, .inr ⟨(j, p.col0 + j), ⟨hj, rfl⟩, hb⟩⟩

end

end Sys2Proof.Machine

/-! A cell's sum (R218, R223): products floored to the row's grid, infinities, clamping, and the flags. -/

namespace Sys2Proof.Machine

/-- R223: a value floored to the grid 2^g; an infinity or a NaN gives nothing. -/
def gridFloor (g : Int) (v : Val) : Int :=
  match v with
  | .fin n m e =>
    let z : Int := if n then -(m : Int) else m
    if g ≤ e then z * 2 ^ (e - g).toNat else z / 2 ^ (g - e).toNat
  | _ => 0

/-- R223: a remainder is discarded when a value is floored. -/
def GridLost (g : Int) (v : Val) : Prop := ∃ n m e, v = .fin n m e ∧ e < g ∧ m % 2 ^ (g - e).toNat ≠ 0

/-- R223: a sum clamped to 48 bits, and one that does not fit them. -/
def clampSum (z : Int) : Int := min (2 ^ 47 - 1) (max (-(2 ^ 47)) z)
def WideSum (z : Int) : Prop := z < -(2 ^ 47) ∨ 2 ^ 47 - 1 < z

theorem clampSum_of_not_wide {z : Int} (h : ¬ WideSum z) : clampSum z = z := by
  unfold WideSum at h
  unfold clampSum
  omega

theorem floorTo_floor (n : Bool) (m : Nat) (e g : Int) : (floorTo n m e g).1 = gridFloor g (.fin n m e) := by
  unfold floorTo gridFloor
  dsimp only
  split <;> push_cast <;> rfl

theorem floorTo_lost (n : Bool) (m : Nat) (e g : Int) : (floorTo n m e g).2 = true ↔ GridLost g (.fin n m e) := by
  have hneg : ∀ d : Nat, (if n then -(m : Int) else m) % (d : Int) ≠ 0 ↔ m % d ≠ 0 := by
    intro d
    rw [← not_iff_not, not_not, not_not, ← Int.dvd_iff_emod_eq_zero, ← Nat.dvd_iff_mod_eq_zero]
    cases n <;> simp [Int.natCast_dvd_natCast]
  unfold floorTo GridLost
  dsimp only
  split
  next h =>
    simp only [Bool.false_eq_true, false_iff]
    rintro ⟨_, _, _, hv, hlt, _⟩
    injection hv with _ _ he
    omega
  next h =>
    rw [bne_iff_ne, hneg]
    constructor
    · exact fun hm => ⟨n, m, e, rfl, by omega, hm⟩
    · rintro ⟨_, _, _, hv, _, hm⟩
      injection hv with _ hm' he
      subst hm' he
      exact hm

/-- R223: the infinities of one sign among the products of a cell. -/
def cellInfs (P : Nat → Val) (ks : List Nat) (s : Bool) : Int := ((ks.filter (fun u => decide (P u = .inf s))).length : Int)

/-- R223: a cell's sum, before it is clamped. -/
def cellTotal (g : Int) (P : Nat → Val) (ks : List Nat) : Int :=
  (ks.map (fun u => gridFloor g (P u))).sum + 2 ^ 47 * (cellInfs P ks false - cellInfs P ks true)

/-- R223: a product of a cell is a NaN. -/
def CellNan (P : Nat → Val) (ks : List Nat) : Prop := ∃ u ∈ ks, ∃ s, P u = .nan s

/-- R223: a cell of finite products whose sum is not wide. -/
def CellPlain (g : Int) (P : Nat → Val) (ks : List Nat) : Prop := ¬ WideSum (cellTotal g P ks) ∧ ∀ u ∈ ks, ∃ s m e, P u = .fin s m e

theorem getLsbD_flagIf (b : Bool) (f : Flags) (i : Nat) : (flagIf b f).getLsbD i = true ↔ b = true ∧ f.getLsbD i = true := by
  cases b <;> simp [flagIf]

/-- R105: the bits of the flags. -/
theorem getLsbD_flags (i : Nat) : (flagNX.getLsbD i = true ↔ i = 0) ∧ (flagOF.getLsbD i = true ↔ i = 2) ∧ (flagNV.getLsbD i = true ↔ i = 4) := by
  by_cases h : i < 5
  · interval_cases i <;> decide
  · rw [BitVec.getLsbD_of_ge _ _ (by omega), BitVec.getLsbD_of_ge _ _ (by omega), BitVec.getLsbD_of_ge _ _ (by omega)]
    simp
    omega

/-- R223: what a product adds to its cell's sum. -/
theorem CellSum.add_eq (x : CellSum) (g : Int) (v : Val) :
    (x.add g v).sum = x.sum + gridFloor g v ∧ (x.add g v).pos = x.pos + (if v = .inf false then 1 else 0) ∧
      (x.add g v).neg = x.neg + (if v = .inf true then 1 else 0) ∧ ((x.add g v).bad = true ↔ x.bad = true ∨ ∃ s, v = .nan s) ∧
      ∀ i, (x.add g v).flags.getLsbD i = true ↔ x.flags.getLsbD i = true ∨ (i = 0 ∧ GridLost g v) := by
  cases v with
  | fin n m e =>
    refine ⟨?_, by simp [CellSum.add], by simp [CellSum.add], by simp [CellSum.add], fun i => ?_⟩
    · simp only [CellSum.add, floorTo_floor]
    · simp only [CellSum.add, BitVec.getLsbD_or, Bool.or_eq_true, getLsbD_flagIf, (getLsbD_flags i).1, floorTo_lost, and_comm]
  | inf s => cases s <;> simp [CellSum.add, gridFloor, GridLost]
  | nan s => simp [CellSum.add, gridFloor, GridLost]

theorem cellInfs_cons (P : Nat → Val) (u : Nat) (ks : List Nat) (s : Bool) :
    cellInfs P (u :: ks) s = (if P u = .inf s then 1 else 0) + cellInfs P ks s := by
  unfold cellInfs
  by_cases h : P u = .inf s <;> simp [h, Int.add_comm]

/-- R223: what the products of a cell add to its sum. -/
theorem cellSum_foldl (g : Int) (P : Nat → Val) (ks : List Nat) (x : CellSum) :
    let y := ks.foldl (fun x u => x.add g (P u)) x
    y.sum = x.sum + (ks.map (fun u => gridFloor g (P u))).sum ∧ (y.pos : Int) = x.pos + cellInfs P ks false ∧
      (y.neg : Int) = x.neg + cellInfs P ks true ∧ (y.bad = true ↔ x.bad = true ∨ CellNan P ks) ∧
      ∀ i, y.flags.getLsbD i = true ↔ x.flags.getLsbD i = true ∨ (i = 0 ∧ ∃ u ∈ ks, GridLost g (P u)) := by
  induction ks generalizing x with
  | nil => simp [cellInfs, CellNan]
  | cons u rest ih =>
    obtain ⟨h1, h2, h3, h4, h5⟩ := ih (x.add g (P u))
    obtain ⟨k1, k2, k3, k4, k5⟩ := x.add_eq g (P u)
    dsimp only [List.foldl_cons] at *
    refine ⟨?_, ?_, ?_, ?_, fun i => ?_⟩
    · rw [h1, k1, List.map_cons, List.sum_cons, Int.add_assoc]
    · rw [h2, k2, cellInfs_cons]
      push_cast
      omega
    · rw [h3, k3, cellInfs_cons]
      push_cast
      omega
    · simp only [h4, k4, or_assoc, CellNan, List.mem_cons, exists_eq_or_imp]
    · simp only [h5, k5, or_assoc, List.mem_cons, exists_eq_or_imp, and_or_left]

/-- R223: the sum of the products of a cell. -/
def cellSum (g : Int) (P : Nat → Val) (ks : List Nat) : CellSum := ks.foldl (fun x u => x.add g (P u)) CellSum.zero

theorem cellInfs_pos {P : Nat → Val} {ks : List Nat} {s : Bool} : 0 < cellInfs P ks s ↔ ∃ u ∈ ks, P u = .inf s := by
  simp [cellInfs, List.length_pos_iff, List.filter_eq_nil_iff]

/-- R223: a cell of finite products is one without infinities and NaNs. -/
theorem cellPlain_iff {g : Int} {P : Nat → Val} {ks : List Nat} : CellPlain g P ks ↔
    ¬ WideSum (cellTotal g P ks) ∧ ¬ CellNan P ks ∧ ¬ 0 < cellInfs P ks false ∧ ¬ 0 < cellInfs P ks true := by
  rw [CellPlain, cellInfs_pos, cellInfs_pos, CellNan]
  refine and_congr_right fun _ => ⟨fun h => ⟨?_, ?_, ?_⟩, fun ⟨hn, hp, hm⟩ u hu => ?_⟩
  · rintro ⟨u, hu, s, hs⟩
    obtain ⟨_, _, _, hf⟩ := h u hu
    simp [hf] at hs
  · rintro ⟨u, hu, hs⟩
    obtain ⟨_, _, _, hf⟩ := h u hu
    simp [hf] at hs
  · rintro ⟨u, hu, hs⟩
    obtain ⟨_, _, _, hf⟩ := h u hu
    simp [hf] at hs
  · cases hv : P u with
    | fin s m e => exact ⟨s, m, e, rfl⟩
    | inf s =>
      cases s with
      | false => exact absurd ⟨u, hu, hv⟩ hp
      | true => exact absurd ⟨u, hu, hv⟩ hm
    | nan s => exact absurd ⟨u, hu, s, hv⟩ hn

/-- R223: the sum of a cell before it is clamped. -/
def CellSum.total (x : CellSum) : Int := x.sum + 2 ^ 47 * ((x.pos : Int) - x.neg)

/-- R223: the sum of a cell is wide. -/
def isWide (z : Int) : Bool := decide (z < -(2 ^ 47)) || decide (2 ^ 47 - 1 < z)

theorem isWide_iff {z : Int} : isWide z = true ↔ WideSum z := by simp [isWide, WideSum]

theorem CellSum.finish_eq (x : CellSum) (clamp : Bool) : x.finish clamp =
    if !clamp then (if isWide x.total || x.bad || decide (0 < x.pos) || decide (0 < x.neg) then none else some (x.total, x.flags))
    else some (clampSum x.total,
      x.flags ||| flagIf (x.bad || (decide (0 < x.pos) && decide (0 < x.neg))) flagNV ||| flagIf (isWide x.total) flagOF) := rfl

theorem cellSum_eq (g : Int) (P : Nat → Val) (ks : List Nat) :
    (cellSum g P ks).total = cellTotal g P ks ∧ (0 < (cellSum g P ks).pos ↔ 0 < cellInfs P ks false) ∧
      (0 < (cellSum g P ks).neg ↔ 0 < cellInfs P ks true) ∧ ((cellSum g P ks).bad = true ↔ CellNan P ks) ∧
      ∀ i, (cellSum g P ks).flags.getLsbD i = true ↔ i = 0 ∧ ∃ u ∈ ks, GridLost g (P u) := by
  obtain ⟨h1, h2, h3, h4, h5⟩ := cellSum_foldl g P ks CellSum.zero
  simp only [CellSum.zero, Int.zero_add, Nat.cast_zero, Bool.false_eq_true, false_or] at h1 h2 h3 h4 h5
  refine ⟨?_, ?_, ?_, h4, fun i => (h5 i).trans (by simp)⟩
  · exact congrArg₂ (fun a b => a + 2 ^ 47 * b) h1 (congrArg₂ (fun a b => a - b) h2 h3)
  · rw [← h2, Int.natCast_pos]
    rfl
  · rw [← h3, Int.natCast_pos]
    rfl

/-- R223: a cell that is not plain, and is not clamped, has no contribution. -/
theorem cellFinish_none {g : Int} {P : Nat → Val} {ks : List Nat} (h : ¬ CellPlain g P ks) : (cellSum g P ks).finish false = none := by
  obtain ⟨h1, h2, h3, h4, _⟩ := cellSum_eq g P ks
  rw [CellSum.finish_eq, Bool.not_false, if_pos rfl, if_pos]
  simp only [Bool.or_eq_true, decide_eq_true_eq, isWide_iff, h1, h2, h3, h4]
  have := mt cellPlain_iff.mpr h
  tauto

/-- R223: the contribution of a cell that is clamped or plain. -/
theorem cellFinish_some {clamp : Bool} {g : Int} {P : Nat → Val} {ks : List Nat} (h : clamp = true ∨ CellPlain g P ks) :
    ∃ fl : Flags, (cellSum g P ks).finish clamp = some (clampSum (cellTotal g P ks), fl) ∧
      (fl.getLsbD 0 = true ↔ ∃ u ∈ ks, GridLost g (P u)) ∧ (fl.getLsbD 2 = true ↔ WideSum (cellTotal g P ks)) ∧
      (fl.getLsbD 4 = true ↔ CellNan P ks ∨ 0 < cellInfs P ks false ∧ 0 < cellInfs P ks true) ∧ fl.getLsbD 1 = false ∧ fl.getLsbD 3 = false := by
  obtain ⟨h1, h2, h3, h4, h5⟩ := cellSum_eq g P ks
  rw [CellSum.finish_eq, h1]
  cases clamp with
  | true =>
    have hbits : ∀ i, ((cellSum g P ks).flags ||| flagIf ((cellSum g P ks).bad || (decide (0 < (cellSum g P ks).pos) && decide (0 < (cellSum g P ks).neg))) flagNV |||
        flagIf (isWide (cellTotal g P ks)) flagOF).getLsbD i = true ↔ (i = 0 ∧ ∃ u ∈ ks, GridLost g (P u)) ∨
          ((CellNan P ks ∨ 0 < cellInfs P ks false ∧ 0 < cellInfs P ks true) ∧ i = 4) ∨ WideSum (cellTotal g P ks) ∧ i = 2 := fun i => by
      obtain ⟨_, hOF, hNV⟩ := getLsbD_flags i
      simp only [BitVec.getLsbD_or, Bool.or_eq_true, Bool.and_eq_true, decide_eq_true_eq, getLsbD_flagIf, hOF, hNV, h5, h4, h2, h3, isWide_iff, or_assoc]
    exact ⟨_, rfl, (hbits 0).trans (by simp), (hbits 2).trans (by simp), (hbits 4).trans (by simp), Bool.eq_false_iff.mpr (mt (hbits 1).mp (by simp)),
      Bool.eq_false_iff.mpr (mt (hbits 3).mp (by simp))⟩
  | false =>
    obtain ⟨hw, hn, hp, hm⟩ := cellPlain_iff.mp (h.resolve_left (by decide))
    refine ⟨(cellSum g P ks).flags, ?_, ?_, ?_, ?_, ?_, ?_⟩
    · rw [Bool.not_false, if_pos rfl, if_neg, clampSum_of_not_wide hw]
      simp only [Bool.or_eq_true, decide_eq_true_eq, isWide_iff, h2, h3, h4]
      tauto
    · exact (h5 0).trans (by simp)
    · exact (h5 2).trans (by simp [hw])
    · exact (h5 4).trans (by simp [hn, hp])
    · exact Bool.eq_false_iff.mpr (mt (h5 1).mp (by simp))
    · exact Bool.eq_false_iff.mpr (mt (h5 3).mp (by simp))

end Sys2Proof.Machine

/-! MM and MMCMP (R218-R225). -/

namespace Sys2Proof.Machine

/-- The array command fails, with the cause, detail, row and column. -/
def Fails (x : ArrayState) (cmd : ArrayCmd) (cause detail row col : Nat) : Prop :=
  runArray x [] cmd = .error { cause := cause, detail := detail, row := row, col := col }

/-- R105: which flags of a command stand in its word. -/
theorem flag_bits : (∀ fl : Flags, fl &&& flagNX ≠ 0 ↔ fl.getLsbD 0 = true) ∧ (∀ fl : Flags, fl &&& flagOF ≠ 0 ↔ fl.getLsbD 2 = true) ∧
    (∀ fl : Flags, fl &&& flagNV ≠ 0 ↔ fl.getLsbD 4 = true) ∧
    ∀ fl : Flags, fl &&& ~~~(flagNX ||| flagOF ||| flagNV) = 0 ↔ fl.getLsbD 1 = false ∧ fl.getLsbD 3 = false := by
  decide

/-! The contributions of a step (R222, R223). -/

/-- R223: the cells of an element have their contributions: the sum of them, with their flags. -/
theorem cellsSum_some {n : Nat} {f : Nat → Option (Int × Flags)} {v : Nat → Int} {w : Nat → Flags} (h : ∀ i < n, f i = some (v i, w i)) :
    cellsSum n f = some (((List.range n).map v).sum, flagsBelow w n) := by
  induction n with
  | zero => rfl
  | succ n ih =>
    rw [cellsSum, ih (fun i hi => h i (Nat.lt_succ_of_lt hi)), h n (Nat.lt_succ_self n)]
    simp [List.range_succ, flagsBelow]

/-- R223: an element with a cell that has none has none. -/
theorem cellsSum_none {n : Nat} {f : Nat → Option (Int × Flags)} (h : ∃ i < n, f i = none) : cellsSum n f = none := by
  induction n with
  | zero => obtain ⟨i, hi, _⟩ := h; omega
  | succ n ih =>
    obtain ⟨i, hi, hn⟩ := h
    rw [cellsSum]
    rcases Nat.lt_succ_iff_lt_or_eq.mp hi with hi | rfl
    · rw [ih ⟨i, hi, hn⟩]
    · rw [hn]
      cases cellsSum i f <;> rfl

/-- R218: the elements of cell i. -/
def cellElems (fmt : Nat) (p : Plane) (i : Nat) : List Nat :=
  ((List.range (cellProducts fmt)).map (fun u => cellProducts fmt * i + u)).filter (fun u => decide (u < p.kdep))

/-- R218: the cells of a row. -/
def cellCount (fmt : Nat) (p : Plane) : Nat := (p.kdep + cellProducts fmt - 1) / cellProducts fmt

theorem cellProducts_pos (fmt : Nat) : 0 < cellProducts fmt := by
  unfold cellProducts
  split
  · decide
  · split <;> decide

theorem mem_cellElems {fmt : Nat} {p : Plane} {i u : Nat} : u ∈ cellElems fmt p i ↔ u / cellProducts fmt = i ∧ u < p.kdep := by
  have hpos := cellProducts_pos fmt
  simp only [cellElems, List.mem_filter, List.mem_map, List.mem_range, decide_eq_true_eq, and_congr_left_iff]
  intro _
  constructor
  · rintro ⟨j, hj, rfl⟩
    rw [Nat.mul_add_div hpos, Nat.div_eq_of_lt hj, Nat.add_zero]
  · rintro rfl
    exact ⟨u % cellProducts fmt, Nat.mod_lt _ hpos, Nat.div_add_mod ..⟩

/-- R218: every element below KDEP is in a cell of the row. -/
theorem exists_cell {fmt : Nat} {p : Plane} {u : Nat} (h : u < p.kdep) : u / cellProducts fmt < cellCount fmt p := by
  have hpos := cellProducts_pos fmt
  rw [cellCount, Nat.lt_div_iff_mul_lt hpos]
  have := Nat.div_mul_le_self u (cellProducts fmt)
  omega

section
variable {fmt : Nat} {p : Plane} {sc : Option (List (BitVec 16))} {g : Int} {a b : Row}

theorem stepContrib_fp (hf : fmt < 8) : stepContrib fmt p sc g a b =
    cellsSum (cellCount fmt p) (fun i => (cellSum g (scaledProduct fmt sc a b) (cellElems fmt p i)).finish (p.amode / 2 % 2 == 1)) := by
  rw [stepContrib, if_pos (show isFloat fmt = true from decide_eq_true hf)]
  rfl

/-- R223: an element with a cell that is not plain, and is not clamped, has no contribution. -/
theorem stepContrib_none (hf : fmt < 8) (hc : ¬ p.amode / 2 % 2 = 1)
    (h : ∃ i < cellCount fmt p, ¬ CellPlain g (scaledProduct fmt sc a b) (cellElems fmt p i)) : stepContrib fmt p sc g a b = none := by
  obtain ⟨i, hi, hp⟩ := h
  rw [stepContrib_fp hf, beq_eq_false_iff_ne.mpr hc]
  exact cellsSum_none ⟨i, hi, cellFinish_none hp⟩

/-- R223: the contribution of an element whose cells are clamped or plain, and its flags. -/
theorem stepContrib_some (hf : fmt < 8)
    (h : p.amode / 2 % 2 = 1 ∨ ∀ i < cellCount fmt p, CellPlain g (scaledProduct fmt sc a b) (cellElems fmt p i)) :
    ∃ fl : Flags, stepContrib fmt p sc g a b =
        some (((List.range (cellCount fmt p)).map (fun i => clampSum (cellTotal g (scaledProduct fmt sc a b) (cellElems fmt p i)))).sum, fl) ∧
      (fl.getLsbD 0 = true ↔ ∃ u < p.kdep, GridLost g (scaledProduct fmt sc a b u)) ∧
      (fl.getLsbD 2 = true ↔ ∃ i < cellCount fmt p, WideSum (cellTotal g (scaledProduct fmt sc a b) (cellElems fmt p i))) ∧
      (fl.getLsbD 4 = true ↔ ∃ i < cellCount fmt p, CellNan (scaledProduct fmt sc a b) (cellElems fmt p i) ∨
        0 < cellInfs (scaledProduct fmt sc a b) (cellElems fmt p i) false ∧ 0 < cellInfs (scaledProduct fmt sc a b) (cellElems fmt p i) true) ∧
      fl.getLsbD 1 = false ∧ fl.getLsbD 3 = false := by
  have hcell : ∀ i, ∃ fl : Flags, i < cellCount fmt p → _ := fun i => by
    by_cases hi : i < cellCount fmt p
    · obtain ⟨fl, hfl⟩ := cellFinish_some (clamp := p.amode / 2 % 2 == 1) (g := g) (P := scaledProduct fmt sc a b) (ks := cellElems fmt p i)
        (h.imp (fun hc => beq_iff_eq.mpr hc) (fun hp => hp i hi))
      exact ⟨fl, fun _ => hfl⟩
    · exact ⟨0, fun hi' => absurd hi' hi⟩
  choose w hw using hcell
  rw [stepContrib_fp hf]
  have hbit : ∀ k, (flagsBelow w (cellCount fmt p)).getLsbD k = true ↔ ∃ i < cellCount fmt p, (w i).getLsbD k = true := fun k => by
    simp only [getLsbD_flagsBelow, List.any_eq_true, List.mem_range]
  have hclear : ∀ k, (∀ i < cellCount fmt p, (w i).getLsbD k = false) → (flagsBelow w (cellCount fmt p)).getLsbD k = false := fun k hk => by
    rw [Bool.eq_false_iff, Ne, hbit]
    rintro ⟨i, hi, hb⟩
    rw [hk i hi] at hb
    cases hb
  refine ⟨flagsBelow w (cellCount fmt p), cellsSum_some (fun i hi => (hw i hi).1), (hbit 0).trans ⟨?_, ?_⟩,
    (hbit 2).trans (exists_congr fun i => and_congr_right fun hi => (hw i hi).2.2.1),
    (hbit 4).trans (exists_congr fun i => and_congr_right fun hi => (hw i hi).2.2.2.1),
    hclear 1 (fun i hi => (hw i hi).2.2.2.2.1), hclear 3 (fun i hi => (hw i hi).2.2.2.2.2)⟩
  · rintro ⟨i, hi, hb⟩
    obtain ⟨u, hu, hl⟩ := (hw i hi).2.1.mp hb
    exact ⟨u, (mem_cellElems.mp hu).2, hl⟩
  · rintro ⟨u, hu, hl⟩
    exact ⟨_, exists_cell hu, (hw _ (exists_cell hu)).2.1.mpr ⟨u, mem_cellElems.mpr ⟨rfl, hu⟩, hl⟩⟩

end

/-- R218: an integer code of w bits, signed or not. -/
def intCode (w signed c : Nat) : Int := if signed % 2 = 1 ∧ 2 ^ (w - 1) ≤ c then (c : Int) - 2 ^ w else c

theorem signedCode_eq (w signed c : Nat) : signedCode w c (signed % 2 == 1) = intCode w signed c := by
  unfold signedCode intCode
  simp only [Bool.and_eq_true, beq_iff_eq, decide_eq_true_eq]
  push_cast
  rfl

/-- R222: the sum of products of an element, on the integer path. -/
def intDot (fmt : Nat) (p : Plane) (a b : Row) : Int :=
  ((List.range p.kdep).map (fun i => intCode (fmtWidth fmt) p.sgn (elemAt fmt a i) * intCode (fmtWidth fmt) (p.sgn / 2) (elemAt fmt b i))).sum

theorem intContrib_eq (fmt : Nat) (p : Plane) (a b : Row) : intContrib fmt p a b = intDot fmt p a b := by
  unfold intContrib intDot
  rw [List.sum_eq_foldl, List.foldl_map]
  simp only [signedCode_eq]

/-! MM. -/

section
variable {x : ArrayState} {k : Nat} {p : Plane} {tile : List Row} {fmt : Nat} {sc : Option (List (BitVec 16))}

/-- R218, R219: the shape of MM. -/
def mmShape (x : ArrayState) (k : Nat) (p : Plane) (fmt : Nat) : Option ArrayFail :=
  firstShape [(decide (64 < p.row0 + p.mrows), 1), (decide (128 < p.col0 + p.ncols), 2), (decide (depthLimit fmt < p.kdep), 3),
    (!(if isFloat fmt then x.active.fmt == fmt else fmtWidth x.active.fmt == fmtWidth fmt), 4), ((accAt x k).integer == isFloat fmt, 5)]

/-- R218, R222: the headroom that MM takes of a row. -/
def mmCost (integer : Bool) (p : Plane) (fmt : Nat) : Nat := if integer then stepCost fmt p.sgn else 1

/-- R221-R223: the contribution of MM to row r, column j of the window. -/
def mmContrib (x : ArrayState) (k : Nat) (tile : List Row) (p : Plane) (fmt : Nat) (sc : Option (List (BitVec 16))) (r j : Nat) : Option (Int × Flags) :=
  stepContrib fmt p sc (accExp (accAt x k) r).toInt (tile.getD r 0) (tget 0 x.active.rows j)

theorem mm_fails_shape {d : Nat} (h : mmShape x k p fmt = some (shapeFail d)) : Fails x (.mm k tile p fmt sc) 0x3B d 0 0 := by
  unfold mmShape at h
  simp only [Fails, runArray, runMm, h]
  rfl

theorem mm_fails_headroom {r : Nat} (h : mmShape x k p fmt = none)
    (hr : FirstRow p (lacksHeadroom (accAt x k) (mmCost (accAt x k).integer p fmt)) r) : Fails x (.mm k tile p fmt sc) 0x38 0 r 0 := by
  have hh := noHeadroom_first hr
  unfold mmShape at h
  unfold mmCost at hh
  simp only [Fails, runArray, runMm, h, hh]

theorem mm_runs (h : mmShape x k p fmt = none)
    (hr : ∀ r, InRows p r → ¬ lacksHeadroom (accAt x k) (mmCost (accAt x k).integer p fmt) r) : runArray x [] (.mm k tile p fmt sc) =
      match addRows (accAt x k) (mmContrib x k tile p fmt sc) (mmCost (accAt x k).integer p fmt) p 0 (windowRows p) with
      | .error e => .error e
      | .ok y => .ok (putAcc x k y.1, y.2, []) := by
  have hh := noHeadroom_none hr
  unfold mmShape at h
  unfold mmCost at hh
  have hd : mmContrib x k tile p fmt sc = fun r j => stepContrib fmt p sc (accExp (accAt x k) r).toInt (tile.getD r 0) (tget 0 x.active.rows j) := rfl
  simp only [runArray, runMm, h, hh, mmCost, hd]
  cases addRows (accAt x k) (fun r j => stepContrib fmt p sc (accExp (accAt x k) r).toInt (tile.getD r 0) (tget 0 x.active.rows j))
    (if (accAt x k).integer then stepCost fmt p.sgn else 1) p 0 (windowRows p) <;> rfl

variable (hrows : p.row0 + p.mrows ≤ 64) (hcols : p.col0 + p.ncols ≤ 128)
include hrows hcols

/-- R218, R219: the shape failures of MM whose windows fit, and when there is none. -/
theorem mmShape_cases :
    let fits := if fmt < 8 then x.active.fmt = fmt else fmtWidth x.active.fmt = fmtWidth fmt
    (depthLimit fmt < p.kdep → mmShape x k p fmt = some (shapeFail 3)) ∧ (p.kdep ≤ depthLimit fmt → ¬ fits → mmShape x k p fmt = some (shapeFail 4)) ∧
    (p.kdep ≤ depthLimit fmt → fits → (accAt x k).integer = decide (fmt < 8) → mmShape x k p fmt = some (shapeFail 5)) ∧
    (p.kdep ≤ depthLimit fmt → fits → (accAt x k).integer ≠ decide (fmt < 8) → mmShape x k p fmt = none) := by
  intro fits
  have hsame : (if isFloat fmt then x.active.fmt == fmt else fmtWidth x.active.fmt == fmtWidth fmt) = decide fits := by
    simp only [isFloat, fits]
    by_cases h : fmt < 8 <;> simp [h] <;> rfl
  unfold mmShape
  rw [hsame, decide_eq_false (show ¬ 64 < p.row0 + p.mrows by omega), decide_eq_false (show ¬ 128 < p.col0 + p.ncols by omega)]
  refine ⟨fun h => ?_, fun h hf => ?_, fun h hf hi => ?_, fun h hf hi => ?_⟩
  · simp [h]
  · simp [hf, Nat.not_lt.mpr h]
  · simp [hf, Nat.not_lt.mpr h, hi, isFloat]
  · simp [hf, Nat.not_lt.mpr h, show ((accAt x k).integer == isFloat fmt) = false from beq_eq_false_iff_ne.mpr hi]

/-- R222: MM of an integer accumulator. -/
theorem mm_int (hk : k < 8) (hs : mmShape x k p fmt = none) (hi : (accAt x k).integer = true) (h8 : 8 ≤ fmt) :
    (∀ r, FirstRow p (fun q => accHead (accAt x k) q ≤ stepCost fmt p.sgn) r → Fails x (.mm k tile p fmt sc) 0x38 0 r 0) ∧
    ((∀ r, InRows p r → stepCost fmt p.sgn < accHead (accAt x k) r) → ∃ y, runArray x [] (.mm k tile p fmt sc) = .ok (y, 0, []) ∧
      AddsToRows x y k p (stepCost fmt p.sgn) (fun old r j => residueAdd old (toResidue (intDot fmt p (tile.getD r 0) (tget 0 x.active.rows j))))) := by
  have hlack : lacksHeadroom (accAt x k) (mmCost (accAt x k).integer p fmt) = fun q => accHead (accAt x k) q ≤ stepCost fmt p.sgn := by
    funext q
    simp [lacksHeadroom, mmCost, hi]
  refine ⟨fun r hr => mm_fails_headroom hs (hlack ▸ hr), fun hh => ?_⟩
  have hcontrib : ∀ r j, InRows p r → j < p.ncols → mmContrib x k tile p fmt sc r j =
      some (intDot fmt p (tile.getD r 0) (tget 0 x.active.rows j), 0) := fun r j _ _ => by
    rw [mmContrib, stepContrib, if_neg (show ¬ isFloat fmt = true by simp [isFloat, h8]), intContrib_eq]
  obtain ⟨B, fl, hB, hadds, hfl⟩ := addRows_adds hrows hcols hk (mmCost (accAt x k).integer p fmt) hcontrib
  have hzero : fl = 0 := BitVec.eq_of_getLsbD_eq fun i _ => by
    rw [Bool.eq_iff_iff, hfl]
    simp
  have hcost : mmCost (accAt x k).integer p fmt = stepCost fmt p.sgn := by simp [mmCost, hi]
  refine ⟨putAcc x k B, ?_, ?_⟩
  · rw [mm_runs hs (fun r hr => by rw [hlack]; exact Nat.not_le.mpr (hh r hr)), hB, hzero]
  · rw [← hcost]
    simpa only [joinWord, hi, if_true] using hadds

/-- R223: MM of a floating accumulator. -/
theorem mm_fp (hk : k < 8) (hs : mmShape x k p fmt = none) (hi : (accAt x k).integer = false) (h8 : fmt < 8) :
    let P := fun (r j : Nat) => scaledProduct fmt sc (tile.getD r 0) (tget 0 x.active.rows j)
    let g := fun (r : Nat) => (accExp (accAt x k) r).toInt
    let C := cellElems fmt p
    let inside := fun (r j i : Nat) => InRows p r ∧ j < p.ncols ∧ i < cellCount fmt p
    let clamps := p.amode / 2 % 2 = 1
    (∀ r, FirstRow p (fun q => accHead (accAt x k) q = 0) r → Fails x (.mm k tile p fmt sc) 0x38 0 r 0) ∧
    ((∀ r, InRows p r → accHead (accAt x k) r ≠ 0) →
      (¬ clamps → (∃ r j i, inside r j i ∧ ¬ CellPlain (g r) (P r j) (C i)) → ∃ r c, InRows p r ∧ InCols p c ∧ Fails x (.mm k tile p fmt sc) 0x39 0 r c) ∧
      (clamps ∨ (∀ r j i, inside r j i → CellPlain (g r) (P r j) (C i)) → ∃ y fl, runArray x [] (.mm k tile p fmt sc) = .ok (y, fl, []) ∧
        AddsToRows x y k p 1 (fun old r j => old + BitVec.ofInt 64 ((List.range (cellCount fmt p)).map (fun i => clampSum (cellTotal (g r) (P r j) (C i)))).sum) ∧
        (fl &&& flagNX ≠ 0 ↔ ∃ r j u, InRows p r ∧ j < p.ncols ∧ u < p.kdep ∧ GridLost (g r) (P r j u)) ∧
        (fl &&& flagOF ≠ 0 ↔ ∃ r j i, inside r j i ∧ WideSum (cellTotal (g r) (P r j) (C i))) ∧
        (fl &&& flagNV ≠ 0 ↔ ∃ r j i, inside r j i ∧ (CellNan (P r j) (C i) ∨ 0 < cellInfs (P r j) (C i) false ∧ 0 < cellInfs (P r j) (C i) true)) ∧
        fl &&& ~~~(flagNX ||| flagOF ||| flagNV) = 0)) := by
  intro P g C inside clamps
  have hlack : lacksHeadroom (accAt x k) (mmCost (accAt x k).integer p fmt) = fun q => accHead (accAt x k) q = 0 := by
    funext q
    simp [lacksHeadroom, hi]
  have hcost : mmCost (accAt x k).integer p fmt = 1 := by simp [mmCost, hi]
  refine ⟨fun r hr => mm_fails_headroom hs (hlack ▸ hr), fun hh => ⟨fun hc hex => ?_, fun hok => ?_⟩⟩
  · obtain ⟨r, j, i, ⟨hr, hj, hi⟩, hp⟩ := hex
    obtain ⟨q, c, hq, hc, he⟩ := addRows_fails (x := x) (k := k) hrows hcols (f := mmContrib x k tile p fmt sc) (mmCost (accAt x k).integer p fmt)
      ⟨r, j, hr, hj, stepContrib_none h8 hc ⟨i, hi, hp⟩⟩
    refine ⟨q, c, hq, hc, ?_⟩
    rw [Fails, mm_runs hs (fun r hr => by rw [hlack]; exact hh r hr), he]
  · have hsome := fun r j => (fun (h : InRows p r ∧ j < p.ncols) => stepContrib_some (sc := sc) (g := g r) (a := tile.getD r 0) (b := tget 0 x.active.rows j) h8
      (hok.imp_right fun hp i hi => hp r j i ⟨h.1, h.2, hi⟩))
    have hw : ∀ r j, ∃ fl : Flags, InRows p r ∧ j < p.ncols → _ := fun r j => by
      by_cases h : InRows p r ∧ j < p.ncols
      · obtain ⟨fl, hfl⟩ := hsome r j h
        exact ⟨fl, fun _ => hfl⟩
      · exact ⟨0, fun h' => absurd h' h⟩
    choose w hw using hw
    obtain ⟨B, fl, hB, hadds, hfl⟩ := addRows_adds (x := x) hrows hcols hk (f := mmContrib x k tile p fmt sc) (mmCost (accAt x k).integer p fmt)
      (fun r j hr hj => (hw r j ⟨hr, hj⟩).1)
    obtain ⟨hNX, hOF, hNV, hrest⟩ := flag_bits
    have gathers : ∀ {i n : Nat} {Q : Nat → Nat → Nat → Prop}, (∀ r j, InRows p r ∧ j < p.ncols → ((w r j).getLsbD i = true ↔ ∃ u < n, Q r j u)) →
        (fl.getLsbD i = true ↔ ∃ r j u, (InRows p r ∧ j < p.ncols ∧ u < n) ∧ Q r j u) := fun hQ => by
      rw [hfl]
      constructor
      · rintro ⟨r, j, hr, hj, hb⟩
        obtain ⟨u, hu, hq⟩ := (hQ r j ⟨hr, hj⟩).mp hb
        exact ⟨r, j, u, ⟨hr, hj, hu⟩, hq⟩
      · rintro ⟨r, j, u, ⟨hr, hj, hu⟩, hq⟩
        exact ⟨r, j, hr, hj, (hQ r j ⟨hr, hj⟩).mpr ⟨u, hu, hq⟩⟩
    refine ⟨putAcc x k B, fl, ?_, ?_, ?_, ?_, ?_, ?_⟩
    · rw [mm_runs hs (fun r hr => by rw [hlack]; exact hh r hr), hB]
    · rw [hcost] at hadds
      simpa only [joinWord, hi, Bool.false_eq_true, if_false] using hadds
    · exact (hNX fl).trans ((gathers fun r j h => (hw r j h).2.1).trans
        ⟨fun ⟨r, j, u, ⟨hr, hj, hu⟩, hl⟩ => ⟨r, j, u, hr, hj, hu, hl⟩, fun ⟨r, j, u, hr, hj, hu, hl⟩ => ⟨r, j, u, ⟨hr, hj, hu⟩, hl⟩⟩)
    · exact (hOF fl).trans (gathers fun r j h => (hw r j h).2.2.1)
    · exact (hNV fl).trans (gathers fun r j h => (hw r j h).2.2.2.1)
    · rw [hrest]
      refine ⟨Bool.eq_false_iff.mpr (mt (hfl 1).mp ?_), Bool.eq_false_iff.mpr (mt (hfl 3).mp ?_)⟩
      · rintro ⟨r, j, hr, hj, hb⟩
        exact Bool.eq_false_iff.mp (hw r j ⟨hr, hj⟩).2.2.2.2.1 hb
      · rintro ⟨r, j, hr, hj, hb⟩
        exact Bool.eq_false_iff.mp (hw r j ⟨hr, hj⟩).2.2.2.2.2 hb

/-! MMCMP. -/

/-- R225: MMCMP of an integer accumulator. -/
theorem mmcmp_ranks (hk : k < 8) (hi : (accAt x k).integer = true) (hd : p.kdep ≤ 128) (hn : p.ncols ≤ p.kdep) :
    (∀ r, FirstRow p (fun q => accHead (accAt x k) q ≤ 1) r → Fails x (.mmcmp k tile p fmt) 0x38 0 r 0) ∧
    ((∀ r, InRows p r → 1 < accHead (accAt x k) r) → ∃ y, runArray x [] (.mmcmp k tile p fmt) = .ok (y, 0, []) ∧
      AddsToRows x y k p 1 (fun old r j => residueAdd old (toResidue (rankOf fmt p.kdep (tile.getD r 0) j)))) := by
  have hlack : lacksHeadroom (accAt x k) 1 = fun q => accHead (accAt x k) q ≤ 1 := by
    funext q
    simp [lacksHeadroom, hi]
  have hshape : firstShape [(decide (64 < p.row0 + p.mrows), 1), (decide (128 < p.col0 + p.ncols), 2), (decide (128 < p.kdep), 3),
      (!(accAt x k).integer, 5), (decide (p.kdep < p.ncols), 8)] = none := by
    simp [hi, Nat.not_lt.mpr hrows, Nat.not_lt.mpr hcols, Nat.not_lt.mpr hd, Nat.not_lt.mpr hn]
  refine ⟨fun r hr => ?_, fun hh => ?_⟩
  · have hnone := noHeadroom_first (hlack ▸ hr)
    simp only [Fails, runArray, runMmcmp, hshape, hnone]
  · have hnone := noHeadroom_none (p := p) (fun r hr => by rw [hlack]; exact Nat.not_le.mpr (hh r hr))
    obtain ⟨B, fl, hB, hadds, hfl⟩ := addRows_adds (x := x) hrows hcols hk
      (f := fun r j => some ((rankOf fmt p.kdep (tile.getD r 0) j : Int), (0 : Flags))) 1 (fun r j _ _ => rfl)
    have hzero : fl = 0 := BitVec.eq_of_getLsbD_eq fun i _ => by
      rw [Bool.eq_iff_iff, hfl]
      simp
    refine ⟨putAcc x k B, ?_, ?_⟩
    · simp only [runArray, runMmcmp, hshape, hnone, hB, hzero]
    · simpa only [joinWord, hi, if_true] using hadds

end

/-- R225: when one score is greater than another, and when they are equal. -/
theorem scores (fmt a b : Nat) :
    (8 ≤ fmt → scoreGt fmt a b = decide (decodeInt fmt b < decodeInt fmt a) ∧ scoreEq fmt a b = decide (decodeInt fmt a = decodeInt fmt b)) ∧
    (fmt < 8 → let u := decodeFloat fmt a; let v := decodeFloat fmt b
      (isNan u = true → scoreGt fmt a b = false ∧ scoreEq fmt a b = isNan v) ∧ (isNan u = false → isNan v = true → scoreGt fmt a b = true ∧ scoreEq fmt a b = false) ∧
      (isNan u = false → isNan v = false → scoreGt fmt a b = ltVal v u ∧ scoreEq fmt a b = eqVal u v)) := by
  have heqL : ∀ u v, isNan u = true → eqVal u v = false := fun u v h => by cases u <;> simp [isNan, eqVal] at *
  have heqR : ∀ u v, isNan v = true → eqVal u v = false := fun u v h => by cases u <;> cases v <;> simp [isNan, eqVal] at *
  refine ⟨fun h => ?_, fun h => ?_⟩
  · have hf : isFloat fmt = false := decide_eq_false (Nat.not_lt.mpr h)
    have heq : (decodeInt fmt a == decodeInt fmt b) = decide (decodeInt fmt a = decodeInt fmt b) := rfl
    simp [scoreGt, scoreEq, hf, heq]
  · have hf : isFloat fmt = true := decide_eq_true h
    intro u v
    simp only [scoreGt, scoreEq, hf, if_true]
    refine ⟨fun hu => ?_, fun hu hv => ?_, fun hu hv => ?_⟩
    · simp [u, v, show isNan (decodeFloat fmt a) = true from hu, heqL _ (decodeFloat fmt b) hu]
    · have heq : eqVal (decodeFloat fmt a) (decodeFloat fmt b) = false := heqR _ _ hv
      simp [show isNan (decodeFloat fmt a) = false from hu, show isNan (decodeFloat fmt b) = true from hv, heq]
    · simp [u, v, show isNan (decodeFloat fmt a) = false from hu, show isNan (decodeFloat fmt b) = false from hv]

end Sys2Proof.Machine

/-! Shapes, checksums, planes and the zeroing of accumulators (R212, R215, R219, R224, R226), and a sum scaled and rounded (R231). -/

namespace Sys2Proof.Machine

/-! Shapes that do not fit (R219). -/

/-- R219: a window whose rows do not fit. -/
theorem fails_rows {x : ArrayState} {k : Nat} {p : Plane} {tile : List Row} (h : 64 < p.row0 + p.mrows) (fmt : Nat) (sc : Option (List (BitVec 16)))
    (hi : Bool) (n t : Nat) (ps : Option (List Row)) (clr : Bool) (mode : BitVec 2) :
    ∀ cmd ∈ [ArrayCmd.mm k tile p fmt sc, .mmcmp k tile p fmt, .accld k tile p fmt hi, .accnorm k n p, .accdrain k t p fmt ps hi clr mode, .fold k p],
      Fails x cmd 0x3B 1 0 0 := by
  simp [Fails, runArray, runMm, runMmcmp, runAccld, runAccnorm, runDrain, runFold, decide_eq_true h, shapeFail]

/-- R219: a column window that does not fit. -/
theorem fails_cols {x : ArrayState} {k : Nat} {p : Plane} {tile : List Row} (hrows : p.row0 + p.mrows ≤ 64) (h : 128 < p.col0 + p.ncols) (fmt : Nat)
    (sc : Option (List (BitVec 16))) (hi : Bool) (t : Nat) (ps : Option (List Row)) (clr : Bool) (mode : BitVec 2) :
    ∀ cmd ∈ [ArrayCmd.mm k tile p fmt sc, .mmcmp k tile p fmt, .accld k tile p fmt hi, .accdrain k t p fmt ps hi clr mode], Fails x cmd 0x3B 2 0 0 := by
  simp [Fails, runArray, runMm, runMmcmp, runAccld, runDrain, decide_eq_true h, decide_eq_false (Nat.not_lt.mpr hrows), shapeFail]

/-! Checksums (R224). -/

theorem accRow_total (a : Acc) (r : Nat) (f : BitVec 64 → Nat) : (accRow a r).total f = ((List.range 128).map (fun c => f (accWord a r c))).sum :=
  congrArg List.sum (List.map_congr_left fun _ hc => congrArg f (accRow_word a r (List.mem_range.mp hc)))

/-- R224: CK of a floating row agrees: it is the sum of its words below 2^32. -/
theorem checkOk_fp {a : Acc} (r : Nat) (hi : a.integer = false) :
    checkOk a r = true ↔ (tget 0 a.ck r).toNat = ((List.range 128).map (fun c => (accWord a r c).toNat)).sum % 2 ^ 32 := by
  rw [checkOk_iff, AccRow.checked_fp hi, AccRow.wordSum, accRow_total, accRow_ck]

/-- R108, R224: CK of an integer row agrees: its residues are the sums of those of its words. -/
theorem checkOk_int {a : Acc} (r : Nat) (hi : a.integer = true) :
    checkOk a r = true ↔ residues ((tget 0 a.ck r).setWidth 64) = (((List.range 128).map (fun c => (residues (accWord a r c)).1)).sum % 8191,
      ((List.range 128).map (fun c => (residues (accWord a r c)).2.1)).sum % 8192, ((List.range 128).map (fun c => (residues (accWord a r c)).2.2)).sum % 8193) := by
  rw [checkOk_iff, AccRow.checked_int hi, AccRow.residueSums, accRow_total, accRow_total, accRow_total, accRow_ck]

/-- R224: ACCCHK of an accumulator whose rows all agree. -/
theorem accchk_ok {x : ArrayState} {k : Nat} (h : ∀ r < 64, checkOk (accAt x k) r = true) : runArray x [] (.accchk k) = .ok (x, 0, []) := by
  have hnone : badCheck (accAt x k) (List.range 64) = none := by
    rw [badCheck, List.find?_eq_none.mpr (fun r hr => by simp [h r (List.mem_range.mp hr)])]
    rfl
  simp only [runArray, hnone]

/-- R224: ACCCHK names the first row that disagrees. -/
theorem accchk_fails {x : ArrayState} {k r : Nat} (hr : r < 64) (hbad : checkOk (accAt x k) r = false) (hgood : ∀ q < r, checkOk (accAt x k) q = true) :
    Fails x (.accchk k) 0x3A 0 r 0 := by
  have hfirst : badCheck (accAt x k) (List.range 64) = some { cause := 0x3A, detail := 0, row := r, col := 0 } := by
    rw [badCheck, List.find?_range_eq_some.mpr ⟨by simp [hbad], List.mem_range.mpr hr, fun q hq => by simp [hgood q hq]⟩]
    rfl
  simp only [Fails, runArray, hfirst]

/-! The shadow plane (R214, R215). -/

theorem tget_planeOfRows (l : List Row) (n i : Nat) : tget 0 (planeOfRows l n) i = if n ≤ i then l.getD (i - n) 0 else 0 := by
  induction l generalizing n with
  | nil => rw [planeOfRows, tget, List.getD_nil, ite_self]
  | cons r rest ih =>
    have hrest : tget 0 (planeOfRows rest (n + 1)) i = if n < i then rest.getD (i - (n + 1)) 0 else 0 := ih (n + 1)
    have hcons : n < i → (r :: rest).getD (i - n) 0 = rest.getD (i - (n + 1)) 0 := fun h => by
      rw [show i - n = (i - (n + 1)) + 1 by omega, List.getD_cons_succ]
    rw [planeOfRows]
    rcases Nat.lt_trichotomy n i with h | rfl | h
    · by_cases hr : r = 0
      · rw [if_pos hr, hrest, if_pos h, if_pos (Nat.le_of_lt h), hcons h]
      · rw [if_neg hr, tget, if_neg (by omega), hrest, if_pos h, if_pos (Nat.le_of_lt h), hcons h]
    · by_cases hr : r = 0
      · rw [if_pos hr, hrest]
        simp [hr]
      · rw [if_neg hr, tget]
        simp
    · by_cases hr : r = 0
      · rw [if_pos hr, hrest, if_neg (by omega), if_neg (by omega)]
      · rw [if_neg hr, tget, if_neg (by omega), hrest, if_neg (by omega), if_neg (by omega)]

/-- R214: element i of transposed row n. -/
theorem elemAt_transposeRows {fmt : Nat} (hf : fmt = 1 ∨ fmt = 2) (rows : List Row) {n i : Nat} (hn : n < 128) (hi : i < 128) :
    elemAt fmt ((transposeRows fmt rows).getD n 0) i = elemAt fmt (rows.getD i 0) n := by
  have hcount : i < fmtCount fmt := by rcases hf with rfl | rfl <;> exact hi
  have hrow : (transposeRows fmt rows).getD n 0 = rowOf fmt (fun k => elemAt fmt (rows.getD k 0) n) := by
    simp [transposeRows, List.getD_eq_getElem?_getD, List.getElem?_range hn]
  rw [hrow, elemAt_rowOf fmt _ i hcount, Nat.mod_eq_of_lt (elemAt_lt ..)]

/-- R215: MSTAT writes the shadow plane, transposed with TRB. -/
theorem mstat_plane (x : ArrayState) (p : Plane) (fmt : Nat) (rows : List Row) :
    (p.trb = 1 → fmt ≠ 1 → fmt ≠ 2 → Fails x (.mstat rows p fmt) 0x3B 6 0 0) ∧
    (p.trb ≠ 1 ∨ fmt = 1 ∨ fmt = 2 → ∃ y, runArray x [] (.mstat rows p fmt) = .ok (y, 0, []) ∧ y.active = x.active ∧ y.accs = x.accs ∧ y.shadow.fmt = fmt ∧
      (p.trb ≠ 1 → ∀ n < 128, n < rows.length → tget 0 y.shadow.rows n = rows.getD n 0) ∧
      (p.trb = 1 → ∀ n i, n < 128 → i < 128 → elemAt fmt (tget 0 y.shadow.rows n) i = elemAt fmt (rows.getD i 0) n)) := by
  refine ⟨fun ht h1 h2 => ?_, fun h => ?_⟩
  · rw [Fails, runArray, loadPlane, if_pos ⟨ht, h1, h2⟩]
    rfl
  · refine ⟨{ x with shadow := { rows := planeOfRows (if p.trb = 1 then transposeRows fmt rows else rows) 0, fmt := fmt } }, ?_, rfl, rfl, rfl,
      fun ht n _ _ => ?_, fun ht n i hn hi => ?_⟩
    · rw [runArray, loadPlane, if_neg (by tauto)]
      rfl
    · rw [if_neg ht, tget_planeOfRows, if_pos (Nat.zero_le n), Nat.sub_zero]
    · rw [if_pos ht, tget_planeOfRows, if_pos (Nat.zero_le n), Nat.sub_zero]
      exact elemAt_transposeRows (h.resolve_left (not_not.mpr ht)) rows hn hi

/-! ACCZERO (R226). -/

theorem tget_constRows {α : Type} [DecidableEq α] (d v : α) {r : Nat} (hr : r < 64) : tget d (constRows d v) r = v := by
  have hrange : ∀ n, tget d ((List.range' n (64 - n)).map (fun r => (r, v))) r = if n ≤ r then v else d := by
    intro n
    induction h : 64 - n generalizing n with
    | zero => simp [tget, show ¬ n ≤ r by omega]
    | succ m ih =>
      rw [List.range'_succ, List.map_cons, tget]
      have hrest : 64 - (n + 1) = m := by omega
      rw [ih (n + 1) hrest]
      split
      next he => rw [if_pos (by omega)]
      next he => exact if_congr (by omega) rfl rfl
  unfold constRows
  split
  next h => rw [h, tget]
  next =>
    rw [List.range_eq_range']
    exact hrange 0

/-- R224: CK of a row of zero words is zero. -/
theorem AccRow.checked_zero {x : AccRow} (hw : ∀ c, x.word c = 0) (hk : x.ck = 0) : x.Checked := by
  have htotal : ∀ f : BitVec 64 → Nat, f 0 = 0 → x.total f = 0 := fun f hf => by
    have hterm : (fun c => f (x.word c)) = fun _ => 0 := funext fun c => by rw [hw, hf]
    rw [AccRow.total, hterm]
    simp
  have hres : residues 0 = (0, 0, 0) := by decide
  rw [AccRow.Checked, hk, AccRow.residueSums, AccRow.wordSum, htotal _ (by rw [hres]), htotal _ (by rw [hres]), htotal _ (by rw [hres]), htotal _ rfl]
  split
  · exact hres
  · rfl

/-- R226: a row of a zeroed accumulator. -/
theorem zeroAcc_row (integer : Bool) (e : BitVec 16) {r : Nat} (c : Nat) (hr : r < 64) :
    (zeroAcc integer e).integer = integer ∧ accWord (zeroAcc integer e) r c = 0 ∧ checkOk (zeroAcc integer e) r = true ∧
      accHead (zeroAcc integer e) r = (if integer then 65536 else 512) ∧ accExp (zeroAcc integer e) r = e := by
  refine ⟨rfl, rfl, ?_, ?_, tget_constRows 0 e hr⟩
  · rw [checkOk_iff]
    exact AccRow.checked_zero (fun c => by simp [accRow, accWord, zeroAcc, tget]) rfl
  · simp [accHead, zeroAcc, vget, hr]

/-- R226: ACCZERO of an integer accumulator. -/
theorem acczero_int (x : ArrayState) (f : List Row) {k r : Nat} (c : Nat) (hk : k < 8) (hr : r < 64) :
    ∃ y, runArray x f (.acczeroInt k) = .ok (y, 0, []) ∧ (accAt y k).integer = true ∧ accWord (accAt y k) r c = 0 ∧
      checkOk (accAt y k) r = true ∧ accHead (accAt y k) r = 65536 ∧ y.active = x.active ∧ ∀ j, j ≠ k → accAt y j = accAt x j := by
  obtain ⟨hi, hw, hck, hh, _⟩ := zeroAcc_row true 0 c hr
  refine ⟨putAcc x k (zeroAcc true 0), rfl, ?_, ?_, ?_, ?_, rfl, fun j hj => accAt_putAcc_ne x _ hj⟩ <;> rw [accAt_putAcc x _ hk]
  exacts [hi, hw, hck, hh]

/-- R226: ACCZERO of a floating accumulator. -/
theorem acczero_fp (x : ArrayState) (f : List Row) {k r : Nat} (c : Nat) (e : BitVec 16) (hk : k < 8) (hr : r < 64) :
    ∃ y, runArray x f (.acczeroFp k e) = .ok (y, 0, []) ∧ (accAt y k).integer = false ∧ accWord (accAt y k) r c = 0 ∧
      checkOk (accAt y k) r = true ∧ accHead (accAt y k) r = 512 ∧ accExp (accAt y k) r = e ∧ y.active = x.active ∧ ∀ j, j ≠ k → accAt y j = accAt x j := by
  obtain ⟨hi, hw, hck, hh, he⟩ := zeroAcc_row false e c hr
  refine ⟨putAcc x k (zeroAcc false e), rfl, ?_, ?_, ?_, ?_, ?_, rfl, fun j hj => accAt_putAcc_ne x _ hj⟩ <;> rw [accAt_putAcc x _ hk]
  exacts [hi, hw, hck, hh, he]

/-! A magnitude rounded to an integer (R96), and a number scaled (R231). -/

/-- R96: when a mode rounds a magnitude's quotient up. -/
theorem roundShift_up (mode : RMode) (neg : Bool) (m s : Nat) : ∃ up : Bool, (roundShift mode neg m s).1 = m / 2 ^ s + up.toNat ∧
    (up = true → m % 2 ^ s ≠ 0) ∧ (m % 2 ^ s ≠ 0 → (mode = 1 → up = false) ∧ (mode = 2 → up = neg) ∧ (mode = 3 → up = !neg) ∧
      (mode = 0 → (up = true ↔ 2 ^ s < 2 * (m % 2 ^ s) ∨ 2 * (m % 2 ^ s) = 2 ^ s ∧ m / 2 ^ s % 2 = 1))) := by
  unfold roundShift
  generalize m % 2 ^ s = r
  generalize m / 2 ^ s = q
  have hadd : ∀ up : Bool, (if up then q + 1 else q) = q + up.toNat := fun up => by cases up <;> rfl
  by_cases hr : r = 0
  · exact ⟨false, by simp [hr], by simp, fun h => absurd hr h⟩
  · refine ⟨if mode = 0 then decide (2 ^ s < 2 * r) || (decide (2 * r = 2 ^ s) && q % 2 == 1) else if mode = 1 then false else if mode = 2 then neg else !neg,
      ?_, fun _ => hr, fun _ => ⟨?_, ?_, ?_, ?_⟩⟩
    · dsimp only
      rw [if_neg hr]
      exact hadd _
    · rintro rfl
      rfl
    · rintro rfl
      rfl
    · rintro rfl
      rfl
    · rintro rfl
      simp

/-- R96: the rounded quotient of a magnitude is below or above it, as the mode says. -/
theorem roundShift_off (mode : RMode) (neg : Bool) (m s : Nat) :
    let q : Int := (roundShift mode neg m s).1
    let d : Int := 2 ^ s
    let off : Int := m - q * d
    0 ≤ q ∧ -d < off ∧ off < d ∧ (mode = 1 → 0 ≤ off) ∧
      (mode = 2 → if neg then off ≤ 0 else 0 ≤ off) ∧ (mode = 3 → if neg then 0 ≤ off else off ≤ 0) ∧
      (mode = 0 → -d ≤ 2 * off ∧ 2 * off ≤ d ∧ (2 * off = d ∨ 2 * off = -d → q % 2 = 0)) := by
  obtain ⟨up, hup, hnz, hmode⟩ := roundShift_up mode neg m s
  intro q d off
  have hd : d = ((2 ^ s : Nat) : Int) := by simp [d]
  have hpos := Nat.two_pow_pos s
  have hr := Nat.mod_lt m hpos
  have hdiv : (m : Int) = (m / 2 ^ s : Nat) * d + (m % 2 ^ s : Nat) := by
    rw [hd]
    exact_mod_cast (Nat.div_add_mod' m (2 ^ s)).symm
  have hq : q = (m / 2 ^ s : Nat) + (up.toNat : Int) := by simp [q, hup]
  have hoff : off = (m % 2 ^ s : Nat) - up.toNat * d := by
    unfold off
    rw [hq, hdiv]
    ring
  rw [hd] at *
  clear_value q off d
  generalize m % 2 ^ s = r at *
  generalize m / 2 ^ s = n at *
  generalize 2 ^ s = D at *
  by_cases hz : r = 0
  · cases up with
    | true => exact absurd hz (hnz rfl)
    | false =>
      simp only [Bool.toNat_false, Nat.cast_zero, Int.zero_mul, Int.sub_zero, Int.add_zero, hz] at hq hoff
      refine ⟨by omega, by omega, by omega, by omega, fun _ => by split <;> omega, fun _ => by split <;> omega, fun _ => by omega⟩
  · obtain ⟨h1, h2, h3, h0⟩ := hmode hz
    cases up with
    | true =>
      simp only [Bool.toNat_true, Nat.cast_one, Int.one_mul] at hq hoff
      refine ⟨by omega, by omega, by omega, fun h => (nomatch h1 h), fun h => by rw [← h2 h, if_pos rfl]; omega, fun h => ?_, fun h => ?_⟩
      · rw [if_neg (by simp [(Bool.not_eq_true' _).mp (h3 h).symm])]
        omega
      · have := (h0 h).mp rfl
        omega
    | false =>
      simp only [Bool.toNat_false, Nat.cast_zero, Int.zero_mul, Int.sub_zero, Int.add_zero] at hq hoff
      refine ⟨by omega, by omega, by omega, fun _ => by omega, fun h => by rw [← h2 h, if_neg (by decide)]; omega, fun h => ?_, fun h => ?_⟩
      · rw [if_pos (by simpa using h3 h)]
        omega
      · have := mt (h0 h).mpr (by decide)
        omega

/-- R231: a number scaled: exact when it grows, and otherwise the rounded quotient, as the mode says. -/
theorem scaleInt_off (m : RMode) (n sh : Int) :
    let q := scaleInt m n sh
    let d : Int := 2 ^ sh.toNat
    let off := n - q * d
    (sh ≤ 0 → q = n * 2 ^ (-sh).toNat) ∧ (0 < sh → -d < off ∧ off < d ∧ (m = 2 → 0 ≤ off) ∧ (m = 3 → off ≤ 0) ∧
      (m = 1 → (0 ≤ n → 0 ≤ off ∧ 0 ≤ q) ∧ (n ≤ 0 → off ≤ 0 ∧ q ≤ 0)) ∧
      (m = 0 → -d ≤ 2 * off ∧ 2 * off ≤ d ∧ (2 * off = d ∨ 2 * off = -d → q % 2 = 0))) := by
  intro q d off
  refine ⟨fun hsh => ?_, fun hsh => ?_⟩
  · unfold q scaleInt roundMag
    rw [if_pos (show (0 : Int) ≤ -sh by omega)]
    by_cases hn : n < 0
    · rw [if_pos hn]
      push_cast
      rw [show |n| = -n from abs_of_neg hn]
      ring
    · rw [if_neg hn]
      push_cast
      rw [show |n| = n from abs_of_nonneg (by omega)]
  · have hmag : (roundMag m (decide (n < 0)) n.natAbs (-sh)).1 = (roundShift m (decide (n < 0)) n.natAbs sh.toNat).1 := by
      rw [roundMag, if_neg (by omega), Int.neg_neg]
    obtain ⟨h0, hlo, hhi, hm1, hm2, hm3, hm0⟩ := roundShift_off m (decide (n < 0)) n.natAbs sh.toNat
    have hq : q = if n < 0 then -((roundShift m (decide (n < 0)) n.natAbs sh.toNat).1 : Int) else (roundShift m (decide (n < 0)) n.natAbs sh.toNat).1 := by
      unfold q scaleInt
      rw [hmag]
    generalize ((roundShift m (decide (n < 0)) n.natAbs sh.toNat).1 : Int) = z at *
    rw [show (2 : Int) ^ sh.toNat = d from rfl] at *
    by_cases hn : n < 0
    · rw [if_pos hn] at hq
      have hoff : off = -((n.natAbs : Int) - z * d) := by
        unfold off
        rw [hq, show (n.natAbs : Int) = -n by omega]
        ring
      rw [decide_eq_true hn, if_pos rfl] at hm2 hm3
      clear_value q d off
      generalize (n.natAbs : Int) - z * d = o at *
      exact ⟨by omega, by omega, fun h => by have := hm2 h; omega, fun h => by have := hm3 h; omega, fun h => by have := hm1 h; omega,
        fun h => by have := hm0 h; omega⟩
    · rw [if_neg hn] at hq
      have hoff : off = (n.natAbs : Int) - z * d := by
        unfold off
        rw [hq, show (n.natAbs : Int) = n by omega]
      rw [decide_eq_false hn, if_neg (by decide)] at hm2 hm3
      have hzero : n = 0 → q = 0 := fun h => by simp [q, h, scaleInt, roundMag, roundShift]
      have hpos : n = 0 → (n.natAbs : Int) - z * d = 0 := fun h => by rw [← hq, hzero h, h]; simp
      clear_value q d off
      generalize (n.natAbs : Int) - z * d = o at *
      exact ⟨by omega, by omega, fun h => by have := hm2 h; omega, fun h => by have := hm3 h; omega, fun h => by have := hm1 h; omega,
        fun h => by have := hm0 h; omega⟩

end Sys2Proof.Machine

/-! Words replaced along the columns of a row, and ACCLD (R227). -/

namespace Sys2Proof.Machine

/-- A command's way through columns of a row: each word replaced as its step says, or the first failure. -/
def mapCols (step : Nat → BitVec 64 → Except ArrayFail (BitVec 64 × Flags)) (a : Acc) (r : Nat) (fl : Flags) (cs : List Nat) :
    Except ArrayFail (Acc × Flags) :=
  match cs with
  | [] => .ok (a, fl)
  | c :: rest =>
    match step c (accWord a r c) with
    | .error e => .error e
    | .ok x => mapCols step (putAccWord a r c x.1) r (fl ||| x.2) rest

/-- A row with the words of columns replaced. -/
def AccRow.puts (x : AccRow) (v : Nat → BitVec 64) (cs : List Nat) : AccRow := { x with word := fun d => if d ∈ cs then v d else x.word d }

@[simp] theorem AccRow.puts_nil (x : AccRow) (v : Nat → BitVec 64) : x.puts v [] = x := by
  ext d <;> simp [AccRow.puts]

/-- Steps that give the words v, with flags w, replace the words of the columns. -/
theorem mapCols_ok {step : Nat → BitVec 64 → Except ArrayFail (BitVec 64 × Flags)} {v : Nat → BitVec 64} {w : Nat → Flags} {cs : List Nat} {a : Acc} {r : Nat}
    (hn : cs.Nodup) (hc : ∀ c ∈ cs, c < 128) (h : ∀ c ∈ cs, step c (accWord a r c) = .ok (v c, w c)) (fl : Flags) :
    ∃ b, mapCols step a r fl cs = .ok (b, cs.foldl (fun x c => x ||| w c) fl) ∧ setsRow a r ((accRow a r).puts v cs) b := by
  induction cs generalizing a fl with
  | nil => exact ⟨a, rfl, (AccRow.puts_nil (accRow a r) v).symm ▸ setsRow.refl a r⟩
  | cons c rest ih =>
    obtain ⟨hr, hrest⟩ := List.nodup_cons.mp hn
    have hset := putAccWord_sets a r (v c) (hc c List.mem_cons_self)
    obtain ⟨b, hb, hs⟩ := ih (a := putAccWord a r c (v c)) hrest (fun d hd => hc d (List.mem_cons_of_mem _ hd))
      (fun d hd => by
        rw [accWord_putAccWord _ _ _ _ _ _ (hc c List.mem_cons_self) (hc d (List.mem_cons_of_mem _ hd)), if_neg (fun ⟨_, he⟩ => hr (he ▸ hd))]
        exact h d (List.mem_cons_of_mem _ hd)) (fl ||| w c)
    refine ⟨b, by rw [mapCols, h c List.mem_cons_self]; exact hb, ?_⟩
    have hputs : (accRow (putAccWord a r c (v c)) r).puts v rest = (accRow a r).puts v (c :: rest) := by
      rw [hset.same]
      ext d
      · rfl
      · by_cases hd : d = c
        · simp [AccRow.puts, AccRow.put, hd]
        · simp [AccRow.puts, AccRow.put, hd]
      all_goals rfl
    exact hputs ▸ hset.trans hs

/-- A column whose step fails fails the row, at a column of the list. -/
theorem mapCols_error {step : Nat → BitVec 64 → Except ArrayFail (BitVec 64 × Flags)} {E : Nat → ArrayFail → Prop} {cs : List Nat}
    (hE : ∀ c ∈ cs, ∀ w e, step c w = .error e → E c e) (h : ∃ c ∈ cs, ∀ w, ∃ e, step c w = .error e) (a : Acc) (r : Nat) (fl : Flags) :
    ∃ c ∈ cs, ∃ e, mapCols step a r fl cs = .error e ∧ E c e := by
  induction cs generalizing a fl with
  | nil => obtain ⟨c, hc, _⟩ := h; cases hc
  | cons c rest ih =>
    rw [mapCols]
    cases hs : step c (accWord a r c) with
    | error e => exact ⟨c, List.mem_cons_self, e, rfl, hE c List.mem_cons_self _ e hs⟩
    | ok x =>
      have hrest : ∃ d ∈ rest, ∀ w, ∃ e, step d w = .error e := by
        obtain ⟨d, hd, hf⟩ := h
        rcases List.mem_cons.mp hd with rfl | hd
        · obtain ⟨e, he⟩ := hf (accWord a r d)
          rw [hs] at he
          cases he
        · exact ⟨d, hd, hf⟩
      obtain ⟨d, hd, e, he, hde⟩ := ih (fun d hd => hE d (List.mem_cons_of_mem _ hd)) hrest (putAccWord a r c x.1) (fl ||| x.2)
      exact ⟨d, List.mem_cons_of_mem _ hd, e, he, hde⟩

/-- A bit of a union of flags. -/
theorem getLsbD_union {α : Type} (l : List α) (w : α → Flags) (i : Nat) :
    (l.foldl (fun x c => x ||| w c) 0).getLsbD i = true ↔ ∃ c ∈ l, (w c).getLsbD i = true := by
  simp [getLsbD_foldl_or]

/-- R224: a row with HG replaced and CK set afresh. -/
def AccRow.seal (x : AccRow) (h : Nat) : AccRow :=
  let y : AccRow := { x with head := h }
  y.setCk y.check

theorem AccRow.checked_seal (x : AccRow) (h : Nat) : (x.seal h).Checked := AccRow.checked_check _

theorem seal_sets {a b : Acc} {r : Nat} {x : AccRow} (h : Nat) (hr : r < 64) (hs : setsRow a r x b) :
    setsRow a r (x.seal h) (setCheck { b with hg := vput b.hg r h } r) := by
  have hh := setHead_sets b h hr
  rw [hs.same] at hh
  have hk := setCheck_sets { b with hg := vput b.hg r h } r
  rw [hh.same] at hk
  exact (hs.trans hh).trans hk

/-- What a command leaves of the rows of its window, of accumulator k. -/
theorem row_of_putAcc {x : ArrayState} {k : Nat} {p : Plane} {B : Acc} {G : Nat → AccRow} (hk : k < 8)
    (hrows : ∀ q, accRow B q = if q ∈ windowRows p then G q else accRow (accAt x k) q) {r : Nat} (hr : InRows p r) :
    accHead (accAt (putAcc x k B) k) r = (G r).head ∧ accExp (accAt (putAcc x k B) k) r = (G r).exp ∧
      (checkOk (accAt (putAcc x k B) k) r = true ↔ (G r).Checked) ∧ ∀ c < 128, accWord (accAt (putAcc x k B) k) r c = (G r).word c := by
  have h := hrows r
  rw [if_pos (mem_windowRows.mpr hr)] at h
  rw [accAt_putAcc x B hk]
  refine ⟨congrArg AccRow.head h, congrArg AccRow.exp h, ?_, fun c hc => ?_⟩
  · rw [checkOk_iff, h]
  · rw [← accRow_word B r hc, h]

/-! ACCLD (R227). -/

/-- R227: column c takes its word from the tile. -/
def Enters (p : Plane) (hi : Bool) (c : Nat) : Prop := InCols p c ∧ (c / 64 = 1 ↔ hi = true)

/-- R227: the columns that take a word, in their order. -/
def entering (p : Plane) (hi : Bool) : List Nat :=
  ((List.range 64).map (fun k => (if hi then 64 else 0) + k)).filter (fun c => decide (p.col0 ≤ c ∧ c < p.col0 + p.ncols))

theorem mem_entering {p : Plane} {hi : Bool} {c : Nat} : c ∈ entering p hi ↔ c < 128 ∧ Enters p hi c := by
  simp only [entering, List.mem_filter, List.mem_map, List.mem_range, decide_eq_true_eq, Enters, InCols]
  constructor
  · rintro ⟨⟨k, hk, rfl⟩, h⟩
    cases hi
    · simp only [Bool.false_eq_true, if_false, Nat.zero_add, iff_false] at *
      omega
    · simp only [if_true, iff_true] at *
      omega
  · rintro ⟨hc, h, hh⟩
    refine ⟨⟨c % 64, Nat.mod_lt _ (by decide), ?_⟩, h⟩
    cases hi
    · simp only [Bool.false_eq_true, if_false, iff_false] at *
      omega
    · simp only [if_true, iff_true] at *
      omega

theorem entering_nodup (p : Plane) (hi : Bool) : (entering p hi).Nodup := (List.nodup_range.map fun _ _ h => Nat.add_left_cancel h).filter _

/-- R227: the value that ACCLD enters for a code, with the row's exponent; none when it is wide. -/
def loadedValue (E : BitVec 16) (p : Plane) (fmt code : Nat) : Option (BitVec 64 × Flags) :=
  if fmt = 8 then some (toResidue (decodeInt 8 code), 0)
  else ((CellSum.zero.add E.toInt (decodeFloat 0 code)).finish (p.amode / 2 % 2 == 1)).map (fun x => (BitVec.ofInt 64 x.1, x.2))

theorem loadValue_eq (a : Acc) (p : Plane) (fmt r code : Nat) : loadValue a p fmt r code = loadedValue (accExp a r) p fmt code := rfl

/-- R227: the step of a column. -/
def loadStep (E : BitVec 16) (p : Plane) (fmt r : Nat) (row : Row) (c : Nat) (_ : BitVec 64) : Except ArrayFail (BitVec 64 × Flags) :=
  match loadedValue E p fmt (elemAt fmt row (c % 64)) with
  | none => .error { cause := 0x39, detail := 0, row := r, col := c }
  | some x => .ok x

theorem accLoadRow_eq (p : Plane) (fmt r : Nat) (row : Row) (hi : Bool) {E : BitVec 16} {ks : List Nat} (hks : ∀ k ∈ ks, k < 64) (a : Acc) (fl : Flags)
    (hE : accExp a r = E) : accLoadRow a p fmt r row hi fl ks = mapCols (loadStep E p fmt r row) a r fl
      ((ks.map (fun k => (if hi then 64 else 0) + k)).filter (fun c => decide (p.col0 ≤ c ∧ c < p.col0 + p.ncols))) := by
  induction ks generalizing a fl with
  | nil => rfl
  | cons k rest ih =>
    have hrest := fun a fl h => ih (fun k hk => hks k (List.mem_cons_of_mem _ hk)) a fl h
    have hk := hks k List.mem_cons_self
    have hcol : ((if hi then 64 else 0) + k) % 64 = k := by split <;> omega
    rw [accLoadRow, List.map_cons]
    by_cases hin : (if hi then 64 else 0) + k < p.col0 ∨ p.col0 + p.ncols ≤ (if hi then 64 else 0) + k
    · rw [if_pos hin, List.filter_cons_of_neg (by simp; omega), hrest a fl hE]
    · rw [if_neg hin, List.filter_cons_of_pos (by simp; omega), mapCols, loadStep, hcol, loadValue_eq, hE]
      cases loadedValue E p fmt (elemAt fmt row k) with
      | none => rfl
      | some x => exact hrest _ _ hE

/-- R227: a value as ACCLD takes it. -/
def gridValue (g : Int) (v : Val) : Int :=
  match v with
  | .inf s => if s then -(2 ^ 47) else 2 ^ 47
  | z => gridFloor g z

/-- R227: a finite value whose word is not wide. -/
def LoadPlain (g : Int) (v : Val) : Prop := ¬ WideSum (gridValue g v) ∧ ∃ s m e, v = .fin s m e

/-- R227: a value is the sum of a cell of its own. -/
theorem cellOne (g : Int) (v : Val) : CellSum.zero.add g v = cellSum g (fun _ => v) [0] ∧ cellTotal g (fun _ => v) [0] = gridValue g v ∧
    (CellPlain g (fun _ => v) [0] ↔ LoadPlain g v) ∧ (CellNan (fun _ => v) [0] ↔ isNan v = true) ∧
    ¬ (0 < cellInfs (fun _ => v) [0] false ∧ 0 < cellInfs (fun _ => v) [0] true) := by
  have htotal : cellTotal g (fun _ => v) [0] = gridValue g v := by
    cases v with
    | fin n m e => simp [cellTotal, cellInfs, gridValue]
    | inf s => cases s <;> simp [cellTotal, cellInfs, gridValue, gridFloor]
    | nan s => simp [cellTotal, cellInfs, gridValue]
  refine ⟨rfl, htotal, ?_, ?_, ?_⟩
  · simp [CellPlain, LoadPlain, htotal]
  · cases v <;> simp [CellNan, isNan]
  · cases v with
    | inf s => cases s <;> simp [cellInfs]
    | _ => simp [cellInfs]

/-- R227: the word that a code gives, with the row's exponent. -/
def loadedWord (E : BitVec 16) (fmt code : Nat) : BitVec 64 :=
  if fmt = 8 then toResidue (decodeInt 8 code) else BitVec.ofInt 64 (clampSum (gridValue E.toInt (decodeFloat 0 code)))

section
variable {E : BitVec 16} {p : Plane} {fmt r : Nat} {row : Row}

theorem loadStep_fp (h0 : fmt = 0) (c : Nat) (w : BitVec 64) : loadStep E p fmt r row c w =
    match (cellSum E.toInt (fun _ => decodeFloat 0 (elemAt fmt row (c % 64))) [0]).finish (p.amode / 2 % 2 == 1) with
    | none => .error { cause := 0x39, detail := 0, row := r, col := c }
    | some x => .ok (BitVec.ofInt 64 x.1, x.2) := by
  rw [loadStep, loadedValue, if_neg (by omega), (cellOne _ _).1]
  cases (cellSum E.toInt (fun _ => decodeFloat 0 (elemAt fmt row (c % 64))) [0]).finish (p.amode / 2 % 2 == 1) <;> rfl

/-- R227: a value that is not plain, and is not clamped, fails. -/
theorem loadStep_error {c : Nat} (h0 : fmt = 0) (hc : ¬ p.amode / 2 % 2 = 1)
    (h : ¬ LoadPlain E.toInt (decodeFloat 0 (elemAt fmt row (c % 64)))) (w : BitVec 64) :
    loadStep E p fmt r row c w = .error { cause := 0x39, detail := 0, row := r, col := c } := by
  rw [loadStep_fp h0, beq_eq_false_iff_ne.mpr hc, cellFinish_none (mt (cellOne _ _).2.2.1.mp h)]

/-- R227: the word and the flags of a value that enters. -/
theorem loadStep_ok {c : Nat} (hf : fmt = 0 ∨ fmt = 8)
    (h : fmt = 8 ∨ p.amode / 2 % 2 = 1 ∨ LoadPlain E.toInt (decodeFloat 0 (elemAt fmt row (c % 64)))) :
    ∃ fl : Flags, (∀ w, loadStep E p fmt r row c w = .ok (loadedWord E fmt (elemAt fmt row (c % 64)), fl)) ∧ (fmt = 8 → fl = 0) ∧
      (fmt = 0 → let v := decodeFloat 0 (elemAt fmt row (c % 64))
        (fl.getLsbD 0 = true ↔ GridLost E.toInt v) ∧ (fl.getLsbD 2 = true ↔ WideSum (gridValue E.toInt v)) ∧ (fl.getLsbD 4 = true ↔ isNan v = true)) := by
  rcases hf with rfl | rfl
  · obtain ⟨_, htotal, hplain, hnan, hinf⟩ := cellOne E.toInt (decodeFloat 0 (elemAt 0 row (c % 64)))
    obtain ⟨fl, hfin, hNX, hOF, hNV, _⟩ := cellFinish_some (clamp := p.amode / 2 % 2 == 1) (g := E.toInt)
      (P := fun _ => decodeFloat 0 (elemAt 0 row (c % 64))) (ks := [0])
      ((h.resolve_left (by decide)).imp (fun hc => beq_iff_eq.mpr hc) hplain.mpr)
    refine ⟨fl, fun w => ?_, fun h => absurd h (by decide), fun _ => ⟨hNX.trans (by simp), htotal ▸ hOF, hNV.trans ((or_iff_left hinf).trans hnan)⟩⟩
    rw [loadStep_fp rfl, hfin, htotal]
    rfl
  · exact ⟨0, fun w => rfl, fun _ => rfl, fun h => absurd h (by decide)⟩

end

/-- R227: one row of ACCLD. -/
def accldRow (p : Plane) (fmt : Nat) (tile : List Row) (hi : Bool) (a : Acc) (fl : Flags) (r : Nat) : Except ArrayFail (Acc × Flags) :=
  match accLoadRow a p fmt r (tile.getD r 0) hi fl (List.range 64) with
  | .error e => .error e
  | .ok x => .ok (setCheck { x.1 with hg := vput x.1.hg r (if a.integer then min (accHead x.1 r) 65024 else min (accHead x.1 r) 511) } r, x.2)

theorem accLoadRows_eq (p : Plane) (fmt : Nat) (tile : List Row) (hi : Bool) (a : Acc) (fl : Flags) (rows : List Nat) :
    accLoadRows a p fmt tile hi fl rows = runRows (accldRow p fmt tile hi) a fl rows := by
  induction rows generalizing a fl with
  | nil => rfl
  | cons r rest ih =>
    rw [accLoadRows, runRows, accldRow]
    cases accLoadRow a p fmt r (tile.getD r 0) hi fl (List.range 64) with
    | error e => rfl
    | ok x => exact ih _ _

theorem accldRow_eq (p : Plane) (fmt : Nat) (tile : List Row) (hi : Bool) (a : Acc) (fl : Flags) (r : Nat) : accldRow p fmt tile hi a fl r =
    match mapCols (loadStep (accExp a r) p fmt r (tile.getD r 0)) a r fl (entering p hi) with
    | .error e => .error e
    | .ok x => .ok (setCheck { x.1 with hg := vput x.1.hg r (if a.integer then min (accHead x.1 r) 65024 else min (accHead x.1 r) 511) } r, x.2) := by
  rw [accldRow, accLoadRow_eq p fmt r (tile.getD r 0) hi (fun k hk => List.mem_range.mp hk) a fl rfl]
  rfl

/-- R227: what ACCLD makes of a row. -/
def loadedRow (x : AccRow) (p : Plane) (fmt : Nat) (row : Row) (hi : Bool) : AccRow :=
  (x.puts (fun c => loadedWord x.exp fmt (elemAt fmt row (c % 64))) (entering p hi)).seal (min x.head (if x.integer then 65024 else 511))

/-- R227: a row whose values all enter. -/
theorem accldRow_ok {p : Plane} {fmt : Nat} {tile : List Row} {hi : Bool} {r : Nat} {E : BitVec 16} {w : Nat → Flags} (hr : r < 64)
    (h : ∀ c ∈ entering p hi, ∀ old, loadStep E p fmt r (tile.getD r 0) c old = .ok (loadedWord E fmt (elemAt fmt (tile.getD r 0) (c % 64)), w c))
    (a : Acc) (fl : Flags) (hE : accExp a r = E) : ∃ b, accldRow p fmt tile hi a fl r = .ok (b, fl ||| (entering p hi).foldl (fun x c => x ||| w c) 0) ∧
      setsRow a r (loadedRow (accRow a r) p fmt (tile.getD r 0) hi) b := by
  subst hE
  obtain ⟨b, hb, hs⟩ := mapCols_ok (step := loadStep (accExp a r) p fmt r (tile.getD r 0)) (a := a) (r := r) (entering_nodup p hi)
    (fun c hc => (mem_entering.mp hc).1) (fun c hc => h c hc _) fl
  have hhead : accHead b r = accHead a r := congrArg AccRow.head hs.same
  refine ⟨_, ?_, seal_sets _ hr hs⟩
  rw [accldRow_eq, hb, ← foldl_or_init]
  dsimp only
  rw [hhead, accRow_head, accRow_integer]
  cases a.integer <;> rfl

section
variable {x : ArrayState} {k : Nat} {p : Plane} {tile : List Row} {fmt : Nat} {hi : Bool} (hrows : p.row0 + p.mrows ≤ 64) (hcols : p.col0 + p.ncols ≤ 128)
  (hint : (accAt x k).integer = decide (fmt = 8))
include hrows hcols hint

theorem accld_shape : firstShape [(decide (64 < p.row0 + p.mrows), 1), (decide (128 < p.col0 + p.ncols), 2), ((accAt x k).integer != (fmt == 8), 5)] = none := by
  have hbeq : (fmt == 8) = decide (fmt = 8) := rfl
  simp [Nat.not_lt.mpr hrows, Nat.not_lt.mpr hcols, hint, hbeq]

/-- R224, R227: a row whose CK disagrees fails ACCLD. -/
theorem accld_fails_check {r : Nat} (hr : FirstRow p (fun q => checkOk (accAt x k) q = false) r) : Fails x (.accld k tile p fmt hi) 0x3A 0 r 0 := by
  simp only [Fails, runArray, runAccld, accld_shape hrows hcols hint, badCheck_first hr]

theorem accld_runs (hck : ∀ r, InRows p r → checkOk (accAt x k) r = true) : runArray x [] (.accld k tile p fmt hi) =
    match runRows (accldRow p fmt tile hi) (accAt x k) 0 (windowRows p) with
    | .error e => .error e
    | .ok y => .ok (putAcc x k y.1, y.2, []) := by
  simp only [runArray, runAccld, accld_shape hrows hcols hint, badCheck_none hck, accLoadRows_eq]
  cases runRows (accldRow p fmt tile hi) (accAt x k) 0 (windowRows p) <;> rfl

variable (hf : fmt = 0 ∨ fmt = 8)
include hf

/-- R227: a value that does not enter fails ACCLD. -/
theorem accld_fails_wide (hck : ∀ r, InRows p r → checkOk (accAt x k) r = true) (h0 : fmt = 0) (hc : ¬ p.amode / 2 % 2 = 1)
    (hex : ∃ r c, InRows p r ∧ Enters p hi c ∧ ¬ LoadPlain (accExp (accAt x k) r).toInt (decodeFloat 0 (elemAt fmt (tile.getD r 0) (c % 64)))) :
    ∃ r c, InRows p r ∧ Enters p hi c ∧ Fails x (.accld k tile p fmt hi) 0x39 0 r c := by
  obtain ⟨r, c, hr, hen, hp⟩ := hex
  have hlt : ∀ {c}, Enters p hi c → c < 128 := fun ⟨⟨_, hu⟩, _⟩ => by omega
  have herr : ∀ (r : Nat) (a : Acc) (fl : Flags), (∃ c, Enters p hi c ∧ ¬ LoadPlain (accExp a r).toInt (decodeFloat 0 (elemAt fmt (tile.getD r 0) (c % 64)))) →
      ∃ c ∈ entering p hi, ∃ e, mapCols (loadStep (accExp a r) p fmt r (tile.getD r 0)) a r fl (entering p hi) = .error e ∧
        e = { cause := 0x39, detail := 0, row := r, col := c } := fun r a fl ⟨c, hen, hp⟩ =>
    mapCols_error (fun c hc' w e he => by
      rw [loadStep_fp h0] at he
      split at he
      · exact (Except.error.inj he).symm
      · cases he) ⟨c, mem_entering.mpr ⟨hlt hen, hen⟩, fun w => ⟨_, loadStep_error h0 hc hp w⟩⟩ a r fl
  obtain ⟨q, hq, e, he, d, hd, rfl⟩ := runRows_error (step := accldRow p fmt tile hi) (A := accAt x k) (windowRows_nodup p)
    (bad := fun r => ∃ c, Enters p hi c ∧ ¬ LoadPlain (accExp (accAt x k) r).toInt (decodeFloat 0 (elemAt fmt (tile.getD r 0) (c % 64))))
    (E := fun r e => ∃ c, Enters p hi c ∧ e = { cause := 0x39, detail := 0, row := r, col := c })
    ⟨r, mem_windowRows.mpr hr, c, hen, hp⟩
    (fun r _ hbad a fl ha => by
      rw [← accRow_exp, ← ha] at hbad
      obtain ⟨c, hc, e, he, rfl⟩ := herr r a fl hbad
      exact ⟨_, by rw [accldRow_eq, he], c, (mem_entering.mp hc).2, rfl⟩)
    (fun r hr hgood a fl ha => by
      have hplain : ∀ c ∈ entering p hi, ∃ fl : Flags, ∀ w, loadStep (accExp (accAt x k) r) p fmt r (tile.getD r 0) c w =
          .ok (loadedWord (accExp (accAt x k) r) fmt (elemAt fmt (tile.getD r 0) (c % 64)), fl) := fun c hc => by
        obtain ⟨fl, hfl, _⟩ := loadStep_ok (E := accExp (accAt x k) r) (p := p) (r := r) (row := tile.getD r 0) (c := c) hf
          (.inr (.inr (not_not.mp (fun hp => hgood ⟨c, (mem_entering.mp hc).2, hp⟩))))
        exact ⟨fl, hfl⟩
      choose! w hw using hplain
      obtain ⟨b, hb, hs⟩ := accldRow_ok (by have := (mem_windowRows.mp hr).2; omega) hw a fl (congrArg AccRow.exp ha)
      exact ⟨b, _, hb, fun q hq => hs.other hq⟩) 0
  refine ⟨q, d, mem_windowRows.mp hq, hd, ?_⟩
  rw [Fails, accld_runs hrows hcols hint hck, he]

/-- R227: ACCLD enters the values of its tile. -/
theorem accld_loads (hk : k < 8) (hck : ∀ r, InRows p r → checkOk (accAt x k) r = true)
    (hok : fmt = 8 ∨ p.amode / 2 % 2 = 1 ∨
      ∀ r c, InRows p r → Enters p hi c → LoadPlain (accExp (accAt x k) r).toInt (decodeFloat 0 (elemAt fmt (tile.getD r 0) (c % 64)))) :
    ∃ y fl, runArray x [] (.accld k tile p fmt hi) = .ok (y, fl, []) ∧ ChangesRows x y k p ∧
      (∀ r, InRows p r → accHead (accAt y k) r = min (accHead (accAt x k) r) (if fmt = 8 then 65024 else 511) ∧ checkOk (accAt y k) r = true ∧
        accExp (accAt y k) r = accExp (accAt x k) r ∧ (∀ c < 128, ¬ Enters p hi c → accWord (accAt y k) r c = accWord (accAt x k) r c) ∧
        ∀ c < 128, Enters p hi c → accWord (accAt y k) r c = loadedWord (accExp (accAt x k) r) fmt (elemAt fmt (tile.getD r 0) (c % 64))) ∧
      (fmt = 8 → fl = 0) ∧ (fmt = 0 → ∀ i ∈ [0, 2, 4], (fl.getLsbD i = true ↔ ∃ r c, InRows p r ∧ c < 128 ∧ Enters p hi c ∧
        let v := decodeFloat 0 (elemAt fmt (tile.getD r 0) (c % 64))
        if i = 0 then GridLost (accExp (accAt x k) r).toInt v else if i = 2 then WideSum (gridValue (accExp (accAt x k) r).toInt v) else isNan v = true)) := by
  have hstep : ∀ r c, ∃ fl : Flags, InRows p r ∧ Enters p hi c → _ := fun r c => by
    by_cases h : InRows p r ∧ Enters p hi c
    · obtain ⟨fl, hfl⟩ := loadStep_ok (E := accExp (accAt x k) r) (p := p) (r := r) (row := tile.getD r 0) (c := c) hf
        (hok.imp_right (Or.imp_right fun hp => hp r c h.1 h.2))
      exact ⟨fl, fun _ => hfl⟩
    · exact ⟨0, fun h' => absurd h' h⟩
  choose w hw using hstep
  obtain ⟨B, hB, hrow⟩ := runRows_ok (step := accldRow p fmt tile hi) (A := accAt x k) (windowRows_nodup p)
    (G := fun r => loadedRow (accRow (accAt x k) r) p fmt (tile.getD r 0) hi) (F := fun r => (entering p hi).foldl (fun x c => x ||| w r c) 0)
    (fun r hr a fl ha => by
      have hw' := mem_windowRows.mp hr
      rw [← ha]
      exact accldRow_ok (by have := hw'.2; omega) (fun c hc old => (hw r c ⟨hw', (mem_entering.mp hc).2⟩).1 old) a fl (congrArg AccRow.exp ha)) 0
  have hbits : ∀ i, ((windowRows p).foldl (fun x r => x ||| (entering p hi).foldl (fun x c => x ||| w r c) 0) 0).getLsbD i = true ↔
      ∃ r c, InRows p r ∧ c < 128 ∧ Enters p hi c ∧ (w r c).getLsbD i = true := fun i => by
    rw [getLsbD_windowFlags]
    simp only [getLsbD_union, mem_entering]
    exact ⟨fun ⟨r, hr, c, ⟨hc, he⟩, hb⟩ => ⟨r, c, hr, hc, he, hb⟩, fun ⟨r, c, hr, hc, he, hb⟩ => ⟨r, hr, c, ⟨hc, he⟩, hb⟩⟩
  refine ⟨putAcc x k B, _, by rw [accld_runs hrows hcols hint hck, hB], changesRows_putAcc hk hrow (fun _ _ => rfl), fun r hr => ?_, fun h8 => ?_,
    fun h0 i hi' => ?_⟩
  · obtain ⟨hh, he, hc, hwd⟩ := row_of_putAcc hk hrow hr
    refine ⟨hh.trans ?_, hc.mpr (AccRow.checked_seal _ _), he, fun c hc hn => ?_, fun c hc hn => ?_⟩
    · rw [loadedRow]
      simp only [AccRow.seal, AccRow.setCk, AccRow.puts, accRow_head, accRow_integer, hint, decide_eq_true_eq]
    · rw [hwd c hc, loadedRow]
      simp only [AccRow.seal, AccRow.setCk, AccRow.puts]
      rw [if_neg (fun h => hn (mem_entering.mp h).2), accRow_word _ _ hc]
    · rw [hwd c hc, loadedRow]
      simp only [AccRow.seal, AccRow.setCk, AccRow.puts]
      rw [if_pos (mem_entering.mpr ⟨hc, hn⟩), accRow_exp]
  · apply BitVec.eq_of_getLsbD_eq
    intro i _
    rw [Bool.eq_iff_iff, hbits]
    constructor
    · rintro ⟨r, c, hr, _, he, hb⟩
      rwa [(hw r c ⟨hr, he⟩).2.1 h8] at hb
    · simp
  · rw [hbits]
    refine exists_congr fun r => exists_congr fun c => and_congr_right fun hr => and_congr_right fun _ => and_congr_right fun he => ?_
    obtain ⟨hNX, hOF, hNV⟩ := (hw r c ⟨hr, he⟩).2.2 h0
    simp only [List.mem_cons, List.not_mem_nil, or_false] at hi'
    rcases hi' with rfl | rfl | rfl
    exacts [hNX, hOF, hNV]

end

end Sys2Proof.Machine

/-! ACCNORM and FOLD (R228, R230). -/

namespace Sys2Proof.Machine

/-- A union of flags that are each none or one flag. -/
theorem union_one {α : Type} {f : Flags} (hf : f ≠ 0) {F : α → Flags} {l : List α} (h : ∀ c ∈ l, F c = 0 ∨ F c = f) :
    let U := l.foldl (fun x c => x ||| F c) 0
    (U = 0 ∨ U = f) ∧ (U = f ↔ ∃ c ∈ l, F c = f) := by
  have hzero : ∀ y : Flags, 0 ||| y = y := fun y => by simp
  induction l with
  | nil => exact ⟨.inl rfl, fun h => absurd h.symm hf, fun ⟨_, hc, _⟩ => by cases hc⟩
  | cons c rest ih =>
    obtain ⟨hu, hiff⟩ := ih (fun c hc => h c (List.mem_cons_of_mem _ hc))
    have hcons : (c :: rest).foldl (fun x c => x ||| F c) 0 = F c ||| rest.foldl (fun x c => x ||| F c) 0 := by
      rw [List.foldl_cons, foldl_or_init, hzero]
    dsimp only at hu hiff ⊢
    rw [hcons]
    rcases h c List.mem_cons_self with hc | hc <;> rw [hc]
    · rw [hzero]
      have hne : F c ≠ f := fun h => hf (h.symm.trans hc)
      exact ⟨hu, hiff.trans (by simp only [List.mem_cons, exists_eq_or_imp, hne, false_or])⟩
    · rcases hu with hu | hu <;> rw [hu] <;> simp [hc]

/-- Rows of a command that cannot fail. -/
theorem runRows_total (g : Acc → Flags → Nat → Acc × Flags) (a : Acc) (fl : Flags) (rows : List Nat) :
    runRows (fun a fl r => .ok (g a fl r)) a fl rows = .ok (rows.foldl (fun z r => g z.1 z.2 r) (a, fl)) := by
  induction rows generalizing a fl with
  | nil => rfl
  | cons r rest ih => exact ih _ _

/-! ACCNORM. -/

theorem normWords_eq (r n : Nat) (a : Acc) (fl : Flags) (cs : List Nat) :
    mapCols (fun _ w => .ok ((normWord w n).1, flagIf (normWord w n).2 flagNX)) a r fl cs = .ok (normWords a r n fl cs) := by
  induction cs generalizing a fl with
  | nil => rfl
  | cons c rest ih => exact ih _ _

/-- R228: the largest magnitude of a row's words. -/
def AccRow.big (x : AccRow) : Nat := (List.range 128).foldl (fun m c => max m (x.word c).toInt.natAbs) 0

/-- R228: the headroom that the largest magnitude leaves. -/
def headroomOf (big : Nat) : Nat := min 512 ((2 ^ 63 - big) / 2 ^ 54)

/-- R228: a row's words shifted by n. -/
def AccRow.shifted (x : AccRow) (n : Nat) : AccRow := x.puts (fun c => (normWord (x.word c) n).1) (List.range 128)

/-- R228: what ACCNORM makes of a row. -/
def AccRow.normed (x : AccRow) (n : Nat) : AccRow :=
  let y : AccRow := { x.shifted n with exp := x.exp + BitVec.ofNat 16 n }
  y.seal (headroomOf (x.shifted n).big)

/-- R228: the flags of a row that ACCNORM shifts. -/
def normFlags (x : AccRow) (n : Nat) : Flags := (List.range 128).foldl (fun fl c => fl ||| flagIf (normWord (x.word c) n).2 flagNX) 0

theorem normRow_eq (a : Acc) {r : Nat} (n : Nat) (hr : r < 64) :
    (normRow a r n).2 = normFlags (accRow a r) n ∧ setsRow a r ((accRow a r).normed n) (normRow a r n).1 := by
  obtain ⟨b, hb, hs⟩ := mapCols_ok (step := fun _ w => .ok ((normWord w n).1, flagIf (normWord w n).2 flagNX)) (a := a) (r := r)
    (v := fun c => (normWord ((accRow a r).word c) n).1) (w := fun c => flagIf (normWord ((accRow a r).word c) n).2 flagNX)
    List.nodup_range (fun c hc => List.mem_range.mp hc) (fun c hc => by rw [accRow_word a r (List.mem_range.mp hc)]) 0
  rw [normWords_eq] at hb
  have hpair := Except.ok.inj hb
  have hbig : (List.range 128).foldl (fun m c => max m (accWord b r c).toInt.natAbs) 0 = ((accRow a r).shifted n).big := by
    rw [AccRow.shifted, ← hs.same]
    exact List.foldl_ext _ _ _ (fun m c hc => by rw [accRow_word b r (List.mem_range.mp hc)])
  have he := setExp_sets b r (accExp a r + BitVec.ofNat 16 n)
  rw [hs.same] at he
  have hseal := seal_sets (headroomOf ((accRow a r).shifted n).big) hr (hs.trans he)
  rw [normRow]
  dsimp only
  rw [hpair]
  dsimp only
  rw [hbig]
  exact ⟨rfl, hseal⟩

/-- R96: whether a rounded quotient is inexact. -/
theorem roundShift_inexact (mode : RMode) (neg : Bool) (m s : Nat) : (roundShift mode neg m s).2 = true ↔ m % 2 ^ s ≠ 0 := by
  simp [roundShift]

theorem toInt_ofInt_of_bound {z : Int} (hlo : -9223372036854775808 ≤ z) (hhi : z < 9223372036854775808) : (BitVec.ofInt 64 z).toInt = z := by
  rw [BitVec.toInt_ofInt]
  exact Int.bmod_eq_of_le (by norm_num; omega) (by norm_num; omega)

theorem toInt_bound (w : BitVec 64) : -9223372036854775808 ≤ w.toInt ∧ w.toInt < 9223372036854775808 := by
  have h1 := BitVec.le_toInt w
  have h2 := BitVec.toInt_lt (x := w)
  norm_num at h1 h2
  exact ⟨h1, h2⟩

/-- R96: a rounded quotient is not greater than the magnitude. -/
theorem roundShift_le (mode : RMode) (neg : Bool) (m s : Nat) : (roundShift mode neg m s).1 ≤ m := by
  obtain ⟨up, hup, hnz, _⟩ := roundShift_up mode neg m s
  rw [hup]
  cases up with
  | false => exact Nat.div_le_self ..
  | true =>
    have hr := hnz rfl
    have hm : 0 < m := Nat.pos_of_ne_zero fun h => hr (by rw [h, Nat.zero_mod])
    have hs : s ≠ 0 := fun h => hr (by rw [h, pow_zero, Nat.mod_one])
    exact Nat.div_lt_self hm (Nat.one_lt_two_pow hs)

/-- R228: a shifted word is its quotient rounded to nearest, ties to even. -/
theorem normWord_off (w : BitVec 64) (n : Nat) :
    let m := w.toInt
    let q := (normWord w n).1.toInt
    2 * (m - q * 2 ^ n) ≤ 2 ^ n ∧ -(2 ^ n) ≤ 2 * (m - q * 2 ^ n) ∧ (q % 2 = 0 ∨ 2 * (m - q * 2 ^ n) < 2 ^ n ∧ -(2 ^ n) < 2 * (m - q * 2 ^ n)) := by
  intro m q
  obtain ⟨h0, hlo, hhi, _, _, _, hm0⟩ := roundShift_off 0 (decide (m < 0)) m.natAbs n
  obtain ⟨hl, hh, htie⟩ := hm0 rfl
  obtain ⟨hwl, hwh⟩ := toInt_bound w
  have hd : (1 : Int) ≤ 2 ^ n := Int.pow_pos (by decide)
  have hqeq : q = (BitVec.ofInt 64 (if m < 0 then -((roundShift 0 (decide (m < 0)) m.natAbs n).1 : Int) else (roundShift 0 (decide (m < 0)) m.natAbs n).1)).toInt := rfl
  have hle : ((roundShift 0 (decide (m < 0)) m.natAbs n).1 : Int) ≤ m.natAbs := Int.ofNat_le.mpr (roundShift_le ..)
  generalize ((roundShift 0 (decide (m < 0)) m.natAbs n).1 : Int) = z at *
  change -9223372036854775808 ≤ m at hwl
  change m < 9223372036854775808 at hwh
  by_cases hm : m < 0
  · rw [if_pos hm, toInt_ofInt_of_bound (by omega) (by omega)] at hqeq
    have hoff : m - q * 2 ^ n = -((m.natAbs : Int) - z * 2 ^ n) := by
      rw [hqeq, show (m.natAbs : Int) = -m by omega]
      ring
    rw [hoff]
    clear_value q m
    generalize (m.natAbs : Int) - z * 2 ^ n = o at *
    omega
  · rw [if_neg hm, toInt_ofInt_of_bound (by omega) (by omega)] at hqeq
    rw [hqeq, show m = m.natAbs by omega]
    clear_value q m
    generalize (m.natAbs : Int) - z * 2 ^ n = o at *
    omega

/-- R228: a word that a shift cuts. -/
theorem normWord_inexact (w : BitVec 64) (n : Nat) : (normWord w n).2 = true ↔ w.toInt % 2 ^ n ≠ 0 := by
  have hdvd : w.toInt % 2 ^ n = 0 ↔ w.toInt.natAbs % 2 ^ n = 0 := by
    rw [← Int.dvd_iff_emod_eq_zero, ← Nat.dvd_iff_mod_eq_zero, ← Int.natCast_dvd]
    simp
  rw [Ne, hdvd]
  exact roundShift_inexact 0 (decide (w.toInt < 0)) w.toInt.natAbs n

/-- A maximum of numbers is one of them. -/
theorem foldl_max {f : Nat → Nat} {l : List Nat} (h : l ≠ []) : ∃ c ∈ l, (∀ d ∈ l, f d ≤ f c) ∧ l.foldl (fun m c => max m (f c)) 0 = f c := by
  induction l using List.reverseRecOn with
  | nil => exact absurd rfl h
  | append_singleton l c ih =>
    rw [List.foldl_append, List.foldl_cons, List.foldl_nil]
    by_cases hl : l = []
    · subst hl
      exact ⟨c, by simp, by simp, by simp⟩
    · obtain ⟨b, hb, hmax, heq⟩ := ih hl
      rw [heq]
      rcases Nat.le_total (f b) (f c) with hbc | hbc
      · refine ⟨c, by simp, fun d hd => ?_, Nat.max_eq_right hbc⟩
        rcases List.mem_append.mp hd with hd | hd
        · exact (hmax d hd).trans hbc
        · rw [List.mem_singleton.mp hd]
      · refine ⟨b, List.mem_append_left _ hb, fun d hd => ?_, Nat.max_eq_left hbc⟩
        rcases List.mem_append.mp hd with hd | hd
        · exact hmax d hd
        · rwa [List.mem_singleton.mp hd]

/-- R228: the largest magnitude of a row is that of one of its words. -/
theorem AccRow.big_eq (x : AccRow) : ∃ c < 128, (∀ d < 128, (x.word d).toInt.natAbs ≤ (x.word c).toInt.natAbs) ∧ x.big = (x.word c).toInt.natAbs := by
  obtain ⟨c, hc, hmax, hbig⟩ := foldl_max (f := fun c => (x.word c).toInt.natAbs) (l := List.range 128) (by decide)
  exact ⟨c, List.mem_range.mp hc, fun d hd => hmax d (List.mem_range.mpr hd), hbig⟩

theorem exp_add {e : BitVec 16} {n : Nat} (hn : n < 64) (h : e.toInt + n ≤ 32767) : (e + BitVec.ofNat 16 n).toInt = e.toInt + n := by
  have h1 := BitVec.le_toInt e
  norm_num at h1
  have hnat : (BitVec.ofNat 16 n).toInt = n := by
    rw [BitVec.toInt_eq_toNat_of_lt (by rw [BitVec.toNat_ofNat]; omega), BitVec.toNat_ofNat, Nat.mod_eq_of_lt (by omega)]
  rw [BitVec.toInt_add, hnat]
  exact Int.bmod_eq_of_le (by norm_num; omega) (by norm_num; omega)

section
variable {x : ArrayState} {k n : Nat} {p : Plane} (hrows : p.row0 + p.mrows ≤ 64)
include hrows

theorem accnorm_shape (hi : (accAt x k).integer = false) :
    firstShape [(decide (64 < p.row0 + p.mrows), 1), ((accAt x k).integer, 5)] = none := by
  simp [Nat.not_lt.mpr hrows, hi]

/-- R224, R228: a row whose CK disagrees fails ACCNORM. -/
theorem accnorm_fails_check (hi : (accAt x k).integer = false) {r : Nat} (hr : FirstRow p (fun q => checkOk (accAt x k) q = false) r) :
    Fails x (.accnorm k n p) 0x3A 0 r 0 := by
  simp only [Fails, runArray, runAccnorm, accnorm_shape hrows hi, badCheck_first hr]

/-- R228: a row whose exponent would leave its range fails ACCNORM. -/
theorem accnorm_fails_exp (hi : (accAt x k).integer = false) (hck : ∀ r, InRows p r → checkOk (accAt x k) r = true) {r : Nat}
    (hr : FirstRow p (fun q => 32767 < (accExp (accAt x k) q).toInt + n) r) : Fails x (.accnorm k n p) 0x3B 7 r 0 := by
  have hfind : (windowRows p).find? (fun r => decide (32767 < (accExp (accAt x k) r).toInt + n)) = some r :=
    find_windowRows_first (fun q => decide_eq_true_iff) hr
  simp only [Fails, runArray, runAccnorm, accnorm_shape hrows hi, badCheck_none hck, hfind]

/-- R228: ACCNORM rounds the words of its rows to nearest, ties to even. -/
theorem accnorm_rounds (hk : k < 8) (hn : n < 64) (hi : (accAt x k).integer = false) (hck : ∀ r, InRows p r → checkOk (accAt x k) r = true)
    (hexp : ∀ r, InRows p r → (accExp (accAt x k) r).toInt + n ≤ 32767) :
    let m := fun (r c : Nat) => (accWord (accAt x k) r c).toInt
    ∃ y fl, runArray x [] (.accnorm k n p) = .ok (y, fl, []) ∧ ChangesRows x y k p ∧
      (fl = 0 ∨ fl = flagNX) ∧ (fl = flagNX ↔ ∃ r c, InRows p r ∧ c < 128 ∧ m r c % 2 ^ n ≠ 0) ∧
      ∀ r, InRows p r → (accExp (accAt y k) r).toInt = (accExp (accAt x k) r).toInt + n ∧ checkOk (accAt y k) r = true ∧
        (∀ c < 128, let q := (accWord (accAt y k) r c).toInt
          2 * (m r c - q * 2 ^ n) ≤ 2 ^ n ∧ -(2 ^ n) ≤ 2 * (m r c - q * 2 ^ n) ∧ (q % 2 = 0 ∨ 2 * (m r c - q * 2 ^ n) < 2 ^ n ∧ -(2 ^ n) < 2 * (m r c - q * 2 ^ n))) ∧
        ∃ c < 128, (∀ d < 128, (accWord (accAt y k) r d).toInt.natAbs ≤ (accWord (accAt y k) r c).toInt.natAbs) ∧
          accHead (accAt y k) r = headroomOf (accWord (accAt y k) r c).toInt.natAbs := by
  intro m
  obtain ⟨B, hB, hrow⟩ := runRows_ok (step := fun a fl r => .ok ((normRow a r n).1, fl ||| (normRow a r n).2)) (A := accAt x k) (windowRows_nodup p)
    (G := fun r => (accRow (accAt x k) r).normed n) (F := fun r => normFlags (accRow (accAt x k) r) n)
    (fun r hr a fl ha => by
      obtain ⟨hfl, hs⟩ := normRow_eq a n (r := r) (by have := (mem_windowRows.mp hr).2; omega)
      rw [ha] at hfl hs
      exact ⟨_, by rw [hfl], hs⟩) 0
  rw [runRows_total (fun a fl r => ((normRow a r n).1, fl ||| (normRow a r n).2))] at hB
  have hNX : flagNX ≠ 0 := by decide
  have hone : ∀ b, flagIf b flagNX = 0 ∨ flagIf b flagNX = flagNX := by decide
  have hset : ∀ b, flagIf b flagNX = flagNX ↔ b = true := by decide
  have hflags := fun r => union_one hNX (F := fun c => flagIf (normWord ((accRow (accAt x k) r).word c) n).2 flagNX) (l := List.range 128) (fun c _ => hone _)
  obtain ⟨hfl, hiff⟩ := union_one hNX (F := fun r => normFlags (accRow (accAt x k) r) n) (l := windowRows p) (fun r _ => (hflags r).1)
  refine ⟨putAcc x k B, _, ?_, changesRows_putAcc hk hrow (fun _ _ => rfl), hfl, hiff.trans ?_, fun r hr => ?_⟩
  · have hfind : (windowRows p).find? (fun r => decide (32767 < (accExp (accAt x k) r).toInt + n)) = none :=
      find_windowRows_none (P := fun r => 32767 < (accExp (accAt x k) r).toInt + n) (fun q => decide_eq_true_iff) (fun r hr => Int.not_lt.mpr (hexp r hr))
    have hpair := Except.ok.inj hB
    simp only [runArray, runAccnorm, accnorm_shape hrows hi, badCheck_none hck, hfind]
    rw [hpair]
  · simp only [mem_windowRows]
    constructor
    · rintro ⟨r, hr, h⟩
      obtain ⟨c, hc, hcf⟩ := (hflags r).2.mp h
      rw [accRow_word _ _ (List.mem_range.mp hc), hset, normWord_inexact] at hcf
      exact ⟨r, c, hr, List.mem_range.mp hc, hcf⟩
    · rintro ⟨r, c, hr, hc, h⟩
      refine ⟨r, hr, (hflags r).2.mpr ⟨c, List.mem_range.mpr hc, ?_⟩⟩
      rw [accRow_word _ _ hc, hset, normWord_inexact]
      exact h
  · obtain ⟨hh, he, hc, hwd⟩ := row_of_putAcc hk hrow hr
    have hword : ∀ c < 128, accWord (accAt (putAcc x k B) k) r c = (normWord (accWord (accAt x k) r c) n).1 := fun c hc => by
      rw [hwd c hc, ← accRow_word (accAt x k) r hc]
      exact if_pos (List.mem_range.mpr hc)
    refine ⟨?_, hc.mpr (AccRow.checked_seal _ _), fun c hc => ?_, ?_⟩
    · rw [he]
      exact exp_add hn (hexp r hr)
    · rw [hword c hc]
      exact normWord_off ..
    · obtain ⟨c, hc, hmax, hbig⟩ := ((accRow (accAt x k) r).shifted n).big_eq
      have hshift : ∀ d < 128, accWord (accAt (putAcc x k B) k) r d = ((accRow (accAt x k) r).shifted n).word d := fun d hd => hwd d hd
      refine ⟨c, hc, fun d hd => ?_, ?_⟩
      · rw [hshift c hc, hshift d hd]
        exact hmax d hd
      · rw [hshift c hc, ← hbig, hh]
        rfl

end

/-! FOLD. -/

/-- R230, R231: an integer brought into INT32: clamped where AMODE says so, and otherwise wrapped. -/
def wordInt32 (amode : Nat) (z : Int) : Int := if amode % 2 = 1 then min (2 ^ 31 - 1) (max (-(2 ^ 31)) z) else (z + 2 ^ 31) % 2 ^ 32 - 2 ^ 31

/-- R230: an integer is cut when it is clamped. -/
def CutInt (amode : Nat) (z : Int) : Prop := amode % 2 = 1 ∧ wordInt32 amode z ≠ z

theorem decodeInt_encodeInt (z : Int) : decodeInt 8 (encodeInt 8 z) = (z + 2147483648) % 4294967296 - 2147483648 := by
  have hcode : ((encodeInt 8 z : Nat) : Int) = z % 4294967296 := Int.toNat_of_nonneg (Int.emod_nonneg _ (by decide))
  have hdec : decodeInt 8 (encodeInt 8 z) = if 2147483648 ≤ encodeInt 8 z then (encodeInt 8 z : Int) - 4294967296 else encodeInt 8 z := by
    unfold decodeInt
    by_cases h : 2147483648 ≤ encodeInt 8 z <;> simp [isInt, fmtWidth, h]
  rw [hdec]
  split <;> omega

/-- R230: an integer in INT32, and OF where it is cut. -/
theorem toInt32_eq (amode : Nat) (z : Int) : (toInt32 (amode % 2 == 1) z).1 = wordInt32 amode z ∧
    ((toInt32 (amode % 2 == 1) z).2 = 0 ∨ (toInt32 (amode % 2 == 1) z).2 = flagOF) ∧ ((toInt32 (amode % 2 == 1) z).2 = flagOF ↔ CutInt amode z) := by
  have hne : (0 : Flags) ≠ flagOF := by decide
  by_cases h : amode % 2 = 1
  · have hlo : intLo 8 = -2147483648 := by decide
    have hhi : intHi 8 = 2147483647 := by decide
    have hmin : decodeInt 8 (encodeInt 8 (-2147483648)) = -2147483648 := by decide
    have hmax : decodeInt 8 (encodeInt 8 2147483647) = 2147483647 := by decide
    have hw : wordInt32 amode z = min 2147483647 (max (-2147483648) z) := by rw [wordInt32, if_pos h]; norm_num
    rw [toInt32, if_pos (beq_iff_eq.mpr h), satInt, hlo, hhi, CutInt, hw]
    split
    · exact ⟨by dsimp only; rw [hmin]; omega, .inr rfl, by simp [h]; omega⟩
    · split
      · exact ⟨by dsimp only; rw [hmax]; omega, .inr rfl, by simp [h]; omega⟩
      · exact ⟨by dsimp only; rw [decodeInt_encodeInt]; omega, .inl rfl, iff_of_false hne (fun hc => hc.2 (by omega))⟩
  · have hb : (amode % 2 == 1) = false := beq_eq_false_iff_ne.mpr h
    rw [hb, toInt32, if_neg (by decide), decodeInt_encodeInt, CutInt, wordInt32, if_neg h]
    exact ⟨by norm_num, .inl rfl, iff_of_false hne (fun hc => h hc.1)⟩

theorem foldWords_eq (r : Nat) (sat : Bool) (a : Acc) (fl : Flags) (cs : List Nat) :
    mapCols (fun _ w => .ok (toResidue (toInt32 sat (fromResidue w)).1, (toInt32 sat (fromResidue w)).2)) a r fl cs = .ok (foldWords a r sat fl cs) := by
  induction cs generalizing a fl with
  | nil => rfl
  | cons c rest ih => exact ih _ _

/-- R230: what FOLD makes of a row. -/
def AccRow.folded (x : AccRow) (amode : Nat) : AccRow :=
  (x.puts (fun c => toResidue (wordInt32 amode (fromResidue (x.word c)))) (List.range 128)).seal 65024

/-- R230: the flags of a row that FOLD brings into INT32. -/
def foldFlags (x : AccRow) (amode : Nat) : Flags :=
  (List.range 128).foldl (fun fl c => fl ||| (toInt32 (amode % 2 == 1) (fromResidue (x.word c))).2) 0

/-- R230: one row of FOLD. -/
def foldRow (p : Plane) (a : Acc) (fl : Flags) (r : Nat) : Acc × Flags :=
  let w := foldWords a r (p.amode % 2 == 1) fl (List.range 128)
  (setCheck { w.1 with hg := vput w.1.hg r 65024 } r, w.2)

theorem foldRow_eq (p : Plane) (a : Acc) (fl : Flags) {r : Nat} (hr : r < 64) :
    (foldRow p a fl r).2 = fl ||| foldFlags (accRow a r) p.amode ∧ setsRow a r ((accRow a r).folded p.amode) (foldRow p a fl r).1 := by
  obtain ⟨b, hb, hs⟩ := mapCols_ok
    (step := fun _ w => .ok (toResidue (toInt32 (p.amode % 2 == 1) (fromResidue w)).1, (toInt32 (p.amode % 2 == 1) (fromResidue w)).2)) (a := a) (r := r)
    (v := fun c => toResidue (wordInt32 p.amode (fromResidue ((accRow a r).word c))))
    (w := fun c => (toInt32 (p.amode % 2 == 1) (fromResidue ((accRow a r).word c))).2)
    List.nodup_range (fun c hc => List.mem_range.mp hc) (fun c hc => by rw [accRow_word a r (List.mem_range.mp hc), (toInt32_eq ..).1]) fl
  rw [foldWords_eq] at hb
  have hpair := Except.ok.inj hb
  rw [foldRow, hpair]
  refine ⟨?_, seal_sets 65024 hr hs⟩
  rw [foldFlags, ← foldl_or_init]

section
variable {x : ArrayState} {k : Nat} {p : Plane} (hrows : p.row0 + p.mrows ≤ 64) (hi : (accAt x k).integer = true)
include hrows hi

theorem fold_shape : firstShape [(decide (64 < p.row0 + p.mrows), 1), (!(accAt x k).integer, 5)] = none := by
  simp [Nat.not_lt.mpr hrows, hi]

/-- R224, R230: a row whose CK disagrees fails FOLD. -/
theorem fold_fails_check {r : Nat} (hr : FirstRow p (fun q => checkOk (accAt x k) q = false) r) : Fails x (.fold k p) 0x3A 0 r 0 := by
  simp only [Fails, runArray, runFold, fold_shape hrows hi, badCheck_first hr]

/-- R230: FOLD brings the words of its rows into INT32. -/
theorem fold_int32 (hk : k < 8) (hck : ∀ r, InRows p r → checkOk (accAt x k) r = true) :
    ∃ y fl, runArray x [] (.fold k p) = .ok (y, fl, []) ∧ ChangesRows x y k p ∧
      (fl = 0 ∨ fl = flagOF) ∧ (fl = flagOF ↔ ∃ r c, InRows p r ∧ c < 128 ∧ CutInt p.amode (fromResidue (accWord (accAt x k) r c))) ∧
      ∀ r, InRows p r → accHead (accAt y k) r = 65024 ∧ accExp (accAt y k) r = accExp (accAt x k) r ∧ checkOk (accAt y k) r = true ∧
        ∀ c < 128, accWord (accAt y k) r c = toResidue (wordInt32 p.amode (fromResidue (accWord (accAt x k) r c))) := by
  obtain ⟨B, hB, hrow⟩ := runRows_ok (step := fun a fl r => .ok (foldRow p a fl r)) (A := accAt x k) (windowRows_nodup p)
    (G := fun r => (accRow (accAt x k) r).folded p.amode) (F := fun r => foldFlags (accRow (accAt x k) r) p.amode)
    (fun r hr a fl ha => by
      obtain ⟨hfl, hs⟩ := foldRow_eq p a fl (r := r) (by have := (mem_windowRows.mp hr).2; omega)
      rw [ha] at hfl hs
      exact ⟨_, congrArg Except.ok (Prod.ext rfl hfl), hs⟩) 0
  rw [runRows_total (foldRow p)] at hB
  have hOF : flagOF ≠ 0 := by decide
  have hflags := fun r => union_one hOF (F := fun c => (toInt32 (p.amode % 2 == 1) (fromResidue ((accRow (accAt x k) r).word c))).2) (l := List.range 128)
    (fun c _ => (toInt32_eq ..).2.1)
  obtain ⟨hfl, hiff⟩ := union_one hOF (F := fun r => foldFlags (accRow (accAt x k) r) p.amode) (l := windowRows p) (fun r _ => (hflags r).1)
  refine ⟨putAcc x k B, _, ?_, changesRows_putAcc hk hrow (fun _ _ => rfl), hfl, hiff.trans ?_, fun r hr => ?_⟩
  · have hpair : (windowRows p).foldl (fun (z : Acc × Flags) r =>
        let w := foldWords z.1 r (p.amode % 2 == 1) z.2 (List.range 128)
        (setCheck { w.1 with hg := vput w.1.hg r 65024 } r, w.2)) (accAt x k, 0) = _ := Except.ok.inj hB
    simp only [runArray, runFold, fold_shape hrows hi, badCheck_none hck]
    rw [hpair]
  · simp only [mem_windowRows]
    constructor
    · rintro ⟨r, hr, h⟩
      obtain ⟨c, hc, hcf⟩ := (hflags r).2.mp h
      rw [accRow_word _ _ (List.mem_range.mp hc), (toInt32_eq ..).2.2] at hcf
      exact ⟨r, c, hr, List.mem_range.mp hc, hcf⟩
    · rintro ⟨r, c, hr, hc, h⟩
      refine ⟨r, hr, (hflags r).2.mpr ⟨c, List.mem_range.mpr hc, ?_⟩⟩
      rw [accRow_word _ _ hc, (toInt32_eq ..).2.2]
      exact h
  · obtain ⟨hh, he, hc, hwd⟩ := row_of_putAcc hk hrow hr
    refine ⟨hh, he, hc.mpr (AccRow.checked_seal _ _), fun c hc => ?_⟩
    rw [hwd c hc, ← accRow_word (accAt x k) r hc]
    exact if_pos (List.mem_range.mpr hc)

end

end Sys2Proof.Machine

/-! ACCDRAIN (R231). -/

namespace Sys2Proof.Machine

/-! The elements of a tile row that a drain writes. -/

/-- R231: elements that a list does not name stand. -/
theorem elemAt_putCodes_other {fmt e : Nat} {l : List (Nat × Nat)} (he : e < fmtCount fmt) (hl : ∀ x ∈ l, x.1 < fmtCount fmt) (h : ∀ x ∈ l, x.1 ≠ e)
    (row : Row) : elemAt fmt (putCodes fmt l row) e = elemAt fmt row e := by
  induction l generalizing row with
  | nil => rfl
  | cons x rest ih =>
    have hrest := ih (fun y hy => hl y (List.mem_cons_of_mem _ hy)) (fun y hy => h y (List.mem_cons_of_mem _ hy)) (putElem fmt row x.1 x.2)
    refine hrest.trans ?_
    rw [putElem, elemAt_rowPut fmt row x.1 x.2 e (hl x List.mem_cons_self) he, if_neg (Ne.symm (h x List.mem_cons_self))]

/-- R231: the element that a list names takes its code. -/
theorem elemAt_putCodes_named {fmt e v : Nat} {l : List (Nat × Nat)} (he : e < fmtCount fmt) (hl : ∀ x ∈ l, x.1 < fmtCount fmt) (hv : ∀ x ∈ l, x.1 = e → x.2 = v)
    (h : ∃ x ∈ l, x.1 = e) (row : Row) : elemAt fmt (putCodes fmt l row) e = v % 2 ^ fmtWidth fmt := by
  induction l generalizing row with
  | nil => obtain ⟨x, hx, _⟩ := h; cases hx
  | cons x rest ih =>
    have hl' := fun y hy => hl y (List.mem_cons_of_mem x hy)
    by_cases hrest : ∃ y ∈ rest, y.1 = e
    · exact ih hl' (fun y hy => hv y (List.mem_cons_of_mem _ hy)) hrest _
    · have hx : x.1 = e := by
        obtain ⟨y, hy, hye⟩ := h
        rcases List.mem_cons.mp hy with rfl | hy
        · exact hye
        · exact absurd ⟨y, hy, hye⟩ hrest
      refine (elemAt_putCodes_other he hl' (fun y hy hye => hrest ⟨y, hy, hye⟩) (putElem fmt row x.1 x.2)).trans ?_
      rw [putElem, elemAt_rowPut fmt row x.1 x.2 e (hl x List.mem_cons_self) he, if_pos hx.symm, hv x List.mem_cons_self hx]

/-- R231: column c is in the half that is drained. -/
def InHalf (fmt : Nat) (hi : Bool) (c : Nat) : Prop := fmtWidth fmt = 32 → (c / 64 = 1 ↔ hi = true)

/-- R231: the column that element e of the tile row takes. -/
def drainCol (fmt : Nat) (hi : Bool) (e : Nat) : Nat := if fmtWidth fmt = 32 ∧ hi = true then 64 + e else e

theorem fmtCount_of_width {fmt : Nat} : (fmtWidth fmt = 32 → fmtCount fmt = 64) ∧ (fmtWidth fmt ≠ 32 → 128 ≤ fmtCount fmt) := by
  unfold fmtCount fmtStride fmtWidth
  split <;> decide

/-- R231: where a column of the half goes. -/
theorem drainPlace_some {fmt : Nat} {hi : Bool} {c : Nat} (hc : c < 128) :
    (InHalf fmt hi c → ∃ e < fmtCount fmt, drainPlace fmt hi c = some e ∧ drainCol fmt hi e = c) ∧ (¬ InHalf fmt hi c → drainPlace fmt hi c = none) := by
  obtain ⟨h32, hother⟩ := fmtCount_of_width (fmt := fmt)
  unfold InHalf drainPlace drainCol
  by_cases hw : fmtWidth fmt = 32
  · have hbeq : ((c / 64 == 1) == hi) = true ↔ (c / 64 = 1 ↔ hi = true) := by
      by_cases h : c / 64 = 1 <;> cases hi <;> simp [h]
    simp only [hw, true_implies, if_true, true_and]
    refine ⟨fun h => ⟨c % 64, by rw [h32 hw]; omega, if_pos (hbeq.mpr h), ?_⟩, fun h => if_neg (mt hbeq.mp h)⟩
    cases hi
    · simp only [Bool.false_eq_true, iff_false, if_false] at h ⊢
      omega
    · simp only [iff_true, if_true] at h ⊢
      omega
  · rw [if_neg hw]
    exact ⟨fun _ => ⟨c, by have := hother hw; omega, rfl, if_neg fun h => hw h.1⟩, fun h => absurd (fun hw' => absurd hw' hw) h⟩

/-- R231: the place of an element and its column. -/
theorem drainPlace_iff {fmt : Nat} {hi : Bool} {c e : Nat} (hc : c < 128) :
    drainPlace fmt hi c = some e ↔ InHalf fmt hi c ∧ drainCol fmt hi e = c := by
  obtain ⟨hin, hout⟩ := drainPlace_some (fmt := fmt) (hi := hi) hc
  constructor
  · intro h
    by_cases hh : InHalf fmt hi c
    · obtain ⟨d, _, hd, hcol⟩ := hin hh
      rw [h] at hd
      rw [Option.some.inj hd]
      exact ⟨hh, hcol⟩
    · rw [hout hh] at h
      cases h
  · rintro ⟨hh, hcol⟩
    obtain ⟨d, _, hd, hcol'⟩ := hin hh
    have hde : d = e := by
      rw [← hcol'] at hcol
      unfold drainCol at hcol
      split at hcol <;> omega
    rw [hd, hde]

section
variable {a : Acc} {p : Plane} {fmt : Nat} {ps : Option (List Row)} {hi : Bool} {mode : RMode} {r : Nat}

theorem mem_drainCols {x : Nat × Nat} {cs : List Nat} : x ∈ (drainCols a p fmt ps hi mode r cs).1 ↔
    ∃ c ∈ cs, drainPlace fmt hi c = some x.1 ∧ (drainCode a p fmt ps mode r c).1 = x.2 := by
  induction cs with
  | nil => simp [drainCols]
  | cons c rest ih =>
    rw [drainCols]
    cases hp : drainPlace fmt hi c with
    | none => simp [hp, ih]
    | some k =>
      simp only [List.mem_cons, ih, exists_eq_or_imp, hp, Option.some.injEq]
      exact or_congr ⟨fun h => h ▸ ⟨rfl, rfl⟩, fun ⟨h1, h2⟩ => Prod.ext h1.symm h2.symm⟩ Iff.rfl

theorem drainCols_flags (i : Nat) (cs : List Nat) : (drainCols a p fmt ps hi mode r cs).2.getLsbD i = true ↔
    ∃ c ∈ cs, drainPlace fmt hi c ≠ none ∧ (drainCode a p fmt ps mode r c).2.getLsbD i = true := by
  induction cs with
  | nil => simp [drainCols]
  | cons c rest ih =>
    rw [drainCols]
    cases hp : drainPlace fmt hi c with
    | none => simpa [hp] using ih
    | some k => simp [hp, ih]

end

/-! The code of a word. -/

/-- R231: the code of a parameter of a drain, from row and place of its tile. -/
def drainCodeAt (ps : Option (List Row)) (row place plain : Nat) : Nat :=
  match ps with
  | none => plain
  | some l => elemAt 8 (l.getD row 0) place

/-- R231: SH of a column. -/
def drainShift (ps : Option (List Row)) (c : Nat) : Int :=
  match ps with
  | none => 0
  | some l => decodeInt 9 (elemAt 9 (l.getD 2 0) c)

theorem drainParam_eq (integer : Bool) (ps : Option (List Row)) (c : Nat) : drainParam integer ps c =
    { mul := drainCodeAt ps (c / 64) (c % 64) (if integer then 1 else 0x3F800000), sh := drainShift ps c, bias := drainCodeAt ps (3 + c / 64) (c % 64) 0 } := by
  cases ps <;> rfl

/-- R231: the code of the word of row r, column c: the word scaled, biased and rounded once. -/
def drainValue (a : Acc) (p : Plane) (fmt : Nat) (ps : Option (List Row)) (mode : RMode) (r c : Nat) : Nat × Flags :=
  if a.integer then
    let s := fromResidue (accWord a r c)
    let y := scaleInt mode (wordInt32 p.amode s * decodeInt 8 (drainCodeAt ps (c / 64) (c % 64) (if a.integer then 1 else 0x3F800000))) (drainShift ps c) +
      decodeInt 8 (drainCodeAt ps (3 + c / 64) (c % 64) 0)
    if fmt < 8 then roundTo fmt mode (valOfInt y) else satInt fmt y
  else
    let m := (accWord a r c).toInt
    let y := fmaVal mode (.fin (decide (m < 0)) m.natAbs ((accExp a r).toInt - drainShift ps c))
      (decodeFloat 0 (drainCodeAt ps (c / 64) (c % 64) (if a.integer then 1 else 0x3F800000))) (decodeFloat 0 (drainCodeAt ps (3 + c / 64) (c % 64) 0))
    if fmt < 8 then roundTo fmt mode y else roundToInt fmt mode y

/-- R231: what the word of row r, column c drains to. -/
theorem drainCode_eq (a : Acc) (p : Plane) (fmt : Nat) (ps : Option (List Row)) (mode : RMode) (r c : Nat) :
    (drainCode a p fmt ps mode r c).1 = (drainValue a p fmt ps mode r c).1 ∧ ∀ i, (drainCode a p fmt ps mode r c).2.getLsbD i = true ↔
      (drainValue a p fmt ps mode r c).2.getLsbD i = true ∨ i = 2 ∧ a.integer = true ∧ CutInt p.amode (fromResidue (accWord a r c)) := by
  have hfloat : ∀ {α : Type} (u v : α), (if isFloat fmt then u else v) = if fmt < 8 then u else v := fun u v => if_congr decide_eq_true_iff rfl rfl
  unfold drainCode drainValue
  simp only [drainParam_eq, hfloat]
  by_cases hi : a.integer = true
  · obtain ⟨hval, hor, hcut⟩ := toInt32_eq p.amode (fromResidue (accWord a r c))
    simp only [hi, if_true, hval, true_and]
    intro i
    rw [BitVec.getLsbD_or, Bool.or_eq_true, or_comm, ← hcut]
    refine or_congr Iff.rfl ?_
    rcases hor with h | h <;> rw [h]
    · have hne : ¬ (0 : Flags) = flagOF := by decide
      rw [iff_false_right (fun h => hne h.2)]
      simp
    · simp [(getLsbD_flags i).2.1]
  · simp [hi]

/-- R231: the elements that a row of a drain gives its tile row. -/
theorem drainCols_elem {p : Plane} {fmt : Nat} {ps : Option (List Row)} {hi : Bool} {mode : BitVec 2} (hcols : p.col0 + p.ncols ≤ 128)
    (a : Acc) (r : Nat) (row : Row) {e : Nat} (he : e < fmtCount fmt) :
    let cs := (drainCols a p fmt ps hi mode r (windowCols p)).1
    let c := drainCol fmt hi e
    (InCols p c ∧ InHalf fmt hi c → elemAt fmt (putCodes fmt cs row) e = (drainValue a p fmt ps mode r c).1 % 2 ^ fmtWidth fmt) ∧
      (¬ (InCols p c ∧ InHalf fmt hi c) → elemAt fmt (putCodes fmt cs row) e = elemAt fmt row e) := by
  intro cs c
  have hlt : ∀ {d}, d ∈ windowCols p → d < 128 := fun hd => by have := (mem_windowCols.mp hd).2; omega
  have hplace : ∀ x ∈ cs, x.1 < fmtCount fmt := fun x hx => by
    obtain ⟨d, hd, hp, _⟩ := mem_drainCols.mp hx
    by_cases hh : InHalf fmt hi d
    · obtain ⟨e', he', hp', _⟩ := (drainPlace_some (hlt hd)).1 hh
      rw [hp] at hp'
      exact Option.some.inj hp' ▸ he'
    · rw [(drainPlace_some (hlt hd)).2 hh] at hp
      cases hp
  have hnamed : ∀ x ∈ cs, x.1 = e → InCols p c ∧ InHalf fmt hi c ∧ (drainValue a p fmt ps mode r c).1 = x.2 := fun x hx hxe => by
    obtain ⟨d, hd, hp, hv⟩ := mem_drainCols.mp hx
    rw [hxe, drainPlace_iff (hlt hd)] at hp
    rw [show c = d from hp.2]
    exact ⟨mem_windowCols.mp hd, hp.1, (drainCode_eq ..).1 ▸ hv⟩
  refine ⟨fun ⟨hc, hh⟩ => ?_, fun h => elemAt_putCodes_other he hplace (fun x hx hxe => ?_) row⟩
  · have hmem : (e, (drainCode a p fmt ps mode r c).1) ∈ cs :=
      mem_drainCols.mpr ⟨c, mem_windowCols.mpr hc, (drainPlace_iff (hlt (mem_windowCols.mpr hc))).mpr ⟨hh, rfl⟩, rfl⟩
    exact elemAt_putCodes_named he hplace (fun x hx hxe => (hnamed x hx hxe).2.2.symm) ⟨_, hmem, rfl⟩ row
  · obtain ⟨h1, h2, _⟩ := hnamed x hx hxe
    exact h ⟨h1, h2⟩

/-! The rows that a drain clears. -/

/-- R231: a row that is cleared. -/
def AccRow.cleared (x : AccRow) : AccRow :=
  { integer := x.integer, word := fun _ => 0, head := if x.integer then 65536 else 512, exp := x.exp, ck := 0 }

theorem clearRow_sets (a : Acc) {r : Nat} (hr : r < 64) : setsRow a r (accRow a r).cleared (clearRow a r) := by
  have hword : ∀ q c, c < 128 → accWord (clearRow a r) q c = if q = r then 0 else accWord a q c := fun q c hc => by
    have hdiv : (128 * q + c) / 128 = q := by omega
    rw [accWord, clearRow]
    dsimp only
    rw [tget_filter 0 a.words (fun n => decide (n / 128 ≠ r)), hdiv]
    by_cases hq : q = r <;> simp [hq, accWord]
  intro q
  by_cases hq : q = r
  · subst hq
    rw [if_pos rfl]
    ext c
    · rfl
    · by_cases hc : c < 128 <;> simp [accRow, hc, hword, AccRow.cleared]
    · simp [accRow, accHead, clearRow, AccRow.cleared, hr]
    · rfl
    · simp [accRow, clearRow, AccRow.cleared, tget_tdel]
  · rw [if_neg hq]
    ext c
    · rfl
    · by_cases hc : c < 128 <;> simp [accRow, hc, hword, hq]
    · simp [accRow, accHead, clearRow, vget_vput_ne, hq]
    · rfl
    · simp [accRow, clearRow, tget_tdel, hq]

/-- R231: the rows that a drain clears. -/
theorem clearRows {rows : List Nat} (hn : rows.Nodup) (hr : ∀ r ∈ rows, r < 64) (a : Acc) (q : Nat) :
    accRow (rows.foldl clearRow a) q = if q ∈ rows then (accRow a q).cleared else accRow a q := by
  induction rows generalizing a with
  | nil => simp
  | cons r rest ih =>
    obtain ⟨hnr, hrest⟩ := List.nodup_cons.mp hn
    have hs := clearRow_sets a (hr r List.mem_cons_self)
    rw [List.foldl_cons, ih hrest (fun r h => hr r (List.mem_cons_of_mem _ h)), hs q]
    by_cases hq : q = r
    · simp [hq, hnr]
    · simp [hq]

section
variable {x : ArrayState} {k t : Nat} {p : Plane} {fmt : Nat} {ps : Option (List Row)} {hi clr : Bool} {mode : BitVec 2}
  (hrows : p.row0 + p.mrows ≤ 64) (hcols : p.col0 + p.ncols ≤ 128)
include hrows hcols

theorem drain_shape : firstShape [(decide (64 < p.row0 + p.mrows), 1), (decide (128 < p.col0 + p.ncols), 2)] = none := by
  simp [Nat.not_lt.mpr hrows, Nat.not_lt.mpr hcols]

/-- R224, R231: a row whose CK disagrees fails ACCDRAIN. -/
theorem accdrain_fails_check {r : Nat} (hr : FirstRow p (fun q => checkOk (accAt x k) q = false) r) :
    Fails x (.accdrain k t p fmt ps hi clr mode) 0x3A 0 r 0 := by
  simp only [Fails, runArray, runDrain, drain_shape hrows hcols, badCheck_first hr]

theorem accdrain_runs (hck : ∀ r, InRows p r → checkOk (accAt x k) r = true) : runArray x [] (.accdrain k t p fmt ps hi clr mode) =
    .ok (putAcc x k (if clr then (windowRows p).foldl clearRow (accAt x k) else accAt x k),
      (windowRows p).foldl (fun fl r => fl ||| (drainCols (accAt x k) p fmt ps hi mode r (windowCols p)).2) 0,
      (windowRows p).map (fun r => (r, (drainCols (accAt x k) p fmt ps hi mode r (windowCols p)).1))) := by
  simp only [runArray, runDrain, drain_shape hrows hcols, badCheck_none hck, List.foldl_map, List.map_map]
  rfl

/-- R231: ACCDRAIN gives the codes of its words, and clears the words where it is told to. -/
theorem accdrain_drains (hk : k < 8) (hck : ∀ r, InRows p r → checkOk (accAt x k) r = true) :
    ∃ y fl l, runArray x [] (.accdrain k t p fmt ps hi clr mode) = .ok (y, fl, l) ∧ ChangesRows x y k p ∧
      l.map Prod.fst = (List.range p.mrows).map (fun j => p.row0 + j) ∧
      (∀ (r : Nat) (cs : List (Nat × Nat)) (row : Row) (e : Nat), (r, cs) ∈ l → e < fmtCount fmt →
        let c := drainCol fmt hi e
        (InCols p c ∧ InHalf fmt hi c → elemAt fmt (putCodes fmt cs row) e = (drainValue (accAt x k) p fmt ps mode r c).1 % 2 ^ fmtWidth fmt) ∧
          (¬ (InCols p c ∧ InHalf fmt hi c) → elemAt fmt (putCodes fmt cs row) e = elemAt fmt row e)) ∧
      (∀ i < 5, fl.getLsbD i = true ↔ ∃ r c, InRows p r ∧ (InCols p c ∧ InHalf fmt hi c) ∧ ((drainValue (accAt x k) p fmt ps mode r c).2.getLsbD i = true ∨
        (i = 2 ∧ (accAt x k).integer = true ∧ CutInt p.amode (fromResidue (accWord (accAt x k) r c))))) ∧
      ∀ r, InRows p r → accExp (accAt y k) r = accExp (accAt x k) r ∧ checkOk (accAt y k) r = true ∧
        accHead (accAt y k) r = (if clr then (if (accAt x k).integer then 65536 else 512) else accHead (accAt x k) r) ∧
        ∀ c < 128, accWord (accAt y k) r c = if clr then 0 else accWord (accAt x k) r c := by
  have hlt : ∀ {d}, d ∈ windowCols p → d < 128 := fun hd => by have := (mem_windowCols.mp hd).2; omega
  have hrow : ∀ q, accRow (if clr then (windowRows p).foldl clearRow (accAt x k) else accAt x k) q =
      if q ∈ windowRows p then (if clr then (accRow (accAt x k) q).cleared else accRow (accAt x k) q) else accRow (accAt x k) q := fun q => by
    cases clr with
    | true => exact clearRows (windowRows_nodup p) (fun r hr => by have := (mem_windowRows.mp hr).2; omega) _ q
    | false => simp
  refine ⟨_, _, _, accdrain_runs hrows hcols hck, changesRows_putAcc hk hrow (fun _ _ => by cases clr <;> rfl), ?_, fun r cs row e hm he => ?_, fun i _ => ?_, fun r hr => ?_⟩
  · rw [List.map_map]
    exact List.map_id _
  · obtain ⟨q, _, hq⟩ := List.mem_map.mp hm
    obtain ⟨rfl, rfl⟩ := Prod.mk.inj hq
    exact drainCols_elem hcols _ _ row he
  · rw [getLsbD_windowFlags]
    simp only [drainCols_flags, (drainCode_eq ..).2]
    constructor
    · rintro ⟨r, hr, c, hc, hp, hb⟩
      refine ⟨r, c, hr, ⟨mem_windowCols.mp hc, not_not.mp fun hh => hp ((drainPlace_some (hlt hc)).2 hh)⟩, hb⟩
    · rintro ⟨r, c, hr, ⟨hc, hh⟩, hb⟩
      obtain ⟨e, _, he, _⟩ := (drainPlace_some (hlt (mem_windowCols.mpr hc))).1 hh
      exact ⟨r, hr, c, mem_windowCols.mpr hc, by rw [he]; simp, hb⟩
  · obtain ⟨hh, he, hc, hwd⟩ := row_of_putAcc hk hrow hr
    cases clr with
    | true => exact ⟨he, hc.mpr (AccRow.checked_zero (fun _ => rfl) rfl), hh, hwd⟩
    | false => exact ⟨he, hc.mpr ((checkOk_iff ..).mp (hck r hr)), hh, fun c hc => (hwd c hc).trans (accRow_word _ _ hc)⟩

end

end Sys2Proof.Machine

/-! The lease of a quad's array (R211, R213, R275), and its commands (R212, R232). -/

namespace Sys2Proof.Machine

/-! What a handover leaves. -/

/-- A handover leaves the sequencers, the cores and the operations, and of the quad all but the array's state and whose it is. -/
structure HandsOver (quad : Nat) (s t : State) : Prop where
  seqs : t.seqs = s.seqs
  cores : t.cores = s.cores
  ops : t.ops = s.ops
  quad : ∃ a w sv, quadAt t quad = { quadAt s quad with array := a, owner := w, saved := sv }

theorem HandsOver.refl (quad : Nat) (s : State) : HandsOver quad s s := ⟨rfl, rfl, rfl, _, _, _, rfl⟩

theorem HandsOver.trans {quad : Nat} {s t u : State} (h : HandsOver quad s t) (k : HandsOver quad t u) : HandsOver quad s u := by
  obtain ⟨a, w, sv, hq⟩ := h.quad
  obtain ⟨b, v, su, kq⟩ := k.quad
  exact ⟨k.seqs.trans h.seqs, k.cores.trans h.cores, k.ops.trans h.ops, b, v, su, by rw [kq, hq]⟩

/-- What leaves the tables of the sequencers, the cores, the operations and the quads. -/
theorem HandsOver.of_tables {quad : Nat} {s t : State} (hs : t.seqs = s.seqs) (hc : t.cores = s.cores) (ho : t.ops = s.ops) (hq : t.quads = s.quads) :
    HandsOver quad s t := ⟨hs, hc, ho, _, _, _, by rw [quadAt, quadAt, hq]⟩

/-- What replaces the array's state and whose it is. -/
theorem HandsOver.of_setQuad {quad : Nat} (s : State) (a : ArrayState) (w : Option Nat) (sv : Sparse ArrayState) :
    HandsOver quad s (setQuad s quad { quadAt s quad with array := a, owner := w, saved := sv }) := ⟨rfl, rfl, rfl, a, w, sv, quadAt_setQuad_same ..⟩

theorem saveArray_handsOver (s : State) (quad key : Nat) : HandsOver quad s (saveArray s quad key) := by
  unfold saveArray
  split
  · exact .refl ..
  · dsimp only
    split
    · exact .refl ..
    · split
      · exact .of_setQuad ..
      · rw [writeVirtual]
        obtain ⟨sl, fs, n, h⟩ := writeHome_frame s (virtualCells s _ _ _)
        rw [h]
        exact .of_tables rfl rfl rfl rfl

theorem passArray_handsOver (s : State) (quad key : Nat) : HandsOver quad s (passArray s key) := by
  unfold passArray
  split
  · exact .refl ..
  · split
    · exact .of_tables rfl rfl rfl rfl
    · exact .refl ..

theorem markLeased_handsOver (s : State) (quad key : Nat) : HandsOver quad s (markLeased s key) := by
  unfold markLeased
  split
  · exact .refl ..
  · exact .of_tables rfl rfl rfl rfl

theorem handOver_handsOver (s : State) (quad c : Nat) : HandsOver quad s (handOver s quad c) := by
  unfold handOver
  split
  · exact .refl ..
  next =>
    split
    · exact .refl ..
    · have hsave : HandsOver quad s (match (quadAt s quad).owner with
          | some old => saveArray s quad old
          | none => s) := by
        split
        · exact saveArray_handsOver ..
        · exact .refl ..
      exact ((hsave.trans (passArray_handsOver ..)).trans (markLeased_handsOver ..)).trans (.of_setQuad ..)

/-- R211: the lease goes to a core with fresh bounds. -/
theorem leaseTo_eq (s : State) (quad c : Nat) : (leaseTo s quad c).seqs = s.seqs ∧ (leaseTo s quad c).cores = s.cores ∧ (leaseTo s quad c).ops = s.ops ∧
    (quadAt (leaseTo s quad c) quad).holder = some c ∧ (quadAt (leaseTo s quad c) quad).commands = 0 ∧ (quadAt (leaseTo s quad c) quad).cycles = 0 ∧
    (quadAt (leaseTo s quad c) quad).explicit = (quadAt s quad).explicit := by
  obtain ⟨hs, hc, ho, a, w, sv, hq⟩ := handOver_handsOver s quad c
  have hl : quadAt (leaseTo s quad c) quad = { quadAt (handOver s quad c) quad with holder := some c, commands := 0, cycles := 0 } := quadAt_setQuad_same ..
  refine ⟨hs, hc, ho, congrArg Quad.holder hl, congrArg Quad.commands hl, congrArg Quad.cycles hl, (congrArg Quad.explicit hl).trans ?_⟩
  rw [hq]

/-! Grants and bounds. -/

/-- R211: core d has the lease of a quad with fresh bounds, and no sequencer, core or operation has changed. -/
def FreshLease (s : State) (quad : Nat) (u : State) (d : Nat) : Prop :=
  (quadAt u quad).holder = some d ∧ (quadAt u quad).commands = 0 ∧ (quadAt u quad).cycles = 0 ∧ u.seqs = s.seqs ∧ u.cores = s.cores ∧ u.ops = s.ops

theorem leaseTo_fresh (s : State) (quad d : Nat) : FreshLease s quad (leaseTo s quad d) d := by
  obtain ⟨hs, hc, ho, hh, hn, hy, _⟩ := leaseTo_eq s quad d
  exact ⟨hh, hn, hy, hs, hc, ho⟩

theorem exec_leaseGrant (s : State) (quad c : Nat) : exec (.leaseGrant quad c) s = .next (grantLease s quad c) := rfl
theorem exec_leaseBoundExpiry (s : State) (quad : Nat) : exec (.leaseBoundExpiry quad) s = .next (expireLease s quad) := rfl
theorem exec_arrayCommandRun (s : State) (quad c : Nat) : exec (.arrayCommandRun quad c) s = .next (runCommand s quad c) := rfl

/-- R211, R275: the grant of the lease. -/
theorem leaseGrant_grants {s : State} {quad c : Nat} : (c < 4 → (quadAt s quad).holder = none → leaseWaits s quad c = true → handoverHeld s quad c = false →
      ∃ u, exec (.leaseGrant quad c) s = .next u ∧ FreshLease s quad u c) ∧
    ((quadAt s quad).holder ≠ none ∨ handoverHeld s quad c = true → exec (.leaseGrant quad c) s = .next s) := by
  rw [exec_leaseGrant]
  refine ⟨fun hc hn hw hh => ⟨_, rfl, ?_⟩, fun h => ?_⟩
  · rw [grantLease, if_pos ⟨hc, hn, hw, hh⟩]
    exact leaseTo_fresh ..
  · rw [grantLease, if_neg]
    rintro ⟨_, hn, _, hh⟩
    rcases h with h | h
    · exact h hn
    · rw [hh] at h
      cases h

/-- R211: a lease does not end inside a command. -/
theorem leaseBoundExpiry_underWay {s : State} {quad c : Nat} (hx : (quadAt s quad).holder = some c) (hu : commandUnderWay s quad c = true) :
    exec (.leaseBoundExpiry quad) s = .next s := by
  rw [exec_leaseBoundExpiry, expireLease]
  simp [hx, boundStops, hu]

/-- R211, R275: at its bound the lease passes to the next waiting core, or stays. -/
theorem leaseBoundExpiry_passes {s : State} {quad c : Nat} (hx : (quadAt s quad).holder = some c) (hb : boundReached (quadAt s quad) = true)
    (hu : commandUnderWay s quad c = false) (hs : arrayStuck s quad c = false) (hf : coreFrozen s (quad * 4 + c) = false) :
    (∀ d, nextWaiting s quad c = some d → (handoverHeld s quad d = false → ∃ u, exec (.leaseBoundExpiry quad) s = .next u ∧ FreshLease s quad u d) ∧
      (handoverHeld s quad d = true → exec (.leaseBoundExpiry quad) s = .next s)) ∧
    (nextWaiting s quad c = none → exec (.leaseBoundExpiry quad) s = .next (setQuad s quad { quadAt s quad with commands := 0, cycles := 0 })) := by
  have hgoes : (!boundStops s quad c || arrayStuck s quad c || coreFrozen s (quad * 4 + c)) = false := by simp [boundStops, hb, hu, hs, hf]
  have hsome : ∀ d, nextWaiting s quad c = some d → expireLease s quad = if handoverHeld s quad d then s else leaseTo s quad d := fun d hd => by
    simp [expireLease, hx, hgoes, hd]
  have hnone : nextWaiting s quad c = none → expireLease s quad = setQuad s quad { quadAt s quad with commands := 0, cycles := 0 } := fun hn => by
    simp [expireLease, hx, hgoes, hn]
  rw [exec_leaseBoundExpiry]
  refine ⟨fun d hd => ⟨fun hh => ⟨_, rfl, ?_⟩, fun hh => ?_⟩, fun hn => by rw [hnone hn]⟩
  · rw [hsome d hd, hh]
    exact leaseTo_fresh ..
  · rw [hsome d hd, if_pos hh]

/-- R211: the next waiting core is another one of the quad. -/
theorem nextWaiting_ne {s : State} {quad c d : Nat} (_ : c < 4) (h : nextWaiting s quad c = some d) : d ≠ c := by
  have hmem := List.mem_of_find?_eq_some h
  simp only [List.mem_cons, List.not_mem_nil, or_false] at hmem
  omega

/-- R211: a lease that ends passes to the next waiting core. -/
def passLease (s : State) (quad c : Nat) : State :=
  match nextWaiting s quad c with
  | some d => if handoverHeld s quad d then setQuad s quad { quadAt s quad with holder := none } else leaseTo s quad d
  | none => setQuad s quad { quadAt s quad with holder := none }

theorem releaseLease_held {s : State} {quad c : Nat} (hx : (quadAt s quad).holder = some c) :
    releaseLease s quad c = passLease (setQuad s quad { quadAt s quad with explicit := vput (quadAt s quad).explicit c false }) quad c := by
  unfold releaseLease
  dsimp only
  rw [if_pos hx]
  rfl

theorem passLease_eq (s : State) (quad : Nat) {c : Nat} (hc : c < 4) : let u := passLease s quad c
    u.seqs = s.seqs ∧ u.cores = s.cores ∧ u.ops = s.ops ∧ (quadAt u quad).holder ≠ some c ∧ (quadAt u quad).explicit = (quadAt s quad).explicit := by
  have hfree : ∀ t, t = setQuad s quad { quadAt s quad with holder := none } → t.seqs = s.seqs ∧ t.cores = s.cores ∧ t.ops = s.ops ∧
      (quadAt t quad).holder ≠ some c ∧ (quadAt t quad).explicit = (quadAt s quad).explicit := by
    rintro t rfl
    simp
  unfold passLease
  split
  next d hd =>
    split
    · exact hfree _ rfl
    · obtain ⟨hs, hcs, ho, hh, _, _, he⟩ := leaseTo_eq s quad d
      exact ⟨hs, hcs, ho, fun h => nextWaiting_ne hc hd (Option.some.inj (hh.symm.trans h)), he⟩
  next => exact hfree _ rfl

/-- R213: LREL ends the lease of the core that has it. -/
theorem releaseLease_releases (s : State) (quad : Nat) {c : Nat} (hc : c < 4) :
    let u := releaseLease s quad c
    u.seqs = s.seqs ∧ u.cores = s.cores ∧ u.ops = s.ops ∧ (quadAt u quad).holder ≠ some c ∧
      ((quadAt s quad).holder = some c → vget false (quadAt u quad).explicit c = false) ∧ ((quadAt s quad).holder ≠ some c → quadAt u quad = quadAt s quad) := by
  by_cases hx : (quadAt s quad).holder = some c
  · rw [releaseLease_held hx]
    obtain ⟨h1, h2, h3, h4, h5⟩ := passLease_eq (setQuad s quad { quadAt s quad with explicit := vput (quadAt s quad).explicit c false }) quad hc
    refine ⟨h1, h2, h3, h4, fun _ => ?_, fun h => absurd hx h⟩
    rw [h5, quadAt_setQuad_same]
    exact vget_vput_same _ _ _ _ hc
  · have hu : releaseLease s quad c = s := if_neg hx
    rw [hu]
    exact ⟨rfl, rfl, rfl, hx, fun h => absurd h hx, fun _ => rfl⟩

end Sys2Proof.Machine

/-! Array commands at the head of their core's queue (R212, R213, R231, R232). -/

namespace Sys2Proof.Machine

/-- A completion leaves the quads. -/
@[simp] theorem completeOp_quads (s : State) (o : Op) : (completeOp s o).quads = s.quads := by
  unfold completeOp pruneFences
  dsimp only
  split <;> split <;> rfl

/-- A report leaves the quads. -/
theorem failOp_quads {s : State} {o : Op} (cause engine cqn : Nat) (aux0 : BitVec 64) (aux1 : Word) (he : (seqAt s o.seq).endPending = false)
    (hu : (seqAt s o.seq).unwind = none) : (failOp s o cause engine cqn aux0 aux1).quads = s.quads := by
  have hd : ∀ q, seqAt (dropFailures s (dieOf o.seq) o.asid) q = seqAt s q := fun _ => rfl
  simp only [failOp, hd, he, hu, Bool.false_and, Bool.or_false, Bool.false_eq_true, if_false]
  rfl

/-! Tile writes (R59, R231). -/

/-- Row writes of an operation leave memory, the quads, the operations and the forwards, and of the sequencers all but its own queue. -/
structure WritesRows (o : Op) (s t : State) : Prop where
  mem : t.mem = s.mem
  quads : t.quads = s.quads
  ops : t.ops = s.ops
  forwards : t.forwards = s.forwards
  own : ∃ q, seqAt t o.seq = { seqAt s o.seq with queue := q }
  others : sameOthers o.seq s t

theorem WritesRows.refl (o : Op) (s : State) : WritesRows o s s := ⟨rfl, rfl, rfl, rfl, ⟨_, rfl⟩, fun _ _ => rfl⟩

theorem WritesRows.trans {o : Op} {s t u : State} (h : WritesRows o s t) (k : WritesRows o t u) : WritesRows o s u := by
  obtain ⟨q, hq⟩ := h.own
  obtain ⟨r, kr⟩ := k.own
  exact ⟨k.mem.trans h.mem, k.quads.trans h.quads, k.ops.trans h.ops, k.forwards.trans h.forwards, ⟨r, by rw [kr, hq]⟩,
    fun p hp => (k.others p hp).trans (h.others p hp)⟩

theorem tileWrite_writesRows (o : Op) (t : Nat) (s : State) (x : Nat × (Row → Row)) : WritesRows o s (tileWrite o t s x) :=
  ⟨rfl, rfl, rfl, rfl, ⟨_, seqAt_setSeq_same ..⟩, fun _ hp => seqAt_setSeq_ne _ _ hp⟩

/-- R59: a row that an operation changes. -/
theorem tileRow_tileWrite (o : Op) (t : Nat) (s : State) (x : Nat × (Row → Row)) :
    tileRow (coreAt (tileWrite o t s x) (coreOf o.seq)) t x.1 = x.2 (tileRow (coreAt s (coreOf o.seq)) t x.1) := by
  have hcore : coreAt (tileWrite o t s x) (coreOf o.seq) = putTileRow (coreAt s (coreOf o.seq)) t x.1 (x.2 (tileRow (coreAt s (coreOf o.seq)) t x.1)) :=
    coreAt_setCore_same ..
  rw [hcore, tileRow, putTileRow, tget_sput, if_pos rfl]

theorem foldl_writesRows {α : Type} {o : Op} {f : State → α → State} (hf : ∀ s x, WritesRows o s (f s x)) (l : List α) (s : State) :
    WritesRows o s (l.foldl f s) := by
  induction l generalizing s with
  | nil => exact .refl o s
  | cons x l ih => exact (hf s x).trans (ih _)

/-- What a state says of a completion, after row writes of the operation. -/
theorem completes_of_writesRows {s t u : State} {o : Op} {fl : Flags} (h : WritesRows o s t) (hc : completes t u o fl) : completes s u o fl := by
  obtain ⟨q, hq⟩ := h.own
  obtain ⟨h1, h2, h3, h4, h5, h6⟩ := hc
  rw [hq] at h2 h3 h4 h5
  exact ⟨h1, h2, h3, h4, h5, fun p hp => (h6 p hp).trans (h.others p hp)⟩

/-- R231: the elements of a command written into its tile. -/
def writeDrained (s : State) (o : Op) (cmd : ArrayCmd) (l : Drained) : State :=
  l.foldl (fun s r => tileWrite o (drainTile cmd).1 s (r.1, putCodes (drainTile cmd).2 r.2)) s

theorem writeDrained_writesRows (s : State) (o : Op) (cmd : ArrayCmd) (l : Drained) : WritesRows o s (writeDrained s o cmd l) :=
  foldl_writesRows (fun s _ => tileWrite_writesRows o (drainTile cmd).1 s _) l s

/-! The count of a command. -/

theorem endImplicit_keeps (s : State) (quad c : Nat) : (endImplicit s quad c).seqs = s.seqs ∧ (endImplicit s quad c).cores = s.cores ∧
    (endImplicit s quad c).ops = s.ops ∧ (endImplicit s quad c).mem = s.mem ∧ (quadAt (endImplicit s quad c) quad).array = (quadAt s quad).array ∧
    (quadAt (endImplicit s quad c) quad).commands = (quadAt s quad).commands := by
  unfold endImplicit
  dsimp only
  split <;> simp

/-- R212: a command that completes counts. -/
theorem commandDone_counts (s : State) (quad c : Nat) : (commandDone s quad c true).seqs = s.seqs ∧ (commandDone s quad c true).cores = s.cores ∧
    (commandDone s quad c true).ops = s.ops ∧ (commandDone s quad c true).mem = s.mem ∧ (quadAt (commandDone s quad c true) quad).array = (quadAt s quad).array ∧
    (quadAt (commandDone s quad c true) quad).commands = (quadAt s quad).commands + 1 := by
  obtain ⟨h1, h2, h3, h4, h5, h6⟩ := endImplicit_keeps (setQuad s quad { quadAt s quad with commands := (quadAt s quad).commands + 1 }) quad c
  rw [quadAt_setQuad_same] at h5 h6
  exact ⟨h1, h2, h3, h4, h5, h6⟩

theorem completes_of_tables {s t u : State} {o : Op} {fl : Flags} (hs : u.seqs = t.seqs) (ho : u.ops = t.ops) (h : completes s t o fl) :
    completes s u o fl := by
  simpa only [completes, sameOthers, seqAt, opAt, hs, ho] using h

/-! The head of a core's queue. -/

/-- R212, R213: what the core that has the lease does with the head of its queue. -/
theorem heldCommand_runs {s : State} {quad c : Nat} {o : Op} (hx : (quadAt s quad).holder = some c) (hb : boundReached (quadAt s quad) = false)
    (hp : mayPerform s o = true) : (o.kind = .array .lease → heldCommand s quad c o =
      opDone (setQuad s quad { quadAt s quad with explicit := vput (quadAt s quad).explicit c true }) { o with phase := .performed }) ∧
    ∀ cmd, o.kind = .array cmd → cmd ≠ .lease → (∀ h b p f, cmd ≠ .mstatFetch h b p f) → heldCommand s quad c o = applyCommand s quad c o cmd [] := by
  unfold heldCommand
  rw [if_neg (show ¬ ((quadAt s quad).holder ≠ some c ∨ boundStops s quad c = true ∨ (!mayPerform s o) = true) by simp [hx, boundStops, hb, hp])]
  split
  next h => exact ⟨fun _ => rfl, fun cmd hk hl _ => absurd (OpKind.array.inj (hk.symm.trans h)) hl⟩
  next h => exact ⟨fun hk => (by cases hk.symm.trans h), fun cmd hk _ hfetch => absurd (OpKind.array.inj (hk.symm.trans h)) (hfetch _ _ _ _)⟩
  next a _ _ h => exact ⟨fun hk => (by cases hk.symm.trans h; contradiction), fun cmd hk _ _ => by rw [OpKind.array.inj (hk.symm.trans h)]⟩
  next h => exact ⟨fun hk => absurd hk (h _), fun cmd hk _ _ => absurd hk (h _)⟩

section
variable {s : State} {quad c : Nat} {o : Op} (hhead : (arrayQueue s (quad * 4 + c)).head? = some o) (hm : mayAct s o) (hq : o.phase = .queued)
  (hf : ∀ f ∈ s.forwards, f.op ≠ o.id)
include hhead hm hq

/-- R212: the head of a queue takes its step. -/
theorem runCommand_head : (o.kind = .array .lrel → runCommand s quad c = finishStrand (releaseLease (opDone s { o with phase := .performed }) quad c) o.seq) ∧
    (o.kind ≠ .array .lrel → runCommand s quad c = finishStrand (heldCommand s quad c o) o.seq) := by
  obtain ⟨hop, hfz, hend⟩ := hm
  have hmoves : (o.phase != .queued || !engineMoves s o) = false := by simp [hq, engineMoves, hfz]
  unfold runCommand
  simp only [hhead, hmoves, spend_moves hfz, Bool.false_eq_true, if_false]
  split
  next h => exact ⟨fun _ => rfl, fun hk => absurd h hk⟩
  next h => exact ⟨fun hk => absurd hk h, fun _ => rfl⟩

/-- R232: a command that fails is reported, and leaves the array. -/
theorem command_fails (hx : (quadAt s quad).holder = some c) (hb : boundReached (quadAt s quad) = false) (hp : mayPerform s o = true)
    {cmd : ArrayCmd} (hk : o.kind = .array cmd) (hl : cmd ≠ .lease) (hr : cmd ≠ .lrel) (hfetch : ∀ h b p f, cmd ≠ .mstatFetch h b p f)
    (hu : (seqAt s o.seq).unwind = none) {e : ArrayFail}
    (hfail : (if readsArray cmd && s.damaged.contains (arrayStorage quad) then .error (fetchFail 0x31) else runArray (quadAt s quad).array [] cmd) = .error e) :
    ∃ u, exec (.arrayCommandRun quad c) s = .next u ∧ reported s u o e.cause 2 0 0 ∧ (quadAt u quad).array = (quadAt s quad).array ∧ u.cores = s.cores ∧
      u.mem = s.mem := by
  have happly : applyCommand s quad c o cmd [] = failOp s o e.cause 2 0 (arrayStatus cmd e) 0 := by
    simp only [applyCommand, hfail]
    rfl
  obtain ⟨hrep, hcores, hmem, hend⟩ := failOp_reports (s := s) (o := o) e.cause 2 0 (arrayStatus cmd e) 0 hm.1 hm.2.2 hu
  refine ⟨_, ?_, hrep, ?_, hcores, hmem⟩
  · rw [exec_arrayCommandRun, (runCommand_head hhead hm hq).2 (by rw [hk]; exact fun h => hr (OpKind.array.inj h)),
      (heldCommand_runs hx hb hp).2 cmd hk hl hfetch, happly, finishStrand_goes hend]
  · rw [quadAt, failOp_quads _ _ _ _ _ hm.2.2 hu]
    rfl

include hf

/-- R213: LREL at the head of a queue. -/
theorem lrel_releases (hc : c < 4) (hk : o.kind = .array .lrel) : ∃ u, exec (.arrayCommandRun quad c) s = .next u ∧ opAt u o.id = none ∧ u.cores = s.cores ∧
    (quadAt u quad).holder ≠ some c ∧ ((quadAt s quad).holder = some c → vget false (quadAt u quad).explicit c = false) ∧
    ((quadAt s quad).holder ≠ some c → quadAt u quad = quadAt s quad) := by
  obtain ⟨hdone, hcomp⟩ := opDone_completes (s := s) (t := s) (o := o) (p := { o with phase := .performed }) rfl rfl rfl rfl hm.2.2 hf
  obtain ⟨hs, hcs, ho, hh, he, hx⟩ := releaseLease_releases (completeOp s { o with phase := .performed }) quad hc
  obtain ⟨_, kc, _, _, kend⟩ := completeOp_keeps s { o with phase := .performed }
  have hquad : quadAt (completeOp s { o with phase := .performed }) quad = quadAt s quad := by rw [quadAt, quadAt, completeOp_quads]
  rw [hquad] at he hx
  have hend : (seqAt (releaseLease (completeOp s { o with phase := .performed }) quad c) o.seq).endPending = false := by
    rw [seqAt, hs]
    exact kend.trans hm.2.2
  refine ⟨releaseLease (completeOp s { o with phase := .performed }) quad c, ?_, ?_, hcs.trans kc, hh, he, hx⟩
  · rw [exec_arrayCommandRun, (runCommand_head hhead hm hq).1 hk, hdone, finishStrand_goes hend]
  · rw [opAt, ho]
    exact hcomp.1

variable (hx : (quadAt s quad).holder = some c) (hb : boundReached (quadAt s quad) = false) (hp : mayPerform s o = true)
include hx hb hp

/-- R213: LEASE at the head of a queue whose core has the lease. -/
theorem lease_takes (hc : c < 4) (hk : o.kind = .array .lease) : ∃ u, exec (.arrayCommandRun quad c) s = .next u ∧ completes s u o o.flags ∧
    vget false (quadAt u quad).explicit c = true ∧ (quadAt u quad).holder = some c ∧ u.cores = s.cores ∧ u.mem = s.mem := by
  have hexp := quadAt_setQuad_same s quad { quadAt s quad with explicit := vput (quadAt s quad).explicit c true }
  obtain ⟨hdone, hcomp⟩ := opDone_completes (s := s) (t := setQuad s quad { quadAt s quad with explicit := vput (quadAt s quad).explicit c true }) (o := o)
    (p := { o with phase := .performed }) rfl rfl rfl rfl hm.2.2 hf
  obtain ⟨km, kc, _, _, kend⟩ := completeOp_keeps (setQuad s quad { quadAt s quad with explicit := vput (quadAt s quad).explicit c true }) { o with phase := .performed }
  have hquad : quadAt (completeOp (setQuad s quad { quadAt s quad with explicit := vput (quadAt s quad).explicit c true }) { o with phase := .performed }) quad =
      { quadAt s quad with explicit := vput (quadAt s quad).explicit c true } := by
    rw [quadAt, completeOp_quads]
    exact hexp
  refine ⟨_, ?_, hcomp, ?_, ?_, kc, km⟩
  · rw [exec_arrayCommandRun, (runCommand_head hhead hm hq).2 (by rw [hk]; simp), (heldCommand_runs hx hb hp).1 hk, hdone]
    rw [finishStrand_goes]
    exact kend.trans hm.2.2
  · rw [hquad]
    exact vget_vput_same _ _ _ _ hc
  · rw [hquad]
    exact hx

/-- R212: a command that performs. -/
theorem command_performs {cmd : ArrayCmd} (hk : o.kind = .array cmd) (hl : cmd ≠ .lease) (hr : cmd ≠ .lrel) (hfetch : ∀ h b p f, cmd ≠ .mstatFetch h b p f)
    (hok : (readsArray cmd && s.damaged.contains (arrayStorage quad)) = false) {y : ArrayState} {fl : Flags} {l : Drained}
    (hrun : runArray (quadAt s quad).array [] cmd = .ok (y, fl, l)) : ∃ u, exec (.arrayCommandRun quad c) s = .next u ∧ completes s u o fl ∧
      (quadAt u quad).array = y ∧ (quadAt u quad).commands = (quadAt s quad).commands + 1 ∧ u.mem = s.mem ∧
      (seqAt u o.seq).regs = (seqAt s o.seq).regs ∧ (l = [] → u.cores = s.cores) ∧
      ∀ r cs, l = [(r, cs)] → tileRow (coreAt u (coreOf o.seq)) (drainTile cmd).1 r =
        putCodes (drainTile cmd).2 cs (tileRow (coreAt s (coreOf o.seq)) (drainTile cmd).1 r) := by
  have happly : applyCommand s quad c o cmd [] = commandDone (opDone (writeDrained (setQuad s quad { quadAt s quad with array := y }) o cmd l)
      { o with phase := .performed, flags := fl }) quad c true := by
    simp only [applyCommand, hok, hrun, Bool.false_eq_true, if_false]
    rfl
  have hempty : l = [] → (writeDrained (setQuad s quad { quadAt s quad with array := y }) o cmd l).cores = s.cores := by
    rintro rfl
    rfl
  have hone : ∀ r cs, l = [(r, cs)] → tileRow (coreAt (writeDrained (setQuad s quad { quadAt s quad with array := y }) o cmd l) (coreOf o.seq)) (drainTile cmd).1 r =
      putCodes (drainTile cmd).2 cs (tileRow (coreAt s (coreOf o.seq)) (drainTile cmd).1 r) := by
    rintro r cs rfl
    exact tileRow_tileWrite o (drainTile cmd).1 _ (r, putCodes (drainTile cmd).2 cs)
  have hfrom := writeDrained_writesRows (setQuad s quad { quadAt s quad with array := y }) o cmd l
  generalize writeDrained (setQuad s quad { quadAt s quad with array := y }) o cmd l = t at *
  obtain ⟨q, hown⟩ := hfrom.own
  have hend : (seqAt t o.seq).endPending = false := by
    rw [hown]
    exact hm.2.2
  obtain ⟨hdone, hcomp⟩ := opDone_completes (s := t) (t := t) (o := o) (p := { o with phase := .performed, flags := fl }) rfl rfl rfl rfl hend
    (by rw [hfrom.forwards]; exact hf)
  have hcomp' : completes s (completeOp t { o with phase := .performed, flags := fl }) o fl :=
    completes_of_seqs (t := setQuad s quad { quadAt s quad with array := y }) rfl (completes_of_writesRows hfrom hcomp)
  obtain ⟨km, kc, _, kr, kend⟩ := completeOp_keeps t { o with phase := .performed, flags := fl }
  have hquad : quadAt (completeOp t { o with phase := .performed, flags := fl }) quad = { quadAt s quad with array := y } := by
    rw [quadAt, completeOp_quads, hfrom.quads]
    exact quadAt_setQuad_same ..
  generalize completeOp t { o with phase := .performed, flags := fl } = v at *
  obtain ⟨ds, dc, dops, dm, da, dn⟩ := commandDone_counts v quad c
  rw [hquad] at da dn
  have hseq : seqAt (commandDone v quad c true) o.seq = seqAt v o.seq := by
    rw [seqAt, ds]
    rfl
  have hcore : coreAt (commandDone v quad c true) (coreOf o.seq) = coreAt t (coreOf o.seq) := by
    rw [coreAt, dc, kc]
    rfl
  refine ⟨commandDone v quad c true, ?_, completes_of_tables ds dops hcomp', da, dn, (dm.trans km).trans hfrom.mem, ?_,
    fun hl => (dc.trans kc).trans (hempty hl), fun r cs hl => ?_⟩
  · rw [exec_arrayCommandRun, (runCommand_head hhead hm hq).2 (by rw [hk]; exact fun h => hr (OpKind.array.inj h)),
      (heldCommand_runs hx hb hp).2 cmd hk hl hfetch, happly, hdone, finishStrand_goes]
    rw [hseq]
    exact kend.trans hend
  · rw [hseq]
    refine kr.trans ?_
    rw [hown]
    rfl
  · rw [hcore]
    exact hone r cs hl

end

end Sys2Proof.Machine

/-! O51: the lease and the commands of a quad's array. -/

namespace Sys2Proof.Machine

/-- Settles O51: the words of a command are followed row by row (`AccRow`), each command's way through its window is one induction (`runRows`), and
what a handover and a completion leave of the package gives the clauses of the lease. -/
theorem leasesAndArrayCommands : Obligations.LeasesAndArrayCommands := by
  unfold Obligations.LeasesAndArrayCommands
  refine ⟨fun a b => ⟨fun hlo hhi => fromResidue_toResidue hlo hhi, residueAdd_toResidue a b⟩, ?_, ?_, ?_, ?_, ?_⟩
  · exact fun x f k r c => ⟨rfl, fun hk hr => acczero_int x f c hk hr, fun e hk hr => acczero_fp x f c e hk hr⟩
  · exact fun a r => ⟨fun hi => checkOk_fp r hi, fun hi => checkOk_int r hi⟩
  · exact fun m n sh => scaleInt_off m n sh
  · intro x k p tile hk A win col fails first only adds floor lost clamp wide clamps int32 cut
    refine ⟨fun h fmt sc hi n t ps clr mode => fails_rows h fmt sc hi n t ps clr mode,
      fun hrows h fmt sc hi t ps clr mode => fails_cols hrows h fmt sc hi t ps clr mode, accchk_ok, fun r hr hbad hgood => accchk_fails hr hbad hgood,
      fun fmt rows => mstat_plane x p fmt rows, fun hrows hcols => ⟨fun fmt sc => ?_, fun fmt hi hd hn => ?_, fun fmt hi hf hint => ?_,
        fun t fmt ps hi clr mode => ?_⟩, fun hrows => ⟨fun hi n hn => ?_, fun hi => ?_⟩⟩
    · obtain ⟨h3, h4, h5, hnone⟩ := mmShape_cases (x := x) (k := k) (fmt := fmt) hrows hcols
      refine ⟨fun hd => mm_fails_shape (h3 hd), fun hd hf => mm_fails_shape (h4 hd hf), fun hd hf hi => mm_fails_shape (h5 hd hf hi),
        fun hd hf h8 hi => ?_, fun hd hf h8 hi => ?_⟩
      · exact mm_int hrows hcols hk (hnone hd hf (hi.trans_ne (by simp [h8]))) hi h8
      · exact mm_fp hrows hcols hk (hnone hd hf (hi.trans_ne (by simp [h8]))) hi h8
    · obtain ⟨hfail, hrun⟩ := mmcmp_ranks (fmt := fmt) (tile := tile) hrows hcols hk hi hd hn
      exact ⟨hfail, hrun, fun a b => scores fmt a b⟩
    · refine ⟨fun r hr => accld_fails_check hrows hcols hint hr, fun hck => ⟨fun h0 hc hex => accld_fails_wide hrows hcols hint hf hck h0 hc hex, fun hok => ?_⟩⟩
      obtain ⟨y, fl, hy, hch, hrow, h8, h0⟩ := accld_loads hrows hcols hint hf hk hck hok
      obtain ⟨hNX, hOF, hNV, _⟩ := flag_bits
      exact ⟨y, fl, hy, hch, hrow, h8, fun h => ⟨(hNX fl).trans (h0 h 0 (by simp)), (hOF fl).trans (h0 h 2 (by simp)), (hNV fl).trans (h0 h 4 (by simp))⟩⟩
    · exact ⟨fun r hr => accdrain_fails_check hrows hcols hr, fun hck => accdrain_drains hrows hcols hk hck⟩
    · refine ⟨fun r hr => accnorm_fails_check hrows hi hr, fun hck => ⟨fun r hr => accnorm_fails_exp hrows hi hck hr, fun hexp => ?_⟩⟩
      exact accnorm_rounds hrows hk hn hi hck hexp
    · exact ⟨fun r hr => fold_fails_check hrows hi hr, fun hck => fold_int32 hrows hi hk hck⟩
  · intro s quad c x fresh
    refine ⟨leaseGrant_grants.1, leaseGrant_grants.2, leaseBoundExpiry_underWay, leaseBoundExpiry_passes, fun o hhead hm hq hf hc => ?_⟩
    refine ⟨lrel_releases hhead hm hq hf hc, fun hx hb hp => ⟨lease_takes hhead hm hq hf hx hb hp hc, fun cmd hk hl hr hfetch => ?_⟩⟩
    intro broken
    have hbroken : broken = (readsArray cmd && s.damaged.contains (arrayStorage quad)) := by
      unfold broken
      rw [Bool.and_comm]
      cases cmd <;> rfl
    refine ⟨fun hok y fl l hrun => command_performs hhead hm hq hf hx hb hp hk hl hr hfetch (hbroken.symm.trans hok) hrun, fun e he hu =>
      command_fails hhead hm hq hx hb hp hk hl hr hfetch hu ?_⟩
    rcases he with ⟨hok, he⟩ | ⟨hbad, rfl⟩
    · rw [← hbroken, hok]
      exact he
    · rw [← hbroken, hbad]
      rfl

end Sys2Proof.Machine

/-! O30: the bound registers of a view (R122, R123, R155). -/

namespace Sys2Proof.Machine

theorem viewAt_putView {sq : Seq} {v n : Nat} {x : View} (hv : v < 16) : viewAt (putView sq v x) n = if n = v then x else viewAt sq n :=
  vget_vput _ _ _ _ _ hv

/-- R122: BNDSET's value holds BHI above BLO. -/
theorem boundsValue_toNat (lo hi : Word) : (hi.setWidth 64 <<< 32 ||| lo.setWidth 64).toNat = hi.toNat * 2 ^ 32 + lo.toNat := by
  have hhi := hi.isLt
  rw [BitVec.toNat_or, BitVec.toNat_shiftLeft, BitVec.toNat_setWidth_of_le (by decide), BitVec.toNat_setWidth_of_le (by decide),
    Nat.shiftLeft_eq, Nat.mod_eq_of_lt (by omega), Nat.mul_comm, ← Nat.two_pow_add_eq_or_of_lt lo.isLt]

/-- R53, R122: the bounds that land, with the enable. -/
theorem landSeq_bounds {sq : Seq} {p : Pend} {v : BitVec 4} (hd : p.dest = .bounds v) (n : Nat) :
    viewAt (landSeq sq p) n = if n = v.toNat then
      { viewAt sq n with blo := BitVec.ofNat 32 p.value.toNat, bhi := BitVec.ofNat 32 (p.value.toNat / 2 ^ 32), ben := true } else viewAt sq n := by
  unfold landSeq
  rw [hd]
  refine (viewAt_putView v.isLt).trans ?_
  split
  · rename_i hn
    subst hn
    have hhi : (p.value >>> 32).setWidth 32 = BitVec.ofNat 32 (p.value.toNat / 2 ^ 32) := by
      apply BitVec.eq_of_toNat_eq
      rw [BitVec.toNat_setWidth, BitVec.toNat_ushiftRight, Nat.shiftRight_eq_div_pow, BitVec.toNat_ofNat]
    rw [hhi]
    rfl
  · rfl

/-- R53, R122: the clearing of the enable that lands. -/
theorem landSeq_boundOff {sq : Seq} {p : Pend} {v : BitVec 4} (hd : p.dest = .boundOff v) (n : Nat) :
    viewAt (landSeq sq p) n = if n = v.toNat then { viewAt sq n with ben := false } else viewAt sq n := by
  unfold landSeq
  rw [hd]
  refine (viewAt_putView v.isLt).trans ?_
  split
  · rename_i hn
    subst hn
    rfl
  · rfl

/-- Settles O30: each frame puts its result in the queue, a landing replaces one view, and the example's word is that of its instruction. -/
theorem boundRegisters : Obligations.BoundRegisters := by
  refine ⟨fun s g v a b => ⟨fun hr => does_of_body (execBndset g v a b s) hr rfl rfl (congrArg Except.ok (enqueue_eq_withEntry ?_)),
    fun hr => does_of_body (execBndoff g v s) hr rfl rfl rfl⟩,
    fun sq p v n _ => ⟨fun hd => landSeq_bounds hd n, fun hd => landSeq_boundOff hd n⟩,
    (decodeSlot_encodeWord (i := .bndset 0 3 6 7) rfl (by decide)).2⟩
  exact boundsValue_toNat (src s a) (src s b)

end Sys2Proof.Machine

/-! O36: the placed operations and the BANK commands at their issue (R117, R235, R243, R247, R257, R265, R274). -/

namespace Sys2Proof.Machine

theorem foldl_passLine_slices (l : List Nat) (keeps : Bool) (s : State) :
    ∃ t, l.foldl (fun s l => passLine s l keeps) s = { s with slices := t } := by
  induction l generalizing s with
  | nil => exact ⟨s.slices, rfl⟩
  | cons a l ih =>
    obtain ⟨t, ht⟩ := ih (passLine s a keeps)
    exact ⟨t, ht⟩

/-- R257, R265: the reads of a call change the buffers of slices alone. -/
theorem passInputs_slices (s : State) (q : Nat) (c : PlacedCall) (h : Home) : ∃ t, passInputs s q c h = { s with slices := t } := by
  unfold passInputs
  cases h with
  | slice d u => exact foldl_passLine_slices _ false (passUncached s _)
  | _ => exact ⟨_, rfl⟩

/-- R117, R243: an operation that enters after the swap and the reads of its call stands as the state before them gives it. -/
theorem newOp_afterReads (s : State) (g : BitVec 2) (sw : Bool) (q : Nat) (c : PlacedCall) (h : Home) (r w : Option (BitVec 4)) (tiles : List Nat)
    (pins : List Word) (k : OpKind) (via : List Nat) (slice : Option Nat) :
    let u := passInputs (dropRequests (swapped s g sw) (readTag s.cur)) q c h
    newOp u 6 r w tiles pins k via slice = withOp u { opOf s 6 r w tiles pins k via with slice := slice } := by
  intro u
  obtain ⟨t, hu⟩ : ∃ t, u = { dropRequests (swapped s g sw) (readTag s.cur) with slices := t } := passInputs_slices ..
  have hop : opOf u 6 r w tiles pins k via = opOf s 6 r w tiles pins k via := by
    rw [hu]
    cases sw with
    | false => rfl
    | true => exact opOf_putShape s 6 r w tiles pins k via g.toNat _
  rw [← hop]
  rfl

/-- R243: a placed operation that passes its checks, with no poison in what it has read, ends its read phase. -/
theorem placedBody_enters {s : State} {c : PlacedCall} (hc : checkPlaced s s.cur c = .ok) (hp : anyPoison s (readTag s.cur) = false) :
    placedBody c s = .ok (withOp (passInputs (dropRequests (swapped s c.sg c.sw) (readTag s.cur)) s.cur c (decideHome s s.cur c).1)
      { opOf s 6 (placedReadClass (me s) c) (if (viewAt (me s) c.vd.toNat).handle = 0 then none else some (viewAt (me s) c.vd.toNat).cls)
          (viewTiles (viewAt (me s) c.vd.toNat)) (if (viewAt (me s) c.vd.toNat).handle = 0 then [] else [(viewAt (me s) c.vd.toNat).handle])
          (placedKind s s.cur c) (c.vd.toNat :: c.va.toNat :: c.vb.toList.map BitVec.toNat) with slice := homeSlice (decideHome s s.cur c).1 }) := by
  unfold placedBody
  simp only [hc, hp, Bool.false_eq_true, if_false]
  exact congrArg Except.ok (newOp_afterReads ..)

/-- The frame of a placed instruction runs the body of its call. -/
theorem placedStep_does {i : Instr} {s u : State} {c : PlacedCall} (he : exec i s = placedStep i s) (hi : placedCall i = some c)
    (hr : slotReady i s = true) (hb : placedBody c s = .ok u) : does i s u := by
  refine does_of_body (placedStep i s) hr he rfl ?_
  simp only [hi, hb]

/-- Settles O36: each placed instruction runs the body of its call, which enters one operation, and each BANK command's frame enters its command. -/
theorem placedAndBankCommandsEnter : Obligations.PlacedAndBankCommandsEnter := by
  intro s g vd va vb fmt t rs sg sw a F base D row placed bank
  have enters : ∀ (i : Instr) (op : PlacedOp) (b : Option (BitVec 4)), exec i s = placedStep i s →
      placedCall i = some { op := op, vd := vd, va := va, vb := b, fmt := fmt, sg := sg, sw := sw } → placed i op b :=
    fun i op b he hi hr hc hp => placedStep_does he hi hr (placedBody_enters hc hp)
  exact ⟨enters _ .add _ rfl rfl, enters _ .sub _ rfl rfl, enters _ .mul _ rfl rfl, enters _ .max _ rfl rfl, enters _ .red _ rfl rfl,
    enters _ .mv _ rfl rfl, enters _ .mm _ rfl rfl,
    fun hr => does_of_body (execPabm g a t rs s) hr rfl rfl rfl, fun hr => does_of_body (execPbcast g a t rs s) hr rfl rfl rfl,
    fun hr => does_of_body (execPmac g a t rs s) hr rfl rfl rfl, fun hr => does_of_body (execPread g a t rs s) hr rfl rfl rfl,
    fun hr => does_of_body (execPexit g a s) hr rfl rfl rfl⟩

end Sys2Proof.Machine

/-! O49. -/

namespace Sys2Proof.Machine

/-- A copy of sequencer 0 whose payload has performed, with an event and no stamp, listed with the number 0, which a state of reset gives to its
next operation. -/
def strayCopy : Op :=
  { id := 0, seq := 0, slot := 5, baddr := 0, tick := 0, region := 0, idx := [], asid := 0, rcls := none, wcls := none, wtiles := [], pins := [],
    phase := .performed, flags := 0, result := [], kind := .copy View.reset View.reset 0 0 0 0 true true 0 }

/-- Sequencer 1 holds pseudo-channel 0 of die 0, where the records of that die's trace unit go, so that the record of a posted event is a write that
waits there (R275, R337). -/
def heldTrace : State :=
  { State.reset with
    seqs := [(1, { Seq.reset with bank := some { die := 0, channel := 0, handle := 0, off := 0, bx := [], bacc := [] } })]
    dies := [(0, { Die.reset with trace := { Die.reset.trace with en := true, resync := false } })] }

/-- That state with the copy in flight. No step numbers operations so, but O49 speaks of every state. -/
def strayCopyState : State := { heldTrace with ops := [strayCopy] }

/-- The write that waits has the number of the copy, which therefore stays in flight after its completion. -/
theorem strayCopy_stays : ∃ u, exec (.copyComplete strayCopy.id) strayCopyState = .next u ∧ opAt u strayCopy.id ≠ none := by
  have h : (match exec (.copyComplete strayCopy.id) strayCopyState with
      | .next u => (opAt u strayCopy.id).isSome
      | _ => false) = true := by decide +kernel
  cases hu : exec (.copyComplete strayCopy.id) strayCopyState with
  | next u =>
    rw [hu] at h
    exact ⟨u, rfl, Option.isSome_iff_ne_none.mp h⟩
  | _ => simp [hu] at h

/-- Refutes O49: the completion of a copy posts its event and the event's trace record may become a write that waits at its home, with the number of the
next operation; a copy in flight with that number (`strayCopyState`) does not leave flight when it completes. -/
theorem not_copiesAndRetires : ¬ Obligations.CopiesAndRetires := by
  unfold Obligations.CopiesAndRetires
  intro h
  obtain ⟨u, hu, hin⟩ := strayCopy_stays
  have hact : mayAct strayCopyState strayCopy := ⟨rfl, by decide +kernel, by decide +kernel⟩
  obtain ⟨-, -, -, complete, -⟩ := h strayCopyState strayCopy hact rfl (fun f hf => by cases hf)
  obtain ⟨-, -, posts, -, -⟩ := complete View.reset View.reset 0 0 0 0 0 true rfl rfl (by decide +kernel) (by decide +kernel) (by decide +kernel)
  obtain ⟨w, hw, ⟨hgone, -⟩, -⟩ := posts rfl rfl (by decide +kernel) rfl
  rw [hu] at hw
  cases hw
  exact hin hgone

end Sys2Proof.Machine

/-! O54: the cores and strands of a team at its placement (R285, R286, R289). -/

namespace Sys2Proof.Machine

/-- R289: the cores of the mask that lists some of the four. -/
theorem maskCores_listed {l : List Nat} (h : l.Sublist (List.range 4)) (quad : Nat) :
    maskCores quad (l.foldl (fun m c => m ||| (1#4 <<< c)) 0#4) = l.map (fun c => quad * 4 + c) := by
  have bits : ∀ l ∈ (List.range 4).sublists, (List.range 4).filter (fun c => (l.foldl (fun m c => m ||| (1#4 <<< c)) 0#4).getLsbD c) = l := by
    decide
  rw [maskCores, bits l (List.mem_sublists.mpr h)]

/-- R289: a mask of n free cores lists n cores, each once. -/
theorem freeMask_cores {s : State} {quad n : Nat} {m : BitVec 4} (h : freeMask s quad n = some m) :
    (maskCores quad m).length = n ∧ (maskCores quad m).Nodup := by
  unfold freeMask at h
  obtain ⟨hn, hm⟩ := Option.ite_none_right_eq_some.mp h
  cases hm
  rw [maskCores_listed ((List.take_sublist _ _).trans List.filter_sublist)]
  refine ⟨(List.length_map _).trans hn, ?_⟩
  exact (List.nodup_range.sublist ((List.take_sublist _ _).trans List.filter_sublist)).map (fun a b hab => by simpa using hab)

/-- R285: the strands of a team run on sequencers of their own. -/
theorem strandSeq_inj {quad : Nat} {m : BitVec 4} (hd : (maskCores quad m).Nodup) {i j : Nat} (hi : i / 2 < (maskCores quad m).length)
    (hj : j / 2 < (maskCores quad m).length) (h : strandSeq quad m i = strandSeq quad m j) : i = j := by
  simp only [strandSeq, List.getD_eq_getElem _ _ hi, List.getD_eq_getElem _ _ hj] at h
  have hc : (maskCores quad m)[i / 2] = (maskCores quad m)[j / 2] := by omega
  have := hd.getElem_inj_iff.mp hc
  omega

theorem startStrands_seqs (s : State) (t : Task) (team quad : Nat) (m : BitVec 4) (n : Nat) :
    ∃ l, startStrands s t team quad m n = { s with seqs := l } := by
  induction n with
  | zero => exact ⟨s.seqs, rfl⟩
  | succ n ih =>
    obtain ⟨l, hl⟩ := ih
    rw [startStrands, hl]
    exact ⟨_, rfl⟩

/-- R285: each strand of a team starts on its sequencer. -/
theorem seqAt_startStrands (s : State) (t : Task) (team : Nat) {quad n k : Nat} {m : BitVec 4} (hk : k < n)
    (hinj : ∀ i < n, ∀ j < n, strandSeq quad m i = strandSeq quad m j → i = j) :
    ∃ old, seqAt (startStrands s t team quad m n) (strandSeq quad m k) = strandStart t team k old := by
  induction n with
  | zero => omega
  | succ n ih =>
    rw [startStrands]
    by_cases h : k = n
    · subst h
      exact ⟨_, seqAt_setSeq_same ..⟩
    · have hne : strandSeq quad m k ≠ strandSeq quad m n := fun e => h (hinj k hk n (by omega) e)
      rw [seqAt_setSeq_ne _ _ hne]
      exact ih (by omega) (fun i hi j hj => hinj i (by omega) j (by omega))

/-- R285: the registers of a strand at its start: its argument, its team and its number, and zeros. -/
theorem strandStart_regs (t : Task) (team k : Nat) (old : Seq) :
    let r := (strandStart t team k old).regs
    vget 0 r 0 = t.info.arg.setWidth 32 ∧ vget 0 r 1 = (t.info.arg >>> 32).setWidth 32 ∧ vget 0 r 2 = BitVec.ofNat 32 team ∧
      vget 0 r 3 = BitVec.ofNat 32 k ∧ ∀ n, 4 ≤ n → vget 0 r n = 0 := by
  have put : ∀ (v : Vector Word 32) (i j : Nat) (x : Word), i < 32 → vget 0 (v.setIfInBounds i x) j = if j = i then x else vget 0 v j :=
    fun v i j x h => vget_vput 0 v i j x h
  have zeros : ∀ n, vget 0 (Vector.replicate 32 (0 : Word)) n = 0 := by
    intro n
    by_cases h : n < 32 <;> simp [vget, h]
  simp only [strandStart, keepDebug, put _ 3 _ _ (by decide), put _ 2 _ _ (by decide), put _ 1 _ _ (by decide), put _ 0 _ _ (by decide), zeros]
  refine ⟨rfl, rfl, rfl, rfl, fun n hn => ?_⟩
  rw [if_neg (by omega), if_neg (by omega), if_neg (by omega), if_neg (by omega)]

/-- R285, R291: a launch view of the mask is open in a strand at its start. -/
theorem viewAt_strandStart (t : Task) (team k : Nat) (old : Seq) {n : Nat} (hn : n < 16) (hv : t.info.vmask.getLsbD n = true) :
    viewAt (strandStart t team k old) n = { vget View.reset t.info.views n with isOpen := true, poison := t.poisoned.getLsbD n } := by
  simp [viewAt, strandStart, keepDebug, vget, hn, hv]

theorem placeCores_cores (s : State) (t : Task) (key quad : Nat) (m : BitVec 4) (l : List Nat) (j : Nat) :
    ∃ c, placeCores s t key quad m l j = { s with cores := c } := by
  induction l generalizing s j with
  | nil => exact ⟨s.cores, rfl⟩
  | cons k l ih =>
    obtain ⟨c, hc⟩ := ih (setCore s k _) (j + 1)
    exact ⟨c, hc⟩

theorem coreAt_placeCores_other {s : State} {t : Task} {key quad : Nat} {m : BitVec 4} {l : List Nat} {c : Nat} (h : c ∉ l) (j : Nat) :
    coreAt (placeCores s t key quad m l j) c = coreAt s c := by
  induction l generalizing s j with
  | nil => rfl
  | cons k l ih =>
    obtain ⟨hk, hl⟩ := not_or.mp (mt List.mem_cons.mpr h)
    rw [placeCores, ih hl, coreAt_setCore_ne _ _ hk]

/-- R114, R286: a core of the team is fresh, and belongs to it. -/
theorem coreAt_placeCores {s : State} {t : Task} {key quad : Nat} {m : BitVec 4} {l : List Nat} {c : Nat} (h : c ∈ l) (j : Nat) :
    let x := coreAt (placeCores s t key quad m l j) c
    x.team = some key ∧ x.tiles = [] ∧ x.spad = [] ∧ x.lenient = t.info.lenient := by
  induction l generalizing s j with
  | nil => cases h
  | cons k l ih =>
    rw [placeCores]
    by_cases hl : c ∈ l
    · exact ih hl (j + 1)
    · obtain rfl : c = k := (List.mem_cons.mp h).resolve_right hl
      rw [coreAt_placeCores_other hl, coreAt_setCore_same]
      exact ⟨rfl, rfl, rfl, rfl⟩

theorem takeCool_zones (s : State) (quad : Nat) (m : BitVec 4) (task : Word) (n : Nat) : ∃ z, takeCool s quad m task n = { s with zones := z } := by
  unfold takeCool
  split
  · exact ⟨s.zones, rfl⟩
  · exact ⟨_, rfl⟩

end Sys2Proof.Machine

/-! O54: the placement of a team and of a cohort (R275, R288-R290). -/

namespace Sys2Proof.Machine

theorem lput_eq_set {α : Type} (l : List α) (i : Nat) (x : α) : lput l i x = l.set i x := by
  induction l generalizing i with
  | nil => rfl
  | cons a l ih =>
    cases i with
    | zero => rfl
    | succ i => exact congrArg (a :: ·) (ih i)

theorem teamAt_putTeam_same {t : Task} {k : Nat} (x : Team) (h : k < t.teams.length) : teamAt (putTeam t k x) k = x := by
  simp [teamAt, putTeam, lput_eq_set, h]

theorem teamAt_putTeam_ne {t : Task} {j k : Nat} (x : Team) (h : j ≠ k) : teamAt (putTeam t k x) j = teamAt t j := by
  simp only [teamAt, putTeam, lput_eq_set]
  rw [List.getElem?_set_ne (Ne.symm h)]

theorem putTeam_length (t : Task) (k : Nat) (x : Team) : (putTeam t k x).teams.length = t.teams.length := by
  simp [putTeam, lput_eq_set]

/-- A task whose team k has been placed on the cores of a mask. -/
def withPlaced (t : Task) (k quad : Nat) (m : BitVec 4) : Task :=
  putTeam t k { teamAt t k with die := some (quad / 16), phase := .placed, quad := quad, mask := m }

theorem placeTeam_eq {s : State} {key quad k : Nat} {t : Task} {m : BitVec 4} (h : freeMask s quad (coresNeeded t.info) = some m) :
    placeTeam s key t k quad = takeCool (startStrands (placeCores (recountDie (setTask s key (withPlaced t k quad m)) key (withPlaced t k quad m)) t
      (teamKey key k) quad m (maskCores quad m) 0) t k quad m (t.info.spt + 1)) quad m t.info.taskId t.info.cool := by
  unfold placeTeam
  rw [h]
  rfl

/-- R285-R289: what the placement of a team leaves: its task with the team placed, its cores, and its strands. -/
theorem placeTeam_leaves {s : State} {key quad k : Nat} {t : Task} {m : BitVec 4} (h : freeMask s quad (coresNeeded t.info) = some m) :
    let u := placeTeam s key t k quad
    u.mem = s.mem ∧ u.ops = s.ops ∧ taskNo u key = some (withPlaced t k quad m) ∧
      (∀ c ∈ maskCores quad m, (coreAt u c).team = some (teamKey key k) ∧ (coreAt u c).tiles = [] ∧ (coreAt u c).spad = [] ∧
        (coreAt u c).lenient = t.info.lenient) ∧
      ∀ j ≤ t.info.spt, ∃ old, seqAt u (strandSeq quad m j) = strandStart t k j old := by
  obtain ⟨hlen, hdup⟩ := freeMask_cores h
  rw [placeTeam_eq h]
  generalize hs1 : recountDie (setTask s key (withPlaced t k quad m)) key (withPlaced t k quad m) = s1
  generalize hs2 : placeCores s1 t (teamKey key k) quad m (maskCores quad m) 0 = s2
  generalize hs3 : startStrands s2 t k quad m (t.info.spt + 1) = s3
  obtain ⟨z, hz⟩ := takeCool_zones s3 quad m t.info.taskId t.info.cool
  obtain ⟨q, hq⟩ := startStrands_seqs s2 t k quad m (t.info.spt + 1)
  obtain ⟨c, hc⟩ := placeCores_cores s1 t (teamKey key k) quad m (maskCores quad m) 0
  have hcores : ∀ c, coreAt s3 c = coreAt s2 c := fun c => by rw [← hs3, hq]; rfl
  have hall : s3 = { s1 with cores := c, seqs := q } := by rw [← hs3, hq, ← hs2, hc]
  rw [hz]
  refine ⟨?_, ?_, ?_, fun c hc => ?_, fun j hj => ?_⟩
  · rw [hall, ← hs1]; rfl
  · rw [hall, ← hs1]; rfl
  · rw [hall, ← hs1]; exact taskNo_setTask_same ..
  · rw [show coreAt { s3 with zones := z } c = coreAt s3 c from rfl, hcores, ← hs2]
    exact coreAt_placeCores hc 0
  · rw [show seqAt { s3 with zones := z } (strandSeq quad m j) = seqAt s3 (strandSeq quad m j) from rfl, ← hs3]
    have hcore : ∀ i < t.info.spt + 1, i / 2 < (maskCores quad m).length := by
      intro i hi
      rw [hlen, coresNeeded]
      omega
    exact seqAt_startStrands s2 t k (by omega) (fun i hi j hj => strandSeq_inj hdup (hcore i hi) (hcore j hj))

theorem bestQuad_mem {s : State} {l : List Nat} {q : Nat} (h : bestQuad s l = some q) : q ∈ l := by
  induction l generalizing q with
  | nil => cases h
  | cons k l ih =>
    unfold bestQuad at h
    split at h
    · cases h
      exact List.mem_cons_self
    · next m hm =>
      split at h <;> cases h
      · exact List.mem_cons_of_mem _ (ih hm)
      · exact List.mem_cons_self

/-- R289: the best quad has free cores for the team. -/
theorem bestQuad_free {s : State} {die quad : Nat} {r : LaunchRec} (h : bestQuad s (freeQuads s die r) = some quad) :
    ∃ m, freeMask s quad (coresNeeded r) = some m := by
  have hm := (List.mem_filter.mp (bestQuad_mem h)).2
  rw [Bool.and_eq_true] at hm
  exact Option.isSome_iff_exists.mp hm.1

/-- R289, R291: the head of a die's order, a team of that die with its launch views ready, goes on the best quad. -/
theorem placeNext_places {s : State} {die quad : Nat} {e : OrderEntry} {t : Task} (he : orderHead s die = some e) (hc : e.cohort = false)
    (hr : e.restore = false) (ht : taskNo s e.key = some t) (hd : (teamAt t e.team).die = some die) (hg : (dieAt s die).go = true)
    (hv : viewsReady t die = true) (hq : bestQuad s (freeQuads s die t.info) = some quad) : placeNext s die = placeTeam s e.key t e.team quad := by
  simp [placeNext, placeOn, he, hc, hr, ht, hd, hg, hv, hq]

/-- R275: TEAM_PLACE takes the one launch that waits, and nothing keeps waiting. -/
theorem placeHead_takes {s : State} {die : Nat} {a : AskedLaunch} (ha : (dieAt s die).asked = [a]) (hacc : accepting s die = true)
    (hh : askedHeld (setDie s die { dieAt s die with asked := [] }) die a = false) :
    placeHead s die = placeNext (acceptLaunch (setDie s die { dieAt s die with asked := [] }) die a) die := by
  simp [placeHead, takeAsked_accepting hacc ha, takeLaunches, hh]

/-- R290: a cohort that is placed has each of its teams placed. -/
theorem placeCohort_places {n k key : Nat} {s u : State} {t : Task} (h : placeCohort n k s key = some u) (ht : taskNo s key = some t)
    (hk : k + n = t.teams.length) (hp : ∀ j < k, (teamAt t j).phase = .placed) :
    ∃ v, taskNo u key = some v ∧ ∀ j < t.teams.length, (teamAt v j).phase = .placed := by
  induction n generalizing k s t with
  | zero =>
    cases h
    exact ⟨t, ht, fun j hj => hp j (by omega)⟩
  | succ n ih =>
    unfold placeCohort at h
    simp only [ht] at h
    split at h
    · cases h
    · next d hd =>
      split at h
      · cases h
      · split at h
        · cases h
        · next quad hq =>
          obtain ⟨m, hm⟩ := bestQuad_free hq
          obtain ⟨-, -, hu, -⟩ := placeTeam_leaves (key := key) (k := k) hm
          have hlen : (withPlaced t k quad m).teams.length = t.teams.length := putTeam_length ..
          rw [← hlen]
          refine ih h hu (by omega) (fun j hj => ?_)
          by_cases hjk : j = k
          · subst hjk
            rw [withPlaced, teamAt_putTeam_same _ (by omega)]
          · rw [withPlaced, teamAt_putTeam_ne _ hjk]
            exact hp j (by omega)

end Sys2Proof.Machine

/-! O54: the launch views of a task (R162, R163, R291, R321). -/

namespace Sys2Proof.Machine

/-- A directory holds launch view v of a task, for the teams of a die. -/
def HoldsView (s : State) (key die : Nat) (v : Nat × View) (d : Nat) : Prop := ∃ x ∈ flockAt s d, x.task = some key ∧ x.reg = v.1 ∧ die ∈ x.dies

theorem flockAt_tput (s : State) (d j : Nat) (l : List FlockEntry) :
    flockAt { s with flock := tput s.flock d l } j = if j = d then l else flockAt s j := tget_tput ..

theorem mem_addDie (die : Nat) (e : FlockEntry) : die ∈ (addDie die e).dies := by
  unfold addDie
  split
  · next h => exact List.contains_iff_mem.mp h
  · simp

theorem addDie_keeps (die : Nat) (e : FlockEntry) : (addDie die e).task = e.task ∧ (addDie die e).reg = e.reg ∧ ∀ d ∈ e.dies, d ∈ (addDie die e).dies := by
  unfold addDie
  split
  · exact ⟨rfl, rfl, fun d h => h⟩
  · exact ⟨rfl, rfl, fun d h => List.mem_append_left _ h⟩

/-- R162: the entries of a view that a further die's teams open too stand as they were for every other view and die. -/
theorem holdsView_addDie {s : State} {key die k j : Nat} {v w : Nat × View} {d c : Nat} (h : HoldsView s k j w c) :
    HoldsView { s with flock := tput s.flock d ((flockAt s d).map (fun e => if isLaunchEntry key v e then addDie die e else e)) } k j w c := by
  obtain ⟨x, hx, ht, hr, hd⟩ := h
  unfold HoldsView
  rw [flockAt_tput]
  split
  · next hc =>
    subst hc
    refine ⟨_, List.mem_map.mpr ⟨x, hx, rfl⟩, ?_⟩
    split
    · obtain ⟨h1, h2, h3⟩ := addDie_keeps die x
      exact ⟨h1.trans ht, h2.trans hr, h3 j hd⟩
    · exact ⟨ht, hr, hd⟩
  · exact ⟨x, hx, ht, hr, hd⟩

theorem holdsView_addEntry {s : State} {k j : Nat} {w : Nat × View} {d c : Nat} (e : FlockEntry) (wide : Bool) (h : HoldsView s k j w c) :
    HoldsView (addEntry s d e wide) k j w c := by
  obtain ⟨x, hx, hs⟩ := h
  unfold HoldsView addEntry
  rw [flockAt_tput]
  split
  · next hc =>
    subst hc
    exact ⟨x, List.mem_append_left _ hx, hs⟩
  · exact ⟨x, hx, hs⟩

/-- R291, R321: a directory stops the registration of a view, or holds the view after it, and every view that the directories held. -/
theorem registerLaunchView_cons (s : State) (key : Nat) (t : Task) (die : Nat) (v : Nat × View) (d : Nat) (ds : List Nat) :
    registerLaunchView s key t die v (d :: ds) = (s, false) ∨
      ∃ l, registerLaunchView s key t die v (d :: ds) = registerLaunchView { s with flock := l } key t die v ds ∧
        HoldsView { s with flock := l } key die v d ∧ ∀ k j w c, HoldsView s k j w c → HoldsView { s with flock := l } k j w c := by
  rw [registerLaunchView]
  dsimp only
  split
  · next e he =>
    split
    · exact .inl rfl
    · refine .inr ⟨_, rfl, ?_, fun k j w c => holdsView_addDie⟩
      have hv := List.find?_some he
      obtain ⟨ht, hr⟩ : e.task = some key ∧ e.reg = v.1 := by simpa [isLaunchEntry] using hv
      obtain ⟨h1, h2, -⟩ := addDie_keeps die e
      refine ⟨addDie die e, ?_, h1.trans ht, h2.trans hr, mem_addDie die e⟩
      rw [flockAt_tput, if_pos rfl]
      exact List.mem_map.mpr ⟨e, List.mem_of_find?_eq_some he, if_pos hv⟩
  · exact .inl rfl
  · next w _ _ =>
    split
    · exact .inl rfl
    · refine .inr ⟨_, rfl, ?_, fun k j w' c => holdsView_addEntry (launchEntry key t die v) w⟩
      refine ⟨{ launchEntry key t die v with wide := w }, ?_, rfl, rfl, List.mem_singleton_self die⟩
      rw [flockAt_tput, if_pos rfl]
      exact List.mem_append_right _ (List.mem_singleton_self _)

/-- R291, R321: the registration of a view changes the directories alone, keeps the views that they held, and when it is done has reached each of its
directories. -/
theorem registerLaunchView_leaves (s : State) (key : Nat) (t : Task) (die : Nat) (v : Nat × View) (ds : List Nat) :
    let r := registerLaunchView s key t die v ds
    (∃ l, r.1 = { s with flock := l }) ∧ (∀ k j w c, HoldsView s k j w c → HoldsView r.1 k j w c) ∧
      (r.2 = true → ∀ d ∈ ds, HoldsView r.1 key die v d) := by
  induction ds generalizing s with
  | nil => exact ⟨⟨s.flock, rfl⟩, fun _ _ _ _ h => h, fun _ d hd => by cases hd⟩
  | cons d ds ih =>
    obtain h | ⟨l, h, hd, hk⟩ := registerLaunchView_cons s key t die v d ds
    · rw [h]
      exact ⟨⟨s.flock, rfl⟩, fun _ _ _ _ h => h, fun h => by cases h⟩
    · rw [h]
      obtain ⟨⟨l', hl⟩, hkeep, hdone⟩ := ih { s with flock := l }
      refine ⟨⟨l', hl⟩, fun k j w c hw => hkeep k j w c (hk k j w c hw), fun hr c hc => ?_⟩
      obtain rfl | hc := List.mem_cons.mp hc
      · exact hkeep _ _ _ _ hd
      · exact hdone hr c hc

/-- R291: the same of the launch views of a list, in turn. -/
theorem registerLaunch_leaves (s : State) (key : Nat) (t : Task) (die : Nat) (vs : List (Nat × View)) :
    let r := registerLaunch s key t die vs
    (∃ l, r.1 = { s with flock := l }) ∧ (∀ k j w c, HoldsView s k j w c → HoldsView r.1 k j w c) ∧
      (r.2 = true → ∀ v ∈ vs, ∀ d ∈ flockDies v.2 die, HoldsView r.1 key die v d) := by
  induction vs generalizing s with
  | nil => exact ⟨⟨s.flock, rfl⟩, fun _ _ _ _ h => h, fun _ v hv => by cases hv⟩
  | cons v vs ih =>
    obtain ⟨⟨l, hl⟩, hkeep, hdone⟩ := registerLaunchView_leaves s key t die v (flockDies v.2 die)
    rw [registerLaunch]
    dsimp only
    split
    · next hr =>
      obtain ⟨⟨l', hl'⟩, hkeep', hdone'⟩ := ih (registerLaunchView s key t die v (flockDies v.2 die)).1
      refine ⟨⟨l', hl'.trans (by rw [hl])⟩, fun k j w c hw => hkeep' k j w c (hkeep k j w c hw), fun hr' w hw d hd => ?_⟩
      obtain rfl | hw := List.mem_cons.mp hw
      · exact hkeep' _ _ _ _ (hdone hr d hd)
      · exact hdone' hr' w hw d hd
    · next hr => exact ⟨⟨l, hl⟩, hkeep, fun hr' => absurd hr' hr⟩

/-- R291: LAUNCH_VIEW_REGISTER of a task whose die is about to place it. -/
theorem registerViews_runs {s : State} {die key : Nat} {t : Task} (ht : taskNo s key = some t) (hw : wantsViews s die key t = true) (hd : die ∉ t.dies)
    (hp : t.parked = false) (hk : t.killed = false) :
    registerViews s die key =
      if (registerLaunch s key t die (launchViews t.info)).2 then
        setTask (registerLaunch s key t die (launchViews t.info)).1 key { t with dies := t.dies ++ [die] }
      else (registerLaunch s key t die (launchViews t.info)).1 := by
  simp [registerViews, ht, hw, hd, hp, hk]

section
variable {s : State} {key die : Nat} {t : Task} {v : Nat × View} (hn : (flockAt s die).find? (isLaunchEntry key v) = none)
include hn

/-- A new view of a directory conflicts there with any entry that it meets. -/
theorem launchConflicts_eq (e : FlockEntry) :
    (flockAt s die).any (fun x => !isLaunchEntry key v x && flockConflict s x e) = (flockAt s die).any (fun x => flockConflict s x e) := by
  rw [← List.any_filter, List.filter_eq_self.mpr]
  exact fun x hx => by simpa using List.find?_eq_none.mp hn x hx

variable (hf : flockDies v.2 die = [die])
include hf

/-- R163: a directory without room registers nothing. -/
theorem registerLaunch_full (hr : flockRoom (flockAt s die) t.asid v.2 = none) : registerLaunch s key t die [v] = (s, false) := by
  simp [registerLaunch, registerLaunchView, hf, hn, hr]

/-- R162, R291: a conflict registers nothing. -/
theorem registerLaunch_conflict {w : Bool} (hr : flockRoom (flockAt s die) t.asid v.2 = some w)
    (hc : ∃ x ∈ flockAt s die, flockConflict s x { launchEntry key t die v with wide := w } = true) :
    registerLaunch s key t die [v] = (s, false) := by
  have hany := (launchConflicts_eq hn { launchEntry key t die v with wide := w }).trans (List.any_eq_true.mpr hc)
  simp [registerLaunch, registerLaunchView, hf, hn, hr, hany]

/-- R163, R291: without one, the view joins the directory. -/
theorem registerLaunch_joins {w : Bool} (hr : flockRoom (flockAt s die) t.asid v.2 = some w)
    (hc : ∀ x ∈ flockAt s die, flockConflict s x { launchEntry key t die v with wide := w } = false) :
    registerLaunch s key t die [v] = (addEntry s die (launchEntry key t die v) w, true) := by
  have hany := (launchConflicts_eq hn { launchEntry key t die v with wide := w }).trans (List.any_eq_false.mpr fun x hx => by simp [hc x hx])
  simp [registerLaunch, registerLaunchView, hf, hn, hr, hany]

end

end Sys2Proof.Machine

/-! O54: the messages of a barrier (R308, R316, R328). -/

namespace Sys2Proof.Machine

section
variable {s : State} {m : BarrierMsg} (hm : s.barMsgs.find? (fun x => x.id == m.id) = some m)
include hm

theorem deliverBarrier_behind (hb : messageBehind s m = true) : deliverBarrier s m.id = s := by
  simp [deliverBarrier, hm, hb]

theorem deliverBarrier_completion (hb : messageBehind s m = false) (ha : m.arrival = false) :
    deliverBarrier s m.id = completePhase { s with barMsgs := s.barMsgs.filter (fun x => x.id != m.id) } m.key := by
  simp [deliverBarrier, hm, hb, ha]

theorem deliverBarrier_arrival {t : Task} (hb : messageBehind s m = false) (ha : m.arrival = true) (ht : tfind s.tasks (m.key / 2 ^ 26) = some t) :
    deliverBarrier s m.id =
      homeArrival { s with barMsgs := s.barMsgs.filter (fun x => x.id != m.id) } (m.key / 2 ^ 26) t (keyScope m.key) (keyId m.key) := by
  simp only [deliverBarrier, hm, hb, ha, ht, Bool.false_eq_true, if_false, if_true]

end

section
variable {s : State} {k sc id : Nat} {t : Task}

/-- R328: an arrival before the last one is counted. -/
theorem homeArrival_counts (h : (barrierAt s (barrierKey k sc homeInst id)).count + 1 < t.info.teams * (t.info.spt + 1)) :
    homeArrival s k t sc id = setBarrier s (barrierKey k sc homeInst id)
      { barrierAt s (barrierKey k sc homeInst id) with count := (barrierAt s (barrierKey k sc homeInst id)).count + 1 } := by
  unfold homeArrival
  exact if_neg (by omega)

/-- R328, R357: the last arrival of a barrier that joins no other package completes the phase on every die. -/
theorem homeArrival_completes (hsc : sc ≠ 4 ∨ groupOf s t.info.taskId = none)
    (h : t.info.teams * (t.info.spt + 1) ≤ (barrierAt s (barrierKey k sc homeInst id)).count + 1) :
    homeArrival s k t sc id = completeEverywhere (setBarrier s (barrierKey k sc homeInst id)
      { barrierAt s (barrierKey k sc homeInst id) with count := 0 }) k sc id t.home := by
  unfold homeArrival
  refine (if_pos h).trans ?_
  unfold packageArrived
  by_cases h4 : sc = 4
  · have hg : groupOf (setBarrier s (barrierKey k sc homeInst id) { barrierAt s (barrierKey k sc homeInst id) with count := 0 }) t.info.taskId = none :=
      hsc.resolve_left (not_not_intro h4)
    rw [if_pos h4, hg]
  · rw [if_neg h4]

end

end Sys2Proof.Machine

/-! O54: the statement, part by part. -/

namespace Sys2Proof.Machine

/-- Settles O54, step by step: a team by what its placement leaves, a launch that waited by takeAsked, a cohort team by team, the launch views by what
their directories hold after each registration, and a message by what it does at its die. -/
theorem placementAndLaunchViews : Obligations.PlacementAndLaunchViews := by
  refine ⟨?_, ?_, ?_, ?_, ?_⟩
  · intro s die quad e t he hc hr ht hd hg hv hq ha hlt
    obtain ⟨m, hm⟩ := bestQuad_free hq
    obtain ⟨hmem, hops, htask, hcores, hseqs⟩ := placeTeam_leaves (key := e.key) (k := e.team) hm
    have hrun : exec (.teamPlace die) s = .next (placeTeam s e.key t e.team quad) := by
      show Host.Outcome.next (placeHead s die) = _
      rw [placeHead, takeAsked_nil ha, placeNext_places he hc hr ht hd hg hv hq]
    refine ⟨_, m, hrun, hm, hmem, hops, ⟨_, htask, ?_⟩, hcores, fun k hk => ?_⟩
    · rw [withPlaced, teamAt_putTeam_same _ hlt]
      exact ⟨rfl, rfl, rfl, fun k hk => teamAt_putTeam_ne _ hk⟩
    · obtain ⟨old, hold⟩ := hseqs k hk
      obtain ⟨h0, h1, h2, h3, h4⟩ := strandStart_regs t e.team k old
      rw [hold]
      exact ⟨rfl, rfl, rfl, rfl, rfl, rfl, h0, h1, h2, h3, h4, rfl, rfl, rfl, fun n hn hvm => viewAt_strandStart t e.team k old hn hvm⟩
  · intro s die a ha hacc hh u
    have hu : placeHead s die = placeNext u die := placeHead_takes ha hacc hh
    refine ⟨fun hn => ?_, fun hn => ?_⟩
    · show Host.Outcome.next (placeHead s die) = _
      rw [hu, placeNext, hn]
    · show Host.Outcome.next (placeHead s die) = Host.Outcome.next (placeHead u die)
      rw [hu, placeHead, takeAsked_nil hn]
  · intro s die e t he hc ht
    have hrun : exec (.cohortPlace die) s = .next ((placeCohort t.teams.length 0 s e.key).getD s) := by
      show Host.Outcome.next (placeCohortHead s die) = _
      simp [placeCohortHead, he, hc, ht]
    refine ⟨fun u hu => ⟨by rw [hrun, hu]; rfl, fun k hk => ?_⟩, fun hn => by rw [hrun, hn]; rfl⟩
    obtain ⟨v, hv, hp⟩ := placeCohort_places hu ht (Nat.zero_add _) (fun j hj => absurd hj (Nat.not_lt_zero j))
    exact ⟨v, hv, hp k hk⟩
  · intro s die key t ht hw hd hp hk run r
    have hrun : run = .next (if r.2 then setTask r.1 key { t with dies := t.dies ++ [die] } else r.1) :=
      congrArg Host.Outcome.next (registerViews_runs ht hw hd hp hk)
    obtain ⟨⟨l, hl : r.1 = { s with flock := l }⟩, -, hdone⟩ := registerLaunch_leaves s key t die (launchViews t.info)
    refine ⟨⟨_, hrun, ?_, ?_, fun hr => ?_, fun hr => ?_⟩, fun v hv hf hn => ⟨fun hroom => ?_, fun w hroom => ⟨fun hc => ?_, fun hc => ?_⟩⟩⟩
    · split <;> simp [hl, setTask]
    · split <;> simp [hl, setTask]
    · rw [hr, hl]; rfl
    · rw [if_pos hr]
      exact ⟨taskNo_setTask_same .., hdone hr⟩
    · have hr : r = (s, false) := (congrArg (registerLaunch s key t die) hv).trans (registerLaunch_full hn hf hroom)
      rw [hrun, hr]; rfl
    · have hr : r = (s, false) := (congrArg (registerLaunch s key t die) hv).trans (registerLaunch_conflict hn hf hroom hc)
      rw [hrun, hr]; rfl
    · have hr : r = (addEntry s die (launchEntry key t die v) w, true) :=
        (congrArg (registerLaunch s key t die) hv).trans (registerLaunch_joins hn hf hroom hc)
      rw [hrun, hr]
      exact ⟨_, rfl, (flockAt_tput s die die _).trans (if_pos rfl), fun d hne => (flockAt_tput s die d _).trans (if_neg hne), taskNo_setTask_same ..⟩
  · intro s m hm
    refine ⟨fun hb => congrArg Host.Outcome.next (deliverBarrier_behind hm hb), fun ha hb => ?_, fun t ha hb ht hlt => ?_,
      fun t ha hb ht hsc hle => ?_⟩
    · exact ⟨_, congrArg Host.Outcome.next (deliverBarrier_completion hm hb ha), barrierAt_setBarrier_same ..,
        fun k hk => barrierAt_setBarrier_ne _ _ hk, rfl, rfl, rfl⟩
    · exact ⟨_, congrArg Host.Outcome.next ((deliverBarrier_arrival hm hb ha ht).trans (homeArrival_counts hlt)), barrierAt_setBarrier_same .., rfl, rfl⟩
    · exact congrArg Host.Outcome.next ((deliverBarrier_arrival hm hb ha ht).trans (homeArrival_completes hsc hle))

end Sys2Proof.Machine

/-! The rows of instructions that work element by element (R129): what a ready one leaves, from its elements' results or from its codes. -/

namespace Sys2Proof.Machine

section
variable {i : Instr} {s : State} {l : Bool} {td ta tb rs : BitVec 4} {k f : Nat} {F : State → Row → Row → Row → Nat → Row × Flags}
  (o : SlotOutcome) (he : exec i s = o) (ho : o = rowOp i l td ta tb rs k F s)
include he ho

/-- R106, R129: a ready row operation, whose row is put together from results x that are those of `res`. -/
theorem rowResult_of_elements {x res : Nat → Nat × Flags}
    (hx : F s (myRow s td (vRows s rs).1) (myRow s ta (vRows s rs).2.1) (myRow s tb (vRows s rs).2.2) (vRows s rs).2.1 = rowOfFlags f x)
    (h : ∀ j, x j = res j) (hr : slotReady i s = true) : rowResult i s (if l then 4 else 3) td (vRows s rs).1 f k res := by
  obtain rfl : x = res := funext h
  obtain ⟨hrow, hflags⟩ := rowOfFlags_result f x
  exact rowResult_of_row o he ho hx hrow hflags hr

/-- R129: a ready row operation without flags, whose row has the low bits of `res` as its codes. -/
theorem rowResult_of_quiet {row : Row} {res : Nat → Nat}
    (hx : F s (myRow s td (vRows s rs).1) (myRow s ta (vRows s rs).2.1) (myRow s tb (vRows s rs).2.2) (vRows s rs).2.1 = (row, 0))
    (hrow : ∀ j < fmtCount f, elemAt f row j = res j % 2 ^ fmtWidth f) (hr : slotReady i s = true) :
    rowResult i s (if l then 4 else 3) td (vRows s rs).1 f k (fun j => (res j, 0)) :=
  rowResult_of_row o he ho hx hrow (noFlags _).symm hr

/-- R129: a ready row operation without flags, whose row is put together from codes c that agree with `res` in the format's bits. -/
theorem rowResult_of_codes {c res : Nat → Nat}
    (hx : F s (myRow s td (vRows s rs).1) (myRow s ta (vRows s rs).2.1) (myRow s tb (vRows s rs).2.2) (vRows s rs).2.1 = (rowOf f c, 0))
    (h : ∀ j, c j % 2 ^ fmtWidth f = res j % 2 ^ fmtWidth f) (hr : slotReady i s = true) :
    rowResult i s (if l then 4 else 3) td (vRows s rs).1 f k (fun j => (res j, 0)) :=
  rowResult_of_quiet o he ho hx (fun j hj => (elemAt_rowOf f c j hj).trans (h j)) hr

end

end Sys2Proof.Machine

/-! O25: the arithmetic of two rows, or of a row and a scalar (R132, R134, R150). -/

namespace Sys2Proof.Machine

/-- R134: the chosen one of two integer elements. -/
theorem pickInt_eq (f : Nat) (big : Bool) (x y : Nat) :
    pickInt f big x y = if decide (decodeInt f x < decodeInt f y) = big then (y, 0) else (x, 0) := by
  unfold pickInt
  by_cases h : decide (decodeInt f x < decodeInt f y) = big
  · rw [if_pos h, if_pos (beq_iff_eq.mpr h)]
  · rw [if_neg h, if_neg (fun hb => h (beq_iff_eq.mp hb))]

/-- R134: the chosen one of two elements of any format. -/
theorem elemPick_eq (f : Nat) (big : Bool) (x y : Nat) : elemPick f big x y =
    if isFloat f then pickFloat f big x y else if decide (decodeInt f x < decodeInt f y) = big then (y, 0) else (x, 0) := by
  rw [elemPick, pickInt_eq]

/-- Settles O25: each row is put together from its elements, whose sums, differences and products are the element operation's own definition;
the choice of VMIN and VMAX is `elemPick_eq`. -/
theorem rowArithmeticResults : Obligations.RowArithmeticResults := by
  intro s l g fmt td ta tb rs _ f r A B C S m V N w sum mul fma pick
  have hpick : ∀ big j, elemPick f big (A j) (B j) = pick big (A j) (B j) := fun big j => elemPick_eq f big (A j) (B j)
  exact ⟨rowResult_of_elements (execVadd l g fmt td ta tb rs s) rfl rfl rfl (fun _ => rfl),
    rowResult_of_elements (execVsub l g fmt td ta tb rs s) rfl rfl rfl (fun _ => rfl),
    rowResult_of_elements (execVmul l g fmt td ta tb rs s) rfl rfl rfl (fun _ => rfl),
    rowResult_of_elements (execVfma l g fmt td ta tb rs s) rfl rfl rfl (fun _ => rfl),
    rowResult_of_elements (execVmin l g fmt td ta tb rs s) rfl rfl rfl (hpick false),
    rowResult_of_elements (execVmax l g fmt td ta tb rs s) rfl rfl rfl (hpick true),
    rowResult_of_elements (execVadds l g fmt td ta tb rs s) rfl rfl rfl (fun _ => rfl),
    rowResult_of_elements (execVmuls l g fmt td ta tb rs s) rfl rfl rfl (fun _ => rfl),
    rowResult_of_elements (execVfmas l g fmt td ta tb rs s) rfl rfl rfl (fun _ => rfl)⟩

end Sys2Proof.Machine

/-! O26: the signs, bits and shifts of codes (R135, R136), and the compares (R137). -/

namespace Sys2Proof.Machine

/-- R92: the codes of a format are twice as many as those without the top bit. -/
theorem two_pow_fmtWidth (f : Nat) : 2 ^ fmtWidth f = 2 ^ (fmtWidth f - 1) * 2 := (Nat.two_pow_pred_mul_two (fmtWidth_pos f)).symm

section
variable {f c : Nat} (hc : c < 2 ^ fmtWidth f)
include hc

/-- R135: VABS of a floating code takes its top bit away. -/
theorem elemAbs_eq : elemAbs f c =
    if isFloat f then (if decide (2 ^ (fmtWidth f - 1) ≤ c) then c - 2 ^ (fmtWidth f - 1) else c, 0) else satInt f ((decodeInt f c).natAbs : Int) := by
  have hcode : c % 2 ^ (fmtWidth f - 1) = if decide (2 ^ (fmtWidth f - 1) ≤ c) then c - 2 ^ (fmtWidth f - 1) else c := by
    rw [two_pow_fmtWidth] at hc
    by_cases h : 2 ^ (fmtWidth f - 1) ≤ c
    · rw [if_pos (decide_eq_true h), Nat.mod_eq_sub_mod h, Nat.mod_eq_of_lt (by omega)]
    · rw [if_neg (by simpa using h), Nat.mod_eq_of_lt (Nat.lt_of_not_le h)]
  rw [elemAbs, hcode]

/-- R135: VNEG of a floating code inverts its top bit. -/
theorem elemNeg_eq : elemNeg f c =
    if isFloat f then (if decide (2 ^ (fmtWidth f - 1) ≤ c) then c - 2 ^ (fmtWidth f - 1) else c + 2 ^ (fmtWidth f - 1), 0)
    else satInt f (-(decodeInt f c)) := by
  have hcode : (c + 2 ^ (fmtWidth f - 1)) % 2 ^ fmtWidth f =
      if decide (2 ^ (fmtWidth f - 1) ≤ c) then c - 2 ^ (fmtWidth f - 1) else c + 2 ^ (fmtWidth f - 1) := by
    rw [two_pow_fmtWidth] at hc ⊢
    by_cases h : 2 ^ (fmtWidth f - 1) ≤ c
    · rw [if_pos (decide_eq_true h), Nat.mod_eq_sub_mod (by omega), Nat.mod_eq_of_lt (by omega)]
      omega
    · rw [if_neg (by simpa using h), Nat.mod_eq_of_lt (by omega)]
  rw [elemNeg, hcode]

/-- R136: VSRA of a code by a count, which counts as the width from the width on. -/
theorem codeSra_eq (n : Nat) : codeSra (fmtWidth f) c n = c / 2 ^ min n (fmtWidth f) +
    if decide (2 ^ (fmtWidth f - 1) ≤ c) then 2 ^ fmtWidth f - 2 ^ (fmtWidth f - min n (fmtWidth f)) else 0 := by
  have htop : c / 2 ^ (fmtWidth f - 1) = 1 ↔ decide (2 ^ (fmtWidth f - 1) ≤ c) = true := by
    have hpos := Nat.two_pow_pos (fmtWidth f - 1)
    have hw := two_pow_fmtWidth f
    rw [decide_eq_true_iff, Nat.div_eq_iff hpos]
    omega
  unfold codeSra
  simp only [htop]
  split
  next h => rw [Nat.min_eq_left (Nat.le_of_lt h)]
  next h => rw [Nat.min_eq_right (Nat.le_of_not_lt h), Nat.div_eq_of_lt hc, Nat.zero_add]

end

/-- R136: VSHL of a code in the format's bits. -/
theorem codeShl_mod (w c n : Nat) : codeShl w c n % 2 ^ w = (if n < w then c * 2 ^ n else 0) % 2 ^ w := by
  unfold codeShl
  split
  · exact Nat.mod_mod _ _
  · rfl

/-- R137: the mask and the flags of a compare: a NaN makes its condition false, and counts for NV when signalling, or in any case under `any`. -/
theorem elemCmp_eq (f : Nat) (any : Bool) (fl : Val → Val → Bool) (it : Int → Int → Bool) (x y : Nat) :
    let nans := isNan (decodeFloat f x) || isNan (decodeFloat f y)
    elemCmp f any fl it x y =
      if isFloat f then (maskCode f (!nans && fl (decodeFloat f x) (decodeFloat f y)),
        if nans && (any || (isSig (decodeFloat f x) || isSig (decodeFloat f y))) then flagNV else 0)
      else (maskCode f (it (decodeInt f x) (decodeInt f y)), 0) := by
  intro nans
  have hnans : nans = (isNan (decodeFloat f x) || isNan (decodeFloat f y)) := rfl
  unfold elemCmp
  dsimp only
  rw [← hnans]
  cases nans with
  | true => simp only [if_true, Bool.not_true, Bool.false_and, Bool.true_and, Bool.or_assoc, flagIf, maskCode, Bool.false_eq_true, if_false]
  | false => simp only [Bool.false_eq_true, if_false, Bool.not_false, Bool.true_and, Bool.false_and]

/-- Settles O26: each row is put together from its elements, by the lemma of the operation on one code or two. -/
theorem rowLogicAndCompareResults : Obligations.RowLogicAndCompareResults := by
  intro s l g fmt td ta tb rs _ f r W A B C V N w top mask nans sig cmp
  have hA : ∀ j, A j < 2 ^ fmtWidth f := elemAt_lt f _
  have hcmp : ∀ any fl it j, elemCmp f any fl it (A j) (B j) = cmp any fl it j := fun any fl it j => elemCmp_eq f any fl it (A j) (B j)
  exact ⟨rowResult_of_elements (execVabs l g fmt td ta rs s) rfl rfl rfl (fun j => elemAbs_eq (hA j)),
    rowResult_of_elements (execVneg l g fmt td ta rs s) rfl rfl rfl (fun j => elemNeg_eq (hA j)),
    rowResult_of_codes (execVmov l g fmt td ta rs s) rfl rfl rfl (fun _ => rfl),
    rowResult_of_codes (execVand l g fmt td ta tb rs s) rfl rfl rfl (fun _ => rfl),
    rowResult_of_codes (execVor l g fmt td ta tb rs s) rfl rfl rfl (fun _ => rfl),
    rowResult_of_codes (execVxor l g fmt td ta tb rs s) rfl rfl rfl (fun _ => rfl),
    rowResult_of_codes (execVshl l g fmt td ta tb rs s) rfl rfl rfl (fun j => codeShl_mod W (A j) (B j)),
    rowResult_of_codes (execVshr l g fmt td ta tb rs s) rfl rfl rfl (fun _ => rfl),
    rowResult_of_codes (execVsra l g fmt td ta tb rs s) rfl rfl rfl (fun j => congrArg (· % 2 ^ W) (codeSra_eq (hA j) (B j))),
    rowResult_of_elements (execVcmpeq l g fmt td ta tb rs s) rfl rfl rfl (hcmp _ _ _),
    rowResult_of_elements (execVcmplt l g fmt td ta tb rs s) rfl rfl rfl (hcmp _ _ _),
    rowResult_of_elements (execVcmple l g fmt td ta tb rs s) rfl rfl rfl (hcmp _ _ _),
    rowResult_of_codes (execVsel l g fmt td ta tb rs s) rfl rfl rfl (fun _ => rfl)⟩

end Sys2Proof.Machine

/-! O28: the movement of elements (R144-R149). -/

namespace Sys2Proof.Machine

/-- R145: the scalar of a code: of an INT format with the sign of its top bit. -/
theorem extendCode_eq (f c : Nat) : extendCode f c = if isInt f
    then BitVec.ofInt 32 (if 2 ^ (fmtWidth f - 1) ≤ c then (c : Int) - (2 ^ fmtWidth f : Nat) else c) else BitVec.ofNat 32 c := by
  unfold extendCode decodeInt
  split
  next h => simp only [h, Bool.true_and, decide_eq_true_eq]
  next => rfl

/-- R146: a row with the element e replaced by a code, in the format's bits. -/
theorem elemAt_insert (f : Nat) (row : Row) {e : Nat} (x : Nat) (he : e < fmtCount f) : ∀ j < fmtCount f,
    elemAt f (rowPut row (fmtStride f * e) (fmtStride f) (BitVec.ofNat (fmtStride f) x)) j =
      (if j = e then x else elemAt f row j) % 2 ^ fmtWidth f := by
  intro j hj
  rw [elemAt_rowPut f row e x j he hj]
  split
  · rfl
  · exact (Nat.mod_eq_of_lt (elemAt_lt f row j)).symm

/-- Settles O28: each row is put together from the codes that it moves, without a flag; VINS replaces one element of the old row, and VEXT's
result is a scalar's. -/
theorem rowMovementResults : Obligations.RowMovementResults := by
  intro s l g fmt td ta tb rs half _ f n r A B C S code w G E
  have he : (S tb).toNat % n < fmtCount f := Nat.mod_lt _ (fmtCount_pos f)
  exact ⟨rowResult_of_codes (execVbcs l g fmt td tb rs s) rfl rfl rfl (fun _ => rfl),
    rowResult_of_quiet (execVins l g fmt td ta tb rs s) rfl rfl rfl (elemAt_insert f _ (code ta) he),
    does_withScalar (execVext l g fmt td ta tb rs s) rfl rfl rfl (extendCode_eq f E),
    rowResult_of_codes (execVperm l g fmt td ta tb rs s) rfl rfl rfl (fun _ => rfl),
    rowResult_of_codes (execVlsh l g fmt td ta tb rs s) rfl rfl rfl (fun _ => rfl),
    rowResult_of_codes (execVpack l g fmt td ta tb rs s) rfl rfl rfl (fun _ => rfl),
    rowResult_of_codes (execVunpk l g fmt td ta half rs s) rfl rfl rfl (fun _ => rfl)⟩

end Sys2Proof.Machine

/-! O31: the transfers of tiles at their issue (R124, R158, R169, R173-R177). -/

namespace Sys2Proof.Machine

/-- R173, R174: a load whose rows pass their checks enters the memory path. -/
theorem loadOp_enters {t v cls : BitVec 4} {cx : Bool} {rows : RowList} {s : State} (h : checkRows s (myView s v) rows false = .ok) :
    loadOp t v cx cls rows s = .ok (withOp s (opOf s 5 (some (viewClass (myView s v) cx cls)) none [t.toNat] [(myView s v).handle]
      (.load t.toNat rows (myView s v)) [v.toNat])) := afterCheck_ok h 5 _

/-- R173, R174: a store whose rows pass their checks enters the memory path with the tile as it stands. -/
theorem storeOp_enters {t v cls : BitVec 4} {cx : Bool} {rows : RowList} {s : State} (h : checkRows s (myView s v) rows true = .ok) :
    storeOp t v cx cls rows s = .ok (withOp s (opOf s 5 none (some (viewClass (myView s v) cx cls)) [] [(myView s v).handle]
      (.store (myTile s t) rows (myView s v)) [v.toNat])) := afterCheck_ok h 5 _

/-- Settles O31: the frame of each view transfer enters one operation when its rows pass, that of a scratchpad transfer or tile write always; PREF, and
TMOVT of a tile to itself, leave the state. -/
theorem tileTransfersEnterTheEngines : Obligations.TileTransfersEnterTheEngines := by
  intro s g t ts v a cx cls V c rows named tile w
  refine ⟨fun h hr => does_of_body (execTld g t v a cx cls s) hr rfl rfl (loadOp_enters h),
    fun h hr => does_of_body (execTst g t v a cx cls s) hr rfl rfl (storeOp_enters h),
    fun h hr => does_of_body (execTgath g t v a cx cls s) hr rfl rfl (loadOp_enters h),
    fun h hr => does_of_body (execTscat g t v a cx cls s) hr rfl rfl (storeOp_enters h),
    fun hr => does_of_body (execPref g v a s) hr rfl rfl rfl,
    fun hr => does_of_body (execTspld g t a s) hr rfl rfl rfl,
    fun hr => does_of_body (execTspst g t a s) hr rfl rfl rfl,
    fun hr => does_of_body (execTzero g t s) hr rfl rfl rfl,
    fun hne hr => does_of_body (execTmovt g t ts s) hr rfl rfl (congrArg Except.ok (if_neg hne)),
    fun he hr => does_of_body (execTmovt g t ts s) hr rfl rfl (congrArg Except.ok (if_pos he))⟩

end Sys2Proof.Machine

/-! O40: the checks that fail (R153, R178, R182, R184, R215, R237, R244, R266, R269, R283). -/

namespace Sys2Proof.Machine

/-- A ready instruction, whose meaning is o, ends in the slot fault that the body of its frame answers (R193). -/
theorem faults_of_body {i : Instr} {s : State} {f : SlotFault} {n : Nat} {body : State → Except SlotFault State} (o : SlotOutcome)
    (hr : slotReady i s = true) (he : exec i s = o) (hn : slotNo i = n) (ho : o = slotStep i s body) (hb : body s = .error f) :
    exec i s = .next (slotFault s n f) :=
  hn ▸ (he.trans ho).trans (slotStep_fault hr hb)

theorem afterCheck_fail {c : Check} {x : Nat} {aux : BitVec 64} (h : c = .fail x aux) (n : Nat) (t : State) :
    afterCheck c n t = .error { slot := n, cause := x, aux0 := aux, aux1 := 0 } := by
  subst h
  rfl

/-- The first check's failure is that of the two. -/
theorem Check.andThen_fail {a : Check} {x : Nat} {aux : BitVec 64} (h : a = .fail x aux) (b : Check) : a.andThen b = .fail x aux := by
  subst h
  rfl

theorem Check.andThen_ok {a : Check} (h : a = .ok) (b : Check) : a.andThen b = b := by
  subst h
  rfl

/-- R153: a handle that is neither current nor pinned for the slot is stale. -/
theorem checkHandle_stale {s : State} {n : Nat} {h : Word} (hc : handleCurrent s (me s).asid h = false) (hp : (n, h) ∉ (me s).pinned) :
    checkHandle s n (me s).asid h = .fail 0x20 (h.setWidth 64) := by
  simp [checkHandle, hc, hp]

theorem checkHandle_current {s : State} {n : Nat} {h : Word} (hc : handleCurrent s (me s).asid h = true ∨ (n, h) ∈ (me s).pinned) :
    checkHandle s n (me s).asid h = .ok := by
  have : (handleCurrent s (me s).asid h || ((me s).asid == (me s).asid && (me s).pinned.contains (n, h))) = true := by simpa using hc
  exact if_pos this

/-- R215: the order of MSTAT's checks. -/
theorem checkFetch_stale {s : State} {h : Word} (hc : ¬ (handleCurrent s (me s).asid h = true ∨ (6, h) ∈ (me s).pinned)) :
    checkFetch s h = .fail 0x20 (h.setWidth 64) := by
  rw [not_or, Bool.not_eq_true] at hc
  exact Check.andThen_fail (checkHandle_stale hc.1 hc.2) _

theorem checkFetch_small {s : State} {h : Word} (hc : handleCurrent s (me s).asid h = true ∨ (6, h) ∈ (me s).pinned)
    (hs : (handleEntry s (me s).asid h).size < 32768) :
    checkFetch s h = .fail 0x24 (BitVec.ofNat 64 ((handleEntry s (me s).asid h).base + (handleEntry s (me s).asid h).size)) :=
  (Check.andThen_ok (checkHandle_current hc) _).trans (Check.andThen_fail (if_pos hs) _)

/-- R266: an atomic whose word fails its checks. -/
theorem atomicOp_faults {i : Instr} {op : AtomicOp} {e x y a : BitVec 6} {v : BitVec 4} {ord sc : BitVec 2} {s : State} (hr : slotReady i s = true)
    (he : exec i s = atomicOp i op e x y v a ord sc s) (hn : slotNo i = 5) {c : Nat} {aux : BitVec 64}
    (h : checkAtomic s (viewAt (me s) v.toNat) op (src s a) = .fail c aux) :
    exec i s = .next (slotFault s 5 { slot := 5, cause := c, aux0 := aux, aux1 := 0 }) :=
  faults_of_body (atomicOp i op e x y v a ord sc s) hr he hn rfl (afterCheck_fail h 5 _)

/-- R266: the fifteen atomics, with the fields that name their operands. -/
theorem atomics_faults (s : State) (g v : BitVec 4) (d a : BitVec 6) (d5 : BitVec 5) (ord sc : BitVec 2) (c : Nat) (aux : BitVec 64) :
    ∀ p ∈ [(AtomicOp.add, Instr.aadd g d v a ord sc), (.smin, .amin g d v a ord sc), (.smax, .amax g d v a ord sc),
        (.umin, .aminu g d v a ord sc), (.umax, .amaxu g d v a ord sc), (.and, .aand g d v a ord sc), (.or, .aor g d v a ord sc),
        (.xor, .axor g d v a ord sc), (.xchg, .axchg g d v a ord sc), (.incb, .aincb g d v a ord sc), (.fadd, .afadd g d v a ord sc),
        (.faddh, .afaddh g d v a ord sc), (.load, .ald g d v a ord sc), (.store, .ast g d v a ord sc), (.cas, .acas g d5 v a ord sc)],
      checkAtomic s (viewAt (me s) v.toNat) p.1 (src s a) = .fail c aux → slotReady p.2 s = true →
        exec p.2 s = .next (slotFault s 5 { slot := 5, cause := c, aux0 := aux, aux1 := 0 }) := by
  have x : ∀ (i : Instr) (op : AtomicOp), exec i s = atomicX i op d v a ord sc s → slotNo i = 5 →
      checkAtomic s (viewAt (me s) v.toNat) op (src s a) = .fail c aux → slotReady i s = true →
        exec i s = .next (slotFault s 5 { slot := 5, cause := c, aux0 := aux, aux1 := 0 }) :=
    fun i op he hn h hr => atomicOp_faults hr he hn h
  simp only [List.forall_mem_cons]
  refine ⟨x _ _ ?_ ?_, x _ _ ?_ ?_, x _ _ ?_ ?_, x _ _ ?_ ?_, x _ _ ?_ ?_, x _ _ ?_ ?_, x _ _ ?_ ?_, x _ _ ?_ ?_, x _ _ ?_ ?_, x _ _ ?_ ?_,
    x _ _ ?_ ?_, x _ _ ?_ ?_, fun h hr => atomicOp_faults (e := d) (x := 40) (y := 40) (ord := ord) (sc := sc) hr ?_ ?_ h, x _ _ ?_ ?_,
    fun h hr => atomicOp_faults (e := acasDest d5) (x := acasReg d5) (y := acasReg d5 + 1) (ord := ord) (sc := sc) hr ?_ ?_ h, List.forall_mem_nil _⟩
  all_goals rfl

/-! The checks of a placed operation, in their order (R237, R244). -/

/-- A placed operation whose checks fail ends in slot 6's fault. -/
theorem placed_faults {i : Instr} {s : State} {c : PlacedCall} (hi : placedCall i = some c) (hr : slotReady i s = true) {x : Nat} {aux0 : BitVec 64}
    {aux1 : Word} (h : checkPlaced s s.cur c = .fail x aux0 aux1) :
    exec i s = .next (slotFault s 6 { slot := 6, cause := x, aux0 := aux0, aux1 := aux1 }) := by
  have he : exec i s = placedStep i s ∧ slotNo i = 6 := by
    unfold placedCall at hi
    split at hi <;> cases hi <;> exact ⟨rfl, rfl⟩
  have hb : placedBody c s = .error { slot := 6, cause := x, aux0 := aux0, aux1 := aux1 } := by simp only [placedBody, h]
  exact faults_of_body (placedStep i s) hr he.1 he.2 rfl (by simp only [hi, hb])

/-- R237: a view is a tensor. -/
theorem tensorOk_iff (v : View) : tensorOk v = true ↔
    viewSize v ≠ 0 ∧ (vget 0 v.xt 0).toNat ≠ 0 ∧ (vget 0 v.xt 0).toNat % 2 = 0 ∧ viewSize v ≤ 65536 := by
  simp only [tensorOk, Bool.and_eq_true, bne_iff_ne, beq_iff_eq, decide_eq_true_eq]
  tauto

/-- The second source of a call, its first where it has none. -/
def secondView (q : Seq) (c : PlacedCall) : View :=
  match c.vb with
  | some b => viewAt q b.toNat
  | none => viewAt q c.va.toNat

/-- R249-R252: the shape that a call's result must have. -/
def resultFits (op : PlacedOp) (p : Prop) [Decidable p] (d a b : View) : Prop :=
  let is := fun (v : View) (r k : Nat) => tensorRows v = r ∧ tensorCols v = k
  match op with
  | .red => is d (tensorRows a) 1
  | .mv => is d (tensorRows a) 1
  | .mm => is d (tensorRows a) (if p then tensorRows b else tensorCols b)
  | _ => is d (tensorRows a) (tensorCols a)

/-- R249-R252: the shape that a call's second source must have. -/
def secondFits (op : PlacedOp) (p : Prop) [Decidable p] (a b : View) : Prop :=
  let is := fun (v : View) (r k : Nat) => tensorRows v = r ∧ tensorCols v = k
  match op with
  | .red => True
  | .mv => is b 1 (tensorCols a)
  | .mm => if p then tensorCols b = tensorCols a else tensorRows b = tensorCols a
  | _ => is b (tensorRows a) (tensorCols a) ∨ is b 1 (tensorCols a)

/-- The test of a call's shapes; its first source sets them, and always agrees. -/
theorem shapesAgree_eq (op : PlacedOp) {trb : Bool} {p : Prop} [Decidable p] (hp : trb = true ↔ p) (d a b : View) : ∃ x z,
    shapesAgree op trb d a b = [x, true, z] ∧ (x = true ↔ resultFits op p d a b) ∧ (z = true ↔ secondFits op p a b) := by
  have hm : mmCols b trb = if p then tensorRows b else tensorCols b := by simp only [mmCols, hp]
  cases op
  case red => exact ⟨_, _, rfl, by simp [resultFits], by simp [secondFits]⟩
  case mv => exact ⟨_, _, rfl, by simp [resultFits], by simp [secondFits]⟩
  case mm =>
    refine ⟨_, _, rfl, by simp [resultFits, hm], ?_⟩
    simp only [secondFits, hp]
    split <;> simp
  all_goals exact ⟨_, _, rfl, by simp [resultFits], by simp [secondFits]⟩

/-- R237, R244: the checks of a call, by its views. -/
theorem checkPlaced_eq (s : State) (c : PlacedCall) :
    let D := viewAt (me s) c.vd.toNat
    let A := viewAt (me s) c.va.toNat
    let B := secondView (me s) c
    checkPlaced s s.cur c = match firstFalse [tensorOk D, tensorOk A, tensorOk B] with
      | some k => .fail 0x2F 0 (BitVec.ofNat 32 (16 * k))
      | none =>
        match firstFalse (shapesAgree c.op (callTrb (me s) c) D A B) with
        | some k => .fail 0x2E 0 (BitVec.ofNat 32 (16 * k))
        | none => (checkOperand s s.cur 0 D).andThen ((checkOperand s s.cur 1 A).andThen (if c.vb.isSome then checkOperand s s.cur 2 B else .ok)) := by
  obtain ⟨op, vd, va, vb, fmt, sg, sw⟩ := c
  cases vb <;> rfl

theorem PlacedCheck.andThen_fail {a : PlacedCheck} {x : Nat} {aux0 : BitVec 64} {aux1 : Word} (h : a = .fail x aux0 aux1) (b : PlacedCheck) :
    a.andThen b = .fail x aux0 aux1 := by
  subst h
  rfl

theorem PlacedCheck.andThen_ok {a : PlacedCheck} (h : a = .ok) (b : PlacedCheck) : a.andThen b = b := by
  subst h
  rfl

/-- R235, R244: an operand whose handle is neither current nor pinned; its details name it. -/
theorem checkOperand_stale {s : State} {k : Nat} {v : View} (h0 : v.handle ≠ 0) (hc : handleCurrent s (me s).asid v.handle = false)
    (hp : (6, v.handle) ∉ (me s).pinned) : checkOperand s s.cur k v = .fail 0x20 (v.handle.setWidth 64) (BitVec.ofNat 32 (5 + 16 * k)) := by
  have h : checkHandle s 6 (seqAt s s.cur).asid v.handle = .fail 0x20 (v.handle.setWidth 64) := checkHandle_stale hc hp
  simp only [checkOperand, if_neg h0, h]
  rfl

section
variable {s : State} {c : PlacedCall} {D A B : View} (hD : viewAt (me s) c.vd.toNat = D) (hA : viewAt (me s) c.va.toNat = A) (hB : secondView (me s) c = B)
include hD hA hB

/-- R237: an operand that is no tensor. -/
theorem checkPlaced_size {k : Nat} (h : firstFalse [tensorOk D, tensorOk A, tensorOk B] = some k) :
    checkPlaced s s.cur c = .fail 0x2F 0 (BitVec.ofNat 32 (16 * k)) := by
  subst hD hA hB
  simp only [checkPlaced_eq, h]

/-- R244: a shape that does not agree, of tensors. -/
theorem checkPlaced_shape {k : Nat} (ht : firstFalse [tensorOk D, tensorOk A, tensorOk B] = none)
    (h : firstFalse (shapesAgree c.op (callTrb (me s) c) D A B) = some k) : checkPlaced s s.cur c = .fail 0x2E 0 (BitVec.ofNat 32 (16 * k)) := by
  subst hD hA hB
  simp only [checkPlaced_eq, ht, h]

/-- R244: the operands of agreeing shapes, in turn. -/
theorem checkPlaced_operands (ht : firstFalse [tensorOk D, tensorOk A, tensorOk B] = none)
    (h : firstFalse (shapesAgree c.op (callTrb (me s) c) D A B) = none) : checkPlaced s s.cur c =
      (checkOperand s s.cur 0 D).andThen ((checkOperand s s.cur 1 A).andThen (if c.vb.isSome then checkOperand s s.cur 2 B else .ok)) := by
  subst hD hA hB
  simp only [checkPlaced_eq, ht, h]

end

/-- Settles O40: each instruction's frame answers its check's failure, and the checks of a handle, of MSTAT and of a placed operation fail in their order. -/
theorem failingChecksAreSlotFaults : Obligations.FailingChecksAreSlotFaults := by
  refine ⟨?_, fun s v rows wr hc hp => ⟨_, Check.andThen_fail (checkHandle_stale hc hp) _⟩, ?_, ?_⟩
  · intro s g t v vs a d cx ev timed cls ord sc mode cq sc3 d5 x aux V ends rows
    exact ⟨fun h hr => faults_of_body (execTld g t v a cx cls s) hr rfl rfl rfl (afterCheck_fail h 5 _),
      fun h hr => faults_of_body (execTst g t v a cx cls s) hr rfl rfl rfl (afterCheck_fail h 5 _),
      fun h hr => faults_of_body (execTgath g t v a cx cls s) hr rfl rfl rfl (afterCheck_fail h 5 _),
      fun h hr => faults_of_body (execTscat g t v a cx cls s) hr rfl rfl rfl (afterCheck_fail h 5 _),
      fun h hr => faults_of_body (execHfree g a s) hr rfl rfl rfl (afterCheck_fail h 5 _),
      fun h hr => faults_of_body (execVopen g v mode sc3 cls s) hr rfl rfl rfl (afterCheck_fail h 5 _),
      fun h hr => faults_of_body (execTcopy g v vs a cq ev s) hr rfl rfl rfl (afterCheck_fail h 5 _),
      fun op i hi h hr => atomics_faults s g v d a d5 ord sc x aux (op, i) hi h hr,
      fun h hr => faults_of_body (execWaitm g d v a timed sc s) hr rfl rfl rfl (afterCheck_fail (Check.andThen_fail h _) 5 _),
      fun h hr => faults_of_body (execAred g t v a cx cls s) hr rfl rfl rfl (afterCheck_fail h 5 _),
      fun h hr => faults_of_body (execLaunch g a timed s) hr rfl rfl rfl (afterCheck_fail h 2 _)⟩
  · intro s g fmt a sg sw h e current
    exact ⟨fun x aux hx hr => faults_of_body (execMstatHandle g a sg sw fmt s) hr rfl rfl rfl (afterCheck_fail hx 6 _), checkFetch_stale, checkFetch_small⟩
  · intro s i c hi hr q D A B trb sized is nr nc result second stale ends agree
    have gives : ∀ {x y z}, checkPlaced s s.cur c = .fail x y z → ends x y z := fun h => placed_faults hi hr h
    have hD : tensorOk D = true ↔ sized D := tensorOk_iff D
    have hA : tensorOk A = true ↔ sized A := tensorOk_iff A
    have hB : tensorOk B = true ↔ sized B := tensorOk_iff B
    obtain ⟨x, z, hs, hx, hz⟩ := shapesAgree_eq c.op (show callTrb q c = true ↔ trb from beq_iff_eq) D A B
    replace hx : x = true ↔ result := hx
    replace hz : z = true ↔ second := hz
    have no : ∀ {b : Bool} {p : Prop}, (b = true ↔ p) → ¬ p → b = false := fun h hn => Bool.eq_false_iff.mpr (mt h.mp hn)
    have size := fun k => checkPlaced_size (s := s) (c := c) (D := D) (A := A) (B := B) rfl rfl rfl (k := k)
    have tensors : sized D → sized A → sized B → firstFalse [tensorOk D, tensorOk A, tensorOk B] = none := by
      intro h1 h2 h3
      rw [hD.mpr h1, hA.mpr h2, hB.mpr h3]
      rfl
    have shape := fun h1 h2 h3 k => checkPlaced_shape (s := s) (c := c) (D := D) (A := A) (B := B) rfl rfl rfl (tensors h1 h2 h3) (k := k)
    have operands : agree → checkPlaced s s.cur c =
        (checkOperand s s.cur 0 D).andThen ((checkOperand s s.cur 1 A).andThen (if c.vb.isSome then checkOperand s s.cur 2 B else .ok)) := by
      rintro ⟨h1, h2, h3, h4, h5⟩
      refine checkPlaced_operands rfl rfl rfl (tensors h1 h2 h3) ?_
      rw [hs, hx.mpr h4, hz.mpr h5]
      rfl
    refine ⟨fun x y z => gives, fun h => gives (size 0 ?_), fun h1 h => gives (size 1 ?_), fun h1 h2 h => gives (size 2 ?_),
      fun h1 h2 h3 h => gives (shape h1 h2 h3 0 ?_), fun h1 h2 h3 h4 h => gives (shape h1 h2 h3 2 ?_), ?_, ?_, ?_⟩
    · rw [no hD h]
      rfl
    · rw [hD.mpr h1, no hA h]
      rfl
    · rw [hD.mpr h1, hA.mpr h2, no hB h]
      rfl
    · rw [hs, no hx h]
      rfl
    · rw [hs, hx.mpr h4, no hz h]
      rfl
    · rintro hag ⟨h0, hc, hp⟩
      exact gives ((operands hag).trans (PlacedCheck.andThen_fail (checkOperand_stale h0 hc hp) _))
    · rintro hag hok ⟨h0, hc, hp⟩
      exact gives ((operands hag).trans ((PlacedCheck.andThen_ok hok _).trans (PlacedCheck.andThen_fail (checkOperand_stale h0 hc hp) _)))
    · rintro b hb hag hok hok1 ⟨h0, hc, hp⟩
      refine gives ((operands hag).trans ((PlacedCheck.andThen_ok hok _).trans ((PlacedCheck.andThen_ok hok1 _).trans ?_)))
      rw [hb]
      exact checkOperand_stale h0 hc hp

end Sys2Proof.Machine

/-! O32: views, handles and copies at their issue (R154, R162-R165, R179, R182, R201, R269, R321). -/

namespace Sys2Proof.Machine

/-! The registration of a view (R162-R164, R321). -/

/-- A directory holds a view of register reg of the running stream as opened: of its address space, and with the settings v. -/
def HoldsMine (s : State) (reg : Nat) (v : View) (d : Nat) : Prop :=
  ∃ e ∈ flockAt s d, e.seq = some s.cur ∧ e.reg = reg ∧ e.asid = (me s).asid ∧ e.view = v

/-- Every entry of register reg of the running stream is of its address space and has the settings v. -/
def OnlyMine (s : State) (reg : Nat) (v : View) : Prop :=
  ∀ d, ∀ e ∈ flockAt s d, e.seq = some s.cur → e.reg = reg → e.asid = (me s).asid ∧ e.view = v

theorem flockAt_addEntry (s : State) (d : Nat) (e : FlockEntry) (wide : Bool) (j : Nat) :
    flockAt (addEntry s d e wide) j = if j = d then flockAt s d ++ [{ e with wide := wide }] else flockAt s j := flockAt_tput ..

theorem onlyMine_addEntry {s : State} {reg : Nat} {v : View} (h : OnlyMine s reg v) (d : Nat) (w : Bool) :
    OnlyMine (addEntry s d { myEntry s reg v w with waits := true } w) reg v := by
  intro j e he hs hr
  rw [flockAt_addEntry] at he
  split at he
  · obtain he | he := List.mem_append.mp he
    · exact h d e he hs hr
    · rw [List.mem_singleton.mp he]
      exact ⟨rfl, rfl⟩
  · exact h j e he hs hr

theorem holdsMine_addEntry {s : State} {reg : Nat} {v : View} {j : Nat} (h : HoldsMine s reg v j) (d : Nat) (e : FlockEntry) (w : Bool) :
    HoldsMine (addEntry s d e w) reg v j := by
  obtain ⟨x, hx, hp⟩ := h
  refine ⟨x, ?_, hp⟩
  rw [flockAt_addEntry]
  split
  · next hj => exact List.mem_append_left _ (hj ▸ hx)
  · exact hx

/-- A registration keeps what the directories hold of the register. -/
theorem holdsMine_registerView {s : State} {reg : Nat} {v : View} {j : Nat} (ds : List Nat) (h : HoldsMine s reg v j) :
    HoldsMine (registerView s reg v ds).1 reg v j := by
  induction ds generalizing s with
  | nil => exact h
  | cons d rest ih =>
    unfold registerView
    split
    · exact ih h
    · split
      · exact h
      · split
        · exact h
        · exact ih (holdsMine_addEntry h ..)

/-- R164: a registration that comes through has every directory hold the view. -/
theorem registerView_done {s : State} {reg : Nat} {v : View} {ds : List Nat} (h : OnlyMine s reg v) (hd : (registerView s reg v ds).2 = .done) :
    ∀ d ∈ ds, HoldsMine (registerView s reg v ds).1 reg v d := by
  induction ds generalizing s with
  | nil => exact List.forall_mem_nil _
  | cons d rest ih =>
    unfold registerView at hd ⊢
    split at hd
    · next hany =>
      obtain ⟨e, he, hp⟩ := List.any_eq_true.mp hany
      simp only [Bool.and_eq_true, beq_iff_eq] at hp
      rw [if_pos hany]
      refine List.forall_mem_cons.mpr ⟨holdsMine_registerView rest ⟨e, he, hp.1, hp.2, h d e he hp.1 hp.2⟩, ih h hd⟩
    · next hany =>
      rw [if_neg hany]
      split at hd
      · cases hd
      · next hc =>
        rw [if_neg hc]
        split at hd
        · cases hd
        · next w hw =>
          refine List.forall_mem_cons.mpr ⟨holdsMine_registerView rest ⟨{ myEntry s reg v w with waits := true }, ?_, rfl, rfl, rfl, rfl⟩,
            ih (onlyMine_addEntry h d w) hd⟩
          rw [flockAt_addEntry, if_pos rfl]
          exact List.mem_append_right _ (List.mem_singleton.mpr rfl)

/-- A registration does not read the running stream but for its address space and task, and changes nothing of it. -/
theorem registerView_setMe {s : State} {x : Seq} (reg : Nat) (v : View) (ds : List Nat) (ha : x.asid = (me s).asid) (ht : taskOf x = taskOf (me s)) :
    registerView (setMe s x) reg v ds = (setMe (registerView s reg v ds).1 x, (registerView s reg v ds).2) := by
  have hentry : ∀ (s : State) (w : Bool), x.asid = (me s).asid → myEntry (setMe s x) reg v w = myEntry s reg v w := by
    intro s w ha
    simp only [myEntry, me_setMe, ha]
    rfl
  have hconf : ∀ (s : State) (d : Nat), x.asid = (me s).asid → taskOf x = taskOf (me s) → otherConflict (setMe s x) reg v d = otherConflict s reg v d := by
    intro s d ha ht
    simp only [otherConflict, hentry s _ ha, me_setMe, ha, ht]
    rfl
  induction ds generalizing s with
  | nil => rfl
  | cons d rest ih =>
    have hf : flockAt (setMe s x) d = flockAt s d := rfl
    have hcur : (setMe s x).cur = s.cur := rfl
    unfold registerView
    rw [hconf s d ha ht, hf, hcur, me_setMe, ha]
    by_cases hany : (flockAt s d).any (fun e => e.seq == some s.cur && e.reg == reg) = true
    · rw [if_pos hany, if_pos hany]
      exact ih ha ht
    · rw [if_neg hany, if_neg hany]
      by_cases hc : otherConflict s reg v d = true
      · rw [if_pos hc, if_pos hc]
      · rw [if_neg hc, if_neg hc]
        cases flockRoom (flockAt s d) (me s).asid v with
        | none => rfl
        | some w =>
          dsimp only
          rw [hentry s w ha]
          exact ih (s := addEntry s d { myEntry s reg v w with waits := true } w) ha ht

/-- A registration leaves the running stream. -/
theorem me_registerView (s : State) (reg : Nat) (v : View) (ds : List Nat) : me (registerView s reg v ds).1 = me s ∧ (registerView s reg v ds).1.cur = s.cur := by
  induction ds generalizing s with
  | nil => exact ⟨rfl, rfl⟩
  | cons d rest ih =>
    unfold registerView
    split
    · exact ih s
    · split
      · exact ⟨rfl, rfl⟩
      · split
        · exact ⟨rfl, rfl⟩
        · exact ih _

theorem me_registered (s : State) (reg : Nat) (v : View) : me (registered s reg v) = me s ∧ (registered s reg v).cur = s.cur := by
  unfold registered
  split
  · exact ⟨rfl, rfl⟩
  · exact me_registerView s reg v _

/-- The directory of a die after a change of every entry. -/
theorem flockAt_map (s : State) (f : FlockEntry → FlockEntry) (d : Nat) :
    flockAt { s with flock := s.flock.map (fun p => (p.1, p.2.map f)) } d = (flockAt s d).map f := by
  unfold flockAt
  induction s.flock with
  | nil => rfl
  | cons p l ih =>
    simp only [List.map_cons, tget]
    split
    · rfl
    · exact ih

/-- R164: a VOPEN whose registration comes through has its view in every directory of its scope. -/
theorem holdsMine_registered {s : State} {reg : Nat} {v : View} (h0 : v.handle ≠ 0) (h : OnlyMine s reg v)
    (hd : (registerView s reg v (flockDies v (myDie s))).2 = .done) : ∀ d ∈ flockDies v (myDie s), HoldsMine (registered s reg v) reg v d := by
  intro d hm
  obtain ⟨e, he, hs, hr, ha, hv⟩ := registerView_done h hd d hm
  obtain ⟨hme, hcur⟩ := me_registerView s reg v (flockDies v (myDie s))
  obtain ⟨hme', hcur'⟩ := me_registered s reg v
  have hin : { e with waits := false } ∈ flockAt (registered s reg v) d := by
    rw [registered, if_neg h0]
    refine (flockAt_map _ _ d).symm ▸ List.mem_map.mpr ⟨e, he, ?_⟩
    rw [if_pos ⟨by rw [hs, hcur], hr⟩]
  exact ⟨_, hin, by rw [hcur', ← hcur]; exact hs, hr, by rw [hme', ← hme]; exact ha, hv⟩

/-! VOPEN, VRETIRE and HFREE. -/

/-- R164, R201: the state in which VOPEN has opened a view. -/
def openedView (s : State) (reg : Nat) (w : View) : State :=
  let t := registered (setMe s { me s with regions := noteRegion (fun r => { r with opened := r.opened ++ [reg] }) (me s).regions }) reg w
  setMe t (putView (me t) reg { w with isOpen := true, poison := w.handle != 0 && opensPoisoned s w })

theorem viewAt_openedView (s : State) {reg : Nat} (w : View) (h : reg < 16) (n : Nat) : viewAt (me (openedView s reg w)) n =
    if n = reg then { w with isOpen := true, poison := w.handle != 0 && opensPoisoned s w } else viewAt (me s) n := by
  unfold openedView
  rw [me_setMe, viewAt_putView h, (me_registered _ reg w).1, me_setMe]
  rfl

/-- R164: what VOPEN's checks say of its registration. -/
theorem registerView_of_checks {s : State} {reg : Nat} {v : View} (h0 : v.handle ≠ 0) (hc : checkOpen s reg v = .ok) (ho : openHeld s reg v = false) :
    (registerView s reg v (flockDies v (myDie s))).2 = .done := by
  have hne : (v.handle != 0) = true := bne_iff_ne.mpr h0
  simp only [openHeld, hne, Bool.true_and, Bool.or_eq_false_iff, beq_eq_false_iff_ne] at ho
  have hfirst : checkFirst s reg v = .ok := by
    cases hf : checkFirst s reg v with
    | ok => rfl
    | _ => simp [checkOpen, hf, Check.andThen] at hc
  have hfull : (registerView s reg v (flockDies v (myDie s))).2 ≠ .full := by
    intro hfull
    have hf : checkOpen s reg v = .fail 0x21 0 := (Check.andThen_ok hfirst _).trans (if_pos (by rw [hne, hfull]; rfl))
    cases hf.symm.trans hc
  cases hr : (registerView s reg v (flockDies v (myDie s))).2 with
  | done => rfl
  | held => exact absurd hr ho.2
  | full => exact absurd hr hfull

/-- R162-R164: the directories after VOPEN. -/
theorem flock_openedView {s : State} {reg : Nat} {w : View} (hc : checkOpen s reg w = .ok) (ho : openHeld s reg w = false) (h : OnlyMine s reg w) :
    (w.handle = 0 → (openedView s reg w).flock = s.flock) ∧
      (w.handle ≠ 0 → ∀ d ∈ flockDies w (myDie s), ∃ e ∈ flockAt (openedView s reg w) d, e.seq = some s.cur ∧ e.reg = reg ∧ e.asid = (me s).asid ∧ e.view = w) := by
  refine ⟨fun h0 => ?_, fun h0 d hd => ?_⟩
  · unfold openedView registered
    rw [if_pos h0]
    rfl
  · let x : Seq := { me s with regions := noteRegion (fun r => { r with opened := r.opened ++ [reg] }) (me s).regions }
    have hreg := registerView_setMe (s := s) (x := x) reg w (flockDies w (myDie s)) rfl rfl
    have hdone : (registerView (setMe s x) reg w (flockDies w (myDie s))).2 = .done := by
      rw [hreg]
      exact registerView_of_checks h0 hc ho
    have honly : OnlyMine (setMe s x) reg w := by
      intro n e he hs hr
      rw [me_setMe]
      exact h n e he hs hr
    obtain ⟨e, he, hs, hr, ha, hv⟩ := holdsMine_registered h0 honly hdone d hd
    obtain ⟨hme, hcur⟩ := me_registered (setMe s x) reg w
    exact ⟨e, he, by rw [hs, hcur]; rfl, hr, by rw [ha, hme, me_setMe], hv⟩

theorem noteRegion_length (f : Region → Region) (l : List Region) : (noteRegion f l).length = l.length := by
  cases l <;> rfl

/-- R165: a retire that the running stream starts: the view is closed, and one operation enters. -/
theorem retireView_enters (s : State) {reg : Nat} (h : reg < 16) :
    let u := retireView s s.cur (bundleAddr s) 5 reg false
    u.ops = s.ops ++ [opOf s 5 none none [] [] (.retire reg (viewAt (me s) reg) false)] ∧
      ∀ n, viewAt (me u) n = if n = reg then { viewAt (me s) reg with isOpen := false, retiring := true } else viewAt (me s) n := by
  dsimp only
  unfold retireView newOpFor
  dsimp only
  rw [seqAt_setSeq_same]
  refine ⟨?_, fun n => ?_⟩
  · simp only [opOf, putView, Bool.false_eq_true, if_false, noteRegion_length]
    rfl
  · refine (congrArg (viewAt · n) (seqAt_setSeq_same s s.cur _)).trans ?_
    rw [viewAt_putView h]
    rfl

/-- R154: the table after HFREE. -/
theorem handleEntry_freed (s : State) (asid : Nat) (h : Word) (b : Nat) (k : Word) : handleEntry (dropPoison (freeHandle s asid h) asid h) b k =
    if handleKey b k = handleKey asid h then { handleEntry s asid h with valid := false, gen := (handleEntry s asid h).gen + 1 } else handleEntry s b k :=
  tget_tput ..

/-- R182, R184: a word of nonzero status, of bytes that are neither poisoned nor damaged, is STAMP_POISON. -/
theorem stampVerdict_status {s : State} {v : View} {a : Word} {sc : Nat} (hd : stampDamaged s v a = false) (hp : anyPoison s (stampTag s.cur) = false)
    (hw : 2 ^ 32 ≤ stampWord s v a sc) : stampVerdict s v a sc = .fail 0x28 0 := by
  have hq : stampWord s v a sc / 2 ^ 32 ≠ 0 := Nat.pos_iff_ne_zero.mp (Nat.div_pos hw (by decide))
  simp only [stampVerdict, hd, hp, Bool.false_eq_true, if_false, if_pos hq]

/-- Settles O32: each instruction's frame does what its rule says once its checks pass; VOPEN's registration comes through by its checks. -/
theorem viewsHandlesAndCopies : Obligations.ViewsHandlesAndCopies := by
  intro s g v vs t a d mode sc cls cx ord ev cq sw V X H O first left
  refine ⟨fun hc ho honly hr => ⟨openedView s v.toNat O, ?_, fun n _ hn => ?_, ?_, ?_, ?_⟩, fun hr => ?_, fun hc hr => ?_, fun hc hr => ?_, fun hc hr => ?_,
    fun hc hr => ⟨fun hv => ?_, fun hd hp hw => ?_⟩⟩
  · exact does_of_body (execVopen g v mode sc cls s) hr rfl rfl (afterCheck_ok hc 5 _)
  · rw [viewAt_openedView s O v.isLt, if_neg hn]
  · rw [viewAt_openedView s O v.isLt, if_pos rfl]
  · exact (flock_openedView hc ho honly).1
  · exact (flock_openedView hc ho honly).2
  · obtain ⟨hops, hview⟩ := retireView_enters s v.isLt
    refine ⟨_, does_of_body (execVretire g v s) hr rfl rfl rfl, hops, ?_, fun n _ hn => ?_⟩
    · rw [hview, if_pos rfl]
    · rw [hview, if_neg hn]
  · refine ⟨_, does_of_body (execHfree g a s) hr rfl rfl (afterCheck_ok hc 5 _), ?_, ?_, fun b h hb => ?_⟩
    · rw [handleEntry_freed, if_pos rfl]
    · simp only [handleCurrent, handleEntry_freed, if_true, Bool.and_false, Bool.false_and]
    · rw [handleEntry_freed, if_neg hb]
  · exact does_of_body (execTcopy g v vs a cq ev s) hr rfl rfl (afterCheck_ok hc 5 _)
  · exact does_of_body (execAred g t v a cx cls s) hr rfl rfl (afterCheck_ok hc 5 _)
  · exact does_of_body (execWaitm g d v a ord sw s) hr rfl rfl (afterCheck_ok ((Check.andThen_ok hc _).trans hv) 5 _)
  · exact faults_of_body (execWaitm g d v a ord sw s) hr rfl rfl rfl
      (afterCheck_fail ((Check.andThen_ok hc _).trans (stampVerdict_status hd hp hw)) 5 _)

end Sys2Proof.Machine

/-! O48: loads, stores and scratchpad transfers (R59, R124, R158, R173, R174, R176, R318, R320). -/

namespace Sys2Proof.Machine

/-! An access that goes at once: translated, on this package, of an operation with no request. -/

/-- The addresses of an access reach their places on this package, and no strand holds their pseudo-channels. -/
def Goes (s : State) (o : Op) (wr : Bool) (vas : List Nat) : Prop :=
  reach s o.id (dieOf o.seq) o.asid wr vas = .ok ∧ bankHeld s (dieOf o.seq) o.asid vas = false ∧ remoteDests s (dieOf o.seq) o.asid wr vas = []

theorem allAnswered_none {s : State} {n : Nat} (h : requestsOf s n = []) : allAnswered s n = true := by rw [allAnswered, h, List.all_nil]

theorem anyPoison_none {s : State} {n : Nat} (h : requestsOf s n = []) : anyPoison s n = false := by rw [anyPoison, h, List.any_nil]

/-- A write that goes at once is made: its bytes are written or forwarded. -/
theorem performWrite_goes {s : State} {o : Op} {l : List (Nat × Byte)} (failed : State → Nat → Nat → State) (made : State → State)
    (h : Goes s o true (l.map Prod.fst)) (hr : requestsOf s o.id = []) : performWrite s o l failed made =
      made (writeCells (dropRequests s o.id) (dieOf o.seq) o.id (localCells s (dieOf o.seq) o.asid l)) := by
  obtain ⟨hreach, hbank, hdest⟩ := h
  have hf : (Reach.ok == Reach.fenced) = false := rfl
  simp only [performWrite, hreach, hbank, hdest, notAsked, List.filter_nil, List.isEmpty_nil, allAnswered_none hr, anyPoison_none hr, hf, Bool.not_true,
    Bool.or_self, Bool.false_eq_true, if_false]
  rfl

/-- R318, R320: what a write leaves when its operation is done: the bytes homed on its die stand, the others are on their way. -/
theorem opDone_writeCells {s : State} {o p : Op} (hm : mayAct s o) (hi : p.id = o.id) (hs : p.seq = o.seq) (hf : ∀ f ∈ s.forwards, f.op ≠ o.id)
    (cs : List Host.Cell) {t : State} (hmem : t.mem = memPutCells s.mem (cs.filter (fun c => homeDie c.1 == some (dieOf o.seq)))) (hseqs : t.seqs = s.seqs)
    (hops : t.ops = s.ops) (hfw : t.forwards = s.forwards ++ forwardsOf o.id (dieOf o.seq) s.nextOp cs) :
    let u := opDone t p
    wrote (cs.filter (fun c => homeDie c.1 == some (dieOf o.seq))) s u ∧ u.forwards = s.forwards ++ forwardsOf o.id (dieOf o.seq) s.nextOp cs ∧
      sameOthers o.seq s u ∧ (seqAt u o.seq).regs = (seqAt s o.seq).regs ∧ (seqAt u o.seq).cstat = (seqAt s o.seq).cstat ||| p.flags ∧ u.cores = t.cores ∧
      (forwardsOf o.id (dieOf o.seq) s.nextOp cs = [] → opAt u o.id = none) ∧ (∀ q, opAt u o.id = some q → q.phase = .drained) ∧
      (seqAt u o.seq).endPending = false := by
  have hq : ∀ q, seqAt t q = seqAt s q := fun q => congrArg (fun l => tget Seq.reset l q) hseqs
  have hend : (seqAt t o.seq).endPending = false := (congrArg Seq.endPending (hq o.seq)).trans hm.2.2
  have hop : opAt t p.id = some o := by rw [hi, opAt, hops]; exact hm.1
  have hdone : opDone t p = completeOp t p := opDone_goes (by rw [hs]; exact hend)
  obtain ⟨km, kc, kf, kr, ke⟩ := completeOp_keeps t p
  obtain ⟨koth, kstat⟩ := completeOp_others t p
  have kdr := fun q => completeOp_drained (q := o) (p := q) hop hi.symm
  rw [hs] at kr ke koth kstat
  dsimp only
  rw [hdone]
  refine ⟨?_, kf.trans hfw, fun q hne => (koth q hne).trans (hq q), kr.trans (congrArg Seq.regs (hq o.seq)), ?_, kc, fun haway => ?_, fun q hop => ?_,
    ke.trans hend⟩
  · have hw := wrote_memPutCells (cs.filter (fun c => homeDie c.1 == some (dieOf o.seq))) s
    unfold wrote at hw ⊢
    rw [km, hmem]
    exact hw
  · rw [kstat, hq]
  · have hnone : ∀ f ∈ t.forwards, f.op ≠ p.id := by
      rw [hfw, haway, List.append_nil, hi]
      exact hf
    rw [← hi]
    exact (completeOp_completes hnone).1
  · exact kdr q (by rw [hi]; exact hop)

/-! Rows of tiles and of the scratchpad that an operation sets (R59, R124, R176). -/

/-- Byte j of the row of a list of 256 bytes. -/
theorem rowByte_rowOfBytes {l : List Byte} (h : l.length ≤ 256) (j : Nat) : rowByte (rowOfBytes l) j = l.getD j 0 := by
  apply BitVec.eq_of_toNat_eq
  rw [rowByte, rowField, BitVec.extractLsb'_toNat, rowOfBytes_toNat h, Nat.shiftRight_eq_div_pow, Nat.pow_mul]
  exact natOfBytes_byte l j

/-- The rows after a whole-row write. -/
theorem tileRow_put (o : Op) (t : Nat) (s : State) (r : Nat) (row : Row) (t' r' : Nat) (hr : r < 64) (hr' : r' < 64) :
    tileRow (coreAt (tileWrite o t s (r, fun _ => row)) (coreOf o.seq)) t' r' =
      if t' = t ∧ r' = r then row else tileRow (coreAt s (coreOf o.seq)) t' r' := by
  have hcore : coreAt (tileWrite o t s (r, fun _ => row)) (coreOf o.seq) = putTileRow (coreAt s (coreOf o.seq)) t r row := coreAt_setCore_same ..
  have hkey : 64 * t' + r' = 64 * t + r ↔ t' = t ∧ r' = r := by omega
  rw [hcore, tileRow, putTileRow, tget_sput]
  simp only [hkey]
  rfl

theorem tileWriteAll_writesRows (s : State) (o : Op) (t : Nat) (rows : List Row) : WritesRows o s (tileWriteAll s o t rows) :=
  foldl_writesRows (fun s _ => tileWrite_writesRows o t s _) _ s

/-- Whole rows written one after another, from row n on. -/
theorem tileRow_foldl (o : Op) (t : Nat) (rows : List Row) (n : Nat) (s : State) (h : n + rows.length ≤ 64) (t' r : Nat) (hr : r < 64) :
    tileRow (coreAt ((rows.zip (List.range' n rows.length)).foldl (fun s x => tileWrite o t s (x.2, fun _ => x.1)) s) (coreOf o.seq)) t' r =
      if t' = t ∧ n ≤ r ∧ r < n + rows.length then rows.getD (r - n) 0 else tileRow (coreAt s (coreOf o.seq)) t' r := by
  induction rows generalizing n s with
  | nil => rw [if_neg (by simp)]; rfl
  | cons x rows ih =>
    rw [List.length_cons] at h ⊢
    rw [List.range'_succ, List.zip_cons_cons, List.foldl_cons, ih (n + 1) _ (by omega), tileRow_put o t s n x t' r (by omega) hr]
    by_cases hn : r = n
    · subst hn
      rw [if_neg (by omega), Nat.sub_self]
      by_cases ht : t' = t
      · rw [if_pos ⟨ht, rfl⟩, if_pos ⟨ht, by omega⟩]; rfl
      · rw [if_neg (fun hc => ht hc.1), if_neg (fun hc => ht hc.1)]
    · by_cases hin : t' = t ∧ n + 1 ≤ r ∧ r < n + 1 + rows.length
      · obtain ⟨m, hm⟩ : ∃ m, r - n = m + 1 := ⟨r - n - 1, by omega⟩
        rw [if_pos hin, if_pos (by omega), hm, List.getD_cons_succ, show r - (n + 1) = m by omega]
      · rw [if_neg hin, if_neg (fun hc => hn hc.2), if_neg (by omega)]

/-- R124: exactly the 64 rows of a tile are set. -/
theorem tileRow_tileWriteAll (s : State) (o : Op) (t : Nat) {rows : List Row} (h : rows.length = 64) (t' : Nat) {r : Nat} (hr : r < 64) :
    tileRow (coreAt (tileWriteAll s o t rows) (coreOf o.seq)) t' r = if t' = t then rows.getD r 0 else tileRow (coreAt s (coreOf o.seq)) t' r := by
  have hrow := tileRow_foldl o t rows 0 s (by omega) t' r hr
  rw [← List.range_eq_range'] at hrow
  refine hrow.trans ?_
  by_cases ht : t' = t
  · rw [if_pos ⟨ht, by omega⟩, if_pos ht, Nat.sub_zero]
  · rw [if_neg (fun hc => ht hc.1), if_neg ht]

/-- R176: the scratchpad rows after a store, and the tiles. -/
theorem spadRow_putSpadRows (c : CoreState) (k : Nat) (l : List Row) : (putSpadRows c k l).tiles = c.tiles ∧
    ∀ r, spadRow (putSpadRows c k l) r = if k ≤ r ∧ r < k + l.length then l.getD (r - k) 0 else spadRow c r := by
  induction l generalizing c k with
  | nil => exact ⟨rfl, fun r => by rw [if_neg (by simp)]; rfl⟩
  | cons x l ih =>
    obtain ⟨ht, hrow⟩ := ih (putSpadRow c k x) (k + 1)
    refine ⟨ht, fun r => (hrow r).trans ?_⟩
    have hput : spadRow (putSpadRow c k x) r = if r = k then x else spadRow c r := tget_sput ..
    rw [hput, List.length_cons]
    by_cases hk : r = k
    · subst hk
      rw [if_neg (by omega), if_pos rfl, if_pos (by omega), Nat.sub_self]
      rfl
    · by_cases hin : k + 1 ≤ r ∧ r < k + 1 + l.length
      · obtain ⟨m, hm⟩ : ∃ m, r - k = m + 1 := ⟨r - k - 1, by omega⟩
        rw [if_pos hin, if_pos (by omega), hm, List.getD_cons_succ, show r - (k + 1) = m by omega]
      · rw [if_neg hin, if_neg hk, if_neg (by omega)]

/-! The steps. -/

/-- R173: a load that goes at once. -/
theorem performLoad_goes {s : State} {o : Op} (t : Nat) {rows : RowList} {v : View} (h : Goes s o false (addrsOf s o.asid v (rowPositions v rows)))
    (hw : readsWait s (dieOf o.seq) o.asid v.scope.toNat (addrsOf s o.asid v (rowPositions v rows)) = false) (hr : requestsOf s o.id = []) :
    ∃ sl, performLoad s o t rows v = setOp { dropRequests s o.id with slices := sl }
      { o with phase := .performed, result := rows.map (loadRow s o v), pins := [] } := by
  obtain ⟨hreach, hbank, hdest⟩ := h
  have hf : (Reach.ok == Reach.fenced) = false := rfl
  refine ⟨passedUncached (dropRequests s o.id) (placesOf s (dieOf o.seq) o.asid false (addrsOf s o.asid v (rowPositions v rows))), ?_⟩
  simp only [performLoad, hreach, hbank, hw, hdest, notAsked, List.filter_nil, List.isEmpty_nil, allAnswered_none hr, anyPoison_none hr, hf, Bool.not_true,
    Bool.or_self, Bool.false_eq_true, if_false]
  rfl

/-- R173: the bytes of a row that a load reads. -/
theorem rowByte_loadRow {s : State} {o : Op} (v : View) (p : Nat) {j : Nat} (hj : j < 256) : rowByte (loadRow s o v (some p)) j =
    if p * 256 + j < viewSize v then readVa s o.id (dieOf o.seq) o.asid v.scope.toNat (posAddr s o.asid v (p * 256 + j)).toNat else 0 := by
  rw [loadRow, rowByte_rowOfBytes (by simp)]
  simp [hj, opRead]

section
variable {s : State} {o : Op} (hm : mayAct s o)
include hm

/-- R124: an operation that sets the rows of a tile and is done. -/
theorem opDone_tileWriteAll {p : Op} (hi : p.id = o.id) (hs : p.seq = o.seq) (hf : ∀ f ∈ s.forwards, f.op ≠ o.id) (t : Nat) {rows : List Row}
    (h : rows.length = 64) : let u := opDone (tileWriteAll s o t rows) p
    completes s u o p.flags ∧ u.mem = s.mem ∧ (seqAt u o.seq).regs = (seqAt s o.seq).regs ∧
      (∀ r < 64, tileRow (coreAt u (coreOf o.seq)) t r = rows.getD r 0) ∧
      (∀ t' r, t' ≠ t → r < 64 → tileRow (coreAt u (coreOf o.seq)) t' r = tileRow (coreAt s (coreOf o.seq)) t' r) ∧
      (seqAt u o.seq).endPending = false := by
  have hw := tileWriteAll_writesRows s o t rows
  have hrows := fun t' r => tileRow_tileWriteAll s o t h t' (r := r)
  generalize tileWriteAll s o t rows = v at *
  obtain ⟨q, hq⟩ := hw.own
  have hend : (seqAt v o.seq).endPending = false := by rw [hq]; exact hm.2.2
  obtain ⟨hdone, hcomp⟩ := opDone_completes (s := v) (t := v) (o := o) (p := p) rfl rfl hi hs hend (by rw [hw.forwards]; exact hf)
  obtain ⟨km, kc, -, kr, ke⟩ := completeOp_keeps v p
  rw [hs] at kr ke
  have hcore : coreAt (completeOp v p) (coreOf o.seq) = coreAt v (coreOf o.seq) := congrArg (fun l => tget CoreState.reset l (coreOf o.seq)) kc
  dsimp only
  rw [hdone, hcore]
  refine ⟨completes_of_writesRows hw hcomp, km.trans hw.mem, kr.trans (by rw [hq]), fun r hr => ?_, fun t' r ht hr => ?_, ke.trans hend⟩
  · rw [hrows t r hr, if_pos rfl]
  · rw [hrows t' r hr, if_neg ht]

/-- An operation that writes the state of its core and is done. -/
theorem opDone_setCore {p : Op} (hi : p.id = o.id) (hs : p.seq = o.seq) (hf : ∀ f ∈ s.forwards, f.op ≠ o.id) (c : CoreState) :
    let u := opDone (setCore s (coreOf o.seq) c) p
    completes s u o p.flags ∧ u.mem = s.mem ∧ (seqAt u o.seq).regs = (seqAt s o.seq).regs ∧ coreAt u (coreOf o.seq) = c ∧
      (seqAt u o.seq).endPending = false := by
  obtain ⟨hdone, hcomp⟩ := opDone_completes (s := s) (t := setCore s (coreOf o.seq) c) (o := o) (p := p) rfl rfl hi hs hm.2.2 hf
  obtain ⟨km, kc, -, kr, ke⟩ := completeOp_keeps (setCore s (coreOf o.seq) c) p
  have hcore : coreAt (completeOp (setCore s (coreOf o.seq) c) p) (coreOf o.seq) = coreAt (setCore s (coreOf o.seq) c) (coreOf o.seq) :=
    congrArg (fun l => tget CoreState.reset l (coreOf o.seq)) kc
  rw [hs] at kr ke
  dsimp only
  rw [hdone]
  exact ⟨hcomp, km, kr, hcore.trans (coreAt_setCore_same ..), ke.trans hm.2.2⟩

/-- VIEW_ACCESS_PERFORM of an operation whose effect leaves its strand unended. -/
theorem exec_viewAccessPerform (hq : o.phase = .queued) (hp : mayPerform s o = true) {u : State} (he : (seqAt u o.seq).endPending = false) :
    (∀ t rows v, o.kind = .load t rows v → performLoad s o t rows v = u → exec (.viewAccessPerform o.id) s = .next u) ∧
      (∀ tile rows v, o.kind = .store tile rows v → performStore s o tile rows v = u → exec (.viewAccessPerform o.id) s = .next u) ∧
      ∀ tile a, o.kind = .spadStore tile a → spadBehind s o = false →
        opDone (setCore s (coreOf o.seq) (putSpadRows (coreAt s (coreOf o.seq)) (a / 256) tile)) { o with phase := .performed } = u →
          exec (.viewAccessPerform o.id) s = .next u := by
  have step : exec (.viewAccessPerform o.id) s = .next (accessPerforms s o.id) := rfl
  rw [step, accessPerforms]
  refine ⟨fun t rows v hk hu => ?_, fun tile rows v hk hu => ?_, fun tile a hk hb hu => ?_⟩
  · rw [onOp_acts hm (mayMove_acts hm hq hp)] <;> simp only [hk, hu, he]
  · rw [onOp_acts hm (mayMove_acts hm hq hp)] <;> simp only [hk, hu, he]
  · rw [onOp_acts hm (mayMove_acts hm hq hp)] <;> simp only [hk] at hu ⊢ <;> simp only [hb, hu, he, Bool.false_eq_true, if_false]

/-- TILE_WRITE_COMPLETE of an operation whose effect leaves its strand unended. -/
theorem exec_tileWriteComplete {u : State} (he : (seqAt u o.seq).endPending = false) :
    (∀ t rows v, o.phase = .performed → o.kind = .load t rows v →
      opDone (tileWriteAll s o t o.result) { o with phase := .performed, result := [] } = u → exec (.tileWriteComplete o.id) s = .next u) ∧
    (mayPerform s o = true → (∀ t a, o.phase = .queued → o.kind = .spadLoad t a → spadBehind s o = false →
        opDone (tileWriteAll s o t (spadRows (coreAt s (coreOf o.seq)) a)) { o with phase := .performed } = u →
          exec (.tileWriteComplete o.id) s = .next u) ∧
      ∀ t tile, o.phase = .queued → o.kind = .tileSet t tile → opDone (tileWriteAll s o t tile) { o with phase := .performed } = u →
        exec (.tileWriteComplete o.id) s = .next u) := by
  have step : exec (.tileWriteComplete o.id) s = .next (tileCompletes s o.id) := rfl
  have moves : engineMoves s o = true := by simp [engineMoves, hm.2.1]
  rw [step, tileCompletes]
  refine ⟨fun t rows v hph hk hu => ?_, fun hp => ⟨fun t a hph hk hb hu => ?_, fun t tile hph hk hu => ?_⟩⟩
  · rw [onOp_acts hm (by simp [moves, hph])] <;> simp only [hk, hph] at hu ⊢ <;> simp only [hu, he]
  · rw [onOp_acts hm (by simp [moves, hph, hp])] <;> simp only [hk, hph] at hu ⊢ <;> simp only [hb, hu, he, Bool.false_eq_true, if_false]
  · rw [onOp_acts hm (by simp [moves, hph, hp])] <;> simp only [hk, hph] at hu ⊢ <;> simp only [hu, he]

end

/-- R124: a step that sets the rows of a tile and is done, of an operation whose effect leaves its strand unended. -/
theorem sets_of_tileWriteAll {s : State} {o : Op} (hm : mayAct s o) {p : Op} (hi : p.id = o.id) (hs : p.seq = o.seq) (hf : ∀ f ∈ s.forwards, f.op ≠ o.id)
    (hfl : p.flags = o.flags) {i : Instr} (t : Nat) {rows : List Row} {l : Nat → Row} (h : rows.length = 64) (hl : ∀ r < 64, rows.getD r 0 = l r)
    (step : ∀ u, (seqAt u o.seq).endPending = false → opDone (tileWriteAll s o t rows) p = u → exec i s = .next u) :
    ∃ u, exec i s = .next u ∧ completes s u o o.flags ∧ u.mem = s.mem ∧ (seqAt u o.seq).regs = (seqAt s o.seq).regs ∧
      (∀ r < 64, tileRow (coreAt u (coreOf o.seq)) t r = l r) ∧
      ∀ t' r, t' ≠ t → r < 64 → tileRow (coreAt u (coreOf o.seq)) t' r = tileRow (coreAt s (coreOf o.seq)) t' r := by
  obtain ⟨hc, hmem, hregs, hrows, hother, he⟩ := opDone_tileWriteAll hm hi hs hf t h
  exact ⟨_, step _ he rfl, hfl ▸ hc, hmem, hregs, fun r hr => (hrows r hr).trans (hl r hr), hother⟩

/-- Settles O48: an access that goes at once is made in one step of its engine; rows of a tile or of the scratchpad are written one after another. -/
theorem tileAccessesPerform : Obligations.TileAccessesPerform := by
  unfold Obligations.TileAccessesPerform
  intro s o hm hp hr hf
  dsimp only
  refine ⟨fun t rows v hq hk hgo hw => ?_, fun t rows v hph hk hlen => ?_, fun t a hq hk hb => ?_, fun t tile hq hk hlen => ?_,
    fun tile a hq hk hb => ?_, fun tile rows v hq hk hgo => ?_⟩
  case refine_1 =>
    obtain ⟨sl, hload⟩ := performLoad_goes t hgo hw hr
    have hop : opAt { dropRequests s o.id with slices := sl } o.id = some o := hm.1
    refine ⟨_, rows.map (loadRow s o v), (exec_viewAccessPerform hm hq hp ?_).1 t rows v hk hload, opAt_setOp hop rfl, rfl, rfl, rfl, List.length_map _,
      fun i hi => ?_, fun i p j hi hj => ?_⟩
    · exact hm.2.2
    · rw [List.getElem?_map, hi]; rfl
    · exact ⟨loadRow s o v (some p), by rw [List.getElem?_map, hi]; rfl, rowByte_loadRow v p hj⟩
  case refine_2 =>
    exact sets_of_tileWriteAll hm (p := { o with phase := .performed, result := [] }) rfl rfl hf rfl t hlen (fun _ _ => rfl) fun u he hu =>
      (exec_tileWriteComplete hm he).1 t rows v hph hk hu
  case refine_3 =>
    have hlen : (spadRows (coreAt s (coreOf o.seq)) a).length = 64 := by simp [spadRows]
    exact sets_of_tileWriteAll hm rfl rfl hf rfl t hlen (fun r hr => by simp [spadRows, hr]) fun u he hu =>
      ((exec_tileWriteComplete hm he).2 hp).1 t a hq hk hb hu
  case refine_4 =>
    exact sets_of_tileWriteAll hm rfl rfl hf rfl t hlen (fun _ _ => rfl) fun u he hu => ((exec_tileWriteComplete hm he).2 hp).2 t tile hq hk hu
  case refine_5 =>
    obtain ⟨htiles, hrows⟩ := spadRow_putSpadRows (coreAt s (coreOf o.seq)) (a / 256) tile
    obtain ⟨hcomp, hmem, hregs, hcore, he⟩ := opDone_setCore hm (p := { o with phase := .performed }) rfl rfl hf
      (putSpadRows (coreAt s (coreOf o.seq)) (a / 256) tile)
    refine ⟨_, (exec_viewAccessPerform hm hq hp he).2.2 tile a hk hb rfl, hcomp, hmem, hregs, by rw [hcore]; exact htiles, fun r hr => ?_, fun r hr => ?_⟩
    · rw [hcore, hrows, if_pos (by omega), Nat.add_sub_cancel_left]
    · rw [hcore, hrows, if_neg (by omega)]
  case refine_6 =>
    obtain ⟨hwrote, hfw, hoth, hregs, hstat, hcores, hnone, hdr, he⟩ := opDone_writeCells hm (p := { o with phase := .performed }) rfl rfl hf
      (localCells s (dieOf o.seq) o.asid (storeBytes s o tile rows v))
      (t := writeCells (dropRequests s o.id) (dieOf o.seq) o.id (localCells s (dieOf o.seq) o.asid (storeBytes s o tile rows v))) rfl rfl rfl rfl
    exact ⟨_, (exec_viewAccessPerform hm hq hp he).2.1 tile rows v hk (performWrite_goes _ _ hgo hr), hwrote, hfw, hoth, hregs, hstat, hcores, hnone, hdr⟩

end Sys2Proof.Machine

/-! O52: the elements of placed results (R249-R252). -/

namespace Sys2Proof.Machine

/-- The rows of a matrix in row-major order. -/
def matrixRows (a : List Nat) (nr nc : Nat) : List (List Nat) := (List.range nr).map (fun i => (List.range nc).map (fun j => a.getD (i * nc + j) 0))

theorem take_eq_range_map {l : List Nat} {n : Nat} (h : n ≤ l.length) : l.take n = (List.range n).map (fun j => l.getD j 0) := by
  refine List.ext_getElem (by simpa using h) fun j hj _ => ?_
  rw [List.length_take] at hj
  simp [show j < l.length by omega]

theorem chunks_eq_matrixRows (n k : Nat) (l : List Nat) (h : l.length = k * n) : chunks n k l = matrixRows l k n := by
  induction k generalizing l with
  | zero => rfl
  | succ k ih =>
    have hk : (k + 1) * n = k * n + n := Nat.succ_mul k n
    rw [chunks, ih (l.drop n) (by rw [List.length_drop]; omega), take_eq_range_map (by omega), matrixRows, matrixRows, List.range_succ_eq_map, List.map_cons,
      List.map_map]
    simp [Nat.succ_mul, Nat.add_comm, Nat.add_left_comm, Function.comp_def]

/-- The element of row i and column j of rows of one length, put after one another. -/
theorem getElem?_rows {α β : Type} (l : List β) (f : β → Nat → α) (n : Nat) {i j : Nat} {x : β} (hi : l[i]? = some x) (hj : j < n) :
    (l.flatMap (fun x => (List.range n).map (f x)))[i * n + j]? = some (f x j) := by
  induction l generalizing i with
  | nil => exact absurd hi (by simp)
  | cons y l ih =>
    rw [List.flatMap_cons]
    cases i with
    | zero =>
      obtain rfl : y = x := by simpa using hi
      rw [List.getElem?_append_left (by simpa using hj)]
      simp [hj]
    | succ i =>
      have hlen : ((List.range n).map (f y)).length = n := by simp
      rw [List.getElem?_append_right (by rw [hlen, Nat.succ_mul]; omega), hlen, show (i + 1) * n + j - n = i * n + j by rw [Nat.succ_mul]; omega]
      exact ih hi

/-- R249: the second source of as many rows as the first. -/
theorem placedResult_elementwise {op : PlacedOp} (hop : op = .add ∨ op = .sub ∨ op = .mul ∨ op = .max) (fmt nr nc : Nat) (m : RMode) (a b : List Nat)
    (trb : Bool) (ha : a.length = nr * nc) (hb : b.length = nr * nc) : placedResult op fmt m a b nr nc nr trb =
      (List.range nr).flatMap (fun i => (List.range nc).map (fun j => placedElem op fmt m (a.getD (i * nc + j) 0) (b.getD (i * nc + j) 0))) := by
  have hsecond : (if nr = 1 then List.replicate nr (b.take nc) else chunks nc nr b) = matrixRows b nr nc := by
    split
    · next h => subst h; exact chunks_eq_matrixRows nc 1 b hb
    · exact chunks_eq_matrixRows nc nr b hb
  have hall : placedResult op fmt m a b nr nc nr trb =
      ((matrixRows a nr nc).zip (matrixRows b nr nc)).flatMap (fun x => (x.1.zip x.2).map (fun y => placedElem op fmt m y.1 y.2)) := by
    rw [← hsecond, ← chunks_eq_matrixRows nc nr a ha]
    obtain rfl | rfl | rfl | rfl := hop <;> rfl
  rw [hall, matrixRows, matrixRows, List.zip_map', List.flatMap_map]
  simp only [List.zip_map', List.map_map, Function.comp_def]

theorem placedElem_at {op : PlacedOp} (hop : op = .add ∨ op = .sub ∨ op = .mul ∨ op = .max) (fmt nr nc : Nat) (m : RMode) (a b : List Nat)
    (trb : Bool) (ha : a.length = nr * nc) (hb : b.length = nr * nc) {i : Nat} (hi : i < nr * nc) :
    (placedResult op fmt m a b nr nc nr trb)[i]? = some (placedElem op fmt m (a.getD i 0) (b.getD i 0)) := by
  have hnc : 0 < nc := Nat.pos_of_ne_zero (by rintro rfl; simp at hi)
  have hrow : i / nc < nr := (Nat.div_lt_iff_lt_mul hnc).mpr hi
  have hat := getElem?_rows (List.range nr) (fun i j => placedElem op fmt m (a.getD (i * nc + j) 0) (b.getD (i * nc + j) 0)) nc
    (List.getElem?_range hrow) (Nat.mod_lt i hnc)
  rw [Nat.div_add_mod' i nc] at hat
  rw [placedResult_elementwise hop fmt nr nc m a b trb ha hb]
  exact hat

/-- R252: the columns of the second source of TMM. -/
theorem mmColumns_eq {b : List Nat} {nc n : Nat} (hb : b.length = nc * n) (trb : Bool) :
    mmColumns b nc n trb = (List.range n).map (fun j => (List.range nc).map (fun k => b.getD (if trb then j * nc + k else k * n + j) 0)) := by
  cases trb with
  | true => exact chunks_eq_matrixRows nc n b (by rw [hb, Nat.mul_comm])
  | false =>
    rw [mmColumns, chunks_eq_matrixRows n nc b hb, matrixRows]
    refine List.map_congr_left fun j hj => ?_
    have hj' : j < n := List.mem_range.mp hj
    simp [hj']

/-- R251: the products of two lists of codes that are read place by place. -/
theorem products_map (fmt nc : Nat) (f g : Nat → Nat) : products fmt ((List.range nc).map f) ((List.range nc).map g) =
    (List.range nc).map (fun k => mulVal (decodeFloat fmt (f k)) (decodeFloat fmt (g k))) := by
  rw [products, List.zip_map', List.map_map]
  rfl

section
variable {fmt nr nc : Nat} {m : RMode} {a : List Nat} (ha : a.length = nr * nc)
include ha

theorem placedResult_red (b : List Nat) (n : Nat) (trb : Bool) : placedResult .red fmt m a b nr nc n trb =
    (List.range nr).map (fun i => roundTo fmt m (termSum m ((List.range nc).map (fun k => decodeFloat fmt (a.getD (i * nc + k) 0))))) := by
  rw [placedResult, chunks_eq_matrixRows nc nr a ha, matrixRows]
  simp only [List.map_map, Function.comp_def, sumCode]

theorem placedResult_mv {b : List Nat} (hb : b.length = nc) (n : Nat) (trb : Bool) : placedResult .mv fmt m a b nr nc n trb =
    (List.range nr).map (fun i => roundTo fmt m (termSum m ((List.range nc).map
      (fun k => mulVal (decodeFloat fmt (a.getD (i * nc + k) 0)) (decodeFloat fmt (b.getD k 0)))))) := by
  have hb' : b = (List.range nc).map (fun k => b.getD k 0) := by rw [← take_eq_range_map (by omega), ← hb, List.take_length]
  rw [placedResult, chunks_eq_matrixRows nc nr a ha, matrixRows, List.map_map]
  refine List.map_congr_left fun i _ => ?_
  rw [Function.comp_apply, sumCode]
  conv_lhs => rw [hb', products_map]

theorem placedResult_mm {b : List Nat} {n : Nat} (hb : b.length = nc * n) (trb : Bool) : placedResult .mm fmt m a b nr nc n trb =
    (List.range nr).flatMap (fun i => (List.range n).map (fun j => roundTo fmt m (termSum m ((List.range nc).map
      (fun k => mulVal (decodeFloat fmt (a.getD (i * nc + k) 0)) (decodeFloat fmt (b.getD (if trb then j * nc + k else k * n + j) 0))))))) := by
  rw [placedResult, chunks_eq_matrixRows nc nr a ha, matrixRows, List.flatMap_map, mmColumns_eq hb]
  simp only [List.map_map, Function.comp_def, sumCode, products_map]

end

end Sys2Proof.Machine

/-! O52: exact sums and products of finite values (R99, R248, R251). -/

namespace Sys2Proof.Machine

/-- A finite value as a number of units of 2^g; 0 for a value that is not finite. -/
def unitsOf (g : Int) (x : Val) : Int :=
  match x with
  | .fin neg k e => (if neg then -1 else 1) * ((k * 2 ^ (e - g).toNat : Nat) : Int)
  | _ => 0

/-- A finite value that is a whole number of units of 2^g by its exponent. -/
def FiniteFrom (g : Int) (x : Val) : Prop := ∃ neg k e, x = .fin neg k e ∧ g ≤ e

theorem unitsOf_zero (g : Int) (neg : Bool) (e : Int) : unitsOf g (.fin neg 0 e) = 0 := by simp [unitsOf]

theorem toNat_sub_split {g c e : Int} (hg : g ≤ c) (hc : c ≤ e) : (e - g).toNat = (e - c).toNat + (c - g).toNat := by omega

/-- A value scaled to an exponent between, in the units of the lower one. -/
theorem unitsOf_eq_scaledInt {g c e : Int} (hg : g ≤ c) (hc : c ≤ e) (neg : Bool) (m : Nat) :
    unitsOf g (.fin neg m e) = scaledInt neg m e c * 2 ^ (c - g).toNat := by
  rw [unitsOf, scaledInt, toNat_sub_split hg hc, Nat.pow_add]
  cases neg <;> simp [mul_assoc]

/-- An integer at an exponent, as addVal writes it. -/
theorem unitsOf_signed (g c n : Int) : unitsOf g (.fin (decide (n < 0)) n.natAbs c) = n * 2 ^ (c - g).toNat := by
  rw [unitsOf]
  by_cases hn : n < 0
  · simp [hn, abs_of_neg hn]
  · simp [hn, abs_of_nonneg (not_lt.mp hn)]

/-- R99: the sum of two finite values is exact. -/
theorem addVal_finiteFrom (m : RMode) {g : Int} (hg : g ≤ 0) {a b : Val} (ha : FiniteFrom g a) (hb : FiniteFrom g b) :
    FiniteFrom g (addVal m a b) ∧ unitsOf g (addVal m a b) = unitsOf g a + unitsOf g b := by
  obtain ⟨na, ma, ea, rfl, hea⟩ := ha
  obtain ⟨nb, mb, eb, rfl, heb⟩ := hb
  simp only [addVal]
  have hsum : unitsOf g (.fin na ma ea) + unitsOf g (.fin nb mb eb) =
      (scaledInt na ma ea (min ea eb) + scaledInt nb mb eb (min ea eb)) * 2 ^ (min ea eb - g).toNat := by
    rw [unitsOf_eq_scaledInt (le_min hea heb) (min_le_left ..), unitsOf_eq_scaledInt (le_min hea heb) (min_le_right ..), add_mul]
  split
  · next h =>
    obtain ⟨rfl, rfl, rfl⟩ := h
    exact ⟨⟨_, _, _, rfl, hg⟩, by simp only [unitsOf_zero]; rfl⟩
  split
  · next hs =>
    exact ⟨⟨_, _, _, rfl, hg⟩, by rw [hsum, hs, unitsOf_zero, zero_mul]⟩
  · exact ⟨⟨_, _, _, rfl, le_min hea heb⟩, by rw [hsum, unitsOf_signed]⟩

theorem foldl_addVal_finiteFrom (m : RMode) {g : Int} (hg : g ≤ 0) {l : List Val} (hl : ∀ x ∈ l, FiniteFrom g x) {a : Val} (ha : FiniteFrom g a) :
    FiniteFrom g (l.foldl (addVal m) a) ∧ unitsOf g (l.foldl (addVal m) a) = unitsOf g a + (l.map (unitsOf g)).sum := by
  induction l generalizing a with
  | nil => exact ⟨ha, by simp⟩
  | cons x l ih =>
    obtain ⟨hgrid, hunits⟩ := addVal_finiteFrom m hg ha (hl x List.mem_cons_self)
    obtain ⟨hgrid', hunits'⟩ := ih (fun y hy => hl y (List.mem_cons_of_mem x hy)) hgrid
    exact ⟨hgrid', by rw [List.foldl_cons, hunits', hunits, List.map_cons, List.sum_cons, add_assoc]⟩

/-- R248: the sum of finite terms is their exact sum. -/
theorem termSum_of_finiteFrom (m : RMode) {g : Int} {l : List Val} (hl : ∀ x ∈ l, FiniteFrom g x) : termSum m l = exactSum m l := by
  have hnan : l.any isNan = false := List.any_eq_false.mpr fun x hx => by
    obtain ⟨neg, k, e, rfl, -⟩ := hl x hx
    exact Bool.false_ne_true
  have hinf : Val.inf false ∉ l := by
    intro hmem
    obtain ⟨neg, k, e, heq, -⟩ := hl _ hmem
    exact Val.noConfusion heq
  simp [termSum, hnan, hinf]

theorem termSum_finiteFrom (m : RMode) {g : Int} (hg : g ≤ 0) {l : List Val} (hl : ∀ x ∈ l, FiniteFrom g x) :
    FiniteFrom g (termSum m l) ∧ unitsOf g (termSum m l) = (l.map (unitsOf g)).sum := by
  rw [termSum_of_finiteFrom m hl]
  cases l with
  | nil => exact ⟨⟨_, _, _, rfl, hg⟩, unitsOf_zero ..⟩
  | cons x l =>
    obtain ⟨hgrid, hunits⟩ := foldl_addVal_finiteFrom m hg (fun y hy => hl y (List.mem_cons_of_mem x hy)) (hl x List.mem_cons_self)
    exact ⟨hgrid, hunits.trans (List.sum_cons ..).symm⟩

/-- R99, R251: the product of two finite values is exact. -/
theorem unitsOf_mulVal (p q : Bool) (k a : Nat) {g h e d : Int} (he : g ≤ e) (hd : h ≤ d) :
    unitsOf (g + h) (mulVal (.fin p k e) (.fin q a d)) = unitsOf g (.fin p k e) * unitsOf h (.fin q a d) := by
  have hexp : (e + d - (g + h)).toNat = (e - g).toNat + (d - h).toNat := by omega
  simp only [mulVal, unitsOf, hexp, Nat.pow_add]
  push_cast
  cases p <;> cases q <;> simp <;> ring

end Sys2Proof.Machine

/-! O52: placed operations at their homes (R232, R243, R245, R247, R253). -/

namespace Sys2Proof.Machine

/-- The union of the flags of the elements of a result. -/
def unionFlags (l : List (Nat × Flags)) : Flags := l.foldl (fun f x => f ||| x.2) 0

/-- The bytes of a result with their addresses through a view of memory. -/
def writeBackBytes (s : State) (o : Op) (vd : View) (l : List (Nat × Flags)) : List (Nat × Byte) :=
  ((resultBytes l).zip (List.range (2 * l.length))).map (fun x => ((posAddr s o.asid vd x.2).toNat, x.1))

/-- R253: the operation is counted at its home, and is done. -/
def placedDone (s : State) (o : Op) (home shipped : Nat) (fl : Flags) : State :=
  opDone (countPlaced s (coreOf o.seq) home shipped) { o with phase := .performed, flags := fl }

/-- R253: the counter of a home has counted one operation more. -/
def CountsOne (s u : State) (k home : Nat) : Prop :=
  (vget 0 (coreAt u k).placed (placedCounter home)).toNat / 2 ^ 40 = ((vget 0 (coreAt s k).placed (placedCounter home)).toNat / 2 ^ 40 + 1) % 2 ^ 24

theorem countPlaced_counts (s : State) (k shipped : Nat) {home : Nat} (hh : home < 5) : CountsOne s (countPlaced s k home shipped) k home := by
  have hn : placedCounter home < 5 := by rw [placedCounter]; split <;> [omega; split <;> omega]
  rw [CountsOne, countPlaced]
  simp only [coreAt_setCore_same, vget_vput_same _ _ _ _ hn, BitVec.toNat_ofNat]
  omega

theorem tiles_countPlaced (s : State) (k home shipped : Nat) : (coreAt (countPlaced s k home shipped) k).tiles = (coreAt s k).tiles := by
  rw [countPlaced, coreAt_setCore_same]

/-- What the end of a placed operation leaves. -/
theorem placedDone_leaves {s : State} {o : Op} (he : (seqAt s o.seq).endPending = false) (shipped : Nat) (fl : Flags) {home : Nat} (hh : home < 5) :
    let u := placedDone s o home shipped fl
    u.mem = s.mem ∧ u.quads = s.quads ∧ (seqAt u o.seq).endPending = false ∧ CountsOne s u (coreOf o.seq) home ∧
      (coreAt u (coreOf o.seq)).tiles = (coreAt s (coreOf o.seq)).tiles := by
  have he' : (seqAt (countPlaced s (coreOf o.seq) home shipped) o.seq).endPending = false := he
  have hcount := countPlaced_counts s (coreOf o.seq) shipped hh
  have htiles := tiles_countPlaced s (coreOf o.seq) home shipped
  have hquads : (countPlaced s (coreOf o.seq) home shipped).quads = s.quads := rfl
  have hmem : (countPlaced s (coreOf o.seq) home shipped).mem = s.mem := rfl
  dsimp only [placedDone]
  generalize countPlaced s (coreOf o.seq) home shipped = t at *
  obtain ⟨km, kc, -, -, ke⟩ := completeOp_keeps t { o with phase := .performed, flags := fl }
  have hcore : coreAt (completeOp t { o with phase := .performed, flags := fl }) (coreOf o.seq) = coreAt t (coreOf o.seq) :=
    congrArg (fun l => tget CoreState.reset l (coreOf o.seq)) kc
  rw [opDone_goes (o := { o with phase := .performed, flags := fl }) he']
  refine ⟨km.trans hmem, (completeOp_quads _ _).trans hquads, ke.trans he', ?_, by rw [hcore, htiles]⟩
  rw [CountsOne, hcore]
  exact hcount

/-- Row writes leave the placement counters. -/
theorem placed_foldl_tileWrite {α : Type} (o : Op) (t : α → Nat) (f : α → Nat × (Row → Row)) (l : List α) (s : State) :
    (coreAt (l.foldl (fun s x => tileWrite o (t x) s (f x)) s) (coreOf o.seq)).placed = (coreAt s (coreOf o.seq)).placed := by
  induction l generalizing s with
  | nil => rfl
  | cons x l ih =>
    refine (ih _).trans ?_
    have hcore : coreAt (tileWrite o (t x) s (f x)) (coreOf o.seq) =
        putTileRow (coreAt s (coreOf o.seq)) (t x) (f x).1 ((f x).2 (tileRow (coreAt s (coreOf o.seq)) (t x) (f x).1)) := coreAt_setCore_same ..
    rw [hcore]
    rfl

theorem passSlices_slices (s : State) (home : Option Nat) (locs : List Nat) : ∃ sl, passSlices s home locs = { s with slices := sl } := by
  have hfold : ∀ (l : List Nat) (s : State), ∃ sl, l.foldl forwardLine s = { s with slices := sl } := by
    intro l
    induction l with
    | nil => exact fun s => ⟨s.slices, rfl⟩
    | cons x l ih =>
      intro s
      obtain ⟨sl, h⟩ := ih (forwardLine s x)
      exact ⟨sl, h⟩
  unfold passSlices
  split
  · exact ⟨s.slices, rfl⟩
  · exact hfold _ s

/-- R191, R232: the word of a risen operation's report holds its opcode, DETAIL 0 and zero reserved bits. -/
theorem placedStatus_word (s : State) (op : PlacedOp) :
    (placedStatus s op 3).2 &&& 0xFFFFFFFFFF0000F8 = BitVec.ofNat 64 (placedOpcode op * 2 ^ 32) := by
  have hmask : (0xFFFF07 : BitVec 64) &&& 0xFFFFFFFFFF0000F8 = 0#64 := by decide
  have hop : BitVec.ofNat 64 (placedOpcode op * 2 ^ 32) &&& 0xFFFFFFFFFF0000F8 = BitVec.ofNat 64 (placedOpcode op * 2 ^ 32) := by cases op <;> decide
  have hword : (placedStatus s op 3).2 = BitVec.ofNat 64 (placedOpcode op * 2 ^ 32) ||| ((freeStatus s).2 &&& 0xFFFF07) := rfl
  rw [hword, BitVec.and_or_distrib_right, BitVec.and_assoc, hmask, hop, BitVec.and_zero, BitVec.or_zero]

/-- What a report leaves of its strand, and the status word that it carries. -/
theorem failOp_stream {s : State} {o : Op} (cause engine cqn : Nat) (aux0 : BitVec 64) (aux1 : Word) (he : (seqAt s o.seq).endPending = false)
    (hu : (seqAt s o.seq).unwind = none) : ∃ r, r.aux0 = aux0 ∧
      seqAt (failOp s o cause engine cqn aux0 aux1) o.seq = { seqAt s o.seq with reports := (seqAt s o.seq).reports ++ [r] } := by
  have hd : ∀ q, seqAt (dropFailures s (dieOf o.seq) o.asid) q = seqAt s q := fun _ => rfl
  have hs : ∀ (t : State) (x : Seq) (p : Op), seqAt (setOp (setSeq t o.seq x) p) o.seq = x := fun t x p => tget_tput_same ..
  simp only [failOp, hd, he, hu, Bool.false_and, Bool.or_false, Bool.false_eq_true, if_false]
  exact ⟨_, rfl, hs ..⟩

/-- R245: a placed operation that fails is reported with the engine of its home; the word of a risen one has its opcode. -/
theorem failPlaced_reports {s : State} {o : Op} (op : PlacedOp) (home cause : Nat) (aux1 : Word) (hm : mayAct s o) (hu : (seqAt s o.seq).unwind = none) :
    let u := failPlaced s o op home cause aux1
    reported s u o cause (placedEngine home) 0 aux1 ∧ u.mem = s.mem ∧ u.cores = s.cores ∧ u.quads = s.quads ∧ (seqAt u o.seq).endPending = false ∧
      (home = 3 → ∃ r, (seqAt u o.seq).reports = (seqAt s o.seq).reports ++ [r] ∧
        r.aux0 &&& 0xFFFFFFFFFF0000F8 = BitVec.ofNat 64 (placedOpcode op * 2 ^ 32)) := by
  obtain ⟨hop, -, he⟩ := hm
  obtain ⟨hr, hc, hmem, hend⟩ := failOp_reports (s := (placedStatus s op home).1) cause (placedEngine home) 0 (placedStatus s op home).2 aux1 hop he hu
  have hq := failOp_quads (s := (placedStatus s op home).1) cause (placedEngine home) 0 (placedStatus s op home).2 aux1 he hu
  refine ⟨hr, hmem, hc, hq, hend, ?_⟩
  rintro rfl
  obtain ⟨r, hword, hstream⟩ := failOp_stream (s := (placedStatus s op 3).1) cause (placedEngine 3) 0 (placedStatus s op 3).2 aux1 he hu
  exact ⟨r, congrArg Seq.reports hstream, by rw [hword, placedStatus_word]⟩

section
variable {s : State} {o : Op} {op : PlacedOp} {vd va vb : View} {fmt nr nc n home shipped : Nat} {a b : List Nat} {trb : Bool} {mode : BitVec 2}
  (hk : o.kind = .placed op vd va vb fmt a b nr nc n trb mode home shipped)
include hk

/-- R243, R245, R247: what the home of a placed operation does. -/
theorem performPlaced_eq : performPlaced s o =
    let l := placedResult op fmt mode a b nr nc n trb
    if computeFails s o home then failPlaced s o op home 0x31 0
    else (match firstOut fmt vd l with
      | some k => failPlaced s o op home 0x29 (BitVec.ofNat 32 k)
      | none =>
        if vd.handle = 0 then placedDone (writeTileBytes s o (tileViewBytes vd (resultBytes l))) o home shipped (unionFlags l)
        else performWrite s o (writeBackBytes s o vd l) (fun s c _ => failPlaced s o op home c 0)
          (fun t => placedDone (passSlices t o.slice (placesOf s (dieOf o.seq) o.asid true ((writeBackBytes s o vd l).map Prod.fst))) o home shipped
            (unionFlags l))) := by
  unfold performPlaced
  split
  next h =>
    cases hk.symm.trans h
    rfl
  next h => exact (h _ _ _ _ _ _ _ _ _ _ _ _ _ _ hk).elim

/-- R245: an uncorrectable error that the compute meets. -/
theorem performPlaced_fails (hfail : computeFails s o home = true) : performPlaced s o = failPlaced s o op home 0x31 0 :=
  (performPlaced_eq hk).trans (if_pos hfail)

/-- R197: the first element out of bounds. -/
theorem performPlaced_out {i : Nat} (hok : computeFails s o home = false) (hout : firstOut fmt vd (placedResult op fmt mode a b nr nc n trb) = some i) :
    performPlaced s o = failPlaced s o op home 0x29 (BitVec.ofNat 32 i) := by
  simp only [performPlaced_eq hk, hok, hout, Bool.false_eq_true, if_false]

variable (hm : mayAct s o)
include hm

variable (hok : computeFails s o home = false) (hin : firstOut fmt vd (placedResult op fmt mode a b nr nc n trb) = none)
  (hf : ∀ f ∈ s.forwards, f.op ≠ o.id) (hh : home < 5)
include hok hin hf hh

/-- R243: a result of a view of tiles. -/
theorem performPlaced_tiles (hv : vd.handle = 0) : let u := performPlaced s o
    completes s u o (unionFlags (placedResult op fmt mode a b nr nc n trb)) ∧ CountsOne s u (coreOf o.seq) home ∧ u.mem = s.mem ∧
      (seqAt u o.seq).endPending = false ∧ u.quads = s.quads := by
  have hu : performPlaced s o = placedDone (writeTileBytes s o (tileViewBytes vd (resultBytes (placedResult op fmt mode a b nr nc n trb)))) o home shipped
      (unionFlags (placedResult op fmt mode a b nr nc n trb)) := by
    simp only [performPlaced_eq hk, hok, hin, hv, Bool.false_eq_true, if_false, if_true]
  generalize placedResult op fmt mode a b nr nc n trb = l at *
  have hrows : WritesRows o s (writeTileBytes s o (tileViewBytes vd (resultBytes l))) := foldl_writesRows (fun s _ => tileWrite_writesRows o _ s _) _ s
  have hplaced : (coreAt (writeTileBytes s o (tileViewBytes vd (resultBytes l))) (coreOf o.seq)).placed = (coreAt s (coreOf o.seq)).placed :=
    placed_foldl_tileWrite o _ _ _ s
  generalize writeTileBytes s o (tileViewBytes vd (resultBytes l)) = t at *
  obtain ⟨q, hq⟩ := hrows.own
  have he : (seqAt t o.seq).endPending = false := by rw [hq]; exact hm.2.2
  obtain ⟨hdone, hcomp⟩ := opDone_completes (s := t) (t := countPlaced t (coreOf o.seq) home shipped) (o := o)
    (p := { o with phase := .performed, flags := unionFlags l }) rfl rfl rfl rfl he (by rw [hrows.forwards]; exact hf)
  obtain ⟨hmem, hquads, hend, hcount, -⟩ := placedDone_leaves he shipped (unionFlags l) hh
  dsimp only
  rw [hu]
  refine ⟨completes_of_writesRows hrows ?_, ?_, hmem.trans hrows.mem, hend, hquads.trans hrows.quads⟩
  · rw [placedDone, hdone]; exact hcomp
  · rw [CountsOne, ← hplaced]; exact hcount

/-- R243, R247: a result of a view of memory that goes at once. -/
theorem performPlaced_memory (hv : vd.handle ≠ 0) (hr : requestsOf s o.id = [])
    (hgo : Goes s o true ((writeBackBytes s o vd (placedResult op fmt mode a b nr nc n trb)).map Prod.fst)) : let u := performPlaced s o
    CountsOne s u (coreOf o.seq) home ∧
      wrote ((localCells s (dieOf o.seq) o.asid (writeBackBytes s o vd (placedResult op fmt mode a b nr nc n trb))).filter
        (fun c => homeDie c.1 == some (dieOf o.seq))) s u ∧ (coreAt u (coreOf o.seq)).tiles = (coreAt s (coreOf o.seq)).tiles ∧
      (seqAt u o.seq).cstat = (seqAt s o.seq).cstat ||| unionFlags (placedResult op fmt mode a b nr nc n trb) ∧
      (∀ p, opAt u o.id = some p → p.phase = .drained) ∧ (seqAt u o.seq).endPending = false ∧ u.quads = s.quads := by
  obtain ⟨locs, hlocs⟩ : ∃ locs, placesOf s (dieOf o.seq) o.asid true
    ((writeBackBytes s o vd (placedResult op fmt mode a b nr nc n trb)).map Prod.fst) = locs := ⟨_, rfl⟩
  have hu : performPlaced s o = placedDone (passSlices (writeCells (dropRequests s o.id) (dieOf o.seq) o.id
      (localCells s (dieOf o.seq) o.asid (writeBackBytes s o vd (placedResult op fmt mode a b nr nc n trb)))) o.slice locs) o home shipped
      (unionFlags (placedResult op fmt mode a b nr nc n trb)) := by
    simp only [performPlaced_eq hk, hok, hin, hv, Bool.false_eq_true, if_false, hlocs]
    exact performWrite_goes _ _ hgo hr
  generalize placedResult op fmt mode a b nr nc n trb = l at *
  obtain ⟨sl, hsl⟩ := passSlices_slices (writeCells (dropRequests s o.id) (dieOf o.seq) o.id (localCells s (dieOf o.seq) o.asid (writeBackBytes s o vd l)))
    o.slice locs
  rw [hsl] at hu
  obtain ⟨hwrote, -, -, -, hstat, -, -, hdr, hend⟩ := opDone_writeCells hm (p := { o with phase := .performed, flags := unionFlags l }) rfl rfl hf
    (localCells s (dieOf o.seq) o.asid (writeBackBytes s o vd l))
    (t := countPlaced { writeCells (dropRequests s o.id) (dieOf o.seq) o.id (localCells s (dieOf o.seq) o.asid (writeBackBytes s o vd l)) with slices := sl }
      (coreOf o.seq) home shipped) rfl rfl rfl rfl
  obtain ⟨-, hquads, -, hcount, htiles⟩ := placedDone_leaves (o := o)
    (s := { writeCells (dropRequests s o.id) (dieOf o.seq) o.id (localCells s (dieOf o.seq) o.asid (writeBackBytes s o vd l)) with slices := sl })
    hm.2.2 shipped (unionFlags l) hh
  dsimp only
  rw [hu]
  exact ⟨hcount, hwrote, htiles, hstat, hdr, hend, hquads⟩

end

end Sys2Proof.Machine

/-! O52: the steps of placed operations (R211, R212, R243, R246). -/

namespace Sys2Proof.Machine

section
variable {s : State} {o : Op} {op : PlacedOp} {vd va vb : View} {fmt nr nc n home shipped : Nat} {a b : List Nat} {trb : Bool} {mode : BitVec 2}

/-- R243: a placed operation of a home other than the array. -/
theorem exec_placedWriteback (hk : o.kind = .placed op vd va vb fmt a b nr nc n trb mode home shipped) (hh : home ≠ 3) (hm : mayAct s o)
    (hq : o.phase = .queued) (hp : mayPerform s o = true) (he : (seqAt (performPlaced s o) o.seq).endPending = false) :
    exec (.placedWriteback o.id) s = .next (performPlaced s o) := by
  have step : exec (.placedWriteback o.id) s = .next (writesBack s o.id) := rfl
  have hback : writesBack s o.id = onOp s o.id (mayMove s) performPlaced := by
    rw [writesBack, hm.1]
    dsimp only
    rw [hk]
    exact if_neg hh
  rw [step, hback, onOp_acts hm (mayMove_acts hm hq hp) he]

/-- R245: a placed operation that fails at a home other than the array. -/
theorem placedWriteback_fails (hk : o.kind = .placed op vd va vb fmt a b nr nc n trb mode home shipped) (hh : home ≠ 3) (hm : mayAct s o)
    (hq : o.phase = .queued) (hp : mayPerform s o = true) (hu : (seqAt s o.seq).unwind = none) {cause : Nat} {aux1 : Word}
    (hfail : performPlaced s o = failPlaced s o op home cause aux1) :
    ∃ u, exec (.placedWriteback o.id) s = .next u ∧ reported s u o cause (placedEngine home) 0 aux1 ∧ u.mem = s.mem ∧ u.cores = s.cores := by
  obtain ⟨hrep, hmem, hcores, -, he, -⟩ := failPlaced_reports op home cause aux1 hm hu
  rw [← hfail] at hrep hmem hcores he
  exact ⟨_, exec_placedWriteback hk hh hm hq hp he, hrep, hmem, hcores⟩

end

/-- R212: a command other than LREL at the head of its queue. -/
theorem exec_heldCommand {s : State} {quad c : Nat} {o : Op} (hhead : (arrayQueue s (quad * 4 + c)).head? = some o) (hm : mayAct s o)
    (hq : o.phase = .queued) (hl : o.kind ≠ .array .lrel) {u : State} (hu : heldCommand s quad c o = u) (he : (seqAt u o.seq).endPending = false) :
    exec (.arrayCommandRun quad c) s = .next u := by
  rw [exec_arrayCommandRun, (runCommand_head hhead hm hq).2 hl, hu, finishStrand_goes he]

/-- R211: a command that has asked no other package for anything waits for the lease and for its bounds. -/
theorem heldCommand_waits {s : State} {quad c : Nat} {o : Op} (hhead : (arrayQueue s (quad * 4 + c)).head? = some o)
    (hr : requestsOf s o.id = []) (h : (quadAt s quad).holder ≠ some c ∨ boundReached (quadAt s quad) = true) :
    heldCommand s quad c o = s := by
  have hunder : commandUnderWay s quad c = false := by simp [commandUnderWay, hhead, hr]
  refine if_pos ?_
  rcases h with h | h
  · exact .inl h
  · exact .inr (.inl (by rw [boundStops, h, hunder]; rfl))

/-- R211, R246: a risen placed operation at the head of the queue of the core that has the lease. -/
theorem heldCommand_placed {s : State} {quad c : Nat} {o : Op} {op : PlacedOp} {vd va vb : View} {fmt nr nc n home shipped : Nat} {a b : List Nat} {trb : Bool}
    {mode : BitVec 2} (hk : o.kind = .placed op vd va vb fmt a b nr nc n trb mode home shipped) (hx : (quadAt s quad).holder = some c)
    (hb : boundReached (quadAt s quad) = false) (hp : mayPerform s o = true) : heldCommand s quad c o =
      if (opAt (performPlaced s o) o.id).any (fun a => a.phase == .queued || a.phase == .failed) then performPlaced s o
      else commandDone (performPlaced s o) quad c true := by
  unfold heldCommand
  rw [if_neg (show ¬ ((quadAt s quad).holder ≠ some c ∨ boundStops s quad c = true ∨ (!mayPerform s o) = true) by simp [hx, boundStops, hb, hp])]
  simp only [hk]

/-- R212: a risen placed operation that is done counts toward the lease. -/
theorem commandDone_placed {s : State} {quad c : Nat} {o : Op} {op : PlacedOp} {vd va vb : View} {fmt nr nc n home shipped : Nat} {a b : List Nat} {trb : Bool}
    {mode : BitVec 2} (hk : o.kind = .placed op vd va vb fmt a b nr nc n trb mode home shipped)
    (hhead : (arrayQueue s (quad * 4 + c)).head? = some o) (hm : mayAct s o) (hq : o.phase = .queued) (hx : (quadAt s quad).holder = some c)
    (hb : boundReached (quadAt s quad) = false) (hp : mayPerform s o = true) (he : (seqAt (performPlaced s o) o.seq).endPending = false)
    (hquads : (performPlaced s o).quads = s.quads) (hdr : ∀ p, opAt (performPlaced s o) o.id = some p → p.phase = .drained) :
    ∃ u, exec (.arrayCommandRun quad c) s = .next u ∧ u.seqs = (performPlaced s o).seqs ∧ u.cores = (performPlaced s o).cores ∧
      u.ops = (performPlaced s o).ops ∧ u.mem = (performPlaced s o).mem ∧ (quadAt u quad).array = (quadAt s quad).array ∧
      (quadAt u quad).commands = (quadAt s quad).commands + 1 := by
  have hnot : (opAt (performPlaced s o) o.id).any (fun a => a.phase == .queued || a.phase == .failed) = false := by
    cases h : opAt (performPlaced s o) o.id with
    | none => rfl
    | some p =>
      rw [Option.any_some, hdr p h]
      rfl
  obtain ⟨hs, hc, ho, hmem, harray, hcount⟩ := commandDone_counts (performPlaced s o) quad c
  have hquad : quadAt (performPlaced s o) quad = quadAt s quad := congrArg (fun l => tget Quad.reset l quad) hquads
  rw [hquad] at harray hcount
  refine ⟨_, exec_heldCommand hhead hm hq (by rw [hk]; exact OpKind.noConfusion) ((heldCommand_placed hk hx hb hp).trans ?_) ?_, hs, hc, ho, hmem, harray,
    hcount⟩
  · rw [hnot]
    rfl
  · exact (congrArg (fun l => (tget Seq.reset l o.seq).endPending) hs).trans he

/-- R232, R245: a risen placed operation that fails keeps its place at the head of the queue. -/
theorem heldCommand_placedFails {s : State} {quad c : Nat} {o : Op} {op : PlacedOp} {vd va vb : View} {fmt nr nc n home shipped : Nat} {a b : List Nat} {trb : Bool}
    {mode : BitVec 2} (hk : o.kind = .placed op vd va vb fmt a b nr nc n trb mode home shipped)
    (hhead : (arrayQueue s (quad * 4 + c)).head? = some o) (hm : mayAct s o) (hq : o.phase = .queued) (hx : (quadAt s quad).holder = some c)
    (hb : boundReached (quadAt s quad) = false) (hp : mayPerform s o = true) (hu : (seqAt s o.seq).unwind = none) {cause : Nat} {aux1 : Word}
    (hfail : performPlaced s o = failPlaced s o op 3 cause aux1) :
    ∃ u, exec (.arrayCommandRun quad c) s = .next u ∧ reported s u o cause 2 0 aux1 ∧ (∃ r, (seqAt u o.seq).reports = (seqAt s o.seq).reports ++ [r] ∧
      r.aux0 &&& 0xFFFFFFFFFF0000F8 = BitVec.ofNat 64 (placedOpcode op * 2 ^ 32)) ∧ u.mem = s.mem ∧ u.cores = s.cores ∧
      (quadAt u quad).array = (quadAt s quad).array := by
  obtain ⟨hrep, hmem, hcores, hquads, he, hword⟩ := failPlaced_reports op 3 cause aux1 hm hu
  rw [← hfail] at hrep hmem hcores hquads he hword
  refine ⟨performPlaced s o, exec_heldCommand hhead hm hq (by rw [hk]; exact OpKind.noConfusion) ((heldCommand_placed hk hx hb hp).trans ?_) he, hrep,
    hword rfl, hmem, hcores, congrArg (fun l => (tget Quad.reset l quad).array) hquads⟩
  rw [hrep.1]
  rfl

end Sys2Proof.Machine

/-! O52: a step of PMAC in every bank and lane (R277). -/

namespace Sys2Proof.Machine

/-- R277: the partial sum of a lane of an entry, its banks and lanes numbered together. -/
def laneKey (n k : Nat) : Nat := (k / 16 * 4 + n) * 16 + k % 16

theorem laneKey_injective {n k j : Nat} (h : laneKey n k = laneKey n j) : k = j := by
  unfold laneKey at h
  omega

theorem laneKey_at {bank n lane : Nat} (hl : lane < 16) : laneKey n (bank * 16 + lane) = (bank * 4 + n) * 16 + lane := by
  unfold laneKey
  omega

theorem laneKey_ne {n m bank lane : Nat} (hn : n < 4) (hm : m < 4) (hl : lane < 16) (h : m ≠ n) (k : Nat) : (bank * 4 + m) * 16 + lane ≠ laneKey n k := by
  unfold laneKey
  omega

/-- R277: what a lane of a step gives, from the partial sums and the entries of BX before the step. -/
def laneResult (s : State) (o : Op) (a : Nat) (mode : RMode) (t : BankStep) (b : BankMode) (k : Nat) : Nat × Flags :=
  roundTo 0 mode (fmaVal mode
    (decodeFloat 1 (natOfBytes ((List.range 2).map (fun i => readVa s o.id (dieOf o.seq) o.asid 2 (a + 256 * (k / 16) + 32 * t.j + 2 * (k % 16) + i)))))
    (decodeFloat 1 (tget 0 b.bx (16 * t.e + k % 16)).toNat) (decodeFloat 0 (tget 0 b.bacc (laneKey t.n k)).toNat))

/-- What the lanes below a number leave of the partial sums and the flags. -/
structure LanesDone (s : State) (o : Op) (a : Nat) (mode : RMode) (t : BankStep) (b : BankMode) (fl : Flags) (count : Nat) (x : BankMode × Flags) : Prop where
  rest : x.1 = { b with bacc := x.1.bacc }
  done : ∀ k < count, tget 0 x.1.bacc (laneKey t.n k) = BitVec.ofNat 32 (laneResult s o a mode t b k).1
  others : ∀ key, (∀ k < count, key ≠ laneKey t.n k) → tget 0 x.1.bacc key = tget 0 b.bacc key
  flags : ∀ i, x.2.getLsbD i = true ↔ fl.getLsbD i = true ∨ ∃ k < count, (laneResult s o a mode t b k).2.getLsbD i = true

theorem lanesDone_foldl (s : State) (o : Op) (a : Nat) (mode : RMode) (t : BankStep) (b : BankMode) (fl : Flags) (count : Nat) :
    LanesDone s o a mode t b fl count ((List.range count).foldl (macLane s o a mode t) (b, fl)) := by
  induction count with
  | zero => exact ⟨rfl, fun _ h => absurd h (Nat.not_lt_zero _), fun _ _ => rfl, fun i => by simp⟩
  | succ count ih =>
    rw [List.range_succ, List.foldl_append, List.foldl_cons, List.foldl_nil]
    generalize (List.range count).foldl (macLane s o a mode t) (b, fl) = x at ih
    obtain ⟨hmode, hdone, hothers, hflags⟩ := ih
    have hbx : x.1.bx = b.bx := by rw [hmode]
    have hacc : tget 0 x.1.bacc (laneKey t.n count) = tget 0 b.bacc (laneKey t.n count) :=
      hothers _ fun k hk h => absurd (laneKey_injective h) (by omega)
    have hlane : macLane s o a mode t x count = 
        ({ x.1 with bacc := sput 0 x.1.bacc (laneKey t.n count) (BitVec.ofNat 32 (laneResult s o a mode t b count).1) },
          x.2 ||| (laneResult s o a mode t b count).2) := by
      rw [laneResult, ← hacc, ← hbx]
      rfl
    rw [hlane]
    refine ⟨?_, fun k hk => ?_, fun key hkey => ?_, fun i => ?_⟩
    · conv_lhs => rw [hmode]
    · rw [tget_sput]
      by_cases h : k = count
      · rw [h, if_pos rfl]
      · rw [if_neg (fun e => h (laneKey_injective e)), hdone k (by omega)]
    · rw [tget_sput, if_neg (hkey count (Nat.lt_succ_self count)), hothers key fun k hk => hkey k (by omega)]
    · rw [BitVec.getLsbD_or, Bool.or_eq_true, hflags, or_assoc]
      simp only [Nat.lt_succ_iff_lt_or_eq, or_and_right, exists_or, exists_eq_left]

theorem natOfBytes_pair (f : Nat → Byte) : natOfBytes ((List.range 2).map f) = (f 0).toNat + 256 * (f 1).toNat := by
  simp [natOfBytes, List.range_succ]

/-- R277: a step of PMAC, in every bank and lane. -/
theorem macStep_lanes (s : State) (o : Op) (base : Nat) (mode : RMode) (b : BankMode) (fl : Flags) (w : Nat) :
    LanesDone s o (base + b.off.toNat + 262144 * (bankStep w).g) mode (bankStep w) b fl 256 (macStep s o base mode (b, fl) w) :=
  lanesDone_foldl ..

theorem laneResult_at (s : State) (o : Op) (a : Nat) (mode : RMode) (t : BankStep) (b : BankMode) {bank lane : Nat} (hl : lane < 16) :
    let byte := fun (i : Nat) => (readVa s o.id (dieOf o.seq) o.asid 2 (a + 256 * bank + 32 * t.j + 2 * lane + i)).toNat
    laneResult s o a mode t b (bank * 16 + lane) = roundTo 0 mode (fmaVal mode (decodeFloat 1 (byte 0 + 256 * byte 1))
      (decodeFloat 1 (tget 0 b.bx (16 * t.e + lane)).toNat) (decodeFloat 0 (tget 0 b.bacc ((bank * 4 + t.n) * 16 + lane)).toNat)) := by
  have hbank : (bank * 16 + lane) / 16 = bank := by omega
  have hlane : (bank * 16 + lane) % 16 = lane := by omega
  dsimp only
  rw [laneResult, laneKey_at hl, natOfBytes_pair, hbank, hlane]

/-- R277: the lanes of a step, by bank and lane. -/
theorem exists_lane {p : Nat → Prop} : (∃ k < 256, p k) ↔ ∃ bank lane, bank < 16 ∧ lane < 16 ∧ p (bank * 16 + lane) := by
  constructor
  · rintro ⟨k, hk, hp⟩
    exact ⟨k / 16, k % 16, by omega, by omega, by rwa [Nat.div_add_mod']⟩
  · rintro ⟨bank, lane, hb, hl, hp⟩
    exact ⟨bank * 16 + lane, by omega, hp⟩

/-- R277: a step rounds one sum in every bank and lane of its entry, and leaves every other entry. -/
theorem macStep_steps (s : State) (o : Op) (base w : Nat) (mode : BitVec 2) (b : BankMode) (fl : Flags) :
    let g := w / 2 ^ 16 % 2 ^ 16
    let burst := w / 2 ^ 5 % 8
    let entry := w / 2 ^ 2 % 8
    let n := w % 4
    let u := macStep s o base mode (b, fl) w
    let key := fun (bank n lane : Nat) => (bank * 4 + n) * 16 + lane
    let word := fun (bank lane : Nat) =>
      let a := base + b.off.toNat + 262144 * g + 256 * bank + 32 * burst + 2 * lane
      let byte := fun (i : Nat) => (readVa s o.id (dieOf o.seq) o.asid 2 (a + i)).toNat
      byte 0 + 256 * byte 1
    let result := fun (bank lane : Nat) => roundTo 0 mode (fmaVal mode (decodeFloat 1 (word bank lane)) (decodeFloat 1 (tget 0 b.bx (16 * entry + lane)).toNat)
      (decodeFloat 0 (tget 0 b.bacc (key bank n lane)).toNat))
    u.1 = { b with bacc := u.1.bacc } ∧
    (∀ bank lane, bank < 16 → lane < 16 → tget 0 u.1.bacc (key bank n lane) = BitVec.ofNat 32 (result bank lane).1 ∧
      ∀ m < 4, m ≠ n → tget 0 u.1.bacc (key bank m lane) = tget 0 b.bacc (key bank m lane)) ∧
    ∀ i, u.2.getLsbD i = true ↔ fl.getLsbD i = true ∨ ∃ bank lane, bank < 16 ∧ lane < 16 ∧ (result bank lane).2.getLsbD i = true := by
  intro g burst entry n u key word result
  obtain ⟨hrest, hdone, hothers, hflags⟩ := macStep_lanes s o base mode b fl w
  have hresult : ∀ bank lane, lane < 16 → laneResult s o (base + b.off.toNat + 262144 * (bankStep w).g) mode (bankStep w) b (bank * 16 + lane) =
      result bank lane := fun bank lane hl => laneResult_at s o _ mode (bankStep w) b hl
  have hn : (bankStep w).n < 4 := Nat.mod_lt w (by decide)
  refine ⟨hrest, fun bank lane hb hl => ⟨?_, fun m hm hne => ?_⟩, fun i => ?_⟩
  · rw [← hresult bank lane hl, ← hdone _ (by omega), laneKey_at hl]
    rfl
  · exact hothers _ fun k _ => laneKey_ne hn hm hl hne k
  · rw [hflags, exists_lane]
    refine or_congr_right (exists_congr fun bank => exists_congr fun lane => and_congr_right fun _ => and_congr_right fun hl => ?_)
    rw [hresult bank lane hl]

end Sys2Proof.Machine

/-! O52: the answers of walks (R184, R262). -/

namespace Sys2Proof.Machine

/-- R262: the answer of a walk stands in the die's caches, and the walk is asked for no more. -/
theorem walkAnswer_enters (s : State) (die asid vpn : Nat) (r : WalkResult) : let u := walkAnswer s die asid vpn r
    tlbFind u die asid (vpn * 65536) = some r ∧ (asid, vpn) ∉ tget [] u.walks die ∧ u.mem = s.mem ∧ u.seqs = s.seqs ∧ u.ops = s.ops := by
  have htlb : tget [] (walkAnswer s die asid vpn r).tlb die =
      (tget [] s.tlb die).filter (fun e => e.asid != asid || e.vpn != vpn) ++ [{ asid := asid, vpn := vpn, result := r }] := tget_tput_same ..
  have hwalks : tget [] (walkAnswer s die asid vpn r).walks die = (tget [] s.walks die).filter (fun x => x != (asid, vpn)) := tget_tput_same ..
  have hnone : ((tget [] s.tlb die).filter (fun e => e.asid != asid || e.vpn != vpn)).find? (fun e => e.asid == asid && e.vpn == vpn) = none := by
    rw [List.find?_eq_none]
    intro e he
    have hne := (List.mem_filter.mp he).2
    intro heq
    rw [Bool.and_eq_true, beq_iff_eq, beq_iff_eq] at heq
    simp [heq] at hne
  refine ⟨?_, ?_, rfl, rfl, rfl⟩
  · rw [tlbFind, htlb, Nat.mul_div_cancel _ (by decide), List.find?_append, hnone]
    simp
  · rw [hwalks]
    simp

/-- R184, R262: a walk that ends with an answer of this package. -/
theorem exec_walkComplete {s : State} {die asid vpn : Nat} (h : (asid, vpn) ∈ tget [] s.walks die) :
    ((asid, vpn) ∈ s.badTables → exec (.translationWalkComplete die asid vpn) s = .next (walkAnswer s die asid vpn .uncorr)) ∧
    ((asid, vpn) ∉ s.badTables →
      (∀ p, pageFor s.pages asid (vpn * 65536) = some p → (∀ d l b, p.target ≠ .remote d l b) →
        exec (.translationWalkComplete die asid vpn) s = .next (walkAnswer s die asid vpn (.page p))) ∧
      (pageFor s.pages asid (vpn * 65536) = none → exec (.translationWalkComplete die asid vpn) s = .next (walkAnswer s die asid vpn .unmapped))) := by
  have step : exec (.translationWalkComplete die asid vpn) s = .next (walkCompletes s die asid vpn) := rfl
  have hasked : (!(tget [] s.walks die).contains (asid, vpn)) = false := by simpa using h
  rw [step, walkCompletes, hasked]
  refine ⟨fun hbad => ?_, fun hgood => ⟨fun p hpage hhere => ?_, fun hpage => ?_⟩⟩
  · simp [hbad]
  · simp only [List.contains_eq_mem, hgood, hpage, decide_false, Bool.false_eq_true, if_false]
  · simp [hgood, hpage]

end Sys2Proof.Machine

/-! O52: the BANK commands (R274-R280). -/

namespace Sys2Proof.Machine

section
variable {s : State} {o : Op} (hm : mayAct s o)
include hm

/-- R274: the command at the head of its sequencer's queue. -/
theorem exec_bankCommandRun (hhead : (bankQueue s o.seq).head? = some o) (hq : o.phase = .queued) (hp : mayPerform s o = true) {c : BankCmd}
    (hk : o.kind = .bank c) {u : State} (hu : runBank s o c = u) (he : (seqAt u o.seq).endPending = false) :
    exec (.bankCommandRun o.seq) s = .next u := by
  have step : exec (.bankCommandRun o.seq) s = .next (runBankHead s o.seq) := rfl
  have hrun : runBankHead s o.seq = onOp s o.id (mayMove s) (fun s o => runBank s o c) := by
    rw [runBankHead, hhead]
    dsimp only
    rw [hk]
  rw [step, hrun, onOp_acts hm (mayMove_acts hm hq hp) (by rw [hu]; exact he), hu]

/-- R280: a command that fails is reported by the BANK unit, with the mode as it was. -/
theorem failBank_reports (c : BankCmd) (cause word : Nat) (hu : (seqAt s o.seq).unwind = none) : let u := failBank s o c cause word
    reported s u o cause 6 0 0 ∧ (seqAt u o.seq).bank = (seqAt s o.seq).bank ∧ u.mem = s.mem ∧ (seqAt u o.seq).endPending = false := by
  obtain ⟨hr, -, hmem, hend⟩ := failOp_reports cause 6 0 (BitVec.ofNat 64 (bankOpcode c * 2 ^ 32 + word)) 0 hm.1 hm.2.2 hu
  obtain ⟨r, -, hstream⟩ := failOp_stream cause 6 0 (BitVec.ofNat 64 (bankOpcode c * 2 ^ 32 + word)) 0 hm.2.2 hu
  exact ⟨hr, (congrArg Seq.bank hstream).trans rfl, hmem, hend⟩

/-- The end of a command that has changed its strand's mode, and of the rest of its strand nothing. -/
theorem opDone_bank {t : State} {m : Option BankMode} {p : Op} (hi : p.id = o.id) (hs : p.seq = o.seq)
    (ht : t.seqs = (setSeq s o.seq { seqAt s o.seq with bank := m }).seqs) (hf : ∀ f ∈ t.forwards, f.op ≠ o.id) : let u := opDone t p
    completes s u o p.flags ∧ (seqAt u o.seq).bank = m ∧ u.mem = t.mem ∧ (seqAt u o.seq).regs = (seqAt s o.seq).regs ∧ u.cores = t.cores ∧
      (seqAt u o.seq).endPending = false := by
  have hown : seqAt t o.seq = { seqAt s o.seq with bank := m } := (congrArg (fun l => tget Seq.reset l o.seq) ht).trans (seqAt_setSeq_same ..)
  have hothers : ∀ q, q ≠ o.seq → seqAt t q = seqAt s q := fun q hq =>
    (congrArg (fun l => tget Seq.reset l q) ht).trans (seqAt_setSeq_ne s { seqAt s o.seq with bank := m } hq)
  have he : (seqAt t o.seq).endPending = false := by rw [hown]; exact hm.2.2
  obtain ⟨hdone, hop, hcstat, hpc, hpreds, hloops, hsame⟩ := opDone_completes (s := t) (t := t) (o := o) rfl rfl hi hs he hf
  obtain ⟨l, hstream⟩ := seqAt_completeOp t p
  obtain ⟨km, kc, -, -, -⟩ := completeOp_keeps t p
  rw [hs, hown] at hstream
  rw [hown] at hcstat hpc hpreds hloops
  dsimp only
  rw [hdone, hstream]
  exact ⟨⟨hop, hcstat, hpc, hpreds, hloops, fun q hq => (hsame q hq).trans (hothers q hq)⟩, rfl, km, rfl, kc, hm.2.2⟩

end

/-- R274: the mode that a handle names. -/
theorem bankNamed_eq {s : State} {q : Nat} {h : Word} :
    (∀ b, (seqAt s q).bank = some b → b.handle = h → bankNamed s q h = some b) ∧
    ((∀ b, (seqAt s q).bank = some b → b.handle ≠ h) → bankNamed s q h = none) := by
  unfold bankNamed
  cases hb : (seqAt s q).bank with
  | none => simp
  | some b => exact ⟨fun _ hb hh => by cases hb; simp [hh], fun hne => by simp [hne b rfl]⟩

/-! PABM (R275). -/

/-- R275: why PABM fails with BANK_MODE. -/
theorem runPabm_fails {s : State} {o : Op} {h : Word} {row : Row} (hbad : (seqAt s o.seq).bank.isSome = true ∨
    remotePage s o.asid ((handleEntry s o.asid h).base + (rowField row 0 64).toNat) = true) : runPabm s o h row = failBank s o (.pabm h row) 0x3C 0 :=
  if_pos (by rcases hbad with hbad | hbad <;> simp [hbad])

/-- R275: the mode that PABM enters. -/
def pabmMode (s : State) (o : Op) (h : Word) (row : Row) : BankMode :=
  { die := dieOf o.seq, channel := channelOf ((handleEntry s o.asid h).base + (rowField row 0 64).toNat), handle := h,
    off := BitVec.ofNat 64 (rowField row 0 64).toNat, bx := [], bacc := [] }

theorem runPabm_enters {s : State} {o : Op} {h : Word} {row : Row} (hb : (seqAt s o.seq).bank = none)
    (hpage : remotePage s o.asid ((handleEntry s o.asid h).base + (rowField row 0 64).toNat) = false) (hc : handleCurrent s o.asid h = true)
    (htier : (handleEntry s o.asid h).tier = 0) (hdie : (handleEntry s o.asid h).die = dieOf o.seq) (hal : (rowField row 0 64).toNat % 4096 = 0)
    (hsize : (rowField row 0 64).toNat + 4096 ≤ (handleEntry s o.asid h).size)
    (hbusy : channelBusy s o (dieOf o.seq) (channelOf ((handleEntry s o.asid h).base + (rowField row 0 64).toNat)) = false) :
    runPabm s o h row = opDone (setSeq s o.seq { seqAt s o.seq with bank := some (pabmMode s o h row) }) { o with phase := .performed } := by
  have hgate : (!handleCurrent s o.asid h || (handleEntry s o.asid h).tier != 0 || (handleEntry s o.asid h).die != dieOf o.seq ||
      (seqAt s o.seq).bank.isSome || remotePage s o.asid ((handleEntry s o.asid h).base + (rowField row 0 64).toNat)) = false := by
    simp [hb, hpage, hc, htier, hdie]
  have hrange : ¬ ((rowField row 0 64).toNat % 4096 ≠ 0 ∨ (handleEntry s o.asid h).size < (rowField row 0 64).toNat + 4096) := by omega
  simp only [runPabm, hgate, hrange, hbusy, Bool.false_eq_true, if_false]
  rfl

/-! PEXIT (R279). -/

/-- What writes performed at their homes, one after another, leave. -/
theorem foldl_performForward (fs : List Forward) (s : State) : let u := fs.foldl performForward s
    u.mem = fs.foldl (fun m f => memPutCells m f.cells) s.mem ∧ u.seqs = s.seqs ∧ u.cores = s.cores ∧ u.dies = s.dies ∧
      ∀ f ∈ u.forwards, f ∈ s.forwards := by
  induction fs generalizing s with
  | nil => exact ⟨rfl, rfl, rfl, rfl, fun _ h => h⟩
  | cons g fs ih =>
    obtain ⟨hmem, hforwards, hseqs, -, hcores⟩ := performForward_leaves s g
    have hdies : (performForward s g).dies = s.dies := by
      unfold performForward
      dsimp only
      split <;> rfl
    obtain ⟨im, is, ic, id, hf⟩ := ih (performForward s g)
    refine ⟨?_, is.trans hseqs, ic.trans hcores, id.trans hdies, fun f h => ?_⟩
    · rw [hmem] at im
      exact im
    · have hin := hf f h
      rw [hforwards] at hin
      exact List.mem_of_mem_filter hin

/-- R275: what the writes that waited for a pseudo-channel leave when no trace record waits for them. -/
theorem landWaiting_lands {s : State} (hdue : ∀ d ∈ s.dies, d.2.trace.due = []) : let u := landWaiting s
    u.mem = (s.forwards.filter (fun f => f.die == noDie && !forwardHeld s f)).foldl (fun m f => memPutCells m f.cells) s.mem ∧
      u.seqs = s.seqs ∧ u.cores = s.cores ∧ ∀ f ∈ u.forwards, f ∈ s.forwards := by
  obtain ⟨hmem, hseqs, hcores, hdies, hf⟩ := foldl_performForward (s.forwards.filter (fun f => f.die == noDie && !forwardHeld s f)) s
  have hnone : ∀ (l : List (Nat × Die)) (t : State), (∀ d ∈ l, d.2.trace.due = []) →
      l.foldl (fun s d => if d.2.trace.due.isEmpty then s else writeDue s d.1) t = t := by
    intro l
    induction l with
    | nil => exact fun _ _ => rfl
    | cons d l ih =>
      intro t h
      rw [List.foldl_cons, h d List.mem_cons_self]
      exact ih t fun e he => h e (List.mem_cons_of_mem d he)
  dsimp only [landWaiting]
  rw [hdies, hnone _ _ hdue]
  exact ⟨hmem, hseqs, hcores, hf⟩

/-! PBCAST and PREAD (R276, R278). -/

/-- A table after keys have been set, one after another. -/
theorem tget_foldl_sput {n : Nat} (f : Nat → BitVec n) (l : List Nat) (t : Sparse (BitVec n)) {j : Nat} (h : j ∈ l) :
    tget 0 (l.foldl (fun t k => sput 0 t k (f k)) t) j = f j := by
  induction l using List.reverseRecOn with
  | nil => cases h
  | append_singleton l k ih =>
    rw [List.foldl_append, List.foldl_cons, List.foldl_nil, tget_sput]
    by_cases hk : j = k
    · rw [if_pos hk, hk]
    · rw [if_neg hk]
      exact ih (by simpa [hk] using h)

theorem loadBx_bx (b : BankMode) (row : Row) {j : Nat} (h : j < 128) : tget 0 (loadBx b row).bx j = BitVec.ofNat 16 (elemAt 1 row j) :=
  tget_foldl_sput (fun k => BitVec.ofNat 16 (elemAt 1 row k)) _ _ (List.mem_range.mpr h)

theorem elemAt_partialSums (b : BankMode) (r : Nat) {j : Nat} (h : j < 64) :
    elemAt 0 (partialSums b r) j = (tget 0 b.bacc ((r % 16 * 4 + j / 16) * 16 + j % 16)).toNat := by
  rw [partialSums, elemAt_rowOf 0 _ j h]
  exact Nat.mod_eq_of_lt (BitVec.isLt _)

end Sys2Proof.Machine

/-! O52: PMAC, its list and its granules (R277). -/

namespace Sys2Proof.Machine

/-! The list. -/

theorem stepWords_length {row : Row} (h : rowWord row 0 < 64) : (stepWords row).length = rowWord row 0 := by
  simp [stepWords, Nat.mod_eq_of_lt h]

theorem stepWords_getD {row : Row} (h : rowWord row 0 < 64) {i : Nat} (hi : i < rowWord row 0) : (stepWords row).getD i 0 = rowWord row (i + 1) := by
  simp [stepWords, Nat.mod_eq_of_lt h, hi]

/-- R277: why a step of a list is refused. -/
theorem stepRefusal_word (off size : Nat) (row : Row) (k : Nat) : stepRefusal off size (rowWord row k) =
    if rowWord row k / 2 ^ 8 % 2 ^ 8 ≠ 0 then some 0x3E else if size < off + 262144 * (rowWord row k / 2 ^ 16) + 4096 then some 0x3D else none := by
  have hlt : rowWord row k < 2 ^ 32 := BitVec.isLt _
  have hg : (bankStep (rowWord row k)).g = rowWord row k / 2 ^ 16 := Nat.mod_eq_of_lt (by omega)
  rw [stepRefusal, hg]

theorem stepRefusal_none {off size : Nat} {row : Row} {k : Nat} : stepRefusal off size (rowWord row k) = none ↔
    ¬ rowWord row k / 2 ^ 8 % 2 ^ 8 ≠ 0 ∧ ¬ size < off + 262144 * (rowWord row k / 2 ^ 16) + 4096 := by
  rw [stepRefusal_word]
  by_cases hr : rowWord row k / 2 ^ 8 % 2 ^ 8 ≠ 0
  · rw [if_pos hr]
    exact ⟨nofun, fun h => absurd hr h.1⟩
  · rw [if_neg hr]
    by_cases hb : size < off + 262144 * (rowWord row k / 2 ^ 16) + 4096
    · rw [if_pos hb]
      exact ⟨nofun, fun h => absurd hb h.2⟩
    · rw [if_neg hb]
      exact ⟨fun _ => ⟨hr, hb⟩, fun _ => rfl⟩

/-- R277: a count of steps that is no count. -/
theorem listRefusal_count (off size : Nat) {row : Row} (h : rowWord row 0 = 0 ∨ 64 ≤ rowWord row 0) : listRefusal off size row = some (0x3E, 0) :=
  if_pos (by omega)

theorem listRefusal_eq (off size : Nat) {row : Row} (h0 : 0 < rowWord row 0) (h : rowWord row 0 < 64) : listRefusal off size row =
    (List.range (rowWord row 0)).findSome? (fun i => (stepRefusal off size ((stepWords row).getD i 0)).map (fun c => (c, i + 1))) := by
  rw [← stepWords_length h]
  exact if_neg (by omega)

/-- R277: the first step that is refused. -/
theorem listRefusal_first {off size : Nat} {row : Row} (h : rowWord row 0 < 64) {i c : Nat} (hi : i < rowWord row 0)
    (hbefore : ∀ j < i, stepRefusal off size (rowWord row (j + 1)) = none) (hc : stepRefusal off size (rowWord row (i + 1)) = some c) :
    listRefusal off size row = some (c, i + 1) := by
  rw [listRefusal_eq off size (by omega) h, List.findSome?_eq_some_iff]
  refine ⟨List.range i, i, List.range' (i + 1) (rowWord row 0 - (i + 1)), ?_, ?_, fun j hj => ?_⟩
  · have happend := List.range'_append_1 (s := 0) (m := i) (n := rowWord row 0 - (i + 1) + 1)
    rw [Nat.zero_add, show i + (rowWord row 0 - (i + 1) + 1) = rowWord row 0 by omega] at happend
    rw [List.range_eq_range', List.range_eq_range', ← List.range'_succ, happend]
  · rw [stepWords_getD h hi, hc]
    rfl
  · have hji : j < i := List.mem_range.mp hj
    rw [stepWords_getD h (by omega), hbefore j hji]
    rfl

theorem listRefusal_good {off size : Nat} {row : Row} (h0 : 0 < rowWord row 0) (h : rowWord row 0 < 64)
    (hgood : ∀ i < rowWord row 0, stepRefusal off size (rowWord row (i + 1)) = none) : listRefusal off size row = none := by
  rw [listRefusal_eq off size h0 h, List.findSome?_eq_none_iff]
  intro i hi
  have hlt : i < rowWord row 0 := List.mem_range.mp hi
  rw [stepWords_getD h hlt, hgood i hlt]
  rfl

/-! The granules. -/

/-- R277: what the granule of a step reaches; one on another package is lost (log 105). -/
def granuleReach (s : State) (o : Op) (base off w : Nat) : Reach :=
  if (remoteDests s (dieOf o.seq) o.asid false (granuleAddrs base off w)).isEmpty then reachPages s (dieOf o.seq) o.asid false (granuleAddrs base off w)
  else .lost

theorem granuleReach_away {s : State} {o : Op} {base off w : Nat} (h : remoteDests s (dieOf o.seq) o.asid false (granuleAddrs base off w) ≠ []) :
    granuleReach s o base off w = .lost :=
  if_neg (by simpa using h)

theorem granuleReach_here {s : State} {o : Op} {base off w : Nat} (h : remoteDests s (dieOf o.seq) o.asid false (granuleAddrs base off w) = []) :
    granuleReach s o base off w = reachPages s (dieOf o.seq) o.asid false (granuleAddrs base off w) :=
  if_pos (by simp [h])

/-- The walks that a reach waits for. -/
def walksOf (r : Reach) : List Nat :=
  match r with
  | .wait v => v
  | _ => []

/-- R277: what the granule of step i of a list reaches. -/
def stepReach (s : State) (o : Op) (h : Word) (row : Row) (b : BankMode) (i : Nat) : Reach :=
  granuleReach s o (handleEntry s o.asid h).base b.off.toNat ((stepWords row).getD i 0)

/-- The walks that the granules of a list wait for. -/
def pmacWalks (s : State) (o : Op) (h : Word) (row : Row) (b : BankMode) : List Nat :=
  (List.range (stepWords row).length).flatMap (fun i => walksOf (stepReach s o h row b i))

/-- R277: the mode and the flags after the steps of a list. -/
def pmacResult (s : State) (o : Op) (h : Word) (row : Row) (mode : RMode) (b : BankMode) : BankMode × Flags :=
  (stepWords row).foldl (macStep s o (handleEntry s o.asid h).base mode) (b, 0)

/-- R257, R277: the state in which a list has read its granules. -/
def pmacRead (s : State) (o : Op) (h : Word) (row : Row) (b : BankMode) : State :=
  passUncached s (placesOf s (dieOf o.seq) o.asid false ((stepWords row).flatMap (granuleAddrs (handleEntry s o.asid h).base b.off.toNat)))

section
variable {s : State} {o : Op} {h : Word} {row : Row} {mode : RMode} {b : BankMode}

theorem runPmac_refused {c w : Nat} (hlist : listRefusal b.off.toNat (handleEntry s o.asid h).size row = some (c, w)) :
    runPmac s o h row mode b = failBank s o (.pmac h row mode) c w := by
  unfold runPmac
  simp only [hlist]

variable (hlist : listRefusal b.off.toNat (handleEntry s o.asid h).size row = none)
include hlist

/-- R277: what a good list does with its granules. -/
theorem runPmac_eq : runPmac s o h row mode b =
    if !(pmacWalks s o h row b).isEmpty then requestWalks s (dieOf o.seq) o.asid (distinct (pmacWalks s o h row b))
    else (match (List.range (stepWords row).length).find? (fun i => stepReach s o h row b i == .lost || stepReach s o h row b i == .fenced),
        (List.range (stepWords row).length).find? (fun i => stepReach s o h row b i == .damaged) with
      | some i, _ => failBank s o (.pmac h row mode) 0x30 (i + 1)
      | none, some i => failBank s o (.pmac h row mode) 0x31 (i + 1)
      | none, none => opDone (setSeq (pmacRead s o h row b) o.seq { seqAt (pmacRead s o h row b) o.seq with bank := some (pmacResult s o h row mode b).1 })
        { o with phase := .performed, flags := (pmacResult s o h row mode b).2 }) := by
  unfold runPmac pmacWalks stepReach granuleReach pmacRead pmacResult
  simp only [hlist]
  generalize remoteDests s (dieOf o.seq) o.asid false = dests
  generalize reachPages s (dieOf o.seq) o.asid false = reaches
  rfl

/-- R277: a missing walk is asked for. -/
theorem runPmac_walks {i : Nat} {v : List Nat} (hi : i < (stepWords row).length) (hw : stepReach s o h row b i = .wait v) (hv : v ≠ []) :
    runPmac s o h row mode b = requestWalks s (dieOf o.seq) o.asid (distinct (pmacWalks s o h row b)) ∧ ∀ n ∈ v, n ∈ pmacWalks s o h row b := by
  have hin : ∀ n ∈ v, n ∈ pmacWalks s o h row b := fun n hn => List.mem_flatMap.mpr ⟨i, List.mem_range.mpr hi, by rw [hw]; exact hn⟩
  obtain ⟨n, hn⟩ := List.exists_mem_of_ne_nil v hv
  have hsome : (!(pmacWalks s o h row b).isEmpty) = true := by
    simp [List.ne_nil_of_mem (hin n hn)]
  exact ⟨by rw [runPmac_eq hlist, hsome]; rfl, hin⟩

omit hlist in
theorem pmacWalks_nil (hnone : ∀ i < (stepWords row).length, ∀ v, stepReach s o h row b i ≠ .wait v) : pmacWalks s o h row b = [] := by
  refine List.flatMap_eq_nil_iff.mpr fun i hi => ?_
  have hne := hnone i (List.mem_range.mp hi)
  cases hr : stepReach s o h row b i with
  | wait v => exact absurd hr (hne v)
  | _ => rfl

variable (hnone : ∀ i < (stepWords row).length, ∀ v, stepReach s o h row b i ≠ .wait v)
include hnone

/-- R277: a granule that cannot be reached. -/
theorem runPmac_lost {i : Nat} (hi : i < (stepWords row).length) (hw : stepReach s o h row b i = .lost ∨ stepReach s o h row b i = .fenced) :
    ∃ w, runPmac s o h row mode b = failBank s o (.pmac h row mode) 0x30 w := by
  have hsome : ((List.range (stepWords row).length).find? (fun i => stepReach s o h row b i == .lost || stepReach s o h row b i == .fenced)).isSome = true :=
    List.find?_isSome.mpr ⟨i, List.mem_range.mpr hi, by rcases hw with hw | hw <;> rw [hw] <;> rfl⟩
  obtain ⟨k, hk⟩ := Option.isSome_iff_exists.mp hsome
  exact ⟨k + 1, by rw [runPmac_eq hlist, pmacWalks_nil hnone, hk]; rfl⟩

omit hlist hnone in
theorem find_lost_none (hreach : ∀ i < (stepWords row).length, stepReach s o h row b i ≠ .lost ∧ stepReach s o h row b i ≠ .fenced) :
    (List.range (stepWords row).length).find? (fun i => stepReach s o h row b i == .lost || stepReach s o h row b i == .fenced) = none := by
  refine List.find?_eq_none.mpr fun i hi => ?_
  obtain ⟨hl, hf⟩ := hreach i (List.mem_range.mp hi)
  simp [hl, hf]

variable (hreach : ∀ i < (stepWords row).length, stepReach s o h row b i ≠ .lost ∧ stepReach s o h row b i ≠ .fenced)
include hreach

/-- R277: a granule with an uncorrectable error. -/
theorem runPmac_damaged {i : Nat} (hi : i < (stepWords row).length) (hw : stepReach s o h row b i = .damaged) :
    ∃ w, runPmac s o h row mode b = failBank s o (.pmac h row mode) 0x31 w := by
  have hsome : ((List.range (stepWords row).length).find? (fun i => stepReach s o h row b i == .damaged)).isSome = true :=
    List.find?_isSome.mpr ⟨i, List.mem_range.mpr hi, by rw [hw]; rfl⟩
  obtain ⟨k, hk⟩ := Option.isSome_iff_exists.mp hsome
  exact ⟨k + 1, by rw [runPmac_eq hlist, pmacWalks_nil hnone, find_lost_none hreach, hk]; rfl⟩

/-- R277: a list whose granules are all read. -/
theorem runPmac_done (hok : ∀ i < (stepWords row).length, stepReach s o h row b i ≠ .damaged) : runPmac s o h row mode b =
    opDone (setSeq (pmacRead s o h row b) o.seq { seqAt (pmacRead s o h row b) o.seq with bank := some (pmacResult s o h row mode b).1 })
      { o with phase := .performed, flags := (pmacResult s o h row mode b).2 } := by
  have hdamaged : (List.range (stepWords row).length).find? (fun i => stepReach s o h row b i == .damaged) = none := by
    refine List.find?_eq_none.mpr fun i hi => ?_
    simp [hok i (List.mem_range.mp hi)]
  rw [runPmac_eq hlist, pmacWalks_nil hnone, find_lost_none hreach, hdamaged]
  rfl

end

/-- R262: the walks that are asked for. -/
theorem requestWalks_asked (s : State) (die asid : Nat) {vpns : List Nat} {n : Nat} (h : n ∈ vpns) :
    (asid, n) ∈ tget [] (requestWalks s die asid vpns).walks die := by
  have hwalks : tget [] (requestWalks s die asid vpns).walks die = tget [] s.walks die ++
      (vpns.map (fun v => (asid, v))).filter (fun x => !(tget [] s.walks die).contains x) := tget_tput_same ..
  rw [hwalks, List.mem_append]
  by_cases hin : (asid, n) ∈ tget [] s.walks die
  · exact .inl hin
  · exact .inr (List.mem_filter.mpr ⟨List.mem_map.mpr ⟨n, h, rfl⟩, by simpa using hin⟩)

end Sys2Proof.Machine

/-! O52: what the command at the head of a bank command queue leaves (R274-R280). -/

namespace Sys2Proof.Machine

/-- R274: a command at the head of its sequencer's queue that may run. -/
structure BankTurn (s : State) (o : Op) (c : BankCmd) : Prop where
  head : (bankQueue s o.seq).head? = some o
  acts : mayAct s o
  queued : o.phase = .queued
  performs : mayPerform s o = true
  forwards : ∀ f ∈ s.forwards, f.op ≠ o.id
  kind : o.kind = .bank c

/-- R280: the command is reported with a cause, the mode as it was. -/
def BankFails (s : State) (o : Op) (cause : Nat) : Prop :=
  (seqAt s o.seq).unwind = none → ∃ u, exec (.bankCommandRun o.seq) s = .next u ∧ reported s u o cause 6 0 0 ∧ (seqAt u o.seq).bank = (seqAt s o.seq).bank ∧
    u.mem = s.mem

/-- The command completes with flags and leaves a mode, and no other register of its strand, no core and no byte changes. -/
def BankLeaves (s : State) (o : Op) (fl : Flags) (m : Option BankMode) : Prop :=
  ∃ u, exec (.bankCommandRun o.seq) s = .next u ∧ completes s u o fl ∧ (seqAt u o.seq).bank = m ∧ u.mem = s.mem ∧
    (seqAt u o.seq).regs = (seqAt s o.seq).regs ∧ u.cores = s.cores

section
variable {s : State} {o : Op} {c : BankCmd} (ht : BankTurn s o c)
include ht

theorem BankTurn.runs {u : State} (hu : runBank s o c = u) (he : (seqAt u o.seq).endPending = false) : exec (.bankCommandRun o.seq) s = .next u :=
  exec_bankCommandRun ht.acts ht.head ht.queued ht.performs ht.kind hu he

theorem BankTurn.fails {cause w : Nat} (hrun : runBank s o c = failBank s o c cause w) : BankFails s o cause := fun hu => by
  obtain ⟨hr, hbank, hmem, he⟩ := failBank_reports ht.acts c cause w hu
  exact ⟨_, ht.runs hrun he, hr, hbank, hmem⟩

theorem BankTurn.leaves {t : State} {fl : Flags} {m : Option BankMode} (hrun : runBank s o c = opDone t { o with phase := .performed, flags := fl })
    (hseqs : t.seqs = (setSeq s o.seq { seqAt s o.seq with bank := m }).seqs) (hforwards : t.forwards = s.forwards) (hmem : t.mem = s.mem)
    (hcores : t.cores = s.cores) : BankLeaves s o fl m := by
  obtain ⟨hcomp, hbank, km, hregs, kc, he⟩ := opDone_bank ht.acts (p := { o with phase := .performed, flags := fl }) rfl rfl hseqs
    (by rw [hforwards]; exact ht.forwards)
  exact ⟨_, ht.runs hrun he, hcomp, hbank, km.trans hmem, hregs, kc.trans hcores⟩

end

section
variable {s : State} {o : Op}

/-! PABM (R275). -/

theorem pabm_fails {h : Word} {row : Row} (ht : BankTurn s o (.pabm h row)) (hbad : (seqAt s o.seq).bank.isSome = true ∨
    remotePage s o.asid ((handleEntry s o.asid h).base + (rowField row 0 64).toNat) = true) : BankFails s o 0x3C :=
  ht.fails (w := 0) (runPabm_fails hbad)

theorem pabm_leaves {h : Word} {row : Row} (ht : BankTurn s o (.pabm h row))
    (hrun : runPabm s o h row = opDone (setSeq s o.seq { seqAt s o.seq with bank := some (pabmMode s o h row) }) { o with phase := .performed }) :
    BankLeaves s o o.flags (some (pabmMode s o h row)) :=
  ht.leaves (t := setSeq s o.seq { seqAt s o.seq with bank := some (pabmMode s o h row) }) hrun rfl rfl rfl rfl

/-! The commands of a mode (R274). -/

/-- R274: a command whose handle names no mode of the strand. -/
theorem named_fails {c : BankCmd} {h : Word} {f : BankMode → State} (ht : BankTurn s o c) (hrun : runBank s o c = runNamed s o c h f)
    (hne : ∀ b, (seqAt s o.seq).bank = some b → b.handle ≠ h) : BankFails s o 0x3C :=
  ht.fails (w := 0) (by rw [hrun, runNamed, bankNamed_eq.2 hne])

variable {b : BankMode} {h : Word} (hb : (seqAt s o.seq).bank = some b) (hh : b.handle = h)
include hb hh

theorem runNamed_runs (c : BankCmd) (f : BankMode → State) : runNamed s o c h f = f b := by
  rw [runNamed, bankNamed_eq.1 b hb hh]

/-- R279: PEXIT leaves the mode, and what waited for it is written. -/
theorem pexit_leaves (ht : BankTurn s o (.pexit h)) (hdue : ∀ d ∈ s.dies, d.2.trace.due = []) :
    ∃ u, exec (.bankCommandRun o.seq) s = .next u ∧ completes s u o o.flags ∧ (seqAt u o.seq).bank = none ∧ (seqAt u o.seq).regs = (seqAt s o.seq).regs ∧
      u.cores = s.cores ∧ u.mem = (s.forwards.filter (fun f => f.die == noDie &&
        !forwardHeld (setSeq s o.seq { seqAt s o.seq with bank := none }) f)).foldl (fun m f => memPutCells m f.cells) s.mem := by
  have hleave : leaveBank s o.seq = landWaiting (setSeq s o.seq { seqAt s o.seq with bank := none }) := if_neg (by simp [hb])
  have hrun : runBank s o (.pexit h) = opDone (landWaiting (setSeq s o.seq { seqAt s o.seq with bank := none })) { o with phase := .performed } := by
    rw [← hleave]
    exact runNamed_runs hb hh _ _
  obtain ⟨hmem, hseqs, hcores, hforwards⟩ := landWaiting_lands (s := setSeq s o.seq { seqAt s o.seq with bank := none }) hdue
  obtain ⟨hcomp, hbank, km, hregs, kc, he⟩ := opDone_bank ht.acts (p := { o with phase := .performed }) rfl rfl hseqs
    fun f hf => ht.forwards f (hforwards f hf)
  exact ⟨_, ht.runs hrun he, hcomp, hbank, hregs, kc.trans hcores, km.trans hmem⟩

/-- R276: PBCAST loads BX. -/
theorem pbcast_leaves {row : Row} (ht : BankTurn s o (.pbcast h row)) : BankLeaves s o o.flags (some (loadBx b row)) :=
  ht.leaves (t := setSeq s o.seq { seqAt s o.seq with bank := some (loadBx b row) }) (runNamed_runs hb hh _ _) rfl rfl rfl rfl

/-- R278: PREAD writes the partial sums into its row. -/
theorem pread_reads {t r : Nat} (ht : BankTurn s o (.pread h t r)) : ∃ u, exec (.bankCommandRun o.seq) s = .next u ∧ completes s u o o.flags ∧ u.mem = s.mem ∧
    ∀ j < 64, elemAt 0 (tileRow (coreAt u (coreOf o.seq)) t r) j = (tget 0 b.bacc ((r % 16 * 4 + j / 16) * 16 + j % 16)).toNat := by
  have hrun : runBank s o (.pread h t r) = opDone (tileWrite o t s (r, fun _ => partialSums b r)) { o with phase := .performed } := runNamed_runs hb hh _ _
  have hrows := tileWrite_writesRows o t s (r, fun _ => partialSums b r)
  have hrow := tileRow_tileWrite o t s (r, fun _ => partialSums b r)
  generalize tileWrite o t s (r, fun _ => partialSums b r) = v at *
  obtain ⟨q, hq⟩ := hrows.own
  have hend : (seqAt v o.seq).endPending = false := by rw [hq]; exact ht.acts.2.2
  obtain ⟨hdone, hcomp⟩ := opDone_completes (s := v) (t := v) (o := o) (p := { o with phase := .performed }) rfl rfl rfl rfl hend
    (by rw [hrows.forwards]; exact ht.forwards)
  obtain ⟨km, kc, -, -, ke⟩ := completeOp_keeps v { o with phase := .performed }
  have hcore : coreAt (completeOp v { o with phase := .performed }) (coreOf o.seq) = coreAt v (coreOf o.seq) :=
    congrArg (fun l => tget CoreState.reset l (coreOf o.seq)) kc
  refine ⟨_, ht.runs (hrun.trans hdone) (ke.trans hend), completes_of_writesRows hrows hcomp, km.trans hrows.mem, fun j hj => ?_⟩
  rw [hcore, hrow]
  exact elemAt_partialSums b r hj

/-! PMAC (R277). -/

variable {row : Row} {mode : RMode} (ht : BankTurn s o (.pmac h row mode))
include ht

theorem pmac_refused {c w : Nat} (hlist : listRefusal b.off.toNat (handleEntry s o.asid h).size row = some (c, w)) : BankFails s o c :=
  ht.fails ((runNamed_runs hb hh _ _).trans (runPmac_refused hlist))

/-- R277: a list whose granules are all reached is applied, its steps in order. -/
theorem pmac_leaves (hlist : listRefusal b.off.toNat (handleEntry s o.asid h).size row = none)
    (hok : ∀ w ∈ stepWords row, reachPages s (dieOf o.seq) o.asid false (granuleAddrs (handleEntry s o.asid h).base b.off.toNat w) = .ok ∧
      remoteDests s (dieOf o.seq) o.asid false (granuleAddrs (handleEntry s o.asid h).base b.off.toNat w) = []) :
    BankLeaves s o (pmacResult s o h row mode b).2 (some (pmacResult s o h row mode b).1) := by
  have hreach : ∀ i < (stepWords row).length, stepReach s o h row b i = .ok := fun i hi => by
    have hmem : (stepWords row).getD i 0 ∈ stepWords row := by
      rw [List.getD_eq_getElem _ _ hi]
      exact List.getElem_mem hi
    obtain ⟨hpages, hhere⟩ := hok _ hmem
    exact (granuleReach_here hhere).trans hpages
  refine ht.leaves ((runNamed_runs hb hh _ _).trans (runPmac_done hlist (fun i hi v => ?_) (fun i hi => ?_) (fun i hi => ?_))) rfl rfl rfl rfl
  · rw [hreach i hi]; exact Reach.noConfusion
  · rw [hreach i hi]; exact ⟨Reach.noConfusion, Reach.noConfusion⟩
  · rw [hreach i hi]; exact Reach.noConfusion

end

/-- R277: a list whose count and steps are not refused. -/
def GoodList (off size : Nat) (row : Row) : Prop :=
  0 < rowWord row 0 ∧ rowWord row 0 < 64 ∧ ∀ i < rowWord row 0, ¬ rowWord row (i + 1) / 2 ^ 8 % 2 ^ 8 ≠ 0 ∧
    ¬ size < off + 262144 * (rowWord row (i + 1) / 2 ^ 16) + 4096

theorem GoodList.listRefusal {off size : Nat} {row : Row} (hg : GoodList off size row) : listRefusal off size row = none := by
  obtain ⟨h0, h, hsteps⟩ := hg
  exact listRefusal_good h0 h fun i hi => stepRefusal_none.mpr (hsteps i hi)

/-- The granule of step i of a list has a byte on another package. -/
def StepAway (s : State) (o : Op) (h : Word) (row : Row) (b : BankMode) (i : Nat) : Prop :=
  remoteDests s (dieOf o.seq) o.asid false (granuleAddrs (handleEntry s o.asid h).base b.off.toNat (rowWord row (i + 1))) ≠ []

/-- What the pages of the granule of step i of a list reach. -/
def stepPages (s : State) (o : Op) (h : Word) (row : Row) (b : BankMode) (i : Nat) : Reach :=
  reachPages s (dieOf o.seq) o.asid false (granuleAddrs (handleEntry s o.asid h).base b.off.toNat (rowWord row (i + 1)))

section
variable {s : State} {o : Op} {b : BankMode} {h : Word} {row : Row}

theorem stepReach_away (hw : rowWord row 0 < 64) {i : Nat} (hi : i < rowWord row 0) (haway : StepAway s o h row b i) : stepReach s o h row b i = .lost := by
  rw [stepReach, stepWords_getD hw hi]
  exact granuleReach_away haway

theorem stepReach_here (hw : rowWord row 0 < 64) {i : Nat} (hi : i < rowWord row 0) (hhere : ¬ StepAway s o h row b i) :
    stepReach s o h row b i = stepPages s o h row b i := by
  rw [stepReach, stepWords_getD hw hi]
  exact granuleReach_here (not_not.mp hhere)

/-- A step whose granule waits for no walk. -/
theorem stepReach_answered (hw : rowWord row 0 < 64) {i : Nat} (hi : i < rowWord row 0)
    (hnone : StepAway s o h row b i ∨ ∀ v, stepPages s o h row b i ≠ .wait v) (v : List Nat) : stepReach s o h row b i ≠ .wait v := by
  by_cases haway : StepAway s o h row b i
  · rw [stepReach_away hw hi haway]; exact Reach.noConfusion
  · rw [stepReach_here hw hi haway]; exact hnone.resolve_left haway v

variable (hb : (seqAt s o.seq).bank = some b) (hh : b.handle = h) {mode : RMode} (ht : BankTurn s o (.pmac h row mode))
  (hg : GoodList b.off.toNat (handleEntry s o.asid h).size row)
include hb hh ht hg

/-- R277, R348: a granule that cannot be reached, or that another package holds (log 105). -/
theorem pmac_lost (hnone : ∀ i < rowWord row 0, StepAway s o h row b i ∨ ∀ v, stepPages s o h row b i ≠ .wait v)
    (hlost : ∃ i < rowWord row 0, StepAway s o h row b i ∨ stepPages s o h row b i = .lost ∨ stepPages s o h row b i = .fenced) : BankFails s o 0x30 := by
  obtain ⟨i, hi, hlost⟩ := hlost
  have hw := hg.2.1
  have hlen := stepWords_length hw
  have hreach : stepReach s o h row b i = .lost ∨ stepReach s o h row b i = .fenced := by
    by_cases haway : StepAway s o h row b i
    · exact .inl (stepReach_away hw hi haway)
    · rw [stepReach_here hw hi haway]; exact hlost.resolve_left haway
  obtain ⟨w, hrun⟩ := runPmac_lost (mode := mode) hg.listRefusal (fun j hj => stepReach_answered hw (by omega) (hnone j (by omega))) (by omega) hreach
  exact ht.fails ((runNamed_runs hb hh _ _).trans hrun)

/-- R277: a granule with an uncorrectable error. -/
theorem pmac_damaged (hhere : ∀ i < rowWord row 0, ¬ StepAway s o h row b i ∧ (stepPages s o h row b i = .ok ∨ stepPages s o h row b i = .damaged))
    (hdamaged : ∃ i < rowWord row 0, stepPages s o h row b i = .damaged) : BankFails s o 0x31 := by
  obtain ⟨i, hi, hdamaged⟩ := hdamaged
  have hw := hg.2.1
  have hlen := stepWords_length hw
  have hreach : ∀ j < (stepWords row).length, stepReach s o h row b j = .ok ∨ stepReach s o h row b j = .damaged := fun j hj => by
    rw [stepReach_here hw (by omega) (hhere j (by omega)).1]
    exact (hhere j (by omega)).2
  obtain ⟨w, hrun⟩ := runPmac_damaged (mode := mode) hg.listRefusal (fun j hj v => by rcases hreach j hj with e | e <;> rw [e] <;> exact Reach.noConfusion)
    (fun j hj => by rcases hreach j hj with e | e <;> rw [e] <;> exact ⟨Reach.noConfusion, Reach.noConfusion⟩) (i := i) (by omega)
    ((stepReach_here hw hi (hhere i hi).1).trans hdamaged)
  exact ht.fails ((runNamed_runs hb hh _ _).trans hrun)

/-- R277: a missing walk of a granule is asked for. -/
theorem pmac_walks {i : Nat} {v : List Nat} (hi : i < rowWord row 0) (hhere : ¬ StepAway s o h row b i) (hwait : stepPages s o h row b i = .wait v) (hv : v ≠ []) :
    ∃ u, exec (.bankCommandRun o.seq) s = .next u ∧ u.ops = s.ops ∧ u.mem = s.mem ∧ u.seqs = s.seqs ∧ ∀ n ∈ v, (o.asid, n) ∈ tget [] u.walks (dieOf o.seq) := by
  have hw := hg.2.1
  obtain ⟨hrun, hin⟩ := runPmac_walks (mode := mode) hg.listRefusal (i := i) (by rw [stepWords_length hw]; exact hi) ((stepReach_here hw hi hhere).trans hwait) hv
  exact ⟨_, ht.runs ((runNamed_runs hb hh _ _).trans hrun) ht.acts.2.2, rfl, rfl, rfl,
    fun n hn => requestWalks_asked s (dieOf o.seq) o.asid (mem_distinct (hin n hn))⟩

end

end Sys2Proof.Machine

/-! O52: the statement. -/

namespace Sys2Proof.Machine

/-- Settles O52: the elements of a result are read off its rows, sums and products are counted in units of a power of two, a write-back at any home is
one equation (`performPlaced_eq`), a step of PMAC is an induction over its 256 lanes, and each BANK command has its own effect on the mode. -/
theorem placedBankAndWalks : Obligations.PlacedBankAndWalks := by
  unfold Obligations.PlacedBankAndWalks
  refine ⟨?elementwise, ?sums, ?exact, ?home, ?array, ?step, ?bank, ?walk⟩
  case elementwise =>
    intro fmt nr nc i m a b trb ha hb hi
    exact ⟨placedElem_at (.inl rfl) fmt nr nc m a b trb ha hb hi, placedElem_at (.inr (.inl rfl)) fmt nr nc m a b trb ha hb hi,
      placedElem_at (.inr (.inr (.inl rfl))) fmt nr nc m a b trb ha hb hi, placedElem_at (.inr (.inr (.inr rfl))) fmt nr nc m a b trb ha hb hi⟩
  case sums =>
    intro fmt nr nc n i j m a b trb ha hi A B total
    refine ⟨?_, fun hb => ?_, fun hb hj => ?_⟩
    · rw [placedResult_red ha, List.getElem?_map, List.getElem?_range hi]
      rfl
    · rw [placedResult_mv ha hb, List.getElem?_map, List.getElem?_range hi]
      rfl
    · rw [placedResult_mm ha hb]
      exact getElem?_rows _ _ n (List.getElem?_range hi) hj
  case exact =>
    intro m g l hg hl
    obtain ⟨hgrid, hsum⟩ := termSum_finiteFrom m hg hl
    exact ⟨hgrid, hsum, fun p q k e a d h he hd => unitsOf_mulVal p q k a he hd⟩
  case home =>
    intro s o hm hq hp hr hf die k op vd va vb fmt nr nc n home shipped a b trb mode hk hne hh
    refine ⟨fun hok hin hv => ?_, fun hok hin hv hreach hbank hhere => ?_,
      fun hfail hu => placedWriteback_fails hk hne hm hq hp hu (performPlaced_fails hk hfail),
      fun i hok hout hu => placedWriteback_fails hk hne hm hq hp hu (performPlaced_out hk hok hout)⟩
    · obtain ⟨hcomp, hcount, hmem, he, -⟩ := performPlaced_tiles hk hm hok hin hf hh hv
      exact ⟨_, exec_placedWriteback hk hne hm hq hp he, hcomp, hcount, hmem⟩
    · obtain ⟨hcount, hwrote, htiles, hstat, hdr, he, -⟩ := performPlaced_memory hk hm hok hin hf hh hv hr ⟨hreach, hbank, hhere⟩
      exact ⟨_, exec_placedWriteback hk hne hm hq hp he, hcount, hwrote, htiles, hstat, hdr⟩
  case array =>
    intro s quad c o hc hhead hm hq hp hr hf die k x run op vd va vb fmt nr nc n shipped a b trb mode hk
    have hlrel : o.kind ≠ .array .lrel := by rw [hk]; exact OpKind.noConfusion
    refine ⟨fun hwait => ?_, fun hx hb => ⟨fun hok hin hv => ?_, fun hok hin hv hreach hbank hhere => ?_,
      fun hfail hu => heldCommand_placedFails hk hhead hm hq hx hb hp hu (performPlaced_fails hk hfail),
      fun i hok hout hu => heldCommand_placedFails hk hhead hm hq hx hb hp hu (performPlaced_out hk hok hout)⟩⟩
    · exact ⟨s, exec_heldCommand hhead hm hq hlrel (heldCommand_waits hhead hr hwait) hm.2.2, rfl, rfl, rfl⟩
    · obtain ⟨hcomp, hcount, hmem, he, hquads⟩ := performPlaced_tiles hk hm hok hin hf (by decide) hv
      obtain ⟨u, hrun, hs, hcores, hops, humem, harray, hcommands⟩ := commandDone_placed hk hhead hm hq hx hb hp he hquads
        (fun p h => by rw [hcomp.1] at h; cases h)
      refine ⟨u, hrun, completes_of_tables hs hops hcomp, ⟨harray, hcommands, ?_⟩, humem.trans hmem⟩
      rw [coreAt, hcores]
      exact hcount
    · obtain ⟨hcount, hwrote, htiles, hstat, hdr, he, hquads⟩ := performPlaced_memory hk hm hok hin hf (by decide) hv hr ⟨hreach, hbank, hhere⟩
      obtain ⟨u, hrun, hs, hcores, hops, humem, harray, hcommands⟩ := commandDone_placed hk hhead hm hq hx hb hp he hquads hdr
      refine ⟨u, hrun, ⟨harray, hcommands, ?_⟩, ?_, ?_, ?_, ?_⟩
      · rw [coreAt, hcores]
        exact hcount
      · rw [wrote, humem]
        exact hwrote
      · rw [coreAt, hcores]
        exact htiles
      · rw [seqAt, hs]
        exact hstat
      · rw [opAt, hops]
        exact hdr
  case step => exact fun s o base w mode b fl => macStep_steps s o base w mode b fl
  case bank =>
    intro s o hhead hm hq hp hf run sq leaves fails
    have turn : ∀ {c}, o.kind = .bank c → BankTurn s o c := fun hk => ⟨hhead, hm, hq, hp, hf, hk⟩
    refine ⟨fun h row hk => ⟨fun hbad => pabm_fails (turn hk) hbad, fun hb hpage hc htier hdie hal hsize hbusy =>
        pabm_leaves (turn hk) (runPabm_enters hb hpage hc htier hdie hal hsize hbusy)⟩,
      fun h hne => ⟨fun hk => named_fails (turn hk) rfl hne, fun row hk => named_fails (turn hk) rfl hne, fun row mode hk => named_fails (turn hk) rfl hne,
        fun t r hk => named_fails (turn hk) rfl hne⟩,
      fun b h hb => ⟨fun hh hk hdue => pexit_leaves hb hh (turn hk) hdue, fun row hh hk => ⟨pbcast_leaves hb hh (turn hk), fun j hj => loadBx_bx b row hj⟩,
        fun t r hh hk => pread_reads hb hh (turn hk), fun row mode hh hk => ?_⟩⟩
    intro e r w0 step reserved beyond place away good
    refine ⟨fun hcount => pmac_refused hb hh (turn hk) (listRefusal_count _ _ hcount), fun i hi hw hbefore => ⟨fun hres => ?_, fun hres hbey => ?_⟩,
      fun hg hnone hlost => pmac_lost hb hh (turn hk) hg hnone hlost, fun hg hhere hdam => pmac_damaged hb hh (turn hk) hg hhere hdam,
      fun i v hg hi hhere hwait hv => pmac_walks hb hh (turn hk) hg hi hhere hwait hv, fun hlist hok => pmac_leaves hb hh (turn hk) hlist hok⟩
    · exact pmac_refused hb hh (turn hk) (listRefusal_first hw hi (fun j hj => stepRefusal_none.mpr (hbefore j hj)) ((stepRefusal_word ..).trans (if_pos hres)))
    · exact pmac_refused hb hh (turn hk) (listRefusal_first hw hi (fun j hj => stepRefusal_none.mpr (hbefore j hj))
        ((stepRefusal_word ..).trans ((if_neg hres).trans (if_pos hbey))))
  case walk =>
    intro s die asid vpn h
    obtain ⟨hbad, hgood⟩ := exec_walkComplete h
    exact ⟨fun hin => ⟨_, hbad hin, walkAnswer_enters ..⟩, fun hin => ⟨fun p hpage hhere => ⟨_, (hgood hin).1 p hpage hhere, walkAnswer_enters ..⟩,
      fun hpage => ⟨_, (hgood hin).2 hpage, walkAnswer_enters ..⟩⟩⟩

end Sys2Proof.Machine
